-- ==== Sys2Proof/Word.lean ====
section
/-! DEFINITION. The word types of the module: bytes, 32-bit register words (R495) and 64-bit memory words and operand slots (R126, R221). -/

namespace Sys2Proof

/-- One byte of vital RAM, lattice SRAM, NOR or a telegram. -/
abbrev Byte := BitVec 8

/-- A register (R495): 32 bits. -/
abbrev Half := BitVec 32

/-- An operand slot (R126) or a memory word (R221): 64 bits. -/
abbrev Word := BitVec 64

end Sys2Proof
end

