-- ==== Sys2Proof/Syntax.lean ====
section
/-! DEFINITION. The commands of the block (95_what_each_step_holds.md: each is one whole step) and their operands: what comes from outside the module, and what only the physical world can tell. -/

namespace Sys2Proof

/-- A lane (R170). -/
inductive LaneId where
  | a | b | c
  deriving DecidableEq, Repr

/-- The kind of a voted transaction (R173). -/
inductive TxKind where
  | read | write | regRead | regWrite | ringPost | ringFetch | latRequest | outImage | snufferEnable | beat
  deriving DecidableEq, Repr

/-- What one lane presents at the compare point (R173). -/
structure LaneTx where
  /-- 40-bit target address; for a ring, the ring number. -/
  addr : BitVec 40
  /-- Byte enables. -/
  be : BitVec 64
  /-- Payload of up to 64 B. -/
  data : List Byte
  kind : TxKind
  size : Nat
  priv : Bool
  seq : BitVec 16
  /-- Lane clock of arrival after the outbound delay. -/
  at' : Nat
  deriving DecidableEq, Repr

/-- What one voter sees of the three lanes; `none`: the lane timed out (R174). -/
structure Seen where
  a : Option LaneTx
  b : Option LaneTx
  c : Option LaneTx
  deriving DecidableEq, Repr

/-- What a physical fault has done to the code word of an address (R222, R223): data and check bits that are inverted, in one copy or in both. -/
inductive MemFinding where
  /-- Nothing beyond what State holds. -/
  | clean
  /-- Bits inverted in the true (P) or in the inverted (N) copy. -/
  | flip (inverted : Bool) (data : Word) (check : BitVec 16)
  /-- Bits inverted in both copies. -/
  | flips (d0 d1 : Word) (c0 c1 : BitVec 16)
  /-- One copy answers with a word keyed to another address: an address line is stuck, open or bridged (R223). -/
  | wrongKey (inverted : Bool)
  /-- One copy reads as 80 zeros, or as 80 ones (R223). -/
  | allSame (inverted ones : Bool)
  /-- The two banks are swapped: neither copy carries its own key (R223). -/
  | swapped
  /-- A misdirected write has left the inverted copy with stale data and a good code: both pass and are not complements (R224). -/
  | stale
  deriving DecidableEq, Repr

/-- What the memory does in one access, beyond what State holds. -/
structure MemIn where
  /-- A physical fault that has struck the word. -/
  find : MemFinding := .clean
  /-- NOR answers when a page is reloaded (R229). -/
  norOk : Bool := true
  /-- A word written in the ring area reads back as written (R224). -/
  verify : Bool := true
  deriving DecidableEq, Repr

/-- One transaction as V1 and V2 see it (R176). -/
structure VotedTx where
  v1 : Seen
  v2 : Seen
  /-- What the memory does with it. -/
  hit : MemIn := {}
  deriving DecidableEq, Repr

/-- The quantities of the lane monitor (R202). -/
inductive MonQuantity where
  | supply | temperature | skew
  deriving DecidableEq, Repr

/-- One sample of a quantity for the three lanes: supply in µV, temperature in mK, skew in fs (R202). -/
structure MonSample where
  a : Int
  b : Int
  c : Int
  deriving DecidableEq, Repr

/-- The last eight samples of one quantity, oldest first, as the monitor halves of V1 and V2 hold them (R179, R202). -/
structure MonIn where
  v1 : List MonSample
  v2 : List MonSample
  deriving DecidableEq, Repr

/-- The duplex units (R15). -/
inductive DuplexUnit where
  | voter | lattice | field
  deriving DecidableEq, Repr

/-- What the power-up sequence finds (R479, R481). -/
structure PowerUpIn where
  /-- `DBG_EN` at the release of NRST (R210). -/
  strap : Bool
  vbakMv : Nat
  /-- FRAM answers (R481). -/
  framOk : Bool
  /-- LBIST of lanes A, B, C and of the duplex halves (R480). -/
  lbistA : Bool
  lbistB : Bool
  lbistC : Bool
  lbistUnits : Bool
  /-- Every word of vital RAM passes its code after step 4 (R220). -/
  ramOk : Bool
  /-- NOR reads of step 4 succeed. -/
  norOk : Bool
  /-- NOR reads of the code load after a fallback to `PREV` succeed (R479). -/
  norAgain : Bool
  /-- Compare paths that do not see their forced difference, bit n - 1 for injection n of R199. -/
  injMissed : BitVec 24
  /-- Walking-ones test passed (R201). -/
  walkOk : Bool
  /-- Temperature-independent duration of steps 2 to 9 in periods of the reference. -/
  periods : Nat
  deriving DecidableEq, Repr

/-- What a relight finds (R184). -/
structure RelightIn where
  lane : LaneId
  /-- Compare paths of the relit lane that do not see their forced difference, V1's four then V2's four (R199, R200). -/
  missed : BitVec 8
  /-- A duplex unit disagrees during the pause (R180). -/
  disagree : Option DuplexUnit
  /-- The forced signature beats of the three lanes (R175, R184). -/
  beat : VotedTx
  deriving DecidableEq, Repr

/-- What a duplex restart finds (R194, R394, R121). -/
structure RestartIn where
  unit : DuplexUnit
  /-- Restored states agree. -/
  restored : Bool
  /-- Compare paths that do not see their forced difference: voter, bit n - 1 for injection n. -/
  missed : BitVec 24
  /-- For each held transaction, which of the two views each voter has of each lane in the new vote: bits 0 to 2 V1's view of lanes A to C is that of V2, bits 3 to 5 V2's view is that of V1 (R194). -/
  again : List (BitVec 6)
  /-- Crossings kept by the field sides that are not yet recorded: pin, rising, stamp (R393). -/
  crossings : List (Fin 32 × Bool × Word)
  /-- Crossings lost beyond 16, per pin (R393). -/
  lost : List (Fin 32 × Nat)
  deriving DecidableEq, Repr

/-- A VBC instruction word (R125); `laneB` names lane B in split mode (R206). -/
structure VInstr where
  ty : BitVec 4
  sub : BitVec 4
  dst : BitVec 16
  src1 : BitVec 16
  src2 : BitVec 16
  laneB : Bool
  deriving DecidableEq, Repr

/-- What the exchange cycle takes (R256, R257). -/
structure QuietIn where
  /-- Duration of reconversion and of the cycle up to the check pass, us. -/
  reconvUs : Nat
  checkUs : Nat
  /-- Stall time of duplex restarts and page reloads within the cycle, us. -/
  stallUs : Nat
  deriving DecidableEq, Repr

/-- A frame received on a vital bus port or, for delay messages, on a module link. -/
structure BusFrame where
  /-- Bus ports 0 X DOWN, 1 X UP, 2 Y DOWN, 3 Y UP; 4 to 6: module links 0 to 2. -/
  port : Fin 7
  /-- The 64-bit frame header. -/
  header : Word
  payload : List Byte
  /-- The received check values: CVU-P in bits 31:0, CVU-Q in bits 63:32. -/
  check : Word
  /-- Arrival within the present period of the reference, ns. -/
  ns : Fin 10
  /-- Links: the station time that the link carries from an integrated peer (R44). -/
  time : Option Word := none
  /-- Links: `LSEQ` (R54). -/
  lseq : Half := 0
  deriving DecidableEq, Repr

/-- What a module link puts around a payload: the 16-B link header and the two check values, CRC-32C in bits 31:0 (R54). -/
structure LinkCover where
  head : BitVec 128 := 0
  check : Word := 0
  deriving DecidableEq, Repr

/-- A telegram received on Ethernet or a module link. -/
structure TelIn where
  /-- Ethernet ports 0 to 3, module links 4 to 6. -/
  port : Fin 7
  /-- Match key: UDP destination port or channel tag. -/
  tag : BitVec 16
  data : List Byte
  /-- Module links: header and check values of the link frame, whose `CHTAG` is the match key and whose `PLEN` bytes of `data` are the telegram (R54). -/
  link : LinkCover := {}
  deriving DecidableEq, Repr

/-- A frame that is no telegram. -/
structure EthFrame where
  /-- Ingress port; `none`: the module itself sends it. -/
  port : Option (Fin 4)
  bytes : List Byte
  /-- External port through which the switch forwards it, and its residence time, ns (R330). -/
  out : Option (Fin 4)
  resNs : Nat
  deriving DecidableEq, Repr

/-- A mirror message of a hot-standby pair (R56), as received. -/
structure MirrorMsg where
  stream : BitVec 8
  mseq : Half
  tMsg : Word
  body : List Byte
  /-- The message's own check values, CVU-P in bits 31:0 (R56). -/
  check : Word
  /-- Header and check values of its link frame (R54). -/
  link : LinkCover
  deriving DecidableEq, Repr

/-- What an engine step finds in the duplex pair (R121) and in the words it reads (R234, R235). -/
structure EngineIn where
  /-- P and N disagree on this step. -/
  disagree : Bool
  /-- Words of lattice SRAM that a physical fault has struck and that the step reads. -/
  hits : List (BitVec 40 × MemFinding) := []
  deriving DecidableEq, Repr

/-- A status message of a pin's field side (R367). -/
structure StatusMsg where
  /-- Check passes. -/
  good : Bool
  /-- Current limit active. -/
  limit : Bool
  /-- Output current, mA. -/
  iMa : Nat
  /-- Voltage at the pin, 0.1 V: the input level (R371), the readback of an output (R377). -/
  vDv : Nat
  /-- The two sequencer halves disagree on it. -/
  disagree : Bool
  deriving DecidableEq, Repr

/-- The outcome of an off-pulse (R381, R385). -/
structure PulseIn where
  /-- Time from the start of the pulse at which the readback has become low and stays low, us (R381). -/
  lowUs : Option Nat
  /-- Currents before and during the pulse of the other pins, mA. -/
  rises : List (Fin 32 × Nat × Nat)
  /-- Pins whose readback fell within the pulse (R385). -/
  falls : List (Fin 32)
  deriving DecidableEq, Repr

/-- The outcome of a path test (R407). -/
structure PathTestIn where
  /-- Time until the node is below its threshold and held, us; none: not within 150 us. -/
  decayUs : Option Nat
  /-- KAUX stays low (path b). -/
  kauxLow : Bool
  /-- Time from closing until FSW is at 16.0 V again, us (path a); none: it is not. -/
  recloseUs : Option Nat
  deriving DecidableEq, Repr

/-- What programming a page finds (R435). -/
structure CommitIn where
  /-- Blocks that fail to program or erase before one succeeds. -/
  fails : Nat
  deriving DecidableEq, Repr

/-- A relay segment (R461). -/
structure RelaySeg where
  /-- Transport as coded in R459: 0 bus, 1 to 4 Ethernet ports 0 to 3, 5 to 7 links 0 to 2. -/
  transport : Fin 8
  /-- Sender's node ID or cluster number. -/
  node : Byte
  /-- The relay word. -/
  word : Half
  /-- Bus: destination node ID (R461). -/
  dest : Byte := 0
  bytes : List Byte
  /-- Module links: header and check values of the RELAY frame (R54). -/
  link : LinkCover := {}
  deriving DecidableEq, Repr

/-- What the halves of the duplex units find at a boundary (R18, R23, R59). -/
structure BoundaryIn where
  /-- The pending duplex restarts that complete at it. -/
  restarts : List RestartIn := []
  /-- P and N disagree on the timer step, and the words it reads. -/
  engine : EngineIn := { disagree := false }
  /-- The sequencer halves disagree on the output write. -/
  field : Bool := false
  /-- The bus guardian's cycle start less the controller's, ns (R298). -/
  skew : Int := 0
  deriving DecidableEq, Repr

/-- The commands of the block: one constructor per row of the table. `dt` is the number of 10 ns periods of the reference that passed since the previous command. -/
inductive Instr where
  /-- POWER_UP (R479): the power-up sequence, with what its physical tests find -/
  | powerUp (dt : Nat) (p : PowerUpIn)
  /-- NRST_LOW (R415): NRST is low for `ns` nanoseconds so far -/
  | nrstLow (dt : Nat) (ns : Nat)
  /-- POWER_FAIL_WARNING (R483): two consecutive VIN samples, and how long VIN then stays at or above 10.0 V -/
  | powerFailWarning (dt : Nat) (mv1 mv2 : Nat) (holdUs : Nat)
  /-- VIN_LOSS (R487): VIN falls below 10.0 V -/
  | vinLoss (dt : Nat)
  /-- RTC_LOST (R488): VBAK falls below 1.8 V without VIN -/
  | rtcLost (dt : Nat)
  /-- CLOCK_FAULT (R28): deviation of the reference from the monitor -/
  | clockFault (dt : Nat) (ppm : Int) (stopped : Bool)
  /-- MINOR_CYCLE_BOUNDARY (R23): the cycle position returns to 0; `b`: what the duplex units find at it -/
  | minorCycleBoundary (b : BoundaryIn)
  /-- MAJOR_CYCLE_BOUNDARY (R168): the boundary just taken is a major-cycle boundary -/
  | majorCycleBoundary (dt : Nat)
  /-- INPUT_FREEZE (R144): the position IN_FREEZE is reached -/
  | inputFreeze (dt : Nat)
  /-- OUTPUT_APPLY (R145): the position OUT_APPLY is reached; `dt`, and whether the sequencer halves differ on the output write (R18) -/
  | outputApply (x : Nat × Bool)
  /-- COMPARE_POINT (R143): compare point `n` is reached -/
  | comparePoint (dt : Nat) (n : Fin 8)
  /-- VOTED_TRANSACTION (R176): one transaction of the lit lanes at the compare point -/
  | votedTransaction (dt : Nat) (tx : VotedTx)
  /-- SIGNATURE_BEAT (R175): one signature beat at the compare point -/
  | signatureBeat (dt : Nat) (tx : VotedTx)
  /-- LANE_TIMEOUT (R174): one transaction that a lit lane has not presented within 96 lane clocks of the earliest -/
  | laneTimeout (dt : Nat) (tx : VotedTx)
  /-- LANE_MONITOR_TRIP (R202): a lane lies beyond the trip point of quantity `q` in 8 consecutive samples -/
  | laneMonitorTrip (dt : Nat) (q : MonQuantity) (m : MonIn)
  /-- SELF_TEST_DONE (R180): the self-test of a dimmed lane ends -/
  | selfTestDone (dt : Nat) (l : LaneId) (pass : Bool)
  /-- RELIGHT (R184): the relight timeline of the READY lane -/
  | relight (dt : Nat) (r : RelightIn)
  /-- RESTART_COMPLETE (R24): a duplex restart ends with the checks found -/
  | restartComplete (dt : Nat) (r : RestartIn)
  /-- HOLD_WINDOW_EXPIRY (R24): 200 us have passed since the first disagreement -/
  | holdWindowExpiry (dt : Nat)
  /-- DEGRADED_NOTICE (R189): one hour of the degraded limit remains -/
  | degradedNotice (dt : Nat)
  /-- DEGRADED_EXPIRED (R190): the degraded limit has expired at a major-cycle boundary -/
  | degradedExpired (dt : Nat)
  /-- DEBUG_ATTACH (R211): the debugger attaches to lane `l` -/
  | debugAttach (dt : Nat) (l : LaneId)
  /-- DEBUG_DETACH (R212): `dt`, and the lane from which the debugger detaches -/
  | debugDetach (x : Nat × LaneId)
  /-- DEBUG_HALT (R214): the debugger halts lane `l` -/
  | debugHalt (dt : Nat) (l : LaneId)
  /-- DEBUG_ATTACH_LIMIT (R213): the attachment has lasted the degraded limit -/
  | debugAttachLimit (dt : Nat)
  /-- DEBUG_DENIED (R210): an access attempt on the inert interface -/
  | debugDenied (dt : Nat) (l : LaneId) (act : Byte)
  /-- NOP (R128): no operation -/
  | vNop (dt : Nat) (w : VInstr)
  /-- MOV (R128): d <- a -/
  | vMov (dt : Nat) (w : VInstr)
  /-- LDI (R128): d <- immediate -/
  | vLdi (dt : Nat) (w : VInstr)
  /-- LDX (R128): indexed load -/
  | vLdx (dt : Nat) (w : VInstr)
  /-- STX (R128): indexed store -/
  | vStx (dt : Nat) (w : VInstr)
  /-- CAST (R129): type conversion -/
  | vCast (dt : Nat) (w : VInstr)
  /-- ADD (R129): d <- a + b -/
  | vAdd (dt : Nat) (w : VInstr)
  /-- SUB (R129): d <- a - b -/
  | vSub (dt : Nat) (w : VInstr)
  /-- MUL (R129): d <- a * b -/
  | vMul (dt : Nat) (w : VInstr)
  /-- DIV (R129): d <- a / b -/
  | vDiv (dt : Nat) (w : VInstr)
  /-- MOD (R129): d <- remainder -/
  | vMod (dt : Nat) (w : VInstr)
  /-- NEG (R129): d <- -a -/
  | vNeg (dt : Nat) (w : VInstr)
  /-- ABS (R129): d <- absolute value -/
  | vAbs (dt : Nat) (w : VInstr)
  /-- MIN (R128): smaller -/
  | vMin (dt : Nat) (w : VInstr)
  /-- MAX (R128): larger -/
  | vMax (dt : Nat) (w : VInstr)
  /-- LIM (R128): clamp -/
  | vLim (dt : Nat) (w : VInstr)
  /-- AND (R128): and -/
  | vAnd (dt : Nat) (w : VInstr)
  /-- OR (R128): or -/
  | vOr (dt : Nat) (w : VInstr)
  /-- XOR (R128): exclusive or -/
  | vXor (dt : Nat) (w : VInstr)
  /-- NOT (R128): not -/
  | vNot (dt : Nat) (w : VInstr)
  /-- SHL (R128): shift left -/
  | vShl (dt : Nat) (w : VInstr)
  /-- SHR (R128): shift right -/
  | vShr (dt : Nat) (w : VInstr)
  /-- ROL (R128): rotate left -/
  | vRol (dt : Nat) (w : VInstr)
  /-- ROR (R128): rotate right -/
  | vRor (dt : Nat) (w : VInstr)
  /-- CEQ (R128): a = b -/
  | vCeq (dt : Nat) (w : VInstr)
  /-- CNE (R128): a differs from b -/
  | vCne (dt : Nat) (w : VInstr)
  /-- CLT (R128): a below b -/
  | vClt (dt : Nat) (w : VInstr)
  /-- CLE (R128): a at most b -/
  | vCle (dt : Nat) (w : VInstr)
  /-- CGT (R128): a above b -/
  | vCgt (dt : Nat) (w : VInstr)
  /-- CGE (R128): a at least b -/
  | vCge (dt : Nat) (w : VInstr)
  /-- BTST (R128): bit test -/
  | vBtst (dt : Nat) (w : VInstr)
  /-- BSET (R128): bit set -/
  | vBset (dt : Nat) (w : VInstr)
  /-- BCLR (R128): bit clear -/
  | vBclr (dt : Nat) (w : VInstr)
  /-- JMP (R128): jump -/
  | vJmp (dt : Nat) (w : VInstr)
  /-- JT (R128): jump if true -/
  | vJt (dt : Nat) (w : VInstr)
  /-- JF (R128): jump if false -/
  | vJf (dt : Nat) (w : VInstr)
  /-- CALL (R131): call a block -/
  | vCall (dt : Nat) (w : VInstr)
  /-- RET (R145): return -/
  | vRet (dt : Nat) (w : VInstr)
  /-- TSTAMP (R322): station time -/
  | vTstamp (dt : Nat) (w : VInstr)
  /-- POST (R362): post a record to a ring; the instruction, and what the memory does in its access (R224) -/
  | vPost (dt : Nat) (x : VInstr × MemIn)
  /-- FETCH (R128): fetch a record from a ring; the instruction, and what the memory does in its access (R225) -/
  | vFetch (dt : Nat) (x : VInstr × MemIn)
  /-- RDREG (R130): register read -/
  | vRdreg (dt : Nat) (w : VInstr)
  /-- WRREG (R502): register write -/
  | vWrreg (dt : Nat) (w : VInstr)
  /-- TMR (R153): timer -/
  | vTmr (dt : Nat) (w : VInstr)
  /-- EDG (R154): edge detector -/
  | vEdg (dt : Nat) (w : VInstr)
  /-- FLT (R155): filter -/
  | vFlt (dt : Nat) (w : VInstr)
  /-- TOKV (R159): token verification -/
  | vTokv (dt : Nat) (w : VInstr)
  /-- TRAP (R130): trap -/
  | vTrap (dt : Nat) (w : VInstr)
  /-- SYS_TRIP (R508): a write to SYS_TRIP through any view -/
  | sysTrip (dt : Nat) (view : Fin 4) (data : Half)
  /-- EVENT_TASK_RELEASE (R142): the release of an event task whose trigger waits -/
  | eventTaskRelease (dt : Nat) (task : Nat)
  /-- TASK_OVERRUN (R148): a release reaches its deadline, or a FREE iteration its limit -/
  | taskOverrun (dt : Nat) (task : Nat) (laneB : Bool)
  /-- REQ_NORMAL (R146): task 48 sets REQ_NORMAL -/
  | reqNormal (dt : Nat)
  /-- REQ_TEST (R146): the program sets REQ_TEST -/
  | reqTest (dt : Nat)
  /-- VERIFIED_ENTRY_EXPIRY (R160): a verified token ages out -/
  | verifiedEntryExpiry (dt : Nat) (id : Half)
  /-- FORCE_SET (R162): the SET command (or one without defined OP) at the head of ring 53 -/
  | forceSet (dt : Nat)
  /-- FORCE_CLEAR (R162): the CLEAR command at the head of ring 53 -/
  | forceClear (dt : Nat)
  /-- FORCE_CLEAR_ALL (R162): the CLEAR_ALL command at the head of ring 53 -/
  | forceClearAll (dt : Nat)
  /-- FORCE_EXPIRY (R165): a force reaches its expiry -/
  | forceExpiry (dt : Nat) (dir : Bool) (point : BitVec 13)
  /-- SCRUB_READ (R231): the scrubber reads its next word, with what a physical fault has left there -/
  | scrubRead (dt : Nat) (f : MemIn)
  /-- SCRUB_PASS_LATE (R232): the pass has run 9 s -/
  | scrubPassLate (dt : Nat)
  /-- INJ_ARM (R236): a plain write to MEM_CTL -/
  | injArm (dt : Nat) (data : Half)
  /-- XCHG_LOAD (R239): LOAD in XCHG_CMD -/
  | xchgLoad (dt : Nat) (bankB : Bool)
  /-- XCHG_LOAD_DONE (R239): the slot is loaded, or a NOR read error -/
  | xchgLoadDone (dt : Nat) (norOk : Bool)
  /-- XCHG_CHECK_DONE (R240): the checks of R240 end -/
  | xchgCheckDone (dt : Nat)
  /-- PREPARATION_COMPLETE (R247): preparation ends -/
  | preparationComplete (dt : Nat)
  /-- XCHG_ARM (R250): ARM in XCHG_CMD -/
  | xchgArm (dt : Nat)
  /-- XCHG_DISARM (R253): DISARM in XCHG_CMD -/
  | xchgDisarm (dt : Nat)
  /-- XCHG_WINDOW (R254): the commanded boundary opens the window -/
  | xchgWindow (dt : Nat)
  /-- QUIET_POINT (R256): no release runs: the exchange cycle -/
  | quietPoint (dt : Nat) (q : QuietIn)
  /-- SYNC (R294): a SYNC frame is received -/
  | sync (dt : Nat) (f : BusFrame)
  /-- COLDSTART (R300): a COLDSTART frame is received -/
  | coldstart (dt : Nat) (f : BusFrame)
  /-- VITAL (R292): a VITAL frame is received -/
  | vital (dt : Nat) (f : BusFrame)
  /-- BACKGROUND (R291): a BACKGROUND frame is received -/
  | background (dt : Nat) (f : BusFrame)
  /-- NULL (R284): a NULL frame is received -/
  | null (dt : Nat) (f : BusFrame)
  /-- DELAY_REQ (R286): a DELAY_REQ is received on a bus port or a link -/
  | delayReq (dt : Nat) (f : BusFrame)
  /-- DELAY_RESP (R286): a DELAY_RESP is received on a bus port or a link -/
  | delayResp (dt : Nat) (f : BusFrame)
  /-- LINK_DELAY_MEASURE (R287): a port starts a delay measurement -/
  | linkDelayMeasure (dt : Nat) (port : Fin 7)
  /-- PORT_LINK_UP (R287): a bus port completes link training -/
  | portLinkUp (dt : Nat) (port : Fin 4)
  /-- TXRING_TAKE (R284): the frame of an own slot is prepared -/
  | txringTake (dt : Nat) (slot : Nat)
  /-- SLOT_START (R285): an own slot begins -/
  | slotStart (dt : Nat) (slot : Nat)
  /-- VBUS_ENABLE (R300): a plain write to VBUS_CTL -/
  | vbusEnable (dt : Nat) (data : Half)
  /-- LISTEN_TIMEOUT (R300): the listening time ends -/
  | listenTimeout (dt : Nat)
  /-- BACKOFF_EXPIRY (R302): the back-off time ends -/
  | backoffExpiry (dt : Nat)
  /-- LAMPLIGHTER_TAKEOVER (R304): the SYNC frames of the lamplighter stay out -/
  | lamplighterTakeover (dt : Nat)
  /-- BUS_LOST (R301): the node loses the bus -/
  | busLost (dt : Nat)
  /-- BUS_SILENCE (R28): an active pair member hears neither channel for a minor cycle -/
  | busSilence (dt : Nat)
  /-- TELEGRAM (R335): a telegram is received on Ethernet or a module link -/
  | telegram (dt : Nat) (t : TelIn)
  /-- ETHERNET_FRAME (R330): a frame that is no telegram is received or forwarded -/
  | ethernetFrame (dt : Nat) (f : EthFrame)
  /-- TELEGRAM_SEALING (R356): the descriptor at the head of a transmit ring is taken -/
  | telegramSealing (dt : Nat) (ring : Fin 64)
  /-- CREATE (R352): a channel is created -/
  | create (dt : Nat) (index : Fin 4096)
  /-- DESTROY (R352): a channel is destroyed -/
  | destroy (dt : Nat) (handle : Half)
  /-- KEY_COMMIT (R348): the key buffer is committed -/
  | keyCommit (dt : Nat) (slot : Nat)
  /-- KEY_LOCK (R348): a key register is locked -/
  | keyLock (dt : Nat) (slot : Nat)
  /-- CVU_FEED (R336): a write to the software port -/
  | cvuFeed (dt : Nat) (data : Half)
  /-- LINK_RETRAIN (R43): a link lane fails: the link retrains -/
  | linkRetrain (dt : Nat) (l : Fin 3) (width : Nat)
  /-- LAT_COMMIT (R57): mirror message LAT_COMMIT -/
  | latCommit (dt : Nat) (m : MirrorMsg)
  /-- CHANNEL (R57): mirror message CHANNEL -/
  | channel (dt : Nat) (m : MirrorMsg)
  /-- FORCE (R57): mirror message FORCE -/
  | force (dt : Nat) (m : MirrorMsg)
  /-- COMMAND (R57): mirror message COMMAND -/
  | command (dt : Nat) (m : MirrorMsg)
  /-- RAM_WRITE (R57): mirror message RAM_WRITE -/
  | ramWrite (dt : Nat) (m : MirrorMsg)
  /-- BOUNDARY (R49): mirror message BOUNDARY -/
  | boundary (dt : Nat) (m : MirrorMsg)
  /-- SOLO (R51): mirror message SOLO -/
  | solo (dt : Nat) (m : MirrorMsg)
  /-- SAFE_STATE (R51): mirror message SAFE_STATE -/
  | safeStateMark (dt : Nat) (m : MirrorMsg)
  /-- HANDOVER (R51): mirror message HANDOVER -/
  | handover (dt : Nat) (m : MirrorMsg)
  /-- COMMIT (R264): mirror message COMMIT -/
  | commitMark (dt : Nat) (m : MirrorMsg)
  /-- ACK (R57): mirror message ACK -/
  | ack (dt : Nat) (m : MirrorMsg)
  /-- SYNC_REQ (R57): mirror message SYNC_REQ -/
  | syncReq (dt : Nat) (m : MirrorMsg)
  /-- MIRROR_FENCE_TIMEOUT (R50): an acknowledgement is missing for 10 us -/
  | mirrorFenceTimeout (dt : Nat)
  /-- STANDBY_SYNCED (R51): full copy and gap-free streams for one major cycle -/
  | standbySynced (dt : Nat)
  /-- TAKEOVER (R52): the standby takes over at a boundary -/
  | takeover (dt : Nat)
  /-- SET (R101): the engine decides a SET request -/
  | set (dt : Nat) (u : EngineIn)
  /-- CANCEL (R101): the engine decides a CANCEL request -/
  | cancel (dt : Nat) (u : EngineIn)
  /-- ELEMENT_BLOCK (R111): the engine decides an ELEMENT_BLOCK request -/
  | elementBlock (dt : Nat) (u : EngineIn)
  /-- ELEMENT_UNBLOCK (R111): the engine decides an ELEMENT_UNBLOCK request -/
  | elementUnblock (dt : Nat) (u : EngineIn)
  /-- POINT_LOCK (R111): the engine decides a POINT_LOCK request -/
  | pointLock (dt : Nat) (u : EngineIn)
  /-- POINT_FREE (R111): the engine decides a POINT_FREE request -/
  | pointFree (dt : Nat) (u : EngineIn)
  /-- EMERGENCY_RELEASE (R113): the engine decides an EMERGENCY_RELEASE request -/
  | emergencyRelease (dt : Nat) (u : EngineIn)
  /-- UNDEFINED_REQUEST (R541): the engine answers a request without defined OP -/
  | undefinedRequest (dt : Nat) (u : EngineIn)
  /-- UPDATE (R89): the engine carries out an element update -/
  | update (dt : Nat) (u : EngineIn)
  /-- RESULT_WRITE_RESUME (R94): ring 51 has room again -/
  | resultWriteResume (dt : Nat)
  /-- RESULT_PAUSE (R94): ring 51 has paused the engine for more than a minor cycle -/
  | resultPause (dt : Nat)
  /-- CANCEL_TIME_EXPIRY (R101): a route's cancel time has run; the route, and what the engine step finds -/
  | cancelTimeExpiry (dt : Nat) (x : Fin 4096 × EngineIn)
  /-- APPROACH_TIME_EXPIRY (R101): a route's approach time has run; the route, and what the engine step finds -/
  | approachTimeExpiry (dt : Nat) (x : Fin 4096 × EngineIn)
  /-- OVERLAP_TIME_EXPIRY (R103): an overlap's time has run; the overlap, and what the engine step finds -/
  | overlapTimeExpiry (dt : Nat) (x : Fin 2048 × EngineIn)
  /-- ZONE_LAPSE (R113): step 1 of an emergency release lapses; the ZONE element, and what the engine step finds -/
  | zoneLapse (dt : Nat) (x : Fin 16384 × EngineIn)
  /-- BORDER_TIMEOUT (R46): a border copy is older than the border timeout; the element, and what the engine step finds -/
  | borderTimeout (dt : Nat) (x : Fin 16384 × EngineIn)
  /-- INPUT_CROSSING (R373): a threshold crossing of an input; `x`: the new level in mV, and whether the sequencer halves differ on its record (R18) -/
  | inputCrossing (dt : Nat) (pin : Fin 32) (x : Nat × Bool) (ageNs widthNs : Nat)
  /-- CONFIRMED_CHANGE (R374): an input has read one value for its window -/
  | confirmedChange (dt : Nat) (pin : Fin 32)
  /-- IN_BAND (R384): an input has been in band for longer than its window -/
  | inBand (dt : Nat) (pin : Fin 32)
  /-- COUPLER_LOST (R384): no valid message from a pin for 20 us -/
  | couplerLost (dt : Nat) (pin : Fin 32)
  /-- FIELD_STATUS_MESSAGE (R367): a status message of a pin -/
  | fieldStatus (dt : Nat) (pin : Fin 32) (m : StatusMsg)
  /-- REFRESH_FRAME (R390): the periodic command frame of a pin -/
  | refreshFrame (dt : Nat) (pin : Fin 32) (good : Bool)
  /-- TIMED_OUT (R390): a field-side refresh timer runs out -/
  | timedOut (dt : Nat) (pin : Fin 32)
  /-- STAGGERED_SWITCH_ON (R378): the next waiting switch-on is issued -/
  | staggeredSwitchOn (dt : Nat) (pin : Fin 32)
  /-- TEST_SLOT (R380): the test slot of a pin begins -/
  | testSlot (dt : Nat) (pin : Fin 32)
  /-- OFF_PULSE_END (R381): an off-pulse ends -/
  | offPulseEnd (dt : Nat) (pin : Fin 32) (r : PulseIn)
  /-- LIGHT_TEST_END (R382): a light test ends -/
  | lightTestEnd (dt : Nat) (pin : Fin 32) (highUs : Option Nat) (rises : List (Fin 32))
  /-- CROSS_WATCH_END (R385): the watch of R385 ends -/
  | crossWatchEnd (dt : Nat) (pin : Fin 32)
  /-- OVERLOAD (R384): current limit held 5 ms, or thermal shutdown -/
  | overload (dt : Nat) (pin : Fin 32) (thermal : Bool)
  /-- GROUP_OVERLOAD (R384): group current above 4.0 A for 5 ms -/
  | groupOverload (dt : Nat) (g : Fin 4) (ma : Nat)
  /-- DRIVE_FAIL (R384): readback low for 300 us while commanded on -/
  | driveFail (dt : Nat) (pin : Fin 32)
  /-- SUPPLY_WINDOW (R388): one 100 us window of a group supply -/
  | supplyWindow (dt : Nat) (g : Fin 4) (mv : Nat)
  /-- UNPOWERED (R388): the 21st window below 16.0 V -/
  | unpowered (dt : Nat) (g : Fin 4) (mv : Nat)
  /-- UNPOWERED_EXIT (R389): the group has been at or above 19.5 V for 10 ms -/
  | unpoweredExit (dt : Nat) (g : Fin 4) (mv : Nat)
  /-- UNLATCH (R386): a write to FIO_UNLATCH -/
  | unlatch (dt : Nat) (mask : Half)
  /-- SNUFFER_FEED (R400): a snuffer enable transaction is voted -/
  | snufferFeed (dt : Nat) (view : VotedTx)
  /-- PATH_A_TRIP (R401): the path a driver of a group trips -/
  | pathATrip (dt : Nat) (g : Fin 4)
  /-- PATH_A_CLOSE (R404): path a closes after 16 regular intervals -/
  | pathAClose (dt : Nat) (g : Fin 4) (fswMv : Nat)
  /-- KAUX_SAMPLE (R405): the 1 ms sample of KAUX -/
  | kauxSample (dt : Nat) (g : Fin 4) (high : Bool) (fswMv : Nat)
  /-- PATH_TEST (R407): a cut-off path test -/
  | pathTest (dt : Nat) (g : Fin 4) (pathB : Bool) (r : PathTestIn)
  /-- TEST_NOW (R409): TEST_NOW in SNUF_CMD -/
  | testNow (dt : Nat)
  /-- KDROP (R410): KDROP in SNUF_CMD -/
  | kdrop (dt : Nat) (g : Fin 4)
  /-- BUTTON_SAMPLE (R411): the 1 ms sample of the restart contacts -/
  | buttonSample (dt : Nat) (a b : Bool)
  /-- BUTTON_HELD (R411): the press time reaches 5 s -/
  | buttonHeld (dt : Nat)
  /-- BUTTON_TRANSIT_TIMEOUT (R411): TRANSIT for more than 50 ms -/
  | buttonTransitTimeout (dt : Nat)
  /-- BUTTON_RELEASED_1S (R411): REL for 1 s -/
  | buttonReleased1s (dt : Nat)
  /-- STEP (R326): STEP in TIME_CMD -/
  | step (dt : Nat)
  /-- ACCEPT (R326): ACCEPT in TIME_CMD -/
  | accept (dt : Nat)
  /-- KICK (R326): KICK in TIME_CMD -/
  | kick (dt : Nat)
  /-- DISCARD (R326): DISCARD in TIME_CMD -/
  | discard (dt : Nat)
  /-- TIME_INCR (R324): a plain write to TIME_INCR -/
  | timeIncr (dt : Nat) (data : Half)
  /-- ST_SNAPSHOT (R327): a read of TIME_ST_LO -/
  | stSnapshot (dt : Nat)
  /-- RTC_CAPTURE (R492): a read of CAND_RTC_LO -/
  | rtcCapture (dt : Nat)
  /-- CIVIL_HOLDOVER (R326): the KICK watchdog runs out -/
  | civilHoldover (dt : Nat)
  /-- CIVIL_PENDING_DISCARDED (R326): more than 60 s since the last refusal -/
  | civilPendingDiscarded (dt : Nat)
  /-- RTC_WRITE (R328): the hourly write of the RTC -/
  | rtcWrite (dt : Nat)
  /-- TIME_EPOCH_NEAR (R320): CYCLE has reached 0xF0_0000_0000 -/
  | timeEpochNear (dt : Nat)
  /-- CYCLE_LIMIT (R320): CYCLE has reached 0xFF_FFFF_FFFF -/
  | cycleLimit (dt : Nat)
  /-- TIME_PROV_HELD (R315): a provisional CYCLE has reached 0xFFFF_FFFF -/
  | timeProvHeld (dt : Nat)
  /-- RECORD_INGEST (R424): the recorder ingests the record at the head of its queue -/
  | recordIngest (dt : Nat)
  /-- OPEN_RECORD_CLOSE (R427): the open record closes -/
  | openRecordClose (dt : Nat)
  /-- PAGE_COMMIT (R428): one page is programmed -/
  | pageCommit (dt : Nat) (r : CommitIn)
  /-- MOUNT (R430): the mount of the store ends -/
  | mount (dt : Nat) (ok : Bool)
  /-- STALL (R436): a staged record has waited more than 1 s -/
  | stall (dt : Nat)
  /-- FREEZE (R433): FREEZE in EVR_CMD -/
  | freeze (dt : Nat)
  /-- THAW (R433): THAW in EVR_CMD -/
  | thaw (dt : Nat)
  /-- FREEZE_TIMEOUT (R433): 60 s since the freeze -/
  | freezeTimeout (dt : Nat)
  /-- RECORDER_CLEAR (R434): CLEAR in EVR_CMD -/
  | recorderClear (dt : Nat) (part : BitVec 2)
  /-- CLEARING_DONE (R434): the background erase ends -/
  | clearingDone (dt : Nat)
  /-- READ (R431): READ in EVR_CMD, with the sequences of records found corrupt -/
  | read (dt : Nat) (part : BitVec 2) (live : Bool) (bad : List Half)
  /-- READ_STOP (R431): READ_STOP in EVR_CMD -/
  | readStop (dt : Nat)
  /-- RECORDER_EXPIRED (R437): the recorder limit has expired at a major-cycle boundary -/
  | recorderExpired (dt : Nat)
  /-- STAT_UPDATE (R442): 3,600 s since the last statistics update -/
  | statUpdate (dt : Nat)
  /-- OFFER (R463): a segment of an OFFER is received -/
  | offer (dt : Nat) (m : RelaySeg)
  /-- DATA (R462): a DATA segment is received -/
  | data (dt : Nat) (m : RelaySeg)
  /-- GOOD (R462): GOOD is received from a downstream neighbour -/
  | good (dt : Nat) (m : RelaySeg)
  /-- BAD (R462): BAD is received from a downstream neighbour -/
  | bad (dt : Nat) (m : RelaySeg)
  /-- RESUME (R462): RESUME is received from a downstream neighbour -/
  | resume (dt : Nat) (m : RelaySeg)
  /-- REFUSE (R462): REFUSE is received from a downstream neighbour -/
  | refuse (dt : Nat) (m : RelaySeg)
  /-- CHUNK_STORED (R465): the next chunk has been stored and read back -/
  | chunkStored (dt : Nat) (kind : BitVec 2) (norOk : Bool)
  /-- OFFER_REPEAT (R462): 5 s since the last OFFER to a silent neighbour -/
  | offerRepeat (dt : Nat) (kind : BitVec 2)
  /-- CHUNK_TIMEOUT (R464): no GOOD or BAD 1 s after the last segment of a chunk -/
  | chunkTimeout (dt : Nat) (kind : BitVec 2)
  /-- TRANSFER_TIMEOUT (R464): 30 min without an answer -/
  | transferTimeout (dt : Nat) (kind : BitVec 2)
  /-- ABORT_DL (R464): ABORT_DL in UPD_CMD -/
  | abortDl (dt : Nat)
  /-- VERIFY_DONE (R465): the verification of a slot ends -/
  | verifyDone (dt : Nat) (kind : BitVec 2)
  /-- PREPARE (R469): PREPARE in UPD_CMD -/
  | prepare (dt : Nat) (kinds : BitVec 3)
  /-- PREPARE_DONE (R469): the preparation of an activation ends -/
  | prepareDone (dt : Nat)
  /-- UPD_ARM (R469): ARM in UPD_CMD -/
  | updArm (dt : Nat)
  /-- ACTIVATION_CANCEL (R469): CANCEL in UPD_CMD -/
  | activationCancel (dt : Nat)
  /-- ACTIVATION (R468): the armed boundary of an activation -/
  | activation (dt : Nat) (q : QuietIn)
  /-- CONFIRM (R472): CONFIRM in UPD_CMD -/
  | confirm (dt : Nat)
  /-- CONFIRM_TIMEOUT (R472): CONFIRM_S has elapsed -/
  | confirmTimeout (dt : Nat)
  /-- LINK_TRAINING (R54): a module link ends its training -/
  | linkTraining (dt : Nat) (l : Fin 3) (width : Nat)
  /-- PORT_LINK_DOWN (R289): a bus port loses its link -/
  | portLinkDown (dt : Nat) (port : Fin 4)
  /-- ETHERNET_PORT_LINK (R515): an Ethernet port gains or loses its link -/
  | ethernetPortLink (dt : Nat) (port : Fin 4) (up : Bool)
  /-- CREATE_COMPLETE (R352): a creation in progress ends -/
  | createComplete (dt : Nat) (index : Fin 4096)
  /-- CONTROLLER_SELF_CHECK (R436): the recorder controller's self-check -/
  | controllerSelfCheck (dt : Nat) (pass : Bool)
  /-- VBAK_SAMPLE (R492): the 60 s sample of VBAK -/
  | vbakSample (dt : Nat) (mv : Nat)
  /-- VIN_SAG (R444): a VIN sag ends -/
  | vinSag (dt : Nat) (depthPct durUs : Nat)
  /-- TEMPERATURE_SAMPLE (R444): the hottest lane island, once a minute -/
  | temperatureSample (dt : Nat) (tenths : Int)
  deriving DecidableEq, Repr

end Sys2Proof
end

