-- ==== Sys2Proof/Machine/Bits.lean ====
section
/-! DEFINITION. Bit-field, sign and byte-order helpers. Multi-byte fields are little-endian (R62, R419), and bit 0 is the least significant bit. -/

namespace Sys2Proof.Machine

/-- Bits `[lo + n - 1 : lo]` of `v`. -/
def bits (v lo n : Nat) : Nat := v / 2 ^ lo % 2 ^ n

/-- `v` with bits `[lo + n - 1 : lo]` replaced by `x`. -/
def setBits (v lo n x : Nat) : Nat := v - bits v lo n * 2 ^ lo + x % 2 ^ n * 2 ^ lo

/-- Bit `i` of `v`. -/
def bit (v i : Nat) : Bool := v.testBit i

/-- `n` bytes of `v`, least significant first. -/
def leBytes : Nat → Nat → List Byte
  | 0, _ => []
  | n + 1, v => BitVec.ofNat 8 v :: leBytes n (v / 256)

/-- The value of a little-endian byte string. -/
def leNat : List Byte → Nat
  | [] => 0
  | b :: t => b.toNat + 256 * leNat t

/-- `n` little-endian bytes of `l` from byte `off` (bytes past the end count as 0). -/
def fieldAt (l : List Byte) (off n : Nat) : Nat := leNat ((l.drop off).take n)

/-- A byte string from fields of (bytes, value). -/
def packFields : List (Nat × Nat) → List Byte
  | [] => []
  | (n, v) :: t => leBytes n v ++ packFields t

/-- `l` padded with zero bytes to `n`. -/
def padTo (n : Nat) (l : List Byte) : List Byte := l ++ List.replicate (n - l.length) 0#8

/-- `l` padded with zero bytes to a multiple of 8. -/
def pad8 (l : List Byte) : List Byte := padTo ((l.length + 7) / 8 * 8) l

/-- `l` cut or padded to exactly `n` bytes. -/
def fitTo (n : Nat) (l : List Byte) : List Byte := (padTo n l).take n

/-- The two's complement value of the low `w` bits of `v`. -/
def toSigned (w v : Nat) : Int :=
  let x := v % 2 ^ w
  if x < 2 ^ (w - 1) then (x : Int) else (x : Int) - (2 ^ w : Nat)

/-- The low `w` bits of the integer `i`, two's complement. -/
def ofSigned (w : Nat) (i : Int) : Nat := (i % ((2 ^ w : Nat) : Int)).toNat

/-- `x` limited to `m`, the form in which counters saturate. -/
def sat (m x : Nat) : Nat := if x ≤ m then x else m

/-- One bit of a truth value. -/
def b2n (b : Bool) : Nat := if b then 1 else 0

/-- Big-endian bytes, as the vital bus and Ethernet carry them. -/
def beBytes (n v : Nat) : List Byte := (leBytes n v).reverse

/-- The value of a big-endian byte string. -/
def beNat (l : List Byte) : Nat := leNat l.reverse

/-- `true` where `x` and `y` are complements of each other in `n` bytes. -/
def isCompl (n x y : Nat) : Bool := x % 256 ^ n + y % 256 ^ n == 256 ^ n - 1

/-- Number of bits set among the low `n` bits. -/
def popCount : Nat → Nat → Nat
  | 0, _ => 0
  | n + 1, v => v % 2 + popCount n (v / 2)

/-- Replace or append the value of key `k` in a list of (key, value). -/
def assocSet {α : Type} (k : Nat) (v : α) : List (Nat × α) → List (Nat × α)
  | [] => [(k, v)]
  | (j, w) :: t => if j = k then (k, v) :: t else if k < j then (k, v) :: (j, w) :: t else (j, w) :: assocSet k v t

/-- The value of key `k`. -/
def assocGet {α : Type} (k : Nat) : List (Nat × α) → Option α
  | [] => none
  | (j, w) :: t => if j = k then some w else assocGet k t

/-- `l` without key `k`. -/
def assocDel {α : Type} (k : Nat) : List (Nat × α) → List (Nat × α)
  | [] => []
  | (j, w) :: t => if j = k then t else (j, w) :: assocDel k t

/-- Element `i` of `l` replaced by `f` of it. -/
def modNth {α : Type} (f : α → α) : Nat → List α → List α
  | _, [] => []
  | 0, a :: t => f a :: t
  | n + 1, a :: t => a :: modNth f n t

/-- Cut `l` into pieces of `n`, at most `k` of them. -/
def chunks {α : Type} (n : Nat) : Nat → List α → List (List α)
  | 0, _ => []
  | k + 1, l => if l.isEmpty then [] else l.take n :: chunks n k (l.drop n)

/-- The first `some` that `f` answers. -/
def firstSome {α β : Type} (f : α → Option β) : List α → Option β
  | [] => none
  | a :: t => match f a with
    | some b => some b
    | none => firstSome f t

end Sys2Proof.Machine
end

