-- ==== Sys2Proof/Machine/Crypto.lean ====
section
/-! DEFINITION. The published codes that the spec names: AES-128-GMAC (NIST SP 800-38D, R158, R347), SHA-384 (FIPS 180-4) and ECDSA on P-384 (FIPS 186-5, R348, R451). -/

namespace Sys2Proof.Machine

/-! ### AES-128 -/

/-- Multiplication by x in GF(2^8). -/
def xtime (a : Nat) : Nat := let b := 2 * a; if 256 ≤ b then Nat.xor b 0x11B else b

/-- Multiplication in GF(2^8), `n` bits of `b`. -/
def gmul : Nat → Nat → Nat → Nat
  | 0, _, _ => 0
  | n + 1, a, b => Nat.xor (if b % 2 = 1 then a else 0) (gmul n (xtime a) (b / 2))

/-- The inverse in GF(2^8), a^254; 0 for 0. -/
def ginv (a : Nat) : Nat :=
  let sq := fun x => gmul 8 x x
  let a2 := sq a
  let a3 := gmul 8 a2 a
  let a12 := sq (sq a3)
  let a15 := gmul 8 a12 a3
  let a240 := sq (sq (sq (sq a15)))
  gmul 8 a240 (gmul 8 a12 a2)

/-- Rotate a byte left. -/
def rotl8 (n a : Nat) : Nat := (a * 2 ^ n) % 256 + a / 2 ^ (8 - n)

/-- The S-box. -/
def sbox (a : Nat) : Nat :=
  let b := ginv a
  Nat.xor (Nat.xor (Nat.xor b (rotl8 1 b)) (Nat.xor (rotl8 2 b) (rotl8 3 b))) (Nat.xor (rotl8 4 b) 0x63)

/-- Exclusive or of two byte lists. -/
def xorList (a b : List Nat) : List Nat := List.zipWith Nat.xor a b

/-- The next round key (16 bytes) from the last one. -/
def nextKey (rcon : Nat) (k : List Nat) : List Nat :=
  let w := fun i => (k.drop (4 * i)).take 4
  let l := w 3
  let t := (l.drop 1 ++ l.take 1).map sbox
  let t := xorList t [rcon, 0, 0, 0]
  let w0 := xorList (w 0) t
  let w1 := xorList (w 1) w0
  let w2 := xorList (w 2) w1
  let w3 := xorList (w 3) w2
  w0 ++ w1 ++ w2 ++ w3

/-- ShiftRows on a column-major state. -/
def shiftRows (s : List Nat) : List Nat := (List.range 16).map (fun i => s.getD ((i + 4 * (i % 4)) % 16) 0)

/-- MixColumns. -/
def mixColumns (s : List Nat) : List Nat :=
  (List.range 16).map (fun i =>
    let c := 4 * (i / 4)
    let g := fun k => s.getD (c + (i + k) % 4) 0
    Nat.xor (Nat.xor (xtime (g 0)) (Nat.xor (xtime (g 1)) (g 1))) (Nat.xor (g 2) (g 3)))

/-- The rounds of AES-128 with their round constants. -/
def aesRounds : List Nat → List Nat → List Nat → List Nat
  | [], _, s => s
  | [r], k, s => xorList (shiftRows (s.map sbox)) (nextKey r k)
  | r :: t, k, s => let k1 := nextKey r k; aesRounds t k1 (xorList (mixColumns (shiftRows (s.map sbox))) k1)

/-- AES-128 of one block. -/
def aes128 (key block : List Nat) : List Nat :=
  aesRounds [1, 2, 4, 8, 16, 32, 64, 128, 27, 54] key (xorList block key)

/-! ### GMAC -/

/-- The big-endian value of a block. -/
def blockNat (l : List Nat) : Nat := l.foldl (fun n b => n * 256 + b) 0

/-- Multiplication in GF(2^128) of GCM, over the bits of `x` from the top. -/
def ghashMul : Nat → Nat → Nat → Nat → Nat
  | 0, _, _, z => z
  | n + 1, x, v, z =>
    ghashMul n x (if v % 2 = 1 then Nat.xor (v / 2) (0xE1 * 2 ^ 120) else v / 2) (if x.testBit n then Nat.xor z v else z)

/-- GHASH over whole blocks. -/
def ghash (h : Nat) : List (List Nat) → Nat → Nat
  | [], y => y
  | b :: t, y => ghash h t (ghashMul 128 (Nat.xor y (blockNat b)) h 0)

/-- Pad to whole 16-byte blocks. -/
def gcmBlocks (l : List Nat) : List (List Nat) :=
  chunks 16 (l.length / 16 + 1) (l ++ List.replicate ((16 - l.length % 16) % 16) 0)

/-- AES-128-GMAC with a 96-bit IV: the tag over `aad`, 16 bytes. -/
def gmac (key iv aad : List Byte) : List Byte :=
  let k := key.map (fun b => b.toNat)
  let a := aad.map (fun b => b.toNat)
  let h := blockNat (aes128 k (List.replicate 16 0))
  let len := (beBytes 8 (8 * a.length)).map (fun b => b.toNat) ++ List.replicate 8 0
  let y := ghash h (gcmBlocks a ++ [len]) 0
  let e := blockNat (aes128 k (iv.map (fun b => b.toNat) ++ [0, 0, 0, 1]))
  beBytes 16 (Nat.xor y e)

/-! ### SHA-384 -/

/-- Round constants of SHA-512. -/
def shaK : List Nat :=
  [0x428a2f98d728ae22, 0x7137449123ef65cd, 0xb5c0fbcfec4d3b2f, 0xe9b5dba58189dbbc, 0x3956c25bf348b538, 0x59f111f1b605d019, 0x923f82a4af194f9b, 0xab1c5ed5da6d8118] ++
  [0xd807aa98a3030242, 0x12835b0145706fbe, 0x243185be4ee4b28c, 0x550c7dc3d5ffb4e2, 0x72be5d74f27b896f, 0x80deb1fe3b1696b1, 0x9bdc06a725c71235, 0xc19bf174cf692694] ++
  [0xe49b69c19ef14ad2, 0xefbe4786384f25e3, 0x0fc19dc68b8cd5b5, 0x240ca1cc77ac9c65, 0x2de92c6f592b0275, 0x4a7484aa6ea6e483, 0x5cb0a9dcbd41fbd4, 0x76f988da831153b5] ++
  [0x983e5152ee66dfab, 0xa831c66d2db43210, 0xb00327c898fb213f, 0xbf597fc7beef0ee4, 0xc6e00bf33da88fc2, 0xd5a79147930aa725, 0x06ca6351e003826f, 0x142929670a0e6e70] ++
  [0x27b70a8546d22ffc, 0x2e1b21385c26c926, 0x4d2c6dfc5ac42aed, 0x53380d139d95b3df, 0x650a73548baf63de, 0x766a0abb3c77b2a8, 0x81c2c92e47edaee6, 0x92722c851482353b] ++
  [0xa2bfe8a14cf10364, 0xa81a664bbc423001, 0xc24b8b70d0f89791, 0xc76c51a30654be30, 0xd192e819d6ef5218, 0xd69906245565a910, 0xf40e35855771202a, 0x106aa07032bbd1b8] ++
  [0x19a4c116b8d2d0c8, 0x1e376c085141ab53, 0x2748774cdf8eeb99, 0x34b0bcb5e19b48a8, 0x391c0cb3c5c95a63, 0x4ed8aa4ae3418acb, 0x5b9cca4f7763e373, 0x682e6ff3d6b2b8a3] ++
  [0x748f82ee5defb2fc, 0x78a5636f43172f60, 0x84c87814a1f0ab72, 0x8cc702081a6439ec, 0x90befffa23631e28, 0xa4506cebde82bde9, 0xbef9a3f7b2c67915, 0xc67178f2e372532b] ++
  [0xca273eceea26619c, 0xd186b8c721c0c207, 0xeada7dd6cde0eb1e, 0xf57d4f7fee6ed178, 0x06f067aa72176fba, 0x0a637dc5a2c898a6, 0x113f9804bef90dae, 0x1b710b35131c471b] ++
  [0x28db77f523047d84, 0x32caab7b40c72493, 0x3c9ebe0a15c9bebc, 0x431d67c49c100d4c, 0x4cc5d4becb3e42b6, 0x597f299cfc657e2a, 0x5fcb6fab3ad6faec, 0x6c44198c4a475817]

/-- Initial hash value of SHA-384. -/
def sha384Init : List Nat := [0xcbbb9d5dc1059ed8, 0x629a292a367cd507, 0x9159015a3070dd17, 0x152fecd8f70e5939, 0x67332667ffc00b31, 0x8eb44a8768581511, 0xdb0c2e0d64f98fa7, 0x47b5481dbefa4fa4]

/-- Rotate a 64-bit word right. -/
def rotr64 (n a : Nat) : Nat := a / 2 ^ n + a % 2 ^ n * 2 ^ (64 - n)

/-- Small sigmas. -/
def shaS0 (a : Nat) : Nat := Nat.xor (Nat.xor (rotr64 1 a) (rotr64 8 a)) (a / 2 ^ 7)
def shaS1 (a : Nat) : Nat := Nat.xor (Nat.xor (rotr64 19 a) (rotr64 61 a)) (a / 2 ^ 6)

/-- Extend the message schedule by `n` words; the list holds the last 16, newest first. -/
def shaSchedule : Nat → List Nat → List Nat → List Nat
  | 0, _, acc => acc.reverse
  | n + 1, w, acc =>
    let x := (shaS1 (w.getD 1 0) + w.getD 6 0 + shaS0 (w.getD 14 0) + w.getD 15 0) % 2 ^ 64
    shaSchedule n (x :: w.take 15) (x :: acc)

/-- One round. -/
def shaRound (h : List Nat) (kw : Nat × Nat) : List Nat :=
  let g := fun i => h.getD i 0
  let e := g 4
  let a := g 0
  let s1 := Nat.xor (Nat.xor (rotr64 14 e) (rotr64 18 e)) (rotr64 41 e)
  let ch := Nat.xor (Nat.land e (g 5)) (Nat.land (2 ^ 64 - 1 - e) (g 6))
  let t1 := g 7 + s1 + ch + kw.1 + kw.2
  let s0 := Nat.xor (Nat.xor (rotr64 28 a) (rotr64 34 a)) (rotr64 39 a)
  let maj := Nat.xor (Nat.xor (Nat.land a (g 1)) (Nat.land a (g 2))) (Nat.land (g 1) (g 2))
  [(t1 + s0 + maj) % 2 ^ 64, a, g 1, g 2, (g 3 + t1) % 2 ^ 64, e, g 5, g 6]

/-- One block of 128 bytes. -/
def shaBlock (h : List Nat) (b : List Byte) : List Nat :=
  let w := (chunks 8 16 b).map beNat
  let sched := w ++ shaSchedule 64 w.reverse []
  List.zipWith (fun x y => (x + y) % 2 ^ 64) h ((List.zip shaK sched).foldl shaRound h)

/-- SHA-384 of a byte string, as its 48-byte big-endian value. -/
def sha384 (l : List Byte) : Nat :=
  let pad := (240 - (l.length + 1) % 128) % 128
  let m := l ++ 0x80#8 :: List.replicate pad 0#8 ++ beBytes 16 (8 * l.length)
  let h := (chunks 128 (m.length / 128 + 1) m).foldl shaBlock sha384Init
  (h.take 6).foldl (fun n x => n * 2 ^ 64 + x) 0

/-! ### ECDSA on P-384 -/

def p384P : Nat := 2 ^ 384 - 2 ^ 128 - 2 ^ 96 + 2 ^ 32 - 1
def p384N : Nat := 0xffffffffffffffffffffffffffffffffffffffffffffffffc7634d81f4372ddf581a0db248b0a77aecec196accc52973
def p384B : Nat := 0xb3312fa7e23ee7e4988e056be3f82d19181d9c6efe8141120314088f5013875ac656398d8a2ed19d2a85c8edd3ec2aef
def p384G : Nat × Nat :=
  (0xaa87ca22be8b05378eb1c71ef320ad746e1d3b628ba79b9859f741e082542a385502f25dbf55296c3a545e3872760ab7,
   0x3617de4a96262c6f5d9e98bf9292dc29f8f41dbd289a147ce9da3113b5f0b8c00a60b1ce1d7e819d7a431d7c90ea0e5f)

/-- Modular power over the low `n` bits of the exponent. -/
def powMod (m : Nat) : Nat → Nat → Nat → Nat
  | 0, _, _ => 1
  | n + 1, a, e => let r := powMod m n (a * a % m) (e / 2); if e % 2 = 1 then a * r % m else r

/-- Modular inverse for a prime modulus. -/
def invMod (m a : Nat) : Nat := powMod m 384 (a % m) (m - 2)

/-- Addition of points of the curve; `none` is the point at infinity. -/
def ecAdd : Option (Nat × Nat) → Option (Nat × Nat) → Option (Nat × Nat)
  | none, q => q
  | p, none => p
  | some (x1, y1), some (x2, y2) =>
    if x1 = x2 ∧ (y1 + y2) % p384P = 0 then none
    else
      let l := if x1 = x2 then (3 * x1 * x1 + p384P - 3) % p384P * invMod p384P (2 * y1) % p384P
        else (y2 + p384P - y1) % p384P * invMod p384P (x2 + p384P - x1) % p384P
      let x3 := (l * l + 2 * p384P - x1 - x2) % p384P
      some (x3, (l * (x1 + p384P - x3) + p384P - y1) % p384P)

/-- Scalar multiple over the low `n` bits. -/
def ecMul : Nat → Nat → Option (Nat × Nat) → Option (Nat × Nat)
  | 0, _, _ => none
  | n + 1, k, p => let r := ecMul n (k / 2) (ecAdd p p); if k % 2 = 1 then ecAdd p r else r

/-- ECDSA verification with SHA-384 (FIPS 186-5): hash, public key, r, s. -/
def ecdsaOk (hash : Nat) (q : Nat × Nat) (r s : Nat) : Bool :=
  let onCurve := q.1 < p384P && q.2 < p384P && q.2 * q.2 % p384P == (q.1 * q.1 * q.1 + (p384P - 3) * q.1 + p384B) % p384P
  if onCurve && decide (0 < r) && decide (r < p384N) && decide (0 < s) && decide (s < p384N) then
    let w := invMod p384N s
    match ecAdd (ecMul 384 (hash * w % p384N) (some p384G)) (ecMul 384 (r * w % p384N) (some q)) with
    | some (x, _) => x % p384N == r
    | none => false
  else false

end Sys2Proof.Machine
end

