-- ==== Sys2Proof/Config.lean ====
section
/-! DEFINITION. What one module fixes at manufacture, and the values the spec leaves open. A constant without a body can be neither evaluated nor proved to be any value: whatever a proof says holds for every value. -/

namespace Sys2Proof

/-- Why a vital fault is declared. The spec gives VITAL_FAULT a 2-byte fault code (R421) and states no codes. -/
inductive FaultCause where
  | lanesDiffer | monitorTwo | holdWindow | unitAgain | restartCheck | injectionMissed | startupInjection
  | clock | memory | writeVerify | scrubLate | pageReload | notComplement | overrun | freeLimit | trap | sysTrip | readback
  | stuckOn | cross | recloseFail | pathTest | kaux | pickUp
  | debugHalt | busSilence | cycleLimit | recordCheck | ring50 | engine | startup
  deriving DecidableEq, Repr

/-- Run-time traps of R130, whose trap codes the spec does not number. -/
inductive TrapCause where
  | opc | boolOperand | index | write | ptrRead | regAddress | jump | call | depth | ring | regBlock | conversion | readback
  deriving DecidableEq, Repr

namespace Config

/-- Issue letter and serial number, fixed for each module at manufacture (R10). -/
opaque issue : BitVec 8
opaque serial : BitVec 34

/-- Fault code of a VITAL_FAULT record (R421): not stated. -/
opaque faultCode : FaultCause → BitVec 16

/-- Trap code of a TRAP record for the causes of R130 other than a written value: not stated. -/
opaque trapCode : TrapCause → BitVec 32

/-- CRC-32C over the program counters retired since the previous beat (R175): the encoding of a program counter is not stated. -/
opaque beatCrc : Nat → BitVec 32

/-- Bits of a NaN result (R129 names binary64 only). -/
opaque nanBits : Nat → BitVec 64

/-- Result of an operation on a type for which R128 states none: (opcode, type, a, b). -/
opaque openResult : Nat → Nat → BitVec 64 → BitVec 64 → BitVec 64

/-- Detail of a record where the spec states no encoding: (record type, what is reported). -/
opaque detail : Nat → Nat → BitVec 32

/-- Where the trip points of the lane monitor lie between the limits of R202: supply, temperature, skew. -/
opaque tripRaw : Nat → Nat

/-- The trip points in µV, mK and fs: above the value that never trips, below the limit (R202). -/
def tripPoint (q : Nat) : Nat :=
  if q = 0 then 32001 + tripRaw 0 % 7999 else if q = 1 then 10001 + tripRaw 1 % 1999 else 120001 + tripRaw 2 % 29999

/-- Check function G of the address-keyed code over a data word, and the key K of a word address a[39:3] (R221, R233): neither is stated. -/
opaque codeCheck : BitVec 64 → BitVec 16
opaque codeKey : BitVec 37 → BitVec 16

/-- A free value, applied to the counter that a step reads and advances. -/
opaque freeValue : Nat → BitVec 64

/-- Ring of READ delivery, `READ_RING` of `EVR_CFG` (R445): no section of the configuration states it. -/
opaque readRing : BitVec 6

/-- Whether the neighbour of a cluster number holds an element of this member as a border copy, under the configuration of a sequence: the spec puts no list of them into the owner's configuration (R45, R55). -/
opaque borderHeld : Nat → Nat → Nat → Bool

/-- SHA-384 hash fused in key slot 0 at manufacture (R451). -/
opaque fusedKey0 : Nat

/-- Highest interface majors served by the running firmware (R453) are those of this manual: bus 2, telegram 2, relay 1, configuration 3, program 3, firmware 1. -/
def formatMajor (kind : Nat) : Nat := if kind = 1 then 1 else 3

end Config

end Sys2Proof
end

