-- ==== Sys2Proof/Machine/Crc.lean ====
section
/-! DEFINITION. The cyclic check values the spec names: CRC-32C (reflected polynomial 0x82F63B78) and CRC-32/ISO-HDLC (0xEDB88320), each with a preset and a final complement (R54, R343, R419). -/

namespace Sys2Proof.Machine

/-- One bit of a reflected 32-bit CRC. -/
def crcBit (poly c : Nat) : Nat := if c % 2 = 1 then Nat.xor (c / 2) poly else c / 2

/-- Eight bits. -/
def crcByte (poly c : Nat) (b : Byte) : Nat :=
  let x := Nat.xor c b.toNat
  crcBit poly (crcBit poly (crcBit poly (crcBit poly (crcBit poly (crcBit poly (crcBit poly (crcBit poly x)))))))

/-- The register of a reflected CRC after the bytes, from a preset. -/
def crcRun (poly : Nat) : Nat → List Byte → Nat
  | c, [] => c
  | c, b :: t => crcRun poly (crcByte poly c b) t

/-- CRC-32C with a preset. -/
def crc32cFrom (preset : Nat) (l : List Byte) : Nat := Nat.xor (crcRun 0x82F63B78 preset l) 0xFFFFFFFF

/-- CRC-32/ISO-HDLC with a preset. -/
def crc32From (preset : Nat) (l : List Byte) : Nat := Nat.xor (crcRun 0xEDB88320 preset l) 0xFFFFFFFF

/-- CRC-32C, preset 0xFFFF_FFFF. -/
def crc32c (l : List Byte) : Nat := crc32cFrom 0xFFFFFFFF l

/-- CRC-32/ISO-HDLC, preset 0xFFFF_FFFF. -/
def crc32 (l : List Byte) : Nat := crc32From 0xFFFFFFFF l

end Sys2Proof.Machine
end

