-- ==== Sys2Proof/Machine/State.lean ====
section
/-! DEFINITION. The state of the module: every piece of state the spec gives it, as plain data. Field defaults are the values at reset; a docstring names the rule. -/

namespace Sys2Proof.Machine

/-- The station clock: cycle count (R311), position in the cycle, the correction being spread over it (R295). -/
structure Clock where
  /-- `CYCLE`, 40 bits (R311). -/
  cycle : Nat := 0
  /-- Microticks of 10 ns since the boundary (R273, R295). -/
  pos : Nat := 0
  /-- Correction applied in this cycle, ns (R294, `CORR_NS` of R310). -/
  corr : Int := 0
  /-- Rest of the correction below one microtick, in quarter ns (R295). -/
  carry : Int := 0
  /-- Station time provisional (R315, `ST_PROV`). -/
  prov : Bool := true
  /-- Provisional `CYCLE` has reached 0xFFFF_FFFF (R315, `PROV_HELD`). -/
  provHeld : Bool := false
  /-- Periods of the 100 MHz reference since reset (R170, R324). -/
  up : Nat := 0
  /-- Lin stamp of the last TIME_EPOCH_NEAR record (R320). -/
  epochNearAt : Option Nat := none
  deriving DecidableEq, Repr

/-- Civil state (R326). -/
inductive CivState where
  | acquire | locked | holdover
  deriving DecidableEq, Repr

/-- Civil time (R324 to R328). -/
structure Civil where
  st : CivState := .acquire
  /-- Nanoseconds, 64 bits (R324). -/
  ns : Nat := 0
  /-- Fraction in 2^-28 ns, 28 bits (R324). -/
  frac : Nat := 0
  /-- The refused step, signed ns (R326). -/
  pending : Option Int := none
  /-- Stamp of the last refusal (R326). -/
  refusedAt : Nat := 0
  /-- Later of the last entry to LOCKED and the last KICK (R326). -/
  wdogFrom : Nat := 0
  /-- First civil time of this power cycle (R326, R159). -/
  first : Option Nat := none
  /-- Shadows captured by a read of `TIME_ST_LO` (R327). -/
  shSt : Nat := 0
  shNs : Nat := 0
  shFrac : Nat := 0
  /-- Civil time started from the RTC (R328). -/
  rtcValid : Bool := false
  /-- A valid anchor of this epoch was found at power-up (R331). -/
  anchorValid : Bool := false
  /-- Stamp of the last RTC write (R328: every hour while LOCKED). -/
  rtcWroteAt : Nat := 0
  deriving DecidableEq, Repr

/-- A slot's entry of the bank selector (R466). -/
structure SelSlot where
  /-- 0 EMPTY, 1 INCOMPLETE, 2 VERIFYING, 3 VALID, 4 INVALID. -/
  st : Nat := 0
  good : Nat := 0
  seq : Nat := 0
  deriving DecidableEq, Repr

/-- The bank selector record (R466). As delivered the firmware slot of bank A is VALID (R13) with `SEQ` and `GOOD_CHUNKS` 0, which the spec does not state: the model's choice (log entry 5). -/
structure Selector where
  selSeq : Nat := 0
  sel : Nat := 0
  prev : Nat := 0
  trial : Bool := false
  /-- 0b01 exchange, 0b10 handover, 0b11 restart. -/
  method : Nat := 0
  prevValid : Bool := false
  boots : Nat := 0
  /-- Bank A firmware, configuration, program, then bank B. -/
  slots : List SelSlot := [{ st := 3 }, {}, {}, {}, {}, {}]
  deriving DecidableEq, Repr

/-- The shutdown record (R490). -/
structure SdRec where
  sdSeq : Nat := 0
  /-- 0x1 BEGUN, 0x2 COMPLETE, 0x3 CONSUMED. -/
  result : Nat := 0
  cause : Nat := 0
  /-- 0x0 START, 0x1 FREE, 0x2 NORMAL, 0x3 HALTED. -/
  mode : Nat := 0
  lit : Nat := 0
  grpCut : Nat := 0
  halted : Nat := 0
  cfgSeq : Nat := 0
  tWarn : Nat := 0
  tDone : Nat := 0
  deriving DecidableEq, Repr

/-- The station-time anchor (R491). -/
structure Anchor where
  ancSeq : Nat := 0
  epoch : Nat := 0
  /-- 0x1 major cycle, 0x2 shutdown. -/
  kind : Nat := 0
  stamp : Nat := 0
  deriving DecidableEq, Repr

/-- A last-light anchor slot (R438). -/
structure LightSlot where
  slotSeq : Nat := 0
  /-- 0x1 SHUTDOWN, 0x2 FAILURE, 0x3 CLEAR, 0x4 POWER_UP, 0x5 RESERVE. -/
  kind : Nat := 0
  cause : Nat := 0
  epoch : Nat := 0
  tSlot : Nat := 0
  lastSeq : Nat := 0
  lastT : Nat := 0
  bound : Nat := 0
  jHead : Nat := 0
  dHead : Nat := 0
  stagedLost : Nat := 0xFFFFFFFF
  deriving DecidableEq, Repr

/-- A two-copy FRAM record: each copy is `none` where it is not valid (R481). -/
structure Copies (α : Type) where
  c0 : Option α := none
  c1 : Option α := none
  deriving DecidableEq, Repr

/-- The candle domain: RTC, FRAM, monitor (R488 to R492). -/
structure Candle where
  /-- RTC seconds, 48 bits, and 1/32,768 s, 15 bits (R488). -/
  rtcSec : Nat := 0
  rtcSub : Nat := 0
  /-- Rest below one RTC tick in units of 10^-14 s (model's). -/
  rtcRem : Nat := 0
  rtcLost : Bool := false
  framErr : Bool := false
  /-- FRAM write-protected after a completed shutdown (R484). -/
  framProt : Bool := false
  shHi : Nat := 0
  shSub : Nat := 0
  /-- This power-up (R492): 1 VIN, 2 NRST, 3 restart activation, 4 TRIAL fallback, 5 RECOVERED. -/
  cause : Nat := 0
  sdResult : Nat := 0
  autoOk : Bool := false
  bootStep : Nat := 1
  bootFail : Nat := 0
  sel : Copies Selector := { c0 := some { selSeq := 1 }, c1 := some {} }
  sd : Copies SdRec := {}
  anchor : Copies Anchor := {}
  /-- Session counter copies: (sequence of the copy, session) (R349). -/
  session : Copies (Nat × Nat) := { c0 := some (0, 0), c1 := some (0, 0) }
  /-- Valid last-light slots, oldest first; slot index = `SLOT_SEQ` mod 64 (R438). -/
  light : List LightSlot := [{ kind := 4, bound := 1, stagedLost := 0 }]
  /-- Statistics copies: words of 4 B by word index of the copy (R443). -/
  stat : Copies (List (Nat × Nat)) := { c0 := some [], c1 := some [] }
  /-- Owner key hashes fused in slots 1 to 3 (R451, R452). -/
  fuses : List (Option Nat) := [none, none, none]
  deriving DecidableEq, Repr

/-- Where the module stands between power-off and service (R478 to R486). -/
inductive Phase where
  /-- No VIN, or VIN below 10.0 V. -/
  | off
  /-- Held in reset: NRST low, or VIN not yet good (R415, R478). -/
  | inReset
  /-- Past the power-up sequence (R479 step 10 on). -/
  | running
  /-- Controlled shutdown begun, not yet complete (R484). -/
  | shutdown
  /-- Shutdown complete; the module holds itself in reset (R484). -/
  | done
  /-- Start-up stopped (R482). -/
  | stopped
  /-- No valid configuration: safe state, images on Ethernet only (R14). -/
  | noConfig
  /-- After the degraded or recorder limit: powered, safe state (R486). -/
  | expired
  deriving DecidableEq, Repr

/-- Power, NRST and the shutdown in progress. -/
structure Power where
  phase : Phase := .inReset
  /-- NRST released. -/
  nrst : Bool := true
  /-- `DBG_EN` sampled at the release of NRST (R210). -/
  strap : Bool := false
  /-- A vital fault, or HALTED, since NORMAL last began (R490). -/
  haltedSince : Bool := false
  /-- `CAUSE` that the next power-up shows: 1 VIN, 2 NRST, 3 restart activation, 4 TRIAL fallback, 5 RECOVERED (R492). -/
  wake : Nat := 1
  /-- R29 or R437 in force: edges barred until power-off. -/
  limitBar : Bool := false
  deriving DecidableEq, Repr

/-- Lane state (R179). -/
inductive LaneState where
  | reset | lit | dimmed | ready | relighting | attached | retired | off
  deriving DecidableEq, Repr

/-- One lane of the triad (R179, R180, R509). -/
structure Lane where
  st : LaneState := .reset
  /-- Stamp of the dim. -/
  dimAt : Nat := 0
  /-- Completion stamps of the last two counted relights, oldest first (R180). -/
  hist : List Nat := []
  /-- Completed relights, 16 bits. -/
  relights : Nat := 0
  /-- Dims, 16 bits. -/
  dims : Nat := 0
  /-- Cycle count in which the last relight completed (R180). -/
  lastRelight : Option Nat := none
  /-- The lane came from ATTACHED (R180). -/
  fromAttached : Bool := false
  /-- Halted by the debugger (R211). -/
  halted : Bool := false
  /-- Line numbers (address / 64) of the dirty lines of its data cache, newest first, at most 256 (R172). -/
  dirty : List Nat := []
  /-- Outbound and inbound delay registers, lane clocks (R171). -/
  outDelay : Nat := 0
  inDelay : Nat := 0
  deriving DecidableEq, Repr

/-- A duplex unit (R25, R26, R196). -/
structure Duplex where
  /-- Newest complete ember generation. -/
  gen : Nat := 0
  /-- That generation has served a restart (R26). -/
  used : Bool := false
  /-- Start of the restart under way, in periods of the reference. -/
  restart : Option Nat := none
  deriving DecidableEq, Repr

/-- What a voter ember holds (R192). -/
structure VoterEmber where
  /-- `LANE_STAT` state of lanes A, B and C. -/
  st : List LaneState := []
  hist : List (List Nat) := []
  retired : Option LaneId := none
  causes : Nat := 0
  retireAt : Nat := 0
  limitH : Nat := 72
  /-- Outbound and inbound delay per lane. -/
  delays : List (Nat × Nat) := []
  seq : Nat := 0
  /-- Attached lanes with their stamps, newest first; one at most in safe mode. -/
  attached : List (LaneId × Nat) := []
  /-- Verdict counts since the last statistics update, by offset of R443. -/
  counts : List (Nat × Nat) := []
  deriving DecidableEq, Repr

/-- An entry of the voter ember's journal, written before the change takes effect (R193). -/
inductive VoterEntry where
  /-- A change of lane state, with its stamp. -/
  | state (l : LaneId) (st : LaneState) (at' : Nat)
  /-- A relight completion with the lane's relight history after it. -/
  | relit (l : LaneId) (hist : List Nat)
  /-- A retirement: lane, causes, stamp, limit in hours. -/
  | retire (l : LaneId) (causes stamp limitH : Nat)
  deriving DecidableEq, Repr

/-- The triad, the voter pair and the hold window. -/
structure Triad where
  a : Lane := {}
  b : Lane := {}
  c : Lane := {}
  retired : Option LaneId := none
  /-- R181: bit 0 THIRD_RELIGHT, 1 DELAY_PATH, 2 SELF_TEST, 3 INJECTION. -/
  causes : Nat := 0
  retireAt : Nat := 0
  /-- Degraded limit in hours with which it started (R457). -/
  limitH : Nat := 72
  /-- The second DEGRADED_NOTICE has been written (R189). -/
  noticed : Bool := false
  /-- Transaction sequence number, 16 bits (R173). -/
  seq : Nat := 0
  /-- Retired-instruction count, 64 bits, and CRC-32C of the program counters, at the last beat (R175). -/
  beatCount : Nat := 0
  beatCrc : Nat := 0
  /-- The voter pair's ember generations, newest first, at most two, and the journal of the newest (R25, R192, R193). -/
  embers : List VoterEmber := []
  journal : List VoterEntry := []
  voter : Duplex := {}
  lattice : Duplex := {}
  field : Duplex := {}
  /-- First disagreement of the hold window, in periods of the reference (R24). -/
  hold : Option Nat := none
  /-- Transactions held by a voter restart (R194). -/
  held : List VotedTx := []
  /-- Lanes stalled: start of the stall, in periods (R149). -/
  stallFrom : Option Nat := none
  deriving DecidableEq, Repr

/-- The debug unit (R210 to R216, R516). -/
structure Debug where
  /-- Attached lanes with the stamps of their attachment, newest first (R211, R213, R216). -/
  attached : List (LaneId × Nat) := []
  /-- Stamp of the last attach (R516). -/
  attachAt : Nat := 0
  broke : Bool := false
  deriving DecidableEq, Repr

/-- Operating mode (R146). -/
inductive Mode where
  | startup | free | normal | halted
  deriving DecidableEq, Repr

/-- Cause of FREE (R146). -/
inductive FreeCause where
  | start | test | recovery
  deriving DecidableEq, Repr

/-- One frame of the call stack (R131). -/
structure Frame where
  block : Nat := 0
  /-- Next instruction index. -/
  pc : Nat := 0
  /-- Logical address of the instance's first slot. -/
  base : Nat := 0
  deriving DecidableEq, Repr

/-- What a conversion block runs with: the logical address of the old instance, and the logical addresses of the new one (R257). -/
structure ConvCtx where
  old : Nat := 0
  lo : Nat := 0
  hi : Nat := 0
  deriving DecidableEq, Repr

/-- A release of a task: its own context (R127, R138, R142, R144, R145). -/
structure Release where
  task : Nat := 0
  /-- Lane B's table in split mode (R206). -/
  laneB : Bool := false
  stamp : Nat := 0
  trigStamp : Nat := 0
  trigDetail : Nat := 0
  trigCount : Nat := 0
  /-- Deadline as a lin stamp (R148); none in FREE. -/
  deadline : Option Nat := none
  /-- Execution so far in microticks, pre-emption and stalls excluded (R149). -/
  exec : Nat := 0
  /-- The frozen input image it reads (R144). -/
  img : List Host.Cell := []
  /-- Pending OUT writes: (point, VALUE) (R145). -/
  outs : List (Nat × Nat) := []
  frames : List Frame := []
  /-- Scratch registers 8 to 255 that are not 0 (R127). -/
  scr : List (Nat × Word) := []
  ovf : Bool := false
  divz : Bool := false
  firstScan : Bool := false
  /-- Logical addresses of the instances used (R152). -/
  used : List Nat := []
  /-- It is no release but a conversion block (R257). -/
  conv : Option ConvCtx := none
  deriving DecidableEq, Repr

/-- What the module keeps of a task between releases (R137, R142, R148). -/
structure TaskState where
  id : Nat := 0
  laneB : Bool := false
  lastRelease : Option Nat := none
  /-- Triggers held or coalesced since the previous release. -/
  trigCount : Nat := 0
  /-- First held trigger: stamp and detail (R142). -/
  heldTrig : Option (Nat × Nat) := none
  /-- A cyclic release held because the previous one runs (R148): its due lin stamp. -/
  heldCyclic : Option Nat := none
  /-- `FIRST_SCAN` is still to come (R152). -/
  firstScan : Bool := false
  deriving DecidableEq, Repr

/-- A used token (R160). -/
structure VerEntry where
  id : Nat := 0
  act : Nat := 0
  scope : Nat := 0
  staff : Nat := 0
  /-- Stamp of the voted commit. -/
  at' : Nat := 0
  deriving DecidableEq, Repr

/-- Program execution (R124 to R152). -/
structure Program where
  mode : Mode := .startup
  cause : FreeCause := .start
  reqNormal : Bool := false
  reqTest : Bool := false
  tasks : List TaskState := []
  active : List Release := []
  /-- Context of an instruction that runs while no release does (model's own). -/
  idle : Release := { task := 0xFF }
  /-- Execution used in this minor cycle, microticks (R150). -/
  usedTicks : Nat := 0
  /-- Cycle count at which NORMAL began (R168). -/
  normalAt : Option Nat := none
  /-- Live values of telegram- and lattice-bound input points: (point, value) (R135). -/
  live : List (Nat × Nat) := []
  /-- Cells of the input image frozen last (R144). -/
  img : List Host.Cell := []
  /-- Output image applied last: (point, VALUE + 2^32 FORCED) (R145, R163). -/
  applied : List (Nat × Nat) := []
  /-- Accepted token IDs, newest first, at most 256 (R160). -/
  tokUsed : List Nat := []
  /-- Verified list, at most 16 (R160). -/
  tokVer : List VerEntry := []
  /-- Compare points of this cycle, and those already fired (R143). -/
  cps : List Nat := List.replicate 8 0xFFFF
  /-- Compare points as the registers hold them: those of the next cycle (R143, R511). -/
  cpNext : List Nat := List.replicate 8 0xFFFF
  cpFired : List Bool := List.replicate 8 false
  /-- Compare points of a cycle that has ended which have still to fire: their macrotick fell within a stall, or was skipped as the last one (R143). -/
  cpLate : List Bool := List.replicate 8 false
  /-- This cycle's freeze and apply have been carried out (R144, R145). -/
  frozen : Bool := false
  appliedNow : Bool := false
  /-- Task releases of this boundary wait for a relight (R22). -/
  releaseHeld : Bool := false
  /-- Cycle count of the last major-cycle boundary carried out (R168). -/
  majorAt : Option Nat := none
  deriving DecidableEq, Repr

/-- A force (R161). -/
structure ForceEntry where
  dir : Bool := false
  point : Nat := 0
  value : Nat := 0
  /-- Expiry stamp. -/
  expiry : Nat := 0
  token : Nat := 0
  staff : Nat := 0
  deriving DecidableEq, Repr

/-- The force table (R161, R166). -/
structure Forces where
  table : List ForceEntry := []
  /-- Indication still running (R166). -/
  ind : Bool := false
  deriving DecidableEq, Repr

/-- What a word finding of the code means (R222, R225). -/
inductive CodeClass where
  /-- One symbol: correctable. -/
  | correctable
  /-- Two symbols or more, or another word's key: uncorrectable. -/
  | uncorrectable
  deriving DecidableEq, Repr

/-- How the 80-bit code word stored at an address differs from the good one of its data (R221): bits of the data word and of the check bits that are inverted, and whether it is uncorrectable whatever they are (another address's key, or 80 equal bits, R223). -/
structure CodeErr where
  data : Word := 0
  check : BitVec 16 := 0
  keyed : Bool := false
  deriving DecidableEq, Repr

/-- A block of a program image (R460). -/
structure BlockInfo where
  count : Nat := 0
  consts : List Nat := []
  wcet : Nat := 0
  hash : Nat := 0
  deriving DecidableEq, Repr

/-- An INSTDIR entry (R460). -/
structure InstEntry where
  path : Nat := 0
  ty : Nat := 0
  off : Nat := 0
  slots : Nat := 0
  init : Option (List Nat) := none
  block : Nat := 0
  deriving DecidableEq, Repr

/-- A CONVERSIONS entry with its preserved slots (R460). -/
structure ConvEntry where
  oldTy : Nat := 0
  newTy : Nat := 0
  block : Nat := 0
  convUs100 : Nat := 0
  preserve : List (Nat × Nat) := []
  deriving DecidableEq, Repr

/-- A program image as loaded (R460). -/
structure ProgImage where
  seq : Nat := 0
  cfgRef : Nat := 0
  blocks : List BlockInfo := []
  insts : List InstEntry := []
  globals : List (Nat × Nat) := []
  writers : List (Nat × Nat) := []
  convs : List ConvEntry := []
  deriving DecidableEq, Repr

/-- A remapped or repaired row (R228). -/
structure RowUse where
  row : Nat := 0
  at' : Nat := 0
  remapped : Bool := false
  deriving DecidableEq, Repr

/-- Vital memory beyond the stored bytes (R217 to R237). -/
structure VMem where
  /-- Stored words whose code is not good: (word address, difference from the good code word) (R221, R233). -/
  codeErr : List (Nat × CodeErr) := []
  /-- Scrubber position (R231). -/
  area : Nat := 0
  word : Nat := 0
  passStart : Nat := 0
  rows : List RowUse := []
  used0 : Nat := 0
  used1 : Nat := 0
  /-- Granule maps: logical granule to physical granule where they differ (R243). -/
  mapActive : List (Nat × Nat) := []
  mapNew : List (Nat × Nat) := []
  /-- NOR bank of each code slot, the active slot and validity (R229). -/
  bank0 : Nat := 0
  bank1 : Nat := 0
  activeSlot : Nat := 0
  valid0 : Bool := false
  valid1 : Bool := false
  /-- Page check table of each code slot: CRC-32C per page that has been built (R229). -/
  pages0 : List (Nat × Nat) := []
  pages1 : List (Nat × Nat) := []
  prog0 : Option ProgImage := none
  prog1 : Option ProgImage := none
  deriving DecidableEq, Repr

/-- One field pin, logic side and field side (R366 to R397). -/
structure Pin where
  /-- Raw input level: 0 OFF, 1 ON, 2 in band (R371). -/
  raw : Nat := 0
  /-- Stamp at which the present raw level began (the crossing). -/
  rawAt : Nat := 0
  /-- Reference periods at which the present raw level began. -/
  rawUp : Nat := 0
  filtered : Bool := false
  filling : Bool := true
  /-- An element update has been posted since sampling started (R376). -/
  posted : Bool := false
  inBand : Bool := false
  couplerLost : Bool := false
  /-- Last confirmed `T_EDGE` (R374). -/
  tEdge : Nat := 0
  /-- The next record carries `MERGED` (R393). -/
  merged : Bool := false
  /-- Field-side edge number recorded last (R392). -/
  edgeNo : Nat := 0
  /-- Command issued to the field side (R377, R378). -/
  cmd : Bool := false
  /-- Switch-on still waiting in the stagger (R378). -/
  waiting : Bool := false
  latched : Bool := false
  stuckOn : Bool := false
  cross : Bool := false
  overload : Bool := false
  openLoad : Bool := false
  driveFail : Bool := false
  timedOut : Bool := false
  permitOff : Bool := false
  partner : Option Nat := none
  /-- 0 none, 1 off-pulse passed, 2 light test passed, 3 failed (R397). -/
  lastTest : Nat := 0
  /-- Test running: 1 off-pulse, 2 light test; its start in periods. -/
  testing : Nat := 0
  testAt : Nat := 0
  /-- Current before the pulse, mA (R385). -/
  preMa : Nat := 0
  /-- A test command swallowed by a restart (R383). -/
  swallowed : Bool := false
  /-- Last change of the command, in periods (R384: 300 µs from the off command). -/
  cmdAt : Nat := 0
  /-- Readback, consecutive high samples while off, and begin of a low readback while on. -/
  rb : Bool := false
  rbHigh : Nat := 0
  rbLowFrom : Option Nat := none
  /-- Current limit active, and since when (R384). -/
  limit : Bool := false
  limitFrom : Option Nat := none
  iMa : Nat := 0
  vDv : Nat := 0
  /-- Sum and number of current samples of this minor cycle (R384). -/
  iSum : Nat := 0
  iCnt : Nat := 0
  iExcl : Bool := false
  toggle : Bool := false
  refreshAt : Nat := 0
  /-- Last valid message from the field side, in periods (R384). -/
  msgAt : Nat := 0
  unlatch : Bool := false
  watchTo : Option Nat := none
  deriving DecidableEq, Repr

/-- What the field sequencer's ember holds of a pin (R392). -/
structure PinEmber where
  cmd : Bool := false
  latched : Bool := false
  stuckOn : Bool := false
  cross : Bool := false
  overload : Bool := false
  openLoad : Bool := false
  driveFail : Bool := false
  timedOut : Bool := false
  permitOff : Bool := false
  inBand : Bool := false
  couplerLost : Bool := false
  partner : Option Nat := none
  filtered : Bool := false
  filling : Bool := true
  posted : Bool := false
  tEdge : Nat := 0
  edgeNo : Nat := 0
  lastTest : Nat := 0
  deriving DecidableEq, Repr

/-- Band of a group supply (R388). -/
inductive Band where
  | normal | sag | surge | unpowered
  deriving DecidableEq, Repr

/-- One field group (R388). -/
structure FGroup where
  band : Band := .normal
  /-- Consecutive windows below 16.0 V, and at or above 19.5 V. -/
  low : Nat := 0
  good : Nat := 0
  /-- Stamp at which the group left NORMAL, and its worst state since (R444). -/
  leftAt : Option Nat := none
  worst : Nat := 0
  /-- Worst state seen in this minor cycle (R388). -/
  seen : Band := .normal
  /-- Consecutive 1 ms averages of the group current above 4.0 A (R384). -/
  overMs : Nat := 0
  /-- Group cut by a group-scope vital fault. -/
  cut : Bool := false
  deriving DecidableEq, Repr

/-- A generation of the field sequencer's ember (R392). -/
structure FieldEmber where
  pins : List PinEmber := []
  groups : List FGroup := []
  seqNo : Nat := 0
  unlatch : Nat := 0
  deriving DecidableEq, Repr

/-- An entry of its journal: the record sequence after an input record, and what a pin or a group is after an element update, a switching or a flag change (R392). -/
inductive FieldEntry where
  | record (seqNo : Nat)
  | pin (n : Nat) (p : PinEmber)
  | group (g : Nat) (x : FGroup)
  | unlatch (mask : Nat)
  deriving DecidableEq, Repr

/-- The field sequencer pair (R366 to R397). -/
structure Field where
  pins : List Pin := List.replicate 32 {}
  groups : List FGroup := List.replicate 4 {}
  /-- Input record sequence, 32 bits (R374). -/
  seqNo : Nat := 0
  /-- Pending unlatches, bit n (R386). -/
  unlatch : Nat := 0
  /-- Last switch-on of a stagger, in periods (R378). -/
  staggerAt : Nat := 0
  /-- An apply or permit withdrawal waits for the end of a restart (R23, R394). -/
  applyDue : Bool := false
  permitDue : Bool := false
  /-- The sequencer pair's ember generations, newest first, at most two, and the journal of the newest (R25, R392). -/
  embers : List FieldEmber := []
  journal : List FieldEntry := []
  deriving DecidableEq, Repr

/-- Where a group's supply stands (R404 to R410). -/
inductive GPhase where
  /-- Both paths open, or opening. -/
  | open'
  /-- `SNUFF_K` energised, path a held open (step 1 of R404). -/
  | picking
  /-- Feed running, path a not yet closed (step 2). -/
  | feeding
  | closed
  deriving DecidableEq, Repr

/-- One group of the snuffer (R398 to R410, R418). -/
structure SGroup where
  phase : GPhase := .open'
  /-- Path a closed. -/
  aClosed : Bool := false
  kOn : Bool := false
  auxOpen : Bool := false
  /-- Cut latched. -/
  cut : Bool := false
  /-- KDROP in force (R410). -/
  kdrop : Bool := false
  /-- Last change of `SNUFF_K`, in periods. -/
  kAt : Nat := 0
  mismatch : Nat := 0
  regular : Nat := 0
  /-- Last edge of the enable line, in periods. -/
  edgeAt : Nat := 0
  toggle : Bool := false
  /-- End of the last path test, in periods (R383). -/
  testEnd : Nat := 0
  testDue : Bool := false
  /-- Path a has been tested in this round (R406). -/
  testedA : Bool := false
  /-- Lin stamp of the last closing or test, and of the last drop (R406, R410). -/
  testFrom : Nat := 0
  dropAt : Nat := 0
  /-- In periods: entry of the group to UNPOWERED (R405). -/
  unpowAt : Option Nat := none
  deriving DecidableEq, Repr

/-- Button state (R411). -/
inductive Button where
  | arming | idle | pressed | held | implausible
  deriving DecidableEq, Repr

/-- The snuffer and the restart button. -/
structure Snuffer where
  g : List SGroup := List.replicate 4 {}
  btn : Button := .arming
  /-- Consecutive samples of REL, PRS and TRANSIT, 1 ms each (R411). -/
  rel : Nat := 0
  prs : Nat := 0
  transit : Nat := 0
  /-- Press time so far, ms. -/
  pressMs : Nat := 0
  /-- Press time and stamp at the first REL sample of the present run. -/
  relPress : Nat := 0
  relAt : Nat := 0
  edgeStored : Bool := false
  autoApplied : Bool := false
  barred : Bool := false
  testNow : Bool := false
  edgeStamp : Nat := 0
  deriving DecidableEq, Repr

/-- A record handed to the ingest port (R423, R424). -/
structure Rec where
  t : Nat := 0
  ty : Nat := 0
  payload : List Byte := []
  deriving DecidableEq, Repr

/-- A numbered record (R419). -/
structure SRec where
  t : Nat := 0
  ty : Nat := 0
  seq : Nat := 0
  rep : Nat := 0
  payload : List Byte := []
  /-- Lin stamp at which it closed into staging. -/
  closedAt : Nat := 0
  deriving DecidableEq, Repr

/-- A 256 KiB block of the event store: its index and its pages, oldest first (R429). -/
structure EBlock where
  idx : Nat := 0
  pages : List (List SRec) := []
  deriving DecidableEq, Repr

/-- A partition of the event store (R429, R435). -/
structure Part where
  /-- Blocks written, oldest first. -/
  blocks : List EBlock := []
  usable : Nat := 0
  /-- Next block index to write. -/
  head : Nat := 0
  wrapped : Bool := false
  /-- Indices of retired blocks. -/
  bad : List Nat := []
  /-- Records below this sequence have been cleared (R434). -/
  clearedTo : Option Nat := none
  deriving DecidableEq, Repr

/-- Recorder state (R445). -/
inductive EvState where
  | mounting | running | frozen | down
  deriving DecidableEq, Repr

/-- A READ in progress (R431). -/
structure Reading where
  /-- Juridical partition. -/
  jur : Bool := true
  live : Bool := false
  /-- Next sequence and records still to deliver. -/
  next : Nat := 0
  left : Nat := 0
  /-- Sequences whose page fails its ECC or whose `RCRC` fails (R431). -/
  bad : List Nat := []
  deriving DecidableEq, Repr

/-- The event recorder (R419 to R445). -/
structure Recorder where
  st : EvState := .mounting
  downCause : Nat := 0
  downAt : Nat := 0
  queue : List Rec := []
  open' : Option SRec := none
  staging : List SRec := []
  j : Part := { usable := 12288 }
  d : Part := { usable := 4096 }
  seqNext : Nat := 0
  bound : Nat := 0
  seqCommit : Nat := 0
  commitT : Nat := 0
  /-- Losses since the last RECORDS_LOST (R425). -/
  lossNoSeq : Nat := 0
  lossSeq : Nat := 0
  lossFirst : Nat := 0
  lossLast : Nat := 0
  /-- Freeze: start and end as lin stamps (R433). -/
  freezeAt : Nat := 0
  freezeEnd : Nat := 0
  reading : Option Reading := none
  clearing : Bool := false
  /-- Program record in progress: release (task, lane B), bytes so far, LEN (R423). -/
  prog : Option (Nat × Bool × List Byte × Nat) := none
  deriving DecidableEq, Repr

/-- Statistics gathered since the last update (R442). -/
structure Stats where
  /-- (byte offset, width in bytes) counts of R443, keyed by byte offset. -/
  acc : List (Nat × Nat) := []
  copy : Nat := 0
  lastUpd : Nat := 0
  lost : Bool := false
  /-- `POWER_CYCLES` not yet counted (R443). -/
  cycleDue : Bool := false
  /-- `up` at which `OP_SECONDS` was last counted. -/
  opFrom : Nat := 0
  deriving DecidableEq, Repr

/-- Activation state (R477). -/
inductive ActState where
  | idle | preparing | ready | armed | trial | rollback
  deriving DecidableEq, Repr

/-- A neighbour of a transfer (R462, R464). -/
structure Neighbour where
  /-- Transport as coded in R459, and node ID or cluster number. -/
  transport : Nat := 0
  node : Nat := 0
  mac : Nat := 0
  /-- RESUME answered; next chunk to send; chunks sent and not acknowledged. -/
  answered : Bool := false
  refused : Bool := false
  next : Nat := 0
  inFlight : List Nat := []
  /-- BAD counts: (chunk, count). -/
  bads : List (Nat × Nat) := []
  /-- Last chunk acknowledged by GOOD, as a count of chunks. -/
  good : Nat := 0
  /-- Lin stamps: last segment of the chunk, last OFFER, begin of silence. -/
  segAt : Nat := 0
  offerAt : Nat := 0
  silentAt : Nat := 0
  /-- Stopped until it answers with RESUME (R464). -/
  stopped : Bool := false
  deriving DecidableEq, Repr

/-- A download or pass-through of one kind (R461 to R464). -/
structure Download where
  kind : Nat := 0
  header : List Byte := []
  /-- Stored here (named by DEST) or only passed through. -/
  store : Bool := false
  upTransport : Nat := 0
  upNode : Nat := 0
  version : Nat := 0
  /-- Chunks good so far. -/
  good : Nat := 0
  /-- Segments received of the chunks under way: (chunk, segment, bytes). -/
  segs : List (Nat × Nat × List Byte) := []
  /-- Chunks whose CRC has passed and that are held or being stored: (chunk, bytes) (R463). -/
  held : List (Nat × List Byte) := []
  /-- Chunk CRCs from the chunk table. -/
  table : List Nat := []
  down : List Neighbour := []
  badUp : List (Nat × Nat) := []
  deriving DecidableEq, Repr

/-- The segments of an OFFER received so far (R461, R462). -/
structure OfferIn where
  transport : Nat := 0
  node : Nat := 0
  kind : Nat := 0
  segs : List (Nat × List Byte) := []
  deriving DecidableEq, Repr

/-- Update and relay state (R461 to R477). -/
structure Update where
  act : ActState := .idle
  method : Nat := 0
  /-- Kinds named by PREPARE, bit 0 firmware, 1 configuration, 2 program. -/
  kinds : Nat := 0
  target : Nat := 0
  /-- Lin stamp at which the confirmation window started (R472). -/
  confirmAt : Nat := 0
  dls : List Download := []
  /-- Incomplete OFFERs (R461, R462). -/
  offers : List OfferIn := []
  /-- Relay segments that wait for an own BACKGROUND slot (R461). -/
  busOut : List (List Byte) := []
  deriving DecidableEq, Repr

/-- What left the module in the last command (model's own; the surroundings see it). -/
inductive Sent where
  /-- Vital bus port, header, payload. -/
  | bus (port : Nat) (header : Nat) (payload : List Byte)
  /-- Ethernet port, class, bytes. -/
  | eth (port : Nat) (cls : Nat) (bytes : List Byte)
  /-- Module link, and its whole frame: link header, padded payload, check values (R54). -/
  | link (link : Nat) (frame : List Byte)
  /-- Command frame to a pin: on, unlatch flag, test (0 none, 1 off-pulse, 2 light test). -/
  | pin (pin : Nat) (on : Bool) (unlatch : Bool) (test : Nat)
  /-- Data delivered to the lanes by a voted read (R17). -/
  | read (data : List Byte)
  deriving DecidableEq, Repr

/-- A link frame before it leaves: what its header says of it, and its payload (R54). -/
structure LinkItem where
  ltype : Nat
  prio : Nat
  chtag : Nat
  payload : List Byte
  deriving DecidableEq, Repr

/-- A sealed telegram that has not left: an Ethernet frame (port, class, bytes), or a frame for a module link (R50, R356). -/
inductive Egress where
  | eth (port : Nat) (cls : Nat) (bytes : List Byte)
  | link (link : Nat) (item : LinkItem)
  deriving DecidableEq, Repr

/-- Bus schedule as loaded (R276, R277, R308). -/
structure Sched where
  /-- L in µs (R273). -/
  cycleUs : Nat := 1000
  code : Nat := 1
  nodes : Nat := 0
  netId : Nat := 0
  pmaj : Nat := 2
  pmin : Nat := 0
  own : Nat := 0
  /-- `CS_NODES`, 0xFF none. -/
  cs : List Nat := []
  /-- `PAIRS`: (lower ID, higher ID). -/
  pairs : List (Nat × Nat) := []
  posX : List Nat := []
  posY : List Nat := []
  schedId : Nat := 0
  slots : List Nat := []
  /-- Configured link delays per position (R308, majors 1 and 0). -/
  delX : List Nat := []
  delY : List Nat := []
  deriving DecidableEq, Repr

/-- Node state (R300, R310). -/
inductive NodeState where
  | off | listen | coldstart | backoff | integrating | synced | silent
  deriving DecidableEq, Repr

/-- A frame prepared for an own slot (R284). -/
structure BusPrep where
  slot : Nat := 0
  /-- `FTYPE`: 3 VITAL, 4 BACKGROUND, 5 NULL. -/
  ftype : Nat := 5
  /-- Header flags, bits 34 to 37. -/
  flags : Nat := 0
  payload : List Byte := []
  /-- Preset of the check values: the running values of both units (R282, R343). -/
  presetP : Nat := 0xFFFFFFFF
  presetQ : Nat := 0xFFFFFFFF
  /-- It waits for the mirror fence until an ACK covers its `T_SEAL` (R50). -/
  tSeal : Nat := 0
  deriving DecidableEq, Repr

/-- A frame that waits at a bus port: start in periods, length in periods, header, bytes behind the header, and whether it is a forwarded one, which is not sent where its start finds the port busy (R272). -/
structure OutFrame where
  start : Nat
  len : Nat
  header : Nat
  bytes : List Byte
  fwd : Bool
  deriving DecidableEq, Repr

/-- A vital bus port (R286 to R288). -/
structure BusPort where
  link : Bool := false
  /-- Measured delay of the link, ns (R286, R288). -/
  meas : Option Nat := none
  measCycle : Nat := 0
  /-- Measurement under way: sending instant of DELAY_REQ in ns of the reference, and its cycle count. -/
  t1 : Option (Nat × Nat) := none
  /-- The frame that leaves now has ended, in periods (R272). -/
  busyTo : Nat := 0
  /-- Forwarded and delay frames whose start is still to come (R270, R272, R287). -/
  out : List OutFrame := []
  deriving DecidableEq, Repr

/-- What one cycle's SYNC and COLDSTART frames gave: deviations of the reference per channel in ns (R294), a frame and a consistent frame of the reference (R300), the nodes whose SYNC was received (R304). -/
structure Heard where
  devX : Option Int := none
  devY : Option Int := none
  seen : Bool := false
  ok : Bool := false
  nodes : List Nat := []
  deriving DecidableEq, Repr

/-- Vital bus controller and guardian (07_vital_bus.md). -/
structure Bus where
  st : NodeState := .off
  /-- This node is the lamplighter. -/
  leader : Bool := false
  /-- Reference node. -/
  ref : Nat := 0
  /-- The node has integrated since reset (R297, R300). -/
  everInt : Bool := false
  /-- Position and count of a reference have been adopted (R297, R317). -/
  adopted : Bool := false
  /-- `up` at which the listen timeout or the back-off started. -/
  since : Nat := 0
  /-- Cold-start attempt of this run (1 to 16). -/
  attempt : Nat := 0
  /-- Own COLDSTART frames sent in consecutive cycles. -/
  csSent : Nat := 0
  /-- One was sent in this cycle. -/
  csThis : Bool := false
  /-- Cycle count until which no cold start follows (R300). -/
  csBar : Nat := 0
  ports : List BusPort := List.replicate 4 {}
  /-- Frames not sent because the port was busy, `FWD_CLASH` (R272). -/
  clash : Nat := 0
  /-- Link delay of the DOWN link of each node ID, per channel, 127 unknown (R289); values that take effect at the next boundary. -/
  dlyX : List Nat := List.replicate 64 127
  dlyY : List Nat := List.replicate 64 127
  dlyNew : List (Bool × Nat × Nat) := []
  /-- Frames of this cycle, and of the next one where its boundary is still to come (R290, R294). -/
  hear : Heard := {}
  early : Heard := {}
  /-- Rate term in quarter ns per cycle (R294). -/
  rate : Int := 0
  /-- The first alignment is still to come (R294). -/
  first : Bool := true
  /-- `CYCLE_FULL` of the reference's previous frame, and consistent frames in a row (R300). -/
  lastFull : Option Nat := none
  consist : Nat := 0
  /-- Cycles in a row without the lamplighter's SYNC on both channels (R304). -/
  missed : Nat := 0
  /-- Nodes whose SYNC was received in each of the two cycles before this one (R304). -/
  heardPrev : List Nat := []
  heardPrev2 : List Nat := []
  /-- SYNC and COLDSTART frames with another schedule, and with another version, met in LISTEN (R300). -/
  mismatch : Nat := 0
  version : Nat := 0
  /-- SILENT: cycles within the limits in a row, and the cycle count of entry (R300, R301). -/
  silentGood : Nat := 0
  silentAt : Nat := 0
  /-- BUS_LOST of this stay in SILENT has been recorded (R301). -/
  lostRec : Bool := false
  /-- Guardian (R298): open, cause of closure, opening at the next cycle, cuts in this major cycle, window last used. -/
  guard : Bool := false
  gcause : Nat := 1
  guardNext : Bool := false
  babble : Nat := 0
  /-- Cycle start of the guardian less that of the controller in ns, and the cycles that it closed (R298). -/
  gskew : Int := 0
  gsync : Nat := 0
  window : Option Nat := none
  prep : List BusPrep := []
  /-- Payload last posted for each own vital slot: (slot, handle, data) (R255). -/
  last : List (Nat × Nat × List Byte) := []
  /-- Slots of this cycle of which a copy has passed R292, with its sequence and payload (R293). -/
  got : List (Nat × Nat × List Byte) := []
  /-- `up` of the last frame heard (R28: bus silence). -/
  heardAt : Nat := 0
  deriving DecidableEq, Repr

/-- Channel state (R352). -/
inductive ChState where
  | closed | openSt | exhausted | retired
  deriving DecidableEq, Repr

/-- A channel index (R342 to R354). -/
structure Chan where
  idx : Nat := 0
  gen : Nat := 1
  st : ChState := .closed
  /-- Transmit: next wick and next sequence. Receive: last accepted wick, expected sequence. -/
  wick : Option Nat := none
  seq : Nat := 1
  session : Option Nat := none
  /-- Telegrams that did not pass (R335). -/
  fails : Nat := 0
  deriving DecidableEq, Repr

/-- A key slot (R348). -/
structure Key where
  slot : Nat := 0
  data : List Byte := []
  valid : Bool := false
  locked : Bool := false
  deriving DecidableEq, Repr

/-- Telegrams, channels, keys (09_safe_telegrams.md). -/
structure Tel where
  /-- A CREATE that waits for its session (R352). -/
  busy : Option Nat := none
  chans : List Chan := []
  keys : List Key := []
  /-- `KEY_DATA0` to `KEY_DATA3` as written. -/
  keyData : List Nat := [0, 0, 0, 0]
  sessionLost : Bool := false
  /-- Sealed telegrams that wait for the mirror fence: seal stamp and what is to be sent (R50). -/
  fenced : List (Nat × Egress) := []
  /-- Stamp at which the first of them began to wait, in periods. -/
  fenceAt : Nat := 0
  deriving DecidableEq, Repr

/-- A request in the engine's queue (R91, R92). -/
structure LatReq where
  /-- 48 or 49. -/
  ring : Nat := 48
  entry : List Byte := []
  /-- It arrived while the queue was full: BUSY at its place. -/
  busy : Bool := false
  deriving DecidableEq, Repr

/-- A result whose write waits for room in ring 51 (R94): words 0 and 1, arrival stamp, route state. -/
structure LatResult where
  w0 : Nat := 0
  w1 : Nat := 0
  tArr : Nat := 0
  rstate : Nat := 0
  deriving DecidableEq, Repr

/-- Lattice engine pair beyond the tables in lattice SRAM (02_route_lattice.md). -/
structure Lat where
  /-- Request queue in arrival order (R91, R92). -/
  reqQ : List LatReq := []
  /-- Update queue (R93). -/
  updQ : List (List Byte) := []
  /-- `RSEQ` of the last result (R86). -/
  rseq : Nat := 0
  /-- Sequence of the last notice formed, and `LOST` due in the next one written (R90). -/
  nseq : Nat := 0
  lost : Bool := false
  /-- Ring 51 is full: the result that waits, since when (periods), and recorded (R94). -/
  waiting : Option LatResult := none
  pausedAt : Nat := 0
  pauseSeen : Bool := false
  /-- The engine pair's ember snapshots (cells of the P tables of element states, route and overlap states), newest first, at most two (R25, R119). -/
  snaps : List (List Host.Cell) := []
  /-- Journal entries of the newest generation, oldest first; full (R119, R120). -/
  journal : List (List Byte) := []
  jfull : Bool := false
  /-- Timers that start at the next boundary: (overlap, number) (R104). -/
  starting : List (Bool × Nat) := []
  /-- A timer step waits for the end of a restart (R105, R121). -/
  stepDue : Bool := false
  /-- Arrival stamp of the accepted step 1 of each zone element (R113). -/
  step1 : List (Nat × Nat) := []
  deriving DecidableEq, Repr

/-- One module link (R43, R44, R54, R514). -/
structure Link where
  /-- Working lanes: 0 (down), 1, 2 or 4. -/
  width : Nat := 0
  /-- Link delay in ns, 10 bits; 0x3FF not measured. -/
  delay : Nat := 0x3FF
  /-- `LSEQ` of the next frame sent and of the next frame expected. -/
  lseqTx : Nat := 0
  lseqRx : Nat := 0
  /-- A DELAY_REQ is out: `up` at its sending. -/
  t1 : Option Nat := none
  /-- Cycle count of the last measurement (every 1,000 cycles, R54). -/
  measAt : Nat := 0
  /-- Frames that wait for their turn, and when the frame that leaves now has ended, in periods (R43, R54). -/
  queue : List LinkItem := []
  busyTo : Nat := 0
  /-- The peer is integrated: its last frame carried station time (R44). -/
  integ : Bool := false
  deriving DecidableEq, Repr

/-- State of a member of a hot-standby pair (R51, R514). -/
inductive PairState where
  | none | unsynced | synced | takingOver | active
  deriving DecidableEq, Repr

/-- Module links and the hot-standby pair (R42 to R57). -/
structure Links where
  l : List Link := List.replicate 3 {}
  pair : PairState := .none
  /-- The partner is STANDBY_SYNCED, as the active member knows it (R50). -/
  fencing : Bool := false
  solo : Bool := false
  /-- `MSEQ` of the next message sent, and of the last one received, per stream (R57). -/
  tx1 : Nat := 1
  tx2 : Nat := 1
  rx1 : Nat := 0
  rx2 : Nat := 0
  /-- `T_MSG` up to which the partner has acknowledged (active member, R57). -/
  ackT : Nat := 0
  /-- Buffered RAM_WRITE messages (address, data) (R57). -/
  ramBuf : List (Nat × List Byte) := []
  /-- Parts of a LAT_COMMIT entry received so far (R56). -/
  part : List Byte := []
  /-- Addresses of vital RAM covered by the copy under way; complete copy received (R51). -/
  copied : Nat := 0
  fullCopy : Bool := false
  /-- Cycle count since which both streams are free of gaps (R51). -/
  gapFree : Option Nat := none
  /-- Cycle count from which a safe-state or handover mark is acted on (R51). -/
  mark : Option Nat := none
  /-- Boundary cycle of the last mirrored timer step whose `AGE` increments have been applied (R119). -/
  aged : Option Nat := none
  /-- A BOUNDARY has been received in this cycle; none was in the one before (R51). -/
  markThis : Bool := false
  missedCycle : Bool := false
  /-- A frame of the active member was heard in a pair slot in this cycle (R51). -/
  heardPair : Bool := false
  /-- Cycle count of the takeover boundary (R52, R53). -/
  tookOver : Option Nat := none
  /-- Station time has been taken from a link (R44). -/
  timed : Bool := false
  /-- Active member: the next byte of the vital RAM copy under way (R57). -/
  copyAt : Option Nat := none
  /-- Active member: the module-reserved contents as mirrored last (R49, R57). -/
  resv : List Byte := []
  deriving DecidableEq, Repr

/-- Exchange state (R238). -/
inductive XState where
  | idle | loading | checking | preparing | ready | armed | draining | exchanging | committed
  deriving DecidableEq, Repr

/-- A converted instance of a prepared exchange (R244, R247, R248). -/
structure ConvWork where
  path : Nat := 0
  /-- Logical addresses of the old and the new instance. -/
  oldOff : Nat := 0
  newOff : Nat := 0
  slots : Nat := 0
  entry : ConvEntry := {}
  /-- Physical granules of the old instance, and those of them whose dirty bit is set (R248). -/
  old : List Nat := []
  dirty : List Nat := []
  deriving DecidableEq, Repr

/-- The on-line program exchange (R238 to R268). -/
structure Exch where
  st : XState := .idle
  srcBank : Nat := 0
  target : Nat := 0
  tracking : Bool := false
  image : Option ProgImage := none
  work : List ConvWork := []
  /-- Directory indices of retyped, new and dropped instances, and global slots reset (R262). -/
  retyped : List Nat := []
  fresh : List Nat := []
  dropped : List Nat := []
  globReset : List Nat := []
  /-- Directory indices of remapped instances (R244). -/
  remapped : List Nat := []
  /-- Lin stamp of the window's opening (R254). -/
  windowAt : Nat := 0
  /-- The window is open: no release, held triggers (R254). -/
  window : Bool := false
  skipped : Nat := 0
  /-- Held triggers: (task, stamp, detail) (R254). -/
  heldTrig : List (Nat × Nat × Nat) := []
  /-- Cyclic releases withheld by the window: (task, lane B) (R253, R258). -/
  withheld : List (Nat × Bool) := []
  /-- After an abort: the releases and triggers that follow at the next boundary (R253, R258). -/
  after : List (Nat × Bool) := []
  afterTrig : List (Nat × Nat × Nat) := []
  /-- Exchange is part of an activation (R468). -/
  forActivation : Bool := false
  /-- Readback exemption: the major cycle that begins at the exchange boundary (R259). -/
  exemptMajor : Option Nat := none
  /-- Committed: instant at which the lanes resume, as a linear count (R256). -/
  resumeAt : Nat := 0
  deriving DecidableEq, Repr

/-- One hardware ring (R358 to R365). -/
structure Ring where
  /-- Entries of 32 B, oldest first. -/
  entries : List (List Byte) := []
  /-- Open reservations: release (task, lane B), data entries still due, entries so far (R362). -/
  resv : List (Nat × Bool × Nat × List (List Byte)) := []
  /-- Data entries still to come of refused descriptors: release (task, lane B), entries (R362). -/
  skip : List (Nat × Bool × Nat) := []
  /-- The next delivered descriptor has `LOST` raised by one (R362). -/
  lostRaise : Bool := false
  /-- Packet memory cells in use by frames in this ring (R361): (entries of the item, cells). -/
  cells : List (Nat × Nat) := []
  deriving DecidableEq, Repr

/-- Task table entry (R137). -/
structure TaskEntry where
  id : Nat := 0
  prio : Nat := 0
  root : Nat := 0
  period : Nat := 1
  phase : Nat := 0
  inst : Nat := 0
  budget : Nat := 0
  trig : Nat := 0
  tsel : Nat := 0
  targ : Nat := 0
  targ2 : Nat := 0
  deriving DecidableEq, Repr

/-- Task table (R136, R137). -/
structure TaskTable where
  reserveUs : Nat := 40
  inFreeze : Nat := 0
  outApply : Nat := 0
  cps : List Nat := List.replicate 8 0xFFFF
  freeLimit : Nat := 100
  entries : List TaskEntry := []
  deriving DecidableEq, Repr

/-- An image point binding (R459). -/
structure Binding where
  point : Nat := 0
  output : Bool := false
  /-- 1 telegram field, 2 element STATE, 3 SIGNAL PERMIT. -/
  kind : Nat := 0
  idx : Nat := 0
  off : Nat := 0
  width : Nat := 1
  deriving DecidableEq, Repr

/-- A readback entry (R168, R459). -/
structure RbEntry where
  addr : Nat := 0
  mask : Nat := 0
  expect : Nat := 0
  deriving DecidableEq, Repr

/-- A downstream neighbour of RELAY (R459). -/
structure Downstream where
  transport : Nat := 0
  node : Nat := 0
  mac : Nat := 0
  deriving DecidableEq, Repr

/-- An aspect field of a channel template (R458). -/
structure Aspect where
  off : Nat := 0
  width : Nat := 1
  elem : Nat := 0
  restrictive : List Nat := []
  deriving DecidableEq, Repr

/-- A channel template (R458). -/
structure Template where
  index : Nat := 0
  transport : Nat := 0
  rx : Bool := false
  border : Bool := false
  latReq : Bool := false
  src : Nat := 0
  dst : Nat := 0
  mtch : Nat := 0
  prot : Nat := 0
  wickWin : Nat := 1
  foldWin : Nat := 1
  keySlot : Nat := 0xFF
  ring : Nat := 0
  tver : Nat := 0
  len : Nat := 16
  aspects : List Aspect := []
  headers : List Byte := []
  deriving DecidableEq, Repr

/-- Lattice sizes and other limits live in SRAM; this is the configuration bitstream as loaded (R455 to R459). -/
structure Cfg where
  present : Bool := false
  seq : Nat := 0
  cfgRef : Nat := 0
  split : Bool := false
  /-- 1 interlocking, 2 object controller. -/
  role : Nat := 0
  cluster : Nat := 0
  partner : Option Nat := none
  /-- Configured bytes of the instance and global regions (R134). -/
  instSize : Nat := 0
  globSize : Nat := 0
  degradeH : Nat := 72
  epoch : Nat := 1
  civilJump : Nat := 1000000
  recShutdown : Bool := false
  recFailH : Nat := 24
  borderTimeout : Nat := 3
  testH : Nat := 24
  kPickMs : Nat := 50
  kDropMs : Nat := 50
  confirmS : Nat := 600
  seqFloor : List Nat := [0, 0, 0]
  debugPermit : Bool := false
  autoStart : Bool := false
  /-- Program-writable register blocks, bit n for index n (R130). -/
  progBlocks : Nat := 0
  pins : List Nat := List.replicate 32 0
  edgeRing : Nat := 0xFF
  rings : List Nat := List.replicate 64 0
  tasks : TaskTable := {}
  tasksB : Option TaskTable := none
  bindings : List Binding := []
  readback : List RbEntry := []
  sched : Sched := {}
  templates : List Template := []
  keyHash : List Nat := []
  upstream : Nat := 0
  downstream : List Downstream := []
  ownerKeys : List Nat := []
  deriving DecidableEq, Repr

/-- The machine. -/
structure State where
  /-- Commands waiting, first in, first out (model's own). -/
  pending : List Instr := []
  /-- Outputs of the last command (model's own). -/
  sent : List Sent := []
  /-- Free values are applied to it (model's own). -/
  free : Nat := 0
  clk : Clock := {}
  civ : Civil := {}
  cand : Candle := {}
  pwr : Power := {}
  tri : Triad := {}
  dbg : Debug := {}
  prg : Program := {}
  frc : Forces := {}
  /-- Bytes of the memory map that differ from what an unlisted address reads as (R3). -/
  mem : List Host.Cell := []
  vm : VMem := {}
  xch : Exch := {}
  /-- Registers with storage of their own: (block * 0x10000 + offset, word) (R493). -/
  regs : List (Nat × Half) := []
  bus : Bus := {}
  tel : Tel := {}
  rings : List Ring := List.replicate 64 {}
  lat : Lat := {}
  fio : Field := {}
  snu : Snuffer := {}
  evr : Recorder := {}
  sta : Stats := {}
  upd : Update := {}
  lnk : Links := {}
  cfg : Cfg := {}
  deriving DecidableEq, Repr

/-- Why a command could stop the machine. The module's own faults (R6) are states, not faults of the model: no meaning answers one. -/
inductive Fault where
  /-- Never raised: every fault the spec describes leads to a next state (safe). -/
  | unreachable
  deriving DecidableEq, Repr

/-- Why a command can be refused. -/
inductive Refusal where
  /-- Raised by exec for a row that has no meaning yet (safe: a refusal proves nothing). -/
  | notModelled (mnemonic : String)
  deriving DecidableEq, Repr

/-- Bytes of the delivered firmware's header that the spec fixes, at their offsets: `MAGIC`, `KIND`, `SIGALG`, `TARGET`, `LANE_MODE`, `ROLE`, `CFG_REF` and the reserved bytes (R13, R450). `SEQ` 0 is the model's choice, like the slot's (log entry 5). -/
def factoryHeader : List (Nat × Byte) :=
  [(0, 0x48#8), (1, 0x4B#8), (2, 0x49#8), (3, 0x4D#8), (4, 0x01#8), (5, 0x01#8), (8, 0x01#8), (9, 0x00#8), (10, 0x96#8), (11, 0x40#8),
    (21, 0#8), (22, 0#8), (23, 0#8), (24, 0#8), (25, 0#8), (26, 0#8), (27, 0#8), (40, 0#8), (41, 0#8), (42, 0#8), (43, 0#8)]
    ++ (List.range 124).map (fun i => (128 + i, 0#8))

/-- The factory firmware in NOR bank A: what the spec gives of it (R13, R447). Its other bytes are not known and read as erased. -/
def factoryFirmware : List Host.Cell := factoryHeader.map (fun x => (0x200000000 + x.1, x.2))

/-- The machine right after reset: every field at the value the spec states for reset (R500), and as delivered where it outlives a reset (R13, R424, R466). -/
def State.reset : State := { mem := factoryFirmware }

end Sys2Proof.Machine
end

