-- ==== Sys2Proof/Machine/Ops.lean ====
section
/-! DEFINITION. The named operations every meaning is made of: memory in its canonical form, the clocks, the register words, records, rings, pins, cuts, and the one operation that carries out a vital fault (R151). -/

namespace Sys2Proof.Machine

/-! ### Memory (R3, R217, R62, R447) -/

/-- What an unlisted address reads as: 0xFF in the inverted copies of vital RAM (R220), in the complemented N tables of lattice SRAM (R58, R62) and in erased NOR; 0x00 elsewhere. -/
def memDefault (a : Nat) : Byte :=
  if 0x0C000000 ≤ a ∧ a < 0x10000000 then 0xFF#8
  else if 0x100200000 ≤ a ∧ a < 0x100400000 then 0xFF#8
  else if 0x100440000 ≤ a ∧ a < 0x100480000 then 0xFF#8
  else if 0x100488000 ≤ a ∧ a < 0x100490000 then 0xFF#8
  else if 0x100494000 ≤ a ∧ a < 0x100498000 then 0xFF#8
  else if 0x200000000 ≤ a ∧ a < 0x208000000 then 0xFF#8
  else 0x00#8

/-- One byte. -/
def memGet (a : Nat) : List Host.Cell → Byte
  | [] => memDefault a
  | (b, v) :: t => if b = a then v else if a < b then memDefault a else memGet a t

/-- Put a byte in front where it differs from what its address reads as unlisted. -/
def memCons (a : Nat) (v : Byte) (t : List Host.Cell) : List Host.Cell :=
  if v = memDefault a then t else (a, v) :: t

/-- Store one byte, keeping the canonical form. -/
def memSet (a : Nat) (v : Byte) : List Host.Cell → List Host.Cell
  | [] => memCons a v []
  | (b, w) :: t =>
    if b = a then memCons a v t
    else if a < b then memCons a v ((b, w) :: t)
    else (b, w) :: memSet a v t

/-- The canonical form: addresses strictly rising from `lo`, no entry equal to what an unlisted address reads as. -/
def memWfFrom : Nat → List Host.Cell → Bool
  | _, [] => true
  | lo, (b, w) :: t => decide (lo ≤ b) && decide (w ≠ memDefault b) && memWfFrom (b + 1) t

/-- The canonical form of a memory. -/
def Memory.wf (m : List Host.Cell) : Bool := memWfFrom 0 m

/-- Store a byte string. -/
def memSetList (a : Nat) : List Byte → List Host.Cell → List Host.Cell
  | [], m => m
  | v :: t, m => memSetList (a + 1) t (memSet a v m)

/-- `n` bytes from `a`. -/
def memRead (a n : Nat) (m : List Host.Cell) : List Byte := (List.range n).map (fun i => memGet (a + i) m)

/-- `n` bytes from `a`, little-endian. -/
def memNat (a n : Nat) (m : List Host.Cell) : Nat := leNat (memRead a n m)

/-- The cells of `[lo, hi)`. -/
def memSlice (lo hi : Nat) (m : List Host.Cell) : List Host.Cell := m.filter (fun c => lo ≤ c.1 && c.1 < hi)

/-- The true copy of `a` lies in a dual-stored region (R218). -/
def dualStored (a : Nat) : Bool := 0x04000000 ≤ a && a < 0x08000000

/-- Distance from a true copy to its inverted copy (R218). -/
def invOffset : Nat := 0x08000000

/-- Replace every listed byte of `[lo, hi)` by its reset value, one pass. -/
def memErase (lo hi : Nat) (m : List Host.Cell) : List Host.Cell := m.filter (fun c => !(lo ≤ c.1 && c.1 < hi))

/-- Bytes of one vital RAM store: both copies of a dual-stored address (R133, R218). -/
def storeBytes (a : Nat) (l : List Byte) (m : List Host.Cell) : List Host.Cell :=
  let m1 := memSetList a l m
  if dualStored a then memSetList (a + invOffset) (l.map (fun b => ~~~b)) m1 else m1

/-- Physical address of a logical instance address under a granule map (R243). -/
def granule (map : List (Nat × Nat)) (a : Nat) : Nat :=
  if 0x04000000 ≤ a ∧ a < 0x07000000 then
    let g := (a - 0x04000000) / 64
    match assocGet g map with
    | some p => 0x04000000 + p * 64 + a % 64
    | none => a
  else a

/-! ### Station time (R295, R311 to R318) -/

/-- Length of a minor cycle in µs, which is its number of macroticks (R20, R273). -/
def cycleUs (s : State) : Nat := s.cfg.sched.cycleUs

/-- Number of macroticks that the correction changes by one microtick (R295). -/
def corrN (s : State) : Nat := s.clk.corr.natAbs / 10

/-- Microticks of the present cycle (R295). -/
def cycleTicks (s : State) : Nat :=
  if s.clk.corr < 0 then 100 * cycleUs s + corrN s else 100 * cycleUs s - corrN s

/-- First microtick of macrotick `p`: the macroticks ⌊i × M / n⌋ are lengthened or shortened by one (R295). -/
def macroStart (s : State) (p : Nat) : Nat :=
  let n := corrN s
  let m := cycleUs s
  let k := if n = 0 then 0 else min n ((p * n + m - 1) / m)
  if s.clk.corr < 0 then 100 * p + k else 100 * p - k

/-- Largest of the candidates whose start is at or before `x`. -/
def macroFind (s : State) (x : Nat) : List Nat → Nat → Nat
  | [], best => best
  | p :: t, best => macroFind s x t (if macroStart s p ≤ x then p else best)

/-- The macrotick of microtick `x` of the cycle: the cycle position (R20). -/
def macroAt (s : State) (x : Nat) : Nat :=
  let p0 := x / 100 - 8
  min (cycleUs s - 1) (macroFind s x ((List.range 18).map (· + p0)) p0)

/-- The cycle position (R20). -/
def position (s : State) : Nat := macroAt s s.clk.pos

/-- Position within the cycle in units of L / 16,384,000, with FRAC held in a lengthened tick (R314). -/
def posUnits (s : State) : Nat :=
  let p := position s
  let u := s.clk.pos - macroStart s p
  let k := 16384000
  let d := 100 * cycleUs s
  if u < 100 then (100 * p + u) * k / d else ((100 * (p + 1)) * k - 1) / d

/-- A stamp as a linear count of units of L / 16,384,000 (R313). -/
def lin (st : Nat) : Nat := st / 2 ^ 24 * 16384000 + bits st 14 10 * 16384 + bits st 0 14

/-- The stamp of a linear count. -/
def unlin (x : Nat) : Nat := x / 16384000 * 2 ^ 24 + x % 16384000

/-- `c` cycles in linear units, so also the boundary of cycle count `c` (R313). -/
def cycleLin (c : Nat) : Nat := c * 16384000

/-- The present instant as a linear count; a held provisional time stays at its last stamp (R315). -/
def nowLin (s : State) : Nat :=
  if s.clk.provHeld || (s.clk.prov && decide (0xFFFFFFFF ≤ s.clk.cycle)) then lin 0x00FFFFFFFF000000 else cycleLin s.clk.cycle + posUnits s

/-- The present station time-stamp (R311). -/
def now (s : State) : Nat := unlin (nowLin s)

/-- `us` microseconds in linear units (R313). -/
def usLin (s : State) (us : Nat) : Nat := us * 16384000 / cycleUs s

/-- Microseconds between two linear counts. -/
def linUs (s : State) (d : Nat) : Nat := d * cycleUs s / 16384000

/-- `sec` seconds in linear units. -/
def secLin (s : State) (sec : Nat) : Nat := usLin s (sec * 1000000)

/-- Microseconds of station time passed since linear count `x`. -/
def sinceUs (s : State) (x : Nat) : Nat := linUs s (nowLin s - x)

/-! ### Registers with storage (R493) -/

/-- Reset value of a stored register word where it is not 0. -/
def regReset (k : Nat) : Nat :=
  if k = 0x000020 then 0x40960001
  else if k = 0x040040 then 0x3FFF0000
  else if k = 0x090000 then 4
  else if k = 0x090004 then 1000000
  else if k = 0x090020 then 0xA0000000
  else if k = 0x0B0004 ∨ k = 0x0B0008 then 0xFFFFFFFF
  else if k = 0x0D0010 ∨ k = 0x0D0014 ∨ k = 0x0D0018 ∨ k = 0x0D001C then 0xFFFF0000
  else if k = 0x0E000C then 5
  else if k = 0x0C0004 then 0x10000000
  else if k = 0x110008 then 0x0FFF0000
  else 0

/-- The stored word of register `k` = block index * 0x10000 + offset. -/
def rv (k : Nat) (s : State) : Nat :=
  match assocGet k s.regs with
  | some w => w.toNat
  | none => regReset k

/-- Store a register word. -/
def setRv (k v : Nat) (s : State) : State := { s with regs := assocSet k (BitVec.ofNat 32 v) s.regs }

/-- A field of a stored register. -/
def rf (k lo n : Nat) (s : State) : Nat := bits (rv k s) lo n

/-- Set a field of a stored register. -/
def setRf (k lo n v : Nat) (s : State) : State := setRv k (setBits (rv k s) lo n v) s

/-- Add `d` to a counter field, saturating. -/
def addRf (k lo n d : Nat) (s : State) : State := setRf k lo n (sat (2 ^ n - 1) (rf k lo n s + d)) s

/-- Count one on a 32-bit counter. -/
def cnt (k : Nat) (s : State) : State := addRf k 0 32 1 s

/-! ### Sending -/

/-- Something leaves the module. -/
def send (x : Sent) (s : State) : State := { s with sent := s.sent ++ [x] }

/-- Take a free value. -/
def takeFree (s : State) : Word × State := (Config.freeValue s.free, { s with free := s.free + 1 })

/-! ### Records (R419 to R425, R540) -/

/-- A loss without a sequence number (R425). -/
def recordLoss (s : State) : State :=
  cnt 0x0F006C { s with
    evr.lossFirst := if s.evr.lossNoSeq + s.evr.lossSeq = 0 then now s else s.evr.lossFirst
    evr.lossLast := now s
    evr.lossNoSeq := sat 0xFFFFFFFF (s.evr.lossNoSeq + 1) }

/-- Bytes of a record: header of 24 B and payload (R419). -/
def recLen (r : SRec) : Nat := 24 + r.payload.length

/-- Staging in use, bytes (R428). -/
def stagingUsed (s : State) : Nat := s.evr.staging.foldl (fun n r => n + recLen r) 0

/-- Size of the staging buffer (R218). -/
def stagingSize : Nat := 0x800000

/-- Hand a record with its own stamp to the ingest port, which holds up to 1,024 records (R424, R425). -/
def emitAt (t ty : Nat) (payload : List Byte) (s : State) : State :=
  if s.evr.queue.length < 1024 then
    { s with evr.queue := s.evr.queue ++ [{ t := t, ty := ty, payload := pad8 payload }] }
  else recordLoss s

/-- RECORDS_LOST, at the first instant at which queue and staging can take a record (R425). -/
def lostNotice (s : State) : State :=
  if s.evr.lossNoSeq + s.evr.lossSeq ≠ 0 ∧ s.evr.queue.length < 1024 ∧ stagingUsed s + 1024 ≤ stagingSize then
    emitAt (now s) 0x4F05 (packFields [(4, s.evr.lossNoSeq), (4, s.evr.lossSeq), (8, s.evr.lossFirst), (8, s.evr.lossLast)])
      { s with evr.lossNoSeq := 0, evr.lossSeq := 0 }
  else s

/-- Hand a record of the present instant to the ingest port: fields as (bytes, value). -/
def emit (ty : Nat) (fields : List (Nat × Nat)) (s : State) : State := emitAt (now s) ty (packFields fields) s

/-- NV_EVENT of block `blk` (R540). -/
def nvEvent (blk code detail addr : Nat) (s : State) : State :=
  emit (0x80FE + 0x100 * blk) [(2, code), (2, 0), (4, detail), (8, addr)] s

/-- IMAGE_EVENT (R476). -/
def imageEvent (ev kind bank reason seq chunk method transport node : Nat) (s : State) : State :=
  emit 0x5001 [(1, ev), (1, kind), (1, bank), (1, reason), (4, seq), (2, chunk), (1, method), (1, transport), (1, node)] s

/-- Count `d` on a statistics field of `n` bytes at byte offset `off` (R442, R443). -/
def stat (off d : Nat) (s : State) : State :=
  { s with sta.acc := assocSet off ((match assocGet off s.sta.acc with | some v => v | none => 0) + d) s.sta.acc }

/-! ### Lanes -/

/-- One lane. -/
def lane (l : LaneId) (s : State) : Lane :=
  match l with
  | .a => s.tri.a
  | .b => s.tri.b
  | .c => s.tri.c

/-- Change one lane. -/
def modLane (l : LaneId) (f : Lane → Lane) (s : State) : State :=
  match l with
  | .a => { s with tri.a := f s.tri.a }
  | .b => { s with tri.b := f s.tri.b }
  | .c => { s with tri.c := f s.tri.c }

/-- Lane index: 0 A, 1 B, 2 C. -/
def laneIdx : LaneId → Nat
  | .a => 0
  | .b => 1
  | .c => 2

/-- The lanes. -/
def allLanes : List LaneId := [.a, .b, .c]

/-- Lanes in state LIT (R176). -/
def litLanes (s : State) : List LaneId := allLanes.filter (fun l => (lane l s).st == .lit)

/-- An entry of the voter ember's journal (R193). -/
def voterLog (e : VoterEntry) (s : State) : State := { s with tri.journal := s.tri.journal ++ [e] }

/-- A change of lane state: journalled, then in force (R180, R193). -/
def laneTo (l : LaneId) (st : LaneState) (s : State) : State := modLane l (fun x => { x with st := st }) (voterLog (.state l st (now s)) s)

/-- Each committed voted transaction advances the sequence number (R173). -/
def seqNext (s : State) : State := { s with tri.seq := (s.tri.seq + 1) % 65536 }

/-- `n` committed voted transactions. -/
def seqMany (n : Nat) (s : State) : State := { s with tri.seq := (s.tri.seq + n) % 65536 }

/-- An act of the lanes that makes exactly one voted transaction advances it too; in split mode the voters are bypassed (R173, R205). -/
def seqVoted (s : State) : State := if s.cfg.split then s else seqNext s

/-- Code of a lane state (R179). -/
def laneCode : LaneState → Nat
  | .reset => 0
  | .lit => 1
  | .dimmed => 2
  | .ready => 3
  | .relighting => 4
  | .attached => 5
  | .retired => 6
  | .off => 7

/-! ### Modes (R8, R146) -/

/-- Code of the operating mode (R511). -/
def modeCode : Mode → Nat
  | .startup => 0
  | .free => 1
  | .normal => 2
  | .halted => 3

/-- Code of the FREE cause (R511). -/
def causeCode : FreeCause → Nat
  | .start => 1
  | .test => 2
  | .recovery => 3

/-- The module is in NORMAL service. -/
def inNormal (s : State) : Bool := s.prg.mode == .normal && s.pwr.phase == .running

/-- The safe state (R8): every vital output de-energised, the snuffer open, telegrams not vital. -/
def safeState (s : State) : Bool := !(inNormal s) || s.cfg.split

/-- `SHUTDOWN`, `off` and held phases execute nothing. -/
def powered (s : State) : Bool :=
  match s.pwr.phase with
  | .off => false
  | .inReset => false
  | .done => false
  | _ => true

/-- Change the operating mode with its MODE_CHANGE record (R146, R421). -/
def setMode (m : Mode) (c : FreeCause) (s : State) : State :=
  let old := modeCode s.prg.mode
  emit 0x4003 [(1, old), (1, modeCode m), (1, if m == .free then causeCode c else 0)]
    { s with prg.mode := m, prg.cause := c }

/-- Edges are barred (R29, R215, R413, R437). -/
def edgesBarred (s : State) : Bool := s.pwr.limitBar || s.dbg.broke

/-! ### Clocks at the start of a command -/

/-- The RTC counters take new values. -/
def setRtc (sec sub rem : Nat) (c : Candle) : Candle := { c with rtcSec := sec, rtcSub := sub, rtcRem := rem }

/-- Civil time takes a new value and fraction. -/
def setCivil (ns frac : Nat) (c : Civil) : Civil := { c with ns := ns, frac := frac }

/-- The position in the cycle and the count of reference periods take new values. -/
def setPos (pos up : Nat) (c : Clock) : Clock := { c with pos := pos, up := up }

/-- The releases and the execution time of the cycle take new values. -/
def setRun (l : List Release) (used : Nat) (p : Program) : Program := { p with active := l, usedTicks := used }

/-- Advance the RTC by `dt` reference periods: its own crystal, with trim (R488, R492). -/
def rtcAdvance (dt : Nat) (s : State) : State :=
  if s.cand.rtcLost then s
  else
    let rate := (32768 * (1000000 + toSigned 8 (rf 0x110000 0 8 s))).toNat
    let rem := s.cand.rtcRem + dt * rate
    let sub := s.cand.rtcSub + rem / 100000000000000
    { s with cand := setRtc ((s.cand.rtcSec + sub / 32768) % 2 ^ 48) (sub % 32768) (rem % 100000000000000) s.cand }

/-- Advance civil time by `dt` periods of `TIME_INCR` (R324). -/
def civilAdvance (dt : Nat) (s : State) : State :=
  let t := s.civ.ns * 2 ^ 28 + s.civ.frac + dt * rv 0x090020 s
  { s with civ := setCivil (t / 2 ^ 28 % 2 ^ 64) (t % 2 ^ 28) s.civ }

/-- In split mode a lane that the debugger holds, or that is on its way back, executes nothing (R211, R216). -/
def laneStopped (b : Bool) (s : State) : Bool :=
  let x := lane (if b then .b else .a) s
  s.cfg.split && (x.st != .lit || x.halted)

/-- Charge `dt` periods to the running release of each lane table (R149, R150). -/
def chargeHead (dt : Nat) : List Release → Bool → Bool → List Release
  | [], _, _ => []
  | r :: t, doneA, doneB =>
    let mine := if r.laneB then !doneB else !doneA
    (if mine then { r with exec := r.exec + dt } else r)
      :: chargeHead dt t (doneA || !r.laneB) (doneB || r.laneB)

/-- After the commit of an exchange the lanes rest until they resume (R256, R259). -/
def resting (s : State) : Bool := decide (nowLin s < s.xch.resumeAt)

/-- Periods of that rest still to come. -/
def restPeriods (s : State) : Nat := ((s.xch.resumeAt - nowLin s) * 100 * cycleUs s + 16383999) / 16384000

/-- Execution time passes for the running release unless the lanes stall, rest, or pause for a relight (R149, R184, R256). -/
def execAdvance (dt : Nat) (s : State) : State :=
  if s.tri.stallFrom.isSome || s.prg.releaseHeld || s.prg.active.isEmpty then s
  else
    let dt := dt - restPeriods s
    { s with prg := setRun (chargeHead dt s.prg.active (laneStopped false s) (laneStopped true s)) (s.prg.usedTicks + dt) s.prg }

/-- Microseconds of the reference in periods. -/
def usUp (us : Nat) : Nat := us * 100

/-! ### Rings (R358 to R365) -/

/-- Ring `r`. -/
def ring (r : Nat) (s : State) : Ring := s.rings.getD r {}

/-- Change ring `r`. -/
def modRing (r : Nat) (f : Ring → Ring) (s : State) : State := { s with rings := modNth f r s.rings }

/-- The ring entry of RINGS (R459). -/
def ringWord (r : Nat) (s : State) : Nat := s.cfg.rings.getD r 0

/-- Entries of ring `r`: 2^`SIZE_LOG2` (R459). -/
def ringSize (r : Nat) (s : State) : Nat := 2 ^ bits (ringWord r s) 0 4

/-- Ring `r` is of class vital (R459). -/
def ringVital (r : Nat) (s : State) : Bool := bit (ringWord r s) 5

/-- Ring `r` carries from hardware to program (R459). -/
def ringToProgram (r : Nat) (s : State) : Bool := bit (ringWord r s) 4

/-- Entries that the open reservations hold (R362). -/
def ringReserved (x : Ring) : Nat := x.resv.foldl (fun n r => n + r.2.2.1 + r.2.2.2.length) 0

/-- Free entries. -/
def ringFree (r : Nat) (s : State) : Nat := ringSize r s - (ring r s).entries.length - ringReserved (ring r s)

/-- A refused or dropped item: counted, and recorded on a vital ring (R362). -/
def ringOverflow (r handle : Nat) (s : State) : State :=
  if ringVital r s then emit 0x0C01 [(1, r), (4, handle)] (cnt (0x0C0108 + 0x10 * r) s)
  else cnt (0x0C0104 + 0x10 * r) s

/-- Highest fill of a ring since last cleared (R365). -/
def ringHigh (r : Nat) (s : State) : State :=
  let n := (ring r s).entries.length
  if rf (0x0C0100 + 0x10 * r) 16 13 s < n then setRf (0x0C0100 + 0x10 * r) 16 13 n s else s

/-- An entry with the arrival stamp at the ring's stamp word (R358, R459). -/
def stampEntry (r st : Nat) (e : List Byte) (s : State) : List Byte :=
  let o := 4 * bits (ringWord r s) 8 3
  let e := fitTo 32 e
  e.take o ++ leBytes 8 st ++ e.drop (o + 8)

/-- Put complete entries in a ring. -/
def ringPush (r : Nat) (es : List (List Byte)) (s : State) : State :=
  ringHigh r (modRing r (fun x => { x with entries := x.entries ++ es }) s)

/-! ### Pins, groups, cuts (R377, R402, R404) -/

/-- Pin `n`. -/
def pin (n : Nat) (s : State) : Pin := s.fio.pins.getD n {}

/-- What the ember holds of a pin (R392). -/
def emberPin (p : Pin) : PinEmber :=
  { cmd := p.cmd, latched := p.latched, stuckOn := p.stuckOn, cross := p.cross, overload := p.overload, openLoad := p.openLoad,
    driveFail := p.driveFail, timedOut := p.timedOut, permitOff := p.permitOff, inBand := p.inBand, couplerLost := p.couplerLost,
    partner := p.partner, filtered := p.filtered, filling := p.filling, posted := p.posted, tEdge := p.tEdge, edgeNo := p.edgeNo,
    lastTest := p.lastTest }

/-- A pin as its ember item gives it; the rest is read from its field side (R393, R394). -/
def restorePin (e : PinEmber) (p : Pin) : Pin :=
  { p with
    cmd := e.cmd, latched := e.latched, stuckOn := e.stuckOn, cross := e.cross, overload := e.overload, openLoad := e.openLoad,
    driveFail := e.driveFail, timedOut := e.timedOut, permitOff := e.permitOff, inBand := e.inBand, couplerLost := e.couplerLost,
    partner := e.partner, filtered := e.filtered, filling := e.filling, posted := e.posted, tEdge := e.tEdge, edgeNo := e.edgeNo,
    lastTest := e.lastTest }

/-- An entry of the field sequencer's journal (R392). -/
def fieldLog (e : FieldEntry) (s : State) : State := { s with fio.journal := s.fio.journal ++ [e] }

/-- Change pin `n`; what the ember holds of it goes into the journal where it changes (R392). -/
def modPin (n : Nat) (f : Pin → Pin) (s : State) : State :=
  let e := emberPin (f (pin n s))
  { s with
    fio.pins := modNth f n s.fio.pins
    fio.journal := if e = emberPin (pin n s) then s.fio.journal else s.fio.journal ++ [.pin n e] }

/-- Field group `g`. -/
def fgroup (g : Nat) (s : State) : FGroup := s.fio.groups.getD g {}

/-- Change field group `g`; a new state of it goes into the journal (R392). -/
def modGroup (g : Nat) (f : FGroup → FGroup) (s : State) : State :=
  let x := f (fgroup g s)
  { s with
    fio.groups := modNth f g s.fio.groups
    fio.journal := if x.band = (fgroup g s).band ∧ x.cut = (fgroup g s).cut then s.fio.journal else s.fio.journal ++ [.group g x] }

/-- Snuffer group `g`. -/
def sgroup (g : Nat) (s : State) : SGroup := s.snu.g.getD g {}

/-- Change snuffer group `g`. -/
def modSnu (g : Nat) (f : SGroup → SGroup) (s : State) : State := { s with snu.g := modNth f g s.snu.g }

/-- Pin word of Fn (R369). -/
def pinWord (n : Nat) (s : State) : Nat := s.cfg.pins.getD n 0

/-- `MODE` of Fn. -/
def pinMode (n : Nat) (s : State) : Nat := bits (pinWord n s) 0 3

/-- Fn is an output. -/
def isOutput (n : Nat) (s : State) : Bool := pinMode n s == 3 || pinMode n s == 4

/-- Fn is an input. -/
def isInput (n : Nat) (s : State) : Bool := pinMode n s == 1 || pinMode n s == 2

/-- Group `g` has a used pin (R370). -/
def groupUsed (g : Nat) (s : State) : Bool := (List.range 8).any (fun i => pinMode (8 * g + i) s != 0)

/-- Mask of the used groups. -/
def usedGroups (s : State) : Nat := b2n (groupUsed 0 s) + 2 * b2n (groupUsed 1 s) + 4 * b2n (groupUsed 2 s) + 8 * b2n (groupUsed 3 s)

/-- A command frame goes to pin `n` (R367, R390). -/
def sendPin (n : Nat) (on : Bool) (test : Nat) (s : State) : State :=
  send (.pin n on (pin n s).unlatch test) (modPin n (fun p => { p with toggle := !p.toggle }) s)

/-- Off command: issued at once where the pin was on, and its frame refreshes the field side; a pin still waiting is not issued (R378, R379, R390). -/
def pinOff (n : Nat) (s : State) : State :=
  let p := pin n s
  if p.cmd then
    sendPin n false 0 (modPin n (fun p => { p with cmd := false, waiting := false, cmdAt := s.clk.up, rbHigh := 0, rbLowFrom := none, limitFrom := none, testing := 0, refreshAt := s.clk.up }) s)
  else modPin n (fun p => { p with waiting := false }) s

/-- Off commands for the pins of a list. -/
def pinsOff : List Nat → State → State
  | [], s => s
  | n :: t, s => pinsOff t (pinOff n s)

/-- All 32 pins. -/
def allPins : List Nat := List.range 32

/-- The pins of group `g` (R366). -/
def groupPins (g : Nat) : List Nat := (List.range 8).map (· + 8 * g)

/-- Groups whose supply is through or being let through. -/
def closedMask (s : State) : Nat :=
  (List.range 4).foldl (fun m g => let x := sgroup g s; m + 2 ^ g * b2n (x.aClosed || x.kOn)) 0

/-- The feed of the groups in `mask` stops, their cut is counted and recorded with its cause (R402, R418). -/
def recordCut (mask cause : Nat) (s : State) : State :=
  if mask = 0 then s
  else
    let s := setRf 0x0E000C 0 4 cause (setRf 0x0E000C 4 4 mask s)
    emit 0x4E01 [(4, rv 0x0E000C s), (1, 0), (4, 0)] (cnt 0x0E003C s)

/-- Path b opens: `SNUFF_K` de-energised, the contactor drops (R402, R410). -/
def dropK (g : Nat) (s : State) : State :=
  modSnu g (fun x => if x.kOn then { x with kOn := false, kAt := s.clk.up, dropAt := nowLin s, mismatch := 0 } else x) s

/-- A group in the pick-up phase of its closing: `SNUFF_K` energised and path a held open, so that no trip of path a would end it (R404). -/
def pickingGroup (g : Nat) (s : State) : Bool := (sgroup g s).phase == .picking

/-- Both paths of group `g` open. -/
def openGroup (g : Nat) (s : State) : State :=
  modSnu g (fun x => { x with phase := .open', aClosed := false, regular := 0 }) (dropK g s)

/-- A cut of the groups of `mask` reaches a group that is still picking: its feed has not begun, so path b opens at once (R402, R404). -/
def cutPicking : List Nat → Nat → State → State
  | [], _, s => s
  | g :: t, mask, s => cutPicking t mask (if bit mask g && pickingGroup g s then openGroup g s else s)

/-- Both paths of every group open. -/
def openAll (s : State) : State := openGroup 3 (openGroup 2 (openGroup 1 (openGroup 0 s)))

/-! ### The hot-standby pair: sending (R49, R56) -/

/-- Module link `l`. -/
def link (l : Nat) (s : State) : Link := s.lnk.l.getD l {}

/-- Change module link `l`. -/
def modLink (l : Nat) (f : Link → Link) (s : State) : State := { s with lnk.l := modNth f l s.lnk.l }

/-- Cluster number at the far end of link `l` (R42). -/
def linkPeer (l : Nat) (s : State) : Nat := if l < s.cfg.cluster then l else l + 1

/-- Link to the pair partner (R42: one link to each other member, in ascending order). -/
def partnerLink (s : State) : Nat :=
  match s.cfg.partner with
  | some p => if p < s.cfg.cluster then p else p - 1
  | none => 0

/-- Preset folded over IDs, R343: the check values run over them before the data. -/
def foldRun (poly : Nat) (ids : List Byte) : Nat := crcRun poly 0xFFFFFFFF ids

/-- A mirror message up to its check values (R56). -/
def mirrorHead (mtype stream mseq tMsg : Nat) (body : List Byte) : List Byte :=
  packFields [(1, mtype), (1, stream), (2, body.length), (4, mseq), (8, tMsg)] ++ body

/-- CVU-P and CVU-Q over a mirror message, their presets folded over both members, stream and `MSEQ` (R56, R343). -/
def mirrorCheck (stream mseq : Nat) (h : List Byte) (s : State) : Nat × Nat :=
  let own := s.cfg.cluster
  let other := match s.cfg.partner with | some p => p | none => 0xFF
  let act := if s.lnk.pair == .active then own else other
  let stb := if s.lnk.pair == .active then other else own
  let ids := packFields [(2, act), (2, stb), (2, stream), (2, 0), (4, mseq)]
  (Nat.xor (crcRun 0x82F63B78 (foldRun 0x82F63B78 ids) h) 0xFFFFFFFF, Nat.xor (crcRun 0xEDB88320 (foldRun 0xEDB88320 ids) h) 0xFFFFFFFF)

/-- A mirror message with its check values (R56). -/
def mirrorBytes (mtype stream mseq : Nat) (body : List Byte) (s : State) : List Byte :=
  let h := mirrorHead mtype stream mseq (now s) body
  let c := mirrorCheck stream mseq h s
  h ++ leBytes 4 c.1 ++ leBytes 4 c.2

/-- Both check values of a link frame over its header and payload (R54). -/
def linkCheck (b : List Byte) : Nat := crc32c b + 2 ^ 32 * crc32 b

/-- A whole link frame: header, padded payload, check values (R54). -/
def linkFrame (l : Nat) (x : LinkItem) (s : State) : List Byte :=
  let h := packFields [(1, x.ltype), (1, s.cfg.cluster % 4 + 4 * (linkPeer l s % 4) + 16 * (x.prio % 4)), (2, x.payload.length), (2, x.chtag), (2, 0), (4, (link l s).lseqTx), (4, 0)]
  let b := h ++ pad8 x.payload
  b ++ leBytes 8 (linkCheck b)

/-- Periods that a frame of `n` bytes occupies a link of `w` lanes: start block, words and terminate block in 66 bits each, at 5 Gbit/s a lane (R43, R54). -/
def frameTime (n w : Nat) : Nat := (((n + 7) / 8 + 2) * 66 + 50 * w - 1) / (50 * w)

/-- A frame starts on link `l` at the instant `t` (R54). -/
def transmit (l t : Nat) (x : LinkItem) (s : State) : State :=
  let f := linkFrame l x s
  send (.link l f) (modLink l (fun k => { k with
    lseqTx := (k.lseqTx + 1) % 2 ^ 32, busyTo := t + frameTime f.length k.width, t1 := if x.ltype = 4 then some t else k.t1 }) s)

/-- A frame for link `l`: it starts at once where the link is idle, else it waits for its turn; a link that is down carries nothing (R43, R54). -/
def sendItem (l : Nat) (x : LinkItem) (s : State) : State :=
  let k := link l s
  if k.width = 0 then s
  else if k.queue.isEmpty ∧ k.busyTo ≤ s.clk.up then transmit l s.clk.up x s
  else modLink l (fun k => { k with queue := k.queue ++ [x] }) s

/-- A link frame leaves on link `l` (R54). -/
def sendLink (l ltype prio chtag : Nat) (payload : List Byte) (s : State) : State := sendItem l { ltype := ltype, prio := prio, chtag := chtag, payload := payload } s

/-- A mirror message formed, with the next `MSEQ` of its stream (R56, R57). -/
def mirrorItem (mtype stream : Nat) (body : List Byte) (s : State) : LinkItem × State :=
  let n := if stream = 2 then s.lnk.tx2 else s.lnk.tx1
  let x : LinkItem := { ltype := 2, prio := 0, chtag := 0, payload := mirrorBytes mtype stream n body s }
  (x, if stream = 2 then { s with lnk.tx2 := (n + 1) % 2 ^ 32 } else { s with lnk.tx1 := (n + 1) % 2 ^ 32 })

/-- One mirror message on a stream (R56, R57). -/
def mirrorSend (mtype stream : Nat) (body : List Byte) (s : State) : State :=
  let x := mirrorItem mtype stream body s
  sendItem (partnerLink s) x.1 x.2

/-- A pair member that is not ACTIVE: it runs no program and its lattice follows the mirror (R49, R51, R57). -/
def isStandby (s : State) : Bool := s.lnk.pair == .unsynced || s.lnk.pair == .synced || s.lnk.pair == .takingOver

/-- The standby starts its side of a synchronisation anew: nothing received, nothing buffered (R51, R57). -/
def mirrorReset (s : State) : State :=
  { s with lnk.rx1 := 0, lnk.rx2 := 0, lnk.tx1 := 1, lnk.tx2 := 1, lnk.ramBuf := [], lnk.part := [], lnk.copied := 0,
           lnk.fullCopy := false, lnk.gapFree := none, lnk.mark := none }

/-- SYNC_REQ to the active member (R57). -/
def askSync (s : State) : State := mirrorSend 0x21 1 [] s

/-- The standby is STANDBY_UNSYNCED and resynchronisation begins (R51). -/
def toUnsynced (s : State) : State := askSync (mirrorReset { s with lnk.pair := .unsynced })

/-- The active member of a pair mirrors unless it runs solo (R49, R50). -/
def mirror (mtype stream : Nat) (body : List Byte) (s : State) : State :=
  if s.lnk.pair == .active && !s.lnk.solo then mirrorSend mtype stream body s else s

/-! ### The module-reserved contents and the copy of vital RAM (R57, R161, R218, R243) -/

/-- A list of `n` entries of `z` bytes each, the unused ones 0. -/
def tableBytes (z n : Nat) (l : List (List Byte)) : List Byte := fitTo (z * n) (l.map (fitTo z)).flatten

/-- The force table, the used list, the verified list and the active map as bytes of the module-reserved region, from its start (R160, R161, R218, R243): the placement is the model's own. -/
def reservedBytes (s : State) : List Byte :=
  tableBytes 32 256 (s.frc.table.map (fun f => packFields [(1, 1), (1, b2n f.dir), (2, f.point), (4, f.value), (8, f.expiry), (4, f.token), (4, f.staff)]))
    ++ tableBytes 8 256 (s.prg.tokUsed.map (fun id => packFields [(4, 1), (4, id)]))
    ++ tableBytes 32 16 (s.prg.tokVer.map (fun v => packFields [(1, 1), (1, v.act), (2, 0), (4, v.id), (4, v.scope), (4, v.staff), (8, v.at')]))
    ++ leBytes 8 s.vm.mapActive.length ++ (s.vm.mapActive.map (fun x => leBytes 4 x.1 ++ leBytes 4 x.2)).flatten

/-- Entries of a table whose first byte marks them as used. -/
def tableEntries (z n : Nat) (b : List Byte) : List (List Byte) := (chunks z n (b.take (z * n))).filter (fun e => fieldAt e 0 1 == 1)

/-- The module-reserved contents taken from their bytes (R57). -/
def reservedInto (b : List Byte) (s : State) : State :=
  let f := (tableEntries 32 256 b).map (fun e =>
    ({ dir := fieldAt e 1 1 == 1, point := fieldAt e 2 2, value := fieldAt e 4 4, expiry := fieldAt e 8 8, token := fieldAt e 16 4, staff := fieldAt e 20 4 } : ForceEntry))
  let v := (tableEntries 32 16 (b.drop 10240)).map (fun e =>
    ({ act := fieldAt e 1 1, id := fieldAt e 4 4, scope := fieldAt e 8 4, staff := fieldAt e 12 4, at' := fieldAt e 16 8 } : VerEntry))
  let n := fieldAt b 10752 8
  { s with
    frc.table := f, frc.ind := s.frc.ind || !f.isEmpty
    prg.tokUsed := (tableEntries 8 256 (b.drop 8192)).map (fun e => fieldAt e 4 4)
    prg.tokVer := v
    vm.mapActive := (chunks 8 n (b.drop 10760)).map (fun e => (fieldAt e 0 4, fieldAt e 4 4)) }

/-- The regions of the copy in order: both code slots, instance and global region, the images, the module-reserved region (R57, R134, R218). -/
def copyRegions (s : State) : List (Nat × Nat) :=
  [(0, 0x04000000), (0x04000000, s.cfg.instSize), (0x07000000, s.cfg.globSize), (0x07010000, 0x20000), (0x07040000, 0xFC0000)]

/-- Address of byte `n` of the copy, and the bytes from it to the end of its region, at most 1,024; none past the end. -/
def copyPlace (n : Nat) : List (Nat × Nat) → Option (Nat × Nat)
  | [] => none
  | (a, z) :: t => if n < z then some (a + n, min 1024 (z - n)) else copyPlace (n - z) t

/-- Bytes of the whole copy. -/
def copySize (s : State) : Nat := (copyRegions s).foldl (fun n x => n + x.2) 0

/-- `n` bytes of vital RAM from `a` as the copy carries them. -/
def copyBytes (a n : Nat) (s : State) : List Byte :=
  if a < 0x07040000 then memRead a n s.mem
  else fitTo n ((reservedBytes s).drop (a - 0x07040000))

/-- The next RAM_WRITE of a copy under way (R57). -/
def copyNext (s : State) : Option (LinkItem × State) :=
  match s.lnk.copyAt with
  | some n =>
    match copyPlace n (copyRegions s) with
    | some (a, z) => if s.lnk.pair == .active && !s.lnk.solo then some (mirrorItem 5 2 (leBytes 8 a ++ copyBytes a z s) { s with lnk.copyAt := some (n + z) }) else none
    | none => none
  | none => none

/-- The waiting frame of the lowest `PRIO`, the oldest of them first, and the frames left (R54). -/
def nextItem (q : List LinkItem) : Option (LinkItem × List LinkItem) :=
  let p := q.foldl (fun n x => min n x.prio) 3
  match q.dropWhile (fun x => x.prio != p) with
  | x :: t => some (x, q.takeWhile (fun x => x.prio != p) ++ t)
  | [] => none

/-- Up to `n` frames start on link `l`, each as the one before it ends; a copy of vital RAM fills the time that nothing else uses (R54, R57). -/
def pumpLink (l : Nat) : Nat → State → State
  | 0, s => s
  | n + 1, s =>
    let k := link l s
    if k.width = 0 ∨ s.clk.up < k.busyTo then s
    else
      match nextItem k.queue with
      | some (x, rest) => pumpLink l n (transmit l k.busyTo x (modLink l (fun k => { k with queue := rest }) s))
      | none =>
        if l = partnerLink s then
          match copyNext s with
          | some (x, s) => pumpLink l n (transmit l k.busyTo x s)
          | none => s
        else s

/-- Frames that start on the module links while `dt` periods pass: a frame takes one period at least. -/
def pumpLinks (dt : Nat) (s : State) : State := pumpLink 2 (dt + 2) (pumpLink 1 (dt + 2) (pumpLink 0 (dt + 2) s))

/-- A bus port: 0 X DOWN, 1 X UP, 2 Y DOWN, 3 Y UP. -/
def busPort (p : Nat) (s : State) : BusPort := s.bus.ports.getD p {}

/-- Change a bus port. -/
def modPort (p : Nat) (f : BusPort → BusPort) (s : State) : State := { s with bus.ports := modNth f p s.bus.ports }

/-- A frame that finds its port busy is not sent, and counted (R272). -/
def busClash (s : State) : State := { s with bus.clash := sat 0xFFFFFFFF (s.bus.clash + 1) }

/-- A waiting frame: it starts, or stays until its start; a forwarded frame whose start finds the port busy is dropped and counted, a delay frame follows the one that leaves (R272, R287). -/
def portFrame (p : Nat) (x : OutFrame) (s : State) : State :=
  let b := (busPort p s).busyTo
  let t := if x.fwd then x.start else max x.start b
  if s.clk.up < t then modPort p (fun k => { k with out := k.out ++ [x] }) s
  else if t < b then busClash s
  else send (.bus p x.header x.bytes) (modPort p (fun k => { k with busyTo := t + x.len }) s)

/-- The frames of a port whose start has come. -/
def pumpPort (p : Nat) (s : State) : State := (busPort p s).out.foldl (fun s x => portFrame p x s) (modPort p (fun k => { k with out := [] }) s)

/-- Frames that start on the four bus ports (R270, R272). -/
def pumpPorts (s : State) : State := pumpPort 3 (pumpPort 2 (pumpPort 1 (pumpPort 0 s)))

/-- The start of every command: the outputs of the previous one are gone, `dt` periods of the reference pass, and the module links and bus ports carry what waits for them. Only MINOR_CYCLE_BOUNDARY starts a new cycle, so the position stays below the cycle length. -/
def begin' (dt : Nat) (s : State) : State :=
  let s := rtcAdvance dt { s with sent := [] }
  if powered s then
    let s := execAdvance dt (civilAdvance dt s)
    pumpPorts <| pumpLinks dt { s with clk := setPos (min (s.clk.pos + dt) (cycleTicks s - 1)) (s.clk.up + dt) s.clk }
  else s

/-! ### Exchange and forces on the way to HALTED (R165, R238, R263) -/

/-- Code of the exchange state (R268). -/
def xCode : XState → Nat
  | .idle => 0
  | .loading => 1
  | .checking => 2
  | .preparing => 3
  | .ready => 4
  | .armed => 5
  | .draining => 6
  | .exchanging => 7
  | .committed => 8

/-- XCHG_REFUSED (0x4702) and XCHG_ABORTED (0x4703): reason, detail, sequences. -/
def xchRecord (ty reason detail : Nat) (s : State) : State :=
  emit ty [(1, xCode s.xch.st), (1, reason), (2, 0), (4, detail), (4, rv 0x070040 s), (4, rv 0x070044 s)] s

/-- Reason and detail of a refusal or abort (R238, R268). -/
def xchReason (reason detail : Nat) (s : State) : State :=
  setRv 0x070014 detail (setRf 0x070010 8 8 reason (setRf 0x070010 5 1 1 s))

/-- State of an activation whose exchange or handover is given up before the commit: none is pending; a rollback is to be armed again (R472, R473). -/
def actDropped (a : ActState) : ActState :=
  match a with
  | .preparing => .idle
  | .ready => .idle
  | .armed => .idle
  | .rollback => .trial
  | _ => a

/-- All prepared state is discarded; the running program is unchanged (R238). -/
def xchDiscard (s : State) : State :=
  setRv 0x070044 0 { s with
    upd.act := if s.xch.forActivation then actDropped s.upd.act else s.upd.act
    xch.st := .idle, xch.tracking := false, xch.work := [], xch.retyped := [], xch.fresh := [], xch.dropped := [],
    xch.globReset := [], xch.image := none, xch.window := false, xch.heldTrig := [], xch.withheld := [], xch.remapped := [], xch.forActivation := false, vm.mapNew := [] }

/-- Abort of an exchange before its commit (R238, R263). -/
def xchAbort (reason detail : Nat) (s : State) : State :=
  if s.xch.st == .idle || s.xch.st == .committed then s
  else xchDiscard (xchRecord 0x4703 reason detail (xchReason reason detail s))

/-- The FORCE_CLEAR record of a removed entry (R165). -/
def forceClearRec (w0 w1 w2 w3 : Nat) (e : ForceEntry) (s : State) : State :=
  let w := setBits (setBits w0 4 1 (b2n e.dir)) 5 13 e.point
  emit 0x4502 [(4, w), (4, w1), (4, w2), (4, w3), (4, e.staff), (8, e.expiry)] s

/-- FORCE_CLEAR records for a list of entries. -/
def forceClearRecs (w0 w1 w2 w3 : Nat) : List ForceEntry → State → State
  | [], s => s
  | e :: t, s => forceClearRecs w0 w1 w2 w3 t (forceClearRec w0 w1 w2 w3 e s)

/-- The force table is cleared on every entry to HALTED (R165). -/
def forcesHalt (s : State) : State :=
  let s1 := forceClearRecs 0 0 0 0 s.frc.table s
  { s1 with frc.table := [] }

/-- Reservations and the ring-55 record of ended releases are discarded (R362, R423). -/
def endAllPosts (s : State) : State :=
  let s := match s.evr.prog with
    | some _ => lostNotice (recordLoss { s with evr.prog := none })
    | none => s
  { s with rings := s.rings.map (fun x => { x with resv := [], skip := [] }) }

/-! ### The bank selector on a TRIAL fallback (R466, R472) -/

/-- The selector copy that counts: the higher sequence (R466). -/
def selector (s : State) : Option Selector :=
  if s.cand.framErr then none else
  match s.cand.sel.c0, s.cand.sel.c1 with
  | some a, some b => some (if a.selSeq < b.selSeq then b else a)
  | some a, none => some a
  | none, b => b

/-- Write the selector to the copy with the lower sequence, or the invalid one (R466, R481). -/
def writeSelector (x : Selector) (s : State) : State :=
  if s.cand.framErr || s.cand.framProt then s
  else
    let n := { x with selSeq := (match selector s with | some y => y.selSeq + 1 | none => 1) }
    match s.cand.sel.c0, s.cand.sel.c1 with
    | none, _ => { s with cand.sel.c0 := some n }
    | some _, none => { s with cand.sel.c1 := some n }
    | some a, some b => if a.selSeq < b.selSeq then { s with cand.sel.c0 := some n } else { s with cand.sel.c1 := some n }

/-- The module is running unconfirmed images (R472). -/
def inTrial (s : State) : Bool :=
  match selector s with
  | some x => x.trial
  | none => false

/-- A lane held in reset; a retired one stays retired (R180, R187). -/
def laneReset (x : Lane) : Lane := if x.st == .retired then x else { x with st := .reset }

/-- Back to `PREV` with `TRIAL` cleared, then a restart from the banks (R472). -/
def trialFallback (s : State) : State :=
  match selector s with
  | some x =>
    let s1 := writeSelector { x with sel := x.prev, trial := false } s
    { openAll (pinsOff allPins s1) with
      pwr.phase := .inReset, pwr.wake := 4, upd.act := .idle, tri.a := laneReset s1.tri.a, tri.b := laneReset s1.tri.b, tri.c := laneReset s1.tri.c }
  | none => s

/-! ### Vital faults (R6 to R8, R27, R151, R402) -/

/-- VITAL_FAULT record: scope 0 module, 1 group (R421). -/
def faultRecord (c : FaultCause) (scope groups detail : Nat) (s : State) : State :=
  emit 0x4004 [(2, (Config.faultCode c).toNat), (1, scope), (1, groups), (4, detail)] s

/-- Entry to HALTED: lanes halt, feed and sealing stop, outputs off, forces cleared, exchange and activation aborted (R151, R165, R238, R263, R473). -/
def enterHalted (cause : Nat) (s : State) : State :=
  let s := cutPicking [0, 1, 2, 3] 15 (recordCut (closedMask s) cause s)
  let s := pinsOff allPins s
  let s := endAllPosts s
  let s := forcesHalt s
  let s := xchAbort 0x14 0 s
  let s := if s.lnk.pair == .active then mirror 0x11 1 (leBytes 4 cause) s else s
  let s := setMode .halted s.prg.cause s
  { s with
    upd.act := actDropped s.upd.act,
    prg.active := [], prg.releaseHeld := false, prg.reqNormal := false, prg.reqTest := false,
    pwr.haltedSince := true, snu.edgeStored := false,
    lnk.pair := if s.lnk.pair == .active || s.lnk.pair == .synced || s.lnk.pair == .takingOver then .unsynced else s.lnk.pair }

/-- A vital fault of module scope (R6, R28, R151). While a shutdown runs it is only recorded (R487). -/
def vitalFault (c : FaultCause) (detail : Nat) (s : State) : State :=
  let s := faultRecord c 0 (usedGroups s) detail s
  match s.pwr.phase with
  | .running | .noConfig =>
    if s.prg.mode == .halted then s
    else
      let s := enterHalted 1 s
      if inTrial s then trialFallback s else s
  | .shutdown => { s with pwr.haltedSince := true }
  | _ => s

/-- A vital fault of group scope cuts only the groups of `mask` (R27, R402). -/
def groupFault (c : FaultCause) (mask detail cause : Nat) (s : State) : State :=
  let s := faultRecord c 1 mask detail s
  let s := cutPicking [0, 1, 2, 3] mask (recordCut mask cause s)
  (List.range 4).foldl (fun s g =>
    if bit mask g then
      pinsOff (groupPins g) (modSnu g (fun x => { x with cut := true }) (modGroup g (fun x => { x with cut := true }) s))
    else s) s

/-- A vital fault found by a test or readback of the snuffer, with its cause code (R402, R405, R407). -/
def snufferFault (c : FaultCause) (detail cause : Nat) (s : State) : State :=
  let m := closedMask s
  let s1 := vitalFault c detail s
  if m = 0 then s1 else setRf 0x0E000C 0 4 cause s1

/-- The release whose program is running on lane table `b`, or none. -/
def running (b : Bool) (s : State) : Option Release := s.prg.active.find? (fun r => r.laneB == b)

/-- A TASK_OVERRUN (0x4401) or TRAP (0x4402) record: task, release stamp, execution µs, trap code (R151, R421). -/
def trapRecord (ty : Nat) (r : Option Release) (code : Nat) (s : State) : State :=
  match r with
  | some x => emit ty [(1, x.task), (8, x.stamp), (4, x.exec / 100), (4, code)] s
  | none => emit ty [(1, 0xFF), (8, 0), (4, 0), (4, code)] s

/-- A run-time trap of the running release takes the overrun path (R130, R151). -/
def trapFault (r : Option Release) (c : TrapCause) (s : State) : State :=
  vitalFault .trap (Config.trapCode c).toNat (trapRecord 0x4402 r (Config.trapCode c).toNat s)

end Sys2Proof.Machine
end

