-- ==== Sys2Proof/Machine/Civil.lean ====
section
/-! DEFINITION. Station time events and civil time (R311 to R332), RTC and VBAK (R488, R492). -/

namespace Sys2Proof.Machine

/-- The lanes execute: past start-up, not halted, not stalled by a duplex restart. -/
def lanesRun (s : State) : Bool :=
  s.pwr.phase == .running && (s.prg.mode == .free || s.prg.mode == .normal) && s.tri.stallFrom.isNone

/-- Lane table `b` executes (R206, R216, R256). -/
def laneRuns (b : Bool) (s : State) : Bool := lanesRun s && !(resting s) && !(laneStopped b s)

/-- A lock violation: `LOCKVIOL`, its address and data where it is the first, the count, the record (R503). -/
def lockViolation (addr data : Nat) (s : State) : State :=
  let s := if rf 0x000008 0 1 s = 1 then s else setRv 0x000010 data (setRv 0x00000C (addr % 2 ^ 32) s)
  emit 0x0005 [(8, addr), (4, data)] (addRf 0x000014 0 16 1 (setRf 0x000008 0 1 1 s))

/-- A register command of block `blk` is one voted register write (R16, R173). It reaches its block only where the configuration lists the block as program-writable; elsewhere the WRREG traps (R130). -/
def blockCommand (blk : Nat) (f : State → State) (s : State) : State :=
  if lanesRun s then
    if bit s.cfg.progBlocks blk || blk == 0 then f (seqVoted s) else trapFault (running false s) .regBlock s
  else s

/-- An unconsumed verified token of act `act` with this ID (R160). -/
def findToken (id act : Nat) (s : State) : Option VerEntry :=
  s.prg.tokVer.find? (fun e => e.id == id && e.act == act && decide (nowLin s - lin e.at' < secLin s 60))

/-- An act consumes its token (R160). -/
def consumeToken (id : Nat) (s : State) : State :=
  { s with prg.tokVer := s.prg.tokVer.filter (fun e => e.id != id) }

/-- The step in `TIME_STEP_LO` and `TIME_STEP_HI` (R325). -/
def stepAmount (s : State) : Int := toSigned 64 (rv 0x090024 s + rv 0x090028 s * 2 ^ 32)

/-- Civil time changes by exactly the amount; the fraction stays (R325). -/
def civApply (x : Int) (s : State) : State :=
  addRf 0x09003C 0 16 1 { s with civ.ns := ofSigned 64 ((s.civ.ns : Int) + x) }

/-- Entry to LOCKED restarts the watchdog (R326). -/
def civLock (s : State) : State :=
  { s with civ.st := .locked, civ.pending := none, civ.wdogFrom := if s.civ.st == .locked then s.civ.wdogFrom else now s }

/-- A refused step becomes the pending one (R326). -/
def civRefuse (x : Int) (s : State) : State :=
  emit 0x4905 [(8, ofSigned 64 x), (8, 0), (4, 0), (4, 0)]
    (addRf 0x09003C 16 16 1 (setRf 0x090008 4 1 1
      { s with civ.st := .holdover, civ.pending := some x, civ.refusedAt := now s }))

/-- STEP (R326). -/
def civStep (s : State) : State :=
  let x := stepAmount s
  match s.civ.st with
  | .acquire =>
    let s := civLock (civApply x s)
    { s with civ.first := some s.civ.ns }
  | _ => if x.natAbs ≤ rf 0x090004 0 30 s then civLock (civApply x s) else civRefuse x s

/-- ACCEPT (R326). -/
def civAccept (s : State) : State :=
  let tok := rv 0x090030 s
  let refused := nvEvent 9 0x0009 tok (match s.civ.pending with | some p => ofSigned 64 p | none => 0) s
  match s.civ.st with
  | .acquire => nvEvent 9 0x0008 2 0 s
  | .locked => refused
  | .holdover =>
    match s.civ.pending, findToken tok 5 s with
    | some p, some e =>
      if nowLin s - lin s.civ.refusedAt ≤ secLin s 60 then
        emit 0x4906 [(8, ofSigned 64 p), (8, 0), (4, e.id), (4, e.staff)] (consumeToken tok (civLock (civApply p s)))
      else refused
    | _, _ => refused

/-- KICK has no effect outside LOCKED (R326). -/
def civKick (s : State) : State := if s.civ.st == .locked then { s with civ.wdogFrom := now s } else s

/-- DISCARD (R326). -/
def civDiscard (s : State) : State :=
  match s.civ.st with
  | .acquire => nvEvent 9 0x0008 4 0 s
  | _ => { s with civ.pending := none }

/-- A plain write of `TIME_INCR` (R324). -/
def incrWrite (v : Nat) (s : State) : State :=
  if 0x9FD70A3E ≤ v ∧ v ≤ 0xA028F5C2 then setRv 0x090020 v s
  else nvEvent 9 0x0007 v 0 (setRf 0x090008 8 1 1 s)

/-- A read of `TIME_ST_LO` captures station and civil time (R327). -/
def snapshot (s : State) : State :=
  { s with civ.shSt := now s, civ.shNs := s.civ.ns, civ.shFrac := s.civ.frac }

/-- A read of `CAND_RTC_LO` captures the RTC (R492). -/
def rtcCapture (s : State) : State := { s with cand.shHi := s.cand.rtcSec / 2 ^ 32, cand.shSub := s.cand.rtcSub }

/-- The RTC takes civil time (R328); the write ends RTC_LOST (R488). -/
def rtcWrite (s : State) : State :=
  { s with
    cand.rtcSec := s.civ.ns / 1000000000 % 2 ^ 48
    cand.rtcSub := s.civ.ns % 1000000000 * 32768 / 1000000000
    cand.rtcRem := 0
    cand.rtcLost := false
    civ.rtcWroteAt := now s }

/-- STEP in TIME_CMD. -/
def execStep (dt : Nat) (s : State) : Host.Outcome State Fault Refusal := .next (blockCommand 9 civStep (begin' dt s))

/-- ACCEPT in TIME_CMD. -/
def execAccept (dt : Nat) (s : State) : Host.Outcome State Fault Refusal := .next (blockCommand 9 civAccept (begin' dt s))

/-- KICK in TIME_CMD. -/
def execKick (dt : Nat) (s : State) : Host.Outcome State Fault Refusal := .next (blockCommand 9 civKick (begin' dt s))

/-- DISCARD in TIME_CMD. -/
def execDiscard (dt : Nat) (s : State) : Host.Outcome State Fault Refusal := .next (blockCommand 9 civDiscard (begin' dt s))

/-- A write of TIME_INCR. -/
def execTimeIncr (dt : Nat) (data : Half) (s : State) : Host.Outcome State Fault Refusal :=
  .next (blockCommand 9 (incrWrite data.toNat) (begin' dt s))

/-- A voted read of TIME_ST_LO: the word is delivered to the lanes (R17, R327). -/
def execStSnapshot (dt : Nat) (s : State) : Host.Outcome State Fault Refusal :=
  let s := begin' dt s
  .next (if lanesRun s then send (.read (leBytes 4 (now s))) (snapshot (seqVoted s)) else s)

/-- A voted read of CAND_RTC_LO (R492). -/
def execRtcCapture (dt : Nat) (s : State) : Host.Outcome State Fault Refusal :=
  let s := begin' dt s
  .next (if lanesRun s then send (.read (leBytes 4 s.cand.rtcSec)) (rtcCapture (seqVoted s)) else s)

/-- LOCKED to HOLDOVER after WDOG_S seconds (R326). -/
def execCivilHoldover (dt : Nat) (s : State) : Host.Outcome State Fault Refusal :=
  let s := begin' dt s
  .next (if powered s && s.civ.st == .locked && secLin s (rf 0x090000 0 6 s) ≤ nowLin s - lin s.civ.wdogFrom then
      emit 0x4907 [(8, now s), (8, 0), (4, 0), (4, 0)] { s with civ.st := .holdover }
    else s)

/-- The pending step is discarded more than 60 s after the refusal (R326). -/
def execCivilPendingDiscarded (dt : Nat) (s : State) : Host.Outcome State Fault Refusal :=
  let s := begin' dt s
  .next (match s.civ.pending with
    | some p =>
      if powered s && s.civ.st == .holdover && secLin s 60 < nowLin s - lin s.civ.refusedAt then
        nvEvent 9 0x000A 0 (ofSigned 64 p) { s with civ.pending := none }
      else s
    | none => s)

/-- The hourly write of the RTC while LOCKED (R328). -/
def execRtcWrite (dt : Nat) (s : State) : Host.Outcome State Fault Refusal :=
  let s := begin' dt s
  .next (if powered s && s.civ.st == .locked && secLin s 3600 ≤ nowLin s - lin s.civ.rtcWroteAt then rtcWrite s else s)

/-- CYCLE at or past 0xF0_0000_0000: recorded at once and every hour (R320). -/
def execTimeEpochNear (dt : Nat) (s : State) : Host.Outcome State Fault Refusal :=
  let s := begin' dt s
  let due := match s.clk.epochNearAt with
    | some x => secLin s 3600 ≤ nowLin s - x
    | none => true
  .next (if powered s && 0xF000000000 ≤ s.clk.cycle && due then
      emit 0x4904 [(8, now s), (8, 0), (4, 0), (4, 0)] { s with clk.epochNearAt := some (nowLin s) }
    else s)

/-- CYCLE at 0xFF_FFFF_FFFF is a vital fault (R320). -/
def execCycleLimit (dt : Nat) (s : State) : Host.Outcome State Fault Refusal :=
  let s := begin' dt s
  .next (if powered s && 0xFFFFFFFFFF ≤ s.clk.cycle then vitalFault .cycleLimit 0 s else s)

/-- A provisional CYCLE at 0xFFFF_FFFF holds every stamp (R315). -/
def execTimeProvHeld (dt : Nat) (s : State) : Host.Outcome State Fault Refusal :=
  let s := begin' dt s
  .next (if powered s && s.clk.prov && !s.clk.provHeld && 0xFFFFFFFF ≤ s.clk.cycle then
      emit 0x4903 [(8, 0x00FFFFFFFF000000), (8, 0), (4, 0), (4, 0)] { s with clk.provHeld := true }
    else s)

/-- VBAK below 1.8 V stops the RTC; with VIN good the module supplies the domain (R488). -/
def execRtcLost (dt : Nat) (s : State) : Host.Outcome State Fault Refusal :=
  let s := begin' dt s
  .next (if s.pwr.phase == .off then { s with cand.rtcLost := true } else s)

/-- One sample of VBAK: `VBAK_MV`, its minimum and `VBAK_LOW` (R492). -/
def vbakTake (mv : Nat) (s : State) : State :=
  let v := sat 0xFFF mv
  setRf 0x110004 2 1 (b2n (v < 2200)) (setRf 0x110008 0 12 v (setRf 0x110008 16 12 (min v (rf 0x110008 16 12 s)) s))

/-- The 60 s sample of VBAK (R492). -/
def execVbakSample (dt mv : Nat) (s : State) : Host.Outcome State Fault Refusal :=
  let s := begin' dt s
  .next (if powered s then vbakTake mv s else s)

end Sys2Proof.Machine
end

