-- ==== Sys2Proof/Machine/Triad.lean ====
section
/-! DEFINITION. Lane states, dims, retirements, relights, degraded operation, clock and debug events (04_triad.md). -/

namespace Sys2Proof.Machine

/-- Relight history as the 16 bytes of a lane record (R421). -/
def histFields (x : Lane) : List (Nat × Nat) := [(8, x.hist.getD 0 0), (8, x.hist.getD 1 0)]

/-- A LANE record: lane, groups or cause, relight history (R421). -/
def laneRecord (ty : Nat) (l : LaneId) (g : Nat) (s : State) : State :=
  emit ty ((1, laneIdx l) :: (1, g) :: histFields (lane l s)) s

/-- DEGRADED_NOTICE and DEGRADED_EXPIRED name the retired lane and the causes (R189, R190). -/
def degradedRecord (ty : Nat) (s : State) : State :=
  match s.tri.retired with
  | some l => laneRecord ty l s.tri.causes s
  | none => s

/-- Retirement: the lane stays in reset until power-off, degraded operation and its limit start (R187 to R189). -/
def retireLane (l : LaneId) (causes : Nat) (s : State) : State :=
  let s := modLane l (fun x => { x with halted := false, dirty := [] }) (laneTo l .retired (voterLog (.retire l causes (now s) s.cfg.degradeH) s))
  let s := { s with
    tri.retired := some l, tri.causes := causes, tri.retireAt := now s, tri.limitH := s.cfg.degradeH,
    tri.noticed := s.cfg.degradeH == 1 }
  let s := (List.range 4).foldl (fun s c => if bit causes c then stat (0x68 + 8 * laneIdx l + 2 * c) 1 s else s) s
  degradedRecord 0x4104 (laneRecord 0x4103 l causes s)

/-- Two counted relights of the lane completed in the 3,600 s before now (R180). -/
def thirdRelight (x : Lane) (s : State) : Bool :=
  decide (2 ≤ x.hist.length) && x.hist.all (fun t => decide (nowLin s - lin t ≤ secLin s 3600))

/-- Detection before the second boundary after the lane's last relight (R180). -/
def delayPath (x : Lane) (s : State) : Bool :=
  match x.lastRelight with
  | some c => decide (s.clk.cycle < c + 2)
  | none => false

/-- A lane leaves the vote for reset and self-test (R180, R182). -/
def dimLane (l : LaneId) (groups : Nat) (s : State) : State :=
  let s := laneRecord 0x4101 l groups s
  modLane l (fun x => { x with dimAt := now s, dims := sat 0xFFFF (x.dims + 1), fromAttached := false, dirty := [] }) (laneTo l .dimmed s)

/-- A trip of one lane while both other lanes are lit: dimmed, or retired with every cause that applies (R180, R181); otherwise a vital fault (R177). -/
def tripLane (l : LaneId) (groups : Nat) (c : FaultCause) (s : State) : State :=
  if (lane l s).st != .lit then s
  else if (litLanes s).length < 3 then vitalFault c (laneIdx l) s
  else
    let x := lane l s
    let causes := b2n (thirdRelight x s) + 2 * b2n (delayPath x s)
    if causes = 0 then dimLane l groups s else retireLane l causes s

/-- 32-bit verdict counter of lane and group (R510) with its lifetime count (R443). -/
def countVerdict (l : LaneId) (groups : Nat) (s : State) : State :=
  (List.range 4).foldl (fun s g =>
    if bit groups g then stat (0x20 + 16 * laneIdx l + 4 * g) 1 (cnt (0x020010 + 16 * laneIdx l + 4 * g) s) else s) s

/-- Timeout counter of a lane (R510, R443). -/
def countTimeout (l : LaneId) (s : State) : State :=
  stat (0x50 + 4 * laneIdx l) 1 (cnt (0x020040 + 4 * laneIdx l) s)

/-- The triad votes: not reset, not halted, safe lane mode. -/
def triadVotes (s : State) : Bool := lanesRun s && !s.cfg.split

/-! ### The lane monitor (R202, R203) -/

/-- Index of a monitored quantity. -/
def monIdx : MonQuantity → Nat
  | .supply => 0
  | .temperature => 1
  | .skew => 2

/-- A lane's value in a sample. -/
def monVal (l : LaneId) (x : MonSample) : Int :=
  match l with
  | .a => x.a
  | .b => x.b
  | .c => x.c

/-- The middle of three. -/
def median3i (x y z : Int) : Int := max (min x y) (min (max x y) z)

/-- A lit lane lies beyond the trip point: from the median of three lit lanes, or from the other of two (R202, R203). -/
def monBeyond (q : Nat) (lit : List LaneId) (l : LaneId) (x : MonSample) : Bool :=
  match lit with
  | [_, _, _] => decide (Config.tripPoint q < (monVal l x - median3i x.a x.b x.c).natAbs)
  | [p, r] => decide (Config.tripPoint q < (monVal p x - monVal r x).natAbs)
  | _ => false

/-- The lit lanes beyond the trip point in the last eight samples (R202). -/
def monTrips (q : Nat) (lit : List LaneId) (l : List MonSample) : List LaneId :=
  if l.length < 8 then [] else lit.filter (fun x => (l.drop (l.length - 8)).all (monBeyond q lit x))

/-- A self-test that passes within 200 µs of the dim makes the lane READY; otherwise it is retired (R180, R182). -/
def execSelfTestDone (dt : Nat) (l : LaneId) (pass : Bool) (s : State) : Host.Outcome State Fault Refusal :=
  let s := begin' dt s
  .next (if powered s && (lane l s).st == .dimmed then
      if pass && decide (nowLin s - lin (lane l s).dimAt ≤ usLin s 200) then
        laneTo l .ready s
      else retireLane l 4 s
    else s)

/-- Bin of the relight duration histogram (R444). -/
def relightBin (us : Nat) : Nat :=
  if us < 250 then 0
  else (List.range 14).foldl (fun b k => if 250 * 2 ^ k ≤ us then k + 1 else b) 1 |> fun b => if 4096000 ≤ us then 15 else b

/-- Injection numbers of a lane at V1, then at V2 (R199). -/
def injectionsOf (l : LaneId) : List Nat :=
  (List.range 4).map (fun i => 4 * laneIdx l + i) ++ (List.range 4).map (fun i => 12 + 4 * laneIdx l + i)

/-- `VOTE_INJ_OK` after the injections of `which` ran with `missed` (bit n - 1 of both) (R200, R510). -/
def injResult (which : List Nat) (missed : Nat) (s : State) : State :=
  which.foldl (fun s n => setRf 0x02004C n 1 (b2n (!(bit missed n))) s) s

/-- Delay registers as the voter ember holds them (R171). -/
def loadDelays (l : LaneId) (s : State) : State :=
  modLane l (fun x => { x with outDelay := 4 - 2 * laneIdx l, inDelay := 2 * laneIdx l }) s

/-- A relight under way is abandoned and not counted: the lane is READY again (R180). -/
def abandonRelight (s : State) : State :=
  allLanes.foldl (fun s l => if (lane l s).st == .relighting then laneTo l .ready s else s) s

/-- A unit is still in restart. -/
def anyRestart (s : State) : Bool := s.tri.voter.restart.isSome || s.tri.lattice.restart.isSome || s.tri.field.restart.isSome

/-- First disagreement of the hold window: the lanes stall (R24, R149). -/
def startHold (u : DuplexUnit) (s : State) : State :=
  let s := abandonRelight s
  let s := { s with
    tri.hold := match s.tri.hold with | some x => some x | none => some s.clk.up
    tri.stallFrom := match s.tri.stallFrom with | some x => some x | none => some s.clk.up }
  match u with
  | .voter => addRf 0x020004 16 16 1 { s with tri.voter.restart := some s.clk.up, tri.voter.used := true }
  | .lattice => cnt 0x060020 { s with tri.lattice.restart := some s.clk.up, tri.lattice.used := true }
  | .field => cnt 0x0D0514 { s with tri.field.restart := some s.clk.up, tri.field.used := true }

/-- The unit's state. -/
def duplex (u : DuplexUnit) (s : State) : Duplex :=
  match u with
  | .voter => s.tri.voter
  | .lattice => s.tri.lattice
  | .field => s.tri.field

/-- A duplex disagreement: restart from the ember, or a vital fault where that generation has served (R18, R24, R26). -/
def unitDisagrees (u : DuplexUnit) (s : State) : State :=
  if (duplex u s).used then vitalFault .unitAgain 0 s else startHold u s

/-- The instant, in linear units, at which the degraded limit expires (R188). -/
def degradedEnd (s : State) : Nat := lin s.tri.retireAt + secLin s (3600 * s.tri.limitH)

/-- The second DEGRADED_NOTICE, once the present cycle began with at most 1 h of the limit left (R189). -/
def execDegradedNotice (dt : Nat) (s : State) : Host.Outcome State Fault Refusal :=
  let s := begin' dt s
  .next (if powered s && s.tri.retired.isSome && !s.tri.noticed && decide (degradedEnd s ≤ cycleLin s.clk.cycle + secLin s 3600) then
      degradedRecord 0x4104 { s with tri.noticed := true }
    else s)

/-- Deviation beyond ±500 ppm, or a stopped reference, is a vital fault (R28, R528). -/
def execClockFault (dt : Nat) (ppm : Int) (stopped : Bool) (s : State) : Host.Outcome State Fault Refusal :=
  let s := begin' dt s
  .next (if powered s && (stopped || decide (500 < ppm.natAbs)) then vitalFault .clock ppm.natAbs s else s)

/-! ### Embers (R23, R25, R119, R192, R392) -/

/-- A new ember generation of a unit that is not in restart (R23, R25, R26). -/
def emberOf (d : Duplex) : Duplex := if d.restart.isSome then d else { d with gen := d.gen + 1, used := false }

/-- A statistics field that counts verdicts per lane and compare group (R443). -/
def verdictCount (x : Nat × Nat) : Bool := decide (0x20 ≤ x.1) && decide (x.1 < 0x50)

/-- What the voter ember takes (R192). -/
def voterEmber (s : State) : VoterEmber :=
  { st := allLanes.map (fun l => (lane l s).st), hist := allLanes.map (fun l => (lane l s).hist)
    retired := s.tri.retired, causes := s.tri.causes, retireAt := s.tri.retireAt, limitH := s.tri.limitH
    delays := allLanes.map (fun l => ((lane l s).outDelay, (lane l s).inDelay)), seq := s.tri.seq
    attached := s.dbg.attached, counts := s.sta.acc.filter verdictCount }

/-- The P tables that the engine snapshot holds: element state halves, route states, overlap states (R62, R119). -/
def latticeSnap (m : List Host.Cell) : List Host.Cell :=
  (memSlice 0x100400000 0x100440000 m).filter (fun c => c.1 % 16 < 8) ++ memSlice 0x100480000 0x100488000 m ++ memSlice 0x100490000 0x100494000 m

/-- What the field sequencer's ember takes (R392). -/
def fieldEmber (s : State) : FieldEmber :=
  { pins := s.fio.pins.map emberPin, groups := s.fio.groups, seqNo := s.fio.seqNo, unlatch := s.fio.unlatch }

/-- EMBER_WRITE: each unit that is not in restart starts a new generation with an empty journal; two are kept (R23, R25). -/
def embers (s : State) : State :=
  let s := if s.tri.voter.restart.isSome then s else { s with tri.embers := (voterEmber s :: s.tri.embers).take 2, tri.journal := [] }
  let s := if s.tri.lattice.restart.isSome then s else { s with lat.snaps := (latticeSnap s.mem :: s.lat.snaps).take 2, lat.journal := [], lat.jfull := false }
  let s := if s.tri.field.restart.isSome then s else { s with fio.embers := (fieldEmber s :: s.fio.embers).take 2, fio.journal := [] }
  { s with tri.voter := emberOf s.tri.voter, tri.lattice := emberOf s.tri.lattice, tri.field := emberOf s.tri.field }

/-- A journal entry brings an ember up to date (R193). -/
def voterEntry (m : VoterEmber) (e : VoterEntry) : VoterEmber :=
  match e with
  | .state l st t =>
    let rest := m.attached.filter (fun x => x.1 != l)
    { m with st := modNth (fun _ => st) (laneIdx l) m.st, attached := if st == .attached then (l, t) :: rest else rest }
  | .relit l h => { m with hist := modNth (fun _ => h) (laneIdx l) m.hist }
  | .retire l c t h => { m with retired := some l, causes := c, retireAt := t, limitH := h }

/-- One lane as the ember gives it. -/
def restoreLane (m : VoterEmber) (l : LaneId) (s : State) : State :=
  let i := laneIdx l
  modLane l (fun x => { x with
    st := m.st.getD i x.st, hist := m.hist.getD i x.hist, outDelay := (m.delays.getD i (x.outDelay, x.inDelay)).1
    inDelay := (m.delays.getD i (x.outDelay, x.inDelay)).2 }) s

/-- The newest complete generation with its journal, restored into both voters; the transaction sequence goes on from the held transactions (R194, R195). -/
def voterRestore (s : State) : State :=
  match s.tri.embers with
  | [] => s
  | e :: _ =>
    let m := s.tri.journal.foldl voterEntry e
    let s := restoreLane m .c (restoreLane m .b (restoreLane m .a s))
    { s with
      tri.retired := m.retired, tri.causes := m.causes, tri.retireAt := m.retireAt, tri.limitH := m.limitH
      dbg.attached := m.attached
      sta.acc := m.counts.foldl (fun a x => assocSet x.1 x.2 a) (s.sta.acc.filter (fun x => !(verdictCount x))) }

/-- A journal entry brings a field ember up to date (R392). -/
def fieldEntry (m : FieldEmber) (e : FieldEntry) : FieldEmber :=
  match e with
  | .record q => { m with seqNo := q }
  | .pin n p => { m with pins := modNth (fun _ => p) n m.pins }
  | .group g x => { m with groups := modNth (fun _ => x) g m.groups }
  | .unlatch k => { m with unlatch := k }

/-- Pins as the ember gives them. -/
def restorePins : List PinEmber → List Pin → List Pin
  | e :: t, p :: l => restorePin e p :: restorePins t l
  | _, l => l

/-- The newest complete generation with its journal, restored into both halves (R394). -/
def fieldRestore (s : State) : State :=
  match s.fio.embers with
  | [] => s
  | e :: _ =>
    let m := s.fio.journal.foldl fieldEntry e
    { s with fio.pins := restorePins m.pins s.fio.pins, fio.groups := m.groups, fio.seqNo := m.seqNo, fio.unlatch := m.unlatch }

/-! ### Debug unit (R210 to R216) -/

/-- The debug interface works: strap sampled high and permit in the configuration (R210). -/
def debugOn (s : State) : Bool := s.pwr.strap && s.cfg.debugPermit

/-- DEBUG_ATTACH, DEBUG_BROKE and DEBUG_DENIED records: lane, act (R421). -/
def debugRecord (ty : Nat) (l : LaneId) (act : Nat) (s : State) : State := emit ty [(1, laneIdx l), (1, act)] s

/-- An inert interface records and counts the attempt (R210, R516). -/
def debugDeny (l : LaneId) (act : Nat) (s : State) : State := debugRecord 0x9303 l act (cnt 0x130014 s)

/-- Halting a second lane: `DEBUG_BROKE` and a vital fault (R214). -/
def debugBreak (l : LaneId) (act : Nat) (s : State) : State :=
  vitalFault .debugHalt (laneIdx l) (debugRecord 0x5302 l act (modLane l (fun x => { x with halted := true })
    { s with dbg.broke := true }))

/-- The lane is attached to. -/
def isAttached (l : LaneId) (s : State) : Bool := s.dbg.attached.any (fun x => x.1 == l)

/-- The lane enters ATTACHED with its stamp and record: it leaves the vote, and in split mode executes no more (R211, R212, R216). -/
def debugAttachOk (l : LaneId) (s : State) : State :=
  let s := modLane l (fun x => { x with fromAttached := true, dirty := [] }) (laneTo l .attached s)
  debugRecord 0x5301 l 1 (cnt 0x130010 { s with dbg.attached := (l, now s) :: s.dbg.attached, dbg.attachAt := now s })

/-- DEBUG_ATTACH (R210 to R216). -/
def execDebugAttach (dt : Nat) (l : LaneId) (s : State) : Host.Outcome State Fault Refusal :=
  let s := begin' dt s
  .next (
    if !(powered s) then s
    else if !(debugOn s) then debugDeny l 1 s
    else if s.cfg.split then (if (lane l s).st == .lit then debugAttachOk l s else s)
    else if !s.dbg.attached.isEmpty || (litLanes s).length < 3 then debugBreak l 1 s
    else debugAttachOk l s)

/-- The attached lane is let go: self-test, then relight (R180, R212). -/
def debugRelease (l : LaneId) (s : State) : State :=
  let s := modLane l (fun x => { x with halted := false, dimAt := now s, fromAttached := true }) (laneTo l .dimmed s)
  debugRecord 0x5301 l 2 { s with dbg.attached := s.dbg.attached.filter (fun x => x.1 != l) }

/-- DEBUG_DETACH: on the inert interface an access attempt like every other (R210, R212). -/
def execDebugDetach (x : Nat × LaneId) (s : State) : Host.Outcome State Fault Refusal :=
  let s := begin' x.1 s
  .next (
    if !(powered s) then s
    else if !(debugOn s) then debugDeny x.2 2 s
    else if isAttached x.2 s then debugRelease x.2 s
    else s)

/-- DEBUG_HALT of the attached lane, or of a lit lane (R211, R214, R216). -/
def execDebugHalt (dt : Nat) (l : LaneId) (s : State) : Host.Outcome State Fault Refusal :=
  let s := begin' dt s
  .next (
    if !(powered s) then s
    else if !(debugOn s) then debugDeny l 3 s
    else if isAttached l s then modLane l (fun x => { x with halted := true }) s
    else if (lane l s).st != .lit then s
    else if s.cfg.split then modLane l (fun x => { x with halted := true }) s
    else if !s.dbg.attached.isEmpty then debugBreak l 3 s
    else s)

/-- A lane stays attached for at most the degraded limit (R213). -/
def execDebugAttachLimit (dt : Nat) (s : State) : Host.Outcome State Fault Refusal :=
  let s := begin' dt s
  .next (if powered s then
      s.dbg.attached.foldl (fun s x => if lin x.2 + secLin s (3600 * s.cfg.degradeH) ≤ nowLin s then debugRelease x.1 s else s) s
    else s)

/-- An attempt on the inert interface (R210). -/
def execDebugDenied (dt : Nat) (l : LaneId) (act : Byte) (s : State) : Host.Outcome State Fault Refusal :=
  let s := begin' dt s
  .next (if powered s && !(debugOn s) then debugDeny l act.toNat s else s)

end Sys2Proof.Machine
end

