-- ==== Sys2Proof/Machine/VMem.lean ====
section
/-! DEFINITION. Vital memory: what a stored word's code finds, repair, remap, page reload, the scrubber, injection, and the voted read and write (05_vital_memory.md). -/

namespace Sys2Proof.Machine

/-- How an address is stored (R218, R234, R235). -/
inductive Store where
  | code | dual | ring | staging | spare | pair | static' | working
  deriving DecidableEq, Repr

/-- The kind of a word address: vital RAM, then lattice SRAM (R62, R218). -/
def storeKind (a : Nat) : Store :=
  if a < 0x04000000 then .code
  else if a < 0x08000000 then .dual
  else if a < 0x0B000000 then .ring
  else if a < 0x0B800000 then .staging
  else if a < 0x0C000000 then .spare
  else if a < 0x10000000 then .dual
  else if a < 0x100498000 then .pair
  else if a < 0x1004A0000 then .working
  else .static'

/-- The true (P) word of a pair: an inverted copy names its true copy (R62, R218). -/
def trueWord (a : Nat) : Nat :=
  if 0x0C000000 ≤ a ∧ a < 0x10000000 then a - 0x08000000
  else if 0x100200000 ≤ a ∧ a < 0x100400000 then a - 0x200000
  else if 0x100440000 ≤ a ∧ a < 0x100480000 then a - 0x40000
  else if 0x100488000 ≤ a ∧ a < 0x100490000 then a - 0x8000
  else if 0x100494000 ≤ a ∧ a < 0x100498000 then a - 0x4000
  else a

/-- The inverted (N) word of a true word. -/
def invWord (a : Nat) : Nat :=
  if a < 0x10000000 then a + 0x08000000
  else if a < 0x100200000 then a + 0x200000
  else if a < 0x100440000 then a + 0x40000
  else if a < 0x100488000 then a + 0x8000
  else a + 0x4000

/-- The check bits that a good code word of data `d` has at word address `a`: G(D) XOR K(a) (R221, R233). -/
def goodCheck (a : Nat) (d : Word) : BitVec 16 := Config.codeCheck d ^^^ Config.codeKey (BitVec.ofNat 37 (a / 8))

/-- How the code word stored at `a` differs from a good one. -/
def codeErrAt (a : Nat) (s : State) : CodeErr := match assocGet a s.vm.codeErr with | some e => e | none => {}

/-- The 80 bits stored at `a`: data word and check bits; memory holds the data that the good code word has (R221). -/
def storedCode (a : Nat) (s : State) : Word × BitVec 16 :=
  let d : Word := BitVec.ofNat 64 (memNat a 8 s.mem)
  let e := codeErrAt a s
  (d ^^^ e.data, goodCheck a d ^^^ e.check)

/-- Nonzero 4-bit symbols among the `n` lowest of `v`. -/
def symbols (n v : Nat) : Nat := ((List.range n).filter (fun i => bits v (4 * i) 4 != 0)).length

/-- Symbols of the twenty in which a stored code word differs from the good one (R221, R222). -/
def errSymbols (e : CodeErr) : Nat := symbols 16 e.data.toNat + symbols 4 e.check.toNat

/-- What the code finds: one symbol is corrected, more are uncorrectable; so is another address's key (R222, R223). -/
def codeClass (e : CodeErr) : Option CodeClass :=
  if e.keyed then some .uncorrectable
  else if errSymbols e = 0 then none
  else if errSymbols e = 1 then some .correctable
  else some .uncorrectable

/-- The code finding of a stored word. -/
def codeAt (a : Nat) (s : State) : Option CodeClass := codeClass (codeErrAt a s)

/-- The word is good again. -/
def codeFix (a : Nat) (s : State) : State := { s with vm.codeErr := assocDel a s.vm.codeErr }

/-- The difference of the word at `a` from a good one is `e`. -/
def codeSet (a : Nat) (e : CodeErr) (s : State) : State :=
  if e = {} then codeFix a s else { s with vm.codeErr := assocSet a e s.vm.codeErr }

/-- Bits of the word stored at `a` are inverted. -/
def codeFlip (a : Nat) (d : Word) (c : BitVec 16) (s : State) : State :=
  let e := codeErrAt a s
  codeSet a { e with data := e.data ^^^ d, check := e.check ^^^ c } s

/-- The word at `a` no longer carries its own key (R223). -/
def codeForeign (a : Nat) (s : State) : State := codeSet a { codeErrAt a s with keyed := true } s

/-- Correctable errors are counted per bank or for the lattice (R225, R237, R443). -/
def countCe (a : Nat) (s : State) : State :=
  if a < 0x08000000 then stat 0xD0 1 (cnt 0x030014 s)
  else if a < 0x10000000 then stat 0xD4 1 (cnt 0x030018 s)
  else stat 0xD8 1 (cnt 0x03001C s)

/-- `MEM_ERR` and `UE_SEEN` for an uncorrectable error (R237). -/
def memErr (a kind src : Nat) (s : State) : State :=
  setRv 0x030024 a (setRv 0x030028 (a / 2 ^ 32 % 256 + kind * 256 + src * 4096 + 2 ^ 31) (setRf 0x030004 4 1 1 s))

/-- A memory record carries `MEM_ERR_LO` and `MEM_ERR_HI` (R421). -/
def memRecord (ty : Nat) (s : State) : State := emit ty [(4, rv 0x030024 s), (4, rv 0x030028 s)] s

/-- A repair in a row: a second one within 16 s remaps the row while spares last (R228). -/
def rowRepair (a : Nat) (s : State) : State :=
  if 0x10000000 ≤ a then s
  else
    let row := a / 8192
    match s.vm.rows.find? (fun r => r.row == row) with
    | some r =>
      let rest := s.vm.rows.filter (fun r => r.row != row)
      if !r.remapped && decide (nowLin s - r.at' ≤ secLin s 16) then
        let bank1 := decide (0x08000000 ≤ a)
        let used := if bank1 then s.vm.used1 else s.vm.used0
        if used < 64 then
          let s := { s with vm.rows := { row := row, at' := nowLin s, remapped := true } :: rest }
          let s := if bank1 then { s with vm.used1 := used + 1 } else { s with vm.used0 := used + 1 }
          let s := memRecord 0x8303 (stat (if bank1 then 0xE6 else 0xE4) 1 s)
          if used + 1 = 64 then nvEvent 3 0x000F 0x002C a s else s
        else { s with vm.rows := { r with at' := nowLin s } :: rest }
      else { s with vm.rows := { r with at' := nowLin s, remapped := false } :: rest }
    | none => { s with vm.rows := { row := row, at' := nowLin s } :: s.vm.rows }

/-- Address in NOR of byte `off` of a program image's code slot source (R229, R447). -/
def norBank (b : Nat) : Nat := if b = 0 then 0x200000000 else 0x204000000

/-- Page check table entry of a page of a code slot (R229). -/
def pageCrc (slot page : Nat) (s : State) : Option Nat := assocGet page (if slot = 0 then s.vm.pages0 else s.vm.pages1)

/-- A stall of the lanes adds to the deadline of every release (R149, R230). -/
def addStall (us : Nat) (s : State) : State :=
  { s with prg.active := s.prg.active.map (fun r => { r with deadline := r.deadline.map (· + usLin s us) }) }

/-- Reload of a 4 KiB code page: compared with its table entry before any word is delivered; a difference, or a NOR read error (`nor` false), is a vital fault. It stalls the lane read that found the error by at most 25 µs, an amount the spec leaves open (R229, R230). -/
def pageReload (nor : Bool) (a src : Nat) (s : State) : State :=
  let slot := a / 0x02000000
  let page := a % 0x02000000 / 4096
  let base := a / 4096 * 4096
  let bank := if slot = 0 then s.vm.bank0 else s.vm.bank1
  let bytes := memRead (norBank bank + 0x01800000 + page * 4096) 4096 s.mem
  let s1 := memErr a 2 src s
  if nor && pageCrc slot page s == some (crc32c bytes) then
    let s2 := { s1 with mem := memSetList base bytes s1.mem, vm.codeErr := s1.vm.codeErr.filter (fun e => !(base ≤ e.1 && e.1 < base + 4096)) }
    let (f, s3) := takeFree s2
    rowRepair a (memRecord 0x8302 (stat 0xE0 1 (addRf 0x030020 16 16 1 (if src = 0 then addStall (f.toNat % 26) s3 else s3))))
  else vitalFault .pageReload 0 (memErr a 4 src s)

/-- An error that nothing can repair: a vital fault (R225). -/
def memLost (a src : Nat) (s : State) : State :=
  vitalFault .memory (a % 2 ^ 32) (stat 0xE8 1 (memErr a 4 src s))

/-- Repair of one bad copy from the complement of its partner (R225, R234). -/
def partnerRepair (bad good src : Nat) (s : State) : State :=
  let bytes := (memRead good 8 s.mem).map (fun b => ~~~b)
  let s := memErr bad 1 src (codeFix bad { s with mem := memSetList bad bytes s.mem })
  rowRepair bad (memRecord 0x8301 (stat 0xDC 1 (addRf 0x030020 0 16 1 s)))

/-- The staged record that holds byte `off` of the staging buffer, where records lie in sequence order from its base (model's layout). -/
def dropStaged : Nat → List SRec → List SRec
  | _, [] => []
  | off, r :: t => if off < 24 + r.payload.length then t else r :: dropStaged (off - (24 + r.payload.length)) t

/-- Correct a correctable error found at `a` (R225). -/
def fixCorrectable (a : Nat) (s : State) : State :=
  if codeAt a s = some .correctable then rowRepair a (countCe a (codeFix a s)) else s

/-- What an access or the scrubber does with the word of `a`; `src` is the code of `MEM_ERR_HI` `SOURCE` (R225, R234, R235). -/
def checkWordOf (nor : Bool) (src a : Nat) (s : State) : State :=
  match storeKind a with
  | .dual | .pair =>
    let t := trueWord a
    let i := invWord t
    let s := fixCorrectable i (fixCorrectable t s)
    match codeAt t s, codeAt i s with
    | some _, some _ => memLost t src s
    | some _, none => partnerRepair t i src s
    | none, some _ => partnerRepair i t src s
    | none, none =>
      if isCompl 8 (memNat t 8 s.mem) (memNat i 8 s.mem) then s
      else if t < 0x10000000 then vitalFault .notComplement (t % 2 ^ 32) s
      else unitDisagrees .lattice s
  | .code =>
    let s := fixCorrectable a s
    if codeAt a s = some .uncorrectable then pageReload nor a src s else s
  | .staging =>
    let s := fixCorrectable a s
    if codeAt a s = some .uncorrectable then
      let s := rowRepair a (codeFix a (memErr a 3 src { s with mem := memSetList a (leBytes 8 0) s.mem }))
      let st := dropStaged (a - 0x0B000000) s.evr.staging
      if st.length < s.evr.staging.length then
        lostNotice { s with evr.staging := st, evr.lossSeq := s.evr.lossSeq + 1, evr.lossLast := now s, evr.lossFirst := if s.evr.lossNoSeq + s.evr.lossSeq = 0 then now s else s.evr.lossFirst }
      else s
    else s
  | .working =>
    let s := fixCorrectable a s
    if codeAt a s = some .uncorrectable then unitDisagrees .lattice (codeFix a (memErr a 0 src s)) else s
  | .ring | .spare | .static' =>
    let s := fixCorrectable a s
    if codeAt a s = some .uncorrectable then memLost a src s else s

/-- As `checkWordOf`, NOR answering. -/
def checkWord (src a : Nat) (s : State) : State := checkWordOf true src a s

/-- What a physical fault leaves at the word of `a` (R222 to R224). -/
def applyFinding (a : Nat) (f : MemFinding) (s : State) : State :=
  let t := trueWord a
  let two := storeKind a == .dual || storeKind a == .pair
  let at' (inv : Bool) := if inv && two then invWord t else if two then t else a
  match f with
  | .clean => s
  | .flip inv d c => codeFlip (at' inv) d c s
  | .flips d0 d1 c0 c1 => if two then codeFlip (invWord t) d1 c1 (codeFlip t d0 c0 s) else codeFlip a d0 c0 s
  | .wrongKey inv => codeForeign (at' inv) s
  | .allSame inv _ => codeForeign (at' inv) s
  | .swapped => if two then codeForeign (invWord t) (codeForeign t s) else codeForeign a s
  | .stale => if two then { s with mem := memSetList (invWord t) (memRead t 8 s.mem) s.mem } else s

/-! ### Voted reads and writes -/

/-- Configured end of the instance region and of the global region (R134, R219). -/
def instEnd (s : State) : Nat := 0x04000000 + s.cfg.instSize
def globEnd (s : State) : Nat := 0x07000000 + s.cfg.globSize

/-- A lane may write at `a` (R219). -/
def laneWritable (a : Nat) (s : State) : Bool :=
  (0x04000000 ≤ a && a < instEnd s) || (0x07000000 ≤ a && a < globEnd s)

/-- A lane read of vital RAM at `a` delivers the stored word (R219). -/
def laneReadable (a : Nat) (s : State) : Bool :=
  a < 0x04000000 || (0x04000000 ≤ a && a < instEnd s) || (0x07000000 ≤ a && a < globEnd s)
    || (0x07010000 ≤ a && a < 0x07030000)

/-- Addresses that exist for a lane read: vital RAM, lattice SRAM, NOR (R3, R130). -/
def laneAddress (a : Nat) : Bool :=
  a < 0x10000000 || (0x100000000 ≤ a && a < 0x100600000) || (0x200000000 ≤ a && a < 0x208000000)

/-- One voted read of the word at `a` through an instance map, served once (R17, R243): state after any repair, and the word. -/
def laneReadBy (map : List (Nat × Nat)) (nor : Bool) (a : Nat) (s : State) : State × Nat :=
  if a < 0x10000000 then
    if laneReadable a s then
      let p := granule map a
      let s1 := checkWordOf nor 0 (p / 8 * 8) s
      (s1, memNat p 8 s1.mem)
    else (nvEvent 3 0x0004 0 a s, 0)
  else if 0x100498000 ≤ a ∧ a < 0x1004A0000 then (s, 0)
  else if a < 0x100600000 then
    let s1 := checkWord 0 (a / 8 * 8) s
    (s1, memNat a 8 s1.mem)
  else (s, memNat a 8 s.mem)

/-- A voted read through the active map (R243). -/
def laneReadOf (nor : Bool) (a : Nat) (s : State) : State × Nat := laneReadBy s.vm.mapActive nor a s

/-- As `laneReadOf`, NOR answering. -/
def laneRead (a : Nat) (s : State) : State × Nat := laneReadOf true a s

/-! ### The lanes' data caches (R172) -/

/-- A line becomes the newest dirty one; of 256 others the oldest is written back (R172). -/
def cacheLine (k : Nat) (x : Lane) : Lane := { x with dirty := (k :: x.dirty.filter (· != k)).take 256 }

/-- The store would make a 257th line dirty (R172). -/
def cacheFull (k : Nat) (x : Lane) : Bool := decide (256 ≤ x.dirty.length) && !(x.dirty.contains k)

/-- A store of the program makes its line dirty, in every lit lane alike; a line that must leave is written back as one voted write (R16, R172, R173). In split mode each lane has its own (R205). -/
def cacheStore (b : Bool) (a : Nat) (s : State) : State :=
  if s.cfg.split then modLane (if b then .b else .a) (cacheLine (a / 64)) s
  else
    let full := (litLanes s).any (fun l => cacheFull (a / 64) (lane l s))
    let s := (litLanes s).foldl (fun s l => modLane l (cacheLine (a / 64)) s) s
    if full then seqNext s else s

/-- A voted write of a line's words writes it back. -/
def cacheClean (a : Nat) (s : State) : State :=
  allLanes.foldl (fun s l => modLane l (fun x => { x with dirty := x.dirty.filter (· != a / 64) }) s) s

/-- The lit pair writes back its dirty lines as voted writes and invalidates its caches (R184). -/
def cacheFlush (s : State) : State :=
  let n := (litLanes s).foldl (fun m l => max m (lane l s).dirty.length) 0
  seqMany n (allLanes.foldl (fun s l => modLane l (fun x => { x with dirty := [] }) s) s)

/-- The granule of a physical address in the instance region. -/
def granuleOf (p : Nat) : Nat := (p - 0x04000000) / 64

/-- A voted write of `n` bytes at a physical address sets the dirty bit of each old granule of a converted instance that it touches (R248). -/
def trackWrite (p n : Nat) (s : State) : State :=
  if s.xch.tracking && decide (0x04000000 ≤ p) && decide (p < 0x07000000) then
    let hit := (List.range (granuleOf (p + n - 1) + 1 - granuleOf p)).map (· + granuleOf p)
    { s with xch.work := s.xch.work.map (fun w => { w with dirty := w.dirty ++ hit.filter (fun g => w.old.contains g && !(w.dirty.contains g)) }) }
  else s

/-- Injection into the next voted write of the armed word: one or two symbols of its check bits are stored inverted (R236). -/
def injectWrite (a : Nat) (s : State) : State :=
  if rf 0x030000 0 1 s = 1 ∧ a / 8 * 8 = rv 0x030034 s ∧ laneWritable a s then
    let sym := rf 0x030000 1 2 s
    let s := setRf 0x030000 0 1 0 s
    if sym = 1 then codeFlip (a / 8 * 8) 0 0x000F s
    else if sym = 2 then codeFlip (a / 8 * 8) 0 0x00FF s
    else s
  else s

/-- Bytes stored at a physical address: both copies of a dual-stored word, whose code is then good (R133, R218). -/
def storeGood (p : Nat) (l : List Byte) (s : State) : State :=
  { s with
    mem := storeBytes p l s.mem
    vm.codeErr := s.vm.codeErr.filter (fun e => !(p / 8 * 8 ≤ e.1 && e.1 < p + l.length) && !(p / 8 * 8 + invOffset ≤ e.1 && e.1 < p + invOffset + l.length && dualStored p)) }

/-- RAM_WRITE of the words that `n` bytes at a physical address touch (R49, R56). -/
def mirrorRam (p n : Nat) (s : State) : State :=
  let w := p / 8 * 8
  mirror 5 2 (leBytes 8 w ++ memRead w ((p + n + 7) / 8 * 8 - w) s.mem) s

/-- A voted write of bytes at a physical address of the instance region: stored and mirrored (R49, R133, R247). -/
def freshStore (p : Nat) (l : List Byte) (s : State) : State := mirrorRam p l.length (storeGood p l s)

/-- A voted write of bytes at a true address: translated, stored, tracked and mirrored under its physical address (R133, R218, R243, R248, R49). -/
def laneStore (a : Nat) (l : List Byte) (s : State) : State :=
  let p := granule s.vm.mapActive a
  mirrorRam p l.length (injectWrite p (storeGood p l (trackWrite p l.length s)))

/-! ### The ring area (R224, R225) -/

/-- A word that the controller writes in the ring area does not read back as written: a vital fault (R224, R225, R237). `r` is the ring. -/
def writeVerify (r : Nat) (m : MemIn) (s : State) : State :=
  if m.verify then s else vitalFault .writeVerify r (stat 0xE8 1 (memErr 0x08000000 4 3 s))

/-- What the code finds in a ring word that is read: one symbol is corrected and counted, more are a vital fault (R225). -/
def ringFinding (r : Nat) (m : MemIn) (s : State) : State :=
  let e : CodeErr := match m.find with
    | .clean => {}
    | .flip _ d c => { data := d, check := c }
    | .flips d _ c _ => { data := d, check := c }
    | .wrongKey _ => { keyed := true }
    | .allSame _ _ => { keyed := true }
    | .swapped => { keyed := true }
    | .stale => {}
  match codeClass e with
  | none => s
  | some .correctable => countCe 0x08000000 s
  | some .uncorrectable => vitalFault .memory r (stat 0xE8 1 (memErr 0x08000000 4 4 s))

/-! ### The scrubber (R231, R232) -/

/-- Byte address of a scrubber position. -/
def scrubAddr (area word : Nat) : Nat :=
  if area = 0 then 8 * word else if area = 1 then 0x08000000 + 8 * word else 0x100000000 + 8 * word

/-- Words of an area. -/
def scrubWords (area : Nat) : Nat := if area = 2 then 786432 else 16777216

/-- The scrubber moves on; the end of lattice SRAM completes a pass (R231, R232). -/
def scrubAdvance (s : State) : State :=
  if s.vm.word + 1 < scrubWords s.vm.area then { s with vm.word := s.vm.word + 1 }
  else if s.vm.area < 2 then { s with vm.area := s.vm.area + 1, vm.word := 0 }
  else
    let ms := (s.clk.up - s.vm.passStart) / 100000
    let s := setRf 0x030010 0 14 (sat 0x3FFF ms) (cnt 0x03000C s)
    let s := setRf 0x030010 16 14 (max (rf 0x030010 16 14 s) (sat 0x3FFF ms)) s
    { s with vm.area := 0, vm.word := 0, vm.passStart := s.clk.up }

/-- One scrubber read, with what a physical fault has left in the word (R225, R231, R232). -/
def execScrubRead (dt : Nat) (f : MemIn) (s : State) : Host.Outcome State Fault Refusal :=
  let s := begin' dt s
  .next (if powered s && s.pwr.phase != .stopped then
      let a := scrubAddr s.vm.area s.vm.word
      scrubAdvance (checkWordOf f.norOk 1 a (applyFinding a f.find s))
    else s)

/-- A pass not complete within 9 s of its start is a vital fault (R232). -/
def execScrubPassLate (dt : Nat) (s : State) : Host.Outcome State Fault Refusal :=
  let s := begin' dt s
  .next (if powered s && decide (usUp 9000000 < s.clk.up - s.vm.passStart) then vitalFault .scrubLate 0 s else s)

end Sys2Proof.Machine
end

