-- ==== Sys2Proof/Machine/InImage.lean ====
section
/-! DEFINITION. The live input values and the frozen input image, with forces (R144, R163, R375, R387, R459). -/

namespace Sys2Proof.Machine

/-! ### The lattice words that pins follow (R62, R65, R67, R377) -/

/-- Table P and N state half of element `e`. -/
def elemP (e : Nat) (s : State) : Nat := memNat (0x100400000 + 16 * e) 8 s.mem
def elemN (e : Nat) (s : State) : Nat := memNat (0x100440000 + 16 * e) 8 s.mem

/-- Configuration half of element `e` (table P). -/
def elemCfg (e : Nat) (s : State) : Nat := memNat (0x100400008 + 16 * e) 8 s.mem

/-- `TYPE` of element `e` (R67). -/
def elemType (e : Nat) (s : State) : Nat := bits (elemCfg e s) 0 4

/-- The `PERMIT` of SIGNAL `e` reads 0b10 in table P and 0b01 in table N (R377). -/
def permitSet (e : Nat) (s : State) : Bool := bits (elemP e s) 52 2 == 2 && bits (elemN e s) 52 2 == 1

/-- The group is UNPOWERED (R388). -/
def unpoweredNow (g : Nat) (s : State) : Bool := (fgroup g s).band == .unpowered

/-- Output point of Fn (R369). -/
def pinPoint (n : Nat) (s : State) : Nat := bits (pinWord n s) 16 13

/-- `RESTRICT` of the point of input Fn (R375). -/
def pinRestrict (n : Nat) (s : State) : Bool :=
  let p := pin n s
  p.filling || p.inBand || p.couplerLost || unpoweredNow (n / 8) s

/-- The live value of the point of input Fn: VALUE, RESTRICT in bit 33 (R375). -/
def pinLive (n : Nat) (s : State) : Nat := if pinRestrict n s then 2 ^ 33 else b2n (pin n s).filtered

/-! ### The input image (R144, R163, R387) -/

/-- A fault of R384 shows at pin `n`. -/
def pinAnyFault (n : Nat) (s : State) : Bool :=
  let p := pin n s
  p.stuckOn || p.cross || p.overload || p.openLoad || p.driveFail || p.inBand || p.couplerLost || p.timedOut

/-- Permissive element state codes (R69). -/
def permissiveCodes : List Nat := [0x11EE, 0x21DE, 0x22DD, 0x33CC, 0x35CA, 0x41BE, 0x55AA, 0x6699, 0x7887, 0x8877, 0xE817]

/-- The live values of the configured input points: (point, VALUE + RESTRICT in bit 33) (R135, R375, R387, R459). -/
def liveInputs (s : State) : List (Nat × Nat) :=
  (allPins.filter (fun n => isInput n s)).map (fun n => (pinPoint n s, pinLive n s))
    ++ (allPins.filter (fun n => isOutput n s && bit (pinWord n s) 8)).map
      (fun n => (bits (pinWord n s) 37 13, b2n (pin n s).rb + 2 ^ 33 * b2n (pinAnyFault n s || (pin n s).permitOff)))
    ++ (s.cfg.bindings.filter (fun b => !b.output)).map (fun b =>
      (b.point,
        if b.kind = 1 then (match assocGet b.point s.prg.live with | some v => v | none => 2 ^ 33)
        else if b.kind = 2 then (let c := bits (elemP b.idx s) 0 16; c + 2 ^ 33 * b2n (!(permissiveCodes.contains c)))
        else (let p := permitSet b.idx s; b2n p + 2 ^ 33 * b2n (!p))))

/-- The force on a point of an image (R161). -/
def forceOn (dir : Bool) (p : Nat) (s : State) : Option Nat :=
  match s.frc.table.find? (fun e => e.dir == dir && e.point == p) with
  | some e => some e.value
  | none => none

/-- Write the points of an input image, with forces applied. -/
def writeImage (s : State) : List (Nat × Nat) → List Host.Cell → List Host.Cell
  | [], m => m
  | (p, v) :: t, m =>
    let w := match forceOn false p s with
      | some f => f + 2 ^ 32 + 2 ^ 33 * bits v 33 1
      | none => v
    writeImage s t (storeBytes (0x07010000 + 8 * p) (leBytes 8 w) m)

/-- IN_FREEZE: the live values become the new input image (R144). -/
def freezeInputs (s : State) : State :=
  let m := writeImage s (liveInputs s) s.mem
  { s with mem := m, prg.img := memSlice 0x07010000 0x07020000 m, prg.frozen := true }

/-- A fresh input image for an iteration of task 48 (R147). -/
def freshImage (s : State) : State := { freezeInputs s with prg.frozen := s.prg.frozen }

end Sys2Proof.Machine
end

