-- ==== Sys2Proof/Machine/Release.lean ====
section
/-! DEFINITION. Task releases and triggers (R136 to R148, R152), entry to FREE and NORMAL (R146). -/

namespace Sys2Proof.Machine

/-- The task table of a lane table. -/
def taskTable (b : Bool) (s : State) : TaskTable :=
  if b then (match s.cfg.tasksB with | some t => t | none => {}) else s.cfg.tasks

/-- The entry of a task. -/
def taskEntry (id : Nat) (b : Bool) (s : State) : Option TaskEntry := (taskTable b s).entries.find? (fun e => e.id == id)

/-- What is kept of a task. -/
def taskState (id : Nat) (b : Bool) (s : State) : TaskState :=
  match s.prg.tasks.find? (fun t => t.id == id && t.laneB == b) with
  | some t => t
  | none => { id := id, laneB := b }

/-- Change what is kept of a task. -/
def setTask (t : TaskState) (s : State) : State :=
  { s with prg.tasks := t :: s.prg.tasks.filter (fun u => !(u.id == t.id && u.laneB == t.laneB)) }

/-- Order of releases (R138): priority, cyclic before event, lower ID. -/
def releaseKey (r : Release) (s : State) : Nat :=
  let prio := match taskEntry r.task r.laneB s with | some e => e.prio | none => 15
  prio * 1000 + (if 16 ≤ r.task then 500 else 0) + r.task

/-- A release has begun to execute. -/
def begun (r : Release) : Bool := r.exec != 0 || (match r.frames with | [f] => f.pc != 0 | _ => true)

/-- `r` runs before `x`: by the order of releases, and ahead of one that has begun only with a higher priority (R138, R139). -/
def runsBefore (s : State) (r x : Release) : Bool :=
  if begun x then decide (releaseKey r s / 1000 < releaseKey x s / 1000) else decide (releaseKey r s < releaseKey x s)

/-- Insert a release before the first one that it precedes. -/
def insertRelease (s : State) (r : Release) : List Release → List Release
  | [] => [r]
  | x :: t => if runsBefore s r x then r :: x :: t else x :: insertRelease s r t

/-- A task is released and not yet finished. -/
def taskActive (id : Nat) (b : Bool) (s : State) : Bool := s.prg.active.any (fun r => r.task == id && r.laneB == b)

/-- Release a task, on a standby or a stopped lane none: scratch registers 8 to 255 are 0, the image frozen last is its image (R127, R138, R144). -/
def release (e : TaskEntry) (b : Bool) (tStamp detail count : Nat) (deadline : Option Nat) (s : State) : State :=
  if isStandby s || laneStopped b s then s
  else
  let t := taskState e.id b s
  let st := now s
  let r : Release := {
    task := e.id, laneB := b, stamp := st, trigStamp := (if e.id < 16 ∨ e.id = 48 then st else tStamp),
    trigDetail := detail, trigCount := count, deadline := deadline, img := s.prg.img,
    frames := [{ block := e.root, pc := 0, base := 0x04000000 + e.inst }], firstScan := t.firstScan }
  let s := setTask { t with lastRelease := some st, trigCount := 0, heldTrig := none, firstScan := false } s
  { s with prg.active := insertRelease s r s.prg.active }

/-- Release task 48 with a fresh image (R147). -/
def releaseFree (b : Bool) (s : State) : State :=
  match taskEntry 48 b s with
  | some e => release e b 0 0 0 none (freshImage s)
  | none => s

/-- A change of the operating mode aborts an exchange that is ARMED or DRAINING (R263). -/
def modeAbort (s : State) : State := if s.xch.st == .armed || s.xch.st == .draining then xchAbort 0x14 0 s else s

/-- Leaving NORMAL for FREE: outputs off, the feed stops (R8, R403). -/
def leaveNormal (s : State) : State := if s.prg.mode == .normal then pinsOff allPins (cutPicking [0, 1, 2, 3] 15 (recordCut (closedMask s) 5 s)) else s

/-- Entry to FREE: every release ends, task 48 runs (R146, R147, R403). -/
def enterFree (c : FreeCause) (s : State) : State :=
  let s := setMode .free c (modeAbort (leaveNormal s))
  let s := endAllPosts { s with prg.active := [], prg.reqNormal := false, prg.reqTest := false, prg.normalAt := none }
  let s := releaseFree false s
  if s.cfg.split then releaseFree true s else s

/-- Release the cyclic tasks of one table that are due in this cycle; one still running is held until it returns (R138, R148). -/
def releaseCyclic (b : Bool) : List TaskEntry → State → State
  | [], s => s
  | e :: t, s =>
    releaseCyclic b t
      (if e.id < 16 ∧ e.period ≠ 0 ∧ s.clk.cycle % e.period = e.phase then
        if taskActive e.id b s then setTask { taskState e.id b s with heldCyclic := some (nowLin s) } s
        else release e b 0 0 0 (some (cycleLin (s.clk.cycle + e.period))) s
      else s)

/-- Skip the cyclic tasks due inside an exchange window; an abort lets them follow (R258, R259). -/
def skipCyclic (b : Bool) : List TaskEntry → State → State
  | [], s => s
  | e :: t, s =>
    skipCyclic b t
      (if e.id < 16 ∧ e.period ≠ 0 ∧ s.clk.cycle % e.period = e.phase then
        { s with xch.skipped := s.xch.skipped + 1, xch.withheld := (e.id, b) :: s.xch.withheld.filter (· != (e.id, b)) }
      else s)

/-- A trigger of one event task: coalesced while it runs, held otherwise until its release (R142). -/
def trigger (id : Nat) (b : Bool) (st detail : Nat) (s : State) : State :=
  let t := taskState id b s
  if s.xch.window then { s with xch.heldTrig := s.xch.heldTrig ++ [(id, st, detail)] }
  else if taskActive id b s then setTask { t with trigCount := t.trigCount + 1 } s
  else setTask { t with trigCount := t.trigCount + 1, heldTrig := match t.heldTrig with | some x => some x | none => some (st, detail) } s

/-- Fire the triggers of the entries that `f` selects (R141). -/
def fireIn (b : Bool) (f : TaskEntry → Bool) (st detail : Nat) : List TaskEntry → State → State
  | [], s => s
  | e :: t, s => fireIn b f st detail t (if 16 ≤ e.id && e.id < 48 && f e then trigger e.id b st detail s else s)

/-- Triggers are ignored outside NORMAL (R142). -/
def fire (f : TaskEntry → Bool) (st detail : Nat) (s : State) : State :=
  if inNormal s then
    let s := fireIn false f st detail s.cfg.tasks.entries s
    match s.cfg.tasksB with
    | some t => fireIn true f st detail t.entries s
    | none => s
  else s

/-- A record enters ring `r` (R141). -/
def fireRing (r : Nat) (s : State) : State := fire (fun e => e.trig == 1 && e.tsel == r) (now s) r s

/-- A confirmed edge on image point `p`: `kind` 1 rising, 2 falling (R141, R374). -/
def fireEdge (p kind st : Nat) (s : State) : State :=
  fire (fun e => e.trig == 2 && e.targ == p && (e.tsel == kind || e.tsel == 3)) st p s

/-- A notice on ring 52 (R141). -/
def fireNotice (kind number w0 : Nat) (s : State) : State :=
  fire (fun e => e.trig == 3 && bits e.targ 0 4 == kind && (e.targ2 == number || e.targ2 == 0xFFFF)) (now s) w0 s

/-- Compare point `n` fires (R141, R143). -/
def firePosition (n : Nat) (s : State) : State := fire (fun e => e.trig == 4 && e.tsel == n) (now s) n s

/-- The separation after the previous release is over (R142). -/
def separated (e : TaskEntry) (t : TaskState) (s : State) : Bool :=
  match t.lastRelease with
  | some x => decide (lin x + cycleLin e.period ≤ nowLin s)
  | none => true

/-- The deadline of an event release: from its trigger, from the release where the separation held it, from the instant at which the lanes resume where an exchange held it (R142, R259). -/
def eventDeadline (e : TaskEntry) (t : TaskState) (st : Nat) (s : State) : Nat :=
  let from' := max (lin st) s.xch.resumeAt + cycleLin e.period
  match t.lastRelease with
  | some x => if lin st < lin x + cycleLin e.period then nowLin s + cycleLin e.period else from'
  | none => from'

/-- Release an event task whose trigger waits (R141, R142). -/
def releaseEvent (id : Nat) (b : Bool) (s : State) : State :=
  let t := taskState id b s
  match taskEntry id b s, t.heldTrig with
  | some e, some (st, d) =>
    if inNormal s && s.tri.stallFrom.isNone && !s.prg.releaseHeld && !s.xch.window && !(resting s) && !(taskActive id b s) && separated e t s && decide (16 ≤ id) && decide (id < 48) then
      release e b st d t.trigCount (some (eventDeadline e t st s)) s
    else s
  | _, _ => s

/-- EVENT_TASK_RELEASE. -/
def execEventTaskRelease (dt task : Nat) (s : State) : Host.Outcome State Fault Refusal :=
  let s := begin' dt s
  .next (if lanesRun s then releaseEvent task true (releaseEvent task false s) else s)

/-- Arm `FIRST` of every root instance of a table (R146, R152). -/
def armFirst : List TaskEntry → State → State
  | [], s => s
  | e :: t, s =>
    let a := 0x04000000 + e.inst + 8
    armFirst t (laneStore a (leBytes 8 (setBits (memNat (granule s.vm.mapActive a) 8 s.mem) 0 1 1)) s)

/-- The tasks that start with `FIRST_SCAN` pending. -/
def freshTasks (b : Bool) (l : List TaskEntry) : List TaskState := l.map (fun e => { id := e.id, laneB := b, firstScan := true })

/-- The vital bus node is integrated (R300, R315): station time adopted and the node aligned. -/
def integrated (s : State) : Bool := !s.clk.prov && (s.bus.st == .synced || s.lnk.timed)

/-- AUTO_START applies to this power-up and has not been used (R414). -/
def autoApplies (s : State) : Bool := s.cand.autoOk && s.cfg.autoStart && s.prg.cause == .start

/-- The conditions of the row FREE to NORMAL (R146). -/
def normalDue (s : State) : Bool :=
  s.pwr.phase == .running && s.prg.mode == .free && s.prg.reqNormal && integrated s && s.tri.stallFrom.isNone
    && (autoApplies s || s.snu.edgeStored || s.prg.cause == .recovery)

/-- Entry to NORMAL at a boundary: task 48 stops, `FIRST` armed in every root instance (R146, R152, R168). -/
def enterNormal (s : State) : State :=
  let auto := autoApplies s
  let s := setMode .normal s.prg.cause (modeAbort s)
  let s := endAllPosts s
  let s := armFirst s.cfg.tasks.entries s
  let s := match s.cfg.tasksB with | some t => armFirst t.entries s | none => s
  let s := setRf 0x040040 16 14 0x3FFF s
  { s with
    prg.active := [], prg.reqNormal := false, prg.normalAt := some s.clk.cycle,
    prg.tasks := freshTasks false s.cfg.tasks.entries ++ (match s.cfg.tasksB with | some t => freshTasks true t.entries | none => []),
    snu.edgeStored := false, snu.autoApplied := s.snu.autoApplied || auto, pwr.haltedSince := false, cand.bootStep := 12 }

/-- REQ_NORMAL: the request of task 48 is held until its conditions hold (R146). -/
def requestNormal (s : State) : State := if s.prg.mode == .free then { s with prg.reqNormal := true } else s

/-- REQ_TEST: with a token verified for act TEST the module goes to FREE, cause TEST, at the next major-cycle boundary (R146). -/
def requestTest (s : State) : State :=
  if s.prg.mode == .normal then
    match findToken (rv 0x04000C s) 7 s with
    | some e => consumeToken e.id { s with prg.reqTest := true }
    | none => nvEvent 4 0x000F 0x0008 0 s
  else s

/-- REQ_NORMAL set by task 48. -/
def execReqNormal (dt : Nat) (s : State) : Host.Outcome State Fault Refusal := .next (blockCommand 4 requestNormal (begin' dt s))

/-- REQ_TEST written by the program. -/
def execReqTest (dt : Nat) (s : State) : Host.Outcome State Fault Refusal := .next (blockCommand 4 requestTest (begin' dt s))

/-- A verified token ages out after 60 s (R160). -/
def execVerifiedEntryExpiry (dt : Nat) (id : Half) (s : State) : Host.Outcome State Fault Refusal :=
  let s := begin' dt s
  .next { s with prg.tokVer := s.prg.tokVer.filter (fun e => !(e.id == id.toNat && decide (secLin s 60 ≤ nowLin s - lin e.at'))) }

/-- A write of SYS_TRIP through any view is a vital fault with the written value as trap code (R508, R151). -/
def sysTripWrite (v : Nat) (s : State) : State := vitalFault .sysTrip v (trapRecord 0x4402 (running false s) v s)

/-- SYS_TRIP. -/
def execSysTrip (dt : Nat) (_view : Fin 4) (data : Half) (s : State) : Host.Outcome State Fault Refusal :=
  let s := begin' dt s
  .next (if lanesRun s then sysTripWrite data.toNat (seqVoted s) else s)

/-- Execution of a release past its deadline, or a FREE iteration past FREE_LIMIT, is a vital fault (R147, R148). -/
def overrunDue (r : Release) (s : State) : Bool :=
  if s.prg.mode == .normal then
    match r.deadline with
    | some d => decide (d ≤ nowLin s)
    | none => false
  else r.task == 48 && decide (usUp (1000 * (taskTable r.laneB s).freeLimit) < r.exec)

/-- TASK_OVERRUN (R147, R148, R151). -/
def execTaskOverrun (dt task : Nat) (laneB : Bool) (s : State) : Host.Outcome State Fault Refusal :=
  let s := begin' dt s
  .next (match s.prg.active.find? (fun r => r.task == task && r.laneB == laneB) with
    | some r =>
      if laneRuns laneB s && overrunDue r s then
        vitalFault (if s.prg.mode == .normal then .overrun else .freeLimit) task (trapRecord 0x4401 (some r) 0 s)
      else s
    | none => s)

end Sys2Proof.Machine
end

