-- ==== Sys2Proof/Machine/Vote.lean ====
section
/-! DEFINITION. The verdict of the voter pair on one transaction (R173 to R178). -/

namespace Sys2Proof.Machine

/-- Groups in which two presentations differ, timing left out: bit 0 address, 1 data, 2 control (R173). -/
def txDiff (x y : LaneTx) : Nat :=
  b2n (!(x.addr == y.addr && x.be == y.be)) + 2 * b2n (!(x.data == y.data))
    + 4 * b2n (!(x.kind == y.kind && x.size == y.size && x.priv == y.priv && x.seq == y.seq))

/-- Distance of two arrivals in lane clocks. -/
def apart (x y : Nat) : Nat := (x - y) + (y - x)

/-- The middle of three. -/
def median3 (x y z : Nat) : Nat := max (min x y) (min (max x y) z)

/-- A voter's verdict. -/
inductive Verdict where
  /-- All lit lanes agree. -/
  | agree (tx : LaneTx)
  /-- One lane at fault in the groups given, or by timeout. -/
  | odd (tx : LaneTx) (l : LaneId) (groups : Nat) (timeout : Bool)
  /-- Fewer than two lanes in agreement. -/
  | fail
  deriving DecidableEq, Repr

/-- The transaction without its arrival, which is not what a voter commits. -/
def txBody (x : LaneTx) : LaneTx := { x with at' := 0 }

/-- Two lanes: in agreement or not (R173, R176). -/
def judge2 (x y : Option LaneTx) : Verdict :=
  match x, y with
  | some x, some y => if txDiff x y = 0 ∧ apart x.at' y.at' ≤ 2 then .agree (txBody x) else .fail
  | _, _ => .fail

/-- Three presenting lanes (R176). -/
def judge3 (x y z : LaneTx) : Verdict :=
  let m := median3 x.at' y.at' z.at'
  let late (t : LaneTx) := decide (2 < apart t.at' m)
  let ok (p q : LaneTx) := txDiff p q == 0 && !late p && !late q
  let odd (l : LaneId) (p r : LaneTx) := Verdict.odd (txBody p) l (txDiff r p + 8 * b2n (late r)) false
  if ok x y && ok y z then .agree (txBody x)
  else if ok x y then odd .c x z
  else if ok x z then odd .b x y
  else if ok y z then odd .a y x
  else .fail

/-- What a voter sees of a lane. -/
def seenOf (l : LaneId) (v : Seen) : Option LaneTx :=
  match l with
  | .a => v.a
  | .b => v.b
  | .c => v.c

/-- Earliest aligned arrival among the lit lanes (R174). -/
def earliest (lit : List LaneId) (v : Seen) : Option Nat :=
  lit.foldl (fun m l => match seenOf l v, m with
    | some x, some t => some (min t x.at')
    | some x, none => some x.at'
    | none, m => m) none

/-- A presentation that comes more than 96 lane clocks after the earliest has timed out (R174). -/
def inTime (lit : List LaneId) (v : Seen) : Seen :=
  match earliest lit v with
  | some t =>
    let cut (x : Option LaneTx) := match x with | some y => if y.at' ≤ t + 96 then some y else none | none => none
    { a := cut v.a, b := cut v.b, c := cut v.c }
  | none => v

/-- A lit lane has timed out in a voter's view (R174). -/
def timedOutIn (lit : List LaneId) (v : Seen) : Bool :=
  (earliest lit v).isSome && lit.any (fun l => (seenOf l (inTime lit v)).isNone)

/-- A voter's verdict on the lit lanes (R174, R176). -/
def judge (lit : List LaneId) (w : Seen) : Verdict :=
  let v := inTime lit w
  let get : LaneId → Option LaneTx := fun l => seenOf l v
  match lit with
  | [p, q] => judge2 (get p) (get q)
  | [_, _, _] =>
    match v.a, v.b, v.c with
    | some x, some y, some z => judge3 x y z
    | none, some y, some z => (match judge2 (some y) (some z) with | .agree t => .odd t .a 0 true | _ => .fail)
    | some x, none, some z => (match judge2 (some x) (some z) with | .agree t => .odd t .b 0 true | _ => .fail)
    | some x, some y, none => (match judge2 (some x) (some y) with | .agree t => .odd t .c 0 true | _ => .fail)
    | _, _, _ => .fail
  | _ => .fail

/-! ### Injections (R198 to R201) -/

/-- The identical test transaction of an injection, addressed to the test sink: a write of eight bytes. -/
def testTx : LaneTx :=
  { addr := 0, be := 0xFF, data := List.replicate 8 0, kind := .write, size := 8, priv := false, seq := 0, at' := 0 }

/-- The forced difference of a compare group: 0 address bit 6, 1 payload bit 0, 2 kind, 3 arrival (R199). -/
def forceDiff (g : Nat) (x : LaneTx) : LaneTx :=
  match g with
  | 0 => { x with addr := x.addr ^^^ 0x40 }
  | 1 => { x with data := match x.data with | b :: t => (b ^^^ 1) :: t | [] => [1] }
  | 2 => { x with kind := .read }
  | _ => { x with at' := x.at' + 3 }

/-- The three ports with the test transaction, lane `l` as `y`. -/
def testSeen (l : LaneId) (y : LaneTx) : Seen :=
  { a := some (if l = .a then y else testTx), b := some (if l = .b then y else testTx), c := some (if l = .c then y else testTx) }

/-- Injection of group `g` on lane `l` at one voter: its verdict names exactly that lane and group, the other's names none, and both commit the uninjected value. A compare path that is `broken` does not see the forced difference (R198). -/
def injectionPasses (l : LaneId) (g : Nat) (broken : Bool) : Bool :=
  judge allLanes (testSeen l (if broken then testTx else forceDiff g testTx)) == .odd (txBody testTx) l (2 ^ g) false
    && judge allLanes (testSeen l testTx) == .agree (txBody testTx)

/-- Lane and group of injection `n` - 1 (R199): V1 has 1 to 12, V2 13 to 24, four of each lane. -/
def injLane (n : Nat) : LaneId := if n % 12 / 4 = 0 then .a else if n % 12 / 4 = 1 then .b else .c

/-- The injections of `which` that are missed where the compare paths of `broken` are blind, as a mask. -/
def injMisses (which : List Nat) (broken : Nat) : Nat :=
  which.foldl (fun m n => m + 2 ^ n * b2n (!(injectionPasses (injLane n) (n % 4) (bit broken n)))) 0

/-- The vote: dims, faults and restarts it leads to, and the transaction to commit if there is one (R176, R178). -/
def vote (tx : VotedTx) (s : State) : State × Option LaneTx :=
  let lit := litLanes s
  let v1 := judge lit tx.v1
  if v1 ≠ judge lit tx.v2 then
    (let s := unitDisagrees .voter s
     ({ s with tri.held := s.tri.held ++ [tx] }, none))
  else
    match v1 with
    | .agree t => (s, some t)
    | .odd t l g to' => (tripLane l g .lanesDiffer (if to' then countTimeout l s else countVerdict l g s), some t)
    | .fail => (vitalFault .lanesDiffer 0 s, none)

end Sys2Proof.Machine
end

