-- ==== Sys2Proof/Machine/Snuffer.lean ====
section
/-! DEFINITION. The snuffer, its cut-off path test and the restart button (11_snuffer_and_restart.md). -/

namespace Sys2Proof.Machine

/-- `FEED_EN` (R418). -/
def feedEn (s : State) : Bool := rf 0x0E0000 0 1 s == 1

/-- The feeder may toggle group `g` (R400). -/
def feedable (g : Nat) (s : State) : Bool :=
  let x := sgroup g s
  (x.phase == .feeding || x.phase == .closed) && !x.cut && !(unpoweredNow g s) && groupUsed g s

/-- The path a driver trips: the switch pair opens until the closing sequence; the watchdog drops `SNUFF_K`. A trip in service, where nothing has cut the group before, is a cut of its own (R401, R403, R418). -/
def pathTrip (g : Nat) (s : State) : State :=
  openGroup g (if inNormal s && feedable g s then recordCut (2 ^ g) 5 s else s)

/-- One edge of a group's enable line, judged by the interval since the previous one (R401). -/
def feedEdge (g : Nat) (s : State) : State :=
  if feedable g s then
    let x := sgroup g s
    let d := s.clk.up - x.edgeAt
    if d < usUp 8 ∨ usUp 250 ≤ d then pathTrip g s
    else modSnu g (fun x => { x with edgeAt := s.clk.up, toggle := !x.toggle, regular := if d ≤ usUp 12 then x.regular + 1 else 0 }) s
  else s

/-- A committed enable transaction toggles the line of every closed group (R400). -/
def feedAll (s : State) : State := feedEdge 3 (feedEdge 2 (feedEdge 1 (feedEdge 0 s)))

/-- SNUFFER_FEED at a cycle position that is a multiple of 10 µs: voted like every other transaction (R16, R400). -/
def execSnufferFeed (dt : Nat) (view : VotedTx) (s : State) : Host.Outcome State Fault Refusal :=
  let s := begin' dt s
  .next (if inNormal s && lanesRun s && feedEn s && !s.cfg.split && !s.prg.releaseHeld && position s % 10 == 0 then
      match vote view s with
      | (s, some _) => feedAll (seqNext s)
      | (s, none) => s
    else s)

/-- PATH_A_TRIP: 250 µs without an edge (R401, R402). -/
def execPathATrip (dt : Nat) (g : Fin 4) (s : State) : Host.Outcome State Fault Refusal :=
  let s := begin' dt s
  let x := sgroup g.val s
  .next (if (x.aClosed || x.phase == .feeding) && decide (usUp 250 ≤ s.clk.up - x.edgeAt) then pathTrip g.val s else s)

/-- PATH_A_CLOSE after 16 regular intervals; FSW must be at or above 16.0 V (R404). -/
def execPathAClose (dt : Nat) (g : Fin 4) (fswMv : Nat) (s : State) : Host.Outcome State Fault Refusal :=
  let s := begin' dt s
  let x := sgroup g.val s
  .next (if powered s && x.phase == .feeding && decide (16 ≤ x.regular) then
      if 16000 ≤ fswMv then
        modSnu g.val (fun x => { x with phase := .closed, aClosed := true, kdrop := false, testFrom := nowLin s, testDue := false, testedA := false }) s
      else openGroup g.val (groupFault .recloseFail (2 ^ g.val) fswMv 7 s)
    else s)

/-- Milliseconds of the reference since `SNUFF_K` last changed. -/
def kMs (x : SGroup) (s : State) : Nat := (s.clk.up - x.kAt) / 100000

/-- The group's readback is evaluated: used, not UNPOWERED, and not within K_DROP_MS of entering it (R405). -/
def kauxEvaluated (g : Nat) (s : State) : Bool :=
  let x := sgroup g s
  groupUsed g s && !(unpoweredNow g s)
    && (match x.unpowAt with | some t => decide (s.cfg.kDropMs * 100000 < s.clk.up - t) | none => true)

/-- A sample disagrees with the command (R405). -/
def kauxWrong (x : SGroup) (high : Bool) (s : State) : Bool :=
  if x.kOn then high && decide (s.cfg.kPickMs < kMs x s)
  else !high && decide (s.cfg.kDropMs < kMs x s)

/-- KAUX_SAMPLE (R404, R405). -/
def execKauxSample (dt : Nat) (g : Fin 4) (high : Bool) (fswMv : Nat) (s : State) : Host.Outcome State Fault Refusal :=
  let s := begin' dt s
  let x := sgroup g.val s
  .next (
    if !(powered s) then s
    else if !(kauxEvaluated g.val s) then modSnu g.val (fun x => { x with auxOpen := high, mismatch := 0 }) s
    else
      let against := if x.kOn then high else !high
      let wrong := kauxWrong x high s || (against && (high != x.auxOpen || x.mismatch != 0))
      let m := if wrong then x.mismatch + 1 else 0
      let s := modSnu g.val (fun x => { x with auxOpen := high, mismatch := m }) s
      if 3 ≤ m then snufferFault .kaux g.val 4 s
      else if x.phase == .picking then
        if 5000 ≤ fswMv then snufferFault .pickUp g.val 1 s
        else if !high then modSnu g.val (fun x => { x with phase := .feeding, regular := 0, edgeAt := s.clk.up }) s
        else s
      else s)

/-- The conditions under which group `g` starts closing at a boundary (R404). -/
def closeDue (g : Nat) (s : State) : Bool :=
  let x := sgroup g s
  inNormal s && feedEn s && groupUsed g s && !x.cut && !(unpoweredNow g s) && !s.cfg.split && x.phase == .open' && !x.aClosed && !x.kOn

/-- Step 1: `SNUFF_K` energised, path a held open (R404). -/
def closeStart (g : Nat) (s : State) : State :=
  if closeDue g s then modSnu g (fun x => { x with kOn := true, kAt := s.clk.up, phase := .picking, mismatch := 0, regular := 0 }) s
  else s

/-- CLOSING_SEQUENCE of every group. -/
def closingSequence (s : State) : State := closeStart 3 (closeStart 2 (closeStart 1 (closeStart 0 s)))

/-- Position within the 100 ms test period, µs (R380). -/
def testPos (s : State) : Nat := s.clk.cycle * cycleUs s % 100000 + position s

/-- Test slot under way (R380). -/
def testSlotNow (s : State) : Nat := testPos s / 3125

/-- At the start of a test period the tests that are due become tests of this period (R406). -/
def testPeriod (s : State) : State :=
  if s.clk.cycle * cycleUs s % 100000 = 0 then
    let now' := s.snu.testNow
    let f := fun (x : SGroup) =>
      if x.phase == .closed && (now' || decide (secLin s (3600 * s.cfg.testH) ≤ nowLin s - x.testFrom)) then { x with testDue := true, testedA := false } else x
    { s with snu.g := s.snu.g.map f, snu.testNow := false }
  else s

/-- PATH_TEST in slot 8g + 2 (path a) or 8g + 5 (path b), from 1,000 µs into the slot, each once (R406, R407). -/
def execPathTest (dt : Nat) (g : Fin 4) (pathB : Bool) (r : PathTestIn) (s : State) : Host.Outcome State Fault Refusal :=
  let s := begin' dt s
  let x := sgroup g.val s
  .next (
    if !(inNormal s && x.phase == .closed && x.testDue && !(x.testedA && !pathB) && testSlotNow s == 8 * g.val + (if pathB then 5 else 2) && decide (1000 ≤ testPos s % 3125)) then s
    else
      let s := cnt 0x0E0038 (modSnu g.val (fun x => { x with testEnd := s.clk.up, testedA := x.testedA || !pathB }) s)
      let fail := fun (s : State) => snufferFault .pathTest g.val 3 (openGroup g.val s)
      match r.decayUs with
      | none => fail s
      | some t =>
        if 150 < t then fail s
        else if pathB then
          if r.kauxLow then
            setRf (0x0E0010 + 4 * g.val) 24 8 (sat 255 t) (modSnu g.val (fun x => { x with testDue := false, testFrom := nowLin s }) s)
          else fail s
        else
          let s := setRf (0x0E0010 + 4 * g.val) 16 8 (sat 255 t) s
          let back := match r.recloseUs with | some u => decide (u ≤ 100) | none => false
          if back then s else openGroup g.val (groupFault .recloseFail (2 ^ g.val) 0 7 s))

/-- TEST_NOW (R409, R418). -/
def execTestNow (dt : Nat) (s : State) : Host.Outcome State Fault Refusal :=
  .next (blockCommand 0xE (fun s => { s with snu.testNow := true }) (begin' dt s))

/-- The applied VALUE of an output point (R377). -/
def appliedValue (p : Nat) (s : State) : Nat := match assocGet p s.prg.applied with | some v => v % 2 ^ 32 | none => 0

/-- KDROP: only while every output of the group commands off (R410). -/
def kdropDo (g : Nat) (s : State) : State :=
  if (groupPins g).all (fun n => !(isOutput n s) || appliedValue (pinPoint n s) s != 1) then
    let s := recordCut (2 ^ g) 8 s
    modSnu g (fun x => { x with kdrop := true, phase := .open' }) (dropK g s)
  else nvEvent 0xE 0x000D g 0 s

/-- KDROP in SNUF_CMD. -/
def execKdrop (dt : Nat) (g : Fin 4) (s : State) : Host.Outcome State Fault Refusal :=
  .next (blockCommand 0xE (kdropDo g.val) (begin' dt s))

/-! ### Restart button (R411 to R413) -/

/-- Code of the button state (R418). -/
def btnCode : Button → Nat
  | .arming => 0
  | .idle => 1
  | .pressed => 2
  | .held => 3
  | .implausible => 4

/-- SNUF_CUT, RESTART_EDGE and BUTTON records (R421). -/
def snuRecord (ty press : Nat) (s : State) : State := emit ty [(4, rv 0x0E000C s), (1, btnCode s.snu.btn), (4, press)] s

/-- STUCK_ON and CROSS of a pin clear, each recorded (R386, R387). -/
def clearPin (n : Nat) (s : State) : State :=
  let p := pin n s
  let s := modPin n (fun p => { p with stuckOn := false, cross := false, partner := none, watchTo := none }) s
  let s := if p.stuckOn then emit 0x4D01 [(1, n), (2, 0), (1, 0xFF), (4, 0)] s else s
  if p.cross then emit 0x4D01 [(1, n), (2, 1), (1, match p.partner with | some m => m | none => 0xFF), (4, 0)] s else s

/-- The cuts of a list of groups are cleared; STUCK_ON and CROSS clear with them (R386, R412). -/
def clearCuts (s : State) : State :=
  (List.range 4).foldl (fun s g =>
    if (sgroup g s).cut then
      let s := modSnu g (fun x => { x with cut := false }) (modGroup g (fun x => { x with cut := false }) s)
      (groupPins g).foldl (fun s n => clearPin n s) s
    else s) s

/-- All non-retired lanes are reset and self-tested together (R180). -/
def relightAll (s : State) : State :=
  let f := fun (x : Lane) =>
    if x.st == .retired || x.st == .off || x.st == .reset then x else { x with st := .lit, halted := false, fromAttached := false, dirty := [] }
  let s := allLanes.foldl (fun s l => if (f (lane l s)).st == .lit then voterLog (.state l .lit (now s)) s else s) s
  { s with tri.a := f s.tri.a, tri.b := f s.tri.b, tri.c := f s.tri.c, dbg.attached := [],
           prg.releaseHeld := false, tri.hold := none, tri.stallFrom := none, tri.held := [],
           tri.voter.restart := none, tri.lattice.restart := none, tri.field.restart := none,
           lat.stepDue := false, fio.applyDue := false, fio.permitDue := false }

/-- A valid edge takes effect by the state of the module (R412, R413, R482). -/
def restartEdge (s : State) : State :=
  let press := s.snu.relPress
  let s := cnt 0x0E0024 { s with snu.edgeStamp := s.snu.relAt }
  let s := snuRecord 0x4E02 press s
  if edgesBarred s then { s with snu.barred := true }
  else if s.pwr.phase != .running then s
  else if s.prg.mode == .halted then enterFree .recovery (relightAll s)
  else if s.cfg.split then s
  else if s.prg.mode == .free && s.prg.cause != .recovery then { s with snu.edgeStored := true }
  else if s.prg.mode == .normal && s.snu.g.any (fun x => x.cut) then clearCuts s
  else cnt 0x0E0034 s

/-- Entry to IMPLAUSIBLE: recorded and counted (R411). -/
def implausible (s : State) : State :=
  if s.snu.btn == .arming then { s with snu.btn := .implausible }
  else if s.snu.btn == .implausible then s
  else
    let s := cnt 0x0E0030 { s with snu.btn := .implausible }
    snuRecord 0x4E03 s.snu.pressMs s

/-- The runs of REL, PRS and TRANSIT after one sample, and the press time (R411). -/
def buttonRuns (a b : Bool) (s : State) : State :=
  let rel := !a && b
  let prs := a && !b
  let tr := !a && !b
  let firstPrs := prs && s.snu.prs == 0 && s.snu.btn == .idle
  let ms := if firstPrs then 0 else s.snu.pressMs + 1
  { s with
    snu.rel := if rel then s.snu.rel + 1 else 0
    snu.prs := if prs then s.snu.prs + 1 else 0
    snu.transit := if tr then s.snu.transit + 1 else 0
    snu.pressMs := ms
    snu.relPress := if rel && s.snu.rel == 0 then ms else s.snu.relPress
    snu.relAt := if rel && s.snu.rel == 0 then now s else s.snu.relAt }

/-- PRESSED to HELD: the press time has reached 5 s (R411). -/
def buttonHold (s : State) : State :=
  if s.snu.btn == .pressed && s.snu.rel == 0 && decide (5000 ≤ s.snu.pressMs) then
    let s := cnt 0x0E0028 { s with snu.btn := .held }
    snuRecord 0x4E03 s.snu.pressMs s
  else s

/-- ARMING or IMPLAUSIBLE to IDLE: REL for 1 s (R411). -/
def buttonIdle (s : State) : State :=
  if 1000 ≤ s.snu.rel then
    match s.snu.btn with
    | .arming => { s with snu.btn := .idle }
    | .implausible => snuRecord 0x4E03 0 { s with snu.btn := .idle }
    | _ => s
  else s

/-- BUTTON_SAMPLE: one 1 ms sample takes every transition that it completes (R411). -/
def execButtonSample (dt : Nat) (a b : Bool) (s : State) : Host.Outcome State Fault Refusal :=
  let s := begin' dt s
  .next (
    if !(powered s) then s
    else
      let s := buttonRuns a b s
      if (a && b) || decide (50 < s.snu.transit) then implausible s
      else match s.snu.btn with
        | .idle => if 3 ≤ s.snu.prs then { s with snu.btn := .pressed } else s
        | .pressed =>
          if 3 ≤ s.snu.rel then
            let s := { s with snu.btn := .idle }
            if s.snu.relPress < 100 then cnt 0x0E002C s
            else if s.snu.relPress ≤ 5000 then restartEdge s
            else s
          else buttonHold s
        | .held => if 3 ≤ s.snu.rel then { s with snu.btn := .idle } else s
        | _ => buttonIdle s)

/-- BUTTON_HELD: the press time reaches 5 s (R411). -/
def execButtonHeld (dt : Nat) (s : State) : Host.Outcome State Fault Refusal :=
  let s := begin' dt s
  .next (if powered s then buttonHold s else s)

/-- BUTTON_TRANSIT_TIMEOUT: TRANSIT for more than 50 ms (R411). -/
def execButtonTransitTimeout (dt : Nat) (s : State) : Host.Outcome State Fault Refusal :=
  let s := begin' dt s
  .next (if powered s && decide (50 < s.snu.transit) then implausible s else s)

/-- BUTTON_RELEASED_1S: REL for 1 s ends ARMING and IMPLAUSIBLE (R411). -/
def execButtonReleased1s (dt : Nat) (s : State) : Host.Outcome State Fault Refusal :=
  let s := begin' dt s
  .next (if powered s then buttonIdle s else s)

end Sys2Proof.Machine
end

