-- ==== Sys2Proof/Machine/Recorder.lean ====
section
/-! DEFINITION. The event recorder and the lifetime statistics (12_event_recorder.md). -/

namespace Sys2Proof.Machine

/-- Sequence order modulo 2^32 (R424). -/
def seqLt (a b : Nat) : Bool := a % 2 ^ 32 != b % 2 ^ 32 && decide ((b + 2 ^ 32 - a % 2 ^ 32) % 2 ^ 32 < 2 ^ 31)

/-- The bytes of a record; `RCRC` is 0 while it is open (R419). -/
def recBytes (r : SRec) (isOpen : Bool) : List Byte :=
  let head (crc : Nat) := packFields [(8, r.t), (2, r.ty), (2, recLen r), (4, r.seq), (2, r.rep), (4, crc), (2, 0)]
  if isOpen then head 0 ++ r.payload else head (crc32c (head 0 ++ r.payload)) ++ r.payload

/-- A record of the diagnostic partition (R420). -/
def isDiag (ty : Nat) : Bool := bit ty 15

/-- A record that is never merged (R420). -/
def noMerge (ty : Nat) : Bool := bit ty 14

/-! ### Last-light slots (R438, R439) -/

/-- The valid slot with the highest `SLOT_SEQ`. -/
def newestSlot (s : State) : Option LightSlot := if s.cand.framErr then none else s.cand.light.getLast?

/-- Write the next last-light slot; 64 are kept (R438). -/
def writeLight (kind cause lost bound : Nat) (s : State) : State :=
  if s.cand.framErr || s.cand.framProt then s
  else
    let n := match newestSlot s with | some x => x.slotSeq + 1 | none => 1
    let x : LightSlot := {
      slotSeq := n, kind := kind, cause := cause, epoch := s.cfg.epoch, tSlot := now s, lastSeq := s.evr.seqCommit,
      lastT := s.evr.commitT, bound := bound, jHead := s.evr.j.head, dHead := s.evr.d.head, stagedLost := lost }
    let l := s.cand.light ++ [x]
    { s with cand.light := l.drop (l.length - 64), evr.bound := bound }

/-- A RESERVE slot once the next sequence comes within 1,024 of the bound (R439). -/
def reserveSeq (s : State) : State :=
  if (s.evr.bound + 2 ^ 32 - s.evr.seqNext) % 2 ^ 32 ≤ 1024 then
    writeLight 5 0 0xFFFFFFFF ((s.evr.bound + 2 ^ 20) % 2 ^ 32) s
  else s

/-! ### The open record (R426, R427) -/

/-- The open record closes into staging (R427). -/
def closeOpen (s : State) : State :=
  match s.evr.open' with
  | some r =>
    let s := { s with evr.open' := none, evr.staging := s.evr.staging ++ [{ r with closedAt := nowLin s }] }
    let k := (stagingUsed s + 1023) / 1024
    if rf 0x0F0038 16 14 s < k then setRf 0x0F0038 16 14 k s else s
  | none => s

/-- Duration of the freeze in ms, held in 16 bits (R445). -/
def freezeMs (s : State) : Nat := sat 0xFFFF (sinceUs s s.evr.freezeAt / 1000)

/-- The freeze ends (R433). -/
def thawState (s : State) : State :=
  setRf 0x0F0040 0 16 (freezeMs s) { s with evr.st := .running, evr.freezeEnd := nowLin s }

/-- FREEZE_END with its cause: 1 THAW, 2 TIMEOUT, 3 SHUTDOWN (R422, R433). -/
def freezeEnd (cause : Nat) (s : State) : State := emit 0x4F02 [(1, cause), (2, freezeMs s)] (thawState s)

/-- Staging free space below 256 KiB ends the freeze (R433). -/
def freezeOverrun (s : State) : State :=
  if s.evr.st == .frozen && decide (stagingSize < stagingUsed s + 0x40000) then
    let s1 := setRf 0x0F0008 14 1 1 (cnt 0x0F0070 (thawState s))
    emit 0x4F03 [(2, freezeMs s), (4, stagingUsed s)] s1
  else s

/-- An incoming record merges into the open one (R426). -/
def merges (x : Rec) (o : SRec) (s : State) : Bool :=
  !(noMerge x.ty) && !(noMerge o.ty) && x.ty == o.ty && x.payload == o.payload && decide (lin x.t - lin o.t < secLin s 1)

/-- One record takes the next sequence and becomes the open record (R424, R426). -/
def openNew (x : Rec) (s : State) : State :=
  let n := s.evr.seqNext
  cnt 0x0F0060 { s with evr.open' := some { t := x.t, ty := x.ty, seq := n, payload := x.payload }, evr.seqNext := (n + 1) % 2 ^ 32 }

/-- Ingest of the record at the head of the queue: merged, numbered, held or dropped (R424 to R427, R439). -/
def ingest (s : State) : State :=
  match s.evr.queue with
  | [] => s
  | x :: t =>
    let s0 := { s with evr.queue := t }
    match s.evr.open' with
    | some o =>
      if merges x o s then
        let s1 := cnt 0x0F0064 { s0 with evr.open' := some { o with rep := o.rep + 1 } }
        if o.rep + 1 = 65535 then closeOpen s1 else s1
      else if stagingSize < stagingUsed s + recLen o then recordLoss s0
      else
        let s1 := reserveSeq s0
        if s1.evr.seqNext = s1.evr.bound then { s1 with evr.queue := x :: t }
        else openNew x (closeOpen s1)
    | none =>
      if stagingSize < stagingUsed s + 24 + x.payload.length then recordLoss s0
      else
        let s1 := reserveSeq s0
        if s1.evr.seqNext = s1.evr.bound then { s1 with evr.queue := x :: t } else openNew x s1

/-- RECORD_INGEST. -/
def execRecordIngest (dt : Nat) (s : State) : Host.Outcome State Fault Refusal :=
  let s := begin' dt s
  .next (if powered s then lostNotice (freezeOverrun (ingest s)) else s)

/-- At a minor-cycle boundary at or after 1 s past its T_REC the open record closes (R427). -/
def closeAged (s : State) : State :=
  match s.evr.open' with
  | some o => if lin o.t + secLin s 1 ≤ nowLin s then freezeOverrun (closeOpen s) else s
  | none => s

/-- OPEN_RECORD_CLOSE, at cycle position 0 (R427). -/
def execOpenRecordClose (dt : Nat) (s : State) : Host.Outcome State Fault Refusal :=
  let s := begin' dt s
  .next (if powered s && s.clk.pos == 0 then closeAged s else s)

/-! ### Commit (R428, R429, R435, R436) -/

/-- One partition. -/
def part (diag : Bool) (s : State) : Part := if diag then s.evr.d else s.evr.j

/-- Change one partition. -/
def modPart (diag : Bool) (f : Part → Part) (s : State) : State :=
  if diag then { s with evr.d := f s.evr.d } else { s with evr.j := f s.evr.j }

/-- Blocks of a partition (R429). -/
def partSize (diag : Bool) : Nat := if diag then 4096 else 12288

/-- The records of a page: from the staged records of one partition, in order, as many as fit in 4 KiB; true where the page is full (R428). -/
def pageTake (diag : Bool) : Nat → List SRec → List SRec × Bool
  | _, [] => ([], false)
  | room, r :: t =>
    if isDiag r.ty == diag then
      if recLen r ≤ room then let q := pageTake diag (room - recLen r) t; (r :: q.1, q.2) else ([], true)
    else pageTake diag room t

/-- The next good block index after `i`. -/
def nextBlock (diag : Bool) (p : Part) (i : Nat) : Nat :=
  let n := partSize diag
  match ((List.range 64).map (fun k => (i + 1 + k) % n)).find? (fun k => !(p.bad.contains k)) with
  | some k => k
  | none => (i + 1) % n

/-- Write one page into a partition, erasing the oldest block where the circle is full (R429). -/
def putPage (diag : Bool) (page : List SRec) (p : Part) : Part :=
  match p.blocks.getLast? with
  | some b =>
    if b.idx = p.head ∧ b.pages.length < 64 ∧ ¬ p.bad.contains b.idx then
      { p with blocks := p.blocks.dropLast ++ [{ b with pages := b.pages ++ [page] }] }
    else
      let h := nextBlock diag p p.head
      if p.usable ≤ p.blocks.length then { p with blocks := p.blocks.drop 1 ++ [{ idx := h, pages := [page] }], head := h, wrapped := true }
      else { p with blocks := p.blocks ++ [{ idx := h, pages := [page] }], head := h }
  | none => { p with blocks := [{ idx := p.head, pages := [page] }] }

/-- Entry to DOWN: the freeze ends, a FAILURE slot is written, RECORDER_DOWN is ingested (R436, R441). -/
def recorderDown (cause : Nat) (s : State) : State :=
  if s.evr.st == .down then s
  else
    let s := if s.evr.st == .frozen then freezeEnd 2 s else s
    let s := writeLight 2 cause 0xFFFFFFFF s.evr.bound { s with evr.st := .down, evr.downCause := cause, evr.downAt := nowLin s }
    emit 0x4F07 [(1, cause), (4, s.evr.seqCommit), (8, s.evr.commitT)] s

/-- A block is retired (R435). -/
def retireBlock (diag : Bool) (s : State) : State :=
  let p := part diag s
  let s := modPart diag (fun p => { p with usable := p.usable - 1, bad := p.head :: p.bad, head := nextBlock diag { p with bad := p.head :: p.bad } p.head }) s
  let s := emit 0x8F06 [(1, b2n diag), (2, p.head), (1, (Config.detail 0x8F06 0).toNat)] (cnt 0x0F0074 s)
  if (p.usable - 1) * 10 < 9 * partSize diag ∧ rf 0x0F0008 7 1 s = 0 then nvEvent 0xF 0x000F 0x0008 0 (setRf 0x0F0008 7 1 1 s) else s

/-- `n` blocks are retired, one after the other. -/
def retireBlocks (diag : Bool) : Nat → State → State
  | 0, s => s
  | n + 1, s => retireBlocks diag n (if (part diag s).usable = 0 then s else retireBlock diag s)

/-- A page of records is committed; a committed record is never changed (R428, R435). -/
def commitPage (diag : Bool) (page : List SRec) (s : State) : State :=
  match page.getLast? with
  | none => s
  | some r =>
    let s := modPart diag (putPage diag page) s
    let s := addRf 0x0F0068 0 32 page.length s
    { s with
      evr.staging := s.evr.staging.filter (fun x => !(page.any (fun y => y.seq == x.seq)))
      evr.seqCommit := if seqLt s.evr.seqCommit r.seq || s.evr.seqCommit == 0 then r.seq else s.evr.seqCommit
      evr.commitT := if seqLt s.evr.seqCommit r.seq || s.evr.seqCommit == 0 then r.t else s.evr.commitT }

/-- Commit everything staged, page after page (R434, R440). -/
def commitAll : Nat → State → State
  | 0, s => s
  | n + 1, s =>
    match s.evr.staging with
    | [] => s
    | r :: _ => commitAll n (commitPage (isDiag r.ty) (pageTake (isDiag r.ty) 4096 s.evr.staging).1 s)

/-- PAGE_COMMIT: the page is full, or its oldest record has waited 100 ms (R428). -/
def execPageCommit (dt : Nat) (r : CommitIn) (s : State) : Host.Outcome State Fault Refusal :=
  let s := begin' dt s
  .next (match s.evr.staging with
    | [] => s
    | x :: _ =>
      let d := isDiag x.ty
      let q := pageTake d 4096 s.evr.staging
      if powered s && s.evr.st == .running && (q.2 || decide (usLin s 100000 ≤ nowLin s - x.closedAt)) then
        let s := retireBlocks d r.fails s
        if (part d s).usable = 0 then recorderDown 3 s else lostNotice (commitPage d q.1 s)
      else s)

/-- The committed records of a partition in sequence order. -/
def committed (diag : Bool) (s : State) : List SRec := ((part diag s).blocks.map (fun b => b.pages.flatten)).flatten

/-- MOUNT: the store counts where it holds newer records than the anchor (R430, R436). -/
def execMount (dt : Nat) (ok : Bool) (s : State) : Host.Outcome State Fault Refusal :=
  let s := begin' dt s
  .next (if powered s && s.evr.st == .mounting then
      if ok then
        let last := (committed false s ++ committed true s).foldl (fun (m : Nat × Nat) r => if m.1 = 0 || seqLt m.1 r.seq then (r.seq, r.t) else m) (s.evr.seqCommit, s.evr.commitT)
        { s with evr.st := .running, evr.seqCommit := last.1, evr.commitT := last.2, evr.freezeEnd := nowLin s }
      else recorderDown 1 s
    else s)

/-- STALL: a staged record has waited more than 1 s (R436). -/
def execStall (dt : Nat) (s : State) : Host.Outcome State Fault Refusal :=
  let s := begin' dt s
  .next (if powered s && s.evr.st == .running && s.evr.staging.any (fun r => decide (secLin s 1 < nowLin s - max r.closedAt s.evr.freezeEnd)) then
      recorderDown 2 s
    else s)

/-- CONTROLLER_SELF_CHECK (R436). -/
def execControllerSelfCheck (dt : Nat) (pass : Bool) (s : State) : Host.Outcome State Fault Refusal :=
  let s := begin' dt s
  .next (if powered s && !pass then recorderDown 4 s else s)

/-! ### Commands (R431 to R434, R441, R445) -/

/-- `CMD_RES`. -/
def evrRes (v : Nat) (s : State) : State := setRf 0x0F0024 0 4 v s

/-- FREEZE (R433, R441). -/
def evrFreeze (s : State) : State :=
  match s.evr.st with
  | .frozen => evrRes 1 s
  | .down => evrRes 3 s
  | .mounting => evrRes 8 s
  | .running =>
    if rf 0x0F0000 1 1 s = 0 then evrRes 6 s
    else if 0x100000 ≤ stagingUsed s then evrRes 4 s
    else
      let s := setRv 0x0F003C s.evr.seqCommit (setRf 0x0F0040 0 16 0 (evrRes 0 { s with evr.st := .frozen, evr.freezeAt := nowLin s }))
      emit 0x4F01 [(4, s.evr.seqCommit), (4, stagingUsed s)] s

/-- THAW (R433). -/
def evrThaw (s : State) : State :=
  match s.evr.st with
  | .frozen => freezeEnd 1 (evrRes 0 s)
  | .down => evrRes 3 s
  | _ => evrRes 2 s

/-- Records below the CLEARED record become unreadable at once (R434). -/
def clearPart (diag : Bool) (upTo : Nat) (s : State) : State :=
  modPart diag (fun p => { p with
    clearedTo := some upTo
    blocks := p.blocks.map (fun b => { b with pages := b.pages.map (fun pg => pg.filter (fun r => !(seqLt r.seq upTo))) }) }) s

/-- The record of the CLEAR is numbered and is all that staging holds (R434). -/
def stageClear (r : SRec) (s : State) : State :=
  cnt 0x0F0060 { s with evr.seqNext := (r.seq + 1) % 2 ^ 32, evr.staging := [r] }

/-- A READ of a partition that the CLEAR takes ends: NOT_FOUND, DONE. -/
def endRead (sel : Nat) (s : State) : State :=
  match s.evr.reading with
  | some x => if bit sel (b2n !x.jur) then setRf 0x0F0020 13 1 1 (setRf 0x0F0020 9 1 1 { s with evr.reading := none }) else s
  | none => s

/-- CLEAR of the partitions in `sel` (bit 0 juridical, bit 1 diagnostic) (R434, R441). -/
def evrClear (sel : Nat) (s : State) : State :=
  if s.evr.st == .frozen then evrRes 1 s
  else if s.evr.st == .down then evrRes 3 s
  else if s.evr.clearing || s.evr.st == .mounting then evrRes 8 s
  else if sel = 0 then evrRes 7 s
  else
    match findToken (rv 0x0F0010 s) 4 s with
    | none => evrRes 5 s
    | some e =>
      if e.scope ≠ 0xFFFFFFFF ∧ Nat.land sel e.scope ≠ sel then evrRes 5 s
      else
        let s := consumeToken e.id (closeOpen s)
        let s := commitAll s.evr.staging.length s
        let old := (if bit sel 0 then committed false s else []) ++ (if bit sel 1 then committed true s else [])
        let first := old.foldl (fun m r => if m = 0 || seqLt r.seq m then r.seq else m) 0
        let last := old.foldl (fun m r => if m = 0 || seqLt m r.seq then r.seq else m) 0
        let s := reserveSeq s
        let n := s.evr.seqNext
        let rec' : SRec := { t := now s, ty := 0x4F04, seq := n, payload := pad8 (packFields [(4, e.id), (4, e.staff), (1, sel), (4, first), (4, last)]), closedAt := nowLin s }
        let s := stageClear rec' s
        let s := commitPage false [rec'] s
        let s := writeLight 3 0 0xFFFFFFFF s.evr.bound s
        let s := if bit sel 0 then clearPart false n s else s
        let s := if bit sel 1 then clearPart true n s else s
        evrRes 0 { (endRead sel s) with evr.clearing := true }

/-- A descriptor entry of a non-telegram item (R359). -/
def plainDesc (len st civil : Nat) : List Byte := packFields [(4, 0), (4, len), (4, 0), (4, 0), (8, st), (8, civil)]

/-- A descriptor followed by its data entries, the last padded with 0 (R359). -/
def itemEntries (desc : List Byte) (data : List Byte) : List (List Byte) := desc :: (chunks 32 64 data).map (fitTo 32)

/-- Deliver records until the count is reached, none is left, or the ring is full (R431, R432). -/
def deliver (bad : List Nat) (ringNo : Nat) (jur live : Bool) : List (SRec × Bool) → Nat → Nat → State → State
  | [], _, _, s => setRf 0x0F0020 9 1 1 { s with evr.reading := none }
  | _, 0, _, s => setRf 0x0F0020 9 1 1 { s with evr.reading := none }
  | (r, isOpen) :: t, n + 1, first, s =>
    if bad.contains r.seq then deliver bad ringNo jur live t (n + 1) first (cnt 0x0F0078 (setRf 0x0F0020 12 1 1 s))
    else
      let es := itemEntries (plainDesc (recLen r) (now s) 0) (recBytes r isOpen)
      if ringFree ringNo s < es.length then { s with evr.reading := some { jur := jur, live := live, next := r.seq, left := n + 1, bad := bad } }
      else
        let s := ringPush ringNo es s
        let s := if first = 0 then setRv 0x0F001C r.seq s else s
        let s := addRf 0x0F0020 0 9 1 (if isOpen then setRf 0x0F0020 11 1 1 s else s)
        deliver bad ringNo jur live t n (first + 1) s

/-- The records that a READ can see (R431, R432). -/
def readable (jur live : Bool) (s : State) : List (SRec × Bool) :=
  let d := !jur
  (committed d s).map (fun r => (r, false))
    ++ (if live then (s.evr.staging.filter (fun r => isDiag r.ty == d)).map (fun r => (r, false))
          ++ (match s.evr.open' with | some o => if isDiag o.ty == d then [(o, true)] else [] | none => [])
        else [])

/-- READ (R431, R432, R445). -/
def evrRead (sel : Nat) (live : Bool) (bad : List Nat) (s : State) : State :=
  let n := rf 0x0F0018 0 9 s
  if rf 0x0F0000 0 1 s = 0 then evrRes 6 s
  else if s.evr.st == .down then evrRes 3 s
  else if s.evr.st == .mounting || s.evr.reading.isSome then evrRes 8 s
  else if (sel ≠ 1 ∧ sel ≠ 2) ∨ n = 0 ∨ 256 < n then evrRes 7 s
  else
    let jur := sel == 1
    let start := rv 0x0F0014 s
    let all := readable jur live s
    let s := setRv 0x0F0020 0 (setRv 0x0F001C 0 (evrRes 0 s))
    let inCleared := match (part (!jur) s).clearedTo with | some c => seqLt start c | none => false
    let oldest := match all with | (r, _) :: _ => some r.seq | [] => none
    let tooNew := !live && (s.evr.seqCommit == 0 || seqLt s.evr.seqCommit start)
    let s := if inCleared then setRf 0x0F0020 13 1 1 s
      else match oldest with
        | some o => if seqLt start o then setRf 0x0F0020 10 1 1 s else s
        | none => s
    if tooNew then setRf 0x0F0020 13 1 1 (setRf 0x0F0020 9 1 1 s)
    else deliver bad Config.readRing.toNat jur live (all.filter (fun r => !(seqLt r.1.seq start))) n 0 s

/-- A READ that waits for room in its ring goes on (R431). -/
def readContinue (s : State) : State :=
  match s.evr.reading with
  | some x =>
    let s1 := { s with evr.reading := none }
    deliver x.bad Config.readRing.toNat x.jur x.live ((readable x.jur x.live s).filter (fun r => !(seqLt r.1.seq x.next))) x.left (rf 0x0F0020 0 9 s) s1
  | none => s

/-- READ_STOP. -/
def evrReadStop (s : State) : State := evrRes 0 { s with evr.reading := none }

/-- FREEZE in EVR_CMD. -/
def execFreeze (dt : Nat) (s : State) : Host.Outcome State Fault Refusal := .next (blockCommand 0xF evrFreeze (begin' dt s))

/-- THAW in EVR_CMD. -/
def execThaw (dt : Nat) (s : State) : Host.Outcome State Fault Refusal := .next (blockCommand 0xF evrThaw (begin' dt s))

/-- FREEZE_TIMEOUT: 60 s since entry (R433). -/
def execFreezeTimeout (dt : Nat) (s : State) : Host.Outcome State Fault Refusal :=
  let s := begin' dt s
  .next (if powered s && s.evr.st == .frozen && secLin s 60 ≤ nowLin s - s.evr.freezeAt then freezeEnd 2 s else s)

/-- CLEAR in EVR_CMD. -/
def execRecorderClear (dt : Nat) (p : BitVec 2) (s : State) : Host.Outcome State Fault Refusal :=
  .next (blockCommand 0xF (evrClear p.toNat) (begin' dt s))

/-- CLEARING_DONE: the background erase ends (R434). -/
def execClearingDone (dt : Nat) (s : State) : Host.Outcome State Fault Refusal :=
  let s := begin' dt s
  .next (if powered s then { s with evr.clearing := false } else s)

/-- READ in EVR_CMD. -/
def execRead (dt : Nat) (p : BitVec 2) (live : Bool) (bad : List Half) (s : State) : Host.Outcome State Fault Refusal :=
  .next (blockCommand 0xF (evrRead p.toNat live (bad.map (·.toNat))) (begin' dt s))

/-- READ_STOP in EVR_CMD. -/
def execReadStop (dt : Nat) (s : State) : Host.Outcome State Fault Refusal := .next (blockCommand 0xF evrReadStop (begin' dt s))

/-! ### Statistics (R442 to R444) -/

/-- Offsets that hold 2-byte counts (R443). -/
def statHalf (off : Nat) : Bool := (0x68 ≤ off && off < 0x80) || (0xE4 ≤ off && off < 0xE8) || (0x280 ≤ off && off < 0x400)

/-- Offsets that hold a largest value, not a count (R443). -/
def statMaxField (off : Nat) : Bool := off == 0x18C || (0xA20 ≤ off && off < 0xAE4)

/-- Keep the larger value of a largest-value field; the temperature is held with bias 2^31. -/
def statMax (off v : Nat) (s : State) : State :=
  let old := match assocGet off s.sta.acc with | some x => x | none => 0
  { s with sta.acc := assocSet off (max old v) s.sta.acc }

/-- Add the gathered counts to the fields of a copy; every field saturates (R442). -/
def statMerge : List (Nat × Nat) → List (Nat × Nat) → List (Nat × Nat)
  | [], c => c
  | (o, v) :: t, c =>
    let old := match assocGet o c with | some x => x | none => 0
    let n := if statMaxField o then max old v else sat (if statHalf o then 0xFFFF else 0xFFFFFFFF) (old + v)
    statMerge t (assocSet o n c)

/-- The copy that counts: the higher `UPD_SEQ` (R442). -/
def statValid (s : State) : Option (Nat × List (Nat × Nat)) :=
  let q (c : List (Nat × Nat)) := match assocGet 8 c with | some x => x | none => 0
  if s.cand.framErr then none else
  match s.cand.stat.c0, s.cand.stat.c1 with
  | some a, some b => if q a < q b then some (1, b) else some (0, a)
  | some a, none => some (0, a)
  | none, some b => some (1, b)
  | none, none => none

/-- Add the counts into a new copy in the older copy's place (R442, R443). -/
def writeStat (s : State) : State :=
  if s.cand.framErr || s.cand.framProt then s
  else
    let base := match statValid s with | some (_, c) => c | none => []
    let seq := (match assocGet 8 base with | some x => x | none => 0) + 1
    let s := if s.sta.cycleDue then { stat 0x18 1 s with sta.cycleDue := false } else s
    let secs := (s.clk.up - s.sta.opFrom) / 100000000
    let s := stat 0x1C secs { s with sta.opFrom := s.sta.opFrom + secs * 100000000 }
    let c := statMerge s.sta.acc base
    let c := assocSet 0 0x54534B48 (assocSet 4 0x0100 (assocSet 8 seq (assocSet 0x10 (now s % 2 ^ 32) (assocSet 0x14 (now s / 2 ^ 32) c))))
    let s := { s with sta.acc := [], sta.lastUpd := nowLin s }
    match statValid s with
    | some (0, _) => { s with cand.stat.c1 := some c, sta.copy := 1 }
    | _ => { s with cand.stat.c0 := some c, sta.copy := 0 }

/-- STAT_UPDATE: every 3,600 s of station time (R442). -/
def execStatUpdate (dt : Nat) (s : State) : Host.Outcome State Fault Refusal :=
  let s := begin' dt s
  .next (if powered s && secLin s 3600 ≤ nowLin s - s.sta.lastUpd then writeStat s else s)

/-- Bins by duration with three limits. -/
def bin3 (x a b c : Nat) : Nat := if x < a then 0 else if x < b then 1 else if x < c then 2 else 3

/-- VIN_SAG: one event of the sag histogram (R444). -/
def execVinSag (dt depthPct durUs : Nat) (s : State) : Host.Outcome State Fault Refusal :=
  let s := begin' dt s
  .next (if powered s && decide (15 ≤ depthPct) then
      stat (0x190 + 4 * (4 * bin3 depthPct 25 40 60 + bin3 durUs 1000 10000 100000)) 1 s
    else s)

/-- TEMPERATURE_SAMPLE: once a minute (R444). -/
def execTemperatureSample (dt : Nat) (tenths : Int) (s : State) : Host.Outcome State Fault Refusal :=
  let s := begin' dt s
  let b : Nat := if tenths < -400 then 0 else if 1250 ≤ tenths then 34 else ((tenths + 450) / 50).toNat
  .next (if powered s then statMax 0x18C (tenths + 2147483648).toNat (stat (0x100 + 4 * b) 1 s) else s)

end Sys2Proof.Machine
end

