-- ==== Sys2Proof/Machine/Rings.lean ====
section
/-! DEFINITION. Rings as the program and the hardware use them: reservations, program records on ring 55, receive rings and packet memory (R358 to R365, R423). -/

namespace Sys2Proof.Machine

/-- Rings on which an item is a descriptor followed by its data entries, towards the hardware (R360). -/
def isTxRing (r : Nat) : Bool := r < 4 || (8 ≤ r && r < 40 && (r - 8) % 8 < 4) || r == 40 || r == 42 || r == 44 || r == 46

/-- Data entries that a descriptor announces: ⌈LEN / 32⌉ (R359). -/
def descData (e : List Byte) : Nat := (fieldAt e 4 2 % 2048 + 31) / 32

/-- Handle of a descriptor. -/
def descHandle (e : List Byte) : Nat := fieldAt e 0 4

/-- POST to a transmit ring by release (task, lane B): whole items only; an item that enters the ring triggers (R141, R362). -/
def postTx (r task : Nat) (b : Bool) (e : List Byte) (s : State) : State :=
  let x := ring r s
  let mine := fun (q : Nat × Bool × Nat × List (List Byte)) => q.1 == task && q.2.1 == b
  let st := stampEntry r (now s) e s
  match x.resv.find? mine with
  | some (_, _, due, got) =>
    let rest := x.resv.filter (fun q => !(mine q))
    let got := got ++ [fitTo 32 e]
    if due ≤ 1 then fireRing r <| ringPush r got (modRing r (fun x => { x with resv := rest }) s)
    else modRing r (fun x => { x with resv := (task, b, due - 1, got) :: rest }) s
  | none =>
    match x.skip.find? (fun q => q.1 == task && q.2.1 == b) with
    | some (_, _, n) =>
      let rest := x.skip.filter (fun q => !(q.1 == task && q.2.1 == b))
      ringOverflow r 0 (modRing r (fun x => { x with skip := if n ≤ 1 then rest else (task, b, n - 1) :: rest }) s)
    | none =>
      let n := descData e
      if ringFree r s < n + 1 then
        ringOverflow r (descHandle e) (if n = 0 then s else modRing r (fun x => { x with skip := (task, b, n) :: x.skip }) s)
      else if n = 0 then fireRing r (ringPush r [st] s)
      else modRing r (fun x => { x with resv := (task, b, n, [st]) :: x.resv }) s

/-- Program records of ring 55 (R423): first entries, following entries, completion, and records that are discarded and counted. -/
def post55 (task : Nat) (b : Bool) (e : List Byte) (s : State) : State :=
  let drop := fun (s : State) => lostNotice (recordLoss s)
  let finish := fun (bytes : List Byte) (s : State) =>
    let ty := fieldAt bytes 8 2
    let len := fieldAt bytes 10 2
    emitAt (fieldAt bytes 0 8) ty ((bytes.take len).drop 24) s
  let first := fun (s : State) =>
    let e := stampEntry 55 (now s) e s
    let len := fieldAt e 10 2
    if bits (fieldAt e 8 2) 8 6 ≠ 0x3F ∨ len < 24 ∨ 256 < len ∨ len % 8 ≠ 0 then drop s
    else if len ≤ 32 then finish e s
    else { s with evr.prog := some (task, b, e, len) }
  match s.evr.prog with
  | some (t, tb, got, len) =>
    if t = task ∧ tb = b then
      let got := got ++ (fitTo 32 e).drop 8
      if len ≤ got.length then finish got { s with evr.prog := none } else { s with evr.prog := some (t, tb, got, len) }
    else first (drop { s with evr.prog := none })
  | none => first s

/-- POST of one entry to a ring of whole 32-B records (R360, R362). -/
def postRecord (r : Nat) (e : List Byte) (s : State) : State :=
  if ringFree r s = 0 then ringOverflow r 0 s
  else fireRing r (ringPush r [stampEntry r (now s) e s] s)

/-- A release ends: its open reservations and its ring-55 record in progress are discarded (R362, R423). -/
def endPosts (task : Nat) (b : Bool) (s : State) : State :=
  let s := match s.evr.prog with
    | some (t, tb, _, _) => if t = task ∧ tb = b then lostNotice (recordLoss { s with evr.prog := none }) else s
    | none => s
  (List.range 64).foldl (fun s r =>
    let x := ring r s
    if x.resv.any (fun q => q.1 == task && q.2.1 == b) || x.skip.any (fun q => q.1 == task && q.2.1 == b) then
      let had := x.resv.any (fun q => q.1 == task && q.2.1 == b)
      let h := match x.resv.find? (fun q => q.1 == task && q.2.1 == b) with | some (_, _, _, d :: _) => descHandle d | _ => 0
      let s := modRing r (fun x => { x with resv := x.resv.filter (fun q => !(q.1 == task && q.2.1 == b)), skip := x.skip.filter (fun q => !(q.1 == task && q.2.1 == b)) }) s
      if had then ringOverflow r h s else s
    else s) s

/-- Cells of packet memory in use (R361). -/
def cellsUsed (s : State) : Nat := s.rings.foldl (fun n x => n + x.cells.foldl (fun m c => m + c.2) 0) 0

/-- Cells that ring `r` holds. -/
def ringCells (r : Nat) (s : State) : Nat := (ring r s).cells.foldl (fun m c => m + c.2) 0

/-- Cells reserved for rings and not in use by them (R361). -/
def cellsReserved (s : State) : Nat :=
  (List.range 64).foldl (fun n r => n + (bits (ringWord r s) 12 13 - ringCells r s)) 0

/-- Ring `r` may take `n` cells: its own reserve first, then the unreserved rest up to MAX_CREDIT (R361). -/
def cellsFor (r n : Nat) (s : State) : Bool :=
  let own := bits (ringWord r s) 12 13 - ringCells r s
  decide (ringCells r s + n ≤ max (bits (ringWord r s) 12 13) (bits (ringWord r s) 25 13))
    && decide (n - min n own + cellsUsed s + cellsReserved s ≤ 4096)

/-- An item arrives in a receive ring: whole, or dropped and counted (R361, R362). `frame` items pass packet memory. -/
def deliverItem (r handle : Nat) (frame : Bool) (desc data : List Byte) (s : State) : State :=
  let es := itemEntries desc data
  let n := (data.length + 255) / 256
  if frame && !(cellsFor r n s) then ringOverflow r handle s
  else if ringFree r s < es.length then
    ringOverflow r handle (if ringVital r s then modRing r (fun x => { x with lostRaise := true }) s else s)
  else
    let raise := (ring r s).lostRaise
    let desc := if raise then desc.take 14 ++ leBytes 2 (sat 0xFFFF (fieldAt desc 14 2 + 1)) ++ desc.drop 16 else desc
    let s := modRing r (fun x => { x with lostRaise := false, cells := if frame then x.cells ++ [(es.length, n)] else x.cells }) s
    let s := ringPush r (itemEntries desc data) s
    let free := 4096 - cellsUsed s
    let s := if free < rf 0x0C0004 16 13 s then setRf 0x0C0004 16 13 free s else s
    fireRing r s

/-- Cells are free again once every entry of the oldest item has left (R361). -/
def cellsRelease : List (Nat × Nat) → List (Nat × Nat)
  | [] => []
  | (e, c) :: t => if e ≤ 1 then t else (e - 1, c) :: t

/-- Take the head entry of a ring. -/
def ringTake (r : Nat) (s : State) : Option (List Byte × State) :=
  match (ring r s).entries with
  | [] => none
  | e :: t => some (e, modRing r (fun x => { x with entries := t, cells := cellsRelease x.cells }) s)

/-- Take a whole item (descriptor and data) from the head of a transmit ring. -/
def ringTakeItem (r : Nat) (s : State) : Option (List Byte × List Byte × State) :=
  match (ring r s).entries with
  | [] => none
  | d :: t =>
    let n := descData d
    let data := ((t.take n).flatten).take (fieldAt d 4 2 % 2048)
    some (d, data, modRing r (fun x => { x with entries := t.drop n }) s)

end Sys2Proof.Machine
end

