-- ==== Sys2Proof/Machine/FieldIn.lean ====
section
/-! DEFINITION. Field pins: inputs, readback, diagnosis, group supply, image freeze (R366 to R376, R384 to R389, R144). -/

namespace Sys2Proof.Machine

/-- A 32-byte element update record (R85). -/
def updateRecord (src elem code : Nat) : List Byte :=
  packFields [(2, 8 + 256 * src), (2, 0), (2, elem), (2, code), (8, 0), (4, 0), (4, 0), (8, 0)]

/-- Records move from ring 50 to the update queue while it has room (R93). -/
def admitUpdates : Nat → State → State
  | 0, s => s
  | n + 1, s =>
    if s.lat.updQ.length < 64 then
      match ringTake 50 s with
      | some (e, s1) => admitUpdates n { s1 with lat.updQ := s1.lat.updQ ++ [e] }
      | none => s
    else s

/-- An update enters ring 50; its overflow is a vital fault (R93). -/
def postUpdate (src elem code : Nat) (s : State) : State :=
  if ringFree 50 s = 0 then vitalFault .ring50 elem s
  else fireRing 50 (admitUpdates 64 (ringPush 50 [stampEntry 50 (now s) (updateRecord src elem code) s] s))

/-! ### Inputs -/

/-- `FILT_OPEN` of Fn. -/
def pinFilt (n : Nat) (s : State) : Nat := bits (pinWord n s) 29 8

/-- Filter window in periods of the reference (R372). -/
def filterUp (n : Nat) (s : State) : Nat := usUp (100 * pinFilt n s)

/-- `ELEM_BIND` and `ELEM` of Fn. -/
def elemBind (n : Nat) (s : State) : Bool := bit (pinWord n s) 7
def pinElem (n : Nat) (s : State) : Nat := bits (pinWord n s) 50 14

/-- The element update of an input with `ELEM_BIND` (R376). -/
def pinUpdate (n : Nat) (s : State) : State :=
  if elemBind n s then
    let on := pinLive n s == 1
    let code := if elemType (pinElem n s) s = 6 then (if on then 0x6699 else 0x6996) else (if on then 0x8877 else 0x8B74)
    postUpdate 0 (pinElem n s) code (modPin n (fun p => { p with posted := true }) s)
  else s

/-- An input record (R374), posted to `EDGE_RING` with `EDGE_LOG`; a full ring drops it (R362). -/
def inputRecord (n : Nat) (rising confirmed merged : Bool) (tEdge tConfirm : Nat) (s : State) : State :=
  let w0 := n + 32 * (if rising then 1 else 2) + 128 * b2n confirmed + 256 * b2n merged + 512 * b2n (pinRestrict n s) + 65536 * pinPoint n s
  let s := fieldLog (.record ((s.fio.seqNo + 1) % 2 ^ 32)) { s with fio.seqNo := (s.fio.seqNo + 1) % 2 ^ 32 }
  let e := packFields [(4, w0), (4, s.fio.seqNo), (8, tEdge), (8, tConfirm), (8, 0)]
  if bit (pinWord n s) 6 then
    let r := s.cfg.edgeRing
    if ringFree r s = 0 then ringOverflow r 0 s else fireRing r (ringPush r [e] s)
  else s

/-- Level class of an input of `MODE` 1 (Type 1) or 2 (Type 3) at `mv` millivolts: 0 OFF, 1 ON, 2 in band (R371). -/
def levelCode (mode mv : Nat) : Nat := if mv ≤ 5000 then 0 else if (if mode = 1 then 15000 else 11000) ≤ mv then 1 else 2

/-- Height of a level, for the direction of a crossing. -/
def levelRank (l : Nat) : Nat := if l = 0 then 0 else if l = 2 then 1 else 2

/-- Nanoseconds in linear units. -/
def nsLin (s : State) (ns : Nat) : Nat := ns * 16384 / cycleUs s

/-- The field sequencer pair restarts. -/
def fieldRestarting (s : State) : Bool := s.tri.field.restart.isSome

/-- INPUT_CROSSING: a crossing to `x.1` millivolts seen `ageNs` after it happened, lasting at least `widthNs` (R371, R373, R374). A record on which the sequencer halves disagree is discarded, and the field side keeps the crossing for the end of the restart (R18, R393). -/
def execInputCrossing (dt : Nat) (n : Fin 32) (x : Nat × Bool) (ageNs widthNs : Nat) (s : State) : Host.Outcome State Fault Refusal :=
  let s := begin' dt s
  let p := pin n.val s
  let c := levelCode (pinMode n.val s) x.1
  .next (if !(powered s) || !(isInput n.val s) || decide (widthNs < 200) || c == p.raw then s
    else
      let st := unlin (nowLin s - nsLin s ageNs)
      let up := s.clk.up - ageNs / 10
      let merged := p.merged || decide (up < p.rawUp + 100 ∧ p.rawUp ≠ 0)
      let s := modPin n.val (fun p => { p with raw := c, rawAt := st, rawUp := up }) s
      if fieldRestarting s then s
      else if x.2 then unitDisagrees .field s
      else
        let s := modPin n.val (fun p => { p with merged := false, edgeNo := p.edgeNo + 1 }) s
        inputRecord n.val (decide (levelRank p.raw < levelRank c)) false merged st 0 s)

/-- A full run of input Fn with value `x` (R372, R374, R376). -/
def confirmRun (n : Nat) (s : State) : State :=
  let p := pin n s
  let x := p.raw == 1
  let was := pinRestrict n s
  let s := modPin n (fun p => { p with filtered := x, filling := false, inBand := false, tEdge := if x != p.filtered then p.rawAt else p.tEdge }) s
  let s := if p.inBand then emit 0x4D01 [(1, n), (2, 6), (1, 0xFF), (4, 0)] s else s
  if x != p.filtered then
    let s := inputRecord n x true false p.rawAt (now s) s
    pinUpdate n (fireEdge (pinPoint n s) (if x then 1 else 2) p.rawAt s)
  else if was then pinUpdate n s
  else s

/-- CONFIRMED_CHANGE: the last W samples read one value that is not yet the filtered one (R372, R374). -/
def execConfirmedChange (dt : Nat) (n : Fin 32) (s : State) : Host.Outcome State Fault Refusal :=
  let s := begin' dt s
  let p := pin n.val s
  .next (if powered s && isInput n.val s && p.raw != 2 && !(fieldRestarting s) && !p.couplerLost && !(unpoweredNow (n.val / 8) s)
      && decide (filterUp n.val s ≤ s.clk.up - p.rawUp) && (p.filling || (p.raw == 1) != p.filtered) then
      confirmRun n.val s
    else s)

/-- PIN_FAULT: pin, flag as its bit in FIO_DIAG with bit 8 for set, partner, first record (R387, R421). -/
def pinFault (n flag : Nat) (set : Bool) (partner first : Nat) (s : State) : State :=
  emit 0x4D01 [(1, n), (2, flag + 256 * b2n set), (1, partner), (4, first)] s

/-- The filter of an input is emptied; an update posted before is followed by the restrictive one (R376). -/
def emptyFilter (n : Nat) (s : State) : State :=
  let was := pinRestrict n s
  let p := pin n s
  let s := modPin n (fun p => { p with filtered := false, filling := true, rawUp := s.clk.up }) s
  if p.posted && !was then pinUpdate n s else s

/-- IN_BAND: in band for longer than the window (R384). -/
def execInBand (dt : Nat) (n : Fin 32) (s : State) : Host.Outcome State Fault Refusal :=
  let s := begin' dt s
  let p := pin n.val s
  .next (if powered s && isInput n.val s && p.raw == 2 && !p.inBand && decide (filterUp n.val s < s.clk.up - p.rawUp) then
      let s := pinFault n.val 6 true 0xFF 0 (emptyFilter n.val s)
      modPin n.val (fun p => { p with inBand := true, rawUp := p.rawUp }) s
    else s)

/-- COUPLER_LOST: no valid message for 20 µs (R384). -/
def execCouplerLost (dt : Nat) (n : Fin 32) (s : State) : Host.Outcome State Fault Refusal :=
  let s := begin' dt s
  let p := pin n.val s
  .next (if powered s && pinMode n.val s != 0 && !p.couplerLost && !(fieldRestarting s) && decide (usUp 20 ≤ s.clk.up - p.msgAt) then
      let s := if isInput n.val s then emptyFilter n.val s else s
      pinFault n.val 7 true 0xFF 0 (modPin n.val (fun p => { p with couplerLost := true }) s)
    else s)

/-! ### Diagnosis of outputs (R384, R385) -/

/-- Statistics field of pin `n`: 0 off-pulses, 1 light tests, 2 STUCK_ON, 3 CROSS, 4 OVERLOAD, 5 DRIVE_FAIL (R443). -/
def pinStat (n k : Nat) (s : State) : State := stat (0x280 + 12 * n + 2 * k) 1 s

/-- STUCK_ON of pin `n`: its group is cut, and its readback watched for 100 ms (R384, R385). -/
def stuckOn (n : Nat) (watch : Bool) (s : State) : State :=
  if (pin n s).stuckOn then s
  else
    let s := modPin n (fun p => { p with stuckOn := true, watchTo := if watch then some (s.clk.up + usUp 100000) else none }) s
    groupFault .stuckOn (2 ^ (n / 8)) n 2 (pinFault n 0 true 0xFF 0 (pinStat n 2 s))

/-- Sequence of the newest PIN_FAULT STUCK_ON record of pin `n` in the recorder, 0 if it has none yet (R385). -/
def stuckSeq (n : Nat) (s : State) : Nat :=
  let f := fun (m : Nat) (r : SRec) => if r.ty == 0x4D01 && fieldAt r.payload 0 1 == n && fieldAt r.payload 1 2 == 256 then r.seq else m
  let a := (committed false s).foldl f 0
  let b := s.evr.staging.foldl f a
  match s.evr.open' with | some o => f b o | none => b

/-- CROSS of pins `m` and `n`: each is the other's partner, and both groups are cut (R384, R385). -/
def crossFault (m n first : Nat) (s : State) : State :=
  let s := modPin m (fun p => { p with cross := true, partner := some n, watchTo := none }) s
  let s := modPin n (fun p => { p with cross := true, partner := some m }) s
  let s := pinFault m 1 true n first (pinStat m 3 (pinStat n 3 s))
  let mask := if m / 8 = n / 8 then 2 ^ (m / 8) else 2 ^ (m / 8) + 2 ^ (n / 8)
  groupFault .cross mask (m + 256 * n) 2 s

/-- Readback and current of the group are ignored during a path test and 150 µs after it (R383). -/
def testShadow (g : Nat) (s : State) : Bool :=
  let x := sgroup g s
  x.testEnd != 0 && decide (s.clk.up - x.testEnd < usUp 150)

/-- The pin whose light test runs. -/
def lightTested (s : State) : Option Nat := allPins.find? (fun n => (pin n s).testing == 2)

/-- The commanded-off check of one readback sample (R384, R385). -/
def offCheck (n : Nat) (rb : Bool) (s : State) : State :=
  let p := pin n s
  if p.cmd || testShadow (n / 8) s || p.testing == 2 || (p.testAt != 0 && p.lastTest != 1 && decide (s.clk.up - p.testAt < usUp 300)) then
    modPin n (fun p => { p with rbHigh := 0 }) s
  else if !rb then modPin n (fun p => { p with rbHigh := 0 }) s
  else
    match (if p.rb then none else lightTested s) with
    | some m => crossFault n m 0 s
    | none =>
      if s.clk.up - p.cmdAt < usUp 300 then s
      else
        let k := p.rbHigh + 1
        let s := modPin n (fun p => { p with rbHigh := k }) s
        if 2 ≤ k then stuckOn n true s else s

/-- Output current of a group, mA. -/
def groupMa (g : Nat) (s : State) : Nat := (groupPins g).foldl (fun m n => if isOutput n s then m + (pin n s).iMa else m) 0

/-- Readback of an output: high at 12.0 V or more, low at 4.0 V or less, in between as it was (R377). -/
def readback (p : Pin) (vDv : Nat) : Bool := if 120 ≤ vDv then true else if vDv ≤ 40 then false else p.rb

/-- FIELD_STATUS_MESSAGE (R367, R384, R394). -/
def execFieldStatus (dt : Nat) (n : Fin 32) (m : StatusMsg) (s : State) : Host.Outcome State Fault Refusal :=
  let s := begin' dt s
  let n := n.val
  .next (if !(powered s) || fieldRestarting s then s
    else if m.disagree then unitDisagrees .field s
    else if !m.good then cnt 0x0D0518 s
    else
      let p := pin n s
      let s := if p.couplerLost then pinFault n 7 false 0xFF 0 s else s
      let c := levelCode (pinMode n s) (100 * m.vDv)
      let rb := readback p m.vDv
      let s := if isInput n s && (c != p.raw || p.couplerLost) then modPin n (fun p => { p with raw := c, rawAt := now s, rawUp := s.clk.up }) s else s
      let s := if isOutput n s then offCheck n rb s else s
      let s := modPin n (fun p => { p with
        couplerLost := false, msgAt := s.clk.up, rb := rb, limit := m.limit, limitFrom := if p.cmd && m.limit then (match p.limitFrom with | some t => some t | none => some s.clk.up) else none, iMa := m.iMa, vDv := m.vDv,
        rbLowFrom := if p.cmd && !rb then (match p.rbLowFrom with | some t => some t | none => some s.clk.up) else none,
        iSum := if p.cmd && p.testing == 0 then p.iSum + m.iMa else p.iSum,
        iCnt := if p.cmd && p.testing == 0 then p.iCnt + 1 else p.iCnt,
        iExcl := p.iExcl || m.limit }) s
      let s := if isOutput n s && p.driveFail && p.cmd && rb then pinFault n 5 false 0xFF 0 (modPin n (fun p => { p with driveFail := false }) s) else s
      let g := n / 8
      let ma := groupMa g s
      setRf (0x0D0020 + 4 * g) 16 13 (max (sat 0x1FFF ma) (rf (0x0D0020 + 4 * g) 16 13 s)) (setRf (0x0D0020 + 4 * g) 0 13 (sat 0x1FFF ma) s))

/-- OPEN_LOAD of one output over the minor cycle (R384). -/
def openLoadPin (s : State) (n : Nat) : State :=
  let p := pin n s
  let s1 := modPin n (fun p => { p with iSum := 0, iCnt := 0, iExcl := false }) s
  if isOutput n s && p.cmd && !p.iExcl && p.iCnt != 0 && pinFilt n s != 0 && !(testShadow (n / 8) s) then
    let low := decide (p.iSum < pinFilt n s * p.iCnt)
    if low != p.openLoad then pinFault n 4 low 0xFF 0 (modPin n (fun p => { p with openLoad := low }) s1) else s1
  else s1

/-- OPEN_LOAD, each minor cycle (R384). -/
def openLoads (s : State) : State := allPins.foldl openLoadPin s

/-! ### Group supply (R388, R389) -/

/-- Code of a band in GROUP_SUPPLY: 0 NORMAL, 1 SAG_WARN, 2 SURGE_WARN, 3 UNPOWERED. -/
def bandCode : Band → Nat
  | .normal => 0
  | .sag => 1
  | .surge => 2
  | .unpowered => 3

/-- Badness of a band, for the worst state of a minor cycle (R388). -/
def bandRank : Band → Nat
  | .normal => 0
  | .surge => 1
  | .sag => 2
  | .unpowered => 3

/-- A group changes band; leaving and re-entering NORMAL is counted (R388, R444). -/
def setBand (g : Nat) (b : Band) (s : State) : State :=
  let x := fgroup g s
  let s1 := emit 0x4D02 [(1, g), (2, bandCode b), (1, 0xFF), (4, 0)] s
  let s1 := if b == .surge then stat (0x260 + 4 * g) 1 s1 else s1
  let s1 :=
    if b == .normal then
      match x.leftAt with
      | some t => if x.worst = 0 then s1 else stat (0x1E0 + 32 * g + 4 * (4 * (x.worst - 1) + bin3 (sinceUs s t) 10000 100000 1000000)) 1 s1
      | none => s1
    else s1
  let w := if b == .unpowered then 2 else if b == .sag then max x.worst 1 else x.worst
  modGroup g (fun x => { x with
    band := b
    seen := if bandRank x.seen < bandRank b then b else x.seen
    leftAt := if b == .normal then none else (match x.leftAt with | some t => some t | none => some (nowLin s))
    worst := if b == .normal then 0 else w }) s1

/-- A minor cycle begins: the flags of the group states start again from the present ones (R388). -/
def seenBands (s : State) : State := (List.range 4).foldl (fun s g => modGroup g (fun x => { x with seen := x.band }) s) s

/-- Entry to UNPOWERED: outputs off, filters emptied, feed withheld, `SNUFF_K` de-energised (R388, R404). -/
def enterUnpowered (g : Nat) (s : State) : State :=
  let s := (groupPins g).foldl (fun s n => if isInput n s then emptyFilter n s else s) s
  let s := pinsOff (groupPins g) (setBand g .unpowered s)
  modSnu g (fun x => { x with unpowAt := some s.clk.up, phase := .open', mismatch := 0 }) (dropK g s)

/-- Exit from UNPOWERED: input filters start filling (R389). -/
def leaveUnpowered (g mv : Nat) (s : State) : State :=
  let s := setBand g (if 30200 < mv then .surge else .normal) s
  let s := modSnu g (fun x => { x with unpowAt := none }) s
  (groupPins g).foldl (fun s n => if isInput n s then modPin n (fun p => { p with rawUp := s.clk.up }) s else s) s

/-- One 100 µs window of a used group (R388). -/
def supplyWindow (g mv : Nat) (s : State) : State :=
  let s := setRf (0x0D0010 + 4 * g) 0 16 (sat 0xFFFF mv) s
  let s := setRf (0x0D0010 + 4 * g) 16 16 (min (sat 0xFFFF mv) (rf (0x0D0010 + 4 * g) 16 16 s)) s
  let s := modGroup g (fun x => { x with low := if mv < 16000 then x.low + 1 else 0, good := if 19500 ≤ mv then x.good + 1 else 0 }) s
  let x := fgroup g s
  match x.band with
  | .unpowered => if 100 ≤ x.good then leaveUnpowered g mv s else s
  | .normal => if 21 ≤ x.low then enterUnpowered g s else if mv < 19200 then setBand g .sag s else if 30200 < mv then setBand g .surge s else s
  | .sag => if 21 ≤ x.low then enterUnpowered g s else if 30200 < mv then setBand g .surge s else if 19500 ≤ mv then setBand g .normal s else s
  | .surge => if mv < 19200 then setBand g .sag s else if mv ≤ 29900 then setBand g .normal s else s

/-- The group monitor works: the module is powered and the group used (R366, R370). -/
def monitored (g : Nat) (s : State) : Bool := powered s && groupUsed g s

/-- SUPPLY_WINDOW. -/
def execSupplyWindow (dt : Nat) (g : Fin 4) (mv : Nat) (s : State) : Host.Outcome State Fault Refusal :=
  let s := begin' dt s
  .next (if monitored g.val s then supplyWindow g.val mv s else s)

/-- UNPOWERED: the 21st window below 16.0 V (R388). -/
def execUnpowered (dt : Nat) (g : Fin 4) (mv : Nat) (s : State) : Host.Outcome State Fault Refusal :=
  let s := begin' dt s
  .next (if monitored g.val s && decide (mv < 16000) && decide (20 ≤ (fgroup g.val s).low) && !(unpoweredNow g.val s) then supplyWindow g.val mv s else s)

/-- UNPOWERED_EXIT: the window that completes 10 ms at or above 19.5 V (R388, R389). -/
def execUnpoweredExit (dt : Nat) (g : Fin 4) (mv : Nat) (s : State) : Host.Outcome State Fault Refusal :=
  let s := begin' dt s
  .next (if monitored g.val s && decide (19500 ≤ mv) && decide (99 ≤ (fgroup g.val s).good) && unpoweredNow g.val s then supplyWindow g.val mv s else s)

/-- INPUT_FREEZE at its position, once in the cycle (R144). -/
def execInputFreeze (dt : Nat) (s : State) : Host.Outcome State Fault Refusal :=
  let s := begin' dt s
  .next (if s.pwr.phase == .running && !s.prg.frozen && decide (s.cfg.tasks.inFreeze ≤ position s) then freezeInputs s else s)

end Sys2Proof.Machine
end

