-- ==== Sys2Proof/Machine/FieldOut.lean ====
section
/-! DEFINITION. Field pins: outputs, tests, latches, refresh (R377 to R386, R390, R391). -/

namespace Sys2Proof.Machine

/-- `EN` of FIO_CTL (R397). -/
def fioEn (s : State) : Bool := rf 0x0D0000 0 1 s == 1

/-- Output Fn is gated by the permit of a SIGNAL (R369). -/
def gated (n : Nat) (s : State) : Bool := pinMode n s == 3 && elemBind n s

/-- The group is cut: latched, or from KDROP until it has closed again (R377, R410). -/
def groupCut (g : Nat) (s : State) : Bool := (sgroup g s).cut || (sgroup g s).kdrop || (fgroup g s).cut

/-- All conditions of R377 but the permit. -/
def driveBase (n : Nat) (s : State) : Bool :=
  isOutput n s && !(pin n s).latched && appliedValue (pinPoint n s) s == 1
    && !(groupCut (n / 8) s) && !(unpoweredNow (n / 8) s) && !(safeState s) && fioEn s

/-- The sequencer may command Fn on (R377). -/
def mayDrive (n : Nat) (s : State) : Bool := driveBase n s && (!(gated n s) || permitSet (pinElem n s) s)

/-- On command for Fn: its frame refreshes the field side, and a test of the slot is given up (R378, R383, R390). -/
def pinOn (n : Nat) (s : State) : State :=
  sendPin n true 0 (modPin n (fun p => { p with cmd := true, waiting := false, cmdAt := s.clk.up, rbLowFrom := none, limitFrom := none, rbHigh := 0, testing := 0, refreshAt := s.clk.up }) s)

/-- Points that an output pin or an output binding names (R135). -/
def outputPoints (s : State) : List Nat :=
  (allPins.filter (fun n => isOutput n s)).map (fun n => pinPoint n s)
    ++ (s.cfg.bindings.filter (fun b => b.output)).map (fun b => b.point)

/-- The output image as it stands, with forces applied (R145, R163). -/
def applyImage (s : State) : List Nat → List (Nat × Nat) → List (Nat × Nat)
  | [], l => l
  | p :: t, l =>
    let v := memNat (0x07020000 + 8 * p) 4 s.mem
    applyImage s t (assocSet p (match forceOn true p s with | some f => f + 2 ^ 32 | none => v) l)

/-- `FORCED` of each configured output point in the output image: set under a force, otherwise clear; what the program wrote stays (R135, R163). -/
def markForced : List Nat → State → State
  | [], s => s
  | p :: t, s =>
    let a := 0x07020000 + 8 * p + 4
    let v := memNat a 1 s.mem
    let w := setBits v 0 1 (b2n (forceOn true p s).isSome)
    markForced t (if v = w then s else { s with mem := storeBytes a (leBytes 1 w) s.mem })

/-- Unlatches that take effect at an apply (R386). -/
def unlatchPins (s : State) : State :=
  allPins.foldl (fun s n =>
    if bit s.fio.unlatch n && isOutput n s && ((pin n s).latched || (pin n s).timedOut) then
      let s := if (pin n s).overload then pinFault n 2 false 0xFF 0 s else s
      let s := cnt 0x0D050C (modPin n (fun p => { p with latched := false, overload := false, unlatch := p.timedOut }) s)
      emit 0x4D03 [(1, n), (2, 3), (1, 0xFF), (4, 0)] s
    else s) s |> fun s => { s with fio.unlatch := 0, fio.journal := if s.fio.unlatch = 0 then s.fio.journal else s.fio.journal ++ [.unlatch 0] }

/-- `PERMIT_OFF`: held off by permit gating alone (R379). -/
def permitFlags (s : State) : State :=
  allPins.foldl (fun s n => modPin n (fun p => { p with permitOff := gated n s && driveBase n s && !(permitSet (pinElem n s) s) }) s) s

/-- Off commands for the pins that may no longer be on (R377 to R379). -/
def switchOffs (s : State) : State :=
  allPins.foldl (fun s n => if ((pin n s).cmd || (pin n s).waiting) && !(mayDrive n s) then pinOff n s else s) s

/-- Switch-ons: up to four at once, more in ascending pin order 10 µs apart (R378). -/
def switchOns (s : State) : State :=
  let l := allPins.filter (fun n => !(pin n s).cmd && mayDrive n s)
  if l.length ≤ 4 then l.foldl (fun s n => pinOn n s) s
  else
    match l with
    | [] => s
    | n :: t => t.foldl (fun s m => modPin m (fun p => { p with waiting := true }) s) { pinOn n s with fio.staggerAt := s.clk.up }

/-- The sequencer's part of an apply (R378, R386). -/
def sequencerApply (s : State) : State := switchOns (switchOffs (permitFlags (unlatchPins s)))

/-- OUT_APPLY: the output image as it stands is applied. While a duplex unit restarts the outputs hold, and it is carried out at the end; so is one on which the sequencer halves disagree (R18, R23, R145, R194, R394). -/
def applyOutputs (disagree : Bool) (s : State) : State :=
  let s := markForced (outputPoints s) { s with prg.applied := applyImage s (outputPoints s) [], prg.appliedNow := true }
  if anyRestart s then { s with fio.applyDue := true }
  else if disagree then unitDisagrees .field { s with fio.applyDue := true }
  else sequencerApply s

/-- OUTPUT_APPLY at its position, once in the cycle (R145). -/
def execOutputApply (x : Nat × Bool) (s : State) : Host.Outcome State Fault Refusal :=
  let s := begin' x.1 s
  .next (if s.pwr.phase == .running && !s.prg.appliedNow && decide (s.cfg.tasks.outApply ≤ position s) then applyOutputs x.2 s else s)

/-- PERMIT_WITHDRAWAL: bound pins whose permit is gone switch off at once; waiting ones are not issued (R379, R394). -/
def permitFollow (s : State) : State :=
  if fieldRestarting s then { s with fio.permitDue := true }
  else
    permitFlags (allPins.foldl (fun s n =>
      if gated n s && ((pin n s).cmd || (pin n s).waiting) && !(permitSet (pinElem n s) s) then pinOff n s else s) s)

/-- STAGGERED_SWITCH_ON: the lowest waiting pin, 10 µs after the previous one, if R377 still holds (R378, R379). -/
def execStaggeredSwitchOn (dt : Nat) (n : Fin 32) (s : State) : Host.Outcome State Fault Refusal :=
  let s := begin' dt s
  let lowest := allPins.find? (fun m => (pin m s).waiting)
  .next (if powered s && lowest == some n.val && !(anyRestart s) && decide (usUp 10 ≤ s.clk.up - s.fio.staggerAt) then
      let s := { s with fio.staggerAt := s.clk.up }
      if mayDrive n.val s then pinOn n.val s else modPin n.val (fun p => { p with waiting := false }) s
    else s)

/-! ### Tests (R380 to R385) -/

/-- Tests of group `g` may run (R383). -/
def testsAllowed (g : Nat) (s : State) : Bool := inNormal s && !s.cfg.split && !(groupCut g s) && !(unpoweredNow g s)

/-- The test of pin `n` starts (R380). -/
def startTest (n : Nat) (s : State) : State :=
  let p := pin n s
  if p.cmd && !(bit (pinWord n s) 5) then
    sendPin n true 1 (modPin n (fun p => { p with testing := 1, testAt := s.clk.up, preMa := p.iMa, swallowed := false }) s)
  else if !p.cmd && bit (pinWord n s) 3 then
    sendPin n false 2 (modPin n (fun p => { p with testing := 2, testAt := s.clk.up, swallowed := false }) s)
  else s

/-- TEST_SLOT of pin Fn (R380, R383). -/
def execTestSlot (dt : Nat) (n : Fin 32) (s : State) : Host.Outcome State Fault Refusal :=
  let s := begin' dt s
  let inSlot := testPos s % 3125
  .next (if isOutput n.val s && testsAllowed (n.val / 8) s && testSlotNow s == n.val && decide (usUp inSlot ≤ s.clk.up - (pin n.val s).cmdAt)
      && (pin n.val s).testing == 0 && ((pin n.val s).testAt == 0 || decide (usUp inSlot < s.clk.up - (pin n.val s).testAt)) then
      if fieldRestarting s then modPin n.val (fun p => { p with swallowed := true }) s else startTest n.val s
    else s)

/-- The partner of a failed off-pulse: the largest rise of at least 40 % and 10 mA (R385). -/
def crossPartner (n pre : Nat) (s : State) : List (Fin 32 × Nat × Nat) → Option (Nat × Nat) → Option (Nat × Nat)
  | [], best => best
  | (m, before, during) :: t, best =>
    let rise := during - before
    let ok := m.val ≠ n ∧ (pin m.val s).cmd = true ∧ 40 * pre ≤ 100 * rise ∧ 10 ≤ rise
    let better := match best with | some (_, r) => r < rise | none => true
    crossPartner n pre s t (if ok ∧ better = true then some (m.val, rise) else best)

/-- Watched pins whose readback falls within the off-pulse of `n` are crossed with it (R385). -/
def watchFalls (n : Nat) : List (Fin 32) → State → State
  | [], s => s
  | m :: t, s =>
    let p := pin m.val s
    let live := match p.watchTo with | some x => decide (s.clk.up ≤ x) | none => false
    watchFalls n t (if live && m.val / 8 != n / 8 then crossFault m.val n (stuckSeq m.val s) s else s)

/-- An off-pulse passes when the readback has been low for 10 µs no later than 290 µs after its start (R381). -/
def pulsePasses (r : PulseIn) : Bool :=
  match r.lowUs with
  | some t => decide (t + 10 ≤ 290)
  | none => false

/-- OFF_PULSE_END (R381, R384, R385). -/
def execOffPulseEnd (dt : Nat) (n : Fin 32) (r : PulseIn) (s : State) : Host.Outcome State Fault Refusal :=
  let s := begin' dt s
  let n := n.val
  .next (if powered s && (pin n s).testing == 1 then
      let pre := (pin n s).preMa
      let s := modPin n (fun p => { p with testing := 0, lastTest := if pulsePasses r then 1 else 3, rbLowFrom := none }) s
      let s := watchFalls n r.falls s
      if pulsePasses r then s
      else
        let s := pinStat n 0 (cnt 0x0D0500 s)
        match crossPartner n pre s r.rises none with
        | some (m, _) => crossFault n m 0 s
        | none => stuckOn n false s
    else s)

/-- Rises on commanded-off pins during a light test (R385). -/
def lightRises (n : Nat) : List (Fin 32) → State → State
  | [], s => s
  | m :: t, s =>
    lightRises n t (if m.val ≠ n ∧ isOutput m.val s = true ∧ (pin m.val s).cmd = false ∧ (pin m.val s).cross = false then crossFault m.val n 0 s else s)

/-- LIGHT_TEST_END (R382, R384, R385). -/
def execLightTestEnd (dt : Nat) (n : Fin 32) (highUs : Option Nat) (rises : List (Fin 32)) (s : State) : Host.Outcome State Fault Refusal :=
  let s := begin' dt s
  let n := n.val
  .next (if powered s && (pin n s).testing == 2 then
      let was := (pin n s).driveFail
      let high := match highUs with | some t => decide (t ≤ 100) | none => false
      let s := modPin n (fun p => { p with testing := 0, lastTest := if high then 2 else 3, driveFail := !high }) s
      let s := if high then s else pinStat n 5 (pinStat n 1 (cnt 0x0D0504 s))
      let s := if was != !high then pinFault n 5 (!high) 0xFF 0 s else s
      lightRises n rises s
    else s)

/-- CROSS_WATCH_END: the 100 ms of R385 have passed; the finding stays STUCK_ON. -/
def execCrossWatchEnd (dt : Nat) (n : Fin 32) (s : State) : Host.Outcome State Fault Refusal :=
  let s := begin' dt s
  .next (match (pin n.val s).watchTo with
    | some t => if t ≤ s.clk.up then modPin n.val (fun p => { p with watchTo := none }) s else s
    | none => s)

/-- A pin is latched off by an overload (R384, R386). -/
def latchOff (n : Nat) (s : State) : State :=
  let s := pinOff n (pinStat n 4 (cnt 0x0D0508 s))
  pinFault n 2 true 0xFF 0 (modPin n (fun p => { p with latched := true, overload := true }) s)

/-- OVERLOAD: the current limit has been active for more than 5 ms, or the switch has shut down by temperature (R384). -/
def execOverload (dt : Nat) (n : Fin 32) (thermal : Bool) (s : State) : Host.Outcome State Fault Refusal :=
  let s := begin' dt s
  let held := match (pin n.val s).limitFrom with | some t => decide (usUp 5000 < s.clk.up - t) | none => false
  .next (if powered s && isOutput n.val s && (pin n.val s).cmd && (thermal || held) then latchOff n.val s else s)

/-- The energised pin with the highest current. -/
def highestPin (g : Nat) (s : State) : Option Nat :=
  (groupPins g).foldl (fun b n =>
    if isOutput n s && (pin n s).cmd then
      match b with
      | some m => if (pin m s).iMa < (pin n s).iMa then some n else b
      | none => some n
    else b) none

/-- GROUP_OVERLOAD: one 1 ms average of the group current. From the sixth above 4.0 A in a row, each latches a pin off (R384). -/
def execGroupOverload (dt : Nat) (g : Fin 4) (ma : Nat) (s : State) : Host.Outcome State Fault Refusal :=
  let s := begin' dt s
  .next (if powered s then
      let s := modGroup g.val (fun x => { x with overMs := if 4000 < ma then x.overMs + 1 else 0 }) s
      if 6 ≤ (fgroup g.val s).overMs then
        match highestPin g.val s with
        | some n => latchOff n s
        | none => s
      else s
    else s)

/-- DRIVE_FAIL: readback low for more than 300 µs while commanded on, powered, not limited, not pulsed (R384). -/
def execDriveFail (dt : Nat) (n : Fin 32) (s : State) : Host.Outcome State Fault Refusal :=
  let s := begin' dt s
  let p := pin n.val s
  .next (match p.rbLowFrom with
    | some t =>
      if powered s && isOutput n.val s && p.cmd && !(unpoweredNow (n.val / 8) s) && !p.limit && p.testing == 0 && !p.driveFail
          && !(testShadow (n.val / 8) s) && decide (usUp 300 < s.clk.up - t) then
        pinFault n.val 5 true 0xFF 0 (pinStat n.val 5 (modPin n.val (fun p => { p with driveFail := true }) s))
      else s
    | none => s)

/-! ### Refresh and latches (R386, R390, R391) -/

/-- REFRESH_FRAME at every multiple of 500 µs: a frame that passes its check restarts the refresh timer (R390). -/
def execRefreshFrame (dt : Nat) (n : Fin 32) (good : Bool) (s : State) : Host.Outcome State Fault Refusal :=
  let s := begin' dt s
  let n := n.val
  let p := pin n s
  .next (if powered s && pinMode n s != 0 && position s % 500 == 0 && !(fieldRestarting s) && !(isOutput n s && p.couplerLost) then
      let s := sendPin n p.cmd 0 s
      if good then
        let s := if p.timedOut && p.unlatch then pinFault n 8 false 0xFF 0 s else s
        modPin n (fun p => { p with refreshAt := s.clk.up, timedOut := p.timedOut && !p.unlatch, unlatch := false }) s
      else cnt 0x0D0518 s
    else s)

/-- `REFRESH` of Fn in ms: 0 means 3 (R369). -/
def refreshMs (n : Nat) (s : State) : Nat := let v := bits (pinWord n s) 9 6; if v = 0 then 3 else v

/-- TIMED_OUT: the field side takes the pin to its safe state and holds it until an unlatch (R386, R390). -/
def execTimedOut (dt : Nat) (n : Fin 32) (s : State) : Host.Outcome State Fault Refusal :=
  let s := begin' dt s
  let n := n.val
  let p := pin n s
  .next (if powered s && isOutput n s && !p.timedOut && decide (usUp (1000 * refreshMs n s) ≤ s.clk.up - p.refreshAt) then
      let on := pinMode n s == 4 && bit (pinWord n s) 4
      pinFault n 8 true 0xFF 0 (modPin n (fun p => { p with timedOut := true, latched := true, cmd := on, waiting := false, testing := 0, rbLowFrom := none, rbHigh := 0 }) s)
    else s)

/-- A write of FIO_UNLATCH counts for the pins whose output point commands off; it takes effect at the next apply (R386). -/
def unlatchWrite (mask : Nat) (s : State) : State :=
  let k := allPins.foldl (fun m n => if bit mask n && isOutput n s && appliedValue (pinPoint n s) s != 1 then Nat.lor m (2 ^ n) else m) s.fio.unlatch
  fieldLog (.unlatch k) { s with fio.unlatch := k }

/-- UNLATCH (R386). -/
def execUnlatch (dt : Nat) (mask : Half) (s : State) : Host.Outcome State Fault Refusal :=
  .next (blockCommand 0xD (unlatchWrite mask.toNat) (begin' dt s))

/-- Compare point `n` is due: left over from the cycle before, or reached in this one and not yet fired (R143). -/
def cpDue (n : Nat) (s : State) : Bool :=
  let p := s.prg.cps.getD n 0xFFFF
  s.prg.cpLate.getD n false || (p != 0xFFFF && !(s.prg.cpFired.getD n false) && decide (p ≤ position s))

/-- It has fired: the one left over first. -/
def cpMark (n : Nat) (s : State) : State :=
  if s.prg.cpLate.getD n false then { s with prg.cpLate := s.prg.cpLate.set n false } else { s with prg.cpFired := s.prg.cpFired.set n true }

/-- COMPARE_POINT: compare point `n` fires once in the cycle, at or after its macrotick, in a stall at its end (R143). -/
def execComparePoint (dt : Nat) (n : Fin 8) (s : State) : Host.Outcome State Fault Refusal :=
  let s := begin' dt s
  .next (if inNormal s && s.tri.stallFrom.isNone && cpDue n.val s then firePosition n.val (cpMark n.val s) else s)

end Sys2Proof.Machine
end

