-- ==== Sys2Proof/Machine/LatTx.lean ====
section
/-! DEFINITION. The lattice tables and one commit of the engine: records, codes, lock and proof checks, locking, releasing, and the evaluation of routes (R62 to R83, R99 to R103). -/

namespace Sys2Proof.Machine

/-! ### Codes (R69, R70, R83, R99) -/

def lockFree : Nat := 0x9966
def lockRoute : Nat := 0x9A65
def lockFlank : Nat := 0x9C63
def lockOverlap : Nat := 0x9F60
def lockBlocked : Nat := 0xA55A
def lockHeld : Nat := 0xA659
def rIdle : Nat := 0xE11E
def rLocked : Nat := 0xE718
def rProved : Nat := 0xE817
def rPermit : Nat := 0xEB14
def rOccupied : Nat := 0xED12
def rReleasing : Nat := 0xEE11
def rApproach : Nat := 0xF00F
def rCancel : Nat := 0xF30C
def ovFree : Nat := 0xC33C
def ovLocked : Nat := 0xC53A
def ovTiming : Nat := 0xC639

/-- The route state codes (R99). -/
def routeCodes : List Nat := [rIdle, 0xE21D, 0xE41B, rLocked, rProved, rPermit, rOccupied, rReleasing, rApproach, rCancel]

/-- The lock codes (R70). -/
def lockCodes : List Nat := [lockFree, lockRoute, lockFlank, lockOverlap, lockBlocked, lockHeld]

/-- The defined states of an element type; `coded`: a GENERIC element that carries route states (R69). -/
def stateCodes (ty : Nat) (coded : Bool) : List Nat :=
  if ty = 1 then [0x11EE, 0x12ED]
  else if ty = 2 then [0x21DE, 0x22DD, 0x24DB, 0x27D8]
  else if ty = 3 then [0x33CC, 0x35CA, 0x36C9]
  else if ty = 4 then [0x41BE, 0x42BD]
  else if ty = 5 then [0x55AA, 0x56A9, 0x5AA5]
  else if ty = 6 then [0x6699, 0x6996]
  else if ty = 7 then [0x7887, 0x7B84]
  else if ty = 8 then (if coded then routeCodes else [0x8877, 0x8B74])
  else []

/-! ### Records (R72 to R83) -/

/-- Addresses of the dynamic words, table P (R62). -/
def elemAddr (e : Nat) : Nat := 0x100400000 + 16 * e
def routeAddr (r : Nat) : Nat := 0x100480000 + 8 * r
def ovAddr (o : Nat) : Nat := 0x100490000 + 8 * o

/-- A route record (R72). -/
structure RouteRec where
  valid : Bool
  kind : Nat
  reclear : Bool
  entrySig : Nat
  hasOv : Bool
  ov : Nat
  elist : Nat
  elen : Nat
  flist : Nat
  flen : Nat
  alist : Nat
  alen : Nat
  apprTime : Nat
  beyond : Nat
  border : Nat
  cancelTime : Nat
  /-- `RCHECK` passes (R60). -/
  ok : Bool

/-- Word `i` of the record at `a`. -/
def recWord (a i : Nat) (m : List Host.Cell) : Nat := memNat (a + 4 * i) 4 m

/-- The route record of `r`. -/
def routeRec (r : Nat) (m : List Host.Cell) : RouteRec :=
  let a := 0x1004A0000 + 32 * r
  let w := fun i => recWord a i m
  { valid := bit (w 0) 12, kind := bits (w 0) 13 2, reclear := bit (w 0) 15, entrySig := bits (w 0) 16 15,
    hasOv := bit (w 1) 26, ov := bits (w 1) 15 11, elist := bits (w 2) 0 17, elen := bits (w 2) 17 7 + 1,
    flist := bits (w 3) 0 15, flen := bits (w 3) 15 7, alist := bits (w 4) 0 17, alen := bits (w 4) 17 3,
    apprTime := bits (w 4) 20 10, beyond := bits (w 5) 0 15, border := bits (w 5) 15 15, cancelTime := bits (w 6) 0 6,
    ok := crc32c (memRead a 28 m) == w 7 }

/-- An overlap record (R78): first entry, length, valid, time, check. -/
structure OvRec where
  first : Nat
  len : Nat
  valid : Bool
  time : Nat
  ok : Bool

/-- The overlap record of `o`. -/
def ovRec (o : Nat) (m : List Host.Cell) : OvRec :=
  let a := 0x1004C0000 + 16 * o
  let w := fun i => recWord a i m
  { first := bits (w 0) 0 17, len := bits (w 0) 17 5 + 1, valid := bit (w 0) 22, time := bits (w 1) 0 10, ok := crc32c (memRead a 12 m) == w 3 }

/-- An element, overlap or approach list entry (R73). -/
structure LatEntry where
  elem : Nat
  cond : Nat
  sect : Nat

/-- Entries of the element list pool. -/
def poolList (first n : Nat) (m : List Host.Cell) : List LatEntry :=
  (List.range n).map (fun i =>
    let w := memNat (0x100500000 + 4 * (first + i)) 4 m
    { elem := bits w 0 14, cond := bits w 14 3, sect := bits w 17 7 })

/-- A flank list entry (R79). -/
structure FlankEntry where
  elem : Nat
  pos : Nat
  prove : Bool
  sect : Nat

/-- Entries of the flank list pool. -/
def flankList (first n : Nat) (m : List Host.Cell) : List FlankEntry :=
  (List.range n).map (fun i =>
    let w := memNat (0x1004D0000 + 4 * (first + i)) 4 m
    { elem := bits w 0 14, pos := bits w 14 2, prove := bit w 16, sect := bits w 17 7 })

/-- The index entries of an element: (number, kind) (R81). -/
def indexOf (e : Nat) (m : List Host.Cell) : List (Nat × Nat) :=
  let h := memNat (0x1004F0000 + 4 * e) 4 m
  (List.range (bits h 18 9)).map (fun i =>
    let w := memNat (0x100580000 + 2 * (bits h 0 18 + i)) 2 m
    (bits w 0 12, bits w 12 2))

/-- Configuration half of an element. -/
def elemConf (e : Nat) (m : List Host.Cell) : Nat := memNat (elemAddr e + 8) 8 m

/-- `TYPE` of an element. -/
def tyOf (e : Nat) (m : List Host.Cell) : Nat := bits (elemConf e m) 0 4

/-- A GENERIC element that carries route states (R69). -/
def coded (e : Nat) (m : List Host.Cell) : Bool :=
  let c := elemConf e m
  bits c 0 4 == 8 && (bit c 7 || (bit c 4 && (indexOf e m).any (fun x =>
    let r := routeRec x.1 m
    (x.2 == 3 && r.border == e) || (x.2 == 0 && (poolList r.elist r.elen m).any (fun q => q.elem == e && q.cond == 4)))))

/-- `STATE` as the engine reads it: 0 stands for UNKNOWN (R68). -/
def stateOf (e : Nat) (m : List Host.Cell) : Nat :=
  let v := memNat (elemAddr e) 2 m
  if (stateCodes (tyOf e m) (coded e m)).contains v then v else 0

/-- `LOCK` as the engine reads it: an undefined value is BLOCKED (R68). -/
def lockOf (e : Nat) (m : List Host.Cell) : Nat :=
  let v := memNat (elemAddr e + 2) 2 m
  if lockCodes.contains v then v else lockBlocked

/-- Fields of the state half (R65). -/
def ownerOf (e : Nat) (m : List Host.Cell) : Nat := bits (memNat (elemAddr e) 8 m) 32 12
def flankCnt (e : Nat) (m : List Host.Cell) : Nat := bits (memNat (elemAddr e) 8 m) 44 6
def heldPos (e : Nat) (m : List Host.Cell) : Nat := bits (memNat (elemAddr e) 8 m) 50 2

/-! ### Conditions (R75, R76, R80, R100) -/

/-- Lock check of a state under a condition (R75). -/
def lockState (cond ty st : Nat) : Bool :=
  if cond = 3 then st != 0
  else if cond = 4 then st == rLocked || st == rProved
  else if cond = 2 then st != 0
  else if ty = 1 then st == 0x11EE
  else if ty = 3 then st == 0x33CC
  else if ty = 5 then st == 0x55AA
  else if ty = 6 then st == 0x6699
  else if ty = 7 then st == 0x7887
  else if ty = 8 then st == 0x8877
  else st != 0

/-- Proof check of a state under a condition (R75). -/
def proofState (cond ty st : Nat) : Bool :=
  if cond = 3 then st != 0
  else if cond = 4 then st == rProved
  else if cond = 2 then st == 0x22DD
  else if ty = 1 then st == 0x11EE
  else if ty = 2 then st == 0x21DE
  else if ty = 3 then st == 0x33CC || st == 0x35CA
  else if ty = 4 then st == 0x41BE
  else if ty = 5 then st == 0x55AA
  else if ty = 6 then st == 0x6699
  else if ty = 7 then st == 0x7887
  else st == 0x8877

/-- Position that a path condition needs of a POINT (R76). -/
def condPos (cond : Nat) : Nat := if cond = 1 then 1 else if cond = 2 then 2 else 3

/-- Smallest of two reasons. -/
def minReason : Option Nat → Option Nat → Option Nat
  | some a, some b => some (min a b)
  | some a, none => some a
  | none, b => b

/-- Reason for which a state fails its lock check (R87). -/
def stateReason (cond ty st : Nat) : Option Nat :=
  if lockState cond ty st then none else if st = 0 then some 1 else if ty = 1 then some 2 else some 7

/-- Reason for which the lock of a path or overlap element refuses (R76, R78, R112). -/
def lockReason (cond ty lock held : Nat) : Option Nat :=
  if lock = lockFree then none
  else if lock = lockRoute ∨ lock = lockOverlap then some 3
  else if lock = lockFlank then
    (if ty = 3 then none else if ty = 2 ∧ cond ≠ 3 ∧ held = condPos cond then none else some 4)
  else if lock = lockHeld then some 6
  else some 5

/-- Lock check of a path or overlap entry (R76, R78, R88). -/
def entryReason (m : List Host.Cell) (q : LatEntry) : Option Nat :=
  let ty := tyOf q.elem m
  minReason (stateReason q.cond ty (stateOf q.elem m)) (lockReason q.cond ty (lockOf q.elem m) (heldPos q.elem m))

/-- Lock check of a flank entry (R80). -/
def flankReason (m : List Host.Cell) (q : FlankEntry) : Option Nat :=
  let full := if flankCnt q.elem m = 63 then some 8 else none
  if tyOf q.elem m = 2 then
    let l := lockOf q.elem m
    minReason (if stateOf q.elem m = 0 then some 1 else none)
      (minReason (if heldPos q.elem m ≠ 0 ∧ heldPos q.elem m ≠ q.pos then some (if l = lockHeld then 6 else 4) else none)
        (minReason (if l = lockBlocked then some 5 else if l = lockHeld then some 6 else none) full))
  else minReason (if bits (memNat (elemAddr q.elem) 8 m) 52 2 = 2 then some 9 else none) full

/-- Proof check of a list entry (R75). -/
def entryProved (m : List Host.Cell) (q : LatEntry) : Bool := proofState q.cond (tyOf q.elem m) (stateOf q.elem m)

/-- The lists of a route. -/
def pathOf (x : RouteRec) (m : List Host.Cell) : List LatEntry := poolList x.elist x.elen m
def flanksOf (x : RouteRec) (m : List Host.Cell) : List FlankEntry := flankList x.flist x.flen m
def ovPath (x : RouteRec) (m : List Host.Cell) : List LatEntry :=
  if x.hasOv then (let o := ovRec x.ov m; poolList o.first o.len m) else []

/-- Points proved (R100). -/
def pointsProved (x : RouteRec) (m : List Host.Cell) : Bool :=
  (pathOf x m ++ ovPath x m).all (fun q => tyOf q.elem m != 2 || entryProved m q)
    && (flanksOf x m).all (fun q => tyOf q.elem m != 2 || !q.prove || stateOf q.elem m == (if q.pos = 1 then 0x21DE else 0x22DD))

/-- All proofs hold (R100). -/
def allProofs (x : RouteRec) (m : List Host.Cell) : Bool :=
  pointsProved x m && (pathOf x m ++ ovPath x m).all (entryProved m) && (x.kind == 0 || stateOf x.border m == rProved)

/-- TRACK elements of a section. -/
def sectionTracks (x : RouteRec) (k : Nat) (m : List Host.Cell) : List Nat :=
  ((pathOf x m).filter (fun q => q.sect == k && tyOf q.elem m == 1)).map (fun q => q.elem)

/-- A section is occupied; a section is clear (R100). -/
def sectOcc (x : RouteRec) (k : Nat) (m : List Host.Cell) : Bool := (sectionTracks x k m).any (fun e => stateOf e m == 0x12ED)
def sectClear (x : RouteRec) (k : Nat) (m : List Host.Cell) : Bool := (sectionTracks x k m).all (fun e => stateOf e m == 0x11EE)

/-- The last section of a route (R74). -/
def lastSection (x : RouteRec) (m : List Host.Cell) : Nat := (pathOf x m).foldl (fun k q => max k q.sect) 0

/-- The approach is clear (R100). -/
def approachClear (x : RouteRec) (m : List Host.Cell) : Bool :=
  decide (1 ≤ x.alen) && (poolList x.alist x.alen m).all (fun q => stateOf q.elem m == 0x11EE)

/-! ### A commit in the making (R59, R89, R90, R119) -/

/-- What one request, update or timer step computes before it is committed. -/
structure LatTx where
  m : List Host.Cell
  /-- Table P addresses written. -/
  words : List Nat := []
  /-- Notices: kind, number, value, element (R90). -/
  notes : List (Nat × Nat × Nat × Nat) := []
  /-- Timers that wait for the next boundary (R104). -/
  starting : List (Bool × Nat) := []
  /-- Elements whose state or lock changed, and routes, still to be evaluated (R101). -/
  touched : List Nat := []
  todo : List Nat := []
  /-- The element whose state this update changed (R102: a section becomes clear). -/
  chg : Option Nat := none
  /-- An undefined route or overlap state: a unit fault (R68, R101). -/
  bad : Bool := false
  /-- A record's check word fails: a vital fault (R60). -/
  check : Bool := false
  /-- A permit was cleared. -/
  permOff : Bool := false
  /-- Cycle count, cycle length in µs; timers may expire in this evaluation. -/
  cyc : Nat := 0
  us : Nat := 1000
  expire : Bool := true

/-- Write a dynamic word to table P and, complemented, to table N (R58). -/
def txWrite (a v : Nat) (t : LatTx) : LatTx :=
  { t with
    m := memSetList (invWord a) (leBytes 8 (2 ^ 64 - 1 - v % 2 ^ 64)) (memSetList a (leBytes 8 v) t.m)
    words := if t.words.contains a then t.words else t.words ++ [a] }

/-- The words at the addresses of `l` as `m` holds them are stored to tables P and N of `to`. -/
def storeWords (m : List Host.Cell) (l : List Nat) (dst : List Host.Cell) : List Host.Cell :=
  l.foldl (fun d a => memSetList (invWord a) (leBytes 8 (2 ^ 64 - 1 - memNat a 8 m)) (memSetList a (memRead a 8 m) d)) dst

/-- A state half; a change of state, lock or flank count calls for evaluation (R81, R101). -/
def txElem (e v : Nat) (t : LatTx) : LatTx :=
  let old := memNat (elemAddr e) 8 t.m
  if old = v then t
  else
    let t1 := txWrite (elemAddr e) v t
    if bits old 0 52 = bits v 0 52 then t1 else { t1 with touched := t1.touched ++ [e] }

/-- The state half of an element. -/
def txGet (e : Nat) (t : LatTx) : Nat := memNat (elemAddr e) 8 t.m

/-- Route state word and code. -/
def rWord (r : Nat) (m : List Host.Cell) : Nat := memNat (routeAddr r) 8 m
def rState (r : Nat) (m : List Host.Cell) : Nat := bits (rWord r m) 0 16

/-- Overlap state word. -/
def oWord (o : Nat) (m : List Host.Cell) : Nat := memNat (ovAddr o) 8 m

/-- Elements that mirror route `r` (R67, R115). -/
def mirrorsOf (r : Nat) (m : List Host.Cell) : List Nat :=
  ((memSlice 0x100400000 0x100440000 m).filter (fun c => c.1 % 16 == 8 && c.2.toNat.testBit 7)).filterMap (fun c =>
    let e := (c.1 - 0x100400008) / 16
    let w := elemConf e m
    if bits w 0 4 = 8 ∧ bits w 8 12 = r then some e else none)

/-- A route's word; a new state forms a notice and is mirrored (R90, R115). -/
def txRoute (r v : Nat) (t : LatTx) : LatTx :=
  let old := rWord r t.m
  if old = v then t
  else
    let t1 := txWrite (routeAddr r) v t
    if bits old 0 16 = bits v 0 16 then t1
    else
      let t2 := { t1 with notes := t1.notes ++ [(1, r, bits v 0 16, 0)] }
      (mirrorsOf r t2.m).foldl (fun t e => txElem e (setBits (setBits (txGet e t) 0 16 (bits v 0 16)) 56 8 0) t) t2

/-- A route's state code alone. -/
def txState (r code : Nat) (t : LatTx) : LatTx := txRoute r (setBits (rWord r t.m) 0 16 code) t

/-- An overlap's word; a new state forms a notice (R90). -/
def txOverlap (o v : Nat) (t : LatTx) : LatTx :=
  let old := oWord o t.m
  if old = v then t
  else
    let t1 := txWrite (ovAddr o) v t
    if bits old 0 16 = bits v 0 16 then t1 else { t1 with notes := t1.notes ++ [(2, o, bits v 0 16, 0)] }

/-- `PERMIT` of a signal set or cleared by a transition of route `r` (R90, R106). -/
def txPermit (e r : Nat) (on : Bool) (t : LatTx) : LatTx :=
  let v := setBits (txGet e t) 52 2 (if on then 2 else 0)
  if 16384 ≤ e ∨ v = txGet e t then t
  else
    let t1 := txElem e v t
    { t1 with notes := t1.notes ++ [(3, r, if on then 2 else 0, e)], permOff := t1.permOff || !on }

/-- A route or overlap lock goes: FLANK_LOCKED while flanks are counted, else FREE with no held position (R71). -/
def unlockWord (v : Nat) : Nat :=
  if bits v 44 6 = 0 then setBits (setBits v 16 16 lockFree) 50 2 0 else setBits v 16 16 lockFlank

/-- Release one element locked by `lock` for owner `n`. -/
def txUnlock (e lock n : Nat) (t : LatTx) : LatTx :=
  let v := txGet e t
  if bits v 16 16 = lock ∧ bits v 32 12 = n then txElem e (unlockWord v) t else t

/-- One flank holder less (R71, R102). -/
def txUnflank (e : Nat) (t : LatTx) : LatTx :=
  let v := txGet e t
  if bits v 44 6 = 0 then t
  else
    let w := setBits v 44 6 (bits v 44 6 - 1)
    txElem e (if bits w 16 16 = lockFlank ∧ bits w 44 6 = 0 then setBits (setBits w 16 16 lockFree) 50 2 0 else w) t

/-- The overlap of a route becomes free with its elements (R103). -/
def txFreeOverlap (o : Nat) (t : LatTx) : LatTx :=
  let x := ovRec o t.m
  if !x.ok then { t with check := true }
  else
    let t1 := txOverlap o (setBits (oWord o t.m) 0 16 ovFree) t
    let t2 := { t1 with starting := t1.starting.filter (fun s => !(s.1 && s.2 == o)) }
    (poolList x.first x.len t2.m).foldl (fun t q => txUnlock q.elem lockOverlap o t) t2

/-- A timer of a route no longer runs. -/
def txStop (r : Nat) (t : LatTx) : LatTx := { t with starting := t.starting.filter (fun s => s.1 || s.2 != r) }

/-- A timer of a route starts at the next boundary (R104). -/
def txStart (r : Nat) (t : LatTx) : LatTx := { txStop r t with starting := (txStop r t).starting ++ [(false, r)] }

/-- Flank locks of the sections from `k` (all of them) or of section `k` alone. -/
def txUnflanks (x : RouteRec) (k : Nat) (only : Bool) (t : LatTx) : LatTx :=
  (flanksOf x t.m).foldl (fun t q => if (if only then q.sect == k else decide (k ≤ q.sect)) then txUnflank q.elem t else t) t

/-- A route returns to IDLE: every lock it still holds goes, its overlap becomes free, its permit is cleared (R101, R103, R106). -/
def txIdle (r : Nat) (x : RouteRec) (t : LatTx) : LatTx :=
  let w := rWord r t.m
  let permit := bits w 0 16 == rPermit
  let t := txState r rIdle (txStop r t)
  let t := if permit then txPermit x.entrySig r false t else t
  let t := (pathOf x t.m).foldl (fun t q => txUnlock q.elem lockRoute r t) t
  let t := txUnflanks x (bits w 16 7) false t
  if x.hasOv ∧ bits (oWord x.ov t.m) 0 16 ≠ ovFree ∧ bits (oWord x.ov t.m) 16 12 = r then txFreeOverlap x.ov t else t

/-- Cycles that a configured time takes (R104). -/
def timerCycles (us sec : Nat) : Nat := (sec * 1000000 + us - 1) / us

/-- The timer of a word has run (R104). -/
def timerDone (w sec : Nat) (ov : Bool) (n : Nat) (t : LatTx) : Bool :=
  !(t.starting.contains (ov, n)) && decide (timerCycles t.us sec ≤ (t.cyc + 2 ^ 32 - bits w 32 32) % 2 ^ 32)

/-- The entry signal proves stop. -/
def entryStop (x : RouteRec) (m : List Host.Cell) : Bool := decide (x.entrySig < 16384) && stateOf x.entrySig m == 0x33CC

/-- Release of section `k` (R102). -/
def txRelease (r k : Nat) (x : RouteRec) (t : LatTx) : LatTx :=
  if k = lastSection x t.m then txIdle r x t
  else
    let w := setBits (setBits (setBits (rWord r t.m) 16 7 (k + 1)) 23 1 1) 0 16 rReleasing
    let t := txRoute r w t
    let t := (pathOf x t.m).foldl (fun t q => if q.sect = k then txUnlock q.elem lockRoute r t else t) t
    txUnflanks x k true t

/-- Section `k` becomes clear in this update (R102). -/
def becomesClear (x : RouteRec) (k : Nat) (t : LatTx) : Bool :=
  match t.chg with
  | some e => (sectionTracks x k t.m).contains e && sectClear x k t.m
  | none => false

/-- A train in the route: seen flags and releases (R102). -/
def evalTrain (r : Nat) (x : RouteRec) (t : LatTx) : Option LatTx :=
  let w := rWord r t.m
  let k := bits w 16 7
  let last := lastSection x t.m
  let lastOcc := sectOcc x last t.m
  let w1 := if sectOcc x k t.m then setBits w 23 1 1 else w
  let w2 := if lastOcc ∧ x.beyond < 16384 ∧ stateOf x.beyond t.m = 0x12ED then setBits w1 25 1 1 else w1
  if w2 ≠ w then some (txRoute r w2 t)
  else if bit w 23 && becomesClear x k t
      && (if k = last then decide (16384 ≤ x.beyond) || bit w 25 else sectOcc x (k + 1) t.m) then
    some (txRelease r k x t)
  else none

/-- Leaving PERMIT for OCCUPIED, or a waiting route that a train has entered (R101). -/
def txOccupy (r : Nat) (x : RouteRec) (t : LatTx) : LatTx :=
  let permit := rState r t.m == rPermit
  let t := txRoute r (setBits (setBits (rWord r t.m) 23 1 1) 0 16 rOccupied) (txStop r t)
  if permit then txPermit x.entrySig r false t else t

/-- The overlap of a route whose last section is occupied: its timer starts once, whatever the route's state (R103). -/
def evalOverlap (r : Nat) (x : RouteRec) (t : LatTx) : Option LatTx :=
  if x.hasOv && bits (oWord x.ov t.m) 0 16 == ovLocked && bits (oWord x.ov t.m) 16 12 == r && (ovRec x.ov t.m).time != 0 && sectOcc x (lastSection x t.m) t.m then
    let t1 := txOverlap x.ov (setBits (oWord x.ov t.m) 0 16 ovTiming) t
    some { t1 with starting := t1.starting ++ [(true, x.ov)] }
  else none

/-- The row of R101 that applies to route `r` in state `st`, if any. -/
def evalRow (r st : Nat) (x : RouteRec) (t : LatTx) : Option LatTx :=
  let w := rWord r t.m
  if st = rLocked then (if pointsProved x t.m then some (txState r rProved t) else none)
  else if st = rProved then
    if !(pointsProved x t.m) then some (txState r rLocked t)
    else if allProofs x t.m && x.kind != 3 && !(bit w 24) && decide (x.entrySig < 16384) && flankCnt x.entrySig t.m == 0 then
      some (txPermit x.entrySig r true (txState r rPermit t))
    else none
  else if st = rPermit then
    if sectOcc x 0 t.m then some (txOccupy r x t)
    else if !(allProofs x t.m) || flankCnt x.entrySig t.m != 0 || !(sectClear x 0 t.m) then
      let w1 := setBits w 0 16 (if pointsProved x t.m then rProved else rLocked)
      some (txPermit x.entrySig r false (txRoute r (if x.reclear then w1 else setBits w1 24 1 1) t))
    else none
  else if st = rCancel then
    if sectOcc x 0 t.m then some (txOccupy r x t)
    else if entryStop x t.m && sectClear x 0 t.m then some (txIdle r x t)
    else none
  else if st = rApproach then
    if sectOcc x 0 t.m then some (txOccupy r x t)
    else if t.expire && timerDone w x.apprTime false r t && entryStop x t.m && sectClear x 0 t.m then some (txIdle r x t)
    else none
  else if st = rOccupied ∨ st = rReleasing then evalTrain r x t
  else none

/-- One row of R101 or R103 that applies to route `r`, if any; its record and codes are checked first (R60, R68). -/
def evalStep (r : Nat) (t : LatTx) : Option LatTx :=
  let w := rWord r t.m
  let st := bits w 0 16
  if st = rIdle then none
  else if !(routeCodes.contains st) then (if t.bad then none else some { t with bad := true })
  else
    let x := routeRec r t.m
    if !x.ok || (x.hasOv && !(ovRec x.ov t.m).ok) then (if t.check then none else some { t with check := true })
    else if x.hasOv && !([ovFree, ovLocked, ovTiming].contains (bits (oWord x.ov t.m) 0 16)) then (if t.bad then none else some { t with bad := true })
    else (evalRow r st x t).orElse (fun _ => evalOverlap r x t)

/-- Routes that an element's index calls for: routes of kinds 0, 2, 3, and the holder of an overlap (R81). -/
def routesOf (e : Nat) (m : List Host.Cell) : List Nat :=
  (indexOf e m).filterMap (fun x =>
    if x.2 = 1 then (if bits (oWord x.1 m) 0 16 = ovFree then none else some (bits (oWord x.1 m) 16 12)) else some x.1)

/-- Evaluation goes on until no row applies (R101). -/
def settle : Nat → LatTx → LatTx
  | 0, t => t
  | n + 1, t =>
    if t.bad || t.check then t
    else
      match t.todo with
      | r :: rest =>
        match evalStep r t with
        | some t1 => settle n { t1 with todo := r :: rest }
        | none => settle n { t with todo := rest }
      | [] =>
        match t.touched with
        | e :: rest => settle n { t with touched := rest, todo := routesOf e t.m }
        | [] => t

/-- Bound on evaluation steps: far above what one commit can set off. -/
def settleFuel : Nat := 1000000

/-- A commit in the making over the present tables. -/
def txOf (s : State) : LatTx := { m := s.mem, starting := s.lat.starting, cyc := s.clk.cycle, us := cycleUs s }

end Sys2Proof.Machine
end

