-- ==== Sys2Proof/Machine/Lattice.lean ====
section
/-! DEFINITION. The lattice engine's requests, updates, results, notices and timers (R84 to R121, R541 to R543). -/

namespace Sys2Proof.Machine

/-! ### Results, notices, commits -/

/-- Fields of a request or update record (R85). -/
def qOp (e : List Byte) : Nat := fieldAt e 0 1 % 16
def qStep (e : List Byte) : Nat := fieldAt e 0 1 / 16
def qSrc (e : List Byte) : Nat := fieldAt e 1 1
def qTag (e : List Byte) : Nat := fieldAt e 2 2
def qTarget (e : List Byte) : Nat := fieldAt e 4 2 % 16384
def qState (e : List Byte) : Nat := fieldAt e 6 2
def qArr (e : List Byte) : Nat := fieldAt e 8 8
def qHandle (e : List Byte) : Nat := fieldAt e 16 4
def qToken (e : List Byte) : Nat := fieldAt e 20 4

/-- Word 1 bits [15:14] and words 6 and 7 are 0 (R85). -/
def qSpare (e : List Byte) : Bool := fieldAt e 4 2 / 16384 == 0 && fieldAt e 24 8 == 0

/-- One result record is written to ring 51 with its stamp and `RSEQ`, and handed to the recorder (R86, R543). -/
def putResult (x : LatResult) (s : State) : State :=
  let seq := (s.lat.rseq + 1) % 2 ^ 32
  let t := now s
  let b := packFields [(4, x.w0), (4, x.w1), (8, x.tArr), (8, t), (4, x.rstate), (4, seq)]
  let res := bits x.w0 4 4
  let s := { s with lat.rseq := seq, lat.waiting := none, lat.pauseSeen := false }
  let s := if res = 5 then cnt 0x060008 s else if res = 3 ∨ res = 4 then cnt 0x06000C s else if res = 6 then cnt 0x060010 s else s
  let ns := (lin t - lin x.tArr) * cycleUs s * 1000 / 16384000
  let s := setRf 0x060028 0 16 (max (rf 0x060028 0 16 s) (sat 0xFFFF ns)) s
  emitAt t 0x0601 b (fireRing 51 (ringPush 51 [b] s))

/-- A result: written, or held while ring 51 is full (R94). -/
def result (x : LatResult) (s : State) : State :=
  if ringFree 51 s = 0 then { s with lat.waiting := some x, lat.pausedAt := s.clk.up, lat.pauseSeen := false } else putResult x s

/-- Words 0 and 1 of a result (R86). -/
def resultOf (e : List Byte) (res reason detail : Nat) (s : State) : LatResult :=
  { w0 := qOp e + 16 * res + 256 * reason + 65536 * qTag e
    w1 := qTarget e + 65536 * (detail % 16384)
    tArr := qArr e
    rstate := if (qOp e == 1 || qOp e == 2) && decide (qTarget e < 4096) then rState (qTarget e) s.mem else 0 }

/-- A notice is formed: written to ring 52 or dropped, and handed to the recorder (R90, R543). -/
def notice (x : Nat × Nat × Nat × Nat) (s : State) : State :=
  let (kind, number, value, elem) := x
  let seq := (s.lat.nseq + 1) % 2 ^ 32
  let t := now s
  let full := ringFree 52 s == 0
  let w0 := kind + 16 * number + (if s.lat.lost && !full then 2 ^ 31 else 0)
  let b := packFields [(4, w0), (4, value + 65536 * elem), (8, t), (8, 0), (4, 0), (4, seq)]
  let s := { s with lat.nseq := seq, lat.lost := full }
  let s := if full then cnt 0x060018 s else fireNotice kind number w0 (fireRing 52 (ringPush 52 [b] s))
  emitAt t 0x0602 b s

/-- Notices in order. -/
def notices : List (Nat × Nat × Nat × Nat) → State → State
  | [], s => s
  | x :: t, s => notices t (notice x s)

/-- The journal entry of a commit (R119). -/
def journalEntry (kind rseq stamp : Nat) (t : LatTx) : List Byte :=
  packFields [(1, kind), (1, 0), (2, t.words.length), (4, rseq), (8, stamp)]
    ++ (t.words.map (fun a => packFields [(4, a - 0x100000000), (4, 0), (8, memNat a 8 t.m)])).flatten

/-- Journal bytes of this generation (R119). -/
def journalBytes (s : State) : Nat := s.lat.journal.foldl (fun n e => n + e.length) 0

/-- Mirror of a journal entry in parts of 1,056 B (R49, R56). -/
def mirrorParts : List (List Byte) → State → State
  | [], s => s
  | p :: t, s => mirrorParts t (mirror 1 1 p s)

/-- Used elements other than ZONE: the low byte of the configuration half names a type (R105, R542). -/
def agingElems (m : List Host.Cell) : List Nat :=
  ((memSlice 0x100400000 0x100440000 m).filter (fun c => c.1 % 16 == 8 && c.2.toNat % 16 != 0 && c.2.toNat % 16 != 7)).map (fun c => (c.1 - 0x100400008) / 16)

/-- `AGE` of every used element, +1 and saturating, in both tables. -/
def ageAll (m : List Host.Cell) : List Host.Cell :=
  (agingElems m).foldl (fun m e =>
    let a := elemAddr e + 7
    let v := sat 255 ((memGet a m).toNat + 1)
    memSet (invWord (elemAddr e) + 7) (BitVec.ofNat 8 (255 - v)) (memSet a (BitVec.ofNat 8 v) m)) m

/-- One 16-B part of an entry into the P tables (R119). -/
def journalPart (m : List Host.Cell) (p : List Byte) : List Host.Cell :=
  if p.length = 16 then memSetList (0x100000000 + fieldAt p 0 4) (p.drop 8) m else m

/-- An entry into the P tables: its words, and where it is the first of its timer step the `AGE` increments; `aged` is the stamp of the last step whose increments are in (R119). -/
def journalInto (x : List Host.Cell × Option Nat) (e : List Byte) : List Host.Cell × Option Nat :=
  let st := fieldAt e 8 8
  let step := fieldAt e 0 1 == 3 && x.2 != some st
  ((chunks 16 (fieldAt e 2 2) (e.drop 16)).foldl journalPart (if step then ageAll x.1 else x.1), if step then some st else x.2)

/-- The P tables of a snapshot and its journal (R119, R121). -/
def restoreTables (snap : List Host.Cell) (journal : List (List Byte)) (m : List Host.Cell) : List Host.Cell :=
  let kept := m.filter (fun c => !((decide (0x100400000 ≤ c.1) && decide (c.1 < 0x100440000) && decide (c.1 % 16 < 8))
    || (decide (0x100480000 ≤ c.1) && decide (c.1 < 0x100488000)) || (decide (0x100490000 ≤ c.1) && decide (c.1 < 0x100494000))))
  (journal.foldl journalInto (snap.foldl (fun m c => memSet c.1 c.2 m) kept, none)).1

/-- What becomes of a finished computation: a check failure is a vital fault, an undefined code a unit fault; a full journal admits no request and no update; else `done` follows the commit (R59, R60, R68, R119, R120). `step`: the timer step's first commit, which takes the `AGE` increments and is journalled whatever it writes. -/
def latCommit (kind rseq stamp : Nat) (step : Bool) (t : LatTx) (s : State) (done : State → State) : State :=
  if t.check then vitalFault .engine 0 s
  else if t.bad then unitDisagrees .lattice s
  else
    let e := journalEntry kind rseq stamp t
    let n := if t.words.isEmpty && !step then 0 else e.length
    if kind != 3 && decide (262144 < journalBytes s + n) then { s with lat.jfull := true }
    else
      let s := { s with mem := storeWords t.m t.words (if step then ageAll s.mem else s.mem), lat.starting := t.starting, lat.journal := if n = 0 then s.lat.journal else s.lat.journal ++ [e] }
      let s := if n = 0 then s else mirrorParts (chunks 1056 400 e) s
      let s := notices t.notes s
      done (if t.permOff then permitFollow s else s)

/-! ### The queue (R91, R92) -/

/-- The engine works: module in service, no restart, no pause, journal not full (R94, R120, R121). -/
def latRuns (s : State) : Bool :=
  s.pwr.phase == .running && s.tri.lattice.restart.isNone && s.lat.waiting.isNone && !s.lat.jfull

/-- The stamp is at least 40 ns old; one ahead of station time, which was set since, counts as old (R91). -/
def seasoned (arr : Nat) (s : State) : Bool :=
  decide (nowLin s < lin arr) || decide (40 * 16384000 ≤ (nowLin s - lin arr) * (1000 * cycleUs s))

/-- The request whose turn it is: the queue's head, unless an update is as old or older (R91). -/
def nextRequest (s : State) : Option LatReq :=
  match s.lat.reqQ with
  | [] => none
  | q :: _ =>
    if !(seasoned (qArr q.entry) s) then none
    else match s.lat.updQ with
      | u :: _ => if qArr u ≤ qArr q.entry then none else some q
      | [] => some q

/-- The update whose turn it is. -/
def nextUpdate (s : State) : Option (List Byte) :=
  match s.lat.updQ with
  | [] => none
  | u :: _ =>
    if !(seasoned (qArr u) s) then none
    else match s.lat.reqQ with
      | q :: _ => if qArr u ≤ qArr q.entry then some u else none
      | [] => some u

/-- BUSY refusals whose turn it is, at most `n` (R92). -/
def drainBusy : Nat → State → State
  | 0, s => s
  | n + 1, s =>
    match nextRequest s with
    | some q =>
      if q.busy && latRuns s then drainBusy n (result (resultOf q.entry 5 0x30 0 s) { s with lat.reqQ := s.lat.reqQ.drop 1 })
      else s
    | none => s

/-- Every BUSY refusal whose turn it is (R92, R97). -/
def drain (s : State) : State := drainBusy s.lat.reqQ.length s

/-- The last request of the list that holds a place gives it up. -/
def yieldPlace : List LatReq → List LatReq
  | [] => []
  | q :: t => if q.busy || t.any (fun x => !x.busy) then q :: yieldPlace t else { q with busy := true } :: t

/-- A request at its place in the arrival order: at equal stamps ring 48 before ring 49, whose last request then loses the place that the earlier one takes (R91, R92). -/
def insertReq (q : LatReq) (l : List LatReq) : List LatReq :=
  let later := fun (x : LatReq) => q.ring == 48 && x.ring == 49 && qArr x.entry == qArr q.entry
  let a := l.takeWhile (fun x => !(later x))
  let b := l.dropWhile (fun x => !(later x))
  if q.busy && b.any (fun x => !x.busy) then a ++ { q with busy := false } :: yieldPlace b else a ++ q :: b

/-- A request enters ring 48 or 49 and the engine's queue; one that arrives while 256 wait is marked BUSY (R92). -/
def postRequest (r : Nat) (e : List Byte) (s : State) : State :=
  let q : LatReq := { ring := r, entry := stampEntry r (now s) e s, busy := decide (256 ≤ (s.lat.reqQ.filter (fun q => !q.busy)).length) }
  drain (fireRing r { s with lat.reqQ := insertReq q s.lat.reqQ })

/-- What the engine decides of a request: result, reason, detail and the computation. -/
structure Decision where
  res : Nat
  reason : Nat := 0
  detail : Nat := 0
  tx : LatTx

/-- Refusals leave everything unchanged (R87). -/
def refuse (res reason detail : Nat) (s : State) : Decision := { res := res, reason := reason, detail := detail, tx := txOf s }

/-- Commit of a decision, its result, then the BUSY refusals behind it. -/
def decideReq (q : LatReq) (d : Decision) (s : State) : State :=
  latCommit 1 ((s.lat.rseq + 1) % 2 ^ 32) (qArr q.entry) false d.tx s (fun s =>
    let s := { s with lat.reqQ := s.lat.reqQ.drop 1 }
    drain (result (resultOf q.entry d.res d.reason d.detail s) s))

/-- INVALID conditions that hold for every operation: WRONG_RING, RESERVED (R541). -/
def commonInvalid (q : LatReq) : Option Nat :=
  let e := q.entry
  let em := qOp e == 7
  if em && (q.ring != 48 || qToken e == 0) then some 0x24
  else if (!em && qStep e != 0) || qSrc e != 0 || qState e != 0 || (q.ring == 48 && qHandle e != 0) || (!em && qToken e != 0) || !(qSpare e) then some 0x23
  else none

/-- The object controller role holds no routes (R110). -/
def objectController (s : State) : Bool := s.cfg.role == 2

/-! ### SET and CANCEL (R88, R101, R116, R117) -/

/-- First entry that fails: reason and element. -/
def firstFail (f : α → Option Nat) (elem : α → Nat) (l : List α) : Option (Nat × Nat) :=
  firstSome (fun q => match f q with | some r => some (r, elem q) | none => none) l

/-- The scan of SET in its order (R88). -/
def scanSet (x : RouteRec) (m : List Host.Cell) : Option (Nat × Nat) :=
  match firstFail (entryReason m) (fun q => q.elem) (pathOf x m) with
  | some f => some f
  | none =>
    if x.hasOv ∧ bits (oWord x.ov m) 0 16 ≠ ovFree then some (0x0A, x.ov)
    else
      match firstFail (entryReason m) (fun q => q.elem) (ovPath x m) with
      | some f => some f
      | none =>
        match firstFail (flankReason m) (fun q => q.elem) (flanksOf x m) with
        | some f => some f
        | none =>
          if x.kind = 2 then
            let st := stateOf x.border m
            if lockState 4 8 st then none else some (if st = 0 then 1 else 7, x.border)
          else none

/-- The lowest-numbered conflicting route that is not IDLE (R87, R98). -/
def conflictOf (r : Nat) (m : List Host.Cell) : Option Nat :=
  let row := memSlice (0x100000000 + 512 * r) (0x100000000 + 512 * r + 512) m
  firstSome (fun (c : Host.Cell) =>
    (List.range 8).find? (fun i => c.2.toNat.testBit i && rState (8 * (c.1 - (0x100000000 + 512 * r)) + i) m != rIdle)
      |>.map (fun i => 8 * (c.1 - (0x100000000 + 512 * r)) + i)) row

/-- Lock an element of a path or overlap list: a ZONE is never locked, a ROUTE_HALF entry not in a path (R66, R76, R78). -/
def txLock (lock n : Nat) (q : LatEntry) (t : LatTx) : LatTx :=
  let ty := tyOf q.elem t.m
  if ty = 7 ∨ (q.cond = 4 ∧ lock = lockRoute) then t
  else
    let v := setBits (setBits (txGet q.elem t) 16 16 lock) 32 12 n
    txElem q.elem (if ty = 2 then setBits v 50 2 (condPos q.cond) else v) t

/-- Hold an element as flank (R80). -/
def txFlank (q : FlankEntry) (t : LatTx) : LatTx :=
  let v := txGet q.elem t
  let v := setBits v 44 6 (bits v 44 6 + 1)
  let v := if tyOf q.elem t.m = 2 then setBits v 50 2 q.pos else v
  txElem q.elem (if bits v 16 16 = lockFree then setBits v 16 16 lockFlank else v) t

/-- The atomic lock of a SET (R76, R78, R80, R101). -/
def txSet (r : Nat) (x : RouteRec) (t : LatTx) : LatTx :=
  let t := (pathOf x t.m).foldl (fun t q => txLock lockRoute r q t) t
  let t := (ovPath x t.m).foldl (fun t q => txLock lockOverlap x.ov q t) t
  let t := (flanksOf x t.m).foldl (fun t q => txFlank q t) t
  let t := if x.hasOv then txOverlap x.ov (setBits (setBits (oWord x.ov t.m) 0 16 ovLocked) 16 12 r) t else t
  txRoute r (setBits (setBits (setBits (rWord r t.m) 0 16 rLocked) 16 7 0) 23 3 0) t

/-- A route that a request may name: configured (R87). -/
def routeKnown (r : Nat) (s : State) : Bool := decide (r < 4096) && (routeRec r s.mem).valid && !(objectController s)

/-- Evaluation of the route that a request targets, and of all that follows (R101). -/
def settleRoute (r : Nat) (t : LatTx) : LatTx := settle settleFuel { t with todo := [r] }

/-- A record that fails its check stops the decision (R60). -/
def checked (x : RouteRec) (s : State) : Bool := x.ok && (!x.hasOv || (ovRec x.ov s.mem).ok)

/-- The route's state, or that of its overlap, is not a defined code: a unit fault (R68). -/
def codeBad (r : Nat) (x : RouteRec) (s : State) : Bool :=
  !(routeCodes.contains (rState r s.mem)) || (x.hasOv && !([ovFree, ovLocked, ovTiming].contains (bits (oWord x.ov s.mem) 0 16)))

/-- SET (R101). -/
def decideSet (q : LatReq) (s : State) : Decision :=
  let r := qTarget q.entry
  match commonInvalid q with
  | some c => refuse 6 c 0 s
  | none =>
    if !(routeKnown r s) then refuse 6 0x21 0 s
    else
      let x := routeRec r s.mem
      let st := rState r s.mem
      if !(checked x s) then { res := 6, tx := { txOf s with check := true } }
      else if codeBad r x s then { res := 6, tx := { txOf s with bad := true } }
      else if st = rLocked ∨ st = rProved then
        { res := 1, tx := settleRoute r (txRoute r (setBits (rWord r s.mem) 24 1 0) (txOf s)) }
      else if st ≠ rIdle then refuse 6 0x22 0 s
      else
        match conflictOf r s.mem with
        | some j => refuse 3 0x10 j s
        | none =>
          match scanSet x s.mem with
          | some (c, d) => refuse 4 c d s
          | none => { res := 1, tx := settleRoute r (txSet r x (txOf s)) }

/-- CANCEL (R101, R117). -/
def decideCancel (q : LatReq) (s : State) : Decision :=
  let r := qTarget q.entry
  match commonInvalid q with
  | some c => refuse 6 c 0 s
  | none =>
    if !(routeKnown r s) then refuse 6 0x21 0 s
    else
      let x := routeRec r s.mem
      let st := rState r s.mem
      let b := stateOf x.border s.mem
      if !(checked x s) then { res := 6, tx := { txOf s with check := true } }
      else if codeBad r x s then { res := 6, tx := { txOf s with bad := true } }
      else if x.kind = 3 ∧ b ≠ rIdle ∧ b ≠ rLocked ∧ b ≠ rProved then refuse 6 0x22 0 s
      else if st = rLocked ∨ st = rProved then { res := 2, tx := settleRoute r (txIdle r x (txOf s)) }
      else if st = rPermit then
        let t := txState r (if approachClear x s.mem then rCancel else rApproach) (txOf s)
        { res := 2, tx := settleRoute r (txStart r (txPermit x.entrySig r false t)) }
      else refuse 6 0x22 0 s

/-! ### Element operations (R111, R112) -/

/-- Element operations share their INVALID checks; `f` decides (R111, R541). -/
def decideElem (q : LatReq) (s : State) (f : Nat → Nat → Decision) : Decision :=
  let e := qTarget q.entry
  match commonInvalid q with
  | some c => refuse 6 c 0 s
  | none => if tyOf e s.mem = 0 then refuse 6 0x21 0 s else f e (lockOf e s.mem)

/-- An element operation that succeeds: the word changes and the element's index is evaluated (R101). -/
def acceptElem (e v : Nat) (s : State) : Decision := { res := 2, tx := settle settleFuel (txElem e v (txOf s)) }

/-- Reason by lock for ELEMENT_BLOCK and POINT_LOCK (R111). -/
def blockReason (lock cntFlank : Nat) : Option Nat :=
  if lock = lockRoute ∨ lock = lockOverlap then some 3
  else if lock = lockFlank then some 4
  else if lock = lockHeld then some 6
  else if lock = lockFree then (if cntFlank = 0 then none else some 4)
  else some 5

/-- ELEMENT_BLOCK. -/
def decideBlock (q : LatReq) (s : State) : Decision :=
  decideElem q s (fun e lock =>
    if tyOf e s.mem = 7 then refuse 6 0x26 0 s
    else match blockReason lock (flankCnt e s.mem) with
      | some c => refuse 4 c e s
      | none => acceptElem e (setBits (memNat (elemAddr e) 8 s.mem) 16 16 lockBlocked) s)

/-- ELEMENT_UNBLOCK. -/
def decideUnblock (q : LatReq) (s : State) : Decision :=
  decideElem q s (fun e lock =>
    if lock = lockBlocked then acceptElem e (setBits (memNat (elemAddr e) 8 s.mem) 16 16 lockFree) s else refuse 6 0x22 0 s)

/-- POINT_LOCK. -/
def decidePointLock (q : LatReq) (s : State) : Decision :=
  decideElem q s (fun e lock =>
    if tyOf e s.mem ≠ 2 then refuse 6 0x26 0 s
    else
      let st := stateOf e s.mem
      let bySt := if st = 0 then some 1 else if st = 0x24DB ∨ st = 0x27D8 then some 7 else none
      match minReason bySt (blockReason lock (flankCnt e s.mem)) with
      | some c => refuse 4 c e s
      | none => acceptElem e (setBits (setBits (memNat (elemAddr e) 8 s.mem) 16 16 lockHeld) 50 2 (if st = 0x21DE then 1 else 2)) s)

/-- POINT_FREE. -/
def decidePointFree (q : LatReq) (s : State) : Decision :=
  decideElem q s (fun e lock =>
    if lock = lockHeld then acceptElem e (setBits (setBits (memNat (elemAddr e) 8 s.mem) 16 16 lockFree) 50 2 0) s else refuse 6 0x22 0 s)

/-! ### Emergency release (R113, R114) -/

/-- Routes that are not IDLE, ascending; a route never configured, whose word lattice load has not written yet, is none (R118). -/
def busyRoutes (m : List Host.Cell) : List Nat :=
  (List.range 4096).filter (fun r => rState r m != rIdle && (rState r m != 0 || (routeRec r m).valid))

/-- The zone of an element. -/
def zoneOf (e : Nat) (m : List Host.Cell) : Nat := bits (elemConf e m) 20 10

/-- The zone holds the route (R113). -/
def zoneHolds (z ze r : Nat) (m : List Host.Cell) : Bool :=
  let x := routeRec r m
  let w := rWord r m
  let holdsOv := x.hasOv && bits (oWord x.ov m) 0 16 != ovFree && bits (oWord x.ov m) 16 12 == r
  (pathOf x m).any (fun q => q.elem == ze || (zoneOf q.elem m == z && lockOf q.elem m == lockRoute && ownerOf q.elem m == r))
    || (ovPath x m).any (fun q => q.elem == ze || (holdsOv && zoneOf q.elem m == z && lockOf q.elem m == lockOverlap && ownerOf q.elem m == x.ov))
    || (flanksOf x m).any (fun q => zoneOf q.elem m == z && decide (bits w 16 7 ≤ q.sect) && flankCnt q.elem m != 0)

/-- The EMERG_RELEASE record (R114). -/
def emergRecord (step zone token : Nat) (routes : List Nat) (s : State) : State :=
  emit 0x4603 ([(1, step), (2, zone), (4, token), (2, routes.length)] ++ routes.map (fun r => (2, r))) s

/-- Every listed route returns to IDLE. -/
def txIdles : List Nat → LatTx → LatTx
  | [], t => t
  | r :: l, t => txIdles l (txIdle r (routeRec r t.m) t)

/-- What stops a decision over every route that is not IDLE: a record that fails its check, or an undefined code (R60, R68). -/
def txScreen (l : List Nat) (s : State) (t : LatTx) : LatTx :=
  { t with
    check := t.check || l.any (fun r => !(checked (routeRec r s.mem) s))
    bad := t.bad || l.any (fun r => codeBad r (routeRec r s.mem) s) }

/-- Step 2: every route that the zone holds goes to IDLE (R113). -/
def zoneRelease (e z : Nat) (s : State) : List Nat × LatTx :=
  let busy := busyRoutes s.mem
  let t := txScreen busy s (txOf s)
  if t.check || t.bad then ([], t)
  else
    let routes := busy.filter (fun r => zoneHolds z e r s.mem)
    (routes, settle settleFuel (txIdles routes (txElem e (setBits (memNat (elemAddr e) 8 s.mem) 0 16 0x7887) t)))

/-- At least `sec` seconds lie between the acceptance of step 1 and the instant `arr`. Where only `T_STEP1` is known (after a takeover), one cycle more makes sure of it (R66, R113). -/
def sinceStep1 (e arr sec : Nat) (s : State) : Bool :=
  match assocGet e s.lat.step1 with
  | some t => decide (lin t + secLin s sec ≤ lin arr)
  | none => decide (timerCycles (cycleUs s) sec + 1 ≤ (arr / 2 ^ 24 + 2 ^ 32 - bits (memNat (elemAddr e) 8 s.mem) 32 32) % 2 ^ 32)

/-- EMERGENCY_RELEASE: the decision and its record (R113, R114). -/
def decideEmergency (q : LatReq) (s : State) : Decision × (State → State) :=
  let e := qTarget q.entry
  let no := fun c => (refuse 6 c 0 s, fun (s : State) => s)
  match commonInvalid q with
  | some c => no c
  | none =>
    if tyOf e s.mem = 0 ∨ objectController s then no 0x21
    else if tyOf e s.mem ≠ 7 then no 0x26
    else
      let w := memNat (elemAddr e) 8 s.mem
      let z := zoneOf e s.mem
      let releasing := bits w 0 16 == 0x7B84
      if qStep q.entry = 1 && !releasing then
        let v := setBits (setBits w 0 16 0x7B84) 32 32 (qArr q.entry / 2 ^ 24)
        ({ res := 2, tx := settle settleFuel (txElem e v (txOf s)) }, fun s =>
          emergRecord 1 z (qToken q.entry) [] { s with lat.step1 := assocSet e (qArr q.entry) s.lat.step1 })
      else if qStep q.entry = 2 && releasing && sinceStep1 e (qArr q.entry) 5 s then
        let x := zoneRelease e z s
        ({ res := 2, tx := x.2 }, emergRecord 2 z (qToken q.entry) x.1)
      else no 0x25

/-! ### Rows -/

/-- Words of lattice SRAM that the step reads and a physical fault has struck are checked and repaired first (R234, R235). -/
def engineFindings : List (BitVec 40 × MemFinding) → State → State
  | [], s => s
  | (a, f) :: t, s =>
    let a := a.toNat / 8 * 8
    engineFindings t (if 0x100000000 ≤ a ∧ a < 0x100600000 then checkWord 2 a (applyFinding a f s) else s)

/-- The words that a step reads can be delivered: their code holds, and a pair is complementary (R225, R234, R235). -/
def engineReads (l : List (BitVec 40 × MemFinding)) (s : State) : Bool :=
  l.all (fun x =>
    let a := x.1.toNat / 8 * 8
    let t := trueWord a
    (codeAt t s).isNone && (storeKind a != .pair || ((codeAt (invWord t) s).isNone && isCompl 8 (memNat t 8 s.mem) (memNat (invWord t) 8 s.mem))))

/-- One step of the engine pair: what it reads is checked, and a P/N disagreement discards it (R58, R59, R234). -/
def engineStep (u : EngineIn) (f : State → State) (s : State) : State :=
  if latRuns s then
    let s := engineFindings u.hits s
    if !(latRuns s) || !(engineReads u.hits s) then s else if u.disagree then unitDisagrees .lattice s else f s
  else s

/-- The engine answers the BUSY refusals whose turn it is, then takes the request whose turn it is if its operation is one of `ops`; one discarded by a disagreement stays at the head (R59, R91, R121). -/
def requestRow (ops : Nat → Bool) (u : EngineIn) (f : LatReq → State → State) (s : State) : State :=
  let s := drain s
  match nextRequest s with
  | some q => if !q.busy && ops (qOp q.entry) then engineStep u (f q) s else s
  | none => s

/-- SET. -/
def execSet (dt : Nat) (u : EngineIn) (s : State) : Host.Outcome State Fault Refusal :=
  .next (requestRow (· == 1) u (fun q s => decideReq q (decideSet q s) s) (begin' dt s))

/-- CANCEL. -/
def execCancel (dt : Nat) (u : EngineIn) (s : State) : Host.Outcome State Fault Refusal :=
  .next (requestRow (· == 2) u (fun q s => decideReq q (decideCancel q s) s) (begin' dt s))

/-- ELEMENT_BLOCK. -/
def execElementBlock (dt : Nat) (u : EngineIn) (s : State) : Host.Outcome State Fault Refusal :=
  .next (requestRow (· == 3) u (fun q s => decideReq q (decideBlock q s) s) (begin' dt s))

/-- ELEMENT_UNBLOCK. -/
def execElementUnblock (dt : Nat) (u : EngineIn) (s : State) : Host.Outcome State Fault Refusal :=
  .next (requestRow (· == 4) u (fun q s => decideReq q (decideUnblock q s) s) (begin' dt s))

/-- POINT_LOCK. -/
def execPointLock (dt : Nat) (u : EngineIn) (s : State) : Host.Outcome State Fault Refusal :=
  .next (requestRow (· == 5) u (fun q s => decideReq q (decidePointLock q s) s) (begin' dt s))

/-- POINT_FREE. -/
def execPointFree (dt : Nat) (u : EngineIn) (s : State) : Host.Outcome State Fault Refusal :=
  .next (requestRow (· == 6) u (fun q s => decideReq q (decidePointFree q s) s) (begin' dt s))

/-- Accepted steps are recorded once committed (R114). -/
def emergencyDone (q : LatReq) (s : State) : State :=
  let d := decideEmergency q s
  let n := s.lat.reqQ.length
  let s1 := decideReq q d.1 s
  if d.1.res = 2 ∧ s1.lat.reqQ.length < n then d.2 s1 else s1

/-- EMERGENCY_RELEASE. -/
def execEmergencyRelease (dt : Nat) (u : EngineIn) (s : State) : Host.Outcome State Fault Refusal :=
  .next (requestRow (· == 7) u emergencyDone (begin' dt s))

/-- A request without a defined OP, or UPDATE on rings 48 and 49: INVALID, BAD_OP (R87, R541). -/
def execUndefinedRequest (dt : Nat) (u : EngineIn) (s : State) : Host.Outcome State Fault Refusal :=
  .next (requestRow (fun op => op == 0 || 8 ≤ op) u (fun q s => decideReq q (refuse 6 0x20 0 s) s) (begin' dt s))

/-- A ring 50 record that the engine refuses (R89). -/
def updateBad (e : List Byte) (s : State) : Bool :=
  let c := elemConf (qTarget e) s.mem
  let ty := bits c 0 4
  qOp e != 8 || qStep e != 0 || decide (2 < qSrc e) || qHandle e != 0 || qToken e != 0 || !(qSpare e)
    || ty == 0 || ty == 7 || (ty == 8 && bit c 7) || (bit c 4 && qSrc e != 2) || (qSrc e == 2 && !(bit c 4))

/-- A refused update: counted and recorded (R89). -/
def updateRefused (e : List Byte) (s : State) : State := emitAt (now s) 0x8604 (fitTo 32 e) (cnt 0x06001C s)

/-- The new state of an update: UNKNOWN for a code not defined for the type (R89). -/
def updateCode (e : List Byte) (s : State) : Nat :=
  if (stateCodes (tyOf (qTarget e) s.mem) (coded (qTarget e) s.mem)).contains (qState e) then qState e else 0

/-- The computation of an accepted update: `STATE`, `AGE` 0, then every route that the element's index names (R89, R101). -/
def updateTx (e : List Byte) (s : State) : LatTx :=
  let n := qTarget e
  let w := memNat (elemAddr n) 8 s.mem
  let t := txElem n (setBits (setBits w 0 16 (updateCode e s)) 56 8 0) (txOf s)
  settle settleFuel { t with chg := if bits w 0 16 = updateCode e s then none else some n }

/-- UPDATE: the head of the update queue (R89, R93). -/
def latUpdate (e : List Byte) (s : State) : State :=
  let next := fun (s : State) => admitUpdates 64 { s with lat.updQ := s.lat.updQ.drop 1 }
  if updateBad e s then drain (next (updateRefused e s))
  else latCommit 2 0 (qArr e) false (updateTx e s) s (fun s => drain (next s))

/-- UPDATE. -/
def execUpdate (dt : Nat) (u : EngineIn) (s : State) : Host.Outcome State Fault Refusal :=
  let s := drain (begin' dt s)
  .next (match nextUpdate s with
    | some e => engineStep u (latUpdate e) s
    | none => s)

/-- Ring 51 has room again: the waiting result is written (R94). -/
def execResultWriteResume (dt : Nat) (s : State) : Host.Outcome State Fault Refusal :=
  let s := begin' dt s
  .next (match s.lat.waiting with
    | some x => if s.pwr.phase == .running && ringFree 51 s != 0 then drain (putResult x s) else s
    | none => s)

/-- A pause longer than one minor cycle is recorded (R94, R540). -/
def execResultPause (dt : Nat) (s : State) : Host.Outcome State Fault Refusal :=
  let s := begin' dt s
  let us := (s.clk.up - s.lat.pausedAt) / 100
  .next (if s.pwr.phase == .running && s.lat.waiting.isSome && !s.lat.pauseSeen && decide (cycleUs s < us) then
      nvEvent 6 0x0002 (sat 0xFFFFFFFF us) 0 { s with lat.pauseSeen := true }
    else s)

/-! ### Timers (R104, R105) -/

/-- The time-stamp of the boundary that began this minor cycle. -/
def boundaryStamp (s : State) : Nat := s.clk.cycle * 2 ^ 24

/-- A transition of the timer step, ordered by its boundary's stamp (R105). -/
def timerCommit (t : LatTx) (s : State) (done : State → State) : State := latCommit 3 0 (boundaryStamp s) false t s done

/-- A transition that uses a route's record: its checks first (R60, R68). -/
def timerRoute (r : Nat) (s : State) (f : RouteRec → LatTx → LatTx) : LatTx :=
  let t := txScreen [r] s (txOf s)
  if t.check || t.bad then t else f (routeRec r s.mem) t

/-- CANCEL_TIME_EXPIRY: the wait for the entry signal ends in APPROACH_LOCKED, whose timer starts at the same boundary (R101, R104). -/
def cancelExpiry (r : Nat) (s : State) : State :=
  if rState r s.mem = rCancel && (!(checked (routeRec r s.mem) s) || timerDone (rWord r s.mem) (routeRec r s.mem).cancelTime false r (txOf s)) then
    timerCommit (timerRoute r s (fun _ t => settleRoute r (txRoute r (setBits (setBits (rWord r s.mem) 0 16 rApproach) 32 32 s.clk.cycle) t))) s (fun s => s)
  else s

/-- CANCEL_TIME_EXPIRY. -/
def execCancelTimeExpiry (dt : Nat) (x : Fin 4096 × EngineIn) (s : State) : Host.Outcome State Fault Refusal :=
  .next (engineStep x.2 (cancelExpiry x.1.val) (begin' dt s))

/-- APPROACH_TIME_EXPIRY: IDLE once the signal proves stop and section 0 is clear (R101). -/
def approachExpiry (r : Nat) (s : State) : State :=
  if rState r s.mem = rApproach && (!(checked (routeRec r s.mem) s) || timerDone (rWord r s.mem) (routeRec r s.mem).apprTime false r (txOf s)) then
    timerCommit (timerRoute r s (fun _ t => settleRoute r t)) s (fun s => s)
  else s

/-- APPROACH_TIME_EXPIRY. -/
def execApproachTimeExpiry (dt : Nat) (x : Fin 4096 × EngineIn) (s : State) : Host.Outcome State Fault Refusal :=
  .next (engineStep x.2 (approachExpiry x.1.val) (begin' dt s))

/-- OVERLAP_TIME_EXPIRY (R103). -/
def overlapExpiry (o : Nat) (s : State) : State :=
  let x := ovRec o s.mem
  if bits (oWord o s.mem) 0 16 = ovTiming && (!x.ok || timerDone (oWord o s.mem) x.time true o (txOf s)) then
    timerCommit (settle settleFuel (txFreeOverlap o (txOf s))) s (fun s => s)
  else s

/-- OVERLAP_TIME_EXPIRY. -/
def execOverlapTimeExpiry (dt : Nat) (x : Fin 2048 × EngineIn) (s : State) : Host.Outcome State Fault Refusal :=
  .next (engineStep x.2 (overlapExpiry x.1.val) (begin' dt s))

/-- The zone timer, which started at the boundary after step 1, has run 60 s (R104, R113). -/
def zoneDue (e : Nat) (s : State) : Bool :=
  decide (timerCycles (cycleUs s) 60 + 1 ≤ (s.clk.cycle + 2 ^ 32 - bits (memNat (elemAddr e) 8 s.mem) 32 32) % 2 ^ 32)

/-- ZONE_LAPSE: 60 s after step 1 without step 2 (R113, R114). -/
def zoneLapse (e : Nat) (s : State) : State :=
  let w := memNat (elemAddr e) 8 s.mem
  if tyOf e s.mem = 7 && bits w 0 16 == 0x7B84 && zoneDue e s then
    timerCommit (settle settleFuel (txElem e (setBits w 0 16 0x7887) (txOf s))) s (emergRecord 0 (zoneOf e s.mem) 0 [])
  else s

/-- ZONE_LAPSE. -/
def execZoneLapse (dt : Nat) (x : Fin 16384 × EngineIn) (s : State) : Host.Outcome State Fault Refusal :=
  .next (engineStep x.2 (zoneLapse x.1.val) (begin' dt s))

/-- A border copy that holds a state of its owner; a ZONE's `STATE` follows its steps alone (R46, R66). -/
def borderCopied (e : Nat) (m : List Host.Cell) : Bool := bit (elemConf e m) 4 && tyOf e m != 0 && tyOf e m != 7

/-- BORDER_TIMEOUT: a copy not refreshed for longer than the border timeout becomes UNKNOWN; a non-vital fault (R28, R46). -/
def borderTimeout (e : Nat) (s : State) : State :=
  let w := memNat (elemAddr e) 8 s.mem
  if borderCopied e s.mem && bits w 0 16 != 0 && decide (s.cfg.borderTimeout < bits w 56 8) then
    timerCommit (settle settleFuel (txElem e (setBits w 0 16 0) (txOf s))) s (fun s => nvEvent 6 0x000F 0 (elemAddr e) (cnt 0x120040 s))
  else s

/-- BORDER_TIMEOUT. -/
def execBorderTimeout (dt : Nat) (x : Fin 16384 × EngineIn) (s : State) : Host.Outcome State Fault Refusal :=
  .next (engineStep x.2 (borderTimeout x.1.val) (begin' dt s))

/-- Timers that start at this boundary store its cycle count (R104). -/
def startTimers (c : Nat) : List (Bool × Nat) → LatTx → LatTx
  | [], t => t
  | (true, o) :: l, t => startTimers c l (txOverlap o (setBits (oWord o t.m) 32 32 c) t)
  | (false, r) :: l, t => startTimers c l (txRoute r (setBits (rWord r t.m) 32 32 c) t)

/-- The first commit of a timer step: `AGE`, timers started, every route that is not IDLE evaluated; the expiries follow it (R101, R105). -/
def timerTx (s : State) : LatTx :=
  let t := { txOf s with m := ageAll s.mem, expire := false }
  let t := startTimers s.clk.cycle t.starting { t with starting := [] }
  settle settleFuel { t with todo := busyRoutes t.m }

/-- Configured elements of a kind, by their configuration halves. -/
def elemsWhere (p : Nat → Bool) (m : List Host.Cell) : List Nat :=
  (((memSlice 0x100400000 0x100440000 m).filter (fun c => c.1 % 16 == 8 && c.2 != 0)).map (fun c => (c.1 - 0x100400008) / 16)).filter p

/-- Overlaps whose word is not 0. -/
def overlapsUsed (m : List Host.Cell) : List Nat :=
  ((memSlice 0x100490000 0x100494000 m).filter (fun c => c.1 % 8 == 0)).map (fun c => (c.1 - 0x100490000) / 8)

/-- The step's transitions after its first commit, in the order of R105, while the engine is not restarting. -/
def timerFold (f : Nat → State → State) : List Nat → State → State
  | [], s => s
  | x :: t, s => timerFold f t (if s.pwr.phase == .running && s.tri.lattice.restart.isNone then f x s else s)

/-- LATTICE_TIMER_STEP's work: `AGE`, border timeouts, then route, overlap and zone timers (R105). -/
def timerSteps (s : State) : State :=
  let s := latCommit 3 0 (boundaryStamp s) true (timerTx s) s (fun s => s)
  let s := timerFold borderTimeout (elemsWhere (fun e => borderCopied e s.mem) s.mem) s
  let s := timerFold cancelExpiry (busyRoutes s.mem) s
  let s := timerFold approachExpiry (busyRoutes s.mem) s
  let s := timerFold overlapExpiry (overlapsUsed s.mem) s
  timerFold zoneLapse (elemsWhere (fun e => tyOf e s.mem == 7) s.mem) s

/-- The timer step of a boundary; a unit fault discards all of it, and it is done again after the restart (R59, R105, R121). -/
def timerStep (u : EngineIn) (s : State) : State :=
  let s := engineFindings u.hits { s with lat.jfull := false }
  if !(engineReads u.hits s) || s.pwr.phase != .running then s
  else if s.tri.lattice.restart.isSome then { s with lat.stepDue := true }
  else if u.disagree then unitDisagrees .lattice { s with lat.stepDue := true }
  else
    let t := timerSteps s
    if t.tri.lattice.restart.isSome then unitDisagrees .lattice { s with lat.stepDue := true } else drain t

end Sys2Proof.Machine
end

