-- ==== Sys2Proof/Machine/Telegram.lean ====
section
/-! DEFINITION. Safe telegrams, channels, keys and the check-value units (R333 to R357, R364), border frames (R55), Ethernet frames (R329, R330). -/

namespace Sys2Proof.Machine

/-! ### Channels (R350 to R354) -/

/-- The channel of an index. -/
def chan (i : Nat) (s : State) : Chan :=
  match s.tel.chans.find? (fun c => c.idx == i) with
  | some c => c
  | none => { idx := i }

/-- Change a channel. -/
def setChan (c : Chan) (s : State) : State := { s with tel.chans := c :: s.tel.chans.filter (fun d => d.idx != c.idx) }

/-- The template of an index. -/
def tmpl (i : Nat) (s : State) : Option Template := s.cfg.templates.find? (fun t => t.index == i)

/-- The current handle of a channel (R351). -/
def handleOf (c : Chan) : Nat := c.gen % 2 ^ 20 * 4096 + c.idx

/-- Ethernet channels are open (R347). -/
def isOpenCh (t : Template) : Bool := decide (1 ≤ t.transport) && decide (t.transport ≤ 4)

/-- `PROT` has a wick; `PROT` has FOLD (R341). -/
def hasWick (t : Template) : Bool := t.prot == 1 || t.prot == 3
def hasFold (t : Template) : Bool := t.prot == 2 || t.prot == 3

/-- A CHANNEL event in the immediate mirror stream (R56, R354). -/
def mirrorChan (c : Chan) (ev : Nat) (s : State) : State :=
  mirror 2 1 (packFields [(4, handleOf c), (1, ev), (3, 0), (2, match c.wick with | some w => w | none => 0), (2, 0), (4, c.seq),
    (4, match c.session with | some x => x | none => 0)]) s

/-- `CH_RES` and `CH_REASON` (R364). -/
def chResult (reason : Nat) (s : State) : State := setRf 0x0B002C 0 4 reason s

/-- A stale handle: counted and recorded (R353). -/
def staleHandle (h ring : Nat) (s : State) : State := emit 0x0B03 [(4, h), (1, ring), (2, 0)] (cnt 0x0B0078 s)

/-- A key slot (R348). -/
def keyOf (n : Nat) (s : State) : Key :=
  match s.tel.keys.find? (fun k => k.slot == n) with
  | some k => k
  | none => { slot := n }

/-- Change a key slot. -/
def setKey (k : Key) (s : State) : State := { s with tel.keys := k :: s.tel.keys.filter (fun j => j.slot != k.slot) }

/-- A key is usable when it is both valid and locked (R348). -/
def keyUsable (n : Nat) (s : State) : Bool := (keyOf n s).valid && (keyOf n s).locked

/-- The session counter that counts: the valid copy with the higher counter (R349). -/
def sessionNow (s : State) : Option Nat :=
  match s.cand.session.c0, s.cand.session.c1 with
  | some a, some b => some (max a.2 b.2)
  | some a, none => some a.2
  | none, some b => some b.2
  | none, none => none

/-- Sessions can be issued (R349). -/
def sessionsOk (s : State) : Bool :=
  !s.tel.sessionLost && !s.cand.framErr && (match sessionNow s with | some c => decide (c < 0xFFFFFFFF) | none => false)

/-- The channel becomes OPEN with fresh wick and sequence state (R352). -/
def openChan (i : Nat) (session : Option Nat) (s : State) : State :=
  let c := { chan i s with st := .openSt, wick := none, seq := 1, session := session }
  mirrorChan c 1 (chResult 0 (setRv 0x0B0028 (handleOf c) (setChan c s)))

/-- CREATE of an index (R352). -/
def chCreate (i : Nat) (s : State) : State :=
  if s.tel.busy.isSome then nvEvent 0x0B 0x000C (1 + 16 * i) 0xF00B0020 s
  else
    match (chan i s).st with
    | .openSt => chResult 2 s
    | .exhausted => chResult 2 s
    | .retired => chResult 5 s
    | .closed =>
      match tmpl i s with
      | none => chResult 1 s
      | some t =>
        if isOpenCh t then
          if !(keyUsable t.keySlot s) then chResult 4 s
          else if t.rx then openChan i none s
          else if !(sessionsOk s) then chResult 4 { s with tel.sessionLost := true }
          else { s with tel.busy := some i }
        else openChan i none s

/-- The advanced session counter goes to the other FRAM copy (R349, R481). -/
def sessionWrite (n : Nat) (s : State) : State :=
  match s.cand.session.c0, s.cand.session.c1 with
  | none, _ => { s with cand.session.c0 := some (n, n) }
  | some _, none => { s with cand.session.c1 := some (n, n) }
  | some a, some b => if a.2 < b.2 then { s with cand.session.c0 := some (n, n) } else { s with cand.session.c1 := some (n, n) }

/-- CREATE of an open transmit channel completes once its session has reached FRAM (R349, R352). -/
def chCreateDone (i : Nat) (s : State) : State :=
  if s.tel.busy = some i then
    match sessionNow s with
    | some c => openChan i (some c) { sessionWrite (c + 1) s with tel.busy := none }
    | none => chResult 4 { s with tel.busy := none, tel.sessionLost := true }
  else s

/-- DESTROY of a handle (R352, R353). -/
def chDestroy (h : Nat) (s : State) : State :=
  if s.tel.busy.isSome then nvEvent 0x0B 0x000C 2 0xF00B0020 s
  else
    let c := chan (h % 4096) s
    if (c.st == .openSt || c.st == .exhausted) && handleOf c == h then
      let d := { c with st := if c.gen = 0xFFFFF then .retired else .closed, gen := if c.gen = 0xFFFFF then c.gen else c.gen + 1, wick := none, session := none, seq := 1 }
      mirrorChan c 2 (chResult 0 (setChan d s))
    else chResult 3 (staleHandle h 0xFF s)

/-- CREATE. -/
def execCreate (dt : Nat) (i : Fin 4096) (s : State) : Host.Outcome State Fault Refusal := .next (blockCommand 0x0B (chCreate i.val) (begin' dt s))

/-- DESTROY. -/
def execDestroy (dt : Nat) (h : Half) (s : State) : Host.Outcome State Fault Refusal := .next (blockCommand 0x0B (chDestroy h.toNat) (begin' dt s))

/-- CREATE_COMPLETE. -/
def execCreateComplete (dt : Nat) (i : Fin 4096) (s : State) : Host.Outcome State Fault Refusal :=
  let s := begin' dt s
  .next (if powered s then chCreateDone i.val s else s)

/-! ### Keys (R348) and the software port (R336) -/

/-- COMMIT: the hash check of the key as written (R348). -/
def keyCommit (n : Nat) (s : State) : State :=
  if 48 ≤ n ∨ (keyOf n s).locked then s
  else
    let d := (s.tel.keyData.map (leBytes 4)).flatten
    if sha384 (d ++ [BitVec.ofNat 8 n]) / 2 ^ 256 = s.cfg.keyHash.getD n 0 then setKey { slot := n, data := d, valid := true } s
    else emit 0x4B01 [(2, n)] (setKey { slot := n } s)

/-- LOCK (R348). -/
def keyLock (n : Nat) (s : State) : State := if 48 ≤ n then s else setKey { keyOf n s with locked := true } s

/-- KEY_COMMIT. -/
def execKeyCommit (dt n : Nat) (s : State) : Host.Outcome State Fault Refusal := .next (blockCommand 0x0B (keyCommit n) (begin' dt s))

/-- KEY_LOCK. -/
def execKeyLock (dt n : Nat) (s : State) : Host.Outcome State Fault Refusal := .next (blockCommand 0x0B (keyLock n) (begin' dt s))

/-- A write of `FEED`: one to four bytes, low byte first, into both running values (R336). -/
def cvuFeed (v : Nat) (s : State) : State :=
  let n := rf 0x0B0010 0 2 s
  let b := leBytes (if n = 0 then 4 else n) v
  setRv 0x0B0008 (crcRun 0xEDB88320 (rv 0x0B0008 s) b) (setRv 0x0B0004 (crcRun 0x82F63B78 (rv 0x0B0004 s) b) s)

/-- CVU_FEED. -/
def execCvuFeed (dt : Nat) (data : Half) (s : State) : Host.Outcome State Fault Refusal := .next (blockCommand 0x0B (cvuFeed data.toNat) (begin' dt s))

/-! ### Check values (R333, R343) -/

/-- The presets of both units for sequence `seq` of a channel (R343). -/
def presets (t : Template) (seq : Nat) : Nat × Nat :=
  if hasFold t then
    let b := packFields [(2, t.src), (2, t.dst), (2, t.index % 4096), (2, 0), (4, seq)]
    (crcRun 0x82F63B78 0xFFFFFFFF b, crcRun 0xEDB88320 0xFFFFFFFF b)
  else (0xFFFFFFFF, 0xFFFFFFFF)

/-- Both check values over bytes, from presets. -/
def checkP (p : Nat × Nat) (l : List Byte) : Nat := crc32cFrom p.1 l
def checkQ (p : Nat × Nat) (l : List Byte) : Nat := crc32From p.2 l

/-! ### Sealing (R356) -/

/-- The flags of every outgoing telegram: NOT_VITAL, FORCED, RECORDER_DOWN, DEGRADED (R340). -/
def telFlags (s : State) : Nat :=
  b2n (safeState s) + 2 * b2n (s.frc.ind || !s.frc.table.isEmpty) + 4 * b2n (s.evr.st == .down) + 8 * b2n s.tri.retired.isSome

/-- Output points bound to fields of a telegram (R135, R163). -/
def bindFields (i : Nat) (data : List Byte) (s : State) : List Byte :=
  s.cfg.bindings.foldl (fun d b =>
    if b.output && b.kind == 1 && b.idx == i && decide (b.off + b.width ≤ d.length) then
      d.take b.off ++ leBytes b.width (appliedValue b.point s) ++ d.drop (b.off + b.width)
    else d) data

/-- The first aspect field that permit gating refuses (R107). -/
def gateRefuses (t : Template) (data : List Byte) (s : State) : Option Nat :=
  (t.aspects.find? (fun a => !(a.restrictive.contains (fieldAt data a.off a.width)) && !(permitSet a.elem s))).map (fun a => a.elem)

/-- A sealed telegram: its channel after sealing, and what the transport carries. -/
structure Sealed where
  ch : Chan
  wick : Nat
  seq : Nat
  tSeal : Nat

/-- Steps 2 to 5 of R356: refusals, or the counters that the telegram takes. -/
def sealTake (h ring : Nat) (data : List Byte) (s : State) : Option (Template × Sealed) × State :=
  let c := chan (h % 4096) s
  match tmpl (h % 4096) s with
  | none => (none, staleHandle h ring s)
  | some t =>
    if !(c.st == .openSt && handleOf c == h && !t.rx) then (none, staleHandle h ring s)
    else
      match gateRefuses t data s with
      | some e => (none, emit 0x0B04 [(4, h), (1, ring), (2, e)] (cnt 0x0B007C s))
      | none =>
        let w := match c.wick with | some w => w | none => 0
        let last := hasFold t && c.seq == 0xFFFFFFFF
        let d := { c with
          wick := if hasWick t then some ((w + 1) % 65536) else c.wick
          seq := if hasFold t && !last then c.seq + 1 else c.seq
          st := if last then .exhausted else c.st }
        let s := mirrorChan { d with wick := some w, seq := c.seq } 3 (setChan d s)
        let s := if last then emit 0x4B02 [(2, c.idx)] s else s
        (some (t, { ch := c, wick := if hasWick t then w else 0, seq := c.seq, tSeal := now s }), s)

/-- The telegram of Ethernet and module links (R338, R339, R347). -/
def telBytes (t : Template) (x : Sealed) (data : List Byte) (s : State) : List Byte :=
  let flags := telFlags s
  let head :=
    if 2 ≤ t.tver / 16 then packFields [(1, t.tver), (1, flags), (2, x.wick), (2, data.length), (2, 0), (8, x.tSeal)]
    else packFields [(1, t.tver), (1, flags), (2, if t.tver / 16 = 0 then 0 else x.wick), (2, data.length), (2, 0)]
  let body := head ++ data
  let p := presets t x.seq
  let b := body ++ leBytes 4 (checkP p body) ++ leBytes 4 (checkQ p body)
  if isOpenCh t then
    let ses := match x.ch.session with | some v => v | none => 0
    let aad := b ++ leBytes 4 ses
    let iv := packFields [(2, t.src), (2, t.index % 4096), (4, ses), (4, x.seq)]
    aad ++ gmac (keyOf t.keySlot s).data iv aad
  else b

/-- One's complement sum of 16-bit words in network order. -/
def ipSum : Nat → List Byte → Nat
  | 0, _ => 0
  | n + 1, a :: b :: t => a.toNat * 256 + b.toNat + ipSum n t
  | _, _ => 0

/-- The template's Ethernet, IPv4 and UDP header with lengths and IPv4 checksum; UDP checksum 0 (R338). -/
def udpFrame (t : Template) (tel : List Byte) : List Byte :=
  let h := fitTo 42 t.headers
  let h := h.take 16 ++ beBytes 2 (28 + tel.length) ++ (h.drop 18).take 6 ++ [0#8, 0#8] ++ (h.drop 26).take 12 ++ beBytes 2 (8 + tel.length) ++ [0#8, 0#8]
  let x := ipSum 10 ((h.drop 14).take 20)
  let x := x % 65536 + x / 65536
  let x := x % 65536 + x / 65536
  h.take 24 ++ beBytes 2 (65535 - x) ++ h.drop 26 ++ tel

/-- Who waits for an acknowledgement: the active member while its partner is STANDBY_SYNCED (R50). -/
def fenced (s : State) : Bool := s.lnk.pair == .active && s.lnk.fencing && !s.lnk.solo

/-- A sealed telegram passes to egress, or waits for the mirror fence (R50, R356). -/
def egress (tSeal : Nat) (x : Egress) (s : State) : State :=
  if fenced s && decide (s.lnk.ackT < tSeal) then
    { s with tel.fenced := s.tel.fenced ++ [(tSeal, x)], tel.fenceAt := if s.tel.fenced.isEmpty then s.clk.up else s.tel.fenceAt }
  else
    match x with
    | .link l i => sendItem l i s
    | .eth p c b => send (.eth p c b) s

/-- Telegrams that the fence releases (R57). -/
def releaseFenced (s : State) : State :=
  let go := s.tel.fenced.filter (fun x => !(fenced s) || decide (x.1 ≤ s.lnk.ackT))
  let stay := s.tel.fenced.filter (fun x => fenced s && decide (s.lnk.ackT < x.1))
  go.foldl (fun s x => egress x.1 x.2 s) { s with tel.fenced := stay, tel.fenceAt := s.clk.up }

/-- Sealing works: in service, lanes not halted, sealing and rings enabled (R151, R364, R365). -/
def sealing (s : State) : Bool :=
  s.pwr.phase == .running && s.prg.mode != .halted && s.prg.mode != .startup && rf 0x0B0000 0 1 s == 1 && rf 0x0C0000 0 1 s == 1

/-- Seal one item of an Ethernet or link ring (R356). -/
def sealItem (r : Nat) (desc data : List Byte) (s : State) : State :=
  let h := fieldAt desc 0 4
  if h = 0 ∧ 8 ≤ r ∧ r < 40 then (if bit (rv 0x0A0000 s) ((r - 8) / 8) then send (.eth ((r - 8) / 8) ((r - 8) % 4) data) s else s)
  else
    let data := bindFields (h % 4096) data s
    match sealTake h r data s with
    | (none, s) => s
    | (some (t, x), s) =>
      let b := telBytes t x data s
      if isOpenCh t then
        let p := t.transport - 1
        if bit (rv 0x0A0000 s) p then egress x.tSeal (.eth p ((r - 8) % 4) (udpFrame t b)) s else s
      else if 5 ≤ t.transport then egress x.tSeal (.link (t.transport - 5) { ltype := 1, prio := if t.border then 0 else 1, chtag := t.mtch, payload := b }) s
      else s

/-- Inside an exchange window, to the instant at which the lanes resume, Ethernet channels send nothing: their items wait in the rings (R255). -/
def sealWaits (r : Nat) (desc : List Byte) (s : State) : Bool := (s.xch.window || resting s) && decide (r < 40) && fieldAt desc 0 4 != 0

/-- An item of a better class waits on the same Ethernet port, which serves its classes by strict priority (R360). -/
def outranked (r : Nat) (s : State) : Bool :=
  decide (r < 40) && (List.range ((r - 8) % 4)).any (fun k =>
    match (ring (r - (r - 8) % 4 + k) s).entries with
    | d :: _ => !(sealWaits (r - (r - 8) % 4 + k) d s)
    | [] => false)

/-- TELEGRAM_SEALING: the descriptor at the head of a transmit ring of Ethernet or a link is taken (R356, R360). -/
def execTelegramSealing (dt : Nat) (r : Fin 64) (s : State) : Host.Outcome State Fault Refusal :=
  let s := begin' dt s
  .next (if sealing s && isTxRing r.val && decide (8 ≤ r.val) && !(outranked r.val s) then
      match ringTakeItem r.val s with
      | some (d, data, s1) => if sealWaits r.val d s then s else sealItem r.val d data s1
      | none => s
    else s)

/-! ### Border frames (R55) -/

/-- A border channel: its template sets `BORDER`, on a module link, with FOLD or BOTH (R55). -/
def borderChannel (t : Template) : Bool := t.border && decide (5 ≤ t.transport) && hasFold t

/-- The entries for the neighbour `member`: every used element of this member that it holds as a copy, with its state (R45, R55). -/
def borderEntries (member : Nat) (s : State) : List Byte :=
  ((elemsWhere (fun e => tyOf e s.mem != 0 && !(bit (elemConf e s.mem) 4) && Config.borderHeld s.cfg.seq member e) s.mem).map (fun e =>
    packFields [(2, e), (2, bits (elemP e s) 0 16)])).flatten

/-- Border frames of one transmit channel: pieces of up to 252 entries. -/
def borderSend (t : Template) (tb n : Nat) : List (List Byte) → State → State
  | [], s => s
  | p :: l, s =>
    let data := packFields [(8, tb), (2, p.length / 4), (1, n), (1, b2n l.isEmpty), (4, 0)] ++ p
    let c := chan t.index s
    let s :=
      if c.st == .openSt then
        match sealTake (handleOf c) 46 data s with
        | (none, s) => s
        | (some (_, x), s) => egress x.tSeal (.link (t.transport - 5) { ltype := 1, prio := 0, chtag := t.mtch, payload := telBytes t x data s }) s
      else s
    borderSend t tb (n + 1) l s

/-- The border frames of a boundary, to each neighbour with an open border channel (R45, R55). -/
def borderFrames (s : State) : State :=
  let tb := boundaryStamp s
  if sealing s then
    s.cfg.templates.foldl (fun s t =>
      if borderChannel t && !t.rx then
        let e := borderEntries (linkPeer (t.transport - 5) s) s
        borderSend t tb 0 (if e.isEmpty then [[]] else chunks 1008 100 e) s
      else s) s
  else s

/-- The local copy that a border entry names (R55, R67). -/
def borderCopy (member e : Nat) (m : List Host.Cell) : Option Nat :=
  ((memSlice 0x100400000 0x100440000 m).filter (fun c => c.1 % 16 == 8 && c.2.toNat.testBit 4)).findSome? (fun c =>
    let i := (c.1 - 0x100400008) / 16
    let w := elemConf i m
    if bits w 5 2 = member ∧ bits w 30 14 = e then some i else none)

/-- The entries of a border frame become updates of the local copies; an entry without a copy is refused under R89 (R55). -/
def borderIngest (member : Nat) : List (List Byte) → State → State
  | [], s => s
  | e :: l, s =>
    let el := fieldAt e 0 2
    let st := fieldAt e 2 2
    borderIngest member l (match borderCopy member el s.mem with
      | some i => if el < 16384 then postUpdate 2 i st s else updateRefused (updateRecord 2 (el % 16384) st) s
      | none => updateRefused (updateRecord 2 (el % 16384) st) s)

/-! ### Receiving (R335, R342 to R347, R355) -/

/-- Outcome of the checks: the class of R335, or the sequence found. -/
inductive TelClass where
  | pass (seq : Nat) | checkOnly | corrupt | foldFail
  deriving DecidableEq, Repr

/-- Both codes against the received values, over the candidates of the channel (R335, R344). -/
def classify (t : Template) (c : Chan) (body : List Byte) (p q : Nat) : TelClass :=
  let cands := if hasFold t then ((List.range t.foldWin).map (fun i => c.seq + i)).filter (fun k => decide (k < 2 ^ 32)) else [c.seq]
  match cands.find? (fun k => checkP (presets t k) body == p && checkQ (presets t k) body == q) with
  | some k => .pass k
  | none =>
    if cands.any (fun k => checkP (presets t k) body == p || checkQ (presets t k) body == q) then .checkOnly
    else if hasFold t then .foldFail else .corrupt

/-- A telegram that does not pass: counted per channel and in the CVU (R335). -/
def telFail (k : Nat) (c : Chan) (s : State) : State := cnt k (setChan { chan c.idx s with fails := (chan c.idx s).fails + 1 } s)

/-- The wick check: the accepted value and `LOST`, or the counter of the refusal (R342). -/
def wickCheck (t : Template) (c : Chan) (w : Nat) : Except Nat Nat :=
  match c.wick with
  | none => .ok 0
  | some w0 =>
    let d := (w + 65536 - w0) % 65536
    if d = 0 then .error 0x0B006C else if d ≤ t.wickWin then .ok (d - 1) else .error 0x0B0070

/-- Input points bound to fields of a telegram take its values (R135). -/
def bindInputs (t : Template) (data : List Byte) (s : State) : State :=
  s.cfg.bindings.foldl (fun s b =>
    if !b.output && b.kind == 1 && b.idx == t.index && decide (b.off + b.width ≤ data.length) then
      let v := fieldAt data b.off b.width
      let r := t.aspects.any (fun a => a.off == b.off && a.restrictive.contains v)
      { s with prg.live := assocSet b.point (v + 2 ^ 33 * b2n r) s.prg.live }
    else s) s

/-- LAT_REQ_INGEST: the entries of a telegram go to ring 49 until an entry with OP 0 (R355). -/
def latIngest (h : Nat) : List (List Byte) → State → State
  | [], s => s
  | e :: l, s =>
    if e.length < 8 ∨ fieldAt e 0 1 % 16 = 0 then s
    else latIngest h l (postRequest 49 (e ++ packFields [(8, 0), (4, h), (4, 0), (8, 0)]) s)

/-- A telegram that has passed every check is delivered (R293, R340, R355, R359). -/
def telDeliver (t : Template) (c : Chan) (flags seq wick lost : Nat) (data : List Byte) (s : State) : State :=
  let h := handleOf c
  let nv := bit flags 0
  if t.border then (if nv || isStandby s || !(borderChannel t) then s
    else borderIngest (linkPeer (t.transport - 5) s) ((chunks 4 300 (data.drop 16)).take (fieldAt data 8 2)) s)
  else
    let desc := packFields [(4, h), (4, data.length + 2 ^ 24 * (flags % 16)), (4, if hasFold t then seq else 0), (2, wick), (2, lost), (8, now s), (8, 0)]
    let s := bindInputs t data s
    let s := if rf 0x0C0000 0 1 s = 1 then deliverItem t.ring h (decide (1 ≤ t.transport)) desc data s else s
    if t.latReq then (if nv then cnt 0x0B0088 s else if isStandby s then s else latIngest h (chunks 8 129 data) s) else s

/-- Wick, tag and session after the codes have passed (R342, R344, R347, R349). -/
def telAccept (t : Template) (i seq flags wick : Nat) (data : List Byte) (tag : Option (Nat × Bool)) (s : State) : State :=
  let c := if hasFold t then { chan i s with seq := seq + 1 } else chan i s
  let s := setChan c s
  match (if hasWick t then wickCheck t c wick else .ok 0) with
  | .error k => telFail k c s
  | .ok lost =>
    let c := if hasWick t then { c with wick := some wick } else c
    let s := setChan c s
    match tag with
    | none => telDeliver t c flags seq wick lost data s
    | some (ses, ok) =>
      let same := match c.session with | some x => x == ses | none => true
      if ok && same then telDeliver t c flags seq wick lost data (setChan { c with session := some ses } s)
      else telFail 0x0B0074 c s

/-- The channel counter of a class (R335, R364). -/
def classCounter : TelClass → Nat
  | .pass _ => 0
  | .checkOnly => 0x0B0060
  | .corrupt => 0x0B0064
  | .foldFail => 0x0B0068

/-- A received Ethernet or link telegram on a template (R338, R339). -/
def telReceive (t : Template) (b : List Byte) (s : State) : State :=
  let c := chan t.index s
  if c.st != .openSt then cnt 0x0B0080 s
  else
    let hl := if 2 ≤ t.tver / 16 then 16 else 8
    let len := fieldAt b 4 2
    let body := b.take (hl + len)
    match classify t c body (fieldAt b (hl + len) 4) (fieldAt b (hl + len + 4) 4) with
    | .pass seq =>
      let ses := fieldAt b (hl + len + 8) 4
      let aad := b.take (hl + len + 12)
      let iv := packFields [(2, t.src), (2, t.index % 4096), (4, ses), (4, seq)]
      let tag := if isOpenCh t then some (ses, keyUsable t.keySlot s && gmac (keyOf t.keySlot s).data iv aad == (b.drop (hl + len + 12)).take 16) else none
      telAccept t t.index seq (fieldAt b 1 1) (fieldAt b 2 2) (body.drop hl) tag s
    | k => (fun s => if classCounter k = 0x0B0060 then stat 0x278 1 s else s) (telFail (classCounter k) c s)

/-- The receive template that a telegram matches (R350). -/
def telMatch (port tag : Nat) (s : State) : Option Template :=
  s.cfg.templates.find? (fun t => t.rx && t.transport == (if port < 4 then port + 1 else port + 1) && t.mtch == tag)

/-- The check values of a link frame pass over its header and padded payload (R54). -/
def linkGood (c : LinkCover) (payload : List Byte) : Bool := linkCheck (leBytes 16 c.head.toNat ++ pad8 payload) == c.check.toNat

/-- A frame arrives on link `l`: nothing on a link that is down; its sequence is noted; one that fails a check is discarded and counted (R54, R514). -/
def linkIn (l : Nat) (c : LinkCover) (payload : List Byte) (s : State) : Bool × State :=
  if (link l s).width = 0 then (false, s)
  else
    let ok := linkGood c payload
    let s := if ok then modLink l (fun k => { k with lseqRx := (bits c.head.toNat 64 32 + 1) % 2 ^ 32 }) s else cnt (0x12001C + 16 * l) s
    (ok, s)

/-- The telegram of a link frame: `PLEN` bytes of its payload (R54). -/
def linkTel (x : TelIn) : List Byte := (pad8 x.data).take (bits x.link.head.toNat 16 11)

/-- TELEGRAM on Ethernet or a module link (R335, R54). -/
def execTelegram (dt : Nat) (x : TelIn) (s : State) : Host.Outcome State Fault Refusal :=
  let s := begin' dt s
  .next (if !(powered s) || s.pwr.phase != .running then s
    else if x.port.val < 4 ∧ !(bit (rv 0x0A0000 s) x.port.val) then s
    else
      if x.port.val < 4 then
        (match telMatch x.port.val x.tag.toNat s with
        | some t => telReceive t x.data s
        | none => cnt 0x0B0080 s)
      else
        match linkIn (x.port.val - 4) x.link x.data s with
        | (false, s) => s
        | (true, s) =>
          match telMatch x.port.val (bits x.link.head.toNat 32 16) s with
          | some t => telReceive t (linkTel x) s
          | none => cnt 0x0B0080 s)

/-! ### Frames that are no telegrams (R329, R330, R359, R360) -/

/-- EtherType of a frame. -/
def etherType (b : List Byte) : Nat := beNat ((b.drop 12).take 2)

/-- Where the PTP message of a frame begins, if it is one (R329). -/
def ptpAt (b : List Byte) : Option Nat :=
  if etherType b = 0x88F7 then some 14
  else if etherType b = 0x0800 ∧ fieldAt b 23 1 = 17 ∧ (beNat ((b.drop 36).take 2) = 319 ∨ beNat ((b.drop 36).take 2) = 320) then some 42
  else none

/-- A PTP version 2 Sync or Delay_Req (R330). -/
def ptpEvent (b : List Byte) : Bool :=
  match ptpAt b with
  | some o => decide (fieldAt b o 1 % 16 ≤ 1) && fieldAt b (o + 1) 1 % 16 == 2
  | none => false

/-- The frame with its residence time added to correctionField; the UDP checksum is 0 (R330). -/
def ptpCorrect (b : List Byte) (ns : Nat) : List Byte :=
  match ptpAt b with
  | some o =>
    let c := beNat ((b.drop (o + 8)).take 8)
    let b1 := b.take (o + 8) ++ beBytes 8 ((c + ns * 65536) % 2 ^ 64) ++ b.drop (o + 16)
    if o = 42 then b1.take 40 ++ [0#8, 0#8] ++ b1.drop 42 else b1
  | none => b

/-- Receive class of a frame: 1 PTP, 2 images, 3 general (R360, R461). -/
def ethClass (b : List Byte) : Nat := if (ptpAt b).isSome then 1 else if etherType b = 0x88B5 then 2 else 3

/-- A frame forwarded between two external ports (R330). -/
def ethForward (p : Nat) (b : List Byte) (ns : Nat) (s : State) : State :=
  if ptpEvent b && rf 0x0A0100 0 1 s == 1 then
    if 1000000 < ns then cnt 0x0A010C s
    else
      let s := setRf 0x0A0110 0 24 (max (sat 0xFFFFFF ns) (rf 0x0A0110 0 24 s)) (cnt 0x0A0104 s)
      send (.eth p (ethClass b) (ptpCorrect b ns)) s
  else send (.eth p (ethClass b) b) (if (ptpAt b).isSome then cnt 0x0A0108 s else s)

/-- A frame delivered to its receive ring, PTP event messages with both stamps (R329, R359). -/
def ethDeliver (p : Nat) (b : List Byte) (s : State) : State :=
  let civ := if ptpEvent b then s.civ.ns else 0
  let s := if ptpEvent b then cnt 0x0A0114 s else s
  let desc := packFields [(4, 0), (4, b.length % 2048), (8, 0), (8, now s), (8, civ)]
  if rf 0x0C0000 0 1 s = 1 then deliverItem (12 + 8 * p + ethClass b) 0 true desc b s else s

/-- ETHERNET_FRAME: received, forwarded, or an event message of the module itself as it leaves (R329, R330). -/
def execEthernetFrame (dt : Nat) (f : EthFrame) (s : State) : Host.Outcome State Fault Refusal :=
  let s := begin' dt s
  .next (if !(powered s) || s.pwr.phase == .stopped then s
    else
      match f.port, f.out with
      | some p, some q => if bit (rv 0x0A0000 s) p.val && bit (rv 0x0A0000 s) q.val then ethForward q.val f.bytes f.resNs s else s
      | some p, none => if bit (rv 0x0A0000 s) p.val then ethDeliver p.val f.bytes s else s
      | none, some q =>
        if ptpEvent f.bytes && bit (rv 0x0A0000 s) q.val then
          let s := cnt 0x0A0118 s
          let desc := packFields [(4, 0), (4, 0), (8, 0), (8, now s), (8, s.civ.ns)]
          if rf 0x0C0000 0 1 s = 1 then deliverItem (13 + 8 * q.val) 0 false desc [] s else s
        else s
      | none, none => s)

/-- ETHERNET_PORT_LINK (R515). -/
def execEthernetPortLink (dt : Nat) (p : Fin 4) (up : Bool) (s : State) : Host.Outcome State Fault Refusal :=
  let s := begin' dt s
  .next (if powered s then setRf 0x0A0004 p.val 1 (b2n up) s else s)

end Sys2Proof.Machine
end

