-- ==== Sys2Proof/Machine/Bus.lean ====
section
/-! DEFINITION. The vital bus: forwarding, slots, reception, link delay, clock alignment, guardian, node states (R269 to R310), adoption of station time (R316, R317, R321), and the link delay of module links (R44). -/

namespace Sys2Proof.Machine

/-! ### Topology and delays (R269, R289, R308) -/

/-- Position of a node on channel `ch` (0 X, 1 Y); 0xFF if absent (R276). -/
def busPos (ch id : Nat) (s : State) : Nat := (if ch = 0 then s.cfg.sched.posX else s.cfg.sched.posY).getD id 0xFF

/-- Node at a position. -/
def nodeAt (ch pos : Nat) (s : State) : Nat := ((List.range 64).find? (fun i => busPos ch i s == pos)).getD 64

/-- Delay of the DOWN link of the node at `pos`, if known: the own measurement, the configured value in majors 1 and 0, or the value learned (R289, R308). -/
def linkDelayAt (ch pos : Nat) (s : State) : Option Nat :=
  let sc := s.cfg.sched
  let known := fun (lim v : Nat) => if v < lim then some v else none
  if pos = busPos ch sc.own s then (busPort (2 * ch) s).meas
  else if sc.pmaj ≤ 1 then known 255 ((if ch = 0 then sc.delX else sc.delY).getD pos 255)
  else known 127 ((if ch = 0 then s.bus.dlyX else s.bus.dlyY).getD (nodeAt ch pos s) 127)

/-- Sum of the delays of `n` links above position `lo`. -/
def delaySum (ch lo : Nat) (s : State) : Nat → Option Nat
  | 0 => some 0
  | n + 1 =>
    match delaySum ch lo s n, linkDelayAt ch (lo + n + 1) s with
    | some a, some b => some (a + b)
    | _, _ => none

/-- Path delay D(p, q) to this node in ns (R289). -/
def pathDelay (ch id : Nat) (s : State) : Option Nat :=
  let a := busPos ch id s
  let b := busPos ch s.cfg.sched.own s
  if 64 ≤ a ∨ 64 ≤ b then none
  else
    let n := max a b - min a b
    (delaySum ch (min a b) s n).map (fun d => d + (n - 1) * 640)

/-- A slot entry (R277). -/
def slotWord (slot : Nat) (s : State) : Nat := s.cfg.sched.slots.getD slot 0

/-- Slots of a cycle (R274). -/
def slotCount (s : State) : Nat := cycleUs s / 5

/-- Partner of a node in a pair of the schedule (R276). -/
def pairOf (id : Nat) (s : State) : Option Nat :=
  s.cfg.sched.pairs.findSome? (fun p => if p.1 = id then some p.2 else if p.2 = id then some p.1 else none)

/-- Nodes that may send in a slot: the owner, or both members of its pair (R277). -/
def slotSenders (slot : Nat) (s : State) : List Nat :=
  let w := slotWord slot s
  let o := bits w 0 6
  if bit w 12 then (match pairOf o s with | some p => [o, p] | none => [o]) else [o]

/-- A slot carries frames on channel `ch` (R277). -/
def slotOn (slot ch : Nat) (s : State) : Bool := bit (slotWord slot s) 6 && bit (slotWord slot s) (9 + ch)

/-- Start of a slot in ns of the cycle (R274, R295). -/
def slotNs (slot : Nat) (s : State) : Nat := 10 * macroStart s (5 * slot)

/-- Length of this cycle in ns. -/
def cycleNs (s : State) : Nat := 10 * cycleTicks s

/-- Instant within the cycle, ns. -/
def posNs (f : BusFrame) (s : State) : Nat := 10 * s.clk.pos + f.ns.val

/-- Instant on the reference, ns. -/
def refNs (f : BusFrame) (s : State) : Nat := 10 * s.clk.up + f.ns.val

/-- The node is integrated: its clock follows the bus (R300). -/
def busAligned (s : State) : Bool := s.bus.st == .synced || s.bus.st == .silent

/-- Deviation of an arrival from its expectation, and the cycle of the slot: this one, the one before for a frame that arrives after its end, the next for a frame of its first slots that arrives before its boundary (R290). -/
def deviation (arr slot delay : Nat) (s : State) : Int × Nat :=
  let d := (arr : Int) - (slotNs slot s + delay : Nat)
  let half : Int := (cycleNs s / 2 : Nat)
  if d < -half then (d + (cycleNs s : Nat), s.clk.cycle - 1)
  else if half < d then (d - (cycleNs s : Nat), s.clk.cycle + 1)
  else (d, s.clk.cycle)

/-- Change what was heard of the frames of a cycle. -/
def modHear (c : Nat) (f : Heard → Heard) (s : State) : State :=
  if c = s.clk.cycle + 1 then { s with bus.early := f s.bus.early } else { s with bus.hear := f s.bus.hear }

/-- What was heard of the frames of a cycle. -/
def hearOf (c : Nat) (s : State) : Heard := if c = s.clk.cycle + 1 then s.bus.early else s.bus.hear

/-! ### Node states (R300) -/

/-- The guardian closes with a cause (R298, R310). -/
def guardClose (cause : Nat) (s : State) : State := { s with bus.guard := false, bus.guardNext := false, bus.gcause := cause }

/-- LISTEN: the timeout starts (R300). -/
def toListen (s : State) : State :=
  guardClose 1 { s with bus.st := .listen, bus.leader := false, bus.since := s.clk.up, bus.hear.ok := false, bus.hear.seen := false, bus.early := {}, bus.consist := 0 }

/-- SILENT: counted, guardian closed (R300, R301). -/
def toSilent (cause : Nat) (s : State) : State :=
  cnt 0x080058 (guardClose cause { s with bus.st := .silent, bus.leader := false, bus.silentGood := 0, bus.silentAt := s.clk.cycle, bus.lostRec := false })

/-- SYNCED: the guardian opens from the next cycle (R300). Position and count are not set directly again, also after a cold start (R297). -/
def toSynced (s : State) : State := { s with bus.st := .synced, bus.everInt := true, bus.adopted := true, bus.guardNext := true, bus.missed := 0 }

/-- This node may cold-start (R275, R276). -/
def csIndex (id : Nat) (s : State) : Option Nat := s.cfg.sched.cs.findIdx? (fun n => n == id && n != 0xFF)

/-- The delay of each DOWN port that has a link has been measured (R300). -/
def delaysKnown (s : State) : Bool := [0, 2].all (fun p => !(busPort p s).link || (busPort p s).meas.isSome)

/-- OFF to LISTEN (R300). -/
def offToListen (s : State) : State :=
  if s.bus.st == .off && bit (rv 0x080000 s) 0 && decide (0 < s.cfg.sched.nodes) && delaysKnown s then toListen s else s

/-- The anchor that counts (R319, R491). -/
def anchorNow (s : State) : Option Anchor :=
  if s.cand.framErr then none else
  match s.cand.anchor.c0, s.cand.anchor.c1 with
  | some a, some b => some (if a.ancSeq < b.ancSeq then b else a)
  | some a, none => some a
  | none, b => b

/-- Station time is set: TIME_ADOPT, and TIME_BELOW_ANCHOR where it applies (R317, R321). -/
def adoptTime (cycle pos : Nat) (s : State) : State :=
  let old := now s
  let was := s.clk.prov
  let s := { s with clk.cycle := cycle, clk.pos := pos, clk.corr := 0, clk.carry := 0, clk.prov := false, clk.provHeld := false, bus.gskew := 0 }
  if was then
    let s := emit 0x4901 [(8, old), (8, now s), (4, 0), (4, 0)] s
    match anchorNow s with
    | some a =>
      if a.epoch = s.cfg.epoch ∧ now s < a.stamp then emit 0x4902 [(8, now s), (8, a.stamp), (4, 0), (4, 0)] s else s
    | none => s
  else s

/-- The seed of a cold start (R316). -/
def coldSeed (s : State) : Nat :=
  match anchorNow s with
  | some a => if a.epoch = s.cfg.epoch then max (2 ^ 32) (a.stamp / 2 ^ 24 + 1000) else 2 ^ 32
  | none => 2 ^ 32

/-- Enter COLDSTART for an attempt: the cycle is set so that the own frame starts at once (R302, R316). -/
def coldStart (attempt : Nat) (s : State) : State :=
  match csIndex s.cfg.sched.own s with
  | none => s
  | some k =>
    let p := 500 * k
    let c := if s.clk.prov then coldSeed s else if p < s.clk.pos then s.clk.cycle + 1 else s.clk.cycle
    let s := adoptTime c p s
    addRf 0x080010 20 8 1 { s with bus.st := .coldstart, bus.attempt := attempt, bus.csSent := 0, bus.csThis := false, bus.since := s.clk.up, bus.ref := s.cfg.sched.own }

/-- VBUS_ENABLE: a plain write of `VBUS_CTL`, behind `LOCK` (R300, R310). -/
def vbusCtlWrite (v : Nat) (s : State) : State :=
  if bit (rv 0x080000 s) 31 then lockViolation 0xF0080000 v s
  else
    let s := setRv 0x080000 (v % 4 + if bit v 31 then 2 ^ 31 else 0) s
    if bit v 0 then offToListen s else guardClose 1 { s with bus.st := .off, bus.leader := false }

/-- VBUS_ENABLE. -/
def execVbusEnable (dt : Nat) (data : Half) (s : State) : Host.Outcome State Fault Refusal := .next (blockCommand 8 (vbusCtlWrite data.toNat) (begin' dt s))

/-- LISTEN_TIMEOUT (R300, R302). -/
def execListenTimeout (dt : Nat) (s : State) : Host.Outcome State Fault Refusal :=
  let s := begin' dt s
  let due := usUp (2 * cycleUs s + 7 * s.cfg.sched.own) ≤ s.clk.up - s.bus.since
  .next (if powered s && s.bus.st == .listen && decide due then
      if (csIndex s.cfg.sched.own s).isSome && bit (rv 0x080000 s) 1 && !s.bus.everInt && decide (s.bus.csBar ≤ s.clk.cycle) then coldStart 1 s
      else { s with bus.since := s.clk.up }
    else s)

/-- BACKOFF_EXPIRY (R300, R302). -/
def execBackoffExpiry (dt : Nat) (s : State) : Host.Outcome State Fault Refusal :=
  let s := begin' dt s
  let due := usUp (cycleUs s + 7 * s.cfg.sched.own) ≤ s.clk.up - s.bus.since
  .next (if powered s && s.bus.st == .backoff && decide due then
      if s.bus.attempt < 16 then coldStart (s.bus.attempt + 1) s
      else
        toListen (emit 0x8802 [(1, (Config.detail 0x8802 0).toNat), (4, (Config.detail 0x8802 s.bus.attempt).toNat)] { s with bus.csBar := s.clk.cycle + 1000 })
    else s)

/-- BUS_LOST: 1,000 cycles in SILENT (R301). -/
def execBusLost (dt : Nat) (s : State) : Host.Outcome State Fault Refusal :=
  let s := begin' dt s
  .next (if powered s && s.bus.st == .silent && !s.bus.lostRec && decide (s.bus.silentAt + 1000 ≤ s.clk.cycle) then
      emit 0x8803 [(1, (Config.detail 0x8803 0).toNat), (4, (Config.detail 0x8803 1).toNat)] { s with bus.lostRec := true }
    else s)

/-- BUS_SILENCE: an active pair member that hears neither channel for one minor cycle (R28). -/
def execBusSilence (dt : Nat) (s : State) : Host.Outcome State Fault Refusal :=
  let s := begin' dt s
  .next (if s.pwr.phase == .running && s.lnk.pair == .active && decide (usUp (cycleUs s) ≤ s.clk.up - s.bus.heardAt) then vitalFault .busSilence 0 s else s)

/-- Takeover of the lamplighter's part, or LISTEN where no cold-start node was heard in both cycles (R300, R304). -/
def takeLamp (s : State) : State :=
  let both := s.bus.heardPrev.filter (fun n => s.bus.heardPrev2.contains n && (csIndex n s).isSome)
  match both with
  | [] => if s.bus.st == .synced then toListen s else s
  | n :: l =>
    let r := l.foldl min n
    { s with bus.ref := r, bus.leader := r == s.cfg.sched.own && s.bus.st == .synced, bus.missed := 0, bus.lastFull := none }

/-- LAMPLIGHTER_TAKEOVER (R304). -/
def execLamplighterTakeover (dt : Nat) (s : State) : Host.Outcome State Fault Refusal :=
  let s := begin' dt s
  .next (if powered s && busAligned s && !s.bus.leader && decide (2 ≤ s.bus.missed) then takeLamp s else s)

/-! ### Frames (R280 to R283) -/

/-- Delay of the own DOWN link as carried in `LINKDLY` (R281, R289). -/
def ownLinkDelay (ch : Nat) (s : State) : Nat :=
  match (busPort (2 * ch) s).meas with
  | some d => min d 126
  | none => 127

/-- A frame header (R281, R308). -/
def busHeader (ftype ch slot flags : Nat) (s : State) : Nat :=
  let m := s.cfg.sched.pmaj
  ftype + m % 16 * 2 ^ 4 + s.cfg.sched.own * 2 ^ 8 + ch * 2 ^ 14 + slot * 2 ^ 16
    + (if 2 ≤ m then ownLinkDelay ch s * 2 ^ 27 else 0)
    + (if 1 ≤ m then (flags % 16 * 2 ^ 34 + b2n s.bus.leader * 2 ^ 38) else 0)
    + s.clk.cycle % 2 ^ 24 * 2 ^ 40

/-- Payload of SYNC and COLDSTART (R283). -/
def syncPayload (attempt : Nat) (s : State) : List Byte :=
  let leader := if s.bus.leader then s.cfg.sched.own else if s.bus.st == .synced then s.bus.ref else 0xFF
  padTo 32 (packFields [(8, s.clk.cycle % 2 ^ 40), (4, s.cfg.sched.schedId), (1, leader), (1, attempt), (1, s.cfg.sched.pmaj), (1, s.cfg.sched.pmin)])

/-- An own frame leaves on one port, unless the port is busy (R272, R285). -/
def sendPort (p header : Nat) (payload : List Byte) (s : State) : State :=
  let x := busPort p s
  if !x.link then s
  else if s.clk.up < x.busyTo then busClash s
  else send (.bus p header payload) (modPort p (fun x => { x with busyTo := s.clk.up + 416 }) s)

/-- An own frame leaves on both ports of each channel that `CH` names (R285). The check values follow the payload. -/
def sendFrame (ftype slot flags : Nat) (presetP presetQ : Nat) (payload : List Byte) (s : State) : State :=
  [0, 1].foldl (fun s ch =>
    if slotOn slot ch s then
      let h := busHeader ftype ch slot flags s
      let b := leBytes 8 h ++ payload
      let b := payload ++ leBytes 4 (crc32cFrom presetP b) ++ leBytes 4 (crc32From presetQ b)
      sendPort (2 * ch + 1) h b (sendPort (2 * ch) h b s)
    else s) s

/-! ### Own slots (R284, R285, R298) -/

/-- The guardian's cycle start lies within 0.50 µs of the controller's: else it is closed for the cycle (R298). -/
def guardInStep (s : State) : Bool := decide (s.bus.gskew.natAbs ≤ 500)

/-- The guardian admits frames of a SYNCED node (R298). -/
def guardOpen (s : State) : Bool := s.bus.guard && guardInStep s

/-- A slot that this node may send in: its own, or its pair's while it is ACTIVE (R298, R309). -/
def ownSlot (slot : Nat) (s : State) : Bool :=
  decide (slot < slotCount s) && bit (slotWord slot s) 6 && (slotSenders slot s).contains s.cfg.sched.own
    && (!(bit (slotWord slot s) 12) || s.lnk.pair == .active)

/-- The frame that a slot gets from a taken or repeated telegram (R255, R356). -/
def prepVital (slot h ring : Nat) (data : List Byte) (s : State) : BusPrep × State :=
  let null : BusPrep := { slot := slot, ftype := 5, flags := telFlags s, payload := List.replicate 32 0#8 }
  let s := { s with bus.last := assocSet slot (h, data) s.bus.last }
  let data := bindFields (h % 4096) data s
  if s.cfg.sched.pmaj = 0 ∧ safeState s then (null, s)
  else
    let fl := telFlags s
    match sealTake h ring data s with
    | (none, s) => (null, s)
    | (some (t, x), s) =>
      let pay := if hasWick t then leBytes 2 x.wick ++ fitTo 30 data else fitTo 32 data
      let p := presets t x.seq
      ({ slot := slot, ftype := 3, flags := fl, payload := pay, presetP := p.1, presetQ := p.2, tSeal := x.tSeal }, s)

/-- The frame of an own VITAL or BACKGROUND slot (R255, R284, R461). -/
def prepSlot (slot : Nat) (s : State) : BusPrep × State :=
  let w := slotWord slot s
  let r := bits w 16 4
  let null : BusPrep := { slot := slot, ftype := 5, flags := telFlags s, payload := List.replicate 32 0#8 }
  if bits w 7 2 = 1 then
    if !(sealing s) ∨ 4 ≤ r then (null, s)
    else
      match ringTakeItem r s with
      | some (d, data, s1) => prepVital slot (fieldAt d 0 4) r data s1
      | none =>
        match assocGet slot s.bus.last with
        | some (h, data) => if s.xch.window then prepVital slot h r data s else (null, s)
        | none => (null, s)
  else if r = 0xF then
    match s.upd.busOut with
    | b :: t => ({ slot := slot, ftype := 4, flags := telFlags s, payload := fitTo 32 b }, { s with upd.busOut := t })
    | [] => (null, s)
  else if r < 4 ∧ rf 0x0C0000 0 1 s = 1 then
    match ringTakeItem r s with
    | some (_, data, s1) => ({ slot := slot, ftype := 4, flags := telFlags s, payload := fitTo 32 data }, s1)
    | none => (null, s)
  else (null, s)

/-- TXRING_TAKE: 3 us before an own VITAL or BACKGROUND slot its frame is prepared (R284). -/
def execTxringTake (dt slot : Nat) (s : State) : Host.Outcome State Fault Refusal :=
  let s := begin' dt s
  let k := bits (slotWord slot s) 7 2
  .next (if powered s && s.bus.st == .synced && guardOpen s && ownSlot slot s && (k == 1 || k == 2) then
      let (p, s) := prepSlot slot s
      { s with bus.prep := p :: s.bus.prep.filter (fun q => q.slot != slot) }
    else s)

/-- A guardian cut; the third of a major cycle silences the node (R298). -/
def babble (s : State) : State :=
  let s := cnt 0x08005C { s with bus.babble := s.bus.babble + 1 }
  if 3 ≤ s.bus.babble ∧ s.bus.st == .synced then toSilent 3 s else s

/-- The present instant lies within the window of a slot by the guardian's count (R298). -/
def inWindow (slot : Nat) (s : State) : Bool :=
  let a : Int := slotNs slot s
  let t : Int := 10 * (s.clk.pos : Nat) - s.bus.gskew
  decide (a - 100 ≤ t) && decide (t ≤ a + 4400)

/-- A pair slot before position 100 of the takeover cycle stays empty (R53). -/
def takeoverEmpty (slot : Nat) (s : State) : Bool :=
  bit (slotWord slot s) 12 && s.lnk.tookOver == some s.clk.cycle && decide (5 * slot < 100)

/-- An own slot starts: the frame of its kind is sent (R275, R285, R298, R302). -/
def slotGo (slot : Nat) (s : State) : State :=
  let w := slotWord slot s
  let win := s.clk.cycle * 4096 + slot
  let used := s.bus.window == some win
  let s' := { s with bus.window := some win }
  if bits w 7 2 = 0 then
    if s.bus.st == .coldstart then
      if !(guardInStep s) then s
      else if s.bus.csThis || used || !(inWindow slot s) then babble s
      else
        sendFrame 2 slot (telFlags s) 0xFFFFFFFF 0xFFFFFFFF (syncPayload s.bus.attempt s)
          { s' with bus.csThis := true, bus.csSent := s.bus.csSent + 1, bus.since := s.clk.up }
    else if guardOpen s then
      if used || !(inWindow slot s) then babble s
      else sendFrame 1 slot (telFlags s) 0xFFFFFFFF 0xFFFFFFFF (syncPayload 0 s) { s' with bus.hear.nodes := s.cfg.sched.own :: s.bus.hear.nodes.filter (· != s.cfg.sched.own) }
    else s
  else if !(guardOpen s) || takeoverEmpty slot s then s
  else if used || !(inWindow slot s) then babble s
  else
    let null : BusPrep := { slot := slot, ftype := 5, flags := telFlags s, payload := List.replicate 32 0#8 }
    let p := (s.bus.prep.find? (fun q => q.slot == slot)).getD null
    let p := if p.ftype = 3 ∧ fenced s ∧ s.lnk.ackT < p.tSeal then null else p
    let s := { s' with bus.prep := s.bus.prep.filter (fun q => q.slot != slot) }
    let s := if p.ftype = 5 then cnt 0x080060 s else s
    sendFrame p.ftype slot p.flags p.presetP p.presetQ p.payload s

/-- SLOT_START (R285). -/
def execSlotStart (dt slot : Nat) (s : State) : Host.Outcome State Fault Refusal :=
  let s := begin' dt s
  .next (if powered s && bit (rv 0x080000 s) 0 && ownSlot slot s then slotGo slot s else s)

/-! ### Forwarding (R270 to R272) -/

/-- A frame that the schedule sends from a node on the side of port `p` is expected now (R271). -/
def fwdExpected (p : Nat) (f : BusFrame) (s : State) : Bool :=
  let ch := p / 2
  let own := busPos ch s.cfg.sched.own s
  (List.range (slotCount s)).any (fun slot =>
    slotOn slot ch s && (slotSenders slot s).any (fun n =>
      let q := busPos ch n s
      (if p % 2 = 0 then decide (q < own) else decide (own < q) && decide (q < 64)) &&
        (match pathDelay ch n s with
         | some d => decide ((deviation (posNs f s) slot d s).1.natAbs ≤ 800)
         | none => false)))

/-- Cut-through to the other port of the channel, where the frame starts 0.64 µs later (R270, R271, R272). -/
def forward (f : BusFrame) (s : State) : State :=
  let p := f.port.val
  let q := if p % 2 = 0 then p + 1 else p - 1
  if busAligned s && !(fwdExpected p f s) then cnt 0x080048 s
  else if !(busPort q s).link then s
  else
    let x : OutFrame := { start := s.clk.up + 64, len := 416, header := f.header.toNat, bytes := f.payload ++ leBytes 8 f.check.toNat, fwd := true }
    modPort q (fun k => { k with out := k.out ++ [x] }) s

/-! ### Reception (R289 to R293) -/

/-- Header fields. -/
def hSrc (f : BusFrame) : Nat := bits f.header.toNat 8 6
def hSlot (f : BusFrame) : Nat := bits f.header.toNat 16 11
def hChan (f : BusFrame) : Nat := f.port.val / 2

/-- `LAMPLIGHTER` (R281); in major 0 a SYNC frame whose `LEADER` equals its `SRC` (R308). -/
def hLamp (f : BusFrame) (s : State) : Bool :=
  if s.cfg.sched.pmaj = 0 then fieldAt f.payload 12 1 == hSrc f else bit f.header.toNat 38

/-- Both check values pass with the standard presets (R282). -/
def busChecks (f : BusFrame) : Bool :=
  let b := leBytes 8 f.header.toNat ++ f.payload
  crc32c b == bits f.check.toNat 0 32 && crc32 b == bits f.check.toNat 32 32

/-- Band of a frame: `none` beyond the bands, else whether it lies in the SLOT_EDGE band, its deviation, and the cycle of its slot (R291, R308). -/
def bandOf (f : BusFrame) (s : State) : Option (Bool × Int × Nat) :=
  match pathDelay (hChan f) (hSrc f) s with
  | none => none
  | some d =>
    if slotCount s ≤ hSlot f then none
    else
      let (x, cyc) := deviation (posNs f s) (hSlot f) d s
      if x.natAbs ≤ 400 then some (false, x, cyc)
      else if x.natAbs ≤ 800 ∧ s.cfg.sched.pmaj ≠ 0 then some (true, x, cyc)
      else none

/-- `SRC`, `FTYPE`, `SLOT` and `CYCLE` agree with the schedule and with the cycle of the slot; in the own pair's slots `SRC` is the member known to be ACTIVE, so it is never this node (R292). -/
def headerAgrees (ftype cyc : Nat) (f : BusFrame) (s : State) : Bool :=
  let w := slotWord (hSlot f) s
  let kind := bits w 7 2
  let kindOk := if ftype ≤ 2 then kind == 0 else if ftype = 3 then kind == 1 else if ftype = 4 then kind == 2 else kind == 1 || kind == 2
  let ownPair := bit w 12 && (slotSenders (hSlot f) s).contains s.cfg.sched.own
  kindOk && slotOn (hSlot f) (hChan f) s && (slotSenders (hSlot f) s).contains (hSrc f)
    && !(ownPair && (hSrc f == s.cfg.sched.own || (s.lnk.pair == .active && s.bus.st != .integrating)))
    && bits f.header.toNat 40 24 == cyc % 2 ^ 24

/-- The delay that a header carries, due at the next boundary (R289). -/
def learnDelay (f : BusFrame) (s : State) : State :=
  if s.cfg.sched.pmaj ≤ 1 then s
  else { s with bus.dlyNew := s.bus.dlyNew ++ [(decide (hChan f = 1), hSrc f, bits f.header.toNat 27 7)] }

/-- A node learns also while it is not aligned, and of nodes whose path delay it does not know yet; the check values of a VITAL frame are its channel's and do not count here (R289). -/
def learnFirst (vital : Bool) (f : BusFrame) (s : State) : State :=
  let known := (busAligned s || s.bus.st == .integrating) && (pathDelay (hChan f) (hSrc f) s).isSome
  if !known && hSrc f != s.cfg.sched.own && (vital || busChecks f) then learnDelay f s else s

/-- A frame in the SLOT_EDGE band is counted per channel (R291). -/
def countEdge (f : BusFrame) (s : State) : State := stat (0x270 + 4 * hChan f) 1 (cnt (0x080030 + 4 * hChan f) s)

/-- A check failure is counted per channel (R292). -/
def countCrc (f : BusFrame) (s : State) : State := cnt (0x080038 + 4 * hChan f) s

/-- Every frame: heard, forwarded unless link-local (R28, R270). -/
def busHear (f : BusFrame) (s : State) : State := forward f { s with bus.heardAt := s.clk.up }

/-- The frame's schedule and version are this node's (R300, R307). -/
def syncMatches (f : BusFrame) (s : State) : Bool :=
  fieldAt f.payload 8 4 == s.cfg.sched.schedId && fieldAt f.payload 14 1 == s.cfg.sched.pmaj && fieldAt f.payload 15 1 == s.cfg.sched.pmin

/-- INTEGRATING: the sender is the reference; position and count are adopted once (R297, R300, R317). -/
def integrate (f : BusFrame) (s : State) : State :=
  match pathDelay (hChan f) (hSrc f) s with
  | none => s
  | some d =>
    let full := fieldAt f.payload 0 8 % 2 ^ 40
    let s := if s.bus.adopted then s else adoptTime full ((5000 * hSlot f + d) / 10) { s with bus.adopted := true, bus.first := true, bus.rate := 0 }
    modHear (deviation (posNs f s) (hSlot f) d s).2 (fun h => { h with seen := true, ok := true })
      { s with bus.st := .integrating, bus.leader := false, bus.ref := hSrc f, bus.lastFull := some full, bus.consist := 1 }

/-- A SYNC or COLDSTART frame in LISTEN (R300). -/
def listenRx (cold : Bool) (f : BusFrame) (s : State) : State :=
  if !(cold || hLamp f s) then s
  else if fieldAt f.payload 8 4 ≠ s.cfg.sched.schedId then { s with bus.mismatch := s.bus.mismatch + 1, bus.since := s.clk.up }
  else if !(syncMatches f s) then { s with bus.version := s.bus.version + 1, bus.since := s.clk.up }
  else integrate f s

/-- A frame of the reference while INTEGRATING (R300). -/
def integratingRx (ok : Bool) (cyc : Nat) (f : BusFrame) (s : State) : State :=
  let full := fieldAt f.payload 0 8 % 2 ^ 40
  if (hearOf cyc s).seen then s
  else if ok && syncMatches f s && s.bus.lastFull == some (full - 1) && decide (0 < full) then
    let s := modHear cyc (fun h => { h with seen := true, ok := true }) { s with bus.lastFull := some full, bus.consist := s.bus.consist + 1 }
    if 2 ≤ s.bus.consist then toSynced s else s
  else toListen s

/-- A SYNC or COLDSTART frame of a node whose clock is aligned (R291, R294, R304, R306). -/
def alignedRx (cold : Bool) (f : BusFrame) (s : State) : State :=
  match bandOf f s with
  | none => cnt 0x080044 s
  | some (edge, dev, cyc) =>
    let s := if edge then countEdge f s else s
    if !(busChecks f) then countCrc f s
    else if !(headerAgrees (if cold then 2 else 1) cyc f s) then
      let s := cnt 0x080040 s
      if s.bus.st == .integrating && hSrc f == s.bus.ref then toListen s else s
    else
      let s := learnDelay f s
      let src := hSrc f
      let s := if cold then s else modHear cyc (fun h => { h with nodes := src :: h.nodes.filter (· != src) }) s
      if src = s.bus.ref ∧ !s.bus.leader then
        let s := modHear cyc (fun h => if hChan f = 0 then { h with devX := some dev } else { h with devY := some dev }) s
        if s.bus.st == .integrating then integratingRx (!edge) cyc f s
        else
          { modHear cyc (fun h => { h with seen := true, ok := h.ok || !edge }) s with bus.lastFull := some (fieldAt f.payload 0 8 % 2 ^ 40) }
      else if !cold && hLamp f s && busAligned s && decide (src < (if s.bus.leader then s.cfg.sched.own else s.bus.ref)) then
        { s with bus.leader := false, bus.ref := src, bus.missed := 0 }
      else s

/-- SYNC and COLDSTART frames by node state (R300). -/
def syncRx (cold : Bool) (f : BusFrame) (s : State) : State :=
  let s := learnFirst false f (busHear f s)
  let valid := busChecks f && decide (hSrc f ≠ s.cfg.sched.own)
  match s.bus.st with
  | .off => s
  | .listen => if !(busChecks f) then countCrc f s else if valid then listenRx cold f s else s
  | .coldstart => if !(busChecks f) then countCrc f s else if valid && cold then { s with bus.st := .backoff } else s
  | .backoff => if !(busChecks f) then countCrc f s else if valid && cold && syncMatches f s then integrate f s else s
  | .integrating => alignedRx cold f s
  | .synced => alignedRx cold f s
  | .silent => alignedRx cold f s

/-- The bus works: power, a schedule, the port linked. -/
def busUp (f : BusFrame) (s : State) : Bool := powered s && decide (f.port.val < 4) && (busPort f.port.val s).link

/-- SYNC. -/
def execSync (dt : Nat) (f : BusFrame) (s : State) : Host.Outcome State Fault Refusal :=
  let s := begin' dt s
  .next (if busUp f s then syncRx false f s else s)

/-- COLDSTART. -/
def execColdstart (dt : Nat) (f : BusFrame) (s : State) : Host.Outcome State Fault Refusal :=
  let s := begin' dt s
  .next (if busUp f s then syncRx true f s else s)

/-- A frame from the pair partner in a pair slot of the own pair (R51). -/
def pairHeard (f : BusFrame) (s : State) : State :=
  if bit (slotWord (hSlot f) s) 12 && pairOf s.cfg.sched.own s == some (hSrc f) && (slotSenders (hSlot f) s).contains s.cfg.sched.own then
    let s := { s with lnk.heardPair := true }
    if s.bus.st == .integrating && s.lnk.pair == .active then toUnsynced { s with lnk.fencing := false, lnk.solo := false, prg.active := [] } else s
  else s

/-- Key of a slot in the list of copies that have passed. -/
def gotKey (cyc : Nat) (f : BusFrame) : Nat := cyc * 4096 + hSlot f

/-- A second copy: dropped, or counted where it passes and differs (R293). -/
def secondCopy (pass : Bool) (pay : List Byte) (f : BusFrame) (s : State) : State :=
  if !pass then countCrc f s else if pay != f.payload then cnt 0x080050 s else s

/-- The receive template of a bus slot (R350, R458). -/
def busTemplate (slot : Nat) (s : State) : Option Template := s.cfg.templates.find? (fun t => t.rx && t.transport == 0 && t.mtch == slot)

/-- Header flags of a received frame in the order of `TFLAGS` (R281, R308). -/
def hFlags (f : BusFrame) (s : State) : Nat := if s.cfg.sched.pmaj = 0 then 0 else bits f.header.toNat 34 4

/-- Receive ring of a slot: 4 to 7, else 0xF, not received (R277). -/
def rxRing (slot : Nat) (s : State) : Nat := let r := bits (slotWord slot s) 20 4; if 4 ≤ r ∧ r ≤ 7 then r else 0xF

/-- A VITAL frame in a band: checks, first copy, delivery (R291 to R293, R335). -/
def vitalRx (f : BusFrame) (s : State) : State :=
  match bandOf f s with
  | none => cnt 0x080044 s
  | some (edge, _, cyc) =>
    let s := if edge then countEdge f s else s
    let rx := rxRing (hSlot f) s
    let body := leBytes 8 f.header.toNat ++ f.payload
    let p := bits f.check.toNat 0 32
    let q := bits f.check.toNat 32 32
    let agrees := headerAgrees 3 cyc f s
    match busTemplate (hSlot f) s with
    | none => if agrees then pairHeard f (learnDelay f s) else cnt 0x080040 s
    | some t =>
      if (chan t.index s).st != .openSt then
        if !agrees then cnt 0x080040 s
        else
          let s := pairHeard f (learnDelay f s)
          if edge || s.bus.st != .synced || rx == 0xF || (assocGet (gotKey cyc f) s.bus.got).isSome then s
          else cnt 0x0B0080 { s with bus.got := assocSet (gotKey cyc f) (0, f.payload) s.bus.got }
      else
      match assocGet (gotKey cyc f) s.bus.got with
      | some (seq, pay) =>
        let ok := checkP (presets t seq) body == p && checkQ (presets t seq) body == q
        if ok && !agrees then cnt 0x080040 s else secondCopy ok pay f s
      | none =>
        match classify t (chan t.index s) body p q with
        | .pass seq =>
          if !agrees then cnt 0x080040 s
          else
            let s := pairHeard f (learnDelay f s)
            if edge || s.bus.st != .synced || rx == 0xF then s
            else
              let s := { s with bus.got := assocSet (gotKey cyc f) (seq, f.payload) s.bus.got }
              let w := if hasWick t then fieldAt f.payload 0 2 else 0
              telAccept { t with ring := rx } t.index seq (hFlags f s) w (if hasWick t then f.payload.drop 2 else f.payload) none s
        | k =>
          let s := telFail (classCounter k) (chan t.index s) (countCrc f s)
          if classCounter k = 0x0B0060 then stat 0x278 1 s else s

/-- A BACKGROUND or NULL frame in a band (R284, R291 to R293, R359). -/
def backgroundRx (null : Bool) (f : BusFrame) (s : State) : State :=
  match bandOf f s with
  | none => cnt 0x080044 s
  | some (edge, _, cyc) =>
    let s := if edge then countEdge f s else s
    if !(busChecks f) then countCrc f s
    else if !(headerAgrees (if null then 5 else 4) cyc f s) then cnt 0x080040 s
    else
      let s := pairHeard f (learnDelay f s)
      match assocGet (gotKey cyc f) s.bus.got with
      | some (_, pay) => secondCopy true pay f s
      | none =>
        let s := { s with bus.got := assocSet (gotKey cyc f) (0, f.payload) s.bus.got }
        let rx := rxRing (hSlot f) s
        if null || rx == 0xF || rf 0x0C0000 0 1 s != 1 then s
        else
          let desc := packFields [(4, 0), (4, 32 + 2 ^ 24 * hFlags f s + 2 ^ 28 * b2n edge), (8, 0), (8, now s), (8, 0)]
          deliverItem rx 0 false desc f.payload s

/-- A frame for a node without alignment only passes through (R271). -/
def dataRx (vital : Bool) (g : BusFrame → State → State) (f : BusFrame) (s : State) : State :=
  let s := learnFirst vital f (busHear f s)
  if busAligned s || s.bus.st == .integrating then g f s else s

/-- VITAL. -/
def execVital (dt : Nat) (f : BusFrame) (s : State) : Host.Outcome State Fault Refusal :=
  let s := begin' dt s
  .next (if busUp f s then dataRx true vitalRx f s else s)

/-- BACKGROUND. -/
def execBackground (dt : Nat) (f : BusFrame) (s : State) : Host.Outcome State Fault Refusal :=
  let s := begin' dt s
  .next (if busUp f s then dataRx false (backgroundRx false) f s else s)

/-- NULL. -/
def execNull (dt : Nat) (f : BusFrame) (s : State) : Host.Outcome State Fault Refusal :=
  let s := begin' dt s
  .next (if busUp f s then dataRx false (backgroundRx true) f s else s)

/-! ### Link delay (R286 to R289, R44, R54) -/

/-- Instants of the cycle in ns at which frames of the schedule start on the egress of a port (R279, R287). -/
def egressStarts (p : Nat) (s : State) : List Nat :=
  let ch := p / 2
  let own := busPos ch s.cfg.sched.own s
  ((List.range (slotCount s)).filter (fun slot => slotOn slot ch s)).flatMap (fun slot =>
    (slotSenders slot s).filterMap (fun n =>
      let q := busPos ch n s
      if q < 64 ∧ (if p % 2 = 0 then own ≤ q else q ≤ own) then some ((slotNs slot s + (max own q - min own q) * 740) % cycleNs s) else none))

/-- The egress is idle for 2.5 µs from instant `t` of the cycle, counting across its end (R287). -/
def idleAt (starts : List Nat) (t : Nat) (s : State) : Bool :=
  starts.all (fun a => decide (2500 ≤ (a + cycleNs s - t) % cycleNs s) && decide (4160 ≤ (t + cycleNs s - a) % cycleNs s))

/-- The egress of a port is idle for 2.5 us from now (R287). -/
def portIdle (p : Nat) (s : State) : Bool := idleAt (egressStarts p s) (10 * s.clk.pos) s

/-- Periods until the first idle interval of a port: from now, or from the end of a frame of the schedule (R287). -/
def idleWait (p : Nat) (s : State) : Nat :=
  let l := egressStarts p s
  let t := 10 * s.clk.pos
  if idleAt l t s then 0
  else
    let ends := (l.map (fun a => (a + 4160) % cycleNs s)).filter (fun e => idleAt l e s)
    ((ends.map (fun e => (e + cycleNs s - t) % cycleNs s)).foldl min (cycleNs s) + 9) / 10

/-- A measurement of a DOWN port is due: after link-up, in the node's cycle of each thousand, or after a failure (R287). -/
def measureDue (p : Nat) (s : State) : Bool :=
  let x := busPort p s
  match x.t1 with
  | some (_, c) => decide (c < s.clk.cycle)
  | none => x.meas.isNone || (s.clk.cycle % 1000 == s.cfg.sched.own && x.measCycle != s.clk.cycle % 2 ^ 24)

/-- Bytes of a delay frame behind its header: payload and CRC-32C (R286). -/
def delayBytes (header : Nat) (payload : List Byte) : List Byte := payload ++ leBytes 4 (crc32c (leBytes 8 header ++ payload))

/-- A delay frame leaves a bus port, `wait` periods from now or when the port is free (R286, R287). -/
def sendDelay (wait p header : Nat) (payload : List Byte) (s : State) : State :=
  let x : OutFrame := { start := s.clk.up + wait, len := 160, header := header, bytes := delayBytes header payload, fwd := false }
  pumpPort p (modPort p (fun k => { k with out := k.out ++ [x] }) s)

/-- LINK_DELAY_MEASURE on a bus DOWN port, or on a module link by the member of the lower cluster number (R54, R287, R299). -/
def measureStart (p : Nat) (s : State) : State :=
  if p < 4 then
    let x := busPort p s
    if p % 2 = 0 && x.link && measureDue p s && (!(busAligned s) || portIdle p s) && decide (x.busyTo ≤ s.clk.up) then
      sendDelay 0 p (busHeader 6 (p / 2) 0 (telFlags s) s) (List.replicate 4 0#8) (modPort p (fun x => { x with t1 := some (10 * s.clk.up, s.clk.cycle) }) s)
    else s
  else
    let l := p - 4
    let x := link l s
    if x.width ≠ 0 ∧ s.cfg.cluster < linkPeer l s ∧ (x.delay = 0x3FF ∨ x.measAt + 1000 ≤ s.clk.cycle) then
      sendLink l 4 2 0 [] (modLink l (fun x => { x with t1 := none, measAt := s.clk.cycle }) s)
    else s

/-- LINK_DELAY_MEASURE. -/
def execLinkDelayMeasure (dt : Nat) (port : Fin 7) (s : State) : Host.Outcome State Fault Refusal :=
  let s := begin' dt s
  .next (if powered s then measureStart port.val s else s)

/-- The CRC-32C of a delay frame on the bus passes (R286). -/
def delayCheck (f : BusFrame) : Bool := crc32c (leBytes 8 f.header.toNat ++ f.payload.take 4) == bits f.check.toNat 0 32

/-- A delay frame that arrives on a module link (R54). -/
def linkArrive (f : BusFrame) (s : State) : Bool × State :=
  linkIn (f.port.val - 4) { head := BitVec.ofNat 128 (f.header.toNat + 2 ^ 64 * f.lseq.toNat), check := f.check } f.payload s

/-- No link to a lower-numbered integrated member is up (R44). -/
def lowestInteg (l : Nat) (s : State) : Bool := (List.range l).all (fun k => !(link k s).integ || (link k s).width == 0)

/-- The cycle position that a link gives: taken whole the first time and after a loss of step, followed within the cycle afterwards, so that no boundary is passed over or repeated (R44, R315). -/
def followTime (c pos : Nat) (s : State) : State :=
  if s.clk.prov then adoptTime c pos s
  else if c = s.clk.cycle then { s with clk.pos := min pos (cycleTicks s - 1) }
  else if c = s.clk.cycle + 1 then { s with clk.pos := cycleTicks s - 1 }
  else if c + 1 = s.clk.cycle then { s with clk.pos := 0 }
  else adoptTime c pos s

/-- Station time from a link, for a member that is not integrated on a vital bus: from the link to the lowest-numbered integrated member (R44, R315). -/
def linkTime (f : BusFrame) (s : State) : State :=
  let l := f.port.val - 4
  let s := modLink l (fun k => { k with integ := f.time.isSome }) s
  match f.time with
  | some t =>
    let d := (link l s).delay
    if s.bus.st != .synced && lowestInteg l s && decide (d < 0x3FF) then
      let x := lin t.toNat + d * 16384000 / (1000 * cycleUs s)
      let s := followTime (x / 16384000) (x % 16384000 * (100 * cycleUs s) / 16384000) s
      { s with lnk.timed := true }
    else s
  | none => s

/-- DELAY_REQ: answered on the same port, by an integrated node in the first idle interval (R287); the turnaround time is this module's own (R286). -/
def delayReqRx (f : BusFrame) (s : State) : State :=
  if f.port.val < 4 then
    let s := { s with bus.heardAt := s.clk.up }
    if (busPort f.port.val s).link && delayCheck f then
      let (v, s) := takeFree s
      sendDelay (if busAligned s then idleWait f.port.val s else 0) f.port.val (busHeader 7 (f.port.val / 2) 0 (telFlags s) s) (leBytes 4 v.toNat) s
    else s
  else if (link (f.port.val - 4) s).width = 0 then s
  else
    match linkArrive f s with
    | (true, s) => let (v, s) := takeFree (linkTime f s); sendLink (f.port.val - 4) 5 2 0 (leBytes 8 v.toNat) s
    | (false, s) => s

/-- DELAY_REQ. -/
def execDelayReq (dt : Nat) (f : BusFrame) (s : State) : Host.Outcome State Fault Refusal :=
  let s := begin' dt s
  .next (if powered s then delayReqRx f s else s)

/-- Half of the round trip less the turnaround, to the nearest ns (R286). -/
def halfTrip (trip turn : Nat) : Nat := (trip - turn + 1) / 2

/-- A link delay too long, or off its configured value: `LINK_LONG` (R288, R308). -/
def checkLong (p d : Nat) (s : State) : State :=
  let ch := p / 2
  let sc := s.cfg.sched
  let conf := (if ch = 0 then sc.delX else sc.delY).getD (busPos ch sc.own s) 255
  let off := decide (sc.pmaj ≤ 1) && decide (conf < 255) && (decide (conf + 20 < d) || decide (d + 20 < conf))
  if 100 < d || off then nvEvent 8 0x0006 p d (setRf 0x080010 (16 + p) 1 1 s) else s

/-- DELAY_RESP: the delay of the link (R286 to R288). -/
def delayRespRx (f : BusFrame) (s : State) : State :=
  if f.port.val < 4 then
    let p := f.port.val
    let s := { s with bus.heardAt := s.clk.up }
    match (busPort p s).t1 with
    | some (t1, _) =>
      let trip := refNs f s - t1
      if (busPort p s).link && delayCheck f && decide (trip ≤ 1000 * cycleUs s) then
        let d := halfTrip trip (fieldAt f.payload 0 4)
        let s := checkLong p d (modPort p (fun x => { x with t1 := none, meas := some d, measCycle := s.clk.cycle % 2 ^ 24 }) s)
        offToListen s
      else s
    | none => s
  else if (link (f.port.val - 4) s).width = 0 then s
  else
    match linkArrive f s with
    | (true, s) =>
      let l := f.port.val - 4
      match (link l s).t1 with
      | some t1 =>
        linkTime f (modLink l (fun x => { x with t1 := none, delay := min (halfTrip (refNs f s - 10 * t1) (fieldAt f.payload 0 8)) 0x3FE }) s)
      | none => s
    | (false, s) => s

/-- DELAY_RESP. -/
def execDelayResp (dt : Nat) (f : BusFrame) (s : State) : Host.Outcome State Fault Refusal :=
  let s := begin' dt s
  .next (if powered s then delayRespRx f s else s)

/-- PORT_LINK_UP: the delay of the link is to be measured (R287, R480). -/
def execPortLinkUp (dt : Nat) (port : Fin 4) (s : State) : Host.Outcome State Fault Refusal :=
  let s := begin' dt s
  .next (if powered s then offToListen (modPort port.val (fun x => { x with link := true, meas := none, t1 := none }) s) else s)

/-- PORT_LINK_DOWN: no link, no delay (R281, R289). -/
def execPortLinkDown (dt : Nat) (port : Fin 4) (s : State) : Host.Outcome State Fault Refusal :=
  let s := begin' dt s
  .next (if powered s then offToListen (modPort port.val (fun x => { x with link := false, meas := none, t1 := none, busyTo := 0, out := [] }) s) else s)

/-! ### The boundary (R289, R294, R295, R300) -/

/-- Learned delays take effect; a change of more than 20 ns is recorded (R289). -/
def applyDelays : List (Bool × Nat × Nat) → State → State
  | [], s => s
  | (y, n, v) :: t, s =>
    let old := (if y then s.bus.dlyY else s.bus.dlyX).getD n 127
    let s := if y then { s with bus.dlyY := modNth (fun _ => v) n s.bus.dlyY } else { s with bus.dlyX := modNth (fun _ => v) n s.bus.dlyX }
    applyDelays t (if old < 127 ∧ v < 127 ∧ (old + 20 < v ∨ v + 20 < old) then emit 0x8804 [(1, if y then 2 else 0), (4, v)] s else s)

/-- Correction of `c` quarter ns, spread over the cycle that begins: whole microticks, the rest carried (R295). -/
def applyCorr (c : Int) (s : State) : State :=
  let c := c + s.clk.carry
  let n : Int := (c.natAbs / 40 : Nat)
  let a : Int := if c < 0 then -10 * n else 10 * n
  { s with clk.corr := a, clk.carry := c - 4 * a }

/-- Deviation of the cycle in quarter ns: the mean of the channels measured, `none` where none is or they are skewed (R294). -/
def meanDev (s : State) : Option Int × State :=
  match s.bus.hear.devX, s.bus.hear.devY with
  | some x, some y => if 400 < (x - y).natAbs then (none, cnt 0x080054 s) else (some (2 * (x + y)), s)
  | some x, none => (some (4 * x), s)
  | none, some y => (some (4 * y), s)
  | none, none => (none, s)

/-- The offset term limited to 600 ns (R297, R301). -/
def limitDev (d : Int) : Int := if 2400 < d then 2400 else if d < -2400 then -2400 else d

/-- The rate lies within 200 ppm (R294, R296). -/
def rateOk (s : State) : Bool := decide (5 * s.bus.rate.natAbs ≤ 4 * cycleUs s)

/-- The correction of a follower at a boundary (R294, R300, R301). -/
def alignClock (s : State) : State :=
  let (m, s) := meanDev s
  match m with
  | none => applyCorr (-s.bus.rate) { s with bus.silentGood := 0 }
  | some dev =>
    let s := setRf 0x080018 0 16 (ofSigned 16 (dev / 4)) s
    if s.bus.first then applyCorr (-dev) { s with bus.first := false }
    else
      let d := if s.bus.st == .silent then limitDev dev else dev
      let s := { s with bus.rate := s.bus.rate + d / 2 }
      let s := if s.bus.st == .synced ∧ (2400 < dev.natAbs ∨ !(rateOk s)) then toSilent 2 s else s
      let s := applyCorr (-(limitDev d + s.bus.rate)) s
      if s.bus.st == .silent && decide (dev.natAbs ≤ 1600) && rateOk s then
        if 1 ≤ s.bus.silentGood then toSynced s else { s with bus.silentGood := s.bus.silentGood + 1 }
      else { s with bus.silentGood := 0 }

/-- The node's clock at a boundary, by its state (R294, R302, R304). -/
def busClock (s : State) : State :=
  match s.bus.st with
  | .synced => if s.bus.leader then applyCorr (-s.bus.rate) s else alignClock s
  | .silent => alignClock s
  | _ => applyCorr (-s.bus.rate) s

/-- State changes that fall on a boundary (R300, R304). -/
def busStates (s : State) : State :=
  match s.bus.st with
  | .coldstart =>
    if !s.bus.csThis then { s with bus.csSent := 0 }
    else if 4 ≤ s.bus.csSent then { toSynced s with bus.leader := true, bus.ref := s.cfg.sched.own, bus.first := false }
    else s
  | .integrating => if s.bus.hear.seen then s else toListen s
  | .synced => if s.bus.leader then s else { s with bus.missed := if s.bus.hear.seen then 0 else s.bus.missed + 1 }
  | .silent => { s with bus.missed := if s.bus.hear.seen then 0 else s.bus.missed + 1 }
  | _ => s

/-- The guardian compares its cycle start with the controller's: beyond 0.50 µs it is closed for the cycle, and counted (R298). -/
def guardSync (skew : Int) (s : State) : State :=
  let s := { s with bus.gskew := skew }
  if guardInStep s then s else { s with bus.gsync := s.bus.gsync + 1 }

/-- The vital bus at a minor-cycle boundary, the cycle count already advanced. -/
def busBoundary (skew : Int) (s : State) : State :=
  let s := guardSync skew s
  let s := applyDelays s.bus.dlyNew { s with bus.dlyNew := [] }
  let s := if s.bus.guardNext && s.bus.st == .synced then { s with bus.guard := true, bus.gcause := 0, bus.guardNext := false } else s
  let s := busStates s
  let s := if s.bus.leader && s.bus.guardNext then { s with bus.guard := true, bus.gcause := 0, bus.guardNext := false } else s
  let s := busClock s
  { s with
    bus.babble := if s.clk.cycle % 1000 = 0 then 0 else s.bus.babble
    bus.hear := s.bus.early, bus.early := {}, bus.csThis := false
    bus.heardPrev2 := s.bus.heardPrev, bus.heardPrev := s.bus.hear.nodes
    bus.got := s.bus.got.filter (fun g => decide ((s.clk.cycle - 1) * 4096 ≤ g.1)) }

end Sys2Proof.Machine
end

