-- ==== Sys2Proof/Machine/Float.lean ====
section
/-! DEFINITION. IEEE 754 binary64 as R126 and R129 use it: round to nearest, ties to even, no trap. A finite value is a whole number of units of 2^-1074. -/

namespace Sys2Proof.Machine

/-- Exponent and fraction fields, sign. -/
def fExp (x : Nat) : Nat := bits x 52 11
def fFrac (x : Nat) : Nat := bits x 0 52
def fNeg (x : Nat) : Bool := bit x 63

/-- Not a number; infinite. -/
def fNan (x : Nat) : Bool := fExp x == 2047 && fFrac x != 0
def fInf (x : Nat) : Bool := fExp x == 2047 && fFrac x == 0

/-- Magnitude of a finite value in units of 2^-1074. -/
def fMag (x : Nat) : Nat := if fExp x = 0 then fFrac x else (2 ^ 52 + fFrac x) * 2 ^ (fExp x - 1)

/-- A finite value in units of 2^-1074. -/
def fVal (x : Nat) : Int := if fNeg x then -(fMag x : Int) else (fMag x : Int)

/-- The sign bit. -/
def fSign (neg : Bool) : Nat := if neg then 2 ^ 63 else 0

/-- Infinity with a sign. -/
def fInfinity (neg : Bool) : Nat := fSign neg + 0x7FF0000000000000

/-- Nearest whole number to `n / d`, ties to even. -/
def roundDiv (n d : Nat) : Nat :=
  let q := n / d
  let r := 2 * (n % d)
  if r < d then q else if d < r then q + 1 else q + q % 2

/-- The binary64 nearest to `n / d` units, ties to even (R129). -/
def fRound (neg : Bool) (n d : Nat) : Nat :=
  let q := n / d
  let e := if q < 2 ^ 53 then 0 else q.log2 - 52
  let m := roundDiv n (d * 2 ^ e)
  let b := e * 2 ^ 52 + m
  if 0x7FF0000000000000 ≤ b then fInfinity neg else fSign neg + b

/-- A NaN that a rule names without its bits. -/
def fNanOf (k : Nat) : Nat := (Config.nanBits k).toNat

/-- Sum; an exact zero is positive unless both terms are negative zeros. -/
def fAdd (a b : Nat) : Nat :=
  if fNan a || fNan b then fNanOf 1
  else if fInf a then (if fInf b && fNeg a != fNeg b then fNanOf 1 else fInfinity (fNeg a))
  else if fInf b then fInfinity (fNeg b)
  else
    let v := fVal a + fVal b
    if v = 0 then fSign (fNeg a && fNeg b) else fRound (decide (v < 0)) v.natAbs 1

/-- The value with its sign changed. -/
def fNegate (a : Nat) : Nat := if fNeg a then a - 2 ^ 63 else a + 2 ^ 63

/-- Difference. -/
def fSub (a b : Nat) : Nat := if fNan b then fNanOf 2 else fAdd a (fNegate b)

/-- Product. -/
def fMul (a b : Nat) : Nat :=
  let n := fNeg a != fNeg b
  if fNan a || fNan b then fNanOf 3
  else if fInf a then (if !(fInf b) && fMag b == 0 then fNanOf 3 else fInfinity n)
  else if fInf b then (if fMag a = 0 then fNanOf 3 else fInfinity n)
  else fRound n (fMag a * fMag b) (2 ^ 1074)

/-- Quotient. -/
def fDiv (a b : Nat) : Nat :=
  let n := fNeg a != fNeg b
  if fNan a || fNan b then fNanOf 4
  else if fInf a then (if fInf b then fNanOf 4 else fInfinity n)
  else if fInf b then fSign n
  else if fMag b = 0 then (if fMag a = 0 then fNanOf 4 else fInfinity n)
  else fRound n (fMag a * 2 ^ 1074) (fMag b)

/-- Remainder with the sign of `a` (R128). -/
def fMod (a b : Nat) : Nat :=
  if fNan a || fNan b || fInf a then fNanOf 5
  else if fInf b then a
  else if fMag b = 0 then fNanOf 5
  else fRound (fNeg a) (fMag a % fMag b) 1

/-- Absolute value. -/
def fAbs (a : Nat) : Nat := a % 2 ^ 63

/-- Order of two values that are no NaN: infinities lie beyond every finite value. -/
def fKey (a : Nat) : Int := if fInf a then (if fNeg a then -(2 ^ 2100 : Nat) else (2 ^ 2100 : Nat)) else fVal a

/-- Equality and order as IEEE 754 compares: a NaN is neither equal nor ordered, and both zeros are equal. -/
def fEq (a b : Nat) : Bool := !(fNan a) && !(fNan b) && fKey a == fKey b
def fLt (a b : Nat) : Bool := !(fNan a) && !(fNan b) && decide (fKey a < fKey b)

/-- The binary64 nearest to an integer. -/
def fOfInt (i : Int) : Nat := fRound (decide (i < 0)) (i.natAbs * 2 ^ 1074) 1

/-- The integer nearest to a value that is no NaN, ties to even, before saturation (R129). -/
def fToInt (a : Nat) : Int :=
  let m : Int := (roundDiv (fMag a) (2 ^ 1074) : Nat)
  if fNeg a then -m else m

end Sys2Proof.Machine
end

