-- ==== Sys2Proof/Machine/Flags.lean ====
section
/-! DEFINITION. The context an instruction runs in, the flags `OVF` and `DIVZ`, and the read-only scratch registers (R127, R129). -/

namespace Sys2Proof.Machine

/-- The release that runs on a lane table, or the context of an instruction that runs while no release does. -/
def ctx (b : Bool) (s : State) : Release :=
  match running b s with
  | some r => r
  | none => s.prg.idle

/-- Change the first release of a lane table. -/
def modFirst (b : Bool) (f : Release → Release) : List Release → List Release
  | [] => []
  | r :: t => if r.laneB == b then f r :: t else r :: modFirst b f t

/-- Change the context. -/
def modCtx (b : Bool) (f : Release → Release) (s : State) : State :=
  match running b s with
  | some _ => { s with prg.active := modFirst b f s.prg.active }
  | none => { s with prg.idle := f s.prg.idle }

/-- `OVF` is set until the end of the release (R129). -/
def setOvf (b on : Bool) (s : State) : State := if on then modCtx b (fun r => { r with ovf := true }) s else s

/-- `DIVZ` is set until the end of the release (R129). -/
def setDivz (b on : Bool) (s : State) : State := if on then modCtx b (fun r => { r with divz := true }) s else s

/-- Operating mode as SCR 0 bits 14:12 show it (R127). -/
def scrMode (s : State) : Nat :=
  match s.prg.mode with
  | .free => causeCode s.prg.cause
  | .normal => 4
  | _ => 0

/-- The read-only scratch registers 0 to 7 (R127). -/
def scrFixed (b : Bool) (n : Nat) (s : State) : Nat :=
  let r := ctx b s
  match n with
  | 0 => b2n r.firstScan + 2 * b2n (s.frc.ind || !s.frc.table.isEmpty) + 2 ^ 8 * b2n r.ovf + 2 ^ 9 * b2n r.divz + 2 ^ 12 * scrMode s + 2 ^ 15 * b2n s.cfg.split
  | 1 => r.stamp
  | 2 => r.trigStamp
  | 3 => r.trigDetail
  | 4 => r.trigCount
  | 5 => (match r.conv with | some k => k.old | none => 0)
  | _ => 0

/-- Frame of the block that runs. -/
def frameOf (b : Bool) (s : State) : Frame := match (ctx b s).frames with | f :: _ => f | [] => {}

/-- The program image the lanes execute. -/
def activeProg (s : State) : Option ProgImage := if s.vm.activeSlot = 0 then s.vm.prog0 else s.vm.prog1

/-- A block of it. -/
def blockInfo (i : Nat) (s : State) : Option BlockInfo :=
  match activeProg s with
  | some p => p.blocks[i]?
  | none => none

/-- `FIRST` of the current instance (R132, R152). -/
def firstUse (b : Bool) (s : State) : Bool :=
  let a := (frameOf b s).base + 8
  bit (memNat (granule s.vm.mapActive a) 8 s.mem) 0

end Sys2Proof.Machine
end

