-- ==== Sys2Proof/Machine/Operands.lean ====
section
/-! DEFINITION. Operands of VBC instructions: every space, every type (R126, R127, R130, R135, R219). -/

namespace Sys2Proof.Machine

/-- What evaluating an operand or an instruction leads to. -/
inductive Ev where
  /-- A state and a value. -/
  | ok (s : State) (v : Nat)
  /-- A run-time trap (R130). -/
  | trap (c : TrapCause) (s : State)

/-- Go on, unless a trap or a vital fault has ended the instruction. -/
def Ev.bind : Ev → (State → Nat → Ev) → Ev
  | .ok s v, k => if s.prg.mode == .halted then .ok s v else k s v
  | .trap c s, _ => .trap c s

/-- Width of a type in bits. -/
def tyWidth (ty : Nat) : Nat := if ty = 0 then 1 else if ty = 1 ∨ ty = 2 then 32 else 64

/-- Signed types: INT32, INT64, TIME. -/
def tySigned (ty : Nat) : Bool := ty == 1 || ty == 3 || ty == 6

/-- Integer types, TIME and TSTAMP among them. -/
def tyInt (ty : Nat) : Bool := 1 ≤ ty && ty ≤ 7 && ty != 5

/-- The integer that a slot holds in a type. -/
def tyVal (ty v : Nat) : Int := if tySigned ty then toSigned (tyWidth ty) v else ((v % 2 ^ tyWidth ty : Nat) : Int)

/-- The slot of an integer in a type. -/
def tyEnc (ty : Nat) (i : Int) : Nat := ofSigned (tyWidth ty) i

/-- A 64-bit slot as an operand of a type: low 32 bits, and a BOOL other than 0 or 1 traps (R126, R130). -/
def tyRead (ty v : Nat) (s : State) : Ev :=
  if ty = 0 then (if v ≤ 1 then .ok s v else .trap .boolOperand s)
  else .ok s (v % 2 ^ tyWidth ty)

/-- Space and index of a specifier (R127). -/
def opSpace (w : BitVec 16) : Nat := bits w.toNat 13 3
def opIndex (w : BitVec 16) : Nat := bits w.toNat 0 13

/-- Index plus a displacement; `none` below 0. -/
def opAt (w : BitVec 16) (disp : Int) : Option Nat :=
  let i : Int := (opIndex w : Int) + disp
  if i < 0 then none else some i.toNat

/-- A scratch register (R127). -/
def scrGet (b : Bool) (n : Nat) (s : State) : Nat :=
  if n < 8 then scrFixed b n s
  else match assocGet n (ctx b s).scr with
    | some v => v.toNat
    | none => 0

/-- Set a scratch register; a register at 0 is not listed. -/
def scrSet (b : Bool) (n v : Nat) (s : State) : State :=
  modCtx b (fun r => { r with scr := if v % 2 ^ 64 = 0 then assocDel n r.scr else assocSet n (BitVec.ofNat 64 v) r.scr }) s

/-- An input point is configured (R135). -/
def inConfigured (p : Nat) (s : State) : Bool := (liveInputs s).any (fun x => x.1 == p)

/-- An unconfigured input point reads VALUE 0 with RESTRICT set (R135). -/
def inWord (p v : Nat) (s : State) : Nat := if inConfigured p s then v else 2 ^ 33

/-- Slot address that a PTR operand names: the low 40 bits of its scratch register, aligned to the slot, and the displacement (R127). -/
def ptrAddr (b : Bool) (w : BitVec 16) (disp : Int) (s : State) : Nat :=
  let a : Int := ((scrGet b (opIndex w % 256) s % 2 ^ 40 / 8 * 8 : Nat) : Int) + 8 * disp
  (a % (2 ^ 40 : Nat)).toNat

/-- Instance map that translates a PTR operand: in a conversion block the old one through scratch register 5 (R243, R257). While such a block runs, the old map stands in the place of the prepared one. -/
def ptrMap (b : Bool) (w : BitVec 16) (s : State) : List (Nat × Nat) :=
  if (ctx b s).conv.isSome ∧ opIndex w % 256 = 5 then s.vm.mapNew else s.vm.mapActive

/-- A PTR read; of the input image region it gives the image of the release (R61, R62, R130, R144, R219). -/
def ptrRead (b : Bool) (map : List (Nat × Nat)) (a : Nat) (s : State) : Ev :=
  if 0x07010000 ≤ a ∧ a < 0x07020000 then .ok s (inWord ((a - 0x07010000) / 8) (memNat a 8 (ctx b s).img) s)
  else if laneAddress a then
    let (s, v) := laneReadBy map true a s
    .ok s v
  else .trap .ptrRead s

/-- The 64-bit slot of an operand, `disp` places after it in its space (R127, R128). -/
def slotRead (b : Bool) (w : BitVec 16) (disp : Int) (s : State) : Ev :=
  match opSpace w, opAt w disp with
  | 6, _ => ptrRead b (ptrMap b w s) (ptrAddr b w disp s) s
  | 7, _ => .trap .opc s
  | _, none => .trap .index s
  | 0, some i =>
    if i < 8192 then let (s, v) := laneRead ((frameOf b s).base + 8 * i) s; .ok s v else .trap .index s
  | 1, some i => if i < 256 then .ok s (scrGet b i s) else .trap .index s
  | 2, some i =>
    if i < 8192 then .ok s (inWord i (memNat (0x07010000 + 8 * i) 8 (ctx b s).img) s) else .trap .index s
  | 3, some i =>
    if i < 8192 then let (s, v) := laneRead (0x07020000 + 8 * i) s; .ok s v else .trap .index s
  | 4, some i =>
    match blockInfo (frameOf b s).block s with
    | some k => (match k.consts[i]? with | some v => .ok s v | none => .trap .index s)
    | none => .trap .index s
  | _, some i =>
    if i < 8192 then let (s, v) := laneRead (0x07000000 + 8 * i) s; .ok s v else .trap .index s

/-- An image point as an operand of a BOOL or 32-bit type is its VALUE; a 64-bit type takes the whole point (R135). -/
def imageValue (w : BitVec 16) (ty v : Nat) : Nat :=
  if (opSpace w = 2 ∨ opSpace w = 3) ∧ ty < 3 then v % 2 ^ 32 else v

/-- Operand of a type (R126). -/
def opRead (b : Bool) (ty : Nat) (w : BitVec 16) (disp : Int) (s : State) : Ev :=
  (slotRead b w disp s).bind (fun s v => tyRead ty (imageValue w ty v) s)

/-- Store a slot at an address of the application regions; a PTR write to lattice SRAM is discarded and recorded (R61, R130, R219). -/
def memWrite (a v : Nat) (s : State) : Ev :=
  if laneWritable a s then .ok (laneStore a (leBytes 8 v) s) 0
  else if 0x100000000 ≤ a ∧ a < 0x100600000 then .ok (nvEvent 6 0x0001 (v % 2 ^ 32) a s) 0
  else .trap .write s

/-- A store of the program of lane table `b` into its instance or the global region goes through the data cache (R172, R219). -/
def cellWrite (b : Bool) (a v : Nat) (s : State) : Ev :=
  if laneWritable a s then .ok (cacheStore b a (laneStore a (leBytes 8 v) s)) 0 else .trap .write s

/-- A conversion block may write its new instance alone (R257). -/
def convWrite (k : ConvCtx) (b : Bool) (w : BitVec 16) (disp : Int) (v : Nat) (s : State) : Ev :=
  match opSpace w, opAt w disp with
  | 0, some i =>
    let a := (frameOf b s).base + 8 * i
    if i < 8192 ∧ k.lo ≤ a ∧ a < k.hi then cellWrite b a v s else .trap .write s
  | _, _ => .trap .write s

/-- Write the 64-bit slot of an operand of a release (R127, R130, R145). -/
def taskWrite (b : Bool) (w : BitVec 16) (disp : Int) (v : Nat) (s : State) : Ev :=
  match opSpace w, opAt w disp with
  | 6, _ =>
    let a := ptrAddr b w disp s
    if laneWritable a s then cellWrite b a v s else memWrite a v s
  | 7, _ => .trap .opc s
  | 2, _ => .trap .write s
  | 4, _ => .trap .write s
  | _, none => .trap .index s
  | 0, some i =>
    if i < 8192 then
      cellWrite b ((frameOf b s).base + 8 * i) v s
    else .trap .index s
  | 1, some i => if 256 ≤ i then .trap .index s else if i < 8 then .trap .write s else .ok (scrSet b i v s) 0
  | 3, some i =>
    if i < 8192 then .ok (modCtx b (fun r => { r with outs := r.outs ++ [(i, v % 2 ^ 32)] }) s) 0 else .trap .index s
  | _, some i =>
    if i < 8192 then
      cellWrite b (0x07000000 + 8 * i) v s
    else .trap .index s

/-- Write the 64-bit slot of an operand. -/
def slotWrite (b : Bool) (w : BitVec 16) (disp : Int) (v : Nat) (s : State) : Ev :=
  match (ctx b s).conv with
  | some k => convWrite k b w disp v s
  | none => taskWrite b w disp v s

/-- Write a result of a type: the high half of the slot of a 32-bit type is a free value (R126). -/
def opWrite (b : Bool) (ty : Nat) (w : BitVec 16) (disp : Int) (v : Nat) (s : State) : Ev :=
  if tyWidth ty = 32 then
    let (f, s) := takeFree s
    slotWrite b w disp (v % 2 ^ 32 + f.toNat / 2 ^ 32 * 2 ^ 32) s
  else slotWrite b w disp (v % 2 ^ tyWidth ty) s

/-- Specifiers that name a slot of the current instance. -/
def isInst (w : BitVec 16) : Bool := opSpace w == 0

end Sys2Proof.Machine
end

