-- ==== Sys2Proof/Machine/Vbc.lean ====
section
/-! DEFINITION. The vital program's instructions (R124 to R131, R145, R147 to R149, R152 to R160), except RDREG and WRREG. -/

namespace Sys2Proof.Machine

/-! ### Running one instruction -/

/-- The instruction index of the running block advances (R125). -/
def advance (b : Bool) (s : State) : State :=
  modCtx b (fun r => { r with frames := match r.frames with | f :: t => { f with pc := f.pc + 1 } :: t | [] => [] }) s

/-- What an instruction leaves: the state reached, or the trap taken (R130, R151). -/
def vEnd (b : Bool) : Ev → State
  | .ok s _ => s
  | .trap c s => trapFault (running b s) c s

/-! ### Shapes -/

/-- d from a. -/
def shape1 (w : VInstr) (f : Bool → Nat → Nat → State → Nat × State) (b : Bool) (ty : Nat) (s : State) : Ev :=
  (opRead b ty w.src1 0 s).bind (fun s x => let (v, s) := f b ty x s; opWrite b ty w.dst 0 v s)

/-- d from a and b. -/
def shape2 (w : VInstr) (f : Bool → Nat → Nat → Nat → State → Nat × State) (b : Bool) (ty : Nat) (s : State) : Ev :=
  (opRead b ty w.src1 0 s).bind (fun s x => (opRead b ty w.src2 0 s).bind (fun s y =>
    let (v, s) := f b ty x y s; opWrite b ty w.dst 0 v s))

/-- A BOOL d from a and b. -/
def shapeCmp (w : VInstr) (f : Nat → Nat → Nat → Bool) (b : Bool) (ty : Nat) (s : State) : Ev :=
  (opRead b ty w.src1 0 s).bind (fun s x => (opRead b ty w.src2 0 s).bind (fun s y => opWrite b 0 w.dst 0 (b2n (f ty x y)) s))

/-- The immediate of LDI, sign-extended for signed types (R125, R128). -/
def immediate (ty : Nat) (w : VInstr) : Nat :=
  let i := w.src1.toNat + w.src2.toNat * 65536
  if tySigned ty then ofSigned 64 (toSigned 32 i) else i

/-- A result that no rule states. -/
def openAt (opc ty x y : Nat) : Nat := (Config.openResult opc ty (BitVec.ofNat 64 x) (BitVec.ofNat 64 y)).toNat

/-! ### Arithmetic (R128, R129, R313) -/

/-- A wrapped integer result; `OVF` where it wrapped (R129). -/
def wrapped (b : Bool) (ty : Nat) (i : Int) (s : State) : Nat × State :=
  (tyEnc ty i, setOvf b (tyVal ty (tyEnc ty i) != i) s)

/-- Nearest whole number to `n / d`, ties to even, for a signed `n`. -/
def roundInt (n : Int) (d : Nat) : Int := if n < 0 then -((roundDiv n.natAbs d : Nat) : Int) else ((roundDiv n.natAbs d : Nat) : Int)

/-- Difference of two stamps as a TIME (R313). -/
def stampDiff (x y : Nat) (s : State) : Int := roundInt (((lin x : Int) - (lin y : Int)) * (cycleUs s : Nat)) 1000

/-- ADD. -/
def aluAdd (b : Bool) (ty x y : Nat) (s : State) : Nat × State :=
  if ty = 5 then (fAdd x y, s) else if ty = 0 then (openAt 0x06 ty x y, s) else wrapped b ty (tyVal ty x + tyVal ty y) s

/-- SUB; of two stamps, their difference as a TIME (R313). -/
def aluSub (b : Bool) (ty x y : Nat) (s : State) : Nat × State :=
  if ty = 5 then (fSub x y, s) else if ty = 0 then (openAt 0x07 ty x y, s)
  else if ty = 7 then (ofSigned 64 (stampDiff x y s), s)
  else wrapped b ty (tyVal ty x - tyVal ty y) s

/-- MUL. -/
def aluMul (b : Bool) (ty x y : Nat) (s : State) : Nat × State :=
  if ty = 5 then (fMul x y, s) else if ty = 0 then (openAt 0x08 ty x y, s) else wrapped b ty (tyVal ty x * tyVal ty y) s

/-- DIV truncates toward zero; by zero it gives 0 and sets `DIVZ`; a quotient outside the type is stated nowhere. -/
def aluDiv (b : Bool) (ty x y : Nat) (s : State) : Nat × State :=
  if ty = 5 then (fDiv x y, s) else if ty = 0 then (openAt 0x09 ty x y, s)
  else if tyVal ty y = 0 then (0, setDivz b true s)
  else
    let q := (tyVal ty x).tdiv (tyVal ty y)
    if tyVal ty (tyEnc ty q) = q then (tyEnc ty q, s) else (openAt 0x09 ty x y, s)

/-- MOD has the sign of a; by zero it gives 0 and sets `DIVZ`. -/
def aluMod (b : Bool) (ty x y : Nat) (s : State) : Nat × State :=
  if ty = 5 then (fMod x y, s) else if ty = 0 then (openAt 0x0A ty x y, s)
  else if tyVal ty y = 0 then (0, setDivz b true s)
  else (tyEnc ty ((tyVal ty x).tmod (tyVal ty y)), s)

/-- NEG. -/
def aluNeg (b : Bool) (ty x : Nat) (s : State) : Nat × State :=
  if ty = 5 then (fNegate x, s) else if ty = 0 then (openAt 0x0B ty x 0, s) else wrapped b ty (-(tyVal ty x)) s

/-- ABS. -/
def aluAbs (b : Bool) (ty x : Nat) (s : State) : Nat × State :=
  if ty = 5 then (fAbs x, s) else if ty = 0 then (openAt 0x0C ty x 0, s) else wrapped b ty ((tyVal ty x).natAbs : Nat) s

/-- a < b in a type. -/
def tyLt (ty x y : Nat) : Bool := if ty = 5 then fLt x y else decide (tyVal ty x < tyVal ty y)

/-- a = b in a type. -/
def tyEq (ty x y : Nat) : Bool := if ty = 5 then fEq x y else tyVal ty x == tyVal ty y

/-- The smaller (`neg` false) or larger of two values; a NaN, and two zeros of unlike sign, leave it open. -/
def pick (opc : Nat) (larger : Bool) (ty x y : Nat) : Nat :=
  if tyLt ty x y then (if larger then y else x)
  else if tyLt ty y x then (if larger then x else y)
  else if x = y ∧ !(ty == 5 && fNan x) then x
  else openAt opc ty x y

/-- MIN. -/
def aluMin (_b : Bool) (ty x y : Nat) (s : State) : Nat × State := (pick 0x0D false ty x y, s)

/-- MAX. -/
def aluMax (_b : Bool) (ty x y : Nat) (s : State) : Nat × State := (pick 0x0E true ty x y, s)

/-- d clamped to a (low) and b (high); limits out of order, or a NaN, leave it open. -/
def clamp (ty d x y : Nat) : Nat :=
  if (ty == 5 && (fNan d || fNan x || fNan y)) || tyLt ty y x then openAt 0x0F ty (openAt 0x0F ty x y) d
  else if tyLt ty d x then x else if tyLt ty y d then y else d

/-! ### Logic, shifts, bits (R128) -/

/-- Complement within the type. -/
def aluNot (_b : Bool) (ty x : Nat) (s : State) : Nat × State := (2 ^ tyWidth ty - 1 - x % 2 ^ tyWidth ty, s)

/-- A bitwise operation. -/
def aluBit (f : Nat → Nat → Nat) (_b : Bool) (_ty x y : Nat) (s : State) : Nat × State := (f x y, s)

/-- A shift or rotation of an integer type; of BOOL and REAL64 its result is stated nowhere. -/
def aluShift (opc : Nat) (f : Nat → Nat → Nat → Nat) (_b : Bool) (ty x y : Nat) (s : State) : Nat × State :=
  if tyInt ty then (f ty x (y % tyWidth ty), s) else (openAt opc ty x y, s)

/-- Shift left by less than the width. -/
def shiftLeft (ty x n : Nat) : Nat := x * 2 ^ n % 2 ^ tyWidth ty

/-- Shift right: arithmetic for signed types, logical for unsigned ones. -/
def shiftRight (ty x n : Nat) : Nat := tyEnc ty (tyVal ty x / (2 ^ n : Nat))

/-- Rotate left. -/
def rotLeft (ty x n : Nat) : Nat := shiftLeft ty x n + x % 2 ^ tyWidth ty / 2 ^ (tyWidth ty - n)

/-- Rotate right. -/
def rotRight (ty x n : Nat) : Nat := x % 2 ^ tyWidth ty / 2 ^ n + shiftLeft ty x (tyWidth ty - n)

/-- Bit `y` of `x`; beyond the width it is stated nowhere. -/
def bitTest (ty x y : Nat) : Bool := if y < tyWidth ty then bit x y else openAt 0x1E ty x y % 2 == 1

/-- Bit `y` of `x` set or cleared; beyond the width the result is stated nowhere. -/
def bitPut (opc v : Nat) (_b : Bool) (ty x y : Nat) (s : State) : Nat × State :=
  if y < tyWidth ty then (setBits x y 1 v, s) else (openAt opc ty x y, s)

/-! ### Conversion (R129) -/

/-- Least and greatest integer of a type. -/
def tyMin (ty : Nat) : Int := if tySigned ty then -((2 ^ (tyWidth ty - 1) : Nat) : Int) else 0
def tyMax (ty : Nat) : Int := if tySigned ty then ((2 ^ (tyWidth ty - 1) : Nat) : Int) - 1 else ((2 ^ tyWidth ty : Nat) : Int) - 1

/-- CAST: from REAL64 to the nearest integer, saturating, NaN to 0; to REAL64 the nearest value; between integer types the same value. What lies outside the target is stated nowhere, nor is REAL64 to BOOL. -/
def castValue (ty ty2 x : Nat) : Nat :=
  if ty = 5 then
    if ty2 = 5 then x
    else if ty2 = 0 then openAt 0x05 (16 * ty + ty2) x 0 % 2
    else if fNan x then 0
    else if fInf x then tyEnc ty2 (if fNeg x then tyMin ty2 else tyMax ty2)
    else tyEnc ty2 (max (tyMin ty2) (min (tyMax ty2) (fToInt x)))
  else
    let i := tyVal ty x
    if ty2 = 5 then fOfInt i
    else if tyMin ty2 ≤ i ∧ i ≤ tyMax ty2 then tyEnc ty2 i
    else openAt 0x05 (16 * ty + ty2) x 0 % 2 ^ tyWidth ty2

/-! ### Control flow (R128, R131) -/

/-- Target of a jump: an instruction index within the block (R125, R130). -/
def jumpTo (w : VInstr) (b : Bool) (s : State) : Ev :=
  let t := w.src1.toNat + w.src2.toNat * 65536
  match blockInfo (frameOf b s).block s, (ctx b s).frames with
  | some k, f :: l => if t < k.count then .ok (modCtx b (fun r => { r with frames := { f with pc := t } :: l }) s) 0 else .trap .jump s
  | _, _ => .trap .jump s

/-- CALL: block a (CONST), its instance from slot d (INST) of the caller's (R131). -/
def callBlock (w : VInstr) (b : Bool) (s : State) : Ev :=
  if isInst w.dst && opSpace w.src1 == 4 then
    (opRead b 2 w.src1 0 s).bind (fun s i =>
      if (blockInfo i s).isNone then .trap .call s
      else if 32 < (ctx b s).frames.length then .trap .depth s
      else
        let base := (frameOf b s).base + 8 * opIndex w.dst
        .ok (modCtx b (fun r => { r with frames := { block := i, base := base } :: r.frames, used := base :: r.used.filter (· != base) }) s) 0)
  else .trap .opc s

/-- The module clears `FIRST` of the instances that a returned release used (R152). -/
def clearFirst : List Nat → State → State
  | [], s => s
  | a :: l, s =>
    let v := memNat (granule s.vm.mapActive (a + 8)) 8 s.mem
    clearFirst l (if laneWritable (a + 8) s && bit v 0 then laneStore (a + 8) (leBytes 8 (setBits v 0 1 0)) s else s)

/-- OUT writes of a finished release take effect together: VALUE only (R135, R145). -/
def applyOuts : List (Nat × Nat) → State → State
  | [], s => s
  | (p, v) :: l, s => applyOuts l (laneStore (0x07020000 + 8 * p) (leBytes 4 v) s)

/-- Bin of the execution histogram (R444). -/
def execBin (us budget : Nat) : Nat :=
  let x := 100 * us
  if x < 25 * budget then 0 else if x < 50 * budget then 1 else if x < 75 * budget then 2 else if x < 90 * budget then 3
  else if x < 100 * budget then 4 else if x < 125 * budget then 5 else if x < 200 * budget then 6 else 7

/-- What is measured of a finished release (R149, R443, R444, R511). -/
def execDone (r : Release) (s : State) : State :=
  let us := r.exec / 100
  let k := 0x040100 + 4 * r.task
  let s := setRv k (sat 0xFFFF us + 2 ^ 16 * max (rf k 16 16 s) (sat 0xFFFF us)) s
  let budget := match taskEntry r.task r.laneB s with | some e => e.budget | none => 0
  let s := statMax (0xA20 + 4 * r.task) us (stat (0x400 + 32 * r.task + 4 * execBin us budget) 1 s)
  if s.prg.mode == .normal && decide (100 * budget < r.exec) then emit 0x8403 [(1, r.task), (4, us)] (cnt 0x040038 s) else s

/-- A cyclic release that was held is made at once; its deadline is its own next boundary plus the time held (R148). -/
def releaseHeld (task : Nat) (b : Bool) (s : State) : State :=
  let t := taskState task b s
  match t.heldCyclic, taskEntry task b s with
  | some due, some e =>
    release e b 0 0 0 (some (due + cycleLin e.period + (nowLin s - due))) (setTask { t with heldCyclic := none } s)
  | _, _ => s

/-- The root block returns: the release ends; inside an exchange window it writes no output point (R142, R145, R147, R148, R152, R255, R362). -/
def endRelease (r : Release) (s : State) : State :=
  let s := if s.xch.window then s else applyOuts r.outs s
  let root := match r.frames.getLast? with | some f => [f.base] | none => []
  let s := clearFirst (root ++ r.used) s
  let s := execDone r (endPosts r.task r.laneB s)
  let s := { s with prg.active := s.prg.active.filter (fun x => !(x.task == r.task && x.laneB == r.laneB)) }
  if r.task = 48 then (if s.prg.mode == .free && !s.xch.window then releaseFree r.laneB s else s)
  else releaseHeld r.task r.laneB s

/-- RET (R128, R145). -/
def doReturn (b : Bool) (s : State) : Ev :=
  match running b s with
  | none => .ok (modCtx b (fun r => { r with frames := r.frames.drop 1 }) s) 0
  | some r =>
    match r.frames with
    | _ :: f :: l => .ok (modCtx b (fun r => { r with frames := f :: l }) s) 0
    | _ => .ok (endRelease r s) 0

/-! ### Rings (R130, R362, R365) -/

/-- Rings open for POST, and for FETCH (R130, R459). -/
def postOpen (r : Nat) (s : State) : Bool := r == 48 || r == 50 || r == 53 || (r < 64 && bit (ringWord r s) 6)
def fetchOpen (r : Nat) (s : State) : Bool := r == 51 || r == 52 || r == 54 || (r < 64 && bit (ringWord r s) 7)

/-- Four slots from an operand. -/
def readSlots (b : Bool) (w : BitVec 16) (n : Nat) : Nat → List Byte → State → Except (TrapCause × State) (List Byte × State)
  | 0, acc, s => .ok (acc, s)
  | k + 1, acc, s =>
    match slotRead b w (n - (k + 1) : Nat) s with
    | .ok s v => readSlots b w n k (acc ++ leBytes 8 v) s
    | .trap c s => .error (c, s)

/-- Write slots from an operand on. -/
def writeSlots (b : Bool) (w : BitVec 16) : Nat → List Nat → State → Ev
  | _, [], s => .ok s 0
  | i, v :: t, s => (slotWrite b w i v s).bind (fun s _ => writeSlots b w (i + 1) t s)

/-- An entry enters a ring by POST (R92, R93, R161, R362, R423). -/
def postTo (r : Nat) (b : Bool) (e : List Byte) (s : State) : State :=
  if rf 0x0C0000 0 1 s = 0 then s
  else if r = 48 then postRequest 48 e s
  else if r = 50 then
    if ringFree 50 s = 0 then vitalFault .ring50 0 s
    else fireRing 50 (admitUpdates 64 (ringPush 50 [stampEntry 50 (now s) e s] s))
  else if r = 55 then (if ringFree 55 s = 0 then lostNotice (recordLoss { ringOverflow 55 0 s with evr.prog := none }) else fireRing 55 (post55 (ctx b s).task b e s))
  else if isTxRing r then postTx r (ctx b s).task b e s
  else postRecord r e s

/-- POST; a write that does not verify in the ring area is a vital fault, and nothing is posted; a conversion block may not write a ring (R224, R225, R257). -/
def doPost (w : VInstr) (m : MemIn) (b : Bool) (s : State) : Ev :=
  (opRead b 2 w.src1 0 s).bind (fun s r =>
    if (ctx b s).conv.isSome then .trap .write s
    else if postOpen r s then
      match readSlots b w.dst 4 4 [] s with
      | .ok (e, s) => if s.prg.mode == .halted then .ok s 0
        else if m.verify then .ok (postTo r b e (seqVoted s)) 0 else .ok (writeVerify r m (seqVoted s)) 0
      | .error (c, s) => .trap c s
    else .trap .ring s)

/-- FETCH: the head record, or 0 in b where there is none. -/
def doFetch (w : VInstr) (m : MemIn) (b : Bool) (s : State) : Ev :=
  (opRead b 2 w.src1 0 s).bind (fun s r =>
    if fetchOpen r s then
      let s := ringFinding r m (seqVoted s)
      if s.prg.mode == .halted then .ok s 0
      else match (if rf 0x0C0000 0 1 s = 1 then ringTake r s else none) with
      | some (e, s) =>
        (writeSlots b w.dst 0 [fieldAt e 0 8, fieldAt e 8 8, fieldAt e 16 8, fieldAt e 24 8] s).bind (fun s _ => opWrite b 0 w.src2 0 1 s)
      | none => opWrite b 0 w.src2 0 0 s
    else .trap .ring s)

/-! ### Standard blocks (R152 to R155) -/

/-- Elapsed time since a start stamp, as a TIME (R153, R313). -/
def elapsed (b : Bool) (start : Nat) (s : State) : Int := stampDiff (match running b s with | some r => r.stamp | none => now s) start s

/-- State of a timer: `T_START`, Q, RUNNING, PREV_IN, ET. -/
structure TimerSt where
  start : Nat
  q : Bool
  run : Bool
  prev : Bool
  et : Int

/-- A running timer at elapsed time `x` against its preset. -/
def timerAt (x pt : Int) : Int := min x pt

/-- One evaluation of a timer; `first`: first use (R152, R153). -/
def timerEval (kind nowSt : Nat) (first inp : Bool) (pt : Int) (el : Nat → Int) (t : TimerSt) : TimerSt :=
  if kind = 0 then
    if !inp then { start := 0, q := false, run := false, prev := inp, et := 0 }
    else if first then { start := 0, q := false, run := false, prev := inp, et := 0 }
    else if pt ≤ 0 then { start := if t.run then t.start else nowSt, q := true, run := true, prev := inp, et := timerAt 0 pt }
    else
      let st := if t.run then t.start else nowSt
      let x := el st
      { start := st, q := decide (pt ≤ x), run := true, prev := inp, et := timerAt x pt }
  else if kind = 1 then
    if first then { start := 0, q := false, run := false, prev := inp, et := 0 }
    else if inp then { start := 0, q := true, run := false, prev := inp, et := 0 }
    else if t.q then
      let st := if t.run then t.start else nowSt
      let x := el st
      if pt ≤ 0 ∨ pt ≤ x then { start := 0, q := false, run := false, prev := inp, et := timerAt x pt }
      else { start := st, q := true, run := true, prev := inp, et := x }
    else { t with prev := inp }
  else
    let go := inp && !t.prev && !t.run && !first
    let run := go || t.run
    let st := if go then nowSt else t.start
    if run then
      let x := el st
      if pt ≤ 0 ∨ pt ≤ x then { start := 0, q := false, run := false, prev := inp, et := timerAt x pt }
      else { start := st, q := true, run := true, prev := inp, et := x }
    else { t with prev := inp, q := false }

/-- TMR: `T_START`, `FLAGS` and `ET` in slots d to d + 2 (R153). -/
def doTimer (w : VInstr) (b : Bool) (s : State) : Ev :=
  if !(isInst w.dst) then .trap .opc s
  else
    (opRead b 0 w.src1 0 s).bind (fun s inp => (opRead b 6 w.src2 0 s).bind (fun s pt =>
      (slotRead b w.dst 0 s).bind (fun s st => (slotRead b w.dst 1 s).bind (fun s fl => (slotRead b w.dst 2 s).bind (fun s et =>
        let nowSt := match running b s with | some r => r.stamp | none => now s
        let t := timerEval w.sub.toNat nowSt (firstUse b s) (inp == 1) (toSigned 64 pt) (fun x => elapsed b x s)
          { start := st, q := bit fl 0, run := bit fl 1, prev := bit fl 2, et := toSigned 64 et }
        writeSlots b w.dst 0 [t.start, b2n t.q + 2 * b2n t.run + 4 * b2n t.prev, ofSigned 64 t.et] s)))))

/-- EDG: Q in bit 0 and PREV in bit 1 of slot d (R152, R154). -/
def doEdge (w : VInstr) (b : Bool) (s : State) : Ev :=
  if !(isInst w.dst) then .trap .opc s
  else
    (opRead b 0 w.src1 0 s).bind (fun s inp => (slotRead b w.dst 0 s).bind (fun s st =>
      let prev := bit st 1
      let q := !(firstUse b s) && (if w.sub.toNat = 0 then inp == 1 && !prev else inp == 0 && prev)
      slotWrite b w.dst 0 (b2n q + 2 * (inp % 2)) s))

/-- FLT: history, fill count and output in slots d to d + 2; at first use the window starts empty (R152, R155). A window outside 1 to 64 leaves the output open. -/
def doFilter (w : VInstr) (b : Bool) (s : State) : Ev :=
  if !(isInst w.dst) then .trap .opc s
  else
    (opRead b 0 w.src1 0 s).bind (fun s inp => (opRead b 2 w.src2 0 s).bind (fun s n =>
      (slotRead b w.dst 0 s).bind (fun s h => (slotRead b w.dst 1 s).bind (fun s c => (slotRead b w.dst 2 s).bind (fun s o =>
        let first := firstUse b s
        let h' := ((if first then 0 else h) * 2 + inp % 2) % 2 ^ 64
        let c' := min 64 ((if first then 0 else c) + 1)
        let win := h' % 2 ^ n
        let o' := if n = 0 ∨ 64 < n then openAt 0x2D n h' o % 2
          else if c' < n then 0 else if win = 2 ^ n - 1 then 1 else if win = 0 then 0 else o % 2
        writeSlots b w.dst 0 [h', c', o'] s)))))

/-! ### Tokens (R158 to R160) -/

/-- Verified entries that have not aged out (R160). -/
def liveTokens (s : State) : List VerEntry := s.prg.tokVer.filter (fun e => decide (nowLin s - lin e.at' < secLin s 60))

/-- Result code of a token for act `act` (R159). -/
def tokenResult (t : List Byte) (act : Nat) (s : State) : Nat :=
  let id := fieldAt t 0 4
  let key := fieldAt t 6 2
  let nb := fieldAt t 16 8
  let na := fieldAt t 24 8
  if id = 0 ∨ fieldAt t 32 16 ≠ 0 then 7
  else if 8 ≤ key ∨ !(keyUsable key s) then 6
  else if gmac (keyOf key s).data (t.take 12) (t.take 48) ≠ (t.drop 48).take 16 then 1
  else if fieldAt t 4 2 ≠ act then 2
  else if s.prg.tokUsed.contains id then 3
  else if s.civ.st == .acquire then 5
  else if s.civ.ns < nb ∨ na < s.civ.ns ∨ nb + 86400000000000 < na ∨ nb < (match s.civ.first with | some f => f | none => 0) then 4
  else if 16 ≤ (liveTokens s).length then 8
  else 0

/-- TOKV: every verification is recorded; a token that passes enters both lists (R159, R160). -/
def doToken (w : VInstr) (b : Bool) (ty : Nat) (s : State) : Ev :=
  (opRead b 2 w.src2 0 s).bind (fun s act =>
    match readSlots b w.src1 8 8 [] s with
    | .ok (t, s) =>
      if s.prg.mode == .halted then .ok s 0
      else
        let res := tokenResult t act s
        let id := fieldAt t 0 4
        let staff := fieldAt t 8 4
        let s := if res = 0 then
            { s with
              prg.tokUsed := (id :: s.prg.tokUsed).take 256
              prg.tokVer := liveTokens s ++ [{ id := id, act := act, scope := fieldAt t 12 4, staff := staff, at' := now s }] }
          else s
        opWrite b ty w.dst 0 res (emit 0x4405 [(4, id), (4, staff), (2, fieldAt t 4 2), (1, res)] s)
    | .error (c, s) => .trap c s)

/-! ### The instructions -/

/-- Number of `SUB` values of an opcode (R128). -/
def subCount (opc : Nat) : Nat := if opc = 0x05 then 8 else if opc = 0x2B then 3 else if opc = 0x2C then 2 else 1

/-- What opcode `opc` does, after the program counter has advanced (R128); RDREG and WRREG stand with the registers. A displacement of LDX and STX is a signed number of places; TSTAMP is read once for all lanes (R322); TRAP writes SYS_TRIP (R151, R508). -/
def vOp (opc : Nat) (w : VInstr) (m : MemIn) (b : Bool) (ty : Nat) (s : State) : Ev :=
  match opc with
  | 0x00 => .ok s 0
  | 0x01 => shape1 w (fun _ _ x s => (x, s)) b ty s
  | 0x02 => if ty = 0 ∧ 1 < w.src1.toNat + w.src2.toNat * 65536 then .trap .boolOperand s else opWrite b ty w.dst 0 (immediate ty w) s
  | 0x03 => (opRead b 1 w.src2 0 s).bind (fun s i => (opRead b ty w.src1 (toSigned 32 i) s).bind (fun s v => opWrite b ty w.dst 0 v s))
  | 0x04 => (opRead b 1 w.src2 0 s).bind (fun s i => (opRead b ty w.src1 0 s).bind (fun s v => opWrite b ty w.dst (toSigned 32 i) v s))
  | 0x05 => (opRead b ty w.src1 0 s).bind (fun s x => opWrite b w.sub.toNat w.dst 0 (castValue ty w.sub.toNat x) s)
  | 0x06 => shape2 w aluAdd b ty s
  | 0x07 => shape2 w aluSub b ty s
  | 0x08 => shape2 w aluMul b ty s
  | 0x09 => shape2 w aluDiv b ty s
  | 0x0A => shape2 w aluMod b ty s
  | 0x0B => shape1 w aluNeg b ty s
  | 0x0C => shape1 w aluAbs b ty s
  | 0x0D => shape2 w aluMin b ty s
  | 0x0E => shape2 w aluMax b ty s
  | 0x0F => (opRead b ty w.dst 0 s).bind (fun s d => (opRead b ty w.src1 0 s).bind (fun s x => (opRead b ty w.src2 0 s).bind (fun s y => opWrite b ty w.dst 0 (clamp ty d x y) s)))
  | 0x10 => shape2 w (aluBit Nat.land) b ty s
  | 0x11 => shape2 w (aluBit Nat.lor) b ty s
  | 0x12 => shape2 w (aluBit Nat.xor) b ty s
  | 0x13 => shape1 w aluNot b ty s
  | 0x14 => shape2 w (aluShift 0x14 shiftLeft) b ty s
  | 0x15 => shape2 w (aluShift 0x15 shiftRight) b ty s
  | 0x16 => shape2 w (aluShift 0x16 rotLeft) b ty s
  | 0x17 => shape2 w (aluShift 0x17 rotRight) b ty s
  | 0x18 => shapeCmp w tyEq b ty s
  | 0x19 => shapeCmp w (fun t x y => !(tyEq t x y)) b ty s
  | 0x1A => shapeCmp w tyLt b ty s
  | 0x1B => shapeCmp w (fun t x y => tyLt t x y || tyEq t x y) b ty s
  | 0x1C => shapeCmp w (fun t x y => tyLt t y x) b ty s
  | 0x1D => shapeCmp w (fun t x y => tyLt t y x || tyEq t x y) b ty s
  | 0x1E => shapeCmp w bitTest b ty s
  | 0x1F => shape2 w (bitPut 0x1F 1) b ty s
  | 0x20 => shape2 w (bitPut 0x20 0) b ty s
  | 0x21 => jumpTo w b s
  | 0x22 => (opRead b 0 w.dst 0 s).bind (fun s d => if d = 1 then jumpTo w b s else .ok s 0)
  | 0x23 => (opRead b 0 w.dst 0 s).bind (fun s d => if d = 0 then jumpTo w b s else .ok s 0)
  | 0x24 => callBlock w b s
  | 0x25 => doReturn b s
  | 0x26 => opWrite b 7 w.dst 0 (now s) s
  | 0x27 => doPost w m b s
  | 0x28 => doFetch w m b s
  | 0x2B => doTimer w b s
  | 0x2C => doEdge w b s
  | 0x2D => doFilter w b s
  | 0x2E => doToken w b ty s
  | 0x2F => (opRead b 2 w.src1 0 s).bind (fun s v => .ok (vitalFault .sysTrip v (trapRecord 0x4402 (running b s) v (seqVoted s))) 0)
  | _ => .trap .opc s

/-- One instruction: lanes run, `TYPE` defined, `SUB` among those its opcode has (R125, R130). `laneB` counts in split mode only (R206). -/
def vExecBy (dt subs : Nat) (w : VInstr) (f : Bool → Nat → State → Ev) (s : State) : State :=
  let s := begin' dt s
  let b := w.laneB && s.cfg.split
  if laneRuns b s then
    vEnd b (if w.ty.toNat < 8 ∧ w.sub.toNat < subs then f b w.ty.toNat (advance b s) else .trap .opc s)
  else s

/-- One instruction of opcode `opc`. -/
def vExec (dt opc : Nat) (w : VInstr) (m : MemIn) (s : State) : State := vExecBy dt (subCount opc) w (vOp opc w m) s

/-- NOP. -/
def execVNop (dt : Nat) (w : VInstr) (s : State) : Host.Outcome State Fault Refusal := .next (vExec dt 0x00 w {} s)

/-- MOV. -/
def execVMov (dt : Nat) (w : VInstr) (s : State) : Host.Outcome State Fault Refusal := .next (vExec dt 0x01 w {} s)

/-- LDI: sign-extended for signed types. -/
def execVLdi (dt : Nat) (w : VInstr) (s : State) : Host.Outcome State Fault Refusal := .next (vExec dt 0x02 w {} s)

/-- LDX: b is a signed number of places. -/
def execVLdx (dt : Nat) (w : VInstr) (s : State) : Host.Outcome State Fault Refusal := .next (vExec dt 0x03 w {} s)

/-- STX: b is a signed number of places. -/
def execVStx (dt : Nat) (w : VInstr) (s : State) : Host.Outcome State Fault Refusal := .next (vExec dt 0x04 w {} s)

/-- CAST to the type in `SUB`. -/
def execVCast (dt : Nat) (w : VInstr) (s : State) : Host.Outcome State Fault Refusal := .next (vExec dt 0x05 w {} s)

/-- ADD. -/
def execVAdd (dt : Nat) (w : VInstr) (s : State) : Host.Outcome State Fault Refusal := .next (vExec dt 0x06 w {} s)

/-- SUB. -/
def execVSub (dt : Nat) (w : VInstr) (s : State) : Host.Outcome State Fault Refusal := .next (vExec dt 0x07 w {} s)

/-- MUL. -/
def execVMul (dt : Nat) (w : VInstr) (s : State) : Host.Outcome State Fault Refusal := .next (vExec dt 0x08 w {} s)

/-- DIV. -/
def execVDiv (dt : Nat) (w : VInstr) (s : State) : Host.Outcome State Fault Refusal := .next (vExec dt 0x09 w {} s)

/-- MOD. -/
def execVMod (dt : Nat) (w : VInstr) (s : State) : Host.Outcome State Fault Refusal := .next (vExec dt 0x0A w {} s)

/-- NEG. -/
def execVNeg (dt : Nat) (w : VInstr) (s : State) : Host.Outcome State Fault Refusal := .next (vExec dt 0x0B w {} s)

/-- ABS. -/
def execVAbs (dt : Nat) (w : VInstr) (s : State) : Host.Outcome State Fault Refusal := .next (vExec dt 0x0C w {} s)

/-- MIN. -/
def execVMin (dt : Nat) (w : VInstr) (s : State) : Host.Outcome State Fault Refusal := .next (vExec dt 0x0D w {} s)

/-- MAX. -/
def execVMax (dt : Nat) (w : VInstr) (s : State) : Host.Outcome State Fault Refusal := .next (vExec dt 0x0E w {} s)

/-- LIM. -/
def execVLim (dt : Nat) (w : VInstr) (s : State) : Host.Outcome State Fault Refusal := .next (vExec dt 0x0F w {} s)

/-- AND. -/
def execVAnd (dt : Nat) (w : VInstr) (s : State) : Host.Outcome State Fault Refusal := .next (vExec dt 0x10 w {} s)

/-- OR. -/
def execVOr (dt : Nat) (w : VInstr) (s : State) : Host.Outcome State Fault Refusal := .next (vExec dt 0x11 w {} s)

/-- XOR. -/
def execVXor (dt : Nat) (w : VInstr) (s : State) : Host.Outcome State Fault Refusal := .next (vExec dt 0x12 w {} s)

/-- NOT. -/
def execVNot (dt : Nat) (w : VInstr) (s : State) : Host.Outcome State Fault Refusal := .next (vExec dt 0x13 w {} s)

/-- SHL. -/
def execVShl (dt : Nat) (w : VInstr) (s : State) : Host.Outcome State Fault Refusal := .next (vExec dt 0x14 w {} s)

/-- SHR. -/
def execVShr (dt : Nat) (w : VInstr) (s : State) : Host.Outcome State Fault Refusal := .next (vExec dt 0x15 w {} s)

/-- ROL. -/
def execVRol (dt : Nat) (w : VInstr) (s : State) : Host.Outcome State Fault Refusal := .next (vExec dt 0x16 w {} s)

/-- ROR. -/
def execVRor (dt : Nat) (w : VInstr) (s : State) : Host.Outcome State Fault Refusal := .next (vExec dt 0x17 w {} s)

/-- CEQ. -/
def execVCeq (dt : Nat) (w : VInstr) (s : State) : Host.Outcome State Fault Refusal := .next (vExec dt 0x18 w {} s)

/-- CNE. -/
def execVCne (dt : Nat) (w : VInstr) (s : State) : Host.Outcome State Fault Refusal := .next (vExec dt 0x19 w {} s)

/-- CLT. -/
def execVClt (dt : Nat) (w : VInstr) (s : State) : Host.Outcome State Fault Refusal := .next (vExec dt 0x1A w {} s)

/-- CLE. -/
def execVCle (dt : Nat) (w : VInstr) (s : State) : Host.Outcome State Fault Refusal := .next (vExec dt 0x1B w {} s)

/-- CGT. -/
def execVCgt (dt : Nat) (w : VInstr) (s : State) : Host.Outcome State Fault Refusal := .next (vExec dt 0x1C w {} s)

/-- CGE. -/
def execVCge (dt : Nat) (w : VInstr) (s : State) : Host.Outcome State Fault Refusal := .next (vExec dt 0x1D w {} s)

/-- BTST. -/
def execVBtst (dt : Nat) (w : VInstr) (s : State) : Host.Outcome State Fault Refusal := .next (vExec dt 0x1E w {} s)

/-- BSET. -/
def execVBset (dt : Nat) (w : VInstr) (s : State) : Host.Outcome State Fault Refusal := .next (vExec dt 0x1F w {} s)

/-- BCLR. -/
def execVBclr (dt : Nat) (w : VInstr) (s : State) : Host.Outcome State Fault Refusal := .next (vExec dt 0x20 w {} s)

/-- JMP. -/
def execVJmp (dt : Nat) (w : VInstr) (s : State) : Host.Outcome State Fault Refusal := .next (vExec dt 0x21 w {} s)

/-- JT. -/
def execVJt (dt : Nat) (w : VInstr) (s : State) : Host.Outcome State Fault Refusal := .next (vExec dt 0x22 w {} s)

/-- JF. -/
def execVJf (dt : Nat) (w : VInstr) (s : State) : Host.Outcome State Fault Refusal := .next (vExec dt 0x23 w {} s)

/-- CALL. -/
def execVCall (dt : Nat) (w : VInstr) (s : State) : Host.Outcome State Fault Refusal := .next (vExec dt 0x24 w {} s)

/-- RET. -/
def execVRet (dt : Nat) (w : VInstr) (s : State) : Host.Outcome State Fault Refusal := .next (vExec dt 0x25 w {} s)

/-- TSTAMP: station time is read once and delivered to all lanes (R322). -/
def execVTstamp (dt : Nat) (w : VInstr) (s : State) : Host.Outcome State Fault Refusal := .next (vExec dt 0x26 w {} s)

/-- POST. -/
def execVPost (dt : Nat) (x : VInstr × MemIn) (s : State) : Host.Outcome State Fault Refusal := .next (vExec dt 0x27 x.1 x.2 s)

/-- FETCH. -/
def execVFetch (dt : Nat) (x : VInstr × MemIn) (s : State) : Host.Outcome State Fault Refusal := .next (vExec dt 0x28 x.1 x.2 s)

/-- TMR. -/
def execVTmr (dt : Nat) (w : VInstr) (s : State) : Host.Outcome State Fault Refusal := .next (vExec dt 0x2B w {} s)

/-- EDG. -/
def execVEdg (dt : Nat) (w : VInstr) (s : State) : Host.Outcome State Fault Refusal := .next (vExec dt 0x2C w {} s)

/-- FLT. -/
def execVFlt (dt : Nat) (w : VInstr) (s : State) : Host.Outcome State Fault Refusal := .next (vExec dt 0x2D w {} s)

/-- TOKV. -/
def execVTokv (dt : Nat) (w : VInstr) (s : State) : Host.Outcome State Fault Refusal := .next (vExec dt 0x2E w {} s)

/-- TRAP: a write to SYS_TRIP (R151, R508). -/
def execVTrap (dt : Nat) (w : VInstr) (s : State) : Host.Outcome State Fault Refusal := .next (vExec dt 0x2F w {} s)

end Sys2Proof.Machine
end

