-- ==== Sys2Proof/Machine/Force.lean ====
section
/-! DEFINITION. Forcing (R161 to R166): commands of ring 53, the force table, its expiry. -/

namespace Sys2Proof.Machine

/-- An output point is configured: a pin word or an output binding names it (R135). -/
def outConfigured (p : Nat) (s : State) : Bool :=
  allPins.any (fun n => isOutput n s && pinPoint n s == p) || s.cfg.bindings.any (fun b => b.output && b.point == p)

/-- The fields of a force command (R161). -/
def fcOp (e : List Byte) : Nat := bits (fieldAt e 0 4) 0 4
def fcDir (e : List Byte) : Bool := bit (fieldAt e 0 4) 4
def fcPoint (e : List Byte) : Nat := bits (fieldAt e 0 4) 5 13

/-- Undefined `OP`, or a reserved field that is not 0 (R161, R162). -/
def fcFormatBad (e : List Byte) : Bool := fcOp e == 0 || 3 < fcOp e || fieldAt e 0 4 / 2 ^ 18 != 0 || fieldAt e 16 8 != 0

/-- The point of a command is configured in the space that `DIR` selects. -/
def fcConfigured (e : List Byte) (s : State) : Bool := if fcDir e then outConfigured (fcPoint e) s else inConfigured (fcPoint e) s

/-- The force on the point of a command. -/
def fcEntry (e : List Byte) (s : State) : Option ForceEntry := s.frc.table.find? (fun x => x.dir == fcDir e && x.point == fcPoint e)

/-- The token of a SET: verified for act FORCE, unconsumed, its scope covering the point (R158, R160, R161). -/
def fcToken (e : List Byte) (s : State) : Option VerEntry :=
  match findToken (fieldAt e 12 4) 1 s with
  | some v => if v.scope = 0xFFFFFFFF ∨ v.scope = b2n (fcDir e) * 2 ^ 13 + fcPoint e then some v else none
  | none => none

/-- An exchange is armed (R162, R251). -/
def exchArmed (s : State) : Bool := s.xch.st == .armed || s.xch.st == .draining || s.xch.st == .exchanging

/-- The first reason, in the order of R162, for which a command is refused; 0 none. -/
def fcReason (e : List Byte) (s : State) : Nat :=
  let d := fieldAt e 8 2
  if fcFormatBad e then 6
  else if fcOp e = 3 then 0
  else if !(fcConfigured e s) then 3
  else if fcOp e = 2 then (if (fcEntry e s).isNone then 7 else 0)
  else if d = 0 ∨ 28800 < d then 4
  else if exchArmed s then 5
  else if (fcToken e s).isNone then 1
  else if (fcEntry e s).isNone ∧ 256 ≤ s.frc.table.length then 2
  else 0

/-- The result record on ring 54, and the mirror of command and result (R56, R161). -/
def fcResult (e : List Byte) (reason expiry : Nat) (s : State) : State :=
  let w0 := fcOp e + (if reason = 0 then 1 else 2) * 16 + reason * 256 + fieldAt e 10 2 * 65536
  let r := packFields [(4, w0), (4, s.frc.table.length), (8, fieldAt e 24 8), (8, expiry), (8, 0)]
  let s := if reason ≠ 0 then cnt 0x050010 s else if fcOp e = 1 then cnt 0x050008 s else s
  postRecord 54 r (mirror 3 1 (e ++ r) s)

/-- A point not forced so far is added while the table has room for it (R161). -/
def forceAdd (f : ForceEntry) (s : State) : State :=
  if s.frc.table.length < 256 then { s with frc.table := s.frc.table ++ [f] } else s

/-- An accepted SET (R162, R163, R165, R166). -/
def forceSet (e : List Byte) (s : State) : State :=
  match fcToken e s with
  | none => s
  | some v =>
    let x := unlin (lin (fieldAt e 24 8) + secLin s (fieldAt e 8 2))
    let f : ForceEntry := { dir := fcDir e, point := fcPoint e, value := fieldAt e 4 4, expiry := x, token := v.id, staff := v.staff }
    let s := match fcEntry e s with
      | some _ => { s with frc.table := s.frc.table.map (fun (y : ForceEntry) => if y.dir == f.dir && y.point == f.point then f else y) }
      | none => forceAdd f s
    let s := consumeToken v.id { s with frc.ind := true }
    fcResult e 0 x (emit 0x4501 [(4, fieldAt e 0 4), (4, fieldAt e 4 4), (4, fieldAt e 8 4), (4, fieldAt e 12 4), (4, v.staff), (8, x)] s)

/-- FORCE_CLEAR records with the command's words (R165). -/
def forceDrop (e : List Byte) (l : List ForceEntry) (s : State) : State :=
  forceClearRecs (fieldAt e 0 4) (fieldAt e 4 4) (fieldAt e 8 4) (fieldAt e 12 4) l s

/-- An accepted CLEAR (R162, R165). -/
def forceClear (e : List Byte) (s : State) : State :=
  match fcEntry e s with
  | none => s
  | some f =>
    let s := forceDrop e [f] { s with frc.table := s.frc.table.filter (fun y => !(y.dir == f.dir && y.point == f.point)) }
    fcResult e 0 f.expiry s

/-- An accepted CLEAR_ALL (R165). -/
def forceClearAll (e : List Byte) (s : State) : State :=
  fcResult e 0 0 (forceDrop e s.frc.table { s with frc.table := [] })

/-- The command at the head of ring 53, where `f` accepts its `OP`, is carried out or refused (R162). -/
def forceCommand (f : Nat → Bool) (g : List Byte → State → State) (s : State) : State :=
  match (ring 53 s).entries with
  | e :: t =>
    if s.pwr.phase == .running && f (fcOp e) then
      let s := modRing 53 (fun x => { x with entries := t }) s
      let r := fcReason e s
      if r = 0 then g e s else fcResult e r 0 s
    else s
  | [] => s

/-- FORCE_SET: SET, and the refusal of a command without defined `OP` (R162). -/
def execForceSet (dt : Nat) (s : State) : Host.Outcome State Fault Refusal :=
  .next (forceCommand (fun o => o == 1 || o == 0 || 3 < o) forceSet (begin' dt s))

/-- FORCE_CLEAR. -/
def execForceClear (dt : Nat) (s : State) : Host.Outcome State Fault Refusal := .next (forceCommand (· == 2) forceClear (begin' dt s))

/-- FORCE_CLEAR_ALL. -/
def execForceClearAll (dt : Nat) (s : State) : Host.Outcome State Fault Refusal := .next (forceCommand (· == 3) forceClearAll (begin' dt s))

/-- FORCE_EXPIRY: removed at the first boundary at or after the expiry, so once the present cycle began at or after it; it also ends the indication (R165, R166). -/
def forceExpire (dir : Bool) (point : Nat) (s : State) : State :=
  match s.frc.table.find? (fun x => x.dir == dir && x.point == point) with
  | some f =>
    if lin f.expiry ≤ cycleLin s.clk.cycle then
      let t := s.frc.table.filter (fun y => !(y.dir == dir && y.point == point))
      emit 0x4503 [(4, setBits (setBits 0 4 1 (b2n dir)) 5 13 point), (4, f.value), (4, 0), (4, f.token), (4, f.staff), (8, f.expiry)]
        (cnt 0x05000C { s with frc.table := t, frc.ind := !t.isEmpty })
    else s
  | none => s

/-- FORCE_EXPIRY. -/
def execForceExpiry (dt : Nat) (dir : Bool) (point : BitVec 13) (s : State) : Host.Outcome State Fault Refusal :=
  let s := begin' dt s
  .next (if s.pwr.phase == .running then forceExpire dir point.toNat s else s)

end Sys2Proof.Machine
end

