-- ==== Sys2Proof/Machine/Image.lean ====
section
/-! DEFINITION. Images in NOR: header, chunk table, signature, directory (R447 to R455), the program image (R460) and its load checks (R240). -/

namespace Sys2Proof.Machine

/-! ### Slots, header, signature (R447 to R453, R475) -/

/-- Offset and size of a kind's slot in a bank: 1 firmware, 2 configuration, 3 program (R447). -/
def kindOff (k : Nat) : Nat := if k = 1 then 0 else if k = 2 then 0x800000 else 0x1800000
def kindSize (k : Nat) : Nat := if k = 1 then 0x800000 else if k = 2 then 0x1000000 else 0x2800000

/-- Address of a slot. -/
def slotAddr (bank k : Nat) : Nat := norBank bank + kindOff k

/-- The header of the image at an address. -/
def imgHeader (a : Nat) (m : List Host.Cell) : List Byte := memRead a 256 m

/-- Header fields (R450). -/
def hKind (h : List Byte) : Nat := fieldAt h 4 1
def hLength (h : List Byte) : Nat := fieldAt h 12 4
def hChunks (h : List Byte) : Nat := fieldAt h 16 2
def hLane (h : List Byte) : Nat := fieldAt h 21 1
def hRole (h : List Byte) : Nat := fieldAt h 22 1
def hSeq (h : List Byte) : Nat := fieldAt h 24 4
def hCfgRef (h : List Byte) : Nat := fieldAt h 40 4

/-- A bank selection: bank of a kind (R466). -/
def selBank (sel k : Nat) : Nat := bits sel (k - 1) 1

/-- The slot entry of a kind in a bank (R466). -/
def selSlot (x : Selector) (bank k : Nat) : SelSlot := x.slots.getD (3 * bank + (k - 1)) {}

/-- `SEQ` of the running firmware. -/
def fwSeq (s : State) : Nat :=
  match selector s with
  | some x => (selSlot x (selBank x.sel 1) 1).seq
  | none => 0

/-- Header checks of codes 0x01 to 0x08 and 0x0D in the order of R475, for a firmware sequence; 0 where all pass. -/
def headerReason (h : List Byte) (fw : Nat) (s : State) : Nat :=
  let k := hKind h
  let cur := Config.formatMajor k
  let fmt := fieldAt h 7 1
  let len := hLength h
  if fieldAt h 0 4 ≠ 0x4D494B48 then 1
  else if crc32c (h.take 252) ≠ fieldAt h 252 4 ∨ fieldAt h 23 1 ≠ 0 ∨ fieldAt h 128 124 ≠ 0 then 2
  else if k = 0 ∨ 3 < k ∨ fieldAt h 5 1 ≠ 1 then 3
  else if fieldAt h 8 4 ≠ 0x40960001 then 4
  else if cur < fmt ∨ fmt + 2 < cur then 5
  else if (if k = 1 then Config.issue.toNat < fieldAt h 28 1 ∨ fieldAt h 32 1 < Config.issue.toNat else fw < fieldAt h 28 4 ∨ fieldAt h 32 4 < fw) then 6
  else if hSeq h < s.cfg.seqFloor.getD (k - 1) 0 then 7
  else if kindSize k < len ∨ hChunks h ≠ (len + 65535) / 65536 ∨ len < 512 + 4 * hChunks h then 8
  else if (if k = 2 then 1 < hLane h ∨ hRole h = 0 ∨ 2 < hRole h else hLane h ≠ 0 ∨ hRole h ≠ 0) then 0xD
  else 0

/-- `TABLE_CRC` holds (R449). -/
def tableOk (a : Nat) (m : List Host.Cell) : Bool :=
  let h := imgHeader a m
  crc32c (memRead (a + 256) (4 * hChunks h) m) == fieldAt h 36 4

/-- Bytes of chunk `n` that its table entry covers: chunk 0 from behind the chunk table (R449). -/
def chunkCovered (h : List Byte) (n : Nat) (b : List Byte) : List Byte := if n = 0 then b.drop (256 + 4 * hChunks h) else b

/-- First byte of the body (R455). -/
def bodyAddr (a : Nat) (m : List Host.Cell) : Nat := a + (256 + 4 * hChunks (imgHeader a m) + 63) / 64 * 64

/-- Directory entry of a section type: address, length, check (R455). -/
def secEntry (a ty : Nat) (m : List Host.Cell) : Option (Nat × Nat × Nat) :=
  let b := bodyAddr a m
  ((List.range (min 64 (memNat b 4 m))).find? (fun i => memNat (b + 16 + 16 * i) 2 m == ty)).map (fun i =>
    let e := b + 16 + 16 * i
    (a + memNat (e + 4) 4 m, memNat (e + 8) 4 m, memNat (e + 12) 4 m))

/-- The bytes of a section; none where it is absent. -/
def secBytes (a ty : Nat) (m : List Host.Cell) : List Byte :=
  match secEntry a ty m with
  | some (p, n, _) => memRead p n m
  | none => []

/-- A section is present and its check holds; an absent one passes where it need not be there. -/
def secOk (required : Bool) (a ty : Nat) (m : List Host.Cell) : Bool :=
  match secEntry a ty m with
  | some (p, n, c) => crc32c (memRead p n m) == c
  | none => !required

/-- The section types of the directory are among those the format defines, each once (R454, R455). -/
def dirOk (known : List Nat) (a : Nat) (m : List Host.Cell) : Bool :=
  let b := bodyAddr a m
  let l := (List.range (min 64 (memNat b 4 m))).map (fun i => memNat (b + 16 + 16 * i) 2 m)
  decide (memNat b 4 m ≤ 64) && l.all known.contains && decide l.Nodup

/-- SHA-384 hashes that OWNER_KEYS of a configuration lists for slots 1 to 3 (R456). -/
def ownerKeysOf (a : Nat) (m : List Host.Cell) : List Nat := (List.range 3).map (fun i => beNat (((secBytes a 0x010E m).drop (48 * i)).take 48))

/-- The key slot may sign the kind and the public key's hash is the fused one (R451, R452). -/
def keyOk (a : Nat) (m : List Host.Cell) (s : State) : Bool :=
  let h := imgHeader a m
  let t := a + hLength h - 256
  let slot := memNat t 1 m
  let hash := sha384 (memRead (t + 4) 97 m)
  if hKind h = 1 then slot == 0 && hash == Config.fusedKey0
  else if s.cand.fuses.all (fun f => f.isNone) then
    hKind h == 2 && decide (1 ≤ slot) && decide (slot ≤ 3) && hash != 0 && (ownerKeysOf a m).contains hash
  else decide (1 ≤ slot) && decide (slot ≤ 3) && s.cand.fuses.getD (slot - 1) none == some hash

/-- The signature over bytes 0 to LENGTH - 257 (R451). -/
def signatureOk (a : Nat) (m : List Host.Cell) : Bool :=
  let len := hLength (imgHeader a m)
  let t := a + len - 256
  let pub := memRead (t + 4) 97 m
  memNat (t + 4) 1 m == 4 && memRead (t + 1) 3 m == List.replicate 3 0#8
    && ecdsaOk (sha384 (memRead a (len - 256) m)) (beNat ((pub.drop 1).take 48), beNat (pub.drop 49)) (beNat (memRead (t + 101) 48 m)) (beNat (memRead (t + 149) 48 m))

/-- Verification of a complete slot: 0, or the reason TABLE, SIGNATURE or KEY (R465, R475). -/
def verifyReason (a : Nat) (m : List Host.Cell) (s : State) : Nat :=
  if !(tableOk a m) then 0x11 else if !(signatureOk a m) then 0x12 else if !(keyOk a m s) then 0x13 else 0

/-! ### Program image (R460) -/

/-- Entries of a table section: (count, entry size, address of entry 0). -/
def secTable (a ty : Nat) (m : List Host.Cell) : Nat × Nat × Nat :=
  match secEntry a ty m with
  | some (p, _, _) => (memNat p 4 m, memNat (p + 4) 4 m, p + 16)
  | none => (0, 1, 0)

/-- The entries of a table section, each read by `f` from its address. -/
def secList {α : Type} (a ty : Nat) (m : List Host.Cell) (f : Nat → α) : List α :=
  let (n, z, p) := secTable a ty m
  (List.range n).map (fun i => f (p + z * i))

/-- Start of a section. -/
def secStart (a ty : Nat) (m : List Host.Cell) : Nat := match secEntry a ty m with | some (p, _, _) => p | none => 0

/-- A program image as the module loads it (R460). -/
def parseProg (a : Nat) (m : List Host.Cell) : ProgImage :=
  let h := imgHeader a m
  let blk := secStart a 0x0201 m
  let pre := secStart a 0x0206 m + 16
  let ini := secStart a 0x0207 m + 16
  { seq := hSeq h
    cfgRef := hCfgRef h
    blocks := secList a 0x0201 m (fun p =>
      { count := memNat (p + 4) 4 m, wcet := memNat (p + 14) 2 m, hash := memNat (p + 16) 4 m
        consts := (List.range (memNat (p + 12) 2 m)).map (fun i => memNat (blk + memNat (p + 8) 4 m + 8 * i) 8 m) })
    insts := secList a 0x0202 m (fun p =>
      let n := memNat (p + 12) 4 m
      let o := memNat (p + 16) 4 m
      { path := memNat p 4 m, ty := memNat (p + 4) 4 m, off := memNat (p + 8) 4 m, slots := n, block := memNat (p + 20) 2 m
        init := if o = 0xFFFFFFFF then none else some ((List.range n).map (fun i => memNat (ini + o + 8 * i) 8 m)) })
    globals := secList a 0x0203 m (fun p => (memNat p 1 m, memNat (p + 8) 8 m))
    writers := ((secList a 0x0204 m (fun p => memNat p 2 m)).zipIdx).map (fun x => (x.2, x.1))
    convs := secList a 0x0205 m (fun p =>
      { oldTy := memNat p 4 m, newTy := memNat (p + 4) 4 m, block := memNat (p + 8) 2 m, convUs100 := memNat (p + 10) 2 m
        preserve := (List.range (memNat (p + 16) 2 m)).map (fun i => (memNat (pre + memNat (p + 12) 4 m + 4 * i) 2 m, memNat (pre + memNat (p + 12) 4 m + 4 * i + 2) 2 m)) }) }

/-! ### Load checks of a program (R124 to R131, R240, R242) -/

/-- Operands an opcode has: d 1, a 2, b 4 (R128). -/
def opUses (opc : Nat) : Nat :=
  if opc = 0x00 ∨ opc = 0x21 ∨ opc = 0x25 then 0
  else if opc = 0x02 ∨ opc = 0x22 ∨ opc = 0x23 ∨ opc = 0x26 then 1
  else if opc = 0x2F then 2
  else if [0x01, 0x05, 0x0B, 0x0C, 0x13, 0x24, 0x27, 0x29, 0x2A, 0x2C].contains opc then 3
  else 7

/-- A specifier names a place of its space. -/
def specOk (w consts : Nat) : Bool :=
  let sp := bits w 13 3
  let i := bits w 0 13
  sp != 7 && (sp != 1 || decide (i < 256)) && (sp != 4 || decide (i < consts))

/-- A specifier that is written: not IN, not CONST, not SCR 0 to 7 (R127). -/
def specWritable (w : Nat) : Bool := bits w 13 3 != 2 && bits w 13 3 != 4 && (bits w 13 3 != 1 || decide (8 ≤ bits w 0 13))

/-- The checks of R130 that a block can pass before execution (R240). -/
def instrLoadOk (w : Nat) (k : BlockInfo) (nblocks : Nat) (s : State) : Bool :=
  let opc := bits w 0 8
  let d := bits w 16 16
  let a := bits w 32 16
  let b := bits w 48 16
  let n := k.consts.length
  let u := opUses opc
  let cst := if bits a 13 3 = 4 then k.consts[bits a 0 13]? else none
  decide (opc < 0x30) && decide (bits w 8 4 < 8) && decide (bits w 12 4 < subCount opc)
    && (!(bit u 0) || specOk d n) && (!(bit u 1) || specOk a n) && (!(bit u 2) || specOk b n)
    && (!(bit u 0) || [0x22, 0x23, 0x24, 0x27, 0x2A].contains opc || specWritable d)
    && (opc != 0x28 || specWritable b)
    && (!([0x21, 0x22, 0x23].contains opc) || decide (bits w 32 32 < k.count))
    && (opc != 0x24 || (bits d 13 3 == 0 && (match cst with | some v => decide (v % 2 ^ 32 < nblocks) | none => false)))
    && (opc != 0x27 || (match cst with | some v => postOpen (v % 2 ^ 32) s | none => true))
    && (opc != 0x28 || (match cst with | some v => fetchOpen (v % 2 ^ 32) s | none => true))
    && (opc != 0x2A || (match cst with | some v => decide (v / 2 ^ 24 = 0xF0) && bit s.cfg.progBlocks (bits v 16 8) | none => true))

/-- Index of the first element that fails. -/
def firstBad {α : Type} (f : α → Bool) (l : List α) : Option Nat := l.findIdx? (fun x => !(f x))

/-- Every instruction of block `i` passes. -/
def blockLoadOk (a i : Nat) (p : ProgImage) (m : List Host.Cell) (s : State) : Bool :=
  match p.blocks[i]? with
  | some k =>
    let (_, z, t) := secTable a 0x0201 m
    let code := secStart a 0x0201 m + memNat (t + z * i) 4 m
    decide (1 ≤ k.count) && decide (k.count ≤ 65536) && (List.range k.count).all (fun j => instrLoadOk (memNat (code + 8 * j) 8 m) k p.blocks.length s)
  | none => false

/-- The task entries of both tables. -/
def allTasks (c : Cfg) : List TaskEntry := c.tasks.entries ++ (match c.tasksB with | some t => t.entries | none => [])

/-- An instance is aligned, of legal size, within the region, of a block there is (R131, R134, R240, R242). -/
def instOk (p : ProgImage) (c : Cfg) (i : InstEntry) : Bool :=
  i.off % 64 == 0 && decide (2 ≤ i.slots) && decide (i.slots ≤ 8192) && decide (i.off + 8 * i.slots ≤ c.instSize) && decide (i.block < p.blocks.length)

/-- Two entries share no slot and no path: the size of an entry covers its own part only, so that a nested instance has a place of its own (R240, R242). -/
def instApart (i j : InstEntry) : Bool := i.path != j.path && (decide (i.off + 8 * i.slots ≤ j.off) || decide (j.off + 8 * j.slots ≤ i.off))

/-- The header that Bamrak wrote among an instance's initial values names its type, its path and its size, and nothing else but `FIRST` and `NEW` (R132). -/
def initHeaderOk (i : InstEntry) : Bool :=
  match i.init with
  | none => true
  | some l => l.getD 0 0 == i.ty + i.path * 2 ^ 32 && l.getD 1 0 / 4 == i.slots % 2 ^ 14 * 2 ^ 14

/-- Index of the first directory entry that breaks the layout rules (R131, R132, R240, R242, R268). -/
def instBad (p : ProgImage) (c : Cfg) : Option Nat :=
  ((p.insts.zipIdx).find? (fun x =>
    !(instOk p c x.1) || !(initHeaderOk x.1) || !((p.insts.take x.2).all (fun j => instApart x.1 j)))).map (fun x => x.2)

/-- The first INSTDIR entry that names INITVALS where that section is absent (R455). -/
def initBad (a : Nat) (p : ProgImage) (m : List Host.Cell) : Option Nat :=
  if (secEntry a 0x0207 m).isSome then none else p.insts.findIdx? (fun i => i.init.isSome)

/-- Output points that an instruction word names as what it writes: `DST` of the opcodes that write d, four of them for FETCH, and `SRC2` of FETCH (R127, R128). A point that STX reaches through its index is not in the word. -/
def outWrites (w : Nat) : List Nat :=
  let opc := bits w 0 8
  let d := bits w 16 16
  let b := bits w 48 16
  let at' (v : Nat) := if bits v 13 3 = 3 then [bits v 0 13] else []
  if [0x00, 0x21, 0x22, 0x23, 0x24, 0x25, 0x27, 0x2A, 0x2F].contains opc ∨ 0x2F < opc then []
  else if opc = 0x28 then ((at' d).map (fun p => [p, p + 1, p + 2, p + 3])).flatten ++ at' b
  else at' d

/-- Output points that block `i` of the image at `a` writes (R145). -/
def blockOuts (a i : Nat) (p : ProgImage) (m : List Host.Cell) : List Nat :=
  let (_, z, t) := secTable a 0x0201 m
  let code := secStart a 0x0201 m + memNat (t + z * i) 4 m
  ((List.range (p.blocks.getD i {}).count).map (fun j => outWrites (memNat (code + 8 * j) 8 m))).flatten

/-- The first block that writes an output point which WRITERS gives to another block, or which a block before it writes too (R145, R240, R460). -/
def writerBad (a : Nat) (p : ProgImage) (m : List Host.Cell) : Option Nat :=
  (List.range p.blocks.length).find? (fun i => (blockOuts a i p m).any (fun n =>
    (match assocGet n p.writers with | some b => b != 0xFFFF && b != i | none => false)
      || (List.range i).any (fun j => (blockOuts a j p m).contains n)))

/-- The sections of a program image (R455). -/
def progSections (a : Nat) (m : List Host.Cell) : Bool :=
  dirOk [0x0201, 0x0202, 0x0203, 0x0204, 0x0205, 0x0206, 0x0207] a m
    && [0x0201, 0x0202, 0x0203, 0x0204].all (fun t => secOk true a t m) && [0x0205, 0x0206, 0x0207].all (fun t => secOk false a t m)

/-- The LOAD checks of R240 against a configuration: the detail of the first failure, a block index or a directory index (R268). -/
def progLoadBad (a : Nat) (p : ProgImage) (c : Cfg) (m : List Host.Cell) (s : State) : Option Nat :=
  if !(progSections a m) ∨ 16384 < p.blocks.length ∨ 262144 < p.insts.length ∨ 8192 < p.globals.length ∨ p.writers.length ≠ 8192 then some 0
  else
    [firstBad (fun i => blockLoadOk a i p m { s with cfg := c }) (List.range p.blocks.length),
     ((allTasks c).find? (fun e => decide (p.blocks.length ≤ e.root))).map (fun e => e.root),
     (p.writers.find? (fun w => w.2 != 0xFFFF && decide (p.blocks.length ≤ w.2))).map (fun w => w.2),
     writerBad a p m,
     (if 0x02000000 < (match secEntry a 0x0201 m with | some (_, n, _) => n | none => 0) ∨ c.globSize < 8 * p.globals.length then some 0 else none),
     instBad p c,
     initBad a p m,
     (p.convs.find? (fun v => decide (p.blocks.length ≤ v.block))).map (fun v => v.block)].findSome? id

/-- Declared worst case of each root block within the task's budget (R240): the block of the first failure. -/
def progBudgetBad (p : ProgImage) (c : Cfg) : Option Nat :=
  ((allTasks c).find? (fun e => decide (e.budget < (p.blocks.getD e.root {}).wcet))).map (fun e => e.root)

/-- The checks of R240 for the program image in a bank: reason and detail of the first failure; reason 0 where all pass. -/
def progReason (bank : Nat) (c : Cfg) (s : State) : Nat × Nat :=
  let a := slotAddr bank 3
  let h := imgHeader a s.mem
  let p := parseProg a s.mem
  let valid := match selector s with | some x => (selSlot x bank 3).st == 3 | none => false
  if !valid ∨ headerReason h (fwSeq s) s ≠ 0 ∨ hKind h ≠ 3 then (4, 0)
  else if hCfgRef h ≠ c.cfgRef then (5, 0)
  else
    match progLoadBad a p c s.mem s with
    | some d => (6, d)
    | none => match progBudgetBad p c with
      | some d => (7, d)
      | none => (0, 0)

/-! ### Loading a code slot (R229, R239) -/

/-- Bytes of a code slot that an image takes. -/
def codeBytes (bank : Nat) (s : State) : Nat := min 0x02000000 (hLength (imgHeader (slotAddr bank 3) s.mem))

/-- A code slot is loaded from a bank, with its page check table; `MEM_CODESRC` records bank and validity (R229, R239). -/
def loadCode (slot bank : Nat) (s : State) : State :=
  let n := codeBytes bank s
  let base := slot * 0x02000000
  let bytes := memRead (slotAddr bank 3) n s.mem
  let pages := ((List.range ((n + 4095) / 4096)).map (fun i => (i, crc32c (memRead (slotAddr bank 3 + 4096 * i) 4096 s.mem))))
  let s := { s with
    mem := memSetList base bytes (memErase base (base + 0x02000000) s.mem)
    vm.codeErr := s.vm.codeErr.filter (fun e => !(base ≤ e.1 && e.1 < base + 0x02000000)) }
  let p := some (parseProg (slotAddr bank 3) s.mem)
  if slot = 0 then { s with vm.bank0 := bank, vm.valid0 := true, vm.pages0 := pages, vm.prog0 := p }
  else { s with vm.bank1 := bank, vm.valid1 := true, vm.pages1 := pages, vm.prog1 := p }

/-! ### Instances at their first load (R132, R245, R262) -/

/-- The two header slots of an instance. -/
def instHeader (i : InstEntry) (first new : Bool) : List Byte :=
  packFields [(4, i.ty), (4, i.path), (8, b2n first + 2 * b2n new + i.slots % 2 ^ 14 * 2 ^ 16)]

/-- An instance written with its initial values behind its header. -/
def instFresh (i : InstEntry) (first new : Bool) : List Byte :=
  let v := match i.init with | some l => l | none => List.replicate i.slots 0
  instHeader i first new ++ ((v.drop 2).map (leBytes 8)).flatten

/-- Write an instance's bytes granule by granule through a map (R243). -/
def putMapped (map : List (Nat × Nat)) (off : Nat) (l : List Byte) (s : State) : State :=
  ((chunks 64 (l.length / 64 + 1) l).zipIdx).foldl (fun s x =>
    freshStore (granule map (0x04000000 + off + 64 * x.2)) x.1 s) s

/-- All instances and global slots of a program at their initial values. -/
def initInstances (p : ProgImage) (s : State) : State :=
  let s := p.insts.foldl (fun s i => putMapped [] i.off (instFresh i true false) s) { s with vm.mapActive := [], vm.mapNew := [] }
  (p.globals.zipIdx).foldl (fun s g => { s with mem := storeBytes (0x07000000 + 8 * g.2) (leBytes 8 g.1.2) s.mem }) s

end Sys2Proof.Machine
end

