-- ==== Sys2Proof/Machine/CfgLoad.lean ====
section
/-! DEFINITION. The configuration bitstream: its sections as the module reads them (R456 to R459, R136, R137, R276, R277, R369), and every load check (R63, R72 to R81, R110, R118, R135, R140, R209, R279, R339, R341, R355, R359, R361, R370, R455, R542). -/

namespace Sys2Proof.Machine

/-! ### Sections -/

/-- The sections of a configuration bitstream (R456). -/
def cfgSections : List Nat := [0x0101, 0x0102, 0x0103, 0x0104, 0x0105, 0x0106, 0x0107, 0x0108, 0x0109, 0x010A, 0x010B, 0x010C, 0x010D, 0x010E]

/-- Sections whose length the spec fixes (R456 to R459), with that length. -/
def fixedLengths : List (Nat × Nat) := [(0x0102, 32), (0x0104, 264), (0x0105, 3538944), (0x0106, 512), (0x010B, 524288), (0x010C, 768), (0x010D, 36), (0x010E, 144)]

/-- Length of a section. -/
def secLen (a ty : Nat) (m : List Host.Cell) : Nat := match secEntry a ty m with | some (_, n, _) => n | none => 0

/-- Every section is present, known, intact and of its length (R454, R455). -/
def cfgDirOk (a : Nat) (m : List Host.Cell) : Bool :=
  dirOk cfgSections a m && cfgSections.all (fun t => secOk true a t m) && fixedLengths.all (fun x => secLen a x.1 m == x.2)

/-- A field that holds 0 takes its default (R457). -/
def orDefault (v d : Nat) : Nat := if v = 0 then d else v

/-- `v` is 0 or lies in `[lo, hi]`. -/
def zeroOr (lo hi v : Nat) : Bool := v == 0 || (decide (lo ≤ v) && decide (v ≤ hi))

/-- A task entry at an address; its words are those of R137. -/
def parseTask (p : Nat) (m : List Host.Cell) : TaskEntry :=
  let w := fun i => memNat (p + 4 * i) 4 m
  { id := bits (w 0) 0 6, prio := bits (w 0) 6 4, root := bits (w 0) 16 16, period := bits (w 1) 0 10, phase := bits (w 1) 10 10,
    inst := w 2, budget := bits (w 3) 0 16, trig := bits (w 4) 0 4, tsel := bits (w 4) 4 6, targ := bits (w 4) 16 16, targ2 := bits (w 5) 0 16 }

/-- Bytes of a task table with `n` entries: the header takes 32 B (its byte placement is the model's own), an entry 32 B (R137). -/
def taskBytes (n : Nat) : Nat := 32 + 32 * n

/-- A task table (R136, R137): the entries in use. -/
def parseTasks (p : Nat) (m : List Host.Cell) : TaskTable :=
  let f := fun o => memNat (p + o) 2 m
  { reserveUs := orDefault (f 0) 40, inFreeze := f 2, outApply := f 4, freeLimit := orDefault (f 6) 100
    cps := (List.range 8).map (fun i => f (8 + 2 * i))
    entries := ((List.range (f 24)).filter (fun i => bit (memNat (p + taskBytes i) 4 m) 10)).map (fun i => parseTask (p + taskBytes i) m) }

/-- Minor-cycle lengths in µs by `CYCLE_CODE` (R276). -/
def cycleOfCode (c : Nat) : Nat := [500, 1000, 2000, 5000, 10000].getD c 1000

/-- The bus schedule (R276, R277, R308). -/
def parseSched (p : Nat) (m : List Host.Cell) : Sched :=
  let b := fun o => memNat (p + o) 1 m
  let us := cycleOfCode (b 0)
  let n := us / 5
  { cycleUs := us, code := b 0, nodes := b 1, netId := memNat (p + 2) 2 m, pmaj := b 4, pmin := b 5, own := b 6
    cs := ((List.range 4).map (fun i => b (8 + i))).filter (fun x => x != 0xFF)
    pairs := ((List.range 16).map (fun i => (b (12 + 2 * i), b (13 + 2 * i)))).filter (fun x => !(x.1 == 0xFF && x.2 == 0xFF))
    posX := (List.range 64).map (fun i => b (0x2C + i)), posY := (List.range 64).map (fun i => b (0x6C + i))
    schedId := memNat (p + 0xAC) 4 m
    slots := (List.range n).map (fun i => memNat (p + 0xB0 + 4 * i) 4 m)
    delX := if b 4 < 2 then (List.range 64).map (fun i => b (0xB0 + 4 * n + i)) else []
    delY := if b 4 < 2 then (List.range 64).map (fun i => b (0xF0 + 4 * n + i)) else [] }

/-- A channel template (R458). -/
def parseTemplate (p : Nat) (m : List Host.Cell) : Template :=
  let b := fun o => memNat (p + o) 1 m
  let h := fun o => memNat (p + o) 2 m
  { index := h 0, transport := b 2, rx := bit (b 3) 1, border := bit (b 3) 2, latReq := bit (b 3) 3, src := h 4, dst := h 6, mtch := h 8,
    prot := b 10, wickWin := b 11, foldWin := b 12, keySlot := b 13, ring := b 14, tver := b 15, len := h 16
    aspects := ((List.range 4).filter (fun i => h (24 + 16 * i) != 0xFFFF)).map (fun i =>
      { off := h (20 + 16 * i), width := b (22 + 16 * i), elem := h (24 + 16 * i)
        restrictive := (List.range (min 4 (b (23 + 16 * i)))).map (fun j => h (28 + 16 * i + 2 * j)) })
    headers := memRead (p + 84) 42 m }

/-- The valid templates of CHANNELS by place (R458). -/
def templatePlaces (p : Nat) (m : List Host.Cell) : List Nat := (List.range 4096).filter (fun n => bit (memNat (p + 128 * n + 3) 1 m) 0)

/-- An image point binding (R459). -/
def parseBinding (p : Nat) (m : List Host.Cell) : Binding :=
  let w := fun i => memNat (p + 4 * i) 4 m
  { point := bits (w 0) 0 13, output := bit (w 0) 13, kind := bits (w 0) 14 2, idx := bits (w 1) 0 16, off := bits (w 1) 16 16, width := bits (w 2) 0 8 }

/-- The configuration of the image in a slot (R456). -/
def parseCfg (a : Nat) (m : List Host.Cell) : Cfg :=
  let h := imgHeader a m
  let st := fun t => secStart a t m
  let by' := fun t o n => memNat (st t + o) n m
  let split := hLane h == 1
  let tk := st 0x0107
  let n1 := memNat (tk + 24) 2 m
  { present := true, seq := hSeq h, cfgRef := hCfgRef h, split := split, role := hRole h
    cluster := by' 0x0101 0 1
    partner := if by' 0x0101 1 1 = 0xFF then none else some (by' 0x0101 1 1)
    instSize := by' 0x0101 4 4, globSize := by' 0x0101 8 4
    degradeH := orDefault (by' 0x0102 0 2) 72, epoch := orDefault (by' 0x0102 2 2) 1, civilJump := orDefault (by' 0x0102 4 4) 1000000
    recShutdown := by' 0x0102 8 1 == 2, recFailH := orDefault (by' 0x0102 9 1) 24, borderTimeout := orDefault (by' 0x0102 10 1) 3
    testH := orDefault (by' 0x0102 11 1) 24, kPickMs := orDefault (by' 0x0102 12 1) 50, kDropMs := orDefault (by' 0x0102 13 1) 50
    confirmS := orDefault (by' 0x0102 16 4) 600, seqFloor := (List.range 3).map (fun i => by' 0x0102 (20 + 4 * i) 4)
    debugPermit := bit (by' 0x0103 0 1) 0, autoStart := bit (by' 0x0103 0 1) 1, progBlocks := by' 0x0103 4 4
    pins := (List.range 32).map (fun i => by' 0x0104 (8 * i) 8), edgeRing := by' 0x0104 256 1
    rings := (List.range 64).map (fun i => by' 0x0106 (8 * i) 8)
    tasks := parseTasks tk m
    tasksB := if split && decide (taskBytes n1 < secLen a 0x0107 m) then some (parseTasks (tk + taskBytes n1) m) else none
    bindings := (List.range (secLen a 0x0108 m / 16)).map (fun i => parseBinding (st 0x0108 + 16 * i) m)
    readback := (List.range (secLen a 0x0109 m / 12)).map (fun i =>
      { addr := by' 0x0109 (12 * i) 4, mask := by' 0x0109 (12 * i + 4) 4, expect := by' 0x0109 (12 * i + 8) 4 })
    sched := parseSched (st 0x010A) m
    templates := (templatePlaces (st 0x010B) m).map (fun n => parseTemplate (st 0x010B + 128 * n) m)
    keyHash := (List.range 48).map (fun i => by' 0x010C (16 * i) 16)
    upstream := by' 0x010D 0 1
    downstream := (List.range (min 4 (by' 0x010D 1 1))).map (fun i =>
      { transport := by' 0x010D (2 + 8 * i) 1, node := by' 0x010D (3 + 8 * i) 1, mac := beNat (memRead (st 0x010D + 4 + 8 * i) 6 m) })
    ownerKeys := ownerKeysOf a m }

/-! ### MODULE, LIMITS, pins, rings, bindings -/

/-- MODULE: cluster numbers 0 to 3, sizes within R134; no pair role in split mode (R42, R134, R209, R456). -/
def moduleOk (c : Cfg) : Bool :=
  decide (c.cluster < 4) && decide (c.instSize ≤ 0x03000000) && decide (c.globSize ≤ 0x10000)
    && (match c.partner with | some p => decide (p < 4) && p != c.cluster && !c.split | none => true)

/-- The ranges of LIMITS (R457). -/
def limitsOk (a : Nat) (m : List Host.Cell) : Bool :=
  let p := secStart a 0x0102 m
  let f := fun o n => memNat (p + o) n m
  zeroOr 1 168 (f 0 2) && zeroOr 1000 1000000000 (f 4 4) && zeroOr 1 2 (f 8 1) && zeroOr 1 168 (f 9 1) && zeroOr 2 10 (f 10 1)
    && zeroOr 1 168 (f 11 1) && zeroOr 10 200 (f 12 1) && zeroOr 10 200 (f 13 1) && zeroOr 60 86400 (f 16 4)

/-- A pin word alone (R369, R370). -/
def pinWordOk (w : Nat) : Bool :=
  let mode := bits w 0 3
  let inp := mode == 1 || mode == 2
  let out := mode == 3 || mode == 4
  let bind := bit w 7
  let filt := bits w 29 8
  decide (mode ≤ 4) && (mode != 0 || w == 0) && !(bit w 15)
    && (!(bit w 3) || out) && (!(bit w 4) || mode == 4) && (!(bit w 5) || mode == 4) && (!(bit w 6) || inp)
    && (!bind || inp || mode == 3) && (!(bit w 8) || out) && zeroOr 2 50 (bits w 9 6)
    && (if inp then decide (1 ≤ filt) && decide (filt ≤ 250) else decide (filt ≤ 50))
    && (bit w 8 || bits w 37 13 == 0) && (bind || bits w 50 14 == 0)

/-- Input points that pin words and BINDINGS name, one mention each (R135). -/
def inputPoints (c : Cfg) : List Nat :=
  (c.pins.filter (fun w => bits w 0 3 == 1 || bits w 0 3 == 2)).map (fun w => bits w 16 13)
    ++ (c.pins.filter (fun w => bit w 8)).map (fun w => bits w 37 13)
    ++ (c.bindings.filter (fun b => !b.output)).map (fun b => b.point)

/-- Output points that pin words name. -/
def cfgOutPoints (c : Cfg) : List Nat := (c.pins.filter (fun w => bits w 0 3 == 3 || bits w 0 3 == 4)).map (fun w => bits w 16 13)

/-- Elements that input pins update. -/
def boundInputs (c : Cfg) : List Nat := (c.pins.filter (fun w => (bits w 0 3 == 1 || bits w 0 3 == 2) && bit w 7)).map (fun w => bits w 50 14)

/-- The element a pin word binds fits its mode (R370): an input GENERIC or KEYLOCK that no border frame and no route updates, a vital output SIGNAL in an interlocking. -/
def pinElemOk (c : Cfg) (m : List Host.Cell) (w : Nat) : Bool :=
  let cf := elemConf (bits w 50 14) m
  !(bit w 7) || (if bits w 0 3 = 3 then bits cf 0 4 == 3 && c.role == 1 else (bits cf 0 4 == 8 || bits cf 0 4 == 6) && !(bit cf 4) && !(bit cf 7))

/-- The pin section (R370) against a lattice memory. -/
def pinsOk (a : Nat) (c : Cfg) (m lat : List Host.Cell) : Bool :=
  let edges := c.pins.any (fun w => bit w 6)
  c.pins.all pinWordOk && decide (inputPoints c).Nodup && decide (cfgOutPoints c).Nodup && decide (boundInputs c).Nodup
    && c.pins.all (pinElemOk c lat)
    && (if edges then decide (c.edgeRing < 64) && !(bit (c.rings.getD c.edgeRing 0) 5) else c.edgeRing == 0xFF)
    && (memRead (secStart a 0x0104 m + 257) 7 m).all (fun b => b == 0#8)

/-- The ring entries (R361, R459). -/
def ringsOk (c : Cfg) : Bool :=
  c.rings.all (fun w => decide (4 ≤ bits w 0 4) && decide (bits w 0 4 ≤ 12) && bits w 6 2 != 3 && !(bit w 11) && decide (w / 2 ^ 38 = 0))
    && decide (c.rings.foldl (fun n w => n + bits w 12 13) 0 ≤ 4096)

/-- A BINDINGS entry (R459, R542). -/
def bindingOk (p : Nat) (m lat : List Host.Cell) : Bool :=
  let b := parseBinding p m
  let ty := tyOf (b.idx % 16384) lat
  decide (memNat p 4 m / 2 ^ 16 = 0) && decide (memNat (p + 8) 4 m / 256 = 0) && memNat (p + 12) 4 m == 0
    && [1, 2, 4].contains b.width && b.kind != 0
    && (b.kind == 1 || (!b.output && decide (b.idx < 16384) && ty != 0 && (b.kind == 2 || ty == 3)))

/-! ### Channels and relay -/

/-- A valid template at place `n`; a border channel has FOLD (R55, R339, R341, R355, R359, R458). -/
def templateOk (n p : Nat) (c : Cfg) (m lat : List Host.Cell) : Bool :=
  let t := parseTemplate p m
  let eth := decide (1 ≤ t.transport) && decide (t.transport ≤ 4)
  let lnk := decide (5 ≤ t.transport)
  let maj := t.tver / 16
  t.index == n && decide (t.transport ≤ 7) && decide (memNat (p + 3) 1 m < 16) && (!t.border || (lnk && hasFold t)) && (!t.latReq || (t.rx && c.role == 1))
    && (t.prot == 2 || t.prot == 3 || (t.prot == 1 && !eth))
    && decide (1 ≤ t.wickWin) && decide (t.wickWin ≤ 16) && decide (1 ≤ t.foldWin) && decide (t.foldWin ≤ 8)
    && (if eth then decide (8 ≤ t.keySlot) && decide (t.keySlot ≤ 47) else t.keySlot == 0xFF)
    && decide (t.ring < 64)
    && (t.transport == 0 || (decide (maj ≤ 2) && (maj == 2 || lnk) && (maj != 0 || (t.prot == 2 && decide (t.len ≤ 256)))))
    && (if t.transport = 0 then t.len == (if t.prot = 2 then 32 else 30) else decide (16 ≤ t.len) && decide (t.len ≤ 1024))
    && decide ((t.len + 31) / 32 + 1 ≤ 2 ^ bits (c.rings.getD t.ring 0) 0 4)
    && t.aspects.all (fun x => decide (x.elem < 16384) && tyOf x.elem lat == 3 && (x.width == 1 || x.width == 2) && decide (x.restrictive ≠ []) && decide (x.off + x.width ≤ t.len))

/-- CHANNELS. -/
def channelsOk (a : Nat) (c : Cfg) (m lat : List Host.Cell) : Bool :=
  let p := secStart a 0x010B m
  (templatePlaces p m).all (fun n => templateOk n (p + 128 * n) c m lat)

/-- RELAY (R459). -/
def relayOk (a : Nat) (c : Cfg) (m : List Host.Cell) : Bool :=
  let p := secStart a 0x010D m
  decide (memNat (p + 1) 1 m ≤ 4) && memNat (p + 34) 2 m == 0 && c.downstream.all (fun d => decide (d.transport ≤ 7))

/-! ### Task tables and response times (R136, R137, R140) -/

/-- The header of a task table at `p` (R136). -/
def taskHeaderOk (p us : Nat) (m : List Host.Cell) : Bool :=
  let t := parseTasks p m
  let n := memNat (p + 24) 2 m
  decide (40 ≤ t.reserveUs) && decide (t.reserveUs ≤ us) && zeroOr 40 (us - 1) t.inFreeze && zeroOr 40 (us - 1) t.outApply
    && t.cps.all (fun x => x == 0xFFFF || decide (x < us)) && decide (1 ≤ t.freeLimit) && decide (t.freeLimit ≤ 1000)
    && decide (1 ≤ n) && decide (n ≤ 49)

/-- A task entry in use at `p` (R137). -/
def taskEntryOk (p : Nat) (c : Cfg) (m : List Host.Cell) : Bool :=
  let e := parseTask p m
  let w := fun i => memNat (p + 4 * i) 4 m
  decide (e.id ≤ 48) && decide (1 ≤ e.period) && decide (e.period ≤ 1000) && (decide (16 ≤ e.id) || decide (e.phase < e.period))
    && e.inst % 8 == 0 && decide (e.inst < c.instSize)
    && (!(decide (16 ≤ e.id) && decide (e.id < 48)) || (decide (1 ≤ e.trig) && decide (e.trig ≤ 4)
      && (e.trig != 2 || (decide (1 ≤ e.tsel) && decide (e.tsel ≤ 3) && decide (e.targ < 8192))) && (e.trig != 4 || decide (e.tsel < 8))))
    && bits (w 0) 11 5 == 0 && bits (w 1) 20 12 == 0 && bits (w 3) 16 16 == 0 && bits (w 4) 10 6 == 0 && bits (w 5) 16 16 == 0 && w 6 == 0
    && crc32c (memRead p 28 m) == w 7

/-- A task table at `p`: header, entries, each ID once (R136, R137). -/
def taskTableOk (p us : Nat) (c : Cfg) (m : List Host.Cell) : Bool :=
  taskHeaderOk p us m
    && ((List.range (memNat (p + 24) 2 m)).filter (fun i => bit (memNat (p + taskBytes i) 4 m) 10)).all (fun i => taskEntryOk (p + taskBytes i) c m)
    && decide ((parseTasks p m).entries.map (fun e => e.id)).Nodup

/-- Stall bound of an access to a register address, in ns; 0 in the core domain (R505). -/
def stallNs (addr : Nat) : Nat :=
  let blk := bits addr 16 8
  if blk = 0x11 then 95000 else if blk = 0x08 then 40 else if blk = 0x0D then (if 0x400 ≤ bits addr 0 12 ∧ bits addr 0 12 < 0x480 then 3200 else 40) else 0

/-- Instruction words of block `i` of the program image at `a`. -/
def blockWords (a i : Nat) (p : ProgImage) (m : List Host.Cell) : List Nat :=
  let (_, z, t) := secTable a 0x0201 m
  let code := secStart a 0x0201 m + memNat (t + z * i) 4 m
  (List.range (p.blocks.getD i {}).count).map (fun j => memNat (code + 8 * j) 8 m)

/-- The constant that the `a` operand of an instruction word names, where it is one. -/
def constOf (w : Nat) (k : BlockInfo) : Option Nat := if bits w 45 3 = 4 then k.consts[bits w 32 13]? else none

/-- Blocks that block `i` calls (R131). -/
def calledBy (a i : Nat) (p : ProgImage) (m : List Host.Cell) : List Nat :=
  (blockWords a i p m).filterMap (fun w => if bits w 0 8 = 0x24 then (constOf w (p.blocks.getD i {})).map (fun v => v % 2 ^ 32) else none)

/-- Blocks reachable from a list, within a number of steps. -/
def reachable (a : Nat) (p : ProgImage) (m : List Host.Cell) : Nat → List Nat → List Nat
  | 0, l => l
  | n + 1, l =>
    let new := ((l.map (fun i => calledBy a i p m)).flatten.filter (fun i => !(l.contains i))).eraseDups
    if new.isEmpty then l else reachable a p m n (l ++ new)

/-- Longest cross-domain stall of one access of a task: the registers its blocks name; an access whose address is no constant counts as one of the readback list (R140, R168, R505). -/
def taskStall (a root : Nat) (p : ProgImage) (c : Cfg) (m : List Host.Cell) : Nat :=
  let list := c.readback.foldl (fun n e => max n (stallNs e.addr)) 0
  (reachable a p m p.blocks.length [root]).foldl (fun n i =>
    (blockWords a i p m).foldl (fun n w =>
      if bits w 0 8 = 0x29 ∨ bits w 0 8 = 0x2A then
        max n (match constOf w (p.blocks.getD i {}) with | some v => stallNs v | none => list)
      else n) n) 0

/-- Interference of the tasks `l` in a window of `r` ns: each is (C, T). -/
def interference (r : Nat) (l : List (Nat × Nat)) : Nat := l.foldl (fun n x => n + (r + x.2 - 1) / x.2 * x.1) 0

/-- The iteration of R140: the response time where it repeats at or below `t`. -/
def respIter (own t : Nat) (hp : List (Nat × Nat)) : Nat → Nat → Option Nat
  | 0, _ => none
  | n + 1, r =>
    if t < r then none
    else
      let r2 := own + interference r hp
      if r2 = r then some r else respIter own t hp n r2

/-- Response time in ns of each task of a table, none where the task fails; the free-running task takes no part (R140). `stall` gives each task's longest stall in ns. -/
def responses (t : TaskTable) (us : Nat) (stall : TaskEntry → Nat) : List (TaskEntry × Option Nat) :=
  let l := t.entries.filter (fun e => e.id != 48)
  let cOf := fun (e : TaskEntry) => (e.budget + 2) * 1000
  let tOf := fun (e : TaskEntry) => e.period * us * 1000
  l.map (fun e =>
    let hp := (t.reserveUs * 1000, us * 1000) :: (l.filter (fun j => j.id != e.id && decide (j.prio ≤ e.prio))).map (fun j => (cOf j, tOf j))
    let b := (l.filter (fun j => decide (e.prio < j.prio))).foldl (fun n j => max n (stall j)) 0
    (e, respIter (cOf e + b) (tOf e) hp (tOf e / 2000 + 2) (cOf e + b + hp.foldl (fun n x => n + x.1) 0)))

/-- Every task passes the analysis (R140). -/
def responseOk (t : TaskTable) (us : Nat) (stall : TaskEntry → Nat) : Bool := (responses t us stall).all (fun x => x.2.isSome)

/-- TASKS (R136, R137, R140, R206) beside the program image at `pa`. -/
def tasksOk (a pa : Nat) (c : Cfg) (m : List Host.Cell) : Bool :=
  let p := secStart a 0x0107 m
  let us := c.sched.cycleUs
  let n1 := memNat (p + 24) 2 m
  let prog := if memNat pa 4 m = 0x4D494B48 then parseProg pa m else {}
  let stall := fun (e : TaskEntry) => taskStall pa e.root prog c m
  taskTableOk p us c m && responseOk c.tasks us stall
    && (match c.tasksB with
      | some t => taskTableOk (p + taskBytes n1) us c m && responseOk t us stall
      | none => true)
    && (c.split || decide (secLen a 0x0107 m = taskBytes n1))

/-! ### Schedule checks (R278, R279, R308) -/

/-- Position of a node on channel Y, or X. -/
def posOf (y : Bool) (n : Nat) (c : Sched) : Nat := (if y then c.posY else c.posX).getD n 0xFF

/-- Fields of a slot entry (R277). -/
def slOwner (w : Nat) : Nat := bits w 0 6
def slUsed (w : Nat) : Bool := bit w 6
def slKind (w : Nat) : Nat := bits w 7 2
def slOn (y : Bool) (w : Nat) : Bool := bit w (if y then 10 else 9)
def slPair (w : Nat) : Bool := bit w 12

/-- Nodes that may send in a slot: the owner, and in a pair slot the other member. -/
def slNodes (w : Nat) (c : Sched) : List Nat :=
  slOwner w :: (if slPair w then (c.pairs.filter (fun p => p.1 == slOwner w)).map (fun p => p.2) else [])

/-- Distance of the positions of two nodes. -/
def hopDist (y : Bool) (n k : Nat) (c : Sched) : Nat :=
  let p := posOf y n c
  let q := posOf y k c
  if p ≤ q then q - p else p - q

/-- The gap rule for two used slots, `d` apart, on one channel, whichever channels their frames use; times in ns (R278). -/
def gapOk (y : Bool) (w v d : Nat) (c : Sched) : Bool :=
  (slNodes w c).all (fun n => (slNodes v c).all (fun k => decide (4240 + 740 * hopDist y n k c ≤ 5000 * d)))

/-- A slot whose gap to one of the ten that follow fails (R278). -/
def gapBad (c : Sched) : Option Nat :=
  let n := c.slots.length
  (List.range n).find? (fun i =>
    let w := c.slots.getD i 0
    slUsed w && (List.range 10).any (fun j =>
      let v := c.slots.getD ((i + j + 1) % n) 0
      slUsed v && !(gapOk false w v (j + 1) c && gapOk true w v (j + 1) c)))

/-- Instants in ns at which frames start on the link above position `k`, in one direction. -/
def linkStarts (y up : Bool) (k : Nat) (c : Sched) : List Nat :=
  ((c.slots.zipIdx).map (fun x =>
    if slUsed x.1 && slOn y x.1 then
      (slNodes x.1 c).filterMap (fun n =>
        let p := posOf y n c
        if up then (if p ≤ k then some ((5000 * x.2 + 740 * (k - p)) % (1000 * c.cycleUs)) else none)
        else if k + 1 ≤ p ∧ p < 64 then some ((5000 * x.2 + 740 * (p - k - 1)) % (1000 * c.cycleUs)) else none)
    else [])).flatten

/-- An idle interval of 2.5 µs follows one of the frames before the next starts (R279, R280). -/
def idleOk (l : List Nat) (cyc : Nat) : Bool :=
  l.isEmpty || l.any (fun t => l.all (fun v => let d := (v + cyc - t) % cyc; d == 0 || decide (4160 + 2500 ≤ d)))

/-- Every link of a channel has its idle interval in both directions. -/
def linksIdle (c : Sched) : Bool :=
  [false, true].all (fun y => [false, true].all (fun up => (List.range (c.nodes - 1)).all (fun k => idleOk (linkStarts y up k c) (1000 * c.cycleUs))))

/-- The positions of a channel run from 0 without gaps or duplicates. -/
def positionsOk (y : Bool) (c : Sched) : Bool :=
  let l := (if y then c.posY else c.posX).filter (fun p => p != 0xFF)
  l.length == c.nodes && decide l.Nodup && l.all (fun p => decide (p < c.nodes))

/-- Node IDs present in the schedule. -/
def nodesOf (c : Sched) : List Nat := (List.range 64).filter (fun n => posOf false n c != 0xFF)

/-- `KIND`, range and channels of a used slot (R274, R277). -/
def kindOk (i w : Nat) (c : Sched) : Bool :=
  let n := c.slots.length
  let ch := bits w 9 2
  match slKind w with
  | 0 => decide (i < 4) && ch == 3
  | 1 => decide (4 ≤ i) && decide (i + 8 < n) && ch == 3
  | 2 => decide (n ≤ i + 8) && ch != 0
  | _ => false

/-- Slots 0 to 3 belong to the cold-start nodes in ascending order (R275). -/
def csOk (c : Sched) : Bool :=
  decide (c.cs.length ≤ 4) && c.cs.all (fun n => (nodesOf c).contains n) && decide (c.cs.Pairwise (· < ·))
    && (List.range 4).all (fun i =>
      let w := c.slots.getD i 0
      match c.cs[i]? with
      | some n => slUsed w && slOwner w == n && slKind w == 0 && !(slPair w)
      | none => !(slUsed w))

/-- The reserved fields of a slot entry are 0 (R277, R279). -/
def slotFieldsOk (w : Nat) : Bool :=
  !(bit w 11) && bits w 13 3 == 0 && bits w 24 8 == 0

/-- The version is one that the module serves: current 2.1, and every minor of majors 1 and 0, which have no pair slots (R307, R308). -/
def versionOk (c : Sched) : Bool :=
  (c.pmaj == 2 && decide (c.pmin ≤ 1)) || (decide (c.pmaj < 2) && c.pairs.isEmpty && c.slots.all (fun w => !(slPair w)))

/-- First used slot that fails `f`. -/
def slotBad (f : Nat → Nat → Bool) (c : Sched) : Option Nat := ((c.slots.zipIdx).find? (fun x => slUsed x.1 && !(f x.2 x.1))).map (fun x => x.2)

/-- Every node owns a used slot, its own or through its pair. -/
def ownsOk (c : Sched) : Bool :=
  (nodesOf c).all (fun n => c.slots.any (fun w => slUsed w && (slNodes w c).contains n))

/-- Members of a pair stand side by side; a pair slot names the lower ID of a pair. -/
def pairsOk (c : Sched) : Bool :=
  c.pairs.all (fun p => decide (p.1 < p.2) && decide (p.2 < 64) && hopDist false p.1 p.2 c == 1 && hopDist true p.1 p.2 c == 1)
    && c.slots.all (fun w => !(slUsed w && slPair w) || c.pairs.any (fun p => p.1 == slOwner w))

/-- The rules of R279 in their order, 1 to 10: number of the first that fails, and the slot where one is at fault. -/
def schedFail (reserved len : Nat) (c : Sched) : Option (Nat × Nat) :=
  if 4 < c.code ∨ len ≠ 0xB0 + 4 * c.slots.length + (if c.pmaj < 2 then 128 else 0) then some (1, 0)
  else if c.nodes = 0 ∨ 64 < c.nodes ∨ !(positionsOk false c && positionsOk true c) ∨ posOf false c.own c = 0xFF ∨ posOf true c.own c = 0xFF then some (2, 0)
  else if !(csOk c) then some (3, 0)
  else
    match slotBad (fun i w => kindOk i w c) c with
    | some i => some (4, i)
    | none =>
      if !(ownsOk c) then some (5, 0)
      else if !(pairsOk c) then some (6, 0)
      else
        match gapBad c with
        | some i => some (7, i)
        | none =>
          if !(linksIdle c) then some (8, 0)
          else if !(versionOk c) then some (9, 0)
          else
            match ((c.slots.zipIdx).find? (fun x => !(slotFieldsOk x.1))).map (fun x => x.2) with
            | some i => some (10, i)
            | none => if reserved = 0 then none else some (10, 0)

/-- The schedule section's failure. -/
def schedOf (a : Nat) (c : Cfg) (m : List Host.Cell) : Option (Nat × Nat) :=
  schedFail (memNat (secStart a 0x010A m + 7) 1 m) (secLen a 0x010A m) c.sched

/-! ### Lattice load (R62, R63, R66 to R81, R110, R118, R542) -/

/-- A word into table P and its complement into table N, `off` above. -/
def putPN (a off : Nat) (v n : Nat) (m : List Host.Cell) : List Host.Cell :=
  memSetList (a + off) (leBytes n (2 ^ (8 * n) - 1 - v)) (memSetList a (leBytes n v) m)

/-- State half that lattice load writes for a configuration half (R118). -/
def loadState (cf : Nat) : Nat :=
  if bits cf 0 4 = 0 then 0
  else if bits cf 0 4 = 7 then 0x7887 + lockFree * 2 ^ 16
  else if bit cf 7 then rIdle + lockFree * 2 ^ 16
  else lockFree * 2 ^ 16

/-- Lattice SRAM from the LATTICE section at `p`: static tables, matrices, configuration halves, state halves, IDLE and OV_FREE; the reserved part of the image is not copied (R62, R118). -/
def loadLattice (p : Nat) (nor m : List Host.Cell) : List Host.Cell :=
  let mat := memRead p 0x200000 nor
  let m := memErase 0x100000000 0x100600000 m
  let m := memSetList 0x100000000 mat m
  let m := memSetList 0x100200000 (mat.map (fun b => ~~~b)) m
  let m := memErase 0x1004C8000 0x1004D0000 (memSetList 0x1004A0000 (memRead (p + 0x220000) 0x140000 nor) m)
  let m := (List.range 16384).foldl (fun m e =>
    let cf := memNat (p + 0x200000 + 8 * e) 8 nor
    putPN (elemAddr e + 8) 0x40000 cf 8 (putPN (elemAddr e) 0x40000 (loadState cf) 8 m)) m
  let m := (List.range 4096).foldl (fun m r => putPN (routeAddr r) 0x8000 rIdle 8 m) m
  (List.range 2048).foldl (fun m o => putPN (ovAddr o) 0x4000 ovFree 8 m) m

/-- Bit of route `j` in row `i` of the conflict matrix (R62). -/
def conflictBit (i j : Nat) (m : List Host.Cell) : Bool := (memGet (0x100000000 + 512 * i + j / 8) m).toNat.testBit (j % 8)

/-- Symmetric, diagonal 0 (R63). -/
def matrixOk (m : List Host.Cell) : Bool :=
  (List.range 4096).all (fun i => !(conflictBit i i m) && (List.range i).all (fun j => conflictBit i j m == conflictBit j i m))

/-- A configuration half (R67, R542). -/
def confOk (e : Nat) (m : List Host.Cell) : Bool :=
  let cf := elemConf e m
  let ty := bits cf 0 4
  if ty = 0 then cf == 0 && bits (memNat (0x1004F0000 + 4 * e) 4 m) 18 9 == 0
  else decide (ty ≤ 8) && bits cf 44 20 == 0 && (!(bit cf 7) || ty == 8) && (bit cf 4 || bits cf 30 14 == 0) && (ty != 7 || bits cf 20 10 != 0)

/-- A fixed field that names an element: a used one, or none (R72, R542). -/
def namesOk (f : Nat) (m : List Host.Cell) : Bool := f == 0x7FFF || (decide (f < 16384) && tyOf f m != 0)

/-- A condition is defined for the type (R75). -/
def condOk (cond ty : Nat) : Bool :=
  ty != 0 && (cond == 1 || (cond == 2 && ty == 2) || (cond == 3 && ty != 7) || (cond == 4 && ty == 8))

/-- Entries of the element list pool: in the pool, reserved bits 0, conditions defined (R73, R75). -/
def poolOk (first n : Nat) (m : List Host.Cell) : Bool :=
  decide (first + n ≤ 131072) && (List.range n).all (fun i => decide (memNat (0x100500000 + 4 * (first + i)) 4 m < 2 ^ 24))
    && (poolList first n m).all (fun q => condOk q.cond (tyOf q.elem m))

/-- Sections from 0, without gaps, in order, each with a TRACK element (R74). -/
def sectionsOk (l : List LatEntry) (m : List Host.Cell) : Bool :=
  let s := l.map (fun q => q.sect)
  s.head? == some 0 && (s.zip (s.drop 1)).all (fun x => x.2 == x.1 || x.2 == x.1 + 1)
    && s.all (fun k => l.any (fun q => q.sect == k && tyOf q.elem m == 1))

/-- A flank list (R79). -/
def flanksOk (first n : Nat) (m : List Host.Cell) : Bool :=
  decide (n ≤ 64) && decide (first + n ≤ 32768) && (List.range n).all (fun i => decide (memNat (0x1004D0000 + 4 * (first + i)) 4 m < 2 ^ 24))
    && (flankList first n m).all (fun q => (tyOf q.elem m == 2 && (q.pos == 1 || q.pos == 2)) || (tyOf q.elem m == 3 && q.pos == 3))

/-- The bits of a route record that R72 does not name are 0. -/
def routeReserved (r : Nat) (m : List Host.Cell) : Bool :=
  let w := fun i => recWord (0x1004A0000 + 32 * r) i m
  !(bit (w 0) 31) && bits (w 1) 27 5 == 0 && bits (w 2) 24 8 == 0 && bits (w 3) 22 10 == 0 && bits (w 4) 30 2 == 0 && bits (w 5) 30 2 == 0 && bits (w 6) 6 26 == 0

/-- A fixed field's value: an element number or none (R72). -/
def elemField (f : Nat) : Bool := decide (f < 16384) || f == 0x7FFF

/-- What load checks of every route record, configured or not: `RCHECK` and the ranges of its fields (R72, R118). -/
def routeFieldsOk (r : Nat) (m : List Host.Cell) : Bool :=
  let x := routeRec r m
  let w := fun i => recWord (0x1004A0000 + 32 * r) i m
  x.ok && bits (w 0) 0 12 == r && x.kind != 1 && routeReserved r m
    && elemField x.entrySig && elemField (bits (w 1) 0 15) && elemField x.beyond && elemField x.border
    && decide (10 ≤ x.apprTime) && decide (x.apprTime ≤ 600) && decide (1 ≤ x.cancelTime) && decide (x.cancelTime ≤ 60)
    && decide (x.elist + x.elen ≤ 131072) && decide (x.alist + x.alen ≤ 131072) && decide (x.flen ≤ 64) && decide (x.flist + x.flen ≤ 32768)

/-- What load checks of a configured route record beside its fields (R72 to R75, R542). -/
def routeOk (r : Nat) (m : List Host.Cell) : Bool :=
  let x := routeRec r m
  let w := fun i => recWord (0x1004A0000 + 32 * r) i m
  let half := x.kind == 2 || x.kind == 3
  namesOk x.entrySig m && (x.entrySig != 0x7FFF || x.kind == 3) && namesOk (bits (w 1) 0 15) m && namesOk x.beyond m && namesOk x.border m
    && (!x.hasOv || (ovRec x.ov m).valid)
    && (if half then x.border != 0x7FFF && bits (elemConf x.border m) 0 4 == 8 && bit (elemConf x.border m) 4 else x.border == 0x7FFF)
    && poolOk x.elist x.elen m && poolOk x.alist x.alen m && sectionsOk (pathOf x m) m && flanksOk x.flist x.flen m

/-- What load checks of every overlap record, configured or not: `OCHECK` and the ranges of its fields (R78, R118). -/
def overlapFieldsOk (o : Nat) (m : List Host.Cell) : Bool :=
  let x := ovRec o m
  let w := fun i => recWord (0x1004C0000 + 16 * o) i m
  x.ok && decide (w 0 < 2 ^ 23) && decide (w 1 < 2 ^ 10) && w 2 == 0 && zeroOr 10 600 x.time && decide (x.first + x.len ≤ 131072)

/-- What load checks of a configured overlap record beside its fields (R78). -/
def overlapOk (o : Nat) (m : List Host.Cell) : Bool := let x := ovRec o m; poolOk x.first x.len m

/-- Routes and overlaps that are configured. -/
def validRoutes (m : List Host.Cell) : List Nat := (List.range 4096).filter (fun r => (routeRec r m).valid)
def validOverlaps (m : List Host.Cell) : List Nat := (List.range 2048).filter (fun o => (ovRec o m).valid)

/-- Uses of elements that the records make: (element, number, kind) (R81). -/
def usesMade (m : List Host.Cell) : List (Nat × Nat × Nat) :=
  ((validRoutes m).map (fun r =>
    let x := routeRec r m
    (pathOf x m).map (fun q => (q.elem, r, 0)) ++ (flanksOf x m).map (fun q => (q.elem, r, 2))
      ++ (if x.beyond = 0x7FFF then [] else [(x.beyond, r, 3)]) ++ (if x.border = 0x7FFF then [] else [(x.border, r, 3)]))).flatten
    ++ ((validOverlaps m).map (fun o => let x := ovRec o m; (poolList x.first x.len m).map (fun q => (q.elem, o, 1)))).flatten

/-- The index lists exactly the uses that the records make (R81). -/
def indexOk (m : List Host.Cell) : Bool :=
  let u := usesMade m
  (List.range 16384).all (fun e =>
    let h := memNat (0x1004F0000 + 4 * e) 4 m
    bits h 27 5 == 0 && decide (bits h 18 9 ≤ 256) && decide (bits h 0 18 + bits h 18 9 ≤ 196608)
      && (List.range (bits h 18 9)).all (fun i => decide (memNat (0x100580000 + 2 * (bits h 0 18 + i)) 2 m < 2 ^ 14))
      && ((u.filter (fun x => x.1 == e)).map (fun x => x.2)).isPerm (indexOf e m))

/-- The checks of lattice load on the loaded tables (R110, R118). -/
def latticeOk (p role : Nat) (nor lat : List Host.Cell) : Bool :=
  (List.range 16384).all (fun e => confOk e lat)
    && (if role = 2 then (memRead p 0x200000 nor).all (fun b => b == 0#8) && (memRead (p + 0x220000) 0x140000 nor).all (fun b => b == 0#8)
        else matrixOk lat && (List.range 4096).all (fun r => routeFieldsOk r lat) && (List.range 2048).all (fun o => overlapFieldsOk o lat)
          && (validRoutes lat).all (fun r => routeOk r lat) && (validOverlaps lat).all (fun o => overlapOk o lat) && indexOk lat)

/-! ### The whole load (R479 step 9) -/

/-- The load checks of the configuration image at `a` beside the program image at `pa`, but for the schedule: `lat` is the memory with lattice SRAM loaded. -/
def cfgOk (a pa : Nat) (c : Cfg) (m lat : List Host.Cell) : Bool :=
  cfgDirOk a m && moduleOk c && limitsOk a m && ringsOk c
    && latticeOk (secStart a 0x0105 m) c.role m lat
    && pinsOk a c m lat && (List.range (secLen a 0x0108 m / 16)).all (fun i => bindingOk (secStart a 0x0108 m + 16 * i) m lat)
    && secLen a 0x0108 m % 16 == 0 && secLen a 0x0109 m % 12 == 0 && decide (c.readback.length ≤ 512)
    && channelsOk a c m lat && relayOk a c m && tasksOk a pa c m

/-- Bytes of a section are equal in two images. -/
def sameSection (a b ty : Nat) (m : List Host.Cell) : Bool := secBytes a ty m == secBytes b ty m

/-- Cold sections (R456). -/
def coldSections : List Nat := [0x0101, 0x0104, 0x0105, 0x0106, 0x010A, 0x010B, 0x010C, 0x010E]

/-- Two configurations differ in hot parts only: the cold sections, `EPOCH`, the debug permit, lane mode and role are equal (R456). -/
def hotOnly (a b : Nat) (m : List Host.Cell) : Bool :=
  let x := parseCfg a m
  let y := parseCfg b m
  coldSections.all (fun t => sameSection a b t m) && x.epoch == y.epoch && x.debugPermit == y.debugPermit && x.split == y.split && x.role == y.role

end Sys2Proof.Machine
end

