-- ==== Sys2Proof/Machine/Xchg.lean ====
section
/-! DEFINITION. On-line program exchange (R238 to R268): loading, checking, preparation, arming, the window, and the exchange cycle with its commit. -/

namespace Sys2Proof.Machine

/-! ### Refusals and the selector (R238, R267, R466, R468) -/

/-- A refused command that leaves the state as it is (R238). -/
def xchRefuse (reason detail : Nat) (s : State) : State := xchRecord 0x4702 reason detail (xchReason reason detail s)

/-- A refusal from a running stage: back to IDLE (R238). -/
def xchReject (reason detail : Nat) (s : State) : State := xchDiscard (xchRefuse reason detail s)

/-- An image activation is pending (R238, R250). -/
def actPending (s : State) : Bool := s.upd.act == .preparing || s.upd.act == .ready || s.upd.act == .armed || s.upd.act == .rollback

/-- The bank selection with the kinds of `kinds` taken from the banks of `banks`, marked present (R466). -/
def newSel (sel kinds banks : Nat) : Nat :=
  let f := fun (v k : Nat) => if bit kinds (k - 1) then setBits v (k - 1) 1 (bits banks (k - 1) 1) else v
  let v := f (f (f sel 1) 2) 3
  let v := if bit kinds 1 then setBits v 3 1 1 else v
  if bit kinds 2 then setBits v 4 1 1 else v

/-- IMAGE_EVENT for each kind of `kinds`, with its bank and `SEQ` (R476). -/
def eventPerKind (ev kinds method : Nat) (s : State) : State :=
  [1, 2, 3].foldl (fun s k =>
    if bit kinds (k - 1) then
      match selector s with
      | some x => imageEvent ev k (selBank x.sel k) 0 (selSlot x (selBank x.sel k) k).seq 0 method 0 0 s
      | none => s
    else s) s

/-- The selector of an activation: new `SEL`, `PREV` = old `SEL`, `TRIAL`, method; the confirmation window starts (R468, R470, R472). -/
def trialSelect (kinds banks method : Nat) (s : State) : State :=
  match selector s with
  | some x =>
    let s := writeSelector { x with sel := newSel x.sel kinds banks, prev := x.sel, trial := true, method := method, boots := 0 } s
    eventPerKind 6 kinds method { s with upd.act := .trial, upd.method := method, upd.kinds := kinds, upd.confirmAt := nowLin s }
  | none => s

/-- The selector after a committed rollback (R472). -/
def rollbackSelect (s : State) : State :=
  match selector s with
  | some x =>
    let s := writeSelector { x with sel := x.prev, trial := false } s
    eventPerKind 8 s.upd.kinds s.upd.method { s with upd.act := .idle }
  | none => s

/-! ### Loading and checking (R239, R240) -/

/-- Reason for which LOAD is refused; 0 none (R238, R265). -/
def loadReason (s : State) : Nat :=
  if s.xch.st != .idle || resting s then 1
  else if rf 0x070000 0 1 s = 0 then 2
  else if !(s.prg.mode == .normal || s.prg.mode == .free) || s.cfg.split then 3
  else if actPending s then 1
  else 0

/-- The loading stage begins: what the target slot held is lost (R239). -/
def startLoading (bank : Nat) (s : State) : State :=
  let t := 1 - s.vm.activeSlot
  let s := { s with xch.st := .loading, xch.srcBank := bank, xch.target := t }
  if t = 0 then { s with vm.bank0 := bank, vm.valid0 := false, vm.pages0 := [], vm.prog0 := none }
  else { s with vm.bank1 := bank, vm.valid1 := false, vm.pages1 := [], vm.prog1 := none }

/-- LOAD. -/
def xchLoad (bank : Nat) (s : State) : State :=
  if loadReason s = 0 then startLoading bank s else xchRefuse (loadReason s) 0 s

/-- An exchange command as voted goes to the standby through the immediate stream (R264, R56). -/
def xchMirror (value : Nat) (s : State) : State := mirror 4 1 (packFields [(4, 0xF0070004), (4, value)]) s

/-- XCHG_LOAD. -/
def execXchgLoad (dt : Nat) (bankB : Bool) (s : State) : Host.Outcome State Fault Refusal :=
  .next (blockCommand 7 (fun s => xchLoad (b2n bankB) (xchMirror (1 + 16 * b2n bankB) s)) (begin' dt s))

/-- XCHG_LOAD_DONE: the slot and its page check table are built, or the NOR read failed (R238, R239). -/
def execXchgLoadDone (dt : Nat) (norOk : Bool) (s : State) : Host.Outcome State Fault Refusal :=
  let s := begin' dt s
  .next (if s.xch.st == .loading then
    if norOk then
      setRv 0x070044 (hSeq (imgHeader (slotAddr s.xch.srcBank 3) s.mem)) (loadCode s.xch.target s.xch.srcBank { s with xch.st := .checking })
    else xchReject 4 0 s
  else s)

/-- The configuration that the new program will run with: the new one where a handover takes it along (R469). -/
def xchCfg (s : State) : Cfg :=
  match selector s with
  | some x => if s.xch.forActivation && bit s.upd.kinds 1 then parseCfg (slotAddr (1 - selBank x.sel 2) 2) s.mem else s.cfg
  | none => s.cfg

/-- The program image in the target slot. -/
def targetProg (s : State) : Option ProgImage := if s.xch.target = 0 then s.vm.prog0 else s.vm.prog1

/-! ### Matching (R244 to R248, R262, R266) -/

/-- The running directory. -/
def runningInsts (s : State) : List InstEntry := match activeProg s with | some p => p.insts | none => []

/-- Conversion entries: of the new image, in a rollback of the image being left (R244, R266). -/
def conversions (new : ProgImage) (s : State) : List ConvEntry :=
  if s.upd.act == .rollback then (match activeProg s with | some p => p.convs | none => []) else new.convs

/-- How an instance of the new directory is treated (R244). -/
inductive InstKind where
  | remapped (old : InstEntry)
  | converted (old : InstEntry) (e : ConvEntry)
  | retyped
  | fresh

/-- Match one instance by `PATH_HASH` (R244). -/
def matchInst (old : List InstEntry) (convs : List ConvEntry) (i : InstEntry) : InstKind :=
  match old.find? (fun o => o.path == i.path) with
  | none => .fresh
  | some o =>
    if o.ty = i.ty then .remapped o
    else match convs.find? (fun c => c.oldTy == o.ty && c.newTy == i.ty) with
      | some c => .converted o c
      | none => .retyped

/-- Granules of an instance (R242, R243). -/
def granules (i : InstEntry) : Nat := (8 * i.slots + 63) / 64

/-- Physical granule of a logical one under a map. -/
def physOf (map : List (Nat × Nat)) (g : Nat) : Nat := match assocGet g map with | some p => p | none => g

/-- Physical granules that a directory uses under a map (R243). -/
def usedGranules (map : List (Nat × Nat)) (l : List InstEntry) : List Nat :=
  (l.map (fun i => (List.range (granules i)).map (fun k => physOf map (i.off / 64 + k)))).flatten

/-- The free pool (R243). -/
def freePool (s : State) : List Nat :=
  let used := usedGranules s.vm.mapActive (runningInsts s)
  (List.range (s.cfg.instSize / 64)).filter (fun g => !(used.contains g))

/-- Enter `n` granules of an instance at `off` in a map: from the old place where it is remapped, else from the pool. -/
def mapInst (act : List (Nat × Nat)) (i : InstEntry) (k : InstKind) (m : List (Nat × Nat) × List Nat) : List (Nat × Nat) × List Nat :=
  (List.range (granules i)).foldl (fun m j =>
    match k with
    | .remapped o => (assocSet (i.off / 64 + j) (physOf act (o.off / 64 + j)) m.1, m.2)
    | _ => match m.2 with
      | p :: t => (assocSet (i.off / 64 + j) p m.1, t)
      | [] => m) m

/-- The prepared map (R243, R247). -/
def preparedMap (new : List (InstEntry × InstKind)) (s : State) : List (Nat × Nat) :=
  (new.foldl (fun m x => mapInst s.vm.mapActive x.1 x.2 m) ([], freePool s)).1

/-- The new directory with its kinds. -/
def matched (p : ProgImage) (s : State) : List (InstEntry × InstKind) :=
  p.insts.map (fun i => (i, matchInst (runningInsts s) (conversions p s) i))

/-- Directory indices of the instances whose kind `f` selects. -/
def kindIdx (f : InstKind → Bool) (l : List (InstEntry × InstKind)) : List Nat :=
  ((l.zipIdx).filter (fun x => f x.1.2)).map (fun x => x.2)

/-- The kinds. -/
def InstKind.isRemapped : InstKind → Bool | .remapped _ => true | _ => false
def InstKind.isRetyped : InstKind → Bool | .retyped => true | _ => false
def InstKind.isFresh : InstKind → Bool | .fresh => true | _ => false
def InstKind.needsRoom : InstKind → Bool | .remapped _ => false | _ => true

/-- The converted instances with their old granules, all clean (R244, R248). -/
def convWork (act : List (Nat × Nat)) (l : List (InstEntry × InstKind)) : List ConvWork :=
  l.filterMap (fun x => match x.2 with
    | .converted o c =>
      some { path := x.1.path, oldOff := o.off, newOff := x.1.off, slots := x.1.slots, entry := c, old := (List.range (granules o)).map (fun k => physOf act (o.off / 64 + k)) }
    | _ => none)

/-- An instance is dirty when any of its bits is set (R248). -/
def isDirty (w : ConvWork) : Bool := !w.dirty.isEmpty

/-- Preparation begins for the image in the target slot: matching, and write tracking of every instance that will be converted (R238, R244, R247, R248). -/
def startPreparing (s : State) : State :=
  let s := setRf 0x070010 16 7 0 { s with xch.st := .preparing, xch.image := targetProg s }
  match s.xch.image with
  | some p => { s with xch.work := convWork s.vm.mapActive (matched p s), xch.tracking := true }
  | none => s

/-- XCHG_CHECK_DONE (R240). -/
def execXchgCheckDone (dt : Nat) (s : State) : Host.Outcome State Fault Refusal :=
  let s := begin' dt s
  .next (if s.xch.st == .checking then
    let r := progReason s.xch.srcBank (xchCfg s) s
    if r.1 = 0 then startPreparing s else xchReject r.1 r.2 s
  else s)

/-- Indices in the running directory of dropped instances (R244). -/
def droppedIdx (p : ProgImage) (s : State) : List Nat :=
  (((runningInsts s).zipIdx).filter (fun x => !(p.insts.any (fun i => i.path == x.1.path)))).map (fun x => x.2)

/-- Global slots whose type changes (R245). -/
def globalsReset (p : ProgImage) (s : State) : List Nat :=
  let old := match activeProg s with | some q => q.globals | none => []
  (List.range p.globals.length).filter (fun i =>
    match old[i]? with
    | some o => o.1 != (p.globals.getD i (0, 0)).1
    | none => true)

/-- Reason of R246 for which preparation refuses; 0 none. -/
def prepReason (work : List ConvWork) (l : List (InstEntry × InstKind)) (s : State) : Nat :=
  let need := (l.filter (fun x => x.2.needsRoom)).foldl (fun n x => n + granules x.1) 0
  if 0x400000 < work.foldl (fun n w => n + 8 * w.slots) 0 then 8
  else if 160000 < work.foldl (fun n w => n + w.entry.convUs100) 0 then 7
  else if (freePool s).length < need then 9
  else 0

/-! ### Arming (R250 to R253) -/

/-- The block that writes an output point, with the hashes that R251 compares. -/
def writerOf (point : Nat) (p : ProgImage) : Option (Nat × Option Nat) :=
  match assocGet point p.writers with
  | some b => if b = 0xFFFF then none else some ((p.blocks.getD b {}).hash, (p.insts.find? (fun i => i.block == b)).map (fun i => i.ty))
  | none => none

/-- Lowest forced output point whose writer changes (R251). -/
def forcedWriter (old new : ProgImage) (s : State) : Option Nat :=
  (List.range 8192).find? (fun n => (forceOn true n s).isSome && decide (writerOf n old ≠ writerOf n new))

/-- Drain bound in µs (R252). -/
def drainBound (s : State) : Nat :=
  if s.prg.mode == .free then 1000 * s.cfg.tasks.freeLimit
  else
    let bank := if s.vm.activeSlot = 0 then s.vm.bank0 else s.vm.bank1
    let prog := match activeProg s with | some p => p | none => {}
    let us := cycleUs s
    (responses s.cfg.tasks us (fun e => taskStall (slotAddr bank 3) e.root prog s.cfg s.mem)).foldl (fun n x =>
      match x.2 with
      | some r => max n (if 16 ≤ x.1.id then r / 1000 else r / 1000 - us)
      | none => n) 0

/-- The cycle count that ARM takes (R250). -/
def armTarget (s : State) : Nat := rv 0x070008 s + rf 0x07000C 0 8 s * 2 ^ 32

/-- A boundary that ARM may take (R250). -/
def boundaryOk (target : Nat) (s : State) : Bool := target % 1000 == 0 && decide (s.clk.cycle + 2 ≤ target)

/-- Reason and detail for which ARM is refused (R250, R251). -/
def armReason (target : Nat) (act : Bool) (s : State) : Nat × Nat :=
  if s.xch.st != .ready then (0x0A, 0)
  else if !(boundaryOk target s) then (0x0B, 0)
  else if !act && actPending s then (1, 0)
  else match activeProg s, s.xch.image with
    | some o, some n => (match forcedWriter o n s with | some p => (0x0C, p) | none => (0, 0))
    | _, _ => (0, 0)

/-- ARM for a boundary. -/
def xchArm (target : Nat) (act : Bool) (s : State) : State :=
  let r := armReason target act s
  if r.1 = 0 then setRf 0x070038 0 24 (drainBound s) { s with xch.st := .armed, xch.skipped := 0 } else xchRefuse r.1 r.2 s

/-- XCHG_ARM. -/
def execXchgArm (dt : Nat) (s : State) : Host.Outcome State Fault Refusal :=
  .next (blockCommand 7 (fun s => let s := xchMirror 2 s; xchArm (armTarget s) false s) (begin' dt s))

/-- An abort: the old program goes on at once; what the window withheld follows at the next boundary (R238, R253, R258). -/
def xchStop (reason detail : Nat) (s : State) : State :=
  let t := xchAbort reason detail s
  if s.xch.window && s.xch.st != .committed then { t with xch.after := s.xch.withheld, xch.afterTrig := s.xch.heldTrig } else t

/-- DISARM (R253). -/
def xchDisarm (s : State) : State :=
  match s.xch.st with
  | .loading | .checking | .preparing | .ready | .armed | .draining => xchStop 0x10 0 s
  | _ => s

/-- XCHG_DISARM. -/
def execXchgDisarm (dt : Nat) (s : State) : Host.Outcome State Fault Refusal :=
  .next (blockCommand 7 (fun s => xchDisarm (xchMirror 3 s)) (begin' dt s))

/-! ### The window (R254, R255, R259) -/

/-- Boundary for which the exchange is armed: of XCHG_ARM, or of UPD_ARM where it is part of an activation (R250, R469). -/
def xchTarget (s : State) : Nat := if s.xch.forActivation then s.upd.target else armTarget s

/-- The commanded boundary has been reached. -/
def windowDue (s : State) : Bool := s.xch.st == .armed && decide (xchTarget s ≤ s.clk.cycle)

/-- The window opens; the active member of a pair sends the commit mark (R254, R264). -/
def openWindow (s : State) : State :=
  let s := mirror 0x13 1 (leBytes 8 s.clk.cycle) s
  { s with xch.st := .draining, xch.window := true, xch.windowAt := cycleLin s.clk.cycle, xch.exemptMajor := some s.clk.cycle, xch.withheld := [] }

/-- XCHG_WINDOW. -/
def execXchgWindow (dt : Nat) (s : State) : Host.Outcome State Fault Refusal :=
  let s := begin' dt s
  .next (if lanesRun s && windowDue s then openWindow s else s)

/-! ### What the window held (R253, R258, R259) -/

/-- A held trigger is released, its deadline counted from that moment: the instant at which the lanes resume, or the boundary after an abort (R258, R259). -/
def resumeTrigger (s : State) (x : Nat × Nat × Nat) : State :=
  match taskEntry x.1 false s with
  | some e =>
    let s := trigger x.1 false x.2.1 x.2.2 s
    let t := taskState x.1 false s
    let at' := max (nowLin s) s.xch.resumeAt
    let free := match t.lastRelease with | some r => decide (lin r + cycleLin e.period ≤ at') | none => true
    if free && !(taskActive x.1 false s) && t.heldTrig.isSome then
      let h := match t.heldTrig with | some h => h | none => (0, 0)
      release e false h.1 h.2 t.trigCount (some (at' + cycleLin e.period)) s
    else s
  | none => s

/-- First instant after this cycle's boundary at which a cyclic task is due. -/
def nextDue (e : TaskEntry) (s : State) : Nat := cycleLin (s.clk.cycle + 1 + (e.phase + e.period - (s.clk.cycle + 1) % e.period) % e.period)

/-- A cyclic release that an aborted window withheld: made now, unless the task has been released at this boundary in any case (R253, R258). -/
def followRelease (s : State) (x : Nat × Bool) : State :=
  match taskEntry x.1 x.2 s with
  | some e => if taskActive x.1 x.2 s || e.period == 0 then s else release e x.2 0 0 0 (some (nextDue e s)) s
  | none => s

/-- At the boundary after an abort the withheld releases and triggers follow (R253, R258). -/
def followAbort (s : State) : State :=
  let s := if inNormal s then s.xch.afterTrig.foldl resumeTrigger (s.xch.after.foldl followRelease s) else s
  { s with xch.after := [], xch.afterTrig := [] }

end Sys2Proof.Machine
end

