-- ==== Sys2Proof/Machine/Power.lean ====
section
/-! DEFINITION. Power-up, reset, controlled shutdown and the limits that end in one (R415, R437, R439, R440, R467, R478 to R492, R500). -/

namespace Sys2Proof.Machine

/-! ### Reset (R415, R500) -/

/-- What a reset other than a power-off leaves of the triad: a retirement with its degraded limit (R187, R188). -/
def keptTriad (t : Triad) : Triad :=
  let keep (x : Lane) : Lane := if x.st == .retired then { st := .retired } else {}
  { a := keep t.a, b := keep t.b, c := keep t.c, retired := t.retired, causes := t.causes, retireAt := t.retireAt, limitH := t.limitH, noticed := t.noticed }

/-- A reset: everything at its reset value but what outlives it: NOR, the event store, the candle domain, the levels at the pins, and the queue; and what only power-off ends: a retirement, the bar of R29 and R437, and `DEBUG_BROKE`, which the release of NRST clears too (R187, R188, R215). -/
def hardReset (s : State) : State :=
  { pending := s.pending, sent := s.sent, free := s.free
    cand := { s.cand with framProt := false, shHi := 0, shSub := 0, sdResult := 0, autoOk := false, bootStep := 1, bootFail := 0 }
    mem := memSlice 0x200000000 0x208000000 s.mem
    evr := { j := s.evr.j, d := s.evr.d }
    fio := { pins := s.fio.pins.map (fun p => { raw := p.raw }) }
    tri := keptTriad s.tri
    dbg := { broke := s.dbg.broke }
    pwr := { phase := s.pwr.phase, nrst := s.pwr.nrst, wake := s.pwr.wake, limitBar := s.pwr.limitBar } }

/-- NRST_LOW: shorter than 1 µs is ignored, otherwise the module resets at once (R415). -/
def execNrstLow (dt ns : Nat) (s : State) : Host.Outcome State Fault Refusal :=
  let s := begin' dt s
  .next (if ns < 1000 ∨ s.pwr.phase = .off then s
    else
      let s := hardReset s
      { s with pwr.phase := .inReset, pwr.nrst := false, pwr.wake := 2 })

/-- Power-off: the reset that leaves nothing barred, retired or broken (R29, R187, R215, R487). -/
def powerOff (s : State) : State :=
  let s := hardReset s
  { s with tri := {}, dbg := {}, pwr.phase := .off, pwr.wake := 1, pwr.limitBar := false }

/-- VIN_LOSS: below 10.0 V nothing runs (R487, R488). -/
def execVinLoss (dt : Nat) (s : State) : Host.Outcome State Fault Refusal :=
  .next (powerOff (begin' dt s))

/-! ### The candle check (R414, R481, R490) -/

/-- The shutdown record that counts (R490). -/
def sdRecord (s : State) : Option SdRec :=
  if s.cand.framErr then none else
  match s.cand.sd.c0, s.cand.sd.c1 with
  | some a, some b => some (if a.sdSeq < b.sdSeq then b else a)
  | some a, none => some a
  | none, b => b

/-- Write a shutdown record copy in turn (R490). -/
def writeSd (x : SdRec) (s : State) : State :=
  if s.cand.framErr || s.cand.framProt then s
  else
    let n := { x with sdSeq := (match sdRecord s with | some y => y.sdSeq + 1 | none => 1) }
    match s.cand.sd.c0, s.cand.sd.c1 with
    | none, _ => { s with cand.sd.c0 := some n }
    | some _, none => { s with cand.sd.c1 := some n }
    | some a, some b => if a.sdSeq < b.sdSeq then { s with cand.sd.c0 := some n } else { s with cand.sd.c1 := some n }

/-- The station-time anchor that counts (R319). -/
def anchorRec (s : State) : Option Anchor :=
  if s.cand.framErr then none else
  match s.cand.anchor.c0, s.cand.anchor.c1 with
  | some a, some b => some (if a.ancSeq < b.ancSeq then b else a)
  | some a, none => some a
  | none, b => b

/-- Write the station-time anchor, of integrated time only (R319, R487, R491). -/
def writeAnchor (kind : Nat) (s : State) : State :=
  if s.clk.prov || s.cand.framErr || s.cand.framProt then s
  else
    let n : Anchor := { ancSeq := (match anchorRec s with | some y => y.ancSeq + 1 | none => 1), epoch := s.cfg.epoch, kind := kind, stamp := now s }
    match s.cand.anchor.c0, s.cand.anchor.c1 with
    | none, _ => { s with cand.anchor.c0 := some n }
    | some _, none => { s with cand.anchor.c1 := some n }
    | some a, some b => if a.ancSeq < b.ancSeq then { s with cand.anchor.c0 := some n } else { s with cand.anchor.c1 := some n }

/-- Finding about a two-copy record: 2 one copy invalid, 3 both (R540). -/
def copyFinding {α : Type} (rec' : Nat) (c : Copies α) : List (Nat × Nat) :=
  match c.c0.isSome, c.c1.isSome with
  | true, true => []
  | false, false => [(3, rec')]
  | _, _ => [(2, rec')]

/-- The findings of the candle check: (finding, record) (R481, R540). -/
def candleFindings (p : PowerUpIn) (s : State) : List (Nat × Nat) :=
  (if p.vbakMv < 2000 ∨ s.cand.rtcLost then [(1, 0)] else [])
    ++ (if p.framOk then
          copyFinding 1 s.cand.sel ++ copyFinding 2 s.cand.sd ++ copyFinding 3 s.cand.anchor ++ copyFinding 4 s.cand.session
            ++ (if s.cand.light.isEmpty then [(3, 5)] else []) ++ copyFinding 6 s.cand.stat
        else [(4, 0)])

/-- CANDLE records of the findings (R540). -/
def candleRecords (l : List (Nat × Nat)) (s : State) : State := l.foldl (fun s f => nvEvent 0x11 0x000E (f.1 + 256 * f.2) 0 s) s

/-- VBAK, RTC and FRAM as step 2 finds them; civil time starts (R328, R349, R442, R481). -/
def candleState (p : PowerUpIn) (s : State) : State :=
  let s := vbakTake p.vbakMv { s with cand.framErr := !p.framOk }
  let ok := decide (2000 ≤ p.vbakMv) && !s.cand.rtcLost
  let lost := !p.framOk || (s.cand.session.c0.isNone && s.cand.session.c1.isNone)
  let s := if p.framOk && (s.cand.sel.c0.isNone != s.cand.sel.c1.isNone) then setRf 0x110004 3 1 1 s else s
  { s with
    civ.rtcValid := ok
    civ.ns := if ok then s.cand.rtcSec * 1000000000 + s.cand.rtcSub * 1000000000 / 32768 else 0
    tel.sessionLost := lost
    sta.lost := !p.framOk || (s.cand.stat.c0.isNone && s.cand.stat.c1.isNone)
    sta.cycleDue := true }

/-- The shutdown record found, which the check consumes (R414, R481). -/
def consumeSd (s : State) : State :=
  match sdRecord s with
  | some x => writeSd { x with result := 3 } { s with cand.sdResult := x.result }
  | none => { s with cand.sdResult := 0 }

/-- R414, but for the permit of the configuration: `x` is the record found, `cfgSeq` the selected configuration's sequence. -/
def autoConditions (x : Option SdRec) (cfgSeq wake : Nat) : Bool :=
  match x with
  | some x => x.result == 2 && x.cause == 1 && x.mode == 2 && x.lit == 7 && x.grpCut == 0 && x.halted == 0 && x.cfgSeq == cfgSeq && wake != 2
  | none => false

/-! ### The recorder at power-up (R424, R430, R439) -/

/-- Highest sequence in the store. -/
def storeHighest (s : State) : Nat := (committed false s ++ committed true s).foldl (fun m r => if m = 0 || seqLt m r.seq then r.seq else m) 0

/-- POWER_UP slot and record; sequences go on from the newest slot's bound (R439). -/
def recorderStart (sdFound : Nat) (s : State) : State :=
  let slot := newestSlot s
  let first := match slot with | some x => x.bound | none => (storeHighest s + 2 ^ 20) % 2 ^ 32
  let last := match slot with | some x => x.lastSeq | none => storeHighest s
  let lost := match slot with
    | some x => if x.kind = 1 ∧ sdFound ≠ 2 then 0xFFFFFFFF else x.stagedLost
    | none => 0xFFFFFFFF
  let s := { s with evr.seqNext := first, evr.seqCommit := last, evr.commitT := match slot with | some x => x.lastT | none => 0 }
  let s := writeLight 4 0 0xFFFFFFFF ((first + 2 ^ 20) % 2 ^ 32) s
  let s := { s with evr.bound := (first + 2 ^ 20) % 2 ^ 32 }
  emit 0x4001 [(1, match slot with | some x => x.kind | none => 0), (4, last), (4, first), (4, lost)] s

/-! ### Bank selection and image checks (R467, R479) -/

/-- The header is that of the delivered firmware, most of whose bytes the spec does not give (R13). -/
def factoryImage (a : Nat) (m : List Host.Cell) : Bool := memSlice a (a + 256) m == factoryFirmware

/-- A selected slot passes header check and signature verification (R479 steps 7 and 8). -/
def bootSlotOk (norOk : Bool) (x : Selector) (k : Nat) (s : State) : Bool :=
  let a := slotAddr (selBank x.sel k) k
  if k = 1 && factoryImage a s.mem then (selSlot x (selBank x.sel 1) 1).st == 3
  else headerReason (imgHeader a s.mem) (fwSeq s) s == 0 && hKind (imgHeader a s.mem) == k && verifyReason a s.mem s == 0 && (k != 3 || norOk)

/-- Every selected slot passes. -/
def selectionOk (norOk : Bool) (s : State) : Bool :=
  match selector s with
  | some x => bootSlotOk norOk x 1 s && (!(bit x.sel 3) || bootSlotOk norOk x 2 s) && (!(bit x.sel 4) || bootSlotOk norOk x 3 s)
  | none => false

/-- The TRIAL count, which comes before the code load of step 4; the third boot goes back to `PREV` (R467, R479). -/
def trialCount (s : State) : State :=
  match selector s with
  | some x =>
    if x.trial then
      if 3 ≤ x.boots + 1 then imageEvent 8 0 0 0 0 0 x.method 0 0 (writeSelector { x with sel := x.prev, trial := false, boots := x.boots + 1 } s)
      else writeSelector { x with boots := x.boots + 1 } s
    else s
  | none => s

/-- The code slot is loaded from the bank of the program that the selector names; a NOR read error leaves it as it was (R220, R479). -/
def loadSlot (norOk : Bool) (s : State) : State :=
  match selector s with
  | some x => if bit x.sel 4 && norOk then loadCode 0 (selBank x.sel 3) { s with vm.activeSlot := 0 } else s
  | none => s

/-- Steps 6 to 8: a failing selection falls back to `PREV`, whose code slot is loaded and whose slots are checked once; false where the images fail (R467, R479). -/
def bankSelection (p : PowerUpIn) (s : State) : Bool × State :=
  match selector s with
  | some x =>
    if selectionOk p.norOk s then (true, s)
    else if x.trial || x.prevValid then
      let s := loadSlot p.norAgain (imageEvent 9 0 0 0 0 0 x.method 0 0 (writeSelector { x with sel := x.prev, trial := false, prevValid := false } s))
      (selectionOk p.norAgain s, s)
    else (false, s)
  | none => (false, s)

/-- Lane mode of the selected configuration (R204). -/
def selectedSplit (s : State) : Bool :=
  match selector s with
  | some x => bit x.sel 3 && hLane (imgHeader (slotAddr (selBank x.sel 2) 2) s.mem) == 1
  | none => false

/-! ### Load and start (R118, R326, R349, R467, R479) -/

/-- Load failed at a step: start-up stops, or in TRIAL returns to `PREV` once (R482). -/
def bootStop (step fail : Nat) (s : State) : State :=
  { s with pwr.phase := .stopped, cand.bootStep := step, cand.bootFail := fail, tri.a := laneReset s.tri.a, tri.b := laneReset s.tri.b, tri.c := laneReset s.tri.c }

/-- No configuration runs: safe state, images on Ethernet only (R14). -/
def bootNoConfig (s : State) : State := { s with pwr.phase := .noConfig, cand.bootStep := 8 }

/-- A lane passes into service. -/
def lightLane (l : LaneId) (s : State) : State := loadDelays l (laneTo l .lit s)

/-- New channel keys at the first trial boot of a configuration: the session copies start at 0 again (R349). -/
def newSessions (c : Cfg) (s : State) : State :=
  match selector s with
  | some x =>
    let old := parseCfg (slotAddr (selBank x.prev 2) 2) s.mem
    if x.trial && x.boots == 1 && selBank x.sel 2 != selBank x.prev 2 && bit x.prev 3 && !(sessionsOk s) && c.keyHash.drop 8 != old.keyHash.drop 8 then
      { s with cand.session := { c0 := some (0, 0), c1 := some (0, 0) }, tel.sessionLost := false }
    else s
  | none => s

/-- The configuration takes effect, and the lattice is loaded from its LATTICE section at `p` (R118, R326, R479). -/
def takeCfg (c : Cfg) (p : Nat) (s : State) : State :=
  let s := { s with mem := loadLattice p s.mem s.mem }
  let s := { s with cfg := c, prg.cps := c.tasks.cps, prg.cpNext := c.tasks.cps, lnk.pair := if c.partner.isSome then .active else .none }
  let s := setRf 0x090004 0 30 c.civilJump s
  let s := { s with civ.anchorValid := match anchorRec s with | some a => a.epoch == c.epoch | none => false }
  newSessions c s

/-- The program of the selection, whose code slot step 4 or step 6 has loaded, where it is present (R229, R240, R460). -/
def takeProg (x : Selector) (s : State) : State :=
  if bit x.sel 4 then
    match s.vm.prog0 with
    | some p => initInstances p (setRv 0x070040 p.seq s)
    | none => s
  else s

/-- The confirmation window of a trial boot (R471, R472). -/
def trialState (x : Selector) (s : State) : State :=
  if x.trial then { s with upd.act := .trial, upd.method := x.method, upd.kinds := Nat.xor x.sel x.prev % 8, upd.confirmAt := nowLin s } else s

/-- Step 10: FREE, cause START, with a first ember generation of every unit (R25, R146). -/
def startFree (x : Selector) (s : State) : State :=
  let s := embers { freezeInputs s with pwr.phase := .running, cand.bootStep := 10 }
  let s := enterFree .start s
  if bit x.sel 4 then s else { s with prg.active := [] }

/-- Step 9 with the selected images; false where a load check fails (R479). -/
def loadStage (sd : Option SdRec) (wake : Nat) (x : Selector) (s : State) : Bool × State :=
  let a := slotAddr (selBank x.sel 2) 2
  let pa := slotAddr (selBank x.sel 3) 3
  let c := parseCfg a s.mem
  let lat := loadLattice (secStart a 0x0105 s.mem) s.mem s.mem
  if !(cfgDirOk a s.mem) then (false, s)
  else match schedOf a c s.mem with
    | some f => (false, emit 0x4801 [(1, f.1), (2, f.2)] s)
    | none =>
      if !(cfgOk a pa c s.mem lat) ∨ (bit x.sel 4 = true ∧ (progReason (selBank x.sel 3) c { s with cfg := c }).1 ≠ 0) then (false, s)
      else
        let s := takeProg x (takeCfg c (secStart a 0x0105 s.mem) s)
        (true, { trialState x s with cand.autoOk := autoConditions sd c.seq wake && c.autoStart })

/-- Steps 3 to 10 with the present selector; the second member says which step failed: (step, cause) (R479, R482). A retired lane cannot pass its self-test (R187, R191). -/
def bootSteps (p : PowerUpIn) (sd : Option SdRec) (wake : Nat) (s : State) : State × Option (Nat × Nat) :=
  let early := selectedSplit s
  if !(p.lbistA && p.lbistB && (p.lbistC || early) && p.lbistUnits && s.tri.retired.isNone) then (s, some (3, 1))
  else if !p.ramOk then (s, some (4, 2))
  else
    let s := loadSlot p.norOk (trialCount s)
    let missed := injMisses (List.range 24) p.injMissed.toNat
    let s := if early then s else injResult (List.range 24) missed s
    if !early && (missed != 0 || !p.walkOk) then (faultRecord .startupInjection 0 0 0 s, some (5, 3))
    else
      let (imagesOk, s) := bankSelection p s
      let split := selectedSplit s
      if early && !split && !p.lbistC then (s, some (3, 1))
      else
        let s := if early && !split then injResult (List.range 24) missed s else s
        if early && !split && (missed != 0 || !p.walkOk) then (faultRecord .startupInjection 0 0 0 s, some (5, 3))
        else
          let s := lightLane .a (lightLane .b s)
          let s := if split then laneTo .c .off s else lightLane .c s
          match selector s with
          | none => (bootNoConfig s, none)
          | some x =>
            if imagesOk = false ∨ bit x.sel 3 = false then (bootNoConfig s, none)
            else match loadStage sd wake x s with
              | (true, t) => (startFree x t, none)
              | (false, t) => (t, some (9, 5))

/-- A failed step stops start-up; in TRIAL the selector first returns to `PREV`, and the sequence starts again (R482). -/
def bootSequence (p : PowerUpIn) (sd : Option SdRec) (wake : Nat) (s : State) : State :=
  match bootSteps p sd wake s with
  | (t, none) => t
  | (t, some f) =>
    match selector t with
    | some x =>
      if x.trial then
        let t := imageEvent 8 0 0 0x28 0 0 x.method 0 0 (writeSelector { x with sel := x.prev, trial := false } t)
        match bootSteps p none 4 { t with cand.cause := 4 } with
        | (u, none) => u
        | (u, some g) => bootStop g.1 g.2 u
      else bootStop f.1 f.2 t
    | none => bootStop f.1 f.2 t

/-- POWER_UP (R478 to R482). -/
def powerUp (p : PowerUpIn) (s : State) : State :=
  let wake := if s.pwr.phase = .done then 5 else s.pwr.wake
  let s := hardReset s
  let s := { s with
    pwr.phase := .inReset, pwr.nrst := true, pwr.strap := p.strap, cand.cause := wake, clk.up := p.periods, sta.opFrom := 0
    dbg.broke := s.dbg.broke && wake != 2 }
  let found := candleFindings p s
  let s := candleState p s
  let sd := sdRecord s
  let s := consumeSd s
  let s := setRf 0x110004 0 1 (b2n s.civ.rtcValid) s
  let s := recorderStart s.cand.sdResult s
  let s := candleRecords found s
  let s := if s.sta.lost then emit 0x5101 [(1, 3)] s else s
  bootSequence p sd wake s

/-- POWER_UP. -/
def execPowerUp (dt : Nat) (p : PowerUpIn) (s : State) : Host.Outcome State Fault Refusal :=
  let s := begin' dt s
  .next (match s.pwr.phase with
    | .off => powerUp p s
    | .inReset => powerUp p s
    | .done => powerUp p s
    | _ => s)

/-! ### Controlled shutdown (R440, R484, R486, R487) -/

/-- Lit lanes, bit 0 lane A (R490). -/
def litMask (s : State) : Nat := b2n (s.tri.a.st == .lit) + 2 * b2n (s.tri.b.st == .lit) + 4 * b2n (s.tri.c.st == .lit)

/-- Latched group cuts (R490). -/
def cutMask (s : State) : Nat := (List.range 4).foldl (fun m g => m + 2 ^ g * b2n ((sgroup g s).cut || (fgroup g s).cut)) 0

/-- The shutdown record of this shutdown (R490). -/
def sdOf (cause : Nat) (s : State) : SdRec :=
  { result := 1, cause := cause, mode := modeCode s.prg.mode, lit := litMask s, grpCut := cutMask s, halted := b2n s.pwr.haltedSince, cfgSeq := s.cfg.seq, tWarn := now s }

/-- t = 0: lanes halt, the feed stops, every pin off, sealing stops, uncommitted exchange work is discarded, the safe-state mark goes out (R484, R487). -/
def shutdownStart (cause : Nat) (s : State) : State :=
  let s := if s.lnk.pair == .active then mirror 0x11 1 (leBytes 4 cause) s else s
  let s := endAllPosts (pinsOff allPins s)
  let s := if s.xch.st == .idle || s.xch.st == .committed then s else xchDiscard s
  { s with prg.active := [], upd.act := if s.upd.act == .trial then .trial else .idle }

/-- Ingest everything that waits (R424). -/
def ingestAll : Nat → State → State
  | 0, s => s
  | n + 1, s => if s.evr.queue.isEmpty then s else ingestAll n (ingest s)

/-- Open record closed, SHUTDOWN ingested (R427, R440). -/
def shutdownRecord (cause mode : Nat) (s : State) : State :=
  let s := if s.evr.st == .frozen then freezeEnd 3 s else s
  let s := emit 0x4002 [(1, cause), (1, mode)] s
  closeOpen (ingestAll 1025 (closeOpen s))

/-- Both paths of every group open (R403, R484). -/
def shutdownCut (s : State) : State := openAll (recordCut (closedMask s) 6 s)

/-- Staging is committed where the store runs (R440). -/
def shutdownCommit (s : State) : State := if s.evr.st == .running then commitAll s.evr.staging.length s else s

/-- One step of the sequence, carried out where its bound `t` lies within `us`. -/
def sdStep (us t : Nat) (f : State → State) (s : State) : State := if t ≤ us then f s else s

/-- The sequence of R484 as far as `us` microseconds carry it, each step at its bound. -/
def shutdownSteps (cause us : Nat) (s : State) : State :=
  let sd := sdOf cause s
  let s := shutdownStart cause s
  let s := sdStep us 10 (writeSd sd) s
  let s := sdStep us 30 (writeAnchor 2) s
  let s := sdStep us 100 (shutdownRecord cause sd.mode) s
  let s := sdStep us 125 (fun s => if s.civ.st == .locked then rtcWrite s else s) s
  let s := sdStep us 300 shutdownCut s
  let s := sdStep us 2100 shutdownCommit s
  let s := sdStep us 2200 (fun s => writeLight 1 0 (s.evr.staging.length + s.evr.queue.length) s.evr.seqNext s) s
  let s := sdStep us 3400 writeStat s
  sdStep us 3500 (fun s => writeSd { sd with result := 2, halted := b2n s.pwr.haltedSince, tDone := now s } s) s

/-- A module that can shut down: it has started, and no shutdown is under way (R487). -/
def canShut (s : State) : Bool :=
  match s.pwr.phase with
  | .running | .stopped | .noConfig | .expired => true
  | _ => false

/-- POWER_FAIL_WARNING: two samples below 13.5 V begin the shutdown; VIN stays at or above 10.0 V for `holdUs` (R483 to R485). -/
def execPowerFailWarning (dt mv1 mv2 holdUs : Nat) (s : State) : Host.Outcome State Fault Refusal :=
  let s := begin' dt s
  .next (if canShut s && decide (mv1 < 13500) && decide (mv2 < 13500) then
      let s := shutdownSteps 1 holdUs (stat 0x1D0 1 s)
      if 3600 ≤ holdUs then { s with pwr.phase := .done, cand.framProt := true } else { s with pwr.phase := .shutdown }
    else s)

/-- A shutdown after which the module stays powered in the safe state, with edges barred (R29, R437, R486). -/
def expire (cause : Nat) (s : State) : State :=
  let s := shutdownSteps cause 3500 (forcesHalt (xchAbort 0x14 0 s))
  let s := setMode .halted s.prg.cause s
  { s with
    pwr.phase := .expired, pwr.limitBar := true, snu.barred := true, snu.edgeStored := false,
    prg.releaseHeld := false, prg.reqNormal := false, prg.reqTest := false,
    lnk.pair := if isStandby s || s.lnk.pair == .active then .unsynced else s.lnk.pair }

/-- DEGRADED_EXPIRED at the first major-cycle boundary at or after the expiry (R188, R190). -/
def execDegradedExpired (dt : Nat) (s : State) : Host.Outcome State Fault Refusal :=
  let s := begin' dt s
  .next (if s.pwr.phase == .running && s.tri.retired.isSome && decide (degradedEnd s ≤ cycleLin s.clk.cycle) && s.clk.cycle % 1000 == 0 then
      expire 3 (degradedRecord 0x4105 s)
    else s)

/-- RECORDER_EXPIRED at the first major-cycle boundary at or after the expiry (R437). -/
def execRecorderExpired (dt : Nat) (s : State) : Host.Outcome State Fault Refusal :=
  let s := begin' dt s
  .next (if s.pwr.phase == .running && s.evr.st == .down && s.cfg.recShutdown
        && decide (s.evr.downAt + secLin s (3600 * s.cfg.recFailH) ≤ cycleLin s.clk.cycle) && s.clk.cycle % 1000 == 0 then
      expire 4 (emit 0x4F08 [(2, sinceUs s s.evr.downAt / 3600000000)] s)
    else s)

end Sys2Proof.Machine
end

