-- ==== Sys2Proof/Machine/Update.lean ====
section
/-! DEFINITION. The taper relay, downloads and activations (R461 to R477). -/

namespace Sys2Proof.Machine

/-! ### Relay messages (R461, R462) -/

/-- Relay message types. -/
def mtOffer : Nat := 1
def mtData : Nat := 2
def mtGood : Nat := 3
def mtBad : Nat := 4
def mtResume : Nat := 5
def mtRefuse : Nat := 6

/-- Data bytes of a segment on a transport. -/
def segSize (transport : Nat) : Nat := if transport = 0 then 24 else 1024

/-- The relay word. -/
def relayWord (mtype kind chunk seg : Nat) : Nat := mtype + kind % 4 * 2 ^ 4 + chunk % 1024 * 2 ^ 6 + seg % 4096 * 2 ^ 16

/-- Fields of a received relay word. -/
def rKind (w : Half) : Nat := bits w.toNat 4 2
def rChunk (w : Half) : Nat := bits w.toNat 6 10
def rSeg (w : Half) : Nat := bits w.toNat 16 12

/-- One segment leaves towards a neighbour: into the queue of own background slots, as an Ethernet frame of class 2, or as a RELAY link frame (R54, R461). -/
def sendSeg (transport node mac word : Nat) (data : List Byte) (s : State) : State :=
  if transport = 0 then { s with upd.busOut := s.upd.busOut ++ [fitTo 32 (leBytes 4 word ++ packFields [(1, node), (3, 0)] ++ data)] }
  else
    let b := leBytes 4 word ++ fitTo 1024 data
    if transport ≤ 4 then send (.eth (transport - 1) 2 (beBytes 6 mac ++ beBytes 2 0x88B5 ++ b)) s else sendLink (transport - 5) 3 3 0 b s

/-- A message in as many segments as its data needs. -/
def sendMsg (transport node mac mtype kind chunk : Nat) (data : List Byte) (s : State) : State :=
  let z := segSize transport
  let parts := if data.isEmpty then [[]] else chunks z (data.length / z + 1) data
  (parts.zipIdx).foldl (fun s x => sendSeg transport node mac (relayWord mtype kind chunk x.2) x.1 s) s

/-- The own relay version, 1.3 (R453). -/
def relayVersion : Nat := 0x0103

/-- The highest version that both ends serve; none without a common major: each end serves its major and the two before (R453, R454). -/
def agreedVersion (v : Nat) : Option Nat :=
  if v / 256 ≤ 1 then some (min v relayVersion) else if v / 256 ≤ 3 then some relayVersion else none

/-! ### Slots (R448, R465, R466) -/

/-- The selector, or an empty one where no copy is valid. -/
def selOr (s : State) : Selector := match selector s with | some x => x | none => { slots := List.replicate 6 {} }

/-- Bank of the inactive slot of a kind (R448). -/
def inactiveBank (k : Nat) (s : State) : Nat := 1 - selBank (selOr s).sel k

/-- Change the selector entry of a slot (R465). -/
def modSlot (bank k : Nat) (f : SelSlot → SelSlot) (s : State) : State :=
  let x := selOr s
  writeSelector { x with slots := modNth f (3 * bank + (k - 1)) x.slots } s

/-- The slot belongs to `PREV` (R465, R472). -/
def inPrev (bank k : Nat) (x : Selector) : Bool := selBank x.prev k == bank && selBank x.sel k != bank

/-- A slot is locked against a download (R472, R473, R475). -/
def slotLocked (k : Nat) (s : State) : Bool :=
  let b := inactiveBank k s
  let x := selOr s
  ((s.upd.act == .preparing || s.upd.act == .ready || s.upd.act == .armed || s.upd.act == .rollback) && bit s.upd.kinds (k - 1))
    || (x.trial && inPrev b k x) || (k == 3 && s.xch.st != .idle && s.xch.srcBank == b)

/-- `REFUSED` and `REASON` in UPD_STAT (R477). -/
def updReason (r : Nat) (s : State) : State := setRf 0x100010 8 8 r (setRf 0x100010 7 1 1 s)

/-- Downloads are possible: the module has started and no start-up stop or shutdown holds it (R482). -/
def relayRuns (s : State) : Bool :=
  match s.pwr.phase with
  | .running | .noConfig | .expired => true
  | _ => false

/-! ### Receiving an OFFER (R462, R463, R475) -/

/-- Named by `DEST_NET` and `DEST_NODE` (R450, R463); without a configuration the module has no network of its own. -/
def offerNamed (h : List Byte) (s : State) : Bool :=
  !s.cfg.present || ((fieldAt h 18 2 == 0xFFFF || fieldAt h 18 2 == s.cfg.sched.netId) && (fieldAt h 20 1 == 0xFF || fieldAt h 20 1 == s.cfg.sched.own))

/-- The transport is accepted (R14, R463). -/
def transportOk (t : Nat) (s : State) : Bool :=
  if s.cfg.present then bit s.cfg.upstream t && rf 0x100000 0 1 s == 1 else decide (1 ≤ t) && decide (t ≤ 4)

/-- A download of the kind runs from another sender, or of another image, or its slot is being verified (R463, R465). -/
def kindBusy (k t node : Nat) (h : List Byte) (s : State) : Bool :=
  (s.upd.dls.any (fun d => d.kind == k && !(d.upTransport == t && d.upNode == node && d.header == h)))
    || (selSlot (selOr s) (inactiveBank k s) k).st == 2

/-- The reason of R475 for an OFFER; 0 where it is accepted. -/
def offerReason (h : List Byte) (ver t node : Nat) (s : State) : Nat :=
  let r := headerReason h (fwSeq s) s
  let k := hKind h
  if r ≠ 0 ∧ r < 5 then r
  else if (agreedVersion ver).isNone then 5
  else if r ≠ 0 ∧ r ≤ 8 then r
  else if !(offerNamed h s) ∧ (s.cfg.downstream = [] ∨ !s.cfg.present) then 9
  else if offerNamed h s && slotLocked k s then 0xA
  else if kindBusy k t node h s then 0xB
  else if !(transportOk t s) then 0xC
  else r

/-- The slot holds the offered image: `GOOD_CHUNKS`, otherwise 0 (R462). -/
def resumeValue (h : List Byte) (s : State) : Nat :=
  let k := hKind h
  let b := inactiveBank k s
  let o := imgHeader (slotAddr b k) s.mem
  let x := selSlot (selOr s) b k
  if x.st ≠ 0 ∧ x.seq = hSeq h ∧ hSeq o = hSeq h ∧ fieldAt o 252 4 = fieldAt h 252 4 then x.good else 0

/-- A new neighbour that is being offered the image (R463, R464). -/
def newNeighbour (s : State) (d : Downstream) : Neighbour :=
  { transport := d.transport, node := d.node, mac := d.mac, offerAt := nowLin s, silentAt := nowLin s }

/-- The OFFER to one neighbour (R462). -/
def sendOffer (h : List Byte) (n : Neighbour) (s : State) : State :=
  sendMsg n.transport n.node n.mac mtOffer (hKind h) 0 (h ++ leBytes 2 relayVersion) s

/-- An accepted OFFER: slot INCOMPLETE, RESUME upstream, OFFERs downstream (R462, R463, R465). -/
def acceptOffer (h : List Byte) (ver t node : Nat) (s : State) : State :=
  let k := hKind h
  let store := offerNamed h s
  let b := inactiveBank k s
  let good := if store then resumeValue h s else 0
  let down := if s.cfg.present then (s.cfg.downstream.filter (fun d => !(d.transport == t && d.node == node))).map (newNeighbour s) else []
  let tbl := if good = 0 then [] else (List.range (hChunks h)).map (fun i => memNat (slotAddr b k + 256 + 4 * i) 4 s.mem)
  let v := match agreedVersion ver with | some v => v | none => relayVersion
  let d : Download := { kind := k, header := h, store := store, upTransport := t, upNode := node, version := v, good := good, table := tbl, down := down }
  let s := if store then
      let x := selOr s
      let s := if inPrev b k x then writeSelector { x with prevValid := false } s else s
      modSlot b k (fun _ => { st := if hChunks h ≤ good then 2 else 1, good := good, seq := hSeq h }) s
    else s
  let s := { s with upd.dls := d :: s.upd.dls.filter (fun e => e.kind != k) }
  let s := imageEvent (if good = 0 then 2 else 3) k b 0 (hSeq h) good 0 t node s
  let s := sendMsg t node 0 mtResume k good (leBytes 2 v ++ leBytes 2 good) s
  down.foldl (fun s n => sendOffer h n s) s

/-- A refused OFFER (R462, R475, R476). -/
def refuseOffer (h : List Byte) (ver r t node : Nat) (s : State) : State :=
  let k := hKind h
  let v := match agreedVersion ver with | some v => v | none => relayVersion
  let s := imageEvent 1 (k % 256) (inactiveBank k s) r (hSeq h) 0 0 t node (cnt 0x100054 (updReason r s))
  sendMsg t node 0 mtRefuse k 0 (leBytes 1 r ++ leBytes 2 v) s

/-- A repeated OFFER of the running download is answered again (R462). -/
def answerAgain (d : Download) (s : State) : State :=
  sendMsg d.upTransport d.upNode 0 mtResume d.kind d.good (leBytes 2 d.version ++ leBytes 2 d.good) s

/-- A complete OFFER. -/
def takeOffer (h : List Byte) (ver t node : Nat) (s : State) : State :=
  let s := cnt 0x100050 s
  let r := offerReason h ver t node s
  if r ≠ 0 then refuseOffer h ver r t node s
  else match s.upd.dls.find? (fun d => d.kind == hKind h) with
    | some d => answerAgain d s
    | none => acceptOffer h ver t node s

/-- Bytes of segments 0 to n - 1, where all are there. -/
def joinSegs (segs : List (Nat × List Byte)) (n : Nat) : Option (List Byte) :=
  if (List.range n).all (fun i => segs.any (fun x => x.1 == i)) then
    some ((List.range n).map (fun i => match segs.find? (fun x => x.1 == i) with | some x => x.2 | none => [])).flatten
  else none

/-- A relay segment that arrives while the relay runs: on the bus for this node, from a module link in a RELAY frame whose checks pass (R54, R461). -/
def relayRow (m : RelaySeg) (f : State → State) (s : State) : State :=
  if !(relayRuns s) || (m.transport.val == 0 && m.dest.toNat != s.cfg.sched.own) then s
  else if m.transport.val < 5 then f s
  else
    match linkIn (m.transport.val - 5) m.link (leBytes 4 m.word.toNat ++ m.bytes) s with
    | (true, s) => f s
    | (false, s) => s

/-- One segment of an OFFER; the message is whole with 258 bytes (R462). -/
def offerSeg (m : RelaySeg) (s : State) : State :=
  let t := m.transport.val
  let node := m.node.toNat
  let k := rKind m.word
  let mine := fun (o : OfferIn) => o.transport == t && o.node == node && o.kind == k
  let old := match s.upd.offers.find? mine with | some o => o.segs | none => []
  let segs := (rSeg m.word, m.bytes.take (segSize t)) :: old.filter (fun x => x.1 != rSeg m.word)
  let rest := s.upd.offers.filter (fun o => !(mine o))
  match joinSegs segs ((258 + segSize t - 1) / segSize t) with
  | some b => takeOffer (b.take 256) (fieldAt b 256 2) t node { s with upd.offers := rest }
  | none => { s with upd.offers := { transport := t, node := node, kind := k, segs := segs } :: rest }

/-- OFFER. -/
def execOffer (dt : Nat) (m : RelaySeg) (s : State) : Host.Outcome State Fault Refusal :=
  .next (relayRow m (offerSeg m) (begin' dt s))

/-! ### Downloads in progress -/

/-- The download of a kind. -/
def dlOf (k : Nat) (s : State) : Option Download := s.upd.dls.find? (fun d => d.kind == k)

/-- Put a download back. -/
def setDl (d : Download) (s : State) : State := { s with upd.dls := s.upd.dls.map (fun e => if e.kind == d.kind then d else e) }

/-- Remove the download of a kind. -/
def endDl (k : Nat) (s : State) : State := { s with upd.dls := s.upd.dls.filter (fun d => d.kind != k) }

/-- A neighbour of a download. -/
def isNode (t node : Nat) (n : Neighbour) : Bool := n.transport == t && n.node == node

/-- Bytes of chunk `c` of an image (R449). -/
def chunkLen (h : List Byte) (c : Nat) : Nat := min 65536 (hLength h - 65536 * c)

/-- A neighbour takes part: it has not refused. -/
def takesPart (n : Neighbour) : Bool := !n.refused

/-- A neighbour may be sent chunk `c` (R462, R464). -/
def wants (n : Neighbour) (c : Nat) : Bool := takesPart n && n.answered && !n.stopped && n.next == c && decide (n.inFlight.length < 8)

/-- Send a neighbour the chunks it may have, in ascending order (R462, R463). -/
def pumpOne (d : Download) : Nat → Neighbour → State → Neighbour × State
  | 0, n, s => (n, s)
  | k + 1, n, s =>
    match d.held.find? (fun x => x.1 == n.next) with
    | some (c, b) =>
      if wants n c then
        pumpOne d k { n with next := c + 1, inFlight := n.inFlight ++ [c], segAt := nowLin s } (cnt 0x10005C (sendMsg n.transport n.node n.mac mtData d.kind c b s))
      else (n, s)
    | none => (n, s)

/-- Send every neighbour what it may have. -/
def pumpAll (d : Download) : List Neighbour → State → List Neighbour × State
  | [], s => ([], s)
  | n :: t, s =>
    let (n, s) := pumpOne d 8 n s
    let (l, s) := pumpAll d t s
    (n :: l, s)

/-- Chunks acknowledged by every neighbour that takes part. -/
def downGood (d : Download) : Nat := (d.down.filter takesPart).foldl (fun m n => min m n.good) (hChunks d.header)

/-- Chunks leave the buffer once they are stored here and acknowledged downstream; a pass-through acknowledges them upstream (R462, R463). -/
def settleDl (d : Download) (s : State) : State :=
  let total := hChunks d.header
  let done := downGood d
  let (d, s) := if d.store then (d, s)
    else ({ d with good := max d.good done }, (List.range (done - d.good)).foldl (fun s i => sendMsg d.upTransport d.upNode 0 mtGood d.kind (d.good + i) [] s) s)
  let d := { d with held := d.held.filter (fun x => !(decide (x.1 < done) && decide (x.1 < d.good))) }
  if total ≤ done ∧ total ≤ d.good then
    endDl d.kind (if d.store then s else imageEvent 0xA d.kind 0 0 (hSeq d.header) total 0 d.upTransport d.upNode s)
  else setDl d s

/-- After a change of a download: forward, acknowledge, end. -/
def runDl (d : Download) (s : State) : State :=
  let (down, s) := pumpAll d d.down s
  settleDl { d with down := down } s

/-- Count one more for chunk `c`. -/
def bump (c : Nat) (l : List (Nat × Nat)) : List (Nat × Nat) := assocSet c ((match assocGet c l with | some n => n | none => 0) + 1) l

/-- The number of BADs for chunk `c`. -/
def badCount (c : Nat) (l : List (Nat × Nat)) : Nat := match assocGet c l with | some n => n | none => 0

/-- The table entry for chunk `c`; chunk 0 brings the table (R449). -/
def chunkOk (d : Download) (c : Nat) (b : List Byte) : Bool :=
  let n := hChunks d.header
  if c = 0 then
    b.take 256 == d.header && crc32c ((b.drop 256).take (4 * n)) == fieldAt d.header 36 4 && crc32c (chunkCovered d.header 0 b) == fieldAt b 256 4
  else some (crc32c b) == d.table[c]?

/-- A whole chunk: its CRC passes and it is held, or BAD goes upstream; the third BAD ends the transfer (R462, R463). -/
def takeChunk (d : Download) (c : Nat) (b : List Byte) (s : State) : State :=
  let d := { d with segs := d.segs.filter (fun x => x.1 != c) }
  if chunkOk d c b then
    let tbl := if c = 0 then (List.range (hChunks d.header)).map (fun i => fieldAt b (256 + 4 * i) 4) else d.table
    runDl { d with held := d.held ++ [(c, b)], table := tbl } s
  else
    let s := sendMsg d.upTransport d.upNode 0 mtBad d.kind c [] (cnt 0x100058 s)
    let bads := bump c d.badUp
    if 3 ≤ badCount c bads then
      imageEvent 0xA d.kind (inactiveBank d.kind s) 0x10 (hSeq d.header) c 0 d.upTransport d.upNode (updReason 0x10 (endDl d.kind s))
    else setDl { d with badUp := bads } s

/-- A DATA segment of a chunk that is wanted and fits the buffer of 8 chunks (R461 to R463). -/
def dataSeg (m : RelaySeg) (s : State) : State :=
  match dlOf (rKind m.word) s with
  | none => s
  | some d =>
    let t := m.transport.val
    let c := rChunk m.word
    let busy := d.held.length + ((d.segs.map (fun x => x.1)).filter (fun x => x != c)).eraseDups.length
    if !(d.upTransport == t && d.upNode == m.node.toNat) ∨ c < d.good ∨ hChunks d.header ≤ c ∨ 8 ≤ busy ∨ d.held.any (fun x => x.1 == c) then s
    else
      let d := { d with segs := (c, rSeg m.word, m.bytes.take (segSize t)) :: d.segs.filter (fun x => !(x.1 == c && x.2.1 == rSeg m.word)) }
      let n := (chunkLen d.header c + segSize t - 1) / segSize t
      match joinSegs ((d.segs.filter (fun x => x.1 == c)).map (fun x => x.2)) n with
      | some b => takeChunk d c (b.take (chunkLen d.header c)) s
      | none => setDl d s

/-- DATA. -/
def execData (dt : Nat) (m : RelaySeg) (s : State) : Host.Outcome State Fault Refusal :=
  .next (relayRow m (dataSeg m) (begin' dt s))

/-- Change the neighbour that sent a message. -/
def onNeighbour (m : RelaySeg) (f : Download → Neighbour → State → Neighbour × State) (s : State) : State :=
  match dlOf (rKind m.word) s with
  | none => s
  | some d =>
    match d.down.find? (isNode m.transport.val m.node.toNat) with
    | none => s
    | some n =>
      let (n', s) := f d n s
      if (dlOf d.kind s).isNone then s else runDl { d with down := d.down.map (fun x => if isNode m.transport.val m.node.toNat x then n' else x) } s

/-- GOOD frees a chunk at the sender (R462). -/
def execGood (dt : Nat) (m : RelaySeg) (s : State) : Host.Outcome State Fault Refusal :=
  .next (relayRow m (
    onNeighbour m (fun _ n s =>
      let c := rChunk m.word
      if n.inFlight.contains c then ({ n with inFlight := n.inFlight.filter (· != c), good := max n.good (c + 1) }, s) else (n, s))) (begin' dt s))

/-- The transfer to a neighbour ends with a reason; a pass-through without neighbours ends as a whole (R462, R464). -/
def dropNeighbour (r c : Nat) (d : Download) (n : Neighbour) (s : State) : Neighbour × State :=
  let s := imageEvent 0xA d.kind 0 r (hSeq d.header) c 0 n.transport n.node s
  let last := !((d.down.filter takesPart).any (fun x => !(isNode n.transport n.node x)))
  let s := if last && !d.store then endDl d.kind (sendMsg d.upTransport d.upNode 0 mtRefuse d.kind 0 (leBytes 1 r ++ leBytes 2 d.version) s) else s
  ({ n with refused := true, inFlight := [] }, s)

/-- BAD makes the sender repeat the chunk; the third ends the transfer with CHUNK (R462). -/
def execBad (dt : Nat) (m : RelaySeg) (s : State) : Host.Outcome State Fault Refusal :=
  .next (relayRow m (
    onNeighbour m (fun d n s =>
      let c := rChunk m.word
      if n.inFlight.contains c then
        let n := { n with bads := bump c n.bads }
        if 3 ≤ badCount c n.bads then dropNeighbour 0x10 c d n s
        else match d.held.find? (fun x => x.1 == c) with
          | some (_, b) => ({ n with segAt := nowLin s }, sendMsg n.transport n.node n.mac mtData d.kind c b s)
          | none => (n, s)
      else (n, s))) (begin' dt s))

/-- RESUME sets the agreed version and the first chunk to send (R462, R464). -/
def execResume (dt : Nat) (m : RelaySeg) (s : State) : Host.Outcome State Fault Refusal :=
  .next (relayRow m (
    onNeighbour m (fun _ n s =>
      let first := fieldAt m.bytes 2 2
      if takesPart n then ({ n with answered := true, stopped := false, next := first, good := first, inFlight := [] }, s) else (n, s))) (begin' dt s))

/-- REFUSE ends the transfer (R462). -/
def execRefuse (dt : Nat) (m : RelaySeg) (s : State) : Host.Outcome State Fault Refusal :=
  .next (relayRow m (
    onNeighbour m (fun d n s => if takesPart n then dropNeighbour (fieldAt m.bytes 0 1) n.next d n s else (n, s))) (begin' dt s))

/-! ### Storing and verification (R464, R465) -/

/-- A NOR failure ends the module's own storing with reason NOR (R475). -/
def norFailed (d : Download) (s : State) : State :=
  let s := updReason 0x14 s
  let s := imageEvent 0xA d.kind (inactiveBank d.kind s) 0x14 (hSeq d.header) d.good 0 d.upTransport d.upNode s
  endDl d.kind (sendMsg d.upTransport d.upNode 0 mtRefuse d.kind 0 (leBytes 1 0x14 ++ leBytes 2 d.version) s)

/-- The next chunk is stored and read back: GOOD, the selector, VERIFYING behind the last one (R462, R465). -/
def storeChunk (d : Download) (s : State) : State :=
  match d.held.find? (fun x => x.1 == d.good) with
  | none => s
  | some (c, b) =>
    let bank := inactiveBank d.kind s
    let s := { s with mem := memSetList (slotAddr bank d.kind + 65536 * c) b s.mem }
    let last := decide (hChunks d.header ≤ c + 1)
    let s := modSlot bank d.kind (fun x => { x with st := if last then 2 else 1, good := c + 1 }) s
    let s := sendMsg d.upTransport d.upNode 0 mtGood d.kind c [] s
    runDl { d with good := c + 1 } s

/-- CHUNK_STORED. -/
def execChunkStored (dt : Nat) (kind : BitVec 2) (norOk : Bool) (s : State) : Host.Outcome State Fault Refusal :=
  let s := begin' dt s
  .next (match dlOf kind.toNat s with
    | some d => if relayRuns s && d.store && d.held.any (fun x => x.1 == d.good) then (if norOk then storeChunk d s else norFailed d s) else s
    | none => s)

/-- OFFER_REPEAT: 5 s after the last OFFER to a neighbour that has not answered (R462, R464). -/
def execOfferRepeat (dt : Nat) (kind : BitVec 2) (s : State) : Host.Outcome State Fault Refusal :=
  let s := begin' dt s
  .next (match dlOf kind.toNat s with
    | some d =>
      if relayRuns s then
        let due := fun (n : Neighbour) => takesPart n && (!n.answered || n.stopped) && decide (secLin s 5 ≤ nowLin s - n.offerAt)
        let s1 := d.down.foldl (fun s n => if due n then sendOffer d.header n s else s) s
        setDl { d with down := d.down.map (fun n => if due n then { n with offerAt := nowLin s } else n) } s1
      else s
    | none => s)

/-- CHUNK_TIMEOUT: no GOOD or BAD 1 s after the last segment: the sender stops and offers again (R464). -/
def execChunkTimeout (dt : Nat) (kind : BitVec 2) (s : State) : Host.Outcome State Fault Refusal :=
  let s := begin' dt s
  .next (match dlOf kind.toNat s with
    | some d =>
      if relayRuns s then
        let due := fun (n : Neighbour) => takesPart n && n.answered && !n.stopped && decide (n.inFlight ≠ []) && decide (secLin s 1 ≤ nowLin s - n.segAt)
        let s1 := d.down.foldl (fun s n => if due n then sendOffer d.header n s else s) s
        setDl { d with down := d.down.map (fun n => if due n then { n with stopped := true, inFlight := [], offerAt := nowLin s, silentAt := nowLin s } else n) } s1
      else s
    | none => s)

/-- TRANSFER_TIMEOUT: 30 min without an answer (R464). -/
def execTransferTimeout (dt : Nat) (kind : BitVec 2) (s : State) : Host.Outcome State Fault Refusal :=
  let s := begin' dt s
  .next (match dlOf kind.toNat s with
    | some d =>
      let due := fun (n : Neighbour) => takesPart n && (!n.answered || n.stopped) && decide (secLin s 1800 ≤ nowLin s - n.silentAt)
      match d.down.find? due with
      | some n =>
        if relayRuns s then
          let (n', s) := dropNeighbour 0x15 n.next d n s
          if (dlOf d.kind s).isNone then s else runDl { d with down := d.down.map (fun x => if isNode n.transport n.node x then n' else x) } s
        else s
      | none => s
    | none => s)

/-- ABORT_DL ends the module's own download; the slot stays INCOMPLETE, a pass-through goes on (R464). -/
def abortOwn (s : State) : State :=
  { s with upd.dls := (s.upd.dls.filter (fun d => !d.store || d.down.any takesPart)).map (fun d => { d with store := false }) }

/-- ABORT_DL. -/
def execAbortDl (dt : Nat) (s : State) : Host.Outcome State Fault Refusal := .next (blockCommand 0x10 abortOwn (begin' dt s))

/-- The slot of a kind that is being verified. -/
def verifying (k : Nat) (s : State) : Option Nat := [0, 1].find? (fun b => (selSlot (selOr s) b k).st == 2)

/-- The end of a verification (R465, R477). -/
def verifyEnd (k bank : Nat) (s : State) : State :=
  let r := verifyReason (slotAddr bank k) s.mem s
  let q := (selSlot (selOr s) bank k).seq
  if r = 0 then imageEvent 4 k bank 0 q 0 0 0 0 (modSlot bank k (fun x => { x with st := 3 }) s)
  else imageEvent 5 k bank r q 0 0 0 0 (cnt 0x100060 (updReason r (modSlot bank k (fun x => { x with st := 4 }) s)))

/-- VERIFY_DONE. -/
def execVerifyDone (dt : Nat) (kind : BitVec 2) (s : State) : Host.Outcome State Fault Refusal :=
  let s := begin' dt s
  .next (if relayRuns s && kind != 0#2 then (match verifying kind.toNat s with | some b => verifyEnd kind.toNat b s | none => s) else s)

/-! ### PREPARE (R468, R469, R473) -/

/-- A refused UPD command (R475, R477). -/
def updRefuse (r : Nat) (s : State) : State := updReason r s

/-- Address of the slot that a kind would run from: the inactive one where it is named, otherwise the present one. -/
def nextSlot (kinds k : Nat) (s : State) : Nat :=
  let b := selBank (selOr s).sel k
  slotAddr (if bit kinds (k - 1) then 1 - b else b) k

/-- Firmware `SEQ` of the resulting set. -/
def nextFw (kinds : Nat) (s : State) : Nat :=
  let x := selOr s
  let b := selBank x.sel 1
  (selSlot x (if bit kinds 0 then 1 - b else b) 1).seq

/-- The compatibility range of an image includes a firmware sequence (R450). -/
def rangeOk (a fw : Nat) (m : List Host.Cell) : Bool := decide (fieldAt (imgHeader a m) 28 4 ≤ fw) && decide (fw ≤ fieldAt (imgHeader a m) 32 4)

/-- The resulting set fits together (R469). -/
def setFits (kinds : Nat) (s : State) : Bool :=
  let x := selOr s
  let c := nextSlot kinds 2 s
  let p := nextSlot kinds 3 s
  let f := imgHeader (nextSlot kinds 1 s) s.mem
  let hasC := bit x.sel 3 || bit kinds 1
  let hasP := bit x.sel 4 || bit kinds 2
  (!hasC || rangeOk c (nextFw kinds s) s.mem) && (!hasP || rangeOk p (nextFw kinds s) s.mem)
    && (!(bit kinds 0) || (decide (fieldAt f 28 1 ≤ Config.issue.toNat) && decide (Config.issue.toNat ≤ fieldAt f 32 1)))
    && (!(hasC && hasP) || hCfgRef (imgHeader c s.mem) == hCfgRef (imgHeader p s.mem))

/-- The new configuration passes every load check (R469). -/
def newCfgOk (kinds : Nat) (s : State) : Bool :=
  if bit kinds 1 then
    let a := nextSlot kinds 2 s
    let c := parseCfg a s.mem
    cfgDirOk a s.mem && (schedOf a c s.mem).isNone && cfgOk a (nextSlot kinds 3 s) c s.mem (loadLattice (secStart a 0x0105 s.mem) s.mem s.mem)
  else true

/-- The first method whose condition holds: 1 exchange, 2 handover, 3 restart (R204, R265, R468). -/
def methodOf (kinds : Nat) (s : State) : Nat :=
  let f := imgHeader (nextSlot kinds 1 s) s.mem
  let old := imgHeader (slotAddr (selBank (selOr s).sel 1) 1) s.mem
  let lo := fieldAt f 44 4
  if s.cfg.split ∨ !s.cfg.present then 3
  else if kinds = 4 then 1
  else if (bit kinds 1 = true → hotOnly (slotAddr (selBank (selOr s).sel 2) 2) (nextSlot kinds 2 s) s.mem = true)
      ∧ (bit kinds 0 = true → lo ≠ 0 ∧ lo ≤ fwSeq s ∧ fieldAt f 7 1 = fieldAt old 7 1) then 2
  else 3

/-- The named slots are VALID (R469). -/
def namedValid (kinds : Nat) (s : State) : Bool :=
  kinds % 8 != 0 && [1, 2, 3].all (fun k => !(bit kinds (k - 1)) || (selSlot (selOr s) (inactiveBank k s) k).st == 3)

/-- Reason for which PREPARE is refused; 0 none (R469, R473, R475). -/
def prepareReason (kinds : Nat) (s : State) : Nat :=
  if edgesBarred s then 0x24
  else if s.upd.act != .idle || rf 0x100000 1 1 s == 0 then 0x25
  else if s.xch.st == .armed || s.xch.st == .draining || (s.xch.st != .idle && methodOf kinds s != 3) then 0x22
  else if !(namedValid kinds s) then 0x20
  else if !(setFits kinds s) then 0x23
  else if !(newCfgOk kinds s) then 0x26
  else 0

/-- Bank from which the exchange or handover takes the program (R468). -/
def programBank (kinds : Nat) (s : State) : Nat := let b := selBank (selOr s).sel 3; if bit kinds 2 then 1 - b else b

/-- An accepted PREPARE; for an exchange or handover the loading stage of the program begins (R469). -/
def startPrepare (kinds : Nat) (s : State) : State :=
  let m := methodOf kinds s
  let s := { s with upd.act := .preparing, upd.kinds := kinds, upd.method := m }
  if m = 3 then s else { startLoading (programBank kinds s) s with xch.forActivation := true }

/-- PREPARE. -/
def updPrepare (kinds : Nat) (s : State) : State :=
  let r := prepareReason kinds s
  if r = 0 then startPrepare kinds s else updRefuse r s

/-- A UPD command as voted goes to the standby (R56, R474). -/
def updMirror (value : Nat) (s : State) : State := mirror 4 1 (packFields [(4, 0xF0100004), (4, value)]) s

/-- PREPARE. -/
def execPrepare (dt : Nat) (kinds : BitVec 3) (s : State) : Host.Outcome State Fault Refusal :=
  .next (blockCommand 0x10 (fun s => updPrepare kinds.toNat (updMirror (1 + 16 * kinds.toNat) s)) (begin' dt s))

/-! ### Arming and activation (R468 to R472) -/

/-- Boundary in UPD_ARM_LO and UPD_ARM_HI (R477). -/
def updTarget (s : State) : Nat := rv 0x100008 s + rf 0x10000C 0 8 s * 2 ^ 32

/-- Reason for which ARM is refused; 0 none (R250, R469, R473). -/
def updArmReason (s : State) : Nat :=
  if edgesBarred s then 0x24
  else if s.upd.act != .ready then 0x25
  else if !(boundaryOk (updTarget s) s) then 0x21
  else if (s.xch.st == .armed || s.xch.st == .draining) && !s.xch.forActivation then 0x22
  else if s.upd.method != 3 && (armReason (updTarget s) true s).1 != 0 then 0x25
  else 0

/-- ARM of an activation. -/
def updArm (s : State) : State :=
  let r := updArmReason s
  if r ≠ 0 then updRefuse r s
  else
    let s := { s with upd.act := .armed, upd.target := updTarget s }
    if s.upd.method = 3 then s else xchArm s.upd.target true s

/-- UPD_ARM. -/
def execUpdArm (dt : Nat) (s : State) : Host.Outcome State Fault Refusal :=
  .next (blockCommand 0x10 (fun s => updArm (updMirror 2 s)) (begin' dt s))

/-- CANCEL discards the preparation, as DISARM does (R253, R469). -/
def updCancel (s : State) : State :=
  if s.upd.act == .preparing || s.upd.act == .ready || s.upd.act == .armed then
    if s.upd.method = 3 then { s with upd.act := .idle }
    else if s.xch.st == .exchanging || s.xch.st == .committed then s
    else { xchDisarm s with upd.act := .idle }
  else updRefuse 0x25 s

/-- ACTIVATION_CANCEL. -/
def execActivationCancel (dt : Nat) (s : State) : Host.Outcome State Fault Refusal :=
  .next (blockCommand 0x10 (fun s => updCancel (updMirror 3 s)) (begin' dt s))

/-- A restart activation: an active pair member first hands over (R474); shutdown sequence with cause ACTIVATE, selector with TRIAL, then the module resets itself (R471, R486). -/
def restartActivation (s : State) : State :=
  let kinds := s.upd.kinds
  let s := if s.lnk.fencing then mirror 0x12 1 (leBytes 8 (s.clk.cycle + 1)) s else s
  let s := shutdownSteps 2 3500 s
  let s := trialSelect kinds (7 - bits (selOr s).sel 0 3) 3 s
  { s with pwr.phase := .inReset, pwr.wake := 3, tri.a.st := .reset, tri.b.st := .reset, tri.c.st := .reset }

/-- The boundary for which an activation or a rollback is armed has been reached. -/
def activationDue (s : State) : Bool := (s.upd.act == .armed || (s.upd.act == .rollback && s.xch.forActivation)) && decide (s.upd.target ≤ s.clk.cycle)

/-! ### Confirmation and rollback (R452, R472) -/

/-- Blank owner slots are fused with the hashes of the confirmed configuration (R452). -/
def fuseOwners (c : Cfg) (l : List (Option Nat)) : List (Option Nat) :=
  (l.zipIdx).map (fun x => match x.1 with
    | some h => some h
    | none => let h := c.ownerKeys.getD x.2 0; if h = 0 then none else some h)

/-- CONFIRM: only in TRIAL, in NORMAL (R472). -/
def updConfirm (s : State) : State :=
  match selector s with
  | some x =>
    if !x.trial || s.upd.act != .trial || s.prg.mode != .normal then updRefuse 0x25 s
    else
      let s := writeSelector { x with trial := false, prevValid := true } s
      let s := if bit s.upd.kinds 1 then { s with cand.fuses := fuseOwners s.cfg s.cand.fuses } else s
      eventPerKind 7 s.upd.kinds s.upd.method { s with upd.act := .idle }
  | none => updRefuse 0x25 s

/-- CONFIRM. -/
def execConfirm (dt : Nat) (s : State) : Host.Outcome State Fault Refusal :=
  .next (blockCommand 0x10 (fun s => updConfirm (updMirror 4 s)) (begin' dt s))

/-- `CONFIRM_S` has elapsed since the confirmation window started (R472). -/
def confirmOver (s : State) : Bool := decide (s.upd.confirmAt + secLin s s.cfg.confirmS ≤ nowLin s)

/-- The next major-cycle boundary. -/
def nextMajor (s : State) : Nat := (s.clk.cycle / 1000 + 1) * 1000

end Sys2Proof.Machine
end

