-- ==== Sys2Proof/Machine/Links.lean ====
section
/-! DEFINITION. Module links and the hot-standby pair (R42 to R57, R264, R474, R514): training and loss of a link, the mirror messages, the fence, synchronisation and takeover. -/

namespace Sys2Proof.Machine

/-! ### Link training and lane failure (R43, R54) -/

/-- Widest link that `lanes` working lanes carry (R43). -/
def linkWidth (lanes : Nat) : Nat := if 4 ≤ lanes then 4 else if 2 ≤ lanes then 2 else if 1 ≤ lanes then 1 else 0

/-- `EN` of link `l` (R514). -/
def linkEnabled (l : Nat) (s : State) : Bool := bit (rv 0x120000 s) l

/-- A link with its sequences from 0 and its delay not measured; frames that waited while a link was down, or before it was trained again, are gone, and the peer has shown no station time yet (R44, R54). -/
def trained (up width : Nat) (keep : Bool) (x : Link) : Link :=
  { x with width := width, delay := 0x3FF, lseqTx := 0, lseqRx := 0, t1 := none, busyTo := up, queue := if keep then x.queue else [], integ := false }

/-- The active member's partner is no longer STANDBY_SYNCED: nothing waits for it any more (R50, R51). -/
def fenceOff (s : State) : State := releaseFenced { s with lnk.fencing := false, lnk.gapFree := none }

/-- The pair's link is down (R51). -/
def pairLinkDown (l : Nat) (s : State) : State :=
  if l = partnerLink s then
    if s.lnk.pair == .synced then mirrorReset { s with lnk.pair := .unsynced }
    else if s.lnk.pair == .unsynced then mirrorReset s
    else if s.lnk.pair == .active then fenceOff { s with lnk.copyAt := none }
    else s
  else s

/-- A lane fails: `lanes` still work, the link retrains at the next width that they carry (R43). -/
def linkRetrainTo (l lanes : Nat) (s : State) : State :=
  let w := linkWidth lanes
  if w < (link l s).width then
    let s := modLink l (trained s.clk.up w (w != 0)) s
    let s := emit 0x9201 [(1, l), (1, w)] (cnt (0x120018 + 16 * l) s)
    if w = 0 then pairLinkDown l s else measureStart (l + 4) s
  else s

/-- LINK_RETRAIN: `width` lanes still work. -/
def execLinkRetrain (dt : Nat) (l : Fin 3) (width : Nat) (s : State) : Host.Outcome State Fault Refusal :=
  let s := begin' dt s
  .next (if powered s then linkRetrainTo l.val width s else s)

/-- A link comes up: sequences from 0, the lower-numbered member measures, an unsynchronised standby asks for its copy (R54, R57). -/
def linkTrained (l lanes : Nat) (s : State) : State :=
  let w := linkWidth lanes
  if linkEnabled l s && w != 0 then
    let s := measureStart (l + 4) (modLink l (trained s.clk.up w false) s)
    if l = partnerLink s ∧ s.lnk.pair = .unsynced then toUnsynced s else s
  else s

/-- LINK_TRAINING. -/
def execLinkTraining (dt : Nat) (l : Fin 3) (width : Nat) (s : State) : Host.Outcome State Fault Refusal :=
  let s := begin' dt s
  .next (if powered s then linkTrained l.val width s else s)

/-! ### Mirror messages: arrival (R56, R57) -/

/-- The link to the partner is up. -/
def pairLinkUp (s : State) : Bool := s.cfg.partner.isSome && (link (partnerLink s) s).width != 0

/-- The payload of the link frame that carries message `mt` (R56). -/
def mirrorPayload (mt : Nat) (m : MirrorMsg) : List Byte := mirrorHead mt m.stream.toNat m.mseq.toNat m.tMsg.toNat m.body ++ leBytes 8 m.check.toNat

/-- Both check values of a message pass (R56). -/
def mirrorPass (mt : Nat) (m : MirrorMsg) (s : State) : Bool :=
  let c := mirrorCheck m.stream.toNat m.mseq.toNat (mirrorHead mt m.stream.toNat m.mseq.toNat m.tMsg.toNat m.body) s
  c.1 + 2 ^ 32 * c.2 == m.check.toNat

/-- A mirror message on the partner's link: its frame is checked, then `f` takes it (R54, R56). -/
def mirrorIn (mt : Nat) (m : MirrorMsg) (f : State → State) (s : State) : State :=
  match linkIn (partnerLink s) m.link (mirrorPayload mt m) s with
  | (true, s) => f s
  | (false, s) => s

/-- A gap in a stream to the standby (R51, R57). Before the first message of a synchronisation one SYNC_REQ is enough. -/
def standbyGap (s : State) : State :=
  let s := cnt 0x120044 s
  if s.lnk.pair = .unsynced ∧ s.lnk.rx1 = 0 ∧ s.lnk.rx2 = 0 then { mirrorReset s with lnk.tx1 := s.lnk.tx1 }
  else toUnsynced s

/-- ACK of stream 1: the highest `MSEQ` without a gap and its `T_MSG` (R56, R57). -/
def sendAck (m : MirrorMsg) (s : State) : State := mirrorSend 0x20 1 (packFields [(4, m.mseq.toNat), (4, 0), (8, m.tMsg.toNat)]) s

/-- The module takes mirror messages as the standby. -/
def standbyListens (s : State) : Bool := powered s && pairLinkUp s && (s.lnk.pair == .unsynced || s.lnk.pair == .synced)

/-- The first message of a stream starts its time without a gap (R51). -/
def gapStart (s : State) : State := { s with lnk.gapFree := if s.lnk.gapFree.isNone then some s.clk.cycle else s.lnk.gapFree }

/-- A stream 1 message to the standby: in sequence it is applied and acknowledged, otherwise it is a gap (R57). -/
def immediateMsg (mt : Nat) (m : MirrorMsg) (f : State → State) (s : State) : State :=
  if standbyListens s then
    mirrorIn mt m (fun s =>
      if mirrorPass mt m s && m.stream.toNat == 1 && m.mseq.toNat == (s.lnk.rx1 + 1) % 2 ^ 32 then
        f (sendAck m (gapStart { s with lnk.rx1 := m.mseq.toNat }))
      else standbyGap s) s
  else s

/-- A stream 2 message to the standby (R57). -/
def ramStream (mt : Nat) (m : MirrorMsg) (f : State → State) (s : State) : State :=
  if standbyListens s then
    mirrorIn mt m (fun s =>
      if mirrorPass mt m s && m.stream.toNat == 2 && m.mseq.toNat == (s.lnk.rx2 + 1) % 2 ^ 32 then
        f (gapStart { s with lnk.rx2 := m.mseq.toNat })
      else standbyGap s) s
  else s

/-- A stream 1 message to the active member; one out of sequence is a gap and is not used (R57). -/
def toActive (mt : Nat) (m : MirrorMsg) (start : Bool) (f : State → State) (s : State) : State :=
  if powered s && pairLinkUp s && s.lnk.pair == .active then
    mirrorIn mt m (fun s =>
      let inSeq := start || m.mseq.toNat == (s.lnk.rx1 + 1) % 2 ^ 32
      if mirrorPass mt m s && m.stream.toNat == 1 && inSeq then f { s with lnk.rx1 := m.mseq.toNat }
      else cnt 0x120044 { s with lnk.rx1 := m.mseq.toNat }) s
  else s

/-! ### Lattice commits (R56, R119) -/

/-- Address of a word of a journal entry. -/
def journalAddr (e : List Byte) : Nat := 0x100000000 + fieldAt e 0 4

/-- A journal word may only name the dynamic tables P (R119). -/
def journalWordOk (a : Nat) : Bool :=
  a % 8 == 0 && ((0x100400000 ≤ a && a < 0x100440000 && a % 16 == 0) || (0x100480000 ≤ a && a < 0x100488000) || (0x100490000 ≤ a && a < 0x100494000))

/-- Timer that the applied word starts at the next boundary, where the entry is no timer step (R104). -/
def startOf (a old new : Nat) : List (Bool × Nat) :=
  if bits old 0 16 = bits new 0 16 then []
  else if 0x100480000 ≤ a ∧ a < 0x100488000 then
    (if bits new 0 16 = rCancel ∨ bits new 0 16 = rApproach then [(false, (a - 0x100480000) / 8)] else [])
  else if 0x100490000 ≤ a ∧ a < 0x100494000 then
    (if bits new 0 16 = ovTiming then [(true, (a - 0x100490000) / 8)] else [])
  else []

/-- One word of a mirrored entry goes to tables P and N (R58, R119). -/
def applyJournalWord (kind : Nat) (e : List Byte) (s : State) : State :=
  let a := journalAddr e
  if journalWordOk a then
    let v := fieldAt e 8 8
    let st := if kind = 3 then [] else startOf a (memNat a 8 s.mem) v
    { s with
      mem := memSetList (invWord a) (leBytes 8 (2 ^ 64 - 1 - v)) (memSetList a (leBytes 8 v) s.mem)
      lat.starting := s.lat.starting ++ st }
  else s

/-- A complete entry: its `AGE` increments once per boundary, its words, the result's `RSEQ` (R119). -/
def applyJournal (e : List Byte) (s : State) : State :=
  let s := { s with lat.journal := s.lat.journal ++ [e] }
  let kind := fieldAt e 0 1
  let rseq := fieldAt e 4 4
  let c := lin (fieldAt e 8 8) / 16384000
  let s := if kind = 3 ∧ s.lnk.aged ≠ some c then { s with mem := ageAll s.mem, lat.starting := [], lnk.aged := some c } else s
  let s := (chunks 16 (fieldAt e 2 2) (e.drop 16)).foldl (fun s w => if w.length = 16 then applyJournalWord kind w s else s) s
  if rseq = 0 then s else { s with lat.rseq := rseq }

/-- LAT_COMMIT: parts of an entry are joined, the entry is applied with its last part (R56). -/
def takeLatCommit (body : List Byte) (s : State) : State :=
  let b := s.lnk.part ++ body
  if 16 ≤ b.length ∧ 16 + 16 * fieldAt b 2 2 ≤ b.length then applyJournal b { s with lnk.part := [] }
  else { s with lnk.part := b }

/-- LAT_COMMIT. -/
def execLatCommit (dt : Nat) (m : MirrorMsg) (s : State) : Host.Outcome State Fault Refusal :=
  .next (immediateMsg 1 m (takeLatCommit m.body) (begin' dt s))

/-! ### Channels, forces, commands (R56, R264, R354, R474) -/

/-- The state of a channel after a mirrored event: DESTROY advances the generation, SEAL names the wick and the sequence that the telegram took, and the last sequence exhausts the channel (R56, R345, R351, R352, R354). -/
def takeChannel (b : List Byte) (s : State) : State :=
  let h := fieldAt b 0 4
  let ev := fieldAt b 4 1
  let t := tmpl (h % 4096) s
  let wick := if (match t with | some t => hasWick t | none => false) then some (fieldAt b 8 2) else none
  let sess := if (match t with | some t => isOpenCh t && !t.rx | none => false) then some (fieldAt b 16 4) else none
  let c : Chan := { chan (h % 4096) s with gen := h / 4096, seq := fieldAt b 12 4 }
  if ev = 1 then setChan { c with st := .openSt, wick := none, session := sess } s
  else if ev = 2 then
    let last := h / 4096 == 0xFFFFF
    setChan { c with st := if last then .retired else .closed, gen := if last then c.gen else c.gen + 1, wick := none, session := none, seq := 1 } s
  else if ev = 3 then
    let fold := match t with | some t => hasFold t | none => false
    let done := fold && fieldAt b 12 4 == 0xFFFFFFFF
    setChan { c with st := if done then .exhausted else .openSt, wick := wick.map (fun w => (w + 1) % 65536), seq := if fold && !done then c.seq + 1 else c.seq, session := sess } s
  else s

/-- CHANNEL. -/
def execChannel (dt : Nat) (m : MirrorMsg) (s : State) : Host.Outcome State Fault Refusal :=
  .next (immediateMsg 2 m (takeChannel m.body) (begin' dt s))

/-- The force table after an accepted command of the active member (R49, R56, R161). -/
def takeForce (b : List Byte) (s : State) : State :=
  let cmd := b.take 32
  let res := b.drop 32
  if bits (fieldAt res 0 4) 4 4 ≠ 1 then s
  else if fcOp cmd = 1 then
    let id := fieldAt cmd 12 4
    let staff := match findToken id 1 s with | some v => v.staff | none => 0
    let f : ForceEntry := { dir := fcDir cmd, point := fcPoint cmd, value := fieldAt cmd 4 4, expiry := fieldAt res 16 8, token := id, staff := staff }
    let rest := s.frc.table.filter (fun (y : ForceEntry) => !(y.dir == f.dir && y.point == f.point))
    let s := forceAdd f { s with frc.table := rest }
    consumeToken id { s with frc.ind := true }
  else if fcOp cmd = 2 then
    { s with frc.table := s.frc.table.filter (fun (y : ForceEntry) => !(y.dir == fcDir cmd && y.point == fcPoint cmd)) }
  else if fcOp cmd = 3 then { s with frc.table := [] }
  else s

/-- FORCE. -/
def execForce (dt : Nat) (m : MirrorMsg) (s : State) : Host.Outcome State Fault Refusal :=
  .next (immediateMsg 3 m (takeForce m.body) (begin' dt s))

/-- A mirrored register write of the XCHG or UPD block: the operand registers, or the command itself (R264, R474). -/
def takeCommand (a v : Nat) (s : State) : State :=
  if a = 0xF0070004 then
    (match bits v 0 4 with
     | 1 => xchLoad (bits v 4 1) s
     | 2 => xchArm (armTarget s) false s
     | 3 => xchDisarm s
     | _ => s)
  else if a = 0xF0070008 ∨ a = 0xF007000C then setRv (a - 0xF0000000) v s
  else if a = 0xF0100004 then
    (match bits v 0 4 with
     | 1 => updPrepare (bits v 4 3) s
     | 2 => updArm s
     | 3 => updCancel s
     | 4 => updConfirm s
     | _ => s)
  else if a = 0xF0100008 ∨ a = 0xF010000C then setRv (a - 0xF0000000) v s
  else s

/-- COMMAND. -/
def execCommand (dt : Nat) (m : MirrorMsg) (s : State) : Host.Outcome State Fault Refusal :=
  .next (immediateMsg 4 m (takeCommand (fieldAt m.body 0 4) (fieldAt m.body 4 4)) (begin' dt s))

/-! ### The vital RAM stream (R49, R51, R57) -/

/-- RAM_WRITE: buffered; it advances the copy where it is the copy's next piece (R57). -/
def takeRamWrite (b : List Byte) (s : State) : State :=
  let a := fieldAt b 0 8
  let d := b.drop 8
  let s := { s with lnk.ramBuf := s.lnk.ramBuf ++ [(a, d)] }
  if copyPlace s.lnk.copied (copyRegions s) = some (a, d.length) then { s with lnk.copied := s.lnk.copied + d.length } else s

/-- RAM_WRITE. -/
def execRamWrite (dt : Nat) (m : MirrorMsg) (s : State) : Host.Outcome State Fault Refusal :=
  .next (ramStream 5 m (takeRamWrite m.body) (begin' dt s))

/-- Where a RAM_WRITE may go: code slots, and the application and module-reserved regions (R57, R134, R218). -/
def ramPlace (a n : Nat) : Bool := decide (a + n ≤ 0x04000000) || (dualStored a && dualStored (a + n - 1))

/-- The buffered writes in order, to the physical addresses that they name; the standby tracks them for its own exchange (R57, R264). -/
def applyRam : List (Nat × List Byte) → State → State
  | [], s => s
  | (a, d) :: t, s => applyRam t (if ramPlace a d.length then storeGood a d (trackWrite a d.length s) else s)

/-- The module-reserved contents as their bytes in vital RAM give them (R57). -/
def reservedLoad (s : State) : State :=
  reservedInto (memRead 0x07040000 (10760 + 8 * min 786432 (memNat 0x07042A00 8 s.mem)) s.mem) s

/-- BOUNDARY: the buffered writes are applied (R49). -/
def takeBoundary (s : State) : State :=
  let reserved := s.lnk.ramBuf.any (fun x => decide (0x07040000 ≤ x.1))
  let s := applyRam s.lnk.ramBuf s
  let s := if reserved then reservedLoad s else s
  { s with lnk.ramBuf := [], lnk.markThis := true, lnk.fullCopy := decide (copySize s ≤ s.lnk.copied) }

/-- BOUNDARY. -/
def execBoundary (dt : Nat) (m : MirrorMsg) (s : State) : Host.Outcome State Fault Refusal :=
  .next (ramStream 6 m takeBoundary (begin' dt s))

/-! ### Marks (R50, R51, R264) -/

/-- SOLO. -/
def execSolo (dt : Nat) (m : MirrorMsg) (s : State) : Host.Outcome State Fault Refusal :=
  .next (immediateMsg 0x10 m toUnsynced (begin' dt s))

/-- SAFE_STATE: taken at the next boundary. -/
def execSafeStateMark (dt : Nat) (m : MirrorMsg) (s : State) : Host.Outcome State Fault Refusal :=
  .next (immediateMsg 0x11 m (fun s => if s.lnk.pair == .synced then { s with lnk.mark := some (s.clk.cycle + 1) } else s) (begin' dt s))

/-- HANDOVER: taken at the boundary it names. -/
def execHandover (dt : Nat) (m : MirrorMsg) (s : State) : Host.Outcome State Fault Refusal :=
  .next (immediateMsg 0x12 m (fun s => if s.lnk.pair == .synced then { s with lnk.mark := some (fieldAt m.body 0 8) } else s) (begin' dt s))

/-- The standby's own exchange stands at the boundary of the commit mark. -/
def commitReady (cycle : Nat) (s : State) : Bool := (s.xch.st == .armed || s.xch.st == .draining) && xchTarget s == cycle

/-! ### The active member (R50, R57) -/

/-- ACK: the fence releases what it covers (R57). -/
def takeAck (b : List Byte) (s : State) : State :=
  releaseFenced { s with lnk.ackT := fieldAt b 8 8 }

/-- ACK. -/
def execAck (dt : Nat) (m : MirrorMsg) (s : State) : Host.Outcome State Fault Refusal :=
  .next (toActive 0x20 m false (takeAck m.body) (begin' dt s))

/-- SYNC_REQ: both streams start again at `MSEQ` 1, and the copy follows in the time that the link has (R57). -/
def takeSync (s : State) : State :=
  let s := releaseFenced { s with
    lnk.fencing := false, lnk.solo := false, lnk.tx1 := 1, lnk.tx2 := 1, lnk.ackT := 0, lnk.gapFree := some s.clk.cycle, lnk.copyAt := some 0, lnk.resv := reservedBytes s }
  modLink (partnerLink s) (fun k => { k with busyTo := max k.busyTo s.clk.up }) s

/-- SYNC_REQ. -/
def execSyncReq (dt : Nat) (m : MirrorMsg) (s : State) : Host.Outcome State Fault Refusal :=
  .next (toActive 0x21 m true takeSync (begin' dt s))

/-- An acknowledgement has been missing for 10 µs (R50). -/
def ackMissing (s : State) : Bool :=
  (!s.tel.fenced.isEmpty && decide (usUp 10 ≤ s.clk.up - s.tel.fenceAt))
    || s.bus.prep.any (fun p => p.ftype == 3 && decide (s.lnk.ackT < p.tSeal) && decide (10 ≤ sinceUs s (lin p.tSeal)))

/-- The active member runs solo: the solo mark is the last message of the stream (R50). -/
def goSolo (s : State) : State := fenceOff { mirror 0x10 1 [] s with lnk.solo := true, lnk.copyAt := none }

/-- MIRROR_FENCE_TIMEOUT. -/
def execMirrorFenceTimeout (dt : Nat) (s : State) : Host.Outcome State Fault Refusal :=
  let s := begin' dt s
  .next (if powered s && fenced s && ackMissing s then goSolo s else s)

/-- Pieces of the module-reserved contents that have changed since they were mirrored last; `i` counts them (R49, R57). -/
def mirrorPieces : Nat → List (List Byte) → List Byte → State → State
  | _, [], _, s => s
  | i, p :: t, old, s =>
    mirrorPieces (i + 1) t old (if (old.drop (1024 * i)).take p.length = p then s else mirror 5 2 (leBytes 8 (0x07040000 + 1024 * i) ++ p) s)

/-- The writes to the module-reserved region go out before the boundary mark that applies them (R49, R57). -/
def mirrorReserved (s : State) : State :=
  if s.lnk.pair == .active && !s.lnk.solo then
    let b := reservedBytes s
    { mirrorPieces 0 (chunks 1024 (b.length / 1024 + 1) b) s.lnk.resv s with lnk.resv := b }
  else s

/-! ### Synchronisation and takeover (R51 to R53) -/

/-- One major cycle without a gap. -/
def gapFreeMajor (s : State) : Bool := match s.lnk.gapFree with | some c => decide (c + 1000 ≤ s.clk.cycle) | none => false

/-- The standby becomes STANDBY_SYNCED; the active member starts fencing (R51). -/
def pairSynced (s : State) : State :=
  if !(pairLinkUp s) || !(gapFreeMajor s) then s
  else if s.lnk.pair == .unsynced && s.lnk.fullCopy then { s with lnk.pair := .synced, lnk.missedCycle := false, lnk.markThis := true }
  else if s.lnk.pair == .active && !s.lnk.solo then { s with lnk.fencing := true }
  else s

/-- STANDBY_SYNCED. -/
def execStandbySynced (dt : Nat) (s : State) : Host.Outcome State Fault Refusal :=
  let s := begin' dt s
  .next (if powered s then pairSynced s else s)

/-- A mark has fallen due, or the active member was silent for one full minor cycle (R51). -/
def takeoverDue (s : State) : Bool :=
  s.lnk.pair == .synced && ((match s.lnk.mark with | some c => decide (c ≤ s.clk.cycle) | none => false) || s.lnk.missedCycle)

/-- An activation before its commit is aborted by a takeover (R473). -/
def takeoverUpdate (s : State) : State :=
  if s.upd.act == .armed || s.upd.act == .ready || s.upd.act == .preparing then updReason 0x27 { s with upd.act := .idle } else s

/-- The takeover timeline: writes after the last mark dropped, an exchange aborted, the tasks due in this cycle released (R52, R263). -/
def takeOver (s : State) : State :=
  let s := addRf 0x120004 16 16 1 { s with
    lnk.pair := .active, lnk.ramBuf := [], lnk.part := [], lnk.mark := none, lnk.missedCycle := false, lnk.fencing := false, lnk.solo := false,
    lnk.gapFree := none, lnk.tx1 := 1, lnk.tx2 := 1, lnk.rx1 := 0, lnk.rx2 := 0, lnk.tookOver := some s.clk.cycle, lnk.copyAt := none }
  let s := match s.xch.st with
    | .armed | .draining | .exchanging => xchStop 0x15 0 s
    | _ => s
  let s := takeoverUpdate s
  match s.prg.mode with
  | .normal => releaseCyclic false s.cfg.tasks.entries s
  | .free => if taskActive 48 false s then s else releaseFree false s
  | _ => s

/-- TAKEOVER. -/
def execTakeover (dt : Nat) (s : State) : Host.Outcome State Fault Refusal :=
  let s := begin' dt s
  .next (if s.pwr.phase == .running && takeoverDue s then takeOver s else s)

end Sys2Proof.Machine
end

