-- ==== Sys2Proof/Machine/Regs.lean ====
section
/-! DEFINITION. The register interface (R493 to R516, and the register tables of the other chapters): views and aliases, access types, `LOCK`, RDREG, WRREG, INJ_ARM. -/

namespace Sys2Proof.Machine

/-! ### Addresses (R493 to R498) -/

/-- Highest decoded offset bit of each block (R493). -/
def blockD : List Nat := [7, 6, 7, 6, 8, 12, 6, 6, 6, 6, 8, 7, 10, 10, 6, 6, 6, 5, 7, 5, 13]

/-- Block index of a register address (R493). -/
def regBlk (a : Nat) : Nat := bits a 16 8

/-- View of a register address (R496). -/
def regView (a : Nat) : Nat := bits a 14 2

/-- The block is mapped (R494). -/
def regMapped (a : Nat) : Bool := decide (regBlk a < 0x15)

/-- Register key of an address: block index * 0x10000 + the offset of its first alias period, whole words (R495, R498). -/
def regKey (a : Nat) : Nat := regBlk a * 0x10000 + bits a 0 14 % 2 ^ (blockD.getD (regBlk a) 0 + 1) / 4 * 4

/-- `n` bits of ones. -/
def ones (n : Nat) : Nat := 2 ^ n - 1

/-- All 32 bits. -/
def allOnes : Nat := 0xFFFFFFFF

/-- `x` without the bits of `y`. -/
def without (x y : Nat) : Nat := Nat.land x (Nat.xor (y % 2 ^ 32) allOnes)

/-! ### Access types (R499, R502) -/

/-- RW bits of a register. -/
def rwMask (k : Nat) : Nat :=
  match k with
  | 0x030000 => 0x7
  | 0x030034 => 0x0FFFFFF8
  | 0x04000C => allOnes
  | 0x040030 => 0x3FF
  | 0x070000 => 0x1
  | 0x070008 => allOnes
  | 0x07000C => 0xFF
  | 0x080000 => 0x3
  | 0x090000 => 0x3F
  | 0x090004 => 0x3FFFFFFF
  | 0x090020 => allOnes
  | 0x090024 => allOnes
  | 0x090028 => allOnes
  | 0x090030 => allOnes
  | 0x0A0000 => 0xF
  | 0x0A0100 => 0x1
  | 0x0B0000 => 0x1
  | 0x0B0004 => allOnes
  | 0x0B0008 => allOnes
  | 0x0B0010 => 0x3
  | 0x0B0024 => allOnes
  | 0x0B0030 => 0x3F
  | 0x0C0000 => 0x1
  | 0x0D0000 => 0x1
  | 0x0E0000 => 0x1
  | 0x0F0000 => 0x3
  | 0x0F0010 => allOnes
  | 0x0F0014 => allOnes
  | 0x0F0018 => 0x1FF
  | 0x100000 => 0x3
  | 0x100008 => allOnes
  | 0x10000C => 0xFF
  | 0x110000 => 0xFF
  | 0x120000 => 0x7
  | _ => if 0x040010 ≤ k ∧ k < 0x040030 then 0xFFFF else 0

/-- W1C bits of a register. -/
def w1cMask (k : Nat) : Nat :=
  match k with
  | 0x000008 => 0x3
  | 0x030004 => 0x10
  | 0x030028 => 0x80000000
  | 0x070010 => 0x60
  | 0x080010 => 0xF0000
  | 0x090008 => 0x110
  | 0x0F0008 => 0x4000
  | 0x100010 => 0x80
  | 0x110004 => 0x8
  | _ => if 0x0C0100 ≤ k ∧ k < 0x0C0500 ∧ k % 16 = 0 then 0x1FFF0000 else 0

/-- The register holds a guarded bit (R502): each CTL register, and the registers that a chapter places behind `LOCK`. -/
def guarded (k : Nat) : Bool := k % 0x10000 == 0 || k == 0x030034 || k == 0x090004 || k == 0x0A0100

/-- `LOCK` of the block of register `k` is set. -/
def locked (k : Nat) (s : State) : Bool := bit (rv (k / 0x10000 * 0x10000) s) 31

/-- The register is of type W1 (R508). -/
def isW1 (k : Nat) : Bool := k == 0x00001C

/-- Where the model keeps that the first plain write of `SYS_APP_ID` has been taken; no block has index 0xFF. -/
def appIdTaken : Nat := 0xFF001C

/-! ### What registers show -/

/-- SYS (R508). -/
def sysReg (o : Nat) (s : State) : Nat :=
  match o with
  | 0x04 => b2n (s.frc.ind || !s.frc.table.isEmpty) + 2 * b2n s.tri.retired.isSome + 4 * b2n (safeState s) + 8 * b2n s.cfg.split
      + 16 * b2n (inTrial s) + 32 * b2n (s.evr.st == .down) + 64 * b2n (edgesBarred s)
  | 0x20 => 0x40960001
  | 0x24 => Config.issue.toNat
  | 0x28 => Config.serial.toNat % 2 ^ 32
  | 0x2C => Config.serial.toNat / 2 ^ 32
  | 0x30 => fwSeq s
  | 0x34 => s.cfg.seq
  | 0x38 => s.cfg.role + 4 * s.cfg.cluster + 16 * b2n s.pwr.strap
  | _ => rv o s

/-- Number of a lane as RETIRED and ATTACHED show it (R509, R516). -/
def laneNo (l : Option LaneId) : Nat := match l with | some l => laneIdx l + 1 | none => 0

/-- `RELIGHTS` and `DIMS` of a lane (R509). -/
def laneCounts (l : Lane) : Nat := l.relights + 2 ^ 16 * l.dims

/-- LANE (R509). -/
def laneReg (o : Nat) (s : State) : Nat :=
  match o with
  | 0x04 => laneCode s.tri.a.st + 16 * laneCode s.tri.b.st + 256 * laneCode s.tri.c.st + 4096 * laneNo s.tri.retired + 16384 * s.tri.causes
  | 0x08 => if s.tri.retired.isSome then sat 0xFFFFE (linUs s (degradedEnd s - nowLin s) / 1000000) else 0xFFFFF
  | 0x0C => laneCounts s.tri.a
  | 0x10 => laneCounts s.tri.b
  | 0x14 => laneCounts s.tri.c
  | _ => rv (0x010000 + o) s

/-- VOTE (R510). -/
def voteReg (o : Nat) (s : State) : Nat :=
  match o with
  | 0x04 => Nat.lor (rv 0x020004 s) (b2n s.tri.voter.restart.isSome + 2 * b2n ((litLanes s).length == 2))
  | 0x08 => s.tri.seq
  | _ => rv (0x020000 + o) s

/-- MEM (R237). -/
def memReg (o : Nat) (s : State) : Nat :=
  match o with
  | 0x04 => Nat.lor (rv 0x030004 s) (b2n (decide (usUp 8000000 < s.clk.up - s.vm.passStart)) + 2 * b2n (decide (56 < s.vm.used0))
      + 4 * b2n (decide (56 < s.vm.used1)) + 8 * b2n (decide (64 ≤ s.vm.used0) || decide (64 ≤ s.vm.used1)))
  | 0x08 => s.vm.word + 2 ^ 30 * s.vm.area
  | 0x2C => s.vm.used0 + 256 * s.vm.used1
  | 0x30 => s.vm.bank0 + 2 * s.vm.bank1 + 4 * s.vm.activeSlot + 8 * b2n s.vm.valid0 + 16 * b2n s.vm.valid1
  | _ => rv (0x030000 + o) s

/-- TASK (R511). -/
def taskReg (o : Nat) (s : State) : Nat :=
  if 0x10 ≤ o ∧ o < 0x30 then s.prg.cpNext.getD ((o - 0x10) / 4) 0xFFFF
  else match o with
  | 0x04 => modeCode s.prg.mode + (if s.prg.mode == .free then 4 * causeCode s.prg.cause else 0)
  | 0x34 => s.cfg.readback.length
  | _ => rv (0x040000 + o) s

/-- Level of the `FORCE_IND` output: on for half a second of each second of station time while the indication runs (R166). -/
def forceInd (s : State) : Bool := s.frc.ind && decide (linUs s (nowLin s) % 1000000 < 500000)

/-- FORCE (R512). -/
def forceReg (o : Nat) (s : State) : Nat :=
  if 0x1000 ≤ o then
    match s.frc.table[(o - 0x1000) / 16]? with
    | none => 0
    | some f =>
      match o % 16 with
      | 0 => f.point + 2 ^ 13 * b2n f.dir + 2 ^ 31
      | 4 => f.value
      | 8 => f.expiry % 2 ^ 32
      | _ => f.expiry / 2 ^ 32
  else match o with
  | 0x04 => s.frc.table.length + 2 ^ 9 * b2n (forceInd s) + 2 ^ 10 * b2n (exchArmed s)
  | _ => rv (0x050000 + o) s

/-- Routes whose state code meets `f`. -/
def countRoutes (f : Nat → Bool) (s : State) : Nat :=
  ((memSlice 0x100480000 0x100488000 s.mem).map (fun c => (c.1 - 0x100480000) / 8)).eraseDups.countP (fun r => f (rState r s.mem))

/-- LAT (R513). -/
def latReg (o : Nat) (s : State) : Nat :=
  match o with
  | 0x04 => (s.lat.reqQ.filter (fun q => !q.busy)).length + 2 ^ 16 * s.lat.updQ.length + 2 ^ 24 * b2n s.tri.lattice.restart.isSome
      + 2 ^ 25 * b2n s.lat.jfull + 2 ^ 26 * b2n s.lat.waiting.isSome
  | 0x14 => s.lat.rseq
  | 0x24 => countRoutes (fun c => c != rIdle && c != 0) s + 2 ^ 16 * countRoutes (· == rPermit) s
  | _ => rv (0x060000 + o) s

/-- XCHG (R268). -/
def xchgReg (o : Nat) (s : State) : Nat :=
  match o with
  | 0x10 => Nat.lor (rv 0x070010 s) ((if resting s then 8 else xCode s.xch.st) + 16 * b2n s.xch.tracking)
  | 0x34 => s.xch.work.countP isDirty
  | _ => rv (0x070000 + o) s

/-- Code of the node state (R310). -/
def nodeCode : NodeState → Nat
  | .off => 0
  | .listen => 1
  | .coldstart => 2
  | .backoff => 3
  | .integrating => 4
  | .synced => 5
  | .silent => 6

/-- VBUS (R310). -/
def vbusReg (o : Nat) (s : State) : Nat :=
  let c := s.cfg.sched
  if 0x20 ≤ o ∧ o < 0x30 then
    let p := busPort ((o - 0x20) / 4) s
    (match p.meas with | some d => min d 126 | none => 127) + 256 * (p.measCycle % 2 ^ 24)
  else match o with
  | 0x04 => c.own + 64 * b2n (csIndex c.own s).isSome + 128 * b2n (pairOf c.own s).isSome
      + 256 * (match pairOf c.own s with | some p => p | none => 0) + 2 ^ 14 * c.code + 2 ^ 17 * (c.posX.getD c.own 0 % 64) + 2 ^ 23 * (c.posY.getD c.own 0 % 64)
  | 0x08 => c.schedId
  | 0x0C => c.pmin + 256 * c.pmaj + 0x20000
  | 0x10 => Nat.lor (rv 0x080010 s) (nodeCode s.bus.st + 16 * b2n s.bus.leader + 32 * s.bus.ref + 2 ^ 11 * b2n (guardOpen s)
      + (List.range 4).foldl (fun m p => m + 2 ^ (12 + p) * b2n (busPort p s).link) 0)
  | 0x14 => position s + 2 ^ 14 * (s.clk.pos - macroStart s (position s))
  | 0x18 => rv 0x080018 s % 2 ^ 16 + 2 ^ 16 * ofSigned 16 s.clk.corr
  | 0x1C => ofSigned 24 (s.bus.rate * 250000 / (cycleUs s : Nat))
  | 0x4C => s.bus.clash
  | 0x64 => b2n (guardOpen s) + 2 * (if guardOpen s then 0 else if s.bus.guard then 4 else if isStandby s && busAligned s && s.bus.st == .synced then 5 else s.bus.gcause)
  | _ => rv (0x080000 + o) s

/-- Code of the civil state (R331). -/
def civCode : CivState → Nat
  | .acquire => 0
  | .locked => 1
  | .holdover => 2

/-- The pending step, 64 bits (R326). -/
def pendingStep (s : State) : Nat := match s.civ.pending with | some x => ofSigned 64 x | none => 0

/-- TIME (R331). -/
def timeReg (o : Nat) (s : State) : Nat :=
  match o with
  | 0x08 => Nat.lor (rv 0x090008 s) (civCode s.civ.st + 4 * b2n s.clk.prov + 8 * b2n s.civ.pending.isSome + 32 * b2n (decide (0xF000000000 ≤ s.clk.cycle))
      + 64 * b2n s.civ.rtcValid + 128 * b2n s.clk.provHeld)
  | 0x0C => now s % 2 ^ 32
  | 0x10 => s.civ.shSt / 2 ^ 32
  | 0x14 => s.civ.shFrac
  | 0x18 => s.civ.shNs % 2 ^ 32
  | 0x1C => s.civ.shNs / 2 ^ 32
  | 0x2C => 0
  | 0x34 => pendingStep s % 2 ^ 32
  | 0x38 => pendingStep s / 2 ^ 32
  | 0x40 => s.cfg.epoch + 2 ^ 16 * b2n s.civ.anchorValid
  | _ => rv (0x090000 + o) s

/-- One bit per key slot from slot `lo` on (R364). -/
def keyBits (f : Key → Bool) (lo n : Nat) (s : State) : Nat := (List.range n).foldl (fun m i => m + 2 ^ i * b2n (f (keyOf (lo + i) s))) 0

/-- CVU (R364). -/
def cvuReg (o : Nat) (s : State) : Nat :=
  match o with
  | 0x0C => 0
  | 0x14 => Nat.xor (rv 0x0B0004 s) allOnes
  | 0x18 => Nat.xor (rv 0x0B0008 s) allOnes
  | 0x20 => 0
  | 0x2C => Nat.lor (rf 0x0B002C 0 4 s) (16 * s.tel.chans.countP (fun c => c.st == .openSt || c.st == .exhausted) + 2 ^ 17 * b2n s.tel.busy.isSome + 2 ^ 18 * b2n s.tel.sessionLost)
  | 0x34 => 0
  | 0x38 => 0
  | 0x3C => 0
  | 0x40 => 0
  | 0x44 => 0
  | 0x48 => keyBits (·.valid) 0 32 s
  | 0x4C => keyBits (·.valid) 32 16 s
  | 0x50 => keyBits (·.locked) 0 32 s
  | 0x54 => keyBits (·.locked) 32 16 s
  | 0x84 => (match sessionNow s with | some n => n | none => 0)
  | _ => rv (0x0B0000 + o) s

/-- Entries of ring `r` in use (R365); rings 48 to 50 feed the lattice's queues (R91, R93). -/
def ringFill (r : Nat) (s : State) : Nat :=
  if r = 48 ∨ r = 49 then s.lat.reqQ.countP (fun q => q.ring == r && !q.busy)
  else if r = 50 then s.lat.updQ.length
  else ringSize r s - ringFree r s

/-- RING (R365). -/
def ringReg (o : Nat) (s : State) : Nat :=
  if o = 4 then (4096 - cellsUsed s) + 2 ^ 16 * rf 0x0C0004 16 13 s
  else if 0x100 ≤ o ∧ o < 0x500 ∧ o % 16 = 0 then
    let r := (o - 0x100) / 16
    let n := ringFill r s
    Nat.lor (rv (0x0C0000 + o) s) (n + 2 ^ 31 * b2n (decide (ringSize r s ≤ n)))
  else rv (0x0C0000 + o) s

/-- One bit per group. -/
def groupBits (f : Nat → Bool) : Nat := b2n (f 0) + 2 * b2n (f 1) + 4 * b2n (f 2) + 8 * b2n (f 3)

/-- `FIO_DIAG` of Fn (R397). -/
def fioDiag (n : Nat) (s : State) : Nat :=
  let p := pin n s
  b2n p.stuckOn + 2 * b2n p.cross + 4 * b2n p.overload + 8 * b2n p.latched + 16 * b2n p.openLoad + 32 * b2n p.driveFail + 64 * b2n p.inBand
    + 128 * b2n p.couplerLost + 256 * b2n p.timedOut + 512 * b2n p.permitOff + 1024 * b2n p.filling
    + 2048 * b2n (groupCut (n / 8) s || unpoweredNow (n / 8) s)
    + (match p.partner with | some q => 2 ^ 16 * q + 2 ^ 21 | none => 0) + 2 ^ 22 * p.lastTest

/-- `FIO_LIVE` of Fn (R397). -/
def fioLive (n : Nat) (s : State) : Nat :=
  let p := pin n s
  b2n (if isOutput n s then p.rb else p.raw == 1) + 2 * b2n p.cmd + 4 * b2n p.rb + 8 * b2n p.limit + 16 * (p.iMa % 2 ^ 11) + 2 ^ 16 * (p.vDv % 2 ^ 10)

/-- FIO (R397). -/
def fioReg (o : Nat) (s : State) : Nat :=
  if 0x100 ≤ o ∧ o < 0x200 then pinWord ((o - 0x100) / 8) s / 2 ^ (8 * (o % 8)) % 2 ^ 32
  else if 0x200 ≤ o ∧ o < 0x280 then fioDiag ((o - 0x200) / 4) s
  else if 0x300 ≤ o ∧ o < 0x400 then (pin ((o - 0x300) / 8) s).tEdge / 2 ^ (8 * (o % 8)) % 2 ^ 32
  else if 0x400 ≤ o ∧ o < 0x480 then fioLive ((o - 0x400) / 4) s
  else match o with
  | 0x04 => groupBits (fun g => (fgroup g s).cut) + 16 * groupBits (fun g => (fgroup g s).seen == .unpowered) + 2 ^ 8 * groupBits (fun g => (fgroup g s).seen == .sag)
      + 2 ^ 12 * groupBits (fun g => (fgroup g s).seen == .surge) + 2 ^ 16 * b2n (allPins.any (fun n => pinAnyFault n s)) + 2 ^ 17 * b2n (fieldRestarting s)
  | 0x08 => 0
  | 0x0C => testPos s + 2 ^ 17 * testSlotNow s
  | _ => rv (0x0D0000 + o) s

/-- Hours since a linear count. -/
def hoursSince (s : State) (x : Nat) : Nat := sinceUs s x / 3600000000

/-- SNUF (R418). `TESTING` reads 0: a path test is one command, so no read falls inside one. -/
def snufReg (o : Nat) (s : State) : Nat :=
  match o with
  | 0x04 => usedGroups s + 16 * b2n s.cfg.autoStart + 2 ^ 8 * s.cfg.testH + 2 ^ 16 * s.cfg.kPickMs + 2 ^ 24 * s.cfg.kDropMs
  | 0x08 => groupBits (fun g => (sgroup g s).aClosed) + 16 * groupBits (fun g => (sgroup g s).kOn) + 2 ^ 8 * groupBits (fun g => (sgroup g s).auxOpen)
      + 2 ^ 12 * groupBits (fun g => (sgroup g s).cut) + 2 ^ 20 * btnCode s.snu.btn
      + 2 ^ 23 * b2n s.snu.edgeStored + 2 ^ 24 * b2n s.snu.autoApplied + 2 ^ 25 * b2n (s.snu.barred || edgesBarred s)
  | 0x20 => 0
  | 0x40 => s.snu.edgeStamp % 2 ^ 32
  | 0x44 => s.snu.edgeStamp / 2 ^ 32
  | _ =>
    if 0x10 ≤ o ∧ o < 0x20 then
      let g := (o - 0x10) / 4
      Nat.lor (rv (0x0E0000 + o) s / 2 ^ 16 * 2 ^ 16) (s.cfg.testH - hoursSince s (sgroup g s).testFrom)
    else if 0x48 ≤ o ∧ o < 0x58 then sat 0xFFFF (hoursSince s (sgroup ((o - 0x48) / 4) s).dropAt)
    else rv (0x0E0000 + o) s

/-- Code of the recorder state (R445). -/
def evrCode : EvState → Nat
  | .mounting => 0
  | .running => 1
  | .frozen => 2
  | .down => 3

/-- Oldest readable sequence of a partition. -/
def oldestSeq (diag : Bool) (s : State) : Nat := match committed diag s with | r :: _ => r.seq | [] => 0

/-- EVR (R445). -/
def evrReg (o : Nat) (s : State) : Nat :=
  let e := s.evr
  let opened (f : SRec → Nat) := match e.open' with | some r => f r | none => 0
  match o with
  | 0x04 => b2n s.cfg.recShutdown + 2 * s.cfg.recFailH + 2 ^ 9 * Config.readRing.toNat
  | 0x08 => Nat.lor (rv 0x0F0008 s) (evrCode e.st + 8 * e.downCause + 2 ^ 8 * b2n e.j.wrapped + 2 ^ 9 * b2n e.d.wrapped
      + 2 ^ 10 * b2n (decide (0x100000 ≤ stagingUsed s)) + 2 ^ 11 * b2n e.reading.isSome + 2 ^ 12 * b2n e.clearing + 2 ^ 13 * b2n (e.st == .down && s.cfg.recShutdown))
  | 0x0C => 0
  | 0x28 => e.seqNext
  | 0x2C => e.seqCommit
  | 0x30 => oldestSeq false s
  | 0x34 => oldestSeq true s
  | 0x38 => Nat.lor (rv 0x0F0038 s) ((stagingUsed s + 1023) / 1024)
  | 0x40 => if e.st == .frozen then freezeMs s else rv 0x0F0040 s
  | 0x44 => opened (·.seq)
  | 0x48 => opened (fun r => r.ty + 2 ^ 16 * r.rep)
  | 0x4C => e.j.usable + 2 ^ 16 * e.d.usable
  | 0x50 => if e.st == .down && s.cfg.recShutdown then sat 0xFE (s.cfg.recFailH - hoursSince s e.downAt) else 0xFF
  | _ => rv (0x0F0000 + o) s

/-- Code of the activation state (R477). -/
def actCode : ActState → Nat
  | .idle => 0
  | .preparing => 1
  | .ready => 2
  | .armed => 3
  | .trial => 4
  | .rollback => 5

/-- UPD (R477). -/
def updReg (o : Nat) (s : State) : Nat :=
  let x := selOr s
  let own := s.upd.dls.filter (fun d => d.store)
  if 0x20 ≤ o ∧ o < 0x50 then
    let i := (o - 0x20) / 8
    let sl := x.slots.getD i {}
    let b := i / 3
    let k := i % 3 + 1
    if o % 8 = 0 then sl.st + 8 * b2n (inactiveBank k s == b && slotLocked k s) + 2 ^ 16 * sl.good else sl.seq
  else match o with
  | 0x04 => 0
  | 0x10 => Nat.lor (rv 0x100010 s) (actCode s.upd.act + 8 * (if s.upd.act == .idle then x.method else s.upd.method) + 32 * x.boots
      + 2 ^ 16 * (match own with | d :: _ => d.kind | [] => 0) + 2 ^ 18 * b2n (s.upd.dls.any (fun d => !d.down.isEmpty)))
  | 0x14 => x.sel + 256 * x.prev + 2 ^ 13 * b2n x.prevValid
  | 0x18 => if s.upd.act == .trial then sat 0x1FFFF (linUs s (s.upd.confirmAt + secLin s s.cfg.confirmS - nowLin s) / 1000000) else 0
  | _ => rv (0x100000 + o) s

/-- CAND (R492). -/
def candReg (o : Nat) (s : State) : Nat :=
  match o with
  | 0x04 => Nat.lor (rv 0x110004 s) (2 * b2n s.cand.rtcLost + 16 * b2n s.cand.framErr)
  | 0x0C => s.cand.rtcSec % 2 ^ 32
  | 0x10 => s.cand.shHi
  | 0x14 => s.cand.shSub
  | 0x18 => s.cand.cause + 16 * s.cand.sdResult + 256 * b2n s.cand.autoOk + 2 ^ 16 * s.cand.bootStep + 2 ^ 20 * s.cand.bootFail
  | _ => rv (0x110000 + o) s

/-- Code of the pair state (R514). -/
def pairCode : PairState → Nat
  | .none => 0
  | .unsynced => 1
  | .synced => 2
  | .takingOver => 3
  | .active => 4

/-- LINK (R514). -/
def linkReg (o : Nat) (s : State) : Nat :=
  if 0x10 ≤ o ∧ o < 0x40 ∧ o % 16 = 0 then (link ((o - 0x10) / 16) s).width + 8 * linkPeer ((o - 0x10) / 16) s
  else if 0x10 ≤ o ∧ o < 0x40 ∧ o % 16 = 4 then (link ((o - 0x10) / 16) s).delay
  else if o = 4 then Nat.lor (rv 0x120004 s) (pairCode s.lnk.pair + 8 * b2n (fenced s) + 16 * b2n s.lnk.solo)
  else rv (0x120000 + o) s

/-- DBG (R516). -/
def dbgReg (o : Nat) (s : State) : Nat :=
  match o with
  | 0x04 => b2n s.pwr.strap + 2 * b2n s.cfg.debugPermit + 4 * laneNo (s.dbg.attached.head?.map (·.1)) + 16 * b2n s.dbg.broke
  | 0x08 => s.dbg.attachAt % 2 ^ 32
  | 0x0C => s.dbg.attachAt / 2 ^ 32
  | _ => rv (0x130000 + o) s

/-- A word of a statistics copy but for its CRC; the highest temperature is held with bias 2^31 (R443). -/
def statField (c : List (Nat × Nat)) (o : Nat) : Nat :=
  let get (i : Nat) := match assocGet i c with | some v => v | none => 0
  if statHalf o then get o % 2 ^ 16 + 2 ^ 16 * (get (o + 2) % 2 ^ 16)
  else if o = 0x18C then (match assocGet o c with | some v => (v + 2 ^ 31) % 2 ^ 32 | none => 0)
  else get o % 2 ^ 32

/-- A word of the statistics copy that counts, its CRC-32C at 0x1FFC (R443, R446). -/
def statWord (o : Nat) (s : State) : Nat :=
  match statValid s with
  | none => 0
  | some (_, c) =>
    if o = 0x1FFC then crc32c (((List.range 0x7FF).map (fun i => leBytes 4 (statField c (4 * i)))).flatten) else statField c o

/-- STAT (R446). -/
def statReg (o : Nat) (s : State) : Nat :=
  if 0x1000 ≤ o ∧ o < 0x3000 then statWord (o - 0x1000) s
  else match o with
  | 0x04 => s.sta.copy + 2 * b2n (statValid s).isSome + 4 * b2n s.sta.lost
  | 0x08 => statWord 8 s
  | 0x0C => sinceUs s s.sta.lastUpd / 1000000
  | _ => rv (0x140000 + o) s

/-- The value that a read of register `k` returns (R499). -/
def regValue (k : Nat) (s : State) : Nat :=
  let o := k % 0x10000
  match k / 0x10000 with
  | 0x00 => sysReg o s
  | 0x01 => laneReg o s
  | 0x02 => voteReg o s
  | 0x03 => memReg o s
  | 0x04 => taskReg o s
  | 0x05 => forceReg o s
  | 0x06 => latReg o s
  | 0x07 => xchgReg o s
  | 0x08 => vbusReg o s
  | 0x09 => timeReg o s
  | 0x0B => cvuReg o s
  | 0x0C => ringReg o s
  | 0x0D => fioReg o s
  | 0x0E => snufReg o s
  | 0x0F => evrReg o s
  | 0x10 => updReg o s
  | 0x11 => candReg o s
  | 0x12 => linkReg o s
  | 0x13 => dbgReg o s
  | 0x14 => statReg o s
  | _ => rv k s

/-! ### Reads (R494, R497) -/

/-- UNMAPPED: reads 0, changes nothing, sets the bit, recorded (R494). -/
def unmapped (a data : Nat) (s : State) : State := nvEvent 0 0x0003 data a (setRf 0x000008 1 1 1 s)

/-- One register read: its value and its side effects, which are those of a plain read in every view (R497). -/
def regRead (a : Nat) (s : State) : State × Nat :=
  if regMapped a then
    let k := regKey a
    let v := regValue k s % 2 ^ 32
    (if k = 0x09000C then snapshot s else if k = 0x11000C then rtcCapture s else s, v)
  else (unmapped a 0 s, 0)

/-! ### Writes (R496 to R503) -/

/-- BAD_COMMAND of register `k` (R540). -/
def badCommand (k v : Nat) (s : State) : State := nvEvent (k / 0x10000) 0x000B v (0xF0000000 + k) s

/-- A mirrored operand of an exchange or activation (the model's reading of R264 and R474). -/
def mirrorOperand (k v : Nat) (s : State) : State := mirror 4 1 (packFields [(4, 0xF0000000 + k), (4, v)]) s

/-- A disabled link is down (R514). -/
def linksOff (v : Nat) (s : State) : State :=
  (List.range 3).foldl (fun s l => if bit v l || (link l s).width = 0 then s else pairLinkDown l (modLink l (trained s.clk.up 0 false) s)) s

/-- The RW bits of register `k` become `v` (R499), with what a block does of its own on that change. -/
def storeRw (k v : Nat) (s : State) : State :=
  let put := setRv k (Nat.lor (without (rv k s) (rwMask k)) v)
  if 0x040010 ≤ k ∧ k < 0x040030 then
    (if v = 0xFFFF ∨ v < cycleUs s then { s with prg.cpNext := modNth (fun _ => v) ((k - 0x040010) / 4) s.prg.cpNext } else s)
  else match k with
  | 0x030000 => put s
  | 0x070008 => mirrorOperand k v (put s)
  | 0x07000C => mirrorOperand k v (put s)
  | 0x080000 => vbusCtlWrite v s
  | 0x090000 => if 1 ≤ v ∧ v ≤ 60 then put s else badCommand k v s
  | 0x090004 => if 1000 ≤ v ∧ v ≤ 1000000000 then put s else badCommand k v s
  | 0x090020 => incrWrite v s
  | 0x0A0000 => let s := put s; setRv 0x0A0004 (Nat.land (rv 0x0A0004 s) v) s
  | 0x0D0000 => if bit v 0 then put s else pinsOff allPins (put s)
  | 0x100008 => mirrorOperand k v (put s)
  | 0x10000C => mirrorOperand k v (put s)
  | 0x120000 => linksOff v (put s)
  | _ => put s

/-- A plain write of a register that takes a command or a WO value. -/
def regCommand (k w : Nat) (s : State) : State :=
  match k with
  | 0x040008 =>
    let s := if bit w 0 then requestNormal s else s
    if bit w 1 then requestTest s else s
  | 0x070004 =>
    (match bits w 0 4 with
     | 1 => xchLoad (bits w 4 1) (xchMirror (w % 32) s)
     | 2 => let s := xchMirror 2 s; xchArm (armTarget s) false s
     | 3 => xchDisarm (xchMirror 3 s)
     | _ => badCommand k w s)
  | 0x09002C =>
    (match bits w 0 4 with
     | 1 => civStep s
     | 2 => civAccept s
     | 3 => civKick s
     | 4 => civDiscard s
     | _ => badCommand k w s)
  | 0x0B000C => cvuFeed w s
  | 0x0B0020 =>
    (match bits w 0 4 with
     | 1 => chCreate (bits w 4 12) s
     | 2 => chDestroy (rv 0x0B0024 s) s
     | _ => badCommand k w s)
  | 0x0B0034 => { s with tel.keyData := modNth (fun _ => w) 0 s.tel.keyData }
  | 0x0B0038 => { s with tel.keyData := modNth (fun _ => w) 1 s.tel.keyData }
  | 0x0B003C => { s with tel.keyData := modNth (fun _ => w) 2 s.tel.keyData }
  | 0x0B0040 => { s with tel.keyData := modNth (fun _ => w) 3 s.tel.keyData }
  | 0x0B0044 =>
    (match bits w 0 4 with
     | 1 => keyCommit (rf 0x0B0030 0 6 s) s
     | 2 => keyLock (rf 0x0B0030 0 6 s) s
     | _ => badCommand k w s)
  | 0x0D0008 => unlatchWrite (w % 2 ^ 32) s
  | 0x0E0020 =>
    (match bits w 0 4 with
     | 1 => { s with snu.testNow := true }
     | 2 => kdropDo (bits w 4 2) s
     | _ => badCommand k w s)
  | 0x0F000C =>
    (match bits w 0 4 with
     | 1 => evrFreeze s
     | 2 => evrThaw s
     | 3 => evrClear (bits w 4 2) s
     | 4 => evrRead (bits w 4 2) (bit w 6) [] s
     | 5 => evrReadStop s
     | _ => badCommand k w s)
  | 0x100004 =>
    (match bits w 0 4 with
     | 1 => updPrepare (bits w 4 3) (updMirror (w % 128) s)
     | 2 => updArm (updMirror 2 s)
     | 3 => updCancel (updMirror 3 s)
     | 4 => updConfirm (updMirror 4 s)
     | 5 => abortOwn s
     | _ => badCommand k w s)
  | _ => s

/-- New RW bits of a register under a view (R496). -/
def viewValue (view old w : Nat) : Nat :=
  match view with
  | 0 => w
  | 1 => Nat.lor old w
  | 2 => without old w
  | _ => Nat.xor old w

/-- The W1C and RW1S bits of a plain write (R499). -/
def stickyWrite (k w : Nat) (s : State) : State :=
  let s := if w1cMask k = 0 then s else setRv k (without (rv k s) (Nat.land w (w1cMask k))) s
  if k % 0x10000 = 0 ∧ bit w 31 then setRf k 31 1 1 s else s

/-- New RW bits of register `k` under a view (R496, R499). -/
def newRw (view k w : Nat) (s : State) : Nat := Nat.land (viewValue view (regValue k s) w) (rwMask k)

/-- A write of `MEM_CTL` that would set `INJ_ARM` in NORMAL: ignored whole, and recorded (R236). -/
def injIgnored (view k w : Nat) (s : State) : Bool := k == 0x030000 && s.prg.mode == .normal && bit (newRw view k w s) 0

/-- A write that `LOCK` and W1 let through. -/
def regWriteOpen (a k w : Nat) (s : State) : State :=
  let view := regView a
  if injIgnored view k w s then nvEvent 3 0x0005 w 0xF0030000 s
  else
    let s := if rwMask k = 0 then s else storeRw k (newRw view k w s) s
    if view = 0 then stickyWrite k w (regCommand k w s) else s

/-- The W1 register: its first plain write is taken (R499, R503). -/
def w1Write (a k w : Nat) (s : State) : State :=
  if rv appIdTaken s ≠ 0 then lockViolation a w s
  else if regView a = 0 then setRv appIdTaken 1 (setRv k w s)
  else s

/-- One register write (R494 to R503, R508). -/
def regWrite (a w : Nat) (s : State) : State :=
  if regMapped a then
    let k := regKey a
    if k = 0x000018 then sysTripWrite w s
    else if guarded k && locked k s then lockViolation a w s
    else if isW1 k then w1Write a k w s
    else regWriteOpen a k w s
  else unmapped a w s

/-! ### The instructions (R128, R130) -/

/-- A register address as an instruction names it: inside the register region (R130). -/
def regAddress (v : Nat) : Bool := decide (0xF0000000 ≤ v) && decide (v ≤ 0xF0FFFFFF)

/-- RDREG: d takes the register's 32 bits, zero-extended (R128). -/
def doRdreg (w : VInstr) (b : Bool) (s : State) : Ev :=
  (slotRead b w.src1 0 s).bind (fun s a =>
    if regAddress a then
      let (s, v) := regRead a (seqVoted s)
      slotWrite b w.dst 0 v s
    else .trap .regAddress s)

/-- RDREG. -/
def execVRdreg (dt : Nat) (w : VInstr) (s : State) : Host.Outcome State Fault Refusal :=
  .next (vExecBy dt 1 w (fun b _ty s => doRdreg w b s) s)

/-- The program may write the block of an address; an unmapped block follows R494 (R130, R508). -/
def blockOpen (a : Nat) (s : State) : Bool := !(regMapped a) || regBlk a == 0 || bit s.cfg.progBlocks (regBlk a)

/-- WRREG: the register at a takes the low 32 bits of d; a conversion block may write none (R128, R257). -/
def doWrreg (w : VInstr) (b : Bool) (s : State) : Ev :=
  (slotRead b w.src1 0 s).bind (fun s a =>
    if (ctx b s).conv.isSome then .trap .write s
    else if !(regAddress a) then .trap .regAddress s
    else if !(blockOpen a s) then .trap .regBlock s
    else (slotRead b w.dst 0 s).bind (fun s v => .ok (regWrite a (v % 2 ^ 32) (seqVoted s)) 0))

/-- WRREG. -/
def execVWrreg (dt : Nat) (w : VInstr) (s : State) : Host.Outcome State Fault Refusal :=
  .next (vExecBy dt 1 w (fun b _ty s => doWrreg w b s) s)

/-- INJ_ARM: a plain write of `MEM_CTL` (R236, R237). -/
def execInjArm (dt : Nat) (data : Half) (s : State) : Host.Outcome State Fault Refusal :=
  .next (blockCommand 3 (regWrite 0xF0030000 data.toNat) (begin' dt s))

end Sys2Proof.Machine
end

