-- ==== Sys2Proof/Machine/Commit.lean ====
section
/-! DEFINITION. Voted transactions that commit, signature beats, and the end of a duplex restart (R16, R17, R24, R121, R122, R173 to R178, R194 to R200, R205, R392 to R395). -/

namespace Sys2Proof.Machine

/-! ### What a committed transaction does (R16, R17, R173) -/

/-- The 8-byte words that `size` bytes from `a` touch: at least one, at most the 64 B of a transaction. -/
def txWords (a size : Nat) : List Nat := (List.range (min 8 (max 1 ((a % 8 + size + 7) / 8)))).map (fun k => a / 8 * 8 + 8 * k)

/-- A voted read of several words, served once: state and bytes delivered. -/
def readWords (nor : Bool) : List Nat → State → List Byte → State × List Byte
  | [], s, acc => (s, acc)
  | a :: t, s, acc =>
    let (s, v) := laneReadOf nor a s
    readWords nor t s (acc ++ leBytes 8 v)

/-- A read outside the memories is a trap; one whose word cannot be delivered has led to a vital fault (R130, R219, R225). -/
def commitRead (b : Bool) (hit : MemIn) (x : LaneTx) (s : State) : State :=
  let l := txWords x.addr.toNat x.size
  if l.all laneAddress then
    let (s, d) := readWords hit.norOk l (applyFinding (granule s.vm.mapActive x.addr.toNat / 8 * 8) hit.find s) []
    if s.prg.mode == .halted then s else send (.read ((d.drop (x.addr.toNat % 8)).take (max 1 x.size))) s
  else trapFault (running b s) .ptrRead s

/-- The word at `a` with the enabled bytes of the payload in their places; `n` is the index of the word's first byte. -/
def mergeWord (a n : Nat) (x : LaneTx) (s : State) : List Byte :=
  (List.range 8).map (fun i => if x.be.getLsbD (n + i) then x.data.getD (n + i) 0 else memGet (granule s.vm.mapActive a + i) s.mem)

/-- A voted write word by word, which writes their line back (R61, R130, R172, R219). -/
def writeWords (b : Bool) (x : LaneTx) : List Nat → Nat → State → State
  | [], _, s => s
  | a :: t, n, s =>
    if (List.range 8).any (fun i => x.be.getLsbD (n + i)) then
      match memWrite a (leNat (mergeWord a n x s)) s with
      | .ok s _ => writeWords b x t (n + 8) (cacheClean a s)
      | .trap c s => trapFault (running b s) c s
    else writeWords b x t (n + 8) s

/-- The words that a payload covers. -/
def payloadWords (x : LaneTx) : List Nat := (List.range ((min 64 x.data.length + 7) / 8)).map (fun k => x.addr.toNat / 8 * 8 + 8 * k)

/-- An output image write: image points take their words (R145, R219). -/
def writeImageWords (x : LaneTx) : List Nat → Nat → State → State
  | [], _, s => s
  | a :: t, n, s => writeImageWords x t (n + 8) (if 0x07020000 ≤ a ∧ a < 0x07030000 then laneStore a (mergeWord a n x s) s else s)

/-- A committed beat: the retired-instruction count and the CRC-32C over the program counters since the beat before (R175). -/
def takeBeat (x : LaneTx) (s : State) : State :=
  { s with tri.beatCount := leNat (x.data.take 8), tri.beatCrc := leNat ((x.data.drop 8).take 4) }

/-- The effect of a committed transaction of lane table `b` (R16). -/
def commitTx (b : Bool) (hit : MemIn) (x : LaneTx) (s : State) : State :=
  let a := x.addr.toNat
  match x.kind with
  | .read => commitRead b hit x s
  | .write => writeWords b x (payloadWords x) 0 s
  | .regRead =>
    if regAddress a then
      let (s, v) := regRead a s
      send (.read (leBytes 4 v)) s
    else trapFault (running b s) .regAddress s
  | .regWrite =>
    if !(regAddress a) then trapFault (running b s) .regAddress s
    else if blockOpen a s then regWrite a (leNat (x.data.take 4)) s
    else trapFault (running b s) .regBlock s
  | .ringPost => if postOpen a s then (if hit.verify then postTo a b (fitTo 32 x.data) s else writeVerify a hit s) else trapFault (running b s) .ring s
  | .ringFetch =>
    if fetchOpen a s then
      let s := ringFinding a hit s
      if s.prg.mode == .halted then s
      else match (if rf 0x0C0000 0 1 s = 1 then ringTake a s else none) with
      | some (e, s) => send (.read e) s
      | none => send (.read []) s
    else trapFault (running b s) .ring s
  | .latRequest => postTo 48 b (fitTo 32 x.data) s
  | .outImage => writeImageWords x (payloadWords x) 0 s
  | .snufferEnable => if inNormal s && feedEn s && !s.cfg.split then feedAll s else s
  | .beat => takeBeat x s

/-- One transaction at the voters: what they commit takes effect and advances the sequence (R173, R176). -/
def votedTx (tx : VotedTx) (s : State) : State :=
  match vote tx s with
  | (s, some x) => commitTx false tx.hit x (seqNext s)
  | (s, none) => s

/-- In split mode each lane's transaction reaches its target uncompared (R205). -/
def splitTx (tx : VotedTx) (s : State) : State :=
  let s := match tx.v1.a with
    | some x => if x.kind == .beat || !(laneRuns false s) then s else commitTx false tx.hit x s
    | none => s
  match tx.v1.b with
  | some x => if x.kind == .beat || !(laneRuns true s) then s else commitTx true {} x s
  | none => s

/-- VOTED_TRANSACTION. -/
def execVotedTransaction (dt : Nat) (tx : VotedTx) (s : State) : Host.Outcome State Fault Refusal :=
  let s := begin' dt s
  .next (if lanesRun s then (if s.cfg.split then splitTx tx s else votedTx tx s) else s)

/-- A beat at the voters (R175, R176). -/
def beatTx (tx : VotedTx) (s : State) : State :=
  match vote tx s with
  | (s, some x) => takeBeat x (seqNext s)
  | (s, none) => s

/-- SIGNATURE_BEAT: voted like every transaction; none in split mode (R175, R205). -/
def execSignatureBeat (dt : Nat) (tx : VotedTx) (s : State) : Host.Outcome State Fault Refusal :=
  let s := begin' dt s
  .next (if triadVotes s then beatTx tx s else s)

/-- LANE_TIMEOUT: the transaction is decided with the lanes that have not presented it within 96 lane clocks timed out: what two lanes agree on is committed and the third dimmed; otherwise nothing is (R174, R176). -/
def execLaneTimeout (dt : Nat) (tx : VotedTx) (s : State) : Host.Outcome State Fault Refusal :=
  let s := begin' dt s
  .next (if triadVotes s && (timedOutIn (litLanes s) tx.v1 || timedOutIn (litLanes s) tx.v2) then votedTx tx s else s)

/-- What the monitor finds on one sample: a difference between its halves is a unit fault, one lane of three trips, anything more is a vital fault (R178, R179, R202, R203). -/
def monitorDecide (q : MonQuantity) (m : MonIn) (s : State) : State :=
  let lit := litLanes s
  let f := monTrips (monIdx q) lit m.v1
  if f != monTrips (monIdx q) lit m.v2 then unitDisagrees .voter s
  else match f with
    | [] => s
    | [l] => tripLane l 0 .monitorTwo (stat (0x5C + 4 * laneIdx l) 1 s)
    | _ => vitalFault .monitorTwo (monIdx q) s

/-- LANE_MONITOR_TRIP at a sample instant, a cycle position that is a multiple of 10 µs (R202, R203). -/
def execLaneMonitorTrip (dt : Nat) (q : MonQuantity) (m : MonIn) (s : State) : Host.Outcome State Fault Refusal :=
  let s := begin' dt s
  .next (if triadVotes s && position s % 10 == 0 then monitorDecide q m s else s)

/-! ### Releases of a boundary (R22, R138, R147, R259) -/

/-- The cyclic tasks of both lane tables. -/
def releaseTables (f : Bool → List TaskEntry → State → State) (s : State) : State :=
  let s := f false s.cfg.tasks.entries s
  match s.cfg.tasksB with
  | some t => if s.cfg.split then f true t.entries s else s
  | none => s

/-- Task 48 runs in a loop: it starts where no iteration is under way (R147). -/
def freeLoop (s : State) : State :=
  let s := if taskActive 48 false s then s else releaseFree false s
  if s.cfg.split && !(taskActive 48 true s) then releaseFree true s else s

/-- Tasks due in this cycle are released in priority order; inside an exchange window they are skipped (R138, R254, R259). -/
def dueReleases (s : State) : State :=
  let windowed := windowDue s || s.xch.window || s.xch.st == .committed
  match s.prg.mode with
  | .normal => if windowed then releaseTables skipCyclic s else followAbort (releaseTables releaseCyclic s)
  | .free => if windowed then s else followAbort (freeLoop s)
  | _ => s

/-- The end of a relight pause: what it held is released (R22, R184). -/
def relightEnd (s : State) : State := if s.prg.releaseHeld then dueReleases { s with prg.releaseHeld := false } else s

/-! ### The end of a duplex restart (R24, R194, R121, R394) -/

/-- The lanes hold what they presented: in the new vote each voter has of each lane one of the two views of it (R194). -/
def reView (k : BitVec 6) (tx : VotedTx) : VotedTx :=
  let v (i : Nat) (own other : Option LaneTx) := if k.getLsbD i then other else own
  { tx with
    v1 := { a := v 0 tx.v1.a tx.v2.a, b := v 1 tx.v1.b tx.v2.b, c := v 2 tx.v1.c tx.v2.c }
    v2 := { a := v 3 tx.v2.a tx.v1.a, b := v 4 tx.v2.b tx.v1.b, c := v 5 tx.v2.c tx.v1.c } }

/-- The held transactions voted again: a second V1/V2 difference is a vital fault (R194, R195). -/
def voteAgain : List VotedTx → List (BitVec 6) → State → State
  | [], _, s => s
  | h :: t, ks, s =>
    let tx := reView (ks.headD 0) h
    let lit := litLanes s
    if judge lit tx.v1 ≠ judge lit tx.v2 then vitalFault .restartCheck 0 s
    else
      let s := votedTx tx s
      if s.prg.mode == .halted then s else voteAgain t (ks.drop 1) s

/-- Injection numbers of the lit lanes, in order (R199, R200). -/
def litInjections (s : State) : List Nat := ((litLanes s).map injectionsOf).flatten

/-- The voter pair after its restart: ember and journal restored, injections, the held transactions (R194, R195, R200). -/
def voterRestored (r : RestartIn) (s : State) : State :=
  let s := voterRestore s
  let inj := litInjections s
  let missed := injMisses inj r.missed.toNat
  let s := injResult inj missed s
  if missed != 0 then vitalFault .injectionMissed 0 s
  else if s.cfg.split then s
  else voteAgain s.tri.held r.again { s with tri.held := [] }

/-- The complement of the P words of `[lo, hi)` at distance `off`. -/
def memInvert (off : Nat) : List Host.Cell → List Host.Cell → List Host.Cell
  | [], m => m
  | (a, v) :: t, m => memInvert off t (memSet (a + off) (~~~v) m)

/-- An N table restored as the complement of its P table (R121). -/
def restoreN (lo off : Nat) (m : List Host.Cell) : List Host.Cell :=
  memInvert off (memSlice lo (lo + off) m) (memErase (lo + off) (lo + 2 * off) m)

/-- A word of the lattice's dynamic tables. -/
def latDynamic (a : Nat) : Bool := 0x100400000 ≤ a && a < 0x100498000

/-- The lattice pair after its restart: the newest snapshot and its journal restored into P and, complemented, into N; the item that was discarded stands at its queue's head again, and a timer step that fell inside the restart follows (R105, R121). -/
def latticeRestored (s : State) : State :=
  let p := match s.lat.snaps with | x :: _ => restoreTables x s.lat.journal s.mem | [] => s.mem
  let s := { s with
    mem := restoreN 0x100490000 0x4000 (restoreN 0x100480000 0x8000 (restoreN 0x100400000 0x40000 p))
    vm.codeErr := s.vm.codeErr.filter (fun e => !(latDynamic e.1)) }
  if s.lat.stepDue then timerStep { disagree := false } { s with lat.stepDue := false } else s

/-- Crossings lost at a pin: counted, and the next record carries `MERGED` (R393). -/
def crossingsLost : List (Fin 32 × Nat) → State → State
  | [], s => s
  | (n, k) :: t, s =>
    crossingsLost t (if k = 0 then s else addRf 0x0D0510 0 32 k (modPin n.val (fun p => { p with merged := true }) s))

/-- The crossings not yet recorded become records with their original stamps (R394). -/
def crossingsKept : List (Fin 32 × Bool × Word) → State → State
  | [], s => s
  | (n, rising, st) :: t, s =>
    let merged := (pin n.val s).merged
    let s := modPin n.val (fun p => { p with merged := false, edgeNo := p.edgeNo + 1 }) s
    crossingsKept t (inputRecord n.val rising false merged st.toNat 0 s)

/-- Tests swallowed by the restart start at its end (R383, R394). -/
def swallowedTests (s : State) : State :=
  allPins.foldl (fun s n =>
    if (pin n s).swallowed then
      (if testsAllowed (n / 8) s then startTest n s else modPin n (fun p => { p with swallowed := false }) s)
    else s) s

/-- The field sequencer after its restart: pins read, records written, what fell inside it carried out (R394). -/
def fieldRestored (r : RestartIn) (s : State) : State :=
  let s := fieldRestore s
  let s := { s with fio.pins := s.fio.pins.map (fun p => { p with msgAt := s.clk.up }) }
  let s := crossingsKept r.crossings (crossingsLost r.lost s)
  let p := s.fio.permitDue
  let s := { s with fio.permitDue := false }
  let s := if p then permitFollow s else s
  swallowedTests s

/-- The unit runs again. -/
def clearRestart (u : DuplexUnit) (s : State) : State :=
  match u with
  | .voter => { s with tri.voter.restart := none }
  | .lattice => { s with tri.lattice.restart := none }
  | .field => { s with tri.field.restart := none }

/-- The hold window of R24 is over: more than 200 µs since the first disagreement. -/
def holdOver (s : State) : Bool := match s.tri.hold with | some t => decide (usUp 200 < s.clk.up - t) | none => false

/-- An apply that fell inside the restarts is carried out at their end (R23, R194, R394). -/
def heldApply (s : State) : State := if s.fio.applyDue then sequencerApply { s with fio.applyDue := false } else s

/-- The last unit is done: what outputs held is applied, the lanes are released, every release has its deadline moved by the stall, and the releases that an abandoned relight held are made (R23, R24, R149, R180). -/
def releaseLanes (s : State) : State :=
  if anyRestart s then s
  else
    let s := heldApply s
    let d := match s.tri.stallFrom with | some t => (s.clk.up - t) * 16384000 / (100 * cycleUs s) | none => 0
    let s := { s with tri.hold := none, tri.stallFrom := none, prg.active := s.prg.active.map (fun x => { x with deadline := x.deadline.map (· + d) }) }
    if allLanes.any (fun l => (lane l s).st == .relighting) then s else relightEnd s

/-- A restart ends (R24, R122, R195, R395). -/
def restartDone (r : RestartIn) (s : State) : State :=
  if (duplex r.unit s).restart.isNone then s
  else if holdOver s then vitalFault .holdWindow 0 s
  else if !r.restored || (r.unit != .voter && r.missed != 0#24) then vitalFault .restartCheck 0 s
  else
    let s := clearRestart r.unit s
    let s := match r.unit with
      | .voter => voterRestored r s
      | .lattice => latticeRestored s
      | .field => fieldRestored r s
    releaseLanes s

/-- RESTART_COMPLETE. -/
def execRestartComplete (dt : Nat) (r : RestartIn) (s : State) : Host.Outcome State Fault Refusal :=
  let s := begin' dt s
  .next (if powered s then restartDone r s else s)

/-- HOLD_WINDOW_EXPIRY: a restart is not complete when the window ends (R24, R122, R195, R395). -/
def execHoldWindowExpiry (dt : Nat) (s : State) : Host.Outcome State Fault Refusal :=
  let s := begin' dt s
  .next (match s.tri.hold with
    | some t => if powered s && anyRestart s && decide (usUp 200 ≤ s.clk.up - t) then { vitalFault .holdWindow 0 s with tri.hold := none } else s
    | none => s)

end Sys2Proof.Machine
end

