-- ==== Sys2Proof/Machine/Convert.lean ====
section
/-! DEFINITION. Preparation and the exchange cycle, with the conversion blocks that they run (R244 to R248, R255 to R262), and what rests on them: activations, rollback, the standby's commit (R264, R266, R469 to R472). -/

namespace Sys2Proof.Machine

/-! ### Conversion blocks (R243, R244, R257) -/

/-- A 64-bit instruction word taken apart (R125). -/
def wordInstr (w : Nat) : VInstr :=
  { ty := BitVec.ofNat 4 (bits w 8 4), sub := BitVec.ofNat 4 (bits w 12 4), dst := BitVec.ofNat 16 (bits w 16 16)
    src1 := BitVec.ofNat 16 (bits w 32 16), src2 := BitVec.ofNat 16 (bits w 48 16), laneB := false }

/-- What an instruction word does (R125, R128, R130). -/
def wordMeaning (wd : Nat) (s : State) : Ev :=
  let opc := bits wd 0 8
  let w := wordInstr wd
  let ty := w.ty.toNat
  let s := advance false s
  if 8 ≤ ty ∨ subCount opc ≤ w.sub.toNat then .trap .opc s
  else if opc = 0x29 then doRdreg w false s
  else if opc = 0x2A then doWrreg w false s
  else vOp opc w {} false ty s

/-- How a conversion block ends. -/
inductive ConvEnd where
  | done
  /-- A trap, with its code (R257). -/
  | trapped (code : Nat)
  /-- It does not return within the time that reconversion may take (R257). -/
  | late
  deriving DecidableEq, Repr

/-- Code slot that holds the conversion blocks: that of the new image, in a rollback that of the image being left (R244, R266). -/
def convSlot (s : State) : Nat := if s.upd.act == .rollback then s.vm.activeSlot else s.xch.target

/-- Address of the next instruction word of the block that runs, in the active code slot (R125, R460). -/
def codeWord (s : State) : Nat :=
  let base := s.vm.activeSlot * 0x02000000
  let f := frameOf false s
  let (_, z, t) := secTable base 0x0201 s.mem
  secStart base 0x0201 s.mem + memNat (t + z * f.block) 4 s.mem + 8 * f.pc

/-- Up to `n` instructions of a conversion block, to the RET of its first frame (R128, R257). A TRAP instruction traps with the value it writes. -/
def convRun : Nat → State → ConvEnd × State
  | 0, s => (.late, s)
  | n + 1, s =>
    let (s, wd) := laneRead (codeWord s) s
    let opc := bits wd 0 8
    if opc = 0x25 ∧ (ctx false s).frames.length ≤ 1 then (.done, s)
    else if opc = 0x2F then
      match opRead false 2 (wordInstr wd).src1 0 s with
      | .ok s v => (.trapped v, s)
      | .trap c s => (.trapped (Config.trapCode c).toNat, s)
    else
      match wordMeaning wd s with
      | .ok s _ => if s.prg.mode == .halted then (.done, s) else convRun n s
      | .trap c s => (.trapped (Config.trapCode c).toNat, s)

/-- Instructions that a lane can carry out in the 1,610 µs of reconversion at 1.2 GHz, one a clock (R170, R256). -/
def convSteps : Nat := 1610 * 1200

/-- The context of a conversion block: INST is the new instance, scratch register 5 holds the address of the old one (R257). -/
def convRelease (w : ConvWork) (s : State) : Release :=
  let lo := 0x04000000 + w.newOff
  { task := 0xFF, stamp := now s, trigStamp := now s, img := s.prg.img
    frames := [{ block := w.entry.block, pc := 0, base := lo }]
    conv := some { old := 0x04000000 + w.oldOff, lo := lo, hi := lo + 8 * w.slots } }

/-- While a conversion block runs, its code slot is the one executed and the prepared map the one that translates; the old map stands in its place (R243, R257). -/
def convEnter (w : ConvWork) (s : State) : State :=
  { s with vm.mapActive := s.vm.mapNew, vm.mapNew := s.vm.mapActive, vm.activeSlot := convSlot s, prg.active := convRelease w s :: s.prg.active }

/-- Slot, maps and releases are again those of `old`. -/
def convLeave (old s : State) : State :=
  { s with
    vm.mapActive := old.vm.mapActive, vm.mapNew := if s.xch.st == .idle then [] else old.vm.mapNew, vm.activeSlot := old.vm.activeSlot
    prg.active := s.prg.active.filter (fun r => r.conv.isNone) }

/-- Address of slot `n` of an instance under a map. -/
def slotUnder (map : List (Nat × Nat)) (off n : Nat) : Nat := granule map (0x04000000 + off + 8 * n)

/-- One conversion: header, preserved slots copied unchanged, then the conversion block (R244, R261, R262). -/
def convertOne (p : ProgImage) (w : ConvWork) (s : State) : ConvEnd × State :=
  let s := match p.insts.find? (fun i => i.path == w.path) with
    | some i => putMapped s.vm.mapNew w.newOff (instHeader i false true) s
    | none => s
  let s := w.entry.preserve.foldl (fun s x =>
    freshStore (slotUnder s.vm.mapNew w.newOff x.2) (memRead (slotUnder s.vm.mapActive w.oldOff x.1) 8 s.mem) s) s
  let r := convRun convSteps (convEnter w s)
  (r.1, convLeave s r.2)

/-- Conversions in the order of the list, up to the first that does not end well; with it the block that ran. -/
def convertList (p : ProgImage) : List ConvWork → State → (ConvEnd × Nat) × State
  | [], s => ((.done, 0), s)
  | w :: t, s =>
    match convertOne p w s with
    | (.done, s) => if s.prg.mode == .halted then ((.done, 0), s) else convertList p t s
    | (.trapped c, s) => ((.trapped c, w.entry.block), s)
    | (.late, s) => ((.late, w.entry.block), s)

/-- A trap in a conversion block: a TRAP record that names no task, and the exchange is aborted (R151, R257). -/
def convTrap (code block : Nat) (s : State) : State := xchStop 0x11 block (trapRecord 0x4402 none code s)

/-! ### Preparation (R244 to R248) -/

/-- Initial values and headers of the retyped and new instances, in their fresh granules (R247, R262). -/
def writeFresh (map : List (Nat × Nat)) (l : List (InstEntry × InstKind)) (s : State) : State :=
  l.foldl (fun s x => match x.2 with
    | .retyped => putMapped map x.1.off (instFresh x.1 true true) s
    | .fresh => putMapped map x.1.off (instFresh x.1 true true) s
    | _ => s) s

/-- Preparation for the image `p`: refusals of R246, prepared map, initial values, and every converted instance pre-converted from its live old state. A write since matching began has left its instance dirty (R244 to R248). -/
def prepare (p : ProgImage) (s : State) : State :=
  let l := matched p s
  let work := s.xch.work
  let map := preparedMap l s
  if prepReason work l s ≠ 0 then xchReject (prepReason work l s) 0 s
  else
    let t := writeFresh map l { s with
      vm.mapNew := map
      xch.retyped := kindIdx InstKind.isRetyped l, xch.fresh := kindIdx InstKind.isFresh l, xch.remapped := kindIdx InstKind.isRemapped l
      xch.dropped := droppedIdx p s, xch.globReset := globalsReset p s }
    match convertList p work t with
    | ((.trapped c, b), t) => convTrap c b t
    | ((.late, _), _) => s
    | ((.done, _), t) =>
      if t.prg.mode == .halted then t
      else
        let t := setRv 0x070028 t.xch.dropped.length (setRv 0x070024 t.xch.fresh.length (setRv 0x070020 t.xch.retyped.length
          (setRv 0x07001C work.length (setRv 0x070018 t.xch.remapped.length { t with xch.st := .ready }))))
        setRf 0x070010 16 7 100 (setRv 0x070030 (work.foldl (fun n w => n + w.entry.convUs100) 0 / 100) (setRv 0x07002C (work.foldl (fun n w => n + 8 * w.slots) 0) t))

/-- PREPARATION_COMPLETE. A conversion block that never returns leaves preparation under way. -/
def execPreparationComplete (dt : Nat) (s : State) : Host.Outcome State Fault Refusal :=
  let s := begin' dt s
  .next (if s.xch.st == .preparing then (match s.xch.image with | some p => prepare p s | none => s) else s)

/-! ### The exchange cycle (R256 to R262) -/

/-- The header that an instance of the new directory must show in the check pass; none for remapped ones (R256, R262). -/
def expectedHeader (j : Nat) (i : InstEntry) (s : State) : Option (List Byte) :=
  if s.xch.retyped.contains j || s.xch.fresh.contains j then some (instHeader i true true)
  else if s.xch.remapped.contains j then none
  else some (instHeader i false true)

/-- Index of the first instance whose header differs (R257). -/
def headerBad (p : ProgImage) (s : State) : Option Nat :=
  ((p.insts.zipIdx).find? (fun x => match expectedHeader x.2 x.1 s with
    | some h => memRead (slotUnder s.vm.mapNew x.1.off 0) 16 s.mem != h
    | none => false)).map (fun x => x.2)

/-- A converted granule whose copies are no complements (R133, R257). -/
def notComplements (s : State) : Bool :=
  s.xch.work.any (fun w => (List.range ((8 * w.slots + 63) / 64)).any (fun k =>
    let a := granule s.vm.mapNew (0x04000000 + w.newOff + 64 * k)
    memRead (a + invOffset) 64 s.mem != (memRead a 64 s.mem).map (fun b => ~~~b)))

/-- Limits of reconversion and check pass in µs (R257, R470). -/
def reconvLimit (fw : Bool) : Nat := if fw then 1410 else 1610
def checkLimit (fw : Bool) : Nat := if fw then 1600 else 1800

/-- `NEW` of a remapped instance becomes 0 (R262). -/
def clearNew (p : ProgImage) (s : State) : State :=
  s.xch.remapped.foldl (fun s j =>
    match p.insts[j]? with
    | some i =>
      let a := slotUnder s.vm.mapNew i.off 1
      { s with mem := storeBytes a (leBytes 8 (setBits (memNat a 8 s.mem) 1 1 0)) s.mem }
    | none => s) s

/-- Initial values of the global slots whose type changes (R245). -/
def resetGlobals (p : ProgImage) (s : State) : State :=
  s.xch.globReset.foldl (fun s g => { s with mem := storeBytes (0x07000000 + 8 * g) (leBytes 8 (p.globals.getD g (0, 0)).2) s.mem }) s

/-- Entries of the XCHG_DONE lists: kind in the high byte, index below (the layout is the model's own). -/
def doneEntries (s : State) : List (Nat × Nat) :=
  (s.xch.retyped.map (fun i => (4, 0x01000000 + i))) ++ (s.xch.fresh.map (fun i => (4, 0x02000000 + i)))
    ++ (s.xch.dropped.map (fun i => (4, 0x03000000 + i))) ++ (s.xch.globReset.map (fun i => (4, 0x04000000 + i)))

/-- XCHG_DONE of the instant `st`: sequences, one count per kind, the lists; as many records as the lists need (R262). -/
def doneRecords (st old new : Nat) (s : State) : State :=
  let e := doneEntries s
  let head := [(4, old), (4, new), (4, s.xch.remapped.length), (4, s.xch.work.length), (4, s.xch.retyped.length), (4, s.xch.fresh.length), (4, s.xch.dropped.length)]
  let s := emitAt st 0x4701 (packFields (head ++ e.take 200)) s
  (chunks 200 (e.length / 200) (e.drop 200)).foldl (fun s l => emitAt st 0x4701 (packFields (head ++ l)) s) s

/-- Hot sections of the new configuration take effect with a handover (R470). -/
def takeHot (s : State) : State :=
  if s.xch.forActivation && bit s.upd.kinds 1 then (let c := xchCfg s; { s with cfg := c, prg.cpNext := c.tasks.cps }) else s

/-- Banks of the slots that an exchange or handover activates (R466, R468). -/
def activatedBanks (s : State) : Nat :=
  if s.xch.forActivation then (match selector s with | some x => 7 - bits x.sel 0 3 | none => 0) else 4 * s.xch.srcBank

/-- With a new firmware the duplex units restart from their embers, in parallel (R24, R470). -/
def unitsRestart (s : State) : State :=
  let s := addRf 0x020004 16 16 1 (cnt 0x060020 (cnt 0x0D0514 { s with tri.voter.used := true, tri.lattice.used := true, tri.field.used := true }))
  fieldRestore (latticeRestored (voterRestore s))

/-- The commit: map, code slot, header flags, globals, selector (R245, R256, R258, R262, R468, R470). -/
def xchCommit (p : ProgImage) (s : State) : State :=
  let s := resetGlobals p (clearNew p s)
  let kinds := if s.xch.forActivation then s.upd.kinds else 4
  let method := if s.xch.forActivation then s.upd.method else 1
  let banks := activatedBanks s
  let s := takeHot s
  let s := if kinds % 2 = 1 then unitsRestart s else s
  let s := if s.upd.act == .rollback then rollbackSelect s else trialSelect kinds banks method s
  { s with vm.mapActive := s.vm.mapNew, vm.mapNew := [], vm.activeSlot := s.xch.target, xch.st := .committed, xch.tracking := false }

/-- The releases made as the lanes resume carry that instant (R256, R259). -/
def restamp (x : Nat) (s : State) : State :=
  { s with
    prg.active := s.prg.active.map (fun r => { r with stamp := unlin x, trigStamp := if r.task < 16 ∨ r.task = 48 then unlin x else r.trigStamp })
    prg.tasks := s.prg.tasks.map (fun t => if t.lastRelease = some (now s) then { t with lastRelease := some (unlin x) } else t) }

/-- The lanes resume on the new program at the instant `resumeAt`: until then they rest (R256, R259). -/
def xchResume (s : State) : State :=
  let at' := max (nowLin s) s.xch.resumeAt
  let held := s.xch.heldTrig
  let old := rv 0x070040 s
  let new := rv 0x070044 s
  let s := doneRecords (unlin at') old new s
  let s := setRf 0x07003C 16 8 (sat 255 s.xch.skipped) (setRf 0x070010 6 1 1 (setRv 0x070040 new s))
  let s := xchDiscard { s with xch.skipped := 0 }
  let s := held.foldl resumeTrigger s
  restamp at' (if s.prg.mode == .free then releaseFree false s else s)

/-- The instant at which the lanes resume lies in the present cycle: what follows from it is settled now. -/
def resumeIfDue (s : State) : State :=
  if s.xch.st == .committed && decide (s.xch.resumeAt < cycleLin (s.clk.cycle + 1)) then xchResume s else s

/-- The exchange cycle at the quiet point: the frozen dirty list reconverted, check pass, commit, or an abort (R249, R256, R257). -/
def exchangeCycle (p : ProgImage) (q : QuietIn) (s : State) : State :=
  let s := setRf 0x070048 0 24 (linUs s (nowLin s - s.xch.windowAt)) { s with xch.st := .exchanging, xch.tracking := false }
  let fw := s.xch.forActivation && bit s.upd.kinds 0
  if reconvLimit fw + q.stallUs < q.reconvUs then xchStop 0x12 0 s
  else
    match convertList p (s.xch.work.filter isDirty) s with
    | ((.trapped c, b), s) => convTrap c b s
    | ((.late, _), s) => xchStop 0x12 0 s
    | ((.done, _), s) =>
      if s.prg.mode == .halted then s
      else if checkLimit fw + q.stallUs < q.checkUs then xchStop 0x12 0 s
      else
        match headerBad p s with
        | some j => xchStop 0x13 j s
        | none =>
          if notComplements s then vitalFault .notComplement 0 s
          else
            let (f, s) := takeFree s
            let us := q.checkUs + f.toNat % (2001 + q.stallUs - q.checkUs)
            let s := setRf 0x07003C 0 11 (sat 2047 us) (xchCommit p s)
            resumeIfDue { s with xch.resumeAt := nowLin s + usLin s us }

/-- No release runs (R254). -/
def quiet (s : State) : Bool := s.xch.st == .draining && s.prg.active.isEmpty

/-- QUIET_POINT. -/
def execQuietPoint (dt : Nat) (q : QuietIn) (s : State) : Host.Outcome State Fault Refusal :=
  let s := begin' dt s
  .next (if lanesRun s && quiet s then (match s.xch.image with | some p => exchangeCycle p q s | none => s) else s)

/-! ### Activations (R469 to R472) -/

/-- The stages of the exchange that remain (R238, R469). -/
def finishStages (s : State) : State :=
  let s := if s.xch.st == .loading then
      setRv 0x070044 (hSeq (imgHeader (slotAddr s.xch.srcBank 3) s.mem)) (loadCode s.xch.target s.xch.srcBank { s with xch.st := .checking })
    else s
  let s := if s.xch.st == .checking then
      let r := progReason s.xch.srcBank (xchCfg s) s
      if r.1 = 0 then startPreparing s else xchReject r.1 r.2 s
    else s
  if s.xch.st == .preparing then (match s.xch.image with | some p => prepare p s | none => s) else s

/-- PREPARE_DONE: READY, or refused where a stage fails (R469). -/
def prepareDone (s : State) : State :=
  if s.upd.method = 3 then { s with upd.act := .ready }
  else
    let s := finishStages s
    if s.xch.st == .ready then { s with upd.act := .ready } else updRefuse 0x26 { s with upd.act := .idle }

/-- PREPARE_DONE. -/
def execPrepareDone (dt : Nat) (s : State) : Host.Outcome State Fault Refusal :=
  let s := begin' dt s
  .next (if lanesRun s && s.upd.act == .preparing then prepareDone s else s)

/-- The armed boundary of an activation (R468, R470, R471, R472). -/
def activate (q : QuietIn) (s : State) : State :=
  if s.upd.act == .armed && s.upd.method == 3 then restartActivation s
  else
    let s := if windowDue s then openWindow s else s
    if quiet s then (match s.xch.image with | some p => exchangeCycle p q s | none => s) else s

/-- ACTIVATION. -/
def execActivation (dt : Nat) (q : QuietIn) (s : State) : Host.Outcome State Fault Refusal :=
  let s := begin' dt s
  .next (if lanesRun s && activationDue s then activate q s else s)

/-- The prepared rollback is armed under the rules of R250 to R252; a force on a point whose writer changes refuses it, and it is tried again (R251, R252, R266). -/
def armRollback (s : State) : State :=
  let r := armReason s.upd.target true s
  if r.1 = 0 then xchArm s.upd.target true s else xchDiscard (xchRefuse r.1 r.2 s)

/-- The rollback by the same method: an armed exchange is disarmed, the previous program is prepared and armed for the next major-cycle boundary (R266, R472). -/
def startRollback (s : State) : State :=
  let s := if s.xch.st == .idle then s else xchDisarm s
  let x := selOr s
  let t := 1 - s.vm.activeSlot
  let bank := selBank x.prev 3
  let here := if t = 0 then s.vm.valid0 && s.vm.bank0 == bank else s.vm.valid1 && s.vm.bank1 == bank
  let s := { s with upd.act := .rollback, upd.target := nextMajor s }
  let s := { s with xch.srcBank := bank, xch.target := t, xch.forActivation := true, xch.st := .loading }
  let s := if here then startPreparing (setRv 0x070044 (match targetProg s with | some p => p.seq | none => 0) s) else s
  let s := finishStages s
  if s.xch.st == .ready then armRollback s else trialFallback s

/-- CONFIRM_TIMEOUT (R472). -/
def confirmTimeout (s : State) : State :=
  if s.prg.mode == .normal && (s.upd.method == 1 || s.upd.method == 2) then startRollback s else trialFallback s

/-- CONFIRM_TIMEOUT. -/
def execConfirmTimeout (dt : Nat) (s : State) : Host.Outcome State Fault Refusal :=
  let s := begin' dt s
  .next (if (s.pwr.phase == .running || s.pwr.phase == .noConfig) && s.upd.act == .trial && inTrial s && confirmOver s then confirmTimeout s else s)

/-! ### The standby's commit (R264) -/

/-- What stream 2 has buffered makes no further instance dirty: the standby's dirty list is the active member's as far as the streams can tell (R264). -/
def dirtyMatches (s : State) : Bool :=
  (s.lnk.ramBuf.foldl (fun s x => trackWrite x.1 x.2.length s) s).xch.work.map isDirty == s.xch.work.map isDirty

/-- The standby commits with the active member: its dirty instances reconverted, new map, code slot and selector (R264). -/
def standbyCommit (cycle : Nat) (s : State) : State :=
  match (if commitReady cycle s && dirtyMatches s then s.xch.image else none) with
  | some p =>
    match convertList p (s.xch.work.filter isDirty) { s with xch.st := .exchanging, xch.tracking := false, xch.heldTrig := [], xch.window := false } with
    | ((.done, _), s) => if s.prg.mode == .halted then s else xchResume (xchCommit p s)
    | ((.trapped _, _), s) => toUnsynced (xchAbort 0x11 0 s)
    | ((.late, _), s) => toUnsynced (xchAbort 0x11 0 s)
  | none => toUnsynced s

/-- COMMIT. -/
def execCommitMark (dt : Nat) (m : MirrorMsg) (s : State) : Host.Outcome State Fault Refusal :=
  .next (immediateMsg 0x13 m (standbyCommit (fieldAt m.body 0 8)) (begin' dt s))

end Sys2Proof.Machine
end

