-- ==== Sys2Proof/Machine/Cycle.lean ====
section
/-! DEFINITION. The minor-cycle and major-cycle boundaries and the relight (R20 to R25, R105, R138, R150, R165 to R168, R183 to R185, R259, R319, R404). -/

namespace Sys2Proof.Machine

/-! ### The relight (R183 to R186) -/

/-- The relit lane is in the vote: history, duration, record (R180, R184, R186). -/
def relit (l : LaneId) (s : State) : State :=
  let x := lane l s
  let us := linUs s (nowLin s - lin x.dimAt)
  let h := if x.fromAttached then x.hist else (x.hist ++ [now s]).drop (x.hist.length - 1)
  let s := stat (0x80 + 4 * relightBin us) 1 s
  let s := modLane l (fun x => { x with
    hist := h, relights := sat 0xFFFF (x.relights + 1), lastRelight := some s.clk.cycle, fromAttached := false }) (laneTo l .lit (voterLog (.relit l h) s))
  laneRecord 0x4102 l 0 s

/-- Voted writes of 64 B that carry the 4,096 B of architectural state to the relight buffer (R184). -/
def bufferWrites : Nat := 64

/-- The steps of the pause before the release point: caches written back and invalidated, the state copied, delays loaded, the eight injections (R184, R200). -/
def relightPause (r : RelightIn) (s : State) : State × Nat :=
  let s := loadDelays r.lane (seqMany bufferWrites (cacheFlush s))
  let inj := injectionsOf r.lane
  let broken := (List.range 8).foldl (fun m i => m + 2 ^ (inj.getD i 0) * b2n (bit r.missed.toNat i)) 0
  let missed := injMisses inj broken
  (injResult inj missed s, missed)

/-- In split mode a lane that was attached comes back without vote, injection or beat: R205 has none (R212, R216). -/
def splitRelight (l : LaneId) (s : State) : State := relit l (loadDelays l s)

/-- RELIGHT: the timeline of R184 ends with the lane back in the vote and its forced beat voted with the others', or retired, or READY again (R180). -/
def execRelight (dt : Nat) (r : RelightIn) (s : State) : Host.Outcome State Fault Refusal :=
  let s := begin' dt s
  .next (
    if !(lanesRun s) || (lane r.lane s).st != .relighting then s
    else if s.cfg.split then relightEnd (splitRelight r.lane s)
    else
      match r.disagree with
      | some u => unitDisagrees u s
      | none =>
        let (s, missed) := relightPause r s
        relightEnd (if missed != 0 then retireLane r.lane 8 s else beatTx r.beat (relit r.lane s)))

/-- The first READY lane. -/
def readyLane (s : State) : Option LaneId := allLanes.find? (fun l => (lane l s).st == .ready)

/-- A boundary at which a relight may run (R183). -/
def relightBoundary (s : State) : Bool :=
  lanesRun s && !(anyRestart s) && !(windowDue s) && !s.xch.window && s.xch.st != .committed
    && !(s.upd.act == .armed && decide (s.upd.target ≤ s.clk.cycle)) && !(takeoverDue s)

/-- A pending relight starts: the pair is paused, and the releases of this boundary wait (R22, R183, R184). -/
def startRelight (s : State) : State :=
  match readyLane s with
  | some l => if relightBoundary s then { laneTo l .relighting s with prg.releaseHeld := true } else s
  | none => s

/-! ### The steps of a minor-cycle boundary (R22, R23) -/

/-- The rest of the cycle passes; the cycle count rises, a provisional one to at most 0xFFFF_FFFF (R20, R311, R315). -/
def cycleOn (s : State) : State :=
  let s := begin' (cycleTicks s - s.clk.pos) s
  { s with
    clk.pos := 0
    clk.cycle := if s.clk.prov then min (s.clk.cycle + 1) 0xFFFFFFFF else (s.clk.cycle + 1) % 2 ^ 40 }

/-- Unused time of the cycle that ended, with its shortfall below the reserve (R150, R259, R511). -/
def cycleUse (s : State) : State :=
  let unused := cycleUs s - s.prg.usedTicks / 100
  let counted := inNormal s && !s.xch.window && s.xch.st != .committed
  let s := setRf 0x040040 0 14 unused { s with prg.usedTicks := 0 }
  let s := if counted then setRf 0x040040 16 14 (min unused (rf 0x040040 16 14 s)) s else s
  if counted && decide (unused < s.cfg.tasks.reserveUs) then emit 0x8404 [(1, 0xFF), (4, unused)] (cnt 0x04003C s) else s

/-- A compare point of the cycle that ends which has not fired: its macrotick fell within a stall, or was its last one and skipped (R143). -/
def cpLeft (s : State) (n : Nat) : Bool :=
  inNormal s && (s.prg.cpLate.getD n false || (decide (s.prg.cps.getD n 0xFFFF < cycleUs s) && !(s.prg.cpFired.getD n false)))

/-- What recurs each cycle is due again (R143 to R145). -/
def cycleFlags (s : State) : State :=
  { s with
    prg.frozen := false, prg.appliedNow := false, prg.cps := s.prg.cpNext, prg.cpFired := List.replicate 8 false
    prg.cpLate := (List.range 8).map (cpLeft s) }

/-- LATTICE_TIMER_STEP: on a standby the lattice follows its partner's journal (R57, R105); an engine pair in restart steps at its end. -/
def latticeStep (u : EngineIn) (s : State) : State :=
  if s.pwr.phase != .running || isStandby s then s
  else if s.tri.lattice.restart.isSome then { s with lat.stepDue := true }
  else timerStep u s

/-- Position 0: outputs applied, inputs frozen where their positions are 0 (R22, R23, R144, R145). -/
def cycleImages (disagree : Bool) (s : State) : State :=
  if s.pwr.phase == .running then
    let s := if s.cfg.tasks.outApply = 0 then applyOutputs disagree s else s
    if s.cfg.tasks.inFreeze = 0 then freezeInputs s else s
  else s

/-- The boundary mark of the active member, and what a standby has heard of it (R49, R51). -/
def pairBoundary (s : State) : State :=
  let s := mirror 6 2 (leBytes 8 s.clk.cycle) (mirrorReserved s)
  { s with lnk.missedCycle := s.lnk.pair == .synced && !s.lnk.markThis && !s.lnk.heardPair, lnk.markThis := false, lnk.heardPair := false }

/-- Tests, closing of groups, and the force indication (R166, R404, R406). -/
def cycleField (s : State) : State :=
  let s := closingSequence (testPeriod (seenBands (openLoads s)))
  { s with frc.ind := !s.frc.table.isEmpty }

/-- An exchange that has committed lets the lanes resume where the instant lies in this cycle (R256, R259). -/
def cycleReleases (s : State) : State :=
  let s := if normalDue s then enterNormal s else s
  let s := startRelight s
  let s := if s.prg.releaseHeld then s else dueReleases s
  resumeIfDue s

/-- The boundary of a module that has started (R22, R23). -/
def boundary (b : BoundaryIn) (s : State) : State :=
  let s := busBoundary b.skew (cycleUse s)
  let s := b.restarts.foldl (fun s r => restartDone r s) (cycleFlags s)
  let s := latticeStep b.engine (embers (closeAged s))
  let s := cycleField (cycleImages b.field s)
  let s := if isStandby s then s else borderFrames s
  cycleReleases (pairBoundary s)

/-- MINOR_CYCLE_BOUNDARY. -/
def execMinorCycleBoundary (b : BoundaryIn) (s : State) : Host.Outcome State Fault Refusal :=
  .next (if powered s then
      let s := cycleOn s
      if s.pwr.phase == .running || s.pwr.phase == .noConfig || s.pwr.phase == .expired then boundary b s else s
    else begin' 0 s)

/-! ### The major-cycle boundary (R51, R146, R168, R319) -/

/-- The major cycle that ended counts: NORMAL began before it and before the one preceding it, and no exchange boundary began it (R168, R259). -/
def readbackCounts (s : State) : Bool :=
  let ended := s.clk.cycle / 1000 - 1
  inNormal s && !(isStandby s)
    && (match s.prg.normalAt with | some n => decide (n / 1000 + 2 ≤ ended) | none => false)
    && (match s.xch.exemptMajor with | some x => x / 1000 != ended | none => true)

/-- Fewer entries checked than the list holds: a vital fault on the path of R151; then the count is cleared (R168, R511). -/
def readbackCheck (s : State) : State :=
  let s := if readbackCounts s && decide (rf 0x040030 0 10 s < s.cfg.readback.length) then
      vitalFault .readback (rf 0x040030 0 10 s) (trapRecord 0x4402 (running false s) (Config.trapCode .readback).toNat s)
    else s
  setRv 0x040030 0 s

/-- A degraded active member with a synchronised partner hands over, then shuts down (R51). -/
def degradedHandover (s : State) : State :=
  if s.lnk.pair == .active && s.lnk.fencing && s.tri.retired.isSome then
    let s := mirror 0x12 1 (leBytes 8 (s.clk.cycle + 1)) s
    let s := shutdownSteps 3 3500 (forcesHalt (xchAbort 0x14 0 { s with lnk.pair := .unsynced, lnk.fencing := false }))
    { setMode .halted s.prg.cause s with pwr.phase := .expired, pwr.haltedSince := true }
  else s

/-- A standby whose streams both wait for their start asks again (R57). -/
def askAgain (s : State) : State := if s.lnk.pair == .unsynced && s.lnk.rx1 == 0 && s.lnk.rx2 == 0 then askSync s else s

/-- The boundary of a major cycle, once. -/
def majorBoundary (s : State) : State :=
  let s := readbackCheck { s with prg.majorAt := some s.clk.cycle }
  let s := writeAnchor 1 s
  let s := if s.prg.reqTest && s.prg.mode == .normal then enterFree .test s else s
  askAgain (degradedHandover s)

/-- MAJOR_CYCLE_BOUNDARY. -/
def execMajorCycleBoundary (dt : Nat) (s : State) : Host.Outcome State Fault Refusal :=
  let s := begin' dt s
  .next (if s.pwr.phase == .running && s.clk.cycle % 1000 == 0 && s.prg.majorAt != some s.clk.cycle then majorBoundary s else s)

end Sys2Proof.Machine
end

