-- ==== Sys2Proof/Machine/Dispatch.lean ====
section
/-! DEFINITION. One arm per command: a direct call of its meaning. -/

namespace Sys2Proof.Machine

/-- What a command does to everything but the queue. -/
def exec (i : Instr) (s : State) : Host.Outcome State Fault Refusal :=
  match i with
  | .powerUp dt p => Sys2Proof.Machine.execPowerUp dt p s
  | .nrstLow dt ns => Sys2Proof.Machine.execNrstLow dt ns s
  | .powerFailWarning dt mv1 mv2 holdUs => Sys2Proof.Machine.execPowerFailWarning dt mv1 mv2 holdUs s
  | .vinLoss dt => Sys2Proof.Machine.execVinLoss dt s
  | .rtcLost dt => Sys2Proof.Machine.execRtcLost dt s
  | .clockFault dt ppm stopped => Sys2Proof.Machine.execClockFault dt ppm stopped s
  | .minorCycleBoundary b => Sys2Proof.Machine.execMinorCycleBoundary b s
  | .majorCycleBoundary dt => Sys2Proof.Machine.execMajorCycleBoundary dt s
  | .inputFreeze dt => Sys2Proof.Machine.execInputFreeze dt s
  | .outputApply x => Sys2Proof.Machine.execOutputApply x s
  | .comparePoint dt n => Sys2Proof.Machine.execComparePoint dt n s
  | .votedTransaction dt tx => Sys2Proof.Machine.execVotedTransaction dt tx s
  | .signatureBeat dt tx => Sys2Proof.Machine.execSignatureBeat dt tx s
  | .laneTimeout dt tx => Sys2Proof.Machine.execLaneTimeout dt tx s
  | .laneMonitorTrip dt q m => Sys2Proof.Machine.execLaneMonitorTrip dt q m s
  | .selfTestDone dt l pass => Sys2Proof.Machine.execSelfTestDone dt l pass s
  | .relight dt r => Sys2Proof.Machine.execRelight dt r s
  | .restartComplete dt r => Sys2Proof.Machine.execRestartComplete dt r s
  | .holdWindowExpiry dt => Sys2Proof.Machine.execHoldWindowExpiry dt s
  | .degradedNotice dt => Sys2Proof.Machine.execDegradedNotice dt s
  | .degradedExpired dt => Sys2Proof.Machine.execDegradedExpired dt s
  | .debugAttach dt l => Sys2Proof.Machine.execDebugAttach dt l s
  | .debugDetach x => Sys2Proof.Machine.execDebugDetach x s
  | .debugHalt dt l => Sys2Proof.Machine.execDebugHalt dt l s
  | .debugAttachLimit dt => Sys2Proof.Machine.execDebugAttachLimit dt s
  | .debugDenied dt l act => Sys2Proof.Machine.execDebugDenied dt l act s
  | .vNop dt w => Sys2Proof.Machine.execVNop dt w s
  | .vMov dt w => Sys2Proof.Machine.execVMov dt w s
  | .vLdi dt w => Sys2Proof.Machine.execVLdi dt w s
  | .vLdx dt w => Sys2Proof.Machine.execVLdx dt w s
  | .vStx dt w => Sys2Proof.Machine.execVStx dt w s
  | .vCast dt w => Sys2Proof.Machine.execVCast dt w s
  | .vAdd dt w => Sys2Proof.Machine.execVAdd dt w s
  | .vSub dt w => Sys2Proof.Machine.execVSub dt w s
  | .vMul dt w => Sys2Proof.Machine.execVMul dt w s
  | .vDiv dt w => Sys2Proof.Machine.execVDiv dt w s
  | .vMod dt w => Sys2Proof.Machine.execVMod dt w s
  | .vNeg dt w => Sys2Proof.Machine.execVNeg dt w s
  | .vAbs dt w => Sys2Proof.Machine.execVAbs dt w s
  | .vMin dt w => Sys2Proof.Machine.execVMin dt w s
  | .vMax dt w => Sys2Proof.Machine.execVMax dt w s
  | .vLim dt w => Sys2Proof.Machine.execVLim dt w s
  | .vAnd dt w => Sys2Proof.Machine.execVAnd dt w s
  | .vOr dt w => Sys2Proof.Machine.execVOr dt w s
  | .vXor dt w => Sys2Proof.Machine.execVXor dt w s
  | .vNot dt w => Sys2Proof.Machine.execVNot dt w s
  | .vShl dt w => Sys2Proof.Machine.execVShl dt w s
  | .vShr dt w => Sys2Proof.Machine.execVShr dt w s
  | .vRol dt w => Sys2Proof.Machine.execVRol dt w s
  | .vRor dt w => Sys2Proof.Machine.execVRor dt w s
  | .vCeq dt w => Sys2Proof.Machine.execVCeq dt w s
  | .vCne dt w => Sys2Proof.Machine.execVCne dt w s
  | .vClt dt w => Sys2Proof.Machine.execVClt dt w s
  | .vCle dt w => Sys2Proof.Machine.execVCle dt w s
  | .vCgt dt w => Sys2Proof.Machine.execVCgt dt w s
  | .vCge dt w => Sys2Proof.Machine.execVCge dt w s
  | .vBtst dt w => Sys2Proof.Machine.execVBtst dt w s
  | .vBset dt w => Sys2Proof.Machine.execVBset dt w s
  | .vBclr dt w => Sys2Proof.Machine.execVBclr dt w s
  | .vJmp dt w => Sys2Proof.Machine.execVJmp dt w s
  | .vJt dt w => Sys2Proof.Machine.execVJt dt w s
  | .vJf dt w => Sys2Proof.Machine.execVJf dt w s
  | .vCall dt w => Sys2Proof.Machine.execVCall dt w s
  | .vRet dt w => Sys2Proof.Machine.execVRet dt w s
  | .vTstamp dt w => Sys2Proof.Machine.execVTstamp dt w s
  | .vPost dt x => Sys2Proof.Machine.execVPost dt x s
  | .vFetch dt x => Sys2Proof.Machine.execVFetch dt x s
  | .vRdreg dt w => Sys2Proof.Machine.execVRdreg dt w s
  | .vWrreg dt w => Sys2Proof.Machine.execVWrreg dt w s
  | .vTmr dt w => Sys2Proof.Machine.execVTmr dt w s
  | .vEdg dt w => Sys2Proof.Machine.execVEdg dt w s
  | .vFlt dt w => Sys2Proof.Machine.execVFlt dt w s
  | .vTokv dt w => Sys2Proof.Machine.execVTokv dt w s
  | .vTrap dt w => Sys2Proof.Machine.execVTrap dt w s
  | .sysTrip dt view data => Sys2Proof.Machine.execSysTrip dt view data s
  | .eventTaskRelease dt task => Sys2Proof.Machine.execEventTaskRelease dt task s
  | .taskOverrun dt task laneB => Sys2Proof.Machine.execTaskOverrun dt task laneB s
  | .reqNormal dt => Sys2Proof.Machine.execReqNormal dt s
  | .reqTest dt => Sys2Proof.Machine.execReqTest dt s
  | .verifiedEntryExpiry dt id => Sys2Proof.Machine.execVerifiedEntryExpiry dt id s
  | .forceSet dt => Sys2Proof.Machine.execForceSet dt s
  | .forceClear dt => Sys2Proof.Machine.execForceClear dt s
  | .forceClearAll dt => Sys2Proof.Machine.execForceClearAll dt s
  | .forceExpiry dt dir point => Sys2Proof.Machine.execForceExpiry dt dir point s
  | .scrubRead dt f => Sys2Proof.Machine.execScrubRead dt f s
  | .scrubPassLate dt => Sys2Proof.Machine.execScrubPassLate dt s
  | .injArm dt data => Sys2Proof.Machine.execInjArm dt data s
  | .xchgLoad dt bankB => Sys2Proof.Machine.execXchgLoad dt bankB s
  | .xchgLoadDone dt norOk => Sys2Proof.Machine.execXchgLoadDone dt norOk s
  | .xchgCheckDone dt => Sys2Proof.Machine.execXchgCheckDone dt s
  | .preparationComplete dt => Sys2Proof.Machine.execPreparationComplete dt s
  | .xchgArm dt => Sys2Proof.Machine.execXchgArm dt s
  | .xchgDisarm dt => Sys2Proof.Machine.execXchgDisarm dt s
  | .xchgWindow dt => Sys2Proof.Machine.execXchgWindow dt s
  | .quietPoint dt q => Sys2Proof.Machine.execQuietPoint dt q s
  | .sync dt f => Sys2Proof.Machine.execSync dt f s
  | .coldstart dt f => Sys2Proof.Machine.execColdstart dt f s
  | .vital dt f => Sys2Proof.Machine.execVital dt f s
  | .background dt f => Sys2Proof.Machine.execBackground dt f s
  | .null dt f => Sys2Proof.Machine.execNull dt f s
  | .delayReq dt f => Sys2Proof.Machine.execDelayReq dt f s
  | .delayResp dt f => Sys2Proof.Machine.execDelayResp dt f s
  | .linkDelayMeasure dt port => Sys2Proof.Machine.execLinkDelayMeasure dt port s
  | .portLinkUp dt port => Sys2Proof.Machine.execPortLinkUp dt port s
  | .txringTake dt slot => Sys2Proof.Machine.execTxringTake dt slot s
  | .slotStart dt slot => Sys2Proof.Machine.execSlotStart dt slot s
  | .vbusEnable dt data => Sys2Proof.Machine.execVbusEnable dt data s
  | .listenTimeout dt => Sys2Proof.Machine.execListenTimeout dt s
  | .backoffExpiry dt => Sys2Proof.Machine.execBackoffExpiry dt s
  | .lamplighterTakeover dt => Sys2Proof.Machine.execLamplighterTakeover dt s
  | .busLost dt => Sys2Proof.Machine.execBusLost dt s
  | .busSilence dt => Sys2Proof.Machine.execBusSilence dt s
  | .telegram dt t => Sys2Proof.Machine.execTelegram dt t s
  | .ethernetFrame dt f => Sys2Proof.Machine.execEthernetFrame dt f s
  | .telegramSealing dt ring => Sys2Proof.Machine.execTelegramSealing dt ring s
  | .create dt index => Sys2Proof.Machine.execCreate dt index s
  | .destroy dt handle => Sys2Proof.Machine.execDestroy dt handle s
  | .keyCommit dt slot => Sys2Proof.Machine.execKeyCommit dt slot s
  | .keyLock dt slot => Sys2Proof.Machine.execKeyLock dt slot s
  | .cvuFeed dt data => Sys2Proof.Machine.execCvuFeed dt data s
  | .linkRetrain dt l width => Sys2Proof.Machine.execLinkRetrain dt l width s
  | .latCommit dt m => Sys2Proof.Machine.execLatCommit dt m s
  | .channel dt m => Sys2Proof.Machine.execChannel dt m s
  | .force dt m => Sys2Proof.Machine.execForce dt m s
  | .command dt m => Sys2Proof.Machine.execCommand dt m s
  | .ramWrite dt m => Sys2Proof.Machine.execRamWrite dt m s
  | .boundary dt m => Sys2Proof.Machine.execBoundary dt m s
  | .solo dt m => Sys2Proof.Machine.execSolo dt m s
  | .safeStateMark dt m => Sys2Proof.Machine.execSafeStateMark dt m s
  | .handover dt m => Sys2Proof.Machine.execHandover dt m s
  | .commitMark dt m => Sys2Proof.Machine.execCommitMark dt m s
  | .ack dt m => Sys2Proof.Machine.execAck dt m s
  | .syncReq dt m => Sys2Proof.Machine.execSyncReq dt m s
  | .mirrorFenceTimeout dt => Sys2Proof.Machine.execMirrorFenceTimeout dt s
  | .standbySynced dt => Sys2Proof.Machine.execStandbySynced dt s
  | .takeover dt => Sys2Proof.Machine.execTakeover dt s
  | .set dt u => Sys2Proof.Machine.execSet dt u s
  | .cancel dt u => Sys2Proof.Machine.execCancel dt u s
  | .elementBlock dt u => Sys2Proof.Machine.execElementBlock dt u s
  | .elementUnblock dt u => Sys2Proof.Machine.execElementUnblock dt u s
  | .pointLock dt u => Sys2Proof.Machine.execPointLock dt u s
  | .pointFree dt u => Sys2Proof.Machine.execPointFree dt u s
  | .emergencyRelease dt u => Sys2Proof.Machine.execEmergencyRelease dt u s
  | .undefinedRequest dt u => Sys2Proof.Machine.execUndefinedRequest dt u s
  | .update dt u => Sys2Proof.Machine.execUpdate dt u s
  | .resultWriteResume dt => Sys2Proof.Machine.execResultWriteResume dt s
  | .resultPause dt => Sys2Proof.Machine.execResultPause dt s
  | .cancelTimeExpiry dt x => Sys2Proof.Machine.execCancelTimeExpiry dt x s
  | .approachTimeExpiry dt x => Sys2Proof.Machine.execApproachTimeExpiry dt x s
  | .overlapTimeExpiry dt x => Sys2Proof.Machine.execOverlapTimeExpiry dt x s
  | .zoneLapse dt x => Sys2Proof.Machine.execZoneLapse dt x s
  | .borderTimeout dt x => Sys2Proof.Machine.execBorderTimeout dt x s
  | .inputCrossing dt pin x ageNs widthNs => Sys2Proof.Machine.execInputCrossing dt pin x ageNs widthNs s
  | .confirmedChange dt pin => Sys2Proof.Machine.execConfirmedChange dt pin s
  | .inBand dt pin => Sys2Proof.Machine.execInBand dt pin s
  | .couplerLost dt pin => Sys2Proof.Machine.execCouplerLost dt pin s
  | .fieldStatus dt pin m => Sys2Proof.Machine.execFieldStatus dt pin m s
  | .refreshFrame dt pin good => Sys2Proof.Machine.execRefreshFrame dt pin good s
  | .timedOut dt pin => Sys2Proof.Machine.execTimedOut dt pin s
  | .staggeredSwitchOn dt pin => Sys2Proof.Machine.execStaggeredSwitchOn dt pin s
  | .testSlot dt pin => Sys2Proof.Machine.execTestSlot dt pin s
  | .offPulseEnd dt pin r => Sys2Proof.Machine.execOffPulseEnd dt pin r s
  | .lightTestEnd dt pin highUs rises => Sys2Proof.Machine.execLightTestEnd dt pin highUs rises s
  | .crossWatchEnd dt pin => Sys2Proof.Machine.execCrossWatchEnd dt pin s
  | .overload dt pin thermal => Sys2Proof.Machine.execOverload dt pin thermal s
  | .groupOverload dt g ma => Sys2Proof.Machine.execGroupOverload dt g ma s
  | .driveFail dt pin => Sys2Proof.Machine.execDriveFail dt pin s
  | .supplyWindow dt g mv => Sys2Proof.Machine.execSupplyWindow dt g mv s
  | .unpowered dt g mv => Sys2Proof.Machine.execUnpowered dt g mv s
  | .unpoweredExit dt g mv => Sys2Proof.Machine.execUnpoweredExit dt g mv s
  | .unlatch dt mask => Sys2Proof.Machine.execUnlatch dt mask s
  | .snufferFeed dt view => Sys2Proof.Machine.execSnufferFeed dt view s
  | .pathATrip dt g => Sys2Proof.Machine.execPathATrip dt g s
  | .pathAClose dt g fswMv => Sys2Proof.Machine.execPathAClose dt g fswMv s
  | .kauxSample dt g high fswMv => Sys2Proof.Machine.execKauxSample dt g high fswMv s
  | .pathTest dt g pathB r => Sys2Proof.Machine.execPathTest dt g pathB r s
  | .testNow dt => Sys2Proof.Machine.execTestNow dt s
  | .kdrop dt g => Sys2Proof.Machine.execKdrop dt g s
  | .buttonSample dt a b => Sys2Proof.Machine.execButtonSample dt a b s
  | .buttonHeld dt => Sys2Proof.Machine.execButtonHeld dt s
  | .buttonTransitTimeout dt => Sys2Proof.Machine.execButtonTransitTimeout dt s
  | .buttonReleased1s dt => Sys2Proof.Machine.execButtonReleased1s dt s
  | .step dt => Sys2Proof.Machine.execStep dt s
  | .accept dt => Sys2Proof.Machine.execAccept dt s
  | .kick dt => Sys2Proof.Machine.execKick dt s
  | .discard dt => Sys2Proof.Machine.execDiscard dt s
  | .timeIncr dt data => Sys2Proof.Machine.execTimeIncr dt data s
  | .stSnapshot dt => Sys2Proof.Machine.execStSnapshot dt s
  | .rtcCapture dt => Sys2Proof.Machine.execRtcCapture dt s
  | .civilHoldover dt => Sys2Proof.Machine.execCivilHoldover dt s
  | .civilPendingDiscarded dt => Sys2Proof.Machine.execCivilPendingDiscarded dt s
  | .rtcWrite dt => Sys2Proof.Machine.execRtcWrite dt s
  | .timeEpochNear dt => Sys2Proof.Machine.execTimeEpochNear dt s
  | .cycleLimit dt => Sys2Proof.Machine.execCycleLimit dt s
  | .timeProvHeld dt => Sys2Proof.Machine.execTimeProvHeld dt s
  | .recordIngest dt => Sys2Proof.Machine.execRecordIngest dt s
  | .openRecordClose dt => Sys2Proof.Machine.execOpenRecordClose dt s
  | .pageCommit dt r => Sys2Proof.Machine.execPageCommit dt r s
  | .mount dt ok => Sys2Proof.Machine.execMount dt ok s
  | .stall dt => Sys2Proof.Machine.execStall dt s
  | .freeze dt => Sys2Proof.Machine.execFreeze dt s
  | .thaw dt => Sys2Proof.Machine.execThaw dt s
  | .freezeTimeout dt => Sys2Proof.Machine.execFreezeTimeout dt s
  | .recorderClear dt part => Sys2Proof.Machine.execRecorderClear dt part s
  | .clearingDone dt => Sys2Proof.Machine.execClearingDone dt s
  | .read dt part live bad => Sys2Proof.Machine.execRead dt part live bad s
  | .readStop dt => Sys2Proof.Machine.execReadStop dt s
  | .recorderExpired dt => Sys2Proof.Machine.execRecorderExpired dt s
  | .statUpdate dt => Sys2Proof.Machine.execStatUpdate dt s
  | .offer dt m => Sys2Proof.Machine.execOffer dt m s
  | .data dt m => Sys2Proof.Machine.execData dt m s
  | .good dt m => Sys2Proof.Machine.execGood dt m s
  | .bad dt m => Sys2Proof.Machine.execBad dt m s
  | .resume dt m => Sys2Proof.Machine.execResume dt m s
  | .refuse dt m => Sys2Proof.Machine.execRefuse dt m s
  | .chunkStored dt kind norOk => Sys2Proof.Machine.execChunkStored dt kind norOk s
  | .offerRepeat dt kind => Sys2Proof.Machine.execOfferRepeat dt kind s
  | .chunkTimeout dt kind => Sys2Proof.Machine.execChunkTimeout dt kind s
  | .transferTimeout dt kind => Sys2Proof.Machine.execTransferTimeout dt kind s
  | .abortDl dt => Sys2Proof.Machine.execAbortDl dt s
  | .verifyDone dt kind => Sys2Proof.Machine.execVerifyDone dt kind s
  | .prepare dt kinds => Sys2Proof.Machine.execPrepare dt kinds s
  | .prepareDone dt => Sys2Proof.Machine.execPrepareDone dt s
  | .updArm dt => Sys2Proof.Machine.execUpdArm dt s
  | .activationCancel dt => Sys2Proof.Machine.execActivationCancel dt s
  | .activation dt q => Sys2Proof.Machine.execActivation dt q s
  | .confirm dt => Sys2Proof.Machine.execConfirm dt s
  | .confirmTimeout dt => Sys2Proof.Machine.execConfirmTimeout dt s
  | .linkTraining dt l width => Sys2Proof.Machine.execLinkTraining dt l width s
  | .portLinkDown dt port => Sys2Proof.Machine.execPortLinkDown dt port s
  | .ethernetPortLink dt port up => Sys2Proof.Machine.execEthernetPortLink dt port up s
  | .createComplete dt index => Sys2Proof.Machine.execCreateComplete dt index s
  | .controllerSelfCheck dt pass => Sys2Proof.Machine.execControllerSelfCheck dt pass s
  | .vbakSample dt mv => Sys2Proof.Machine.execVbakSample dt mv s
  | .vinSag dt depthPct durUs => Sys2Proof.Machine.execVinSag dt depthPct durUs s
  | .temperatureSample dt tenths => Sys2Proof.Machine.execTemperatureSample dt tenths s

end Sys2Proof.Machine
end

