-- ==== Sys2Proof/Safety.lean ====
section
/-! DEFINITION. What counts as a safe run, in the terms that claims use: the safe state of R8, and the canonical memory. -/

namespace Sys2Proof.Machine

/-- No output of the field pins is commanded on (R8). -/
def outputsOff (s : State) : Bool := s.fio.pins.all (fun p => !p.cmd && !p.waiting)

/-- Both cut-off paths of every group are open (R8, R399). -/
def pathsOpen (s : State) : Bool := s.snu.g.all (fun g => !g.aClosed && !g.kOn)

/-- No command has sent an on command to a pin. -/
def sentNoOn (s : State) : Bool :=
  s.sent.all (fun x => match x with | .pin _ on _ _ => !on | _ => true)

/-- The answer is a next state with the property `p`. -/
def Yields (o : Host.Outcome State Fault Refusal) (p : State → Prop) : Prop := ∃ t, o = .next t ∧ p t

/-- The parts of the machine, one for each field of `State`: frames name the parts that a command may write. -/
inductive Comp where
  | pending | sent | free | clk | civ | cand | pwr | tri | dbg | prg | frc | mem | vm | xch | regs | bus | tel | rings | lat | fio | snu | evr | sta | upd | lnk | cfg
  deriving DecidableEq, Repr

/-- `t` has the part as `s` has it. -/
def Comp.same (c : Comp) (s t : State) : Prop :=
  match c with
  | .pending => t.pending = s.pending
  | .sent => t.sent = s.sent
  | .free => t.free = s.free
  | .clk => t.clk = s.clk
  | .civ => t.civ = s.civ
  | .cand => t.cand = s.cand
  | .pwr => t.pwr = s.pwr
  | .tri => t.tri = s.tri
  | .dbg => t.dbg = s.dbg
  | .prg => t.prg = s.prg
  | .frc => t.frc = s.frc
  | .mem => t.mem = s.mem
  | .vm => t.vm = s.vm
  | .xch => t.xch = s.xch
  | .regs => t.regs = s.regs
  | .bus => t.bus = s.bus
  | .tel => t.tel = s.tel
  | .rings => t.rings = s.rings
  | .lat => t.lat = s.lat
  | .fio => t.fio = s.fio
  | .snu => t.snu = s.snu
  | .evr => t.evr = s.evr
  | .sta => t.sta = s.sta
  | .upd => t.upd = s.upd
  | .lnk => t.lnk = s.lnk
  | .cfg => t.cfg = s.cfg

/-- Every part not in `l` is in `t` as in `s`. -/
def WritesOnly (l : List Comp) (s t : State) : Prop := ∀ c, c ∉ l → c.same s t

/-- Every register word with storage but those of `l` is in `t` as in `s`. -/
def RegsOnly (l : List Nat) (s t : State) : Prop := ∀ k, k ∉ l → rv k t = rv k s

/-- Every pin but those of `l` is in `t` as in `s`. -/
def PinsOnly (l : List Nat) (s t : State) : Prop := ∀ n, n ∉ l → pin n t = pin n s

/-- Every ring but those of `l` is in `t` as in `s`. -/
def RingsOnly (l : List Nat) (s t : State) : Prop := ∀ r, r ∉ l → ring r t = ring r s

/-- Every group of the snuffer but those of `l` is in `t` as in `s`. -/
def SGroupsOnly (l : List Nat) (s t : State) : Prop := ∀ g, g ∉ l → sgroup g t = sgroup g s

/-- Every field group but those of `l` is in `t` as in `s`. -/
def FGroupsOnly (l : List Nat) (s t : State) : Prop := ∀ g, g ∉ l → fgroup g t = fgroup g s

/-- Every lane but those of `l` is in `t` as in `s`. -/
def LanesOnly (l : List LaneId) (s t : State) : Prop := ∀ x, x ∉ l → lane x t = lane x s

/-- Every byte of memory reads in `t` as in `s`, but those of the ranges (address, length) of `l`. -/
def MemOnly (l : List (Nat × Nat)) (s t : State) : Prop :=
  ∀ a, (∀ r ∈ l, a < r.1 ∨ r.1 + r.2 ≤ a) → memGet a t.mem = memGet a s.mem

/-- A record of type `ty` with the stamp of the present instant of `s`: fields as (bytes, value). -/
def recNow (ty : Nat) (fields : List (Nat × Nat)) (s : State) : Rec :=
  { t := now s, ty := ty, payload := pad8 (packFields fields) }

/-- The NV_EVENT of block `blk` (R540). -/
def nvNow (blk code detail addr : Nat) (s : State) : Rec := recNow (0x80FE + 0x100 * blk) [(2, code), (2, 0), (4, detail), (8, addr)] s

/-- Where the ingest port has room for them (R424), `t` has handed it these records, in this order, and no others. -/
def Records (l : List Rec) (s t : State) : Prop := s.evr.queue.length + l.length ≤ 1024 → t.evr.queue = s.evr.queue ++ l

/-- As `Records`, by the types of the records alone. -/
def RecordTypes (l : List Nat) (s t : State) : Prop :=
  s.evr.queue.length + l.length ≤ 1024 → t.evr.queue.map Rec.ty = s.evr.queue.map Rec.ty ++ l

/-- The pins in use are the 32 of the board, the field and snuffer groups its four (R366, R399). -/
def pinsOf (s : State) : Prop := s.fio.pins.length = 32 ∧ s.fio.groups.length = 4 ∧ s.snu.g.length = 4

/-- A vital fault of module scope finds the module running, not HALTED and not on trial (R151, R472). -/
def mayHalt (s : State) : Prop := s.pwr.phase = .running ∧ s.prg.mode ≠ .halted ∧ inTrial s = false ∧ pinsOf s

/-- What a vital fault of module scope leaves: the mode HALTED, every output commanded off, no release, no force, no request, no stored edge (R8, R151, R165). -/
structure Halted (t : State) : Prop where
  mode : t.prg.mode = .halted
  off : outputsOff t = true
  active : t.prg.active = []
  req : t.prg.reqNormal = false ∧ t.prg.reqTest = false
  forces : t.frc.table = []
  edge : t.snu.edgeStored = false
  since : t.pwr.haltedSince = true

/-- `t` has handed the ingest port a record of type `ty`, where it had room for two. -/
def Recorded (ty : Nat) (s t : State) : Prop :=
  s.evr.queue.length + 2 ≤ 1024 → ∃ r ∈ t.evr.queue.drop s.evr.queue.length, r.ty = ty

/-- The parts that a vital fault of module scope may write. -/
def faultParts : List Comp := [.sent, .cand, .pwr, .tri, .prg, .frc, .vm, .xch, .regs, .rings, .fio, .snu, .evr, .upd, .lnk]

/-- A transaction that every lane presents alike to both voters. -/
def allSee (x : LaneTx) : VotedTx :=
  { v1 := { a := some x, b := some x, c := some x }, v2 := { a := some x, b := some x, c := some x } }

/-- Lane `l` presents `y` (or times out) where the other two present `x`. -/
def oneOdd (l : LaneId) (x : LaneTx) (y : Option LaneTx) : Seen :=
  { a := if l = .a then y else some x, b := if l = .b then y else some x, c := if l = .c then y else some x }

/-- Every release of `t` has its deadline later by the stall that ends in a command with `dt` periods before it (R149). -/
def stallMoved (dt : Nat) (s t : State) : Prop :=
  let d := match s.tri.stallFrom with | some x => ((begin' dt s).clk.up - x) * 16384000 / (100 * cycleUs s) | none => 0
  t.prg.active = (begin' dt s).prg.active.map (fun x => { x with deadline := x.deadline.map (· + d) })

/-- Memory with the P tables of the lattice as the newest snapshot and its journal give them (R119, R121). -/
def latticeOf (s : State) : List Host.Cell :=
  match s.lat.snaps with
  | x :: _ => restoreTables x s.lat.journal s.mem
  | [] => s.mem

/-- The state in which the lattice's timer step finds the machine at a boundary at which no restart ends (R23). -/
def atTimerStep (skew : Int) (s : State) : State := embers (closeAged (cycleFlags (busBoundary skew (cycleUse (cycleOn s)))))

/-- The state in which the exchange cycle begins its work at the quiet point (R249, R256). -/
def cycleStart (dt : Nat) (s : State) : State :=
  let s := begin' dt s
  setRf 0x070048 0 24 (linUs s (nowLin s - s.xch.windowAt)) { s with xch.st := .exchanging, xch.tracking := false }

/-- The state in which preparation begins to pre-convert: prepared map, lists, initial values and headers of what starts afresh (R247). -/
def prepStart (dt : Nat) (p : ProgImage) (s : State) : State :=
  let l := matched p s
  writeFresh (preparedMap l s) l { begin' dt s with
    vm.mapNew := preparedMap l s
    xch.retyped := kindIdx InstKind.isRetyped l, xch.fresh := kindIdx InstKind.isFresh l, xch.remapped := kindIdx InstKind.isRemapped l
    xch.dropped := droppedIdx p s, xch.globReset := globalsReset p s }

/-- An exchange in its window has been given up with this reason and detail: nothing of what `u` runs on has changed, and what the window withheld waits for the next boundary (R238, R253, R257, R258). -/
def GivenUp (reason detail : Nat) (u t : State) : Prop :=
  t.xch.st = .idle ∧ t.xch.image = none ∧ t.vm = { u.vm with mapNew := [] } ∧ t.mem = u.mem ∧ t.prg.mode = u.prg.mode
    ∧ t.frc = u.frc ∧ t.fio = u.fio ∧ t.lat = u.lat ∧ t.xch.after = u.xch.withheld ∧ t.xch.afterTrig = u.xch.heldTrig
    ∧ rf 0x070010 8 8 t = reason ∧ rv 0x070014 t = detail % 2 ^ 32 ∧ Recorded 0x4703 u t

/-! ### Instructions of the vital program -/

/-- The lane table that an instruction runs on: lane B's in split mode alone (R206). -/
def vlane (w : VInstr) (s : State) : Bool := w.laneB && s.cfg.split

/-- The state an instruction works on: the time has passed, and the index of the block is that of the next instruction. -/
def vstart (dt : Nat) (w : VInstr) (s : State) : State := advance (vlane w s) (begin' dt s)

/-- The lane of the instruction runs after `dt` periods, and its type and `SUB` are defined for an opcode with `subs` subcodes. -/
def Runs (dt subs : Nat) (w : VInstr) (s : State) : Prop := laneRuns (vlane w s) (begin' dt s) = true ∧ w.ty.toNat < 8 ∧ w.sub.toNat < subs

/-- Operand a reads as `x`; what the read leaves is `a`. -/
def Reads1 (b : Bool) (ty : Nat) (w : VInstr) (s : State) (x : Nat) (a : State) : Prop :=
  opRead b ty w.src1 0 s = .ok a x ∧ a.prg.mode ≠ .halted

/-- Operands a and b read as `x` and `y`, a first; what the reads leave is `a`. -/
def Reads2 (b : Bool) (ty : Nat) (w : VInstr) (s : State) (x y : Nat) (a : State) : Prop :=
  ∃ m, Reads1 b ty w s x m ∧ opRead b ty w.src2 0 m = .ok a y ∧ a.prg.mode ≠ .halted

/-- The answer is a next state with `v` of type `ty` written to d, wherever d takes it; a scratch register of a task takes every value (R126, R127). -/
def Gives (o : Host.Outcome State Fault Refusal) (b : Bool) (ty : Nat) (w : VInstr) (v : Nat) (a : State) : Prop :=
  (∀ (t : State) (u : Nat), opWrite b ty w.dst 0 v a = .ok t u → o = .next t)
  ∧ (opSpace w.dst = 1 → 8 ≤ opIndex w.dst → opIndex w.dst < 256 → (ctx b a).conv = none →
      Yields o (fun t => WritesOnly [.free, .prg] a t ∧ scrGet b (opIndex w.dst) t % 2 ^ tyWidth ty = v % 2 ^ tyWidth ty))

/-- An integer lies in the range of its type. -/
def inType (ty : Nat) (i : Int) : Bool := decide (tyMin ty ≤ i) && decide (i ≤ tyMax ty)

/-- A stored word has no error in either copy, and the copies are complements where there are two (R225). -/
def wordClean (a : Nat) (s : State) : Prop :=
  codeAt a s = none ∧ (storeKind a = .dual → codeAt (a + invOffset) s = none ∧ isCompl 8 (memNat a 8 s.mem) (memNat (a + invOffset) 8 s.mem) = true)

/-- A word, and its partner where it has one, is as it should be (R225, R234). -/
def wordGood (a : Nat) (s : State) : Prop :=
  if storeKind a = .dual ∨ storeKind a = .pair then
    codeAt (trueWord a) s = none ∧ codeAt (invWord (trueWord a)) s = none
      ∧ isCompl 8 (memNat (trueWord a) 8 s.mem) (memNat (invWord (trueWord a)) 8 s.mem) = true
  else codeAt a s = none

/-- The bounds that every step keeps: memory in its canonical form, at most 64 lighthouse slots (R438), at most 1,024 records at the ingest port (R424), at most 256 forced points (R161), at most 64 updates in the update queue (R93). -/
structure Inv (s : State) : Prop where
  mem : Memory.wf s.mem = true
  cand : s.cand.light.length ≤ 64
  evr : s.evr.queue.length ≤ 1024
  frc : s.frc.table.length ≤ 256
  lat : s.lat.updQ.length ≤ 64

end Sys2Proof.Machine
end

