-- ==== Sys2Proof/Certificates/Slice0/Obligations.lean ====
section
/-! DEFINITION. The statements for the provers. `begin' dt s` is the state when `dt` periods of the reference have passed and the command's effect begins. -/

open Sys2Proof Sys2Proof.Machine

/-- For every state whose queue begins with command c, step answers what exec of c answers on that state with the rest of the queue. -/
def Obligations.StepRunsFrontCommand : Prop :=
  ∀ (c : Instr) (rest : List Instr) (s : State), s.pending = c :: rest → step s = exec c { s with pending := rest }

/-- With no command waiting, step answers the same state. That the block idles on an empty queue is the model's choice (log entry 1). -/
def Obligations.EmptyQueueIdles : Prop :=
  ∀ s : State, s.pending = [] → step s = .next s

/-- For every command c and every state s, exec c s answers a next state, and the queue of waiting commands in it is that of s. -/
def Obligations.EveryCommandCompletesAndKeepsQueue : Prop :=
  ∀ (c : Instr) (s : State), Yields (exec c s) (fun t => t.pending = s.pending)

/-- After reset no command waits and the module is held in reset: no lane runs, START-UP, station time provisional at 0, civil time in ACQUIRE; no force, no token, no element of a ring, every pin commanded off, every path open, no stored edge, generation 1 and CLOSED for a channel; vital RAM, lattice SRAM and NOR bank B read as they do unlisted, and in bank A all but the first 256 B of slot 1, which begin with the image magic; the cycle length is 1,000 us, TIME_JUMP 1 ms, TIME_INCR 0xA000_0000, WDOG_S 4. As delivered, bank A holds factory firmware, bank B nothing, no copy of an anchor. The FRAM contents and the unstated header values as delivered are the model's choice (log 5). -/
def Obligations.ResetState : Prop :=
  State.reset.pending = [] ∧ State.reset.pwr.phase = .inReset ∧ powered State.reset = false ∧ lanesRun State.reset = false
    ∧ State.reset.prg.mode = .startup ∧ State.reset.clk.prov = true ∧ now State.reset = 0 ∧ State.reset.civ.st = .acquire
    ∧ State.reset.frc.table = [] ∧ State.reset.prg.tokUsed = [] ∧ State.reset.prg.tokVer = []
    ∧ (∀ r, (ring r State.reset).entries = []) ∧ (∀ n, (pin n State.reset).cmd = false) ∧ outputsOff State.reset = true
    ∧ pathsOpen State.reset = true ∧ State.reset.snu.edgeStored = false ∧ (∀ i, (chan i State.reset).gen = 1 ∧ (chan i State.reset).st = .closed)
    ∧ (∀ a, a < 0x200000000 ∨ 0x200000100 ≤ a → memGet a State.reset.mem = memDefault a) ∧ memRead 0x200000000 4 State.reset.mem = [0x48#8, 0x4B#8, 0x49#8, 0x4D#8]
    ∧ cycleUs State.reset = 1000 ∧ rv 0x090000 State.reset = 4 ∧ rv 0x090004 State.reset = 1000000 ∧ rv 0x090020 State.reset = 0xA0000000
    ∧ rv 0x0B0004 State.reset = 0xFFFFFFFF ∧ rv 0x110008 State.reset = 0x0FFF0000
    ∧ (∃ x, selector State.reset = some x ∧ x.sel = 0 ∧ x.trial = false ∧ (x.slots.getD 0 {}).st = 3 ∧ ∀ n, 0 < n → (x.slots.getD n {}).st = 0)
    ∧ anchorRec State.reset = none

/-- After reset the memory is in its canonical form and the lighthouse slots, the ingest queue, the force table and the update queue are within their bounds. -/
def Obligations.ResetHasInvariant : Prop :=
  Inv State.reset

/-- From every state that has the invariant, a step of any command answers a state that has it: memory stays in its canonical form, the store of last-light anchors within 64 slots, the ingest port within 1,024 records, the force table within 256 forces and the update queue within 64 updates. -/
def Obligations.StepKeepsInvariant : Prop :=
  ∀ s t : State, Inv s → step s = .next t → Inv t

/-- At the start of every command the outputs of the previous one are gone. In a powered module the reference has counted dt more periods, the position moves on and stays within the cycle, CYCLE and its correction stay, civil time and its fraction advance by dt times TIME_INCR modulo 2^64 ns, and the first release of each lane table has run dt longer less what is left of a rest, unless the lanes stall or wait for a relight or its lane is stopped. An RTC that is not lost advances at 32,768 Hz with its trim, powered or not. What is sent are frames that waited at a bus port or a module link: of the bus only the ports and FWD_CLASH change, of the links only the links, the sequence of mirror stream 2 and the place of the copy, and where nothing waits nothing is sent. -/
def Obligations.TimePasses : Prop :=
  ∀ (dt : Nat) (s : State),
    WritesOnly [.sent, .cand, .civ, .clk, .prg, .bus, .lnk] s (begin' dt s)
    ∧ (∀ x ∈ (begin' dt s).sent, (∃ p h b, x = .bus p h b) ∨ ∃ l f, x = .link l f)
    ∧ (∃ p c, (begin' dt s).bus = { s.bus with ports := p, clash := c })
    ∧ (∃ l x a, (begin' dt s).lnk = { s.lnk with l := l, tx2 := x, copyAt := a })
    ∧ ((∀ p, (busPort p s).out = []) → (begin' dt s).bus = s.bus)
    ∧ ((∀ l, (link l s).queue = []) → s.lnk.copyAt = none → (begin' dt s).lnk = s.lnk)
    ∧ ((∀ p, (busPort p s).out = []) → (∀ l, (link l s).queue = []) → s.lnk.copyAt = none → (begin' dt s).sent = [])
    ∧ (powered s = false → (begin' dt s).sent = [] ∧ WritesOnly [.sent, .cand] s (begin' dt s))
    ∧ (powered s = true →
        (begin' dt s).clk = { s.clk with pos := min (s.clk.pos + dt) (cycleTicks s - 1), up := s.clk.up + dt }
        ∧ (begin' dt s).civ.ns * 2 ^ 28 + (begin' dt s).civ.frac = (s.civ.ns * 2 ^ 28 + s.civ.frac + dt * rv 0x090020 s) % 2 ^ 92
        ∧ (begin' dt s).civ.frac < 2 ^ 28
        ∧ (begin' dt s).civ = { s.civ with ns := (begin' dt s).civ.ns, frac := (begin' dt s).civ.frac }
        ∧ (begin' dt s).prg = { s.prg with active := (begin' dt s).prg.active, usedTicks := (begin' dt s).prg.usedTicks }
        ∧ ((s.tri.stallFrom ≠ none ∨ s.prg.releaseHeld = true) → (begin' dt s).prg = s.prg)
        ∧ (s.tri.stallFrom = none → s.prg.releaseHeld = false → ∀ (p q : List Release) (r : Release), s.prg.active = p ++ r :: q →
            (∀ x ∈ p, x.laneB ≠ r.laneB) → laneStopped r.laneB s = false →
            (begin' dt s).prg.active.getD p.length {} = { r with exec := r.exec + (dt - restPeriods s) }
            ∧ (begin' dt s).prg.usedTicks = s.prg.usedTicks + (dt - restPeriods s))
        ∧ (s.tri.stallFrom = none → s.prg.releaseHeld = false → ∀ (p q : List Release) (r : Release), s.prg.active = p ++ r :: q →
            ((∃ x ∈ p, x.laneB = r.laneB) ∨ laneStopped r.laneB s = true) → (begin' dt s).prg.active.getD p.length {} = r)
        ∧ (s.xch.resumeAt ≤ nowLin s → restPeriods s = 0))
    ∧ (s.cand.rtcLost = true → (begin' dt s).cand = s.cand)
    ∧ (s.cand.rtcLost = false → s.cand.rtcSub < 32768 → s.cand.rtcRem < 100000000000000 →
        (begin' dt s).cand = { s.cand with rtcSec := (begin' dt s).cand.rtcSec, rtcSub := (begin' dt s).cand.rtcSub, rtcRem := (begin' dt s).cand.rtcRem }
        ∧ ((begin' dt s).cand.rtcSec * 32768 + (begin' dt s).cand.rtcSub) * 100000000000000 + (begin' dt s).cand.rtcRem =
          ((s.cand.rtcSec * 32768 + s.cand.rtcSub) * 100000000000000 + s.cand.rtcRem
            + dt * (32768 * (1000000 + toSigned 8 (rf 0x110000 0 8 s))).toNat) % (2 ^ 48 * 32768 * 100000000000000))

/-- While the lanes run and the TIME block is program-writable: a STEP in ACQUIRE, or within JUMP_NS, changes civil time by exactly the step, leaves the fraction and leads to LOCKED (from ACQUIRE, civil time after it is the first of this power cycle); a larger one is refused, becomes pending, sets JUMP_REFUSED, is recorded and leads to HOLDOVER; an ACCEPT within 60 s with its token applies the pending step, consumes the token, is recorded and leads to LOCKED; KICK in LOCKED restarts the watchdog; DISCARD drops the pending step; TIME_INCR takes a value in its range, and a value outside is ignored, sets INCR_BAD and is recorded. Each is one voted transaction and advances the sequence number, but in split mode, which has no vote. Nothing else changes. -/
def Obligations.CivilCommandEffects : Prop :=
  ∀ (dt : Nat) (data : Half) (s : State), lanesRun s = true → bit s.cfg.progBlocks 9 = true →
    (s.cfg.split = false → seqVoted (begin' dt s) = { begin' dt s with tri.seq := (s.tri.seq + 1) % 65536 })
    ∧ (s.cfg.split = true → seqVoted (begin' dt s) = begin' dt s)
    ∧ ((s.civ.st = .acquire ∨ (stepAmount s).natAbs ≤ rf 0x090004 0 30 s) →
      Yields (exec (.step dt) s) (fun t =>
        WritesOnly [.civ, .regs] (seqVoted (begin' dt s)) t ∧ RegsOnly [0x09003C] s t
        ∧ t.civ.st = .locked ∧ t.civ.pending = none ∧ t.civ.frac = (begin' dt s).civ.frac
        ∧ (t.civ.ns : Int) = ((begin' dt s).civ.ns + stepAmount s) % 2 ^ 64
        ∧ rf 0x09003C 0 16 t = sat 0xFFFF (rf 0x09003C 0 16 s + 1) ∧ rf 0x09003C 16 16 t = rf 0x09003C 16 16 s
        ∧ t.civ.first = (if s.civ.st = .acquire then some t.civ.ns else s.civ.first)
        ∧ t.civ.wdogFrom = (if s.civ.st = .locked then s.civ.wdogFrom else now (begin' dt s))))
    ∧ (s.civ.st ≠ .acquire → rf 0x090004 0 30 s < (stepAmount s).natAbs →
      Yields (exec (.step dt) s) (fun t =>
        WritesOnly [.civ, .regs, .evr] (seqVoted (begin' dt s)) t ∧ RegsOnly [0x09003C, 0x090008, 0x0F006C] s t
        ∧ t.civ = { (begin' dt s).civ with st := .holdover, pending := some (stepAmount s), refusedAt := now (begin' dt s) }
        ∧ rf 0x090008 4 1 t = 1
        ∧ Records [recNow 0x4905 [(8, ofSigned 64 (stepAmount s)), (8, 0), (4, 0), (4, 0)] (begin' dt s)] s t))
    ∧ (∀ (p : Int) (e : VerEntry), s.civ.st = .holdover → s.civ.pending = some p →
      findToken (rv 0x090030 s) 5 (begin' dt s) = some e →
      nowLin (begin' dt s) - lin s.civ.refusedAt ≤ secLin s 60 →
      Yields (exec (.accept dt) s) (fun t =>
        WritesOnly [.civ, .regs, .prg, .evr] (seqVoted (begin' dt s)) t ∧ RegsOnly [0x09003C, 0x0F006C] s t
        ∧ t.civ.st = .locked ∧ t.civ.pending = none ∧ t.civ.frac = (begin' dt s).civ.frac
        ∧ (t.civ.ns : Int) = ((begin' dt s).civ.ns + p) % 2 ^ 64
        ∧ t.prg = { (begin' dt s).prg with tokVer := s.prg.tokVer.filter (fun x => x.id != rv 0x090030 s) }
        ∧ Records [recNow 0x4906 [(8, ofSigned 64 p), (8, 0), (4, e.id), (4, e.staff)] (begin' dt s)] s t))
    ∧ (s.civ.st = .locked →
      exec (.kick dt) s = .next { seqVoted (begin' dt s) with civ.wdogFrom := now (begin' dt s) })
    ∧ (s.civ.st ≠ .acquire →
      exec (.discard dt) s = .next { seqVoted (begin' dt s) with civ.pending := none })
    ∧ (0x9FD70A3E ≤ data.toNat → data.toNat ≤ 0xA028F5C2 →
      Yields (exec (.timeIncr dt data) s) (fun t =>
        WritesOnly [.regs] (seqVoted (begin' dt s)) t ∧ RegsOnly [0x090020] s t ∧ rv 0x090020 t = data.toNat))
    ∧ ((data.toNat < 0x9FD70A3E ∨ 0xA028F5C2 < data.toNat) →
      Yields (exec (.timeIncr dt data) s) (fun t =>
        WritesOnly [.regs, .evr] (seqVoted (begin' dt s)) t ∧ RegsOnly [0x090008, 0x0F006C] s t ∧ rf 0x090008 8 1 t = 1
        ∧ Records [nvNow 9 0x0007 data.toNat 0 (begin' dt s)] s t))

/-- While the lanes run, a read of TIME_ST_LO captures station and civil time at one instant and a read of CAND_RTC_LO the RTC, and each is a voted read that delivers its word. LOCKED passes to HOLDOVER with its record after WDOG_S seconds; a pending step is discarded with its record more than 60 s after the refusal; the RTC takes civil time every hour of LOCKED; CYCLE at or past 0xF0_0000_0000 is recorded every hour; a provisional CYCLE at 0xFFFF_FFFF holds every stamp, with its record; a VBAK sample is shown with its minimum and VBAK_LOW below 2.2 V; the RTC is lost where the supply fails with VIN off. Nothing else changes. -/
def Obligations.CivilTimeEvents : Prop :=
  ∀ (dt : Nat) (s : State),
    (lanesRun s = true → exec (.stSnapshot dt) s = .next { seqVoted (begin' dt s) with
      civ.shSt := now (begin' dt s), civ.shNs := (begin' dt s).civ.ns, civ.shFrac := (begin' dt s).civ.frac,
      sent := (begin' dt s).sent ++ [.read (leBytes 4 (now (begin' dt s)))] })
    ∧ (lanesRun s = true → exec (.rtcCapture dt) s = .next { seqVoted (begin' dt s) with
      cand.shHi := (begin' dt s).cand.rtcSec / 2 ^ 32, cand.shSub := (begin' dt s).cand.rtcSub,
      sent := (begin' dt s).sent ++ [.read (leBytes 4 (begin' dt s).cand.rtcSec)] })
    ∧ (powered s = true → s.civ.st = .locked → secLin s 3600 ≤ nowLin (begin' dt s) - lin s.civ.rtcWroteAt →
      Yields (exec (.rtcWrite dt) s) (fun t => WritesOnly [.cand, .civ] (begin' dt s) t
        ∧ t.cand.rtcSec = (begin' dt s).civ.ns / 1000000000 % 2 ^ 48
        ∧ t.cand.rtcSub = (begin' dt s).civ.ns % 1000000000 * 32768 / 1000000000 ∧ t.cand.rtcLost = false
        ∧ t.civ = { (begin' dt s).civ with rtcWroteAt := now (begin' dt s) }))
    ∧ (powered s = true → s.civ.st = .locked → secLin s (rf 0x090000 0 6 s) ≤ nowLin (begin' dt s) - lin s.civ.wdogFrom →
      Yields (exec (.civilHoldover dt) s) (fun t => WritesOnly [.civ, .evr, .regs] (begin' dt s) t ∧ RegsOnly [0x0F006C] s t
        ∧ t.civ = { (begin' dt s).civ with st := .holdover }
        ∧ Records [recNow 0x4907 [(8, now (begin' dt s)), (8, 0), (4, 0), (4, 0)] (begin' dt s)] s t))
    ∧ (∀ p, powered s = true → s.civ.st = .holdover → s.civ.pending = some p →
      secLin s 60 < nowLin (begin' dt s) - lin s.civ.refusedAt →
      Yields (exec (.civilPendingDiscarded dt) s) (fun t => WritesOnly [.civ, .evr, .regs] (begin' dt s) t ∧ RegsOnly [0x0F006C] s t
        ∧ t.civ = { (begin' dt s).civ with pending := none }
        ∧ Records [nvNow 9 0x000A 0 (ofSigned 64 p) (begin' dt s)] s t))
    ∧ (powered s = true → 0xF000000000 ≤ s.clk.cycle →
      (∀ x, s.clk.epochNearAt = some x → secLin s 3600 ≤ nowLin (begin' dt s) - x) →
      Yields (exec (.timeEpochNear dt) s) (fun t => WritesOnly [.clk, .evr, .regs] (begin' dt s) t ∧ RegsOnly [0x0F006C] s t
        ∧ t.clk = { (begin' dt s).clk with epochNearAt := some (nowLin (begin' dt s)) }
        ∧ Records [recNow 0x4904 [(8, now (begin' dt s)), (8, 0), (4, 0), (4, 0)] (begin' dt s)] s t))
    ∧ (powered s = true → s.clk.prov = true → s.clk.provHeld = false → 0xFFFFFFFF ≤ s.clk.cycle →
      Yields (exec (.timeProvHeld dt) s) (fun t => WritesOnly [.clk, .evr, .regs] (begin' dt s) t ∧ RegsOnly [0x0F006C] s t
        ∧ t.clk = { (begin' dt s).clk with provHeld := true } ∧ now t = 0x00FFFFFFFF000000
        ∧ RecordTypes [0x4903] s t))
    ∧ (∀ mv : Nat, powered s = true → mv ≤ 0xFFF →
      Yields (exec (.vbakSample dt mv) s) (fun t => WritesOnly [.regs] (begin' dt s) t ∧ RegsOnly [0x110004, 0x110008] s t
        ∧ rf 0x110008 0 12 t = mv ∧ rf 0x110008 16 12 t = min mv (rf 0x110008 16 12 s)
        ∧ rf 0x110004 2 1 t = b2n (decide (mv < 2200))))
    ∧ (s.pwr.phase = .off → exec (.rtcLost dt) s = .next { begin' dt s with cand.rtcLost := true })

/-- With at least two lanes lit and every lane presenting the same transaction to both voters: an 8-byte write to the application regions of vital RAM stores its bytes (and, where the address is dual-stored, their complements at the inverted copy) and leaves every other byte; a write to lattice SRAM is discarded and recorded; a register read delivers the word that the register reads as; a signature beat leaves its count and its CRC. A write cleans its line in every lane's data cache. Each advances the sequence number by 1 modulo 65,536. -/
def Obligations.AgreedTransactionsCommit : Prop :=
  ∀ (dt : Nat) (x : LaneTx) (s : State), triadVotes s = true → 2 ≤ (litLanes s).length →
    (x.kind = .write → x.addr.toNat % 8 = 0 → x.data.length = 8 → (∀ i, i < 8 → x.be.getLsbD i = true) →
      laneWritable x.addr.toNat s = true → Memory.wf s.mem = true → s.vm.mapActive = [] → rf 0x030000 0 1 s = 0 → s.lnk.pair ≠ .active →
      Yields (exec (.votedTransaction dt (allSee x)) s) (fun t =>
        WritesOnly [.tri, .mem, .vm, .xch] (begin' dt s) t
        ∧ t.tri = { s.tri with seq := (s.tri.seq + 1) % 65536, a.dirty := s.tri.a.dirty.filter (· != x.addr.toNat / 64), b.dirty := s.tri.b.dirty.filter (· != x.addr.toNat / 64), c.dirty := s.tri.c.dirty.filter (· != x.addr.toNat / 64) }
        ∧ memRead x.addr.toNat 8 t.mem = x.data
        ∧ (dualStored x.addr.toNat = true → memRead (x.addr.toNat + invOffset) 8 t.mem = x.data.map (fun v => ~~~v))
        ∧ MemOnly (if dualStored x.addr.toNat = true then [(x.addr.toNat, 8), (x.addr.toNat + invOffset, 8)] else [(x.addr.toNat, 8)]) s t))
    ∧ (x.kind = .write → x.addr.toNat % 8 = 0 → x.data.length = 8 → (∀ i, i < 8 → x.be.getLsbD i = true) →
      0x100000000 ≤ x.addr.toNat → x.addr.toNat < 0x100600000 → s.cfg.instSize ≤ 0x3000000 → s.cfg.globSize ≤ 0x10000 →
      Yields (exec (.votedTransaction dt (allSee x)) s) (fun t =>
        WritesOnly [.tri, .regs, .evr] (begin' dt s) t ∧ RegsOnly [0x0F006C] s t
        ∧ t.tri = { s.tri with seq := (s.tri.seq + 1) % 65536, a.dirty := s.tri.a.dirty.filter (· != x.addr.toNat / 64), b.dirty := s.tri.b.dirty.filter (· != x.addr.toNat / 64), c.dirty := s.tri.c.dirty.filter (· != x.addr.toNat / 64) }
        ∧ Records [nvNow 6 0x0001 (leNat (x.data.take 4)) x.addr.toNat (begin' dt s)] s t))
    ∧ (x.kind = .regRead → regAddress x.addr.toNat = true →
      Yields (exec (.votedTransaction dt (allSee x)) s) (fun t =>
        t.tri = { s.tri with seq := (s.tri.seq + 1) % 65536 } ∧ t.mem = s.mem
        ∧ t.sent = (begin' dt s).sent ++ [.read (leBytes 4 (regRead x.addr.toNat { begin' dt s with tri.seq := (s.tri.seq + 1) % 65536 }).2)]))
    ∧ (exec (.signatureBeat dt (allSee x)) s =
        .next { begin' dt s with tri.seq := (s.tri.seq + 1) % 65536, tri.beatCount := leNat (x.data.take 8), tri.beatCrc := leNat ((x.data.drop 8).take 4) })

/-- With three lit lanes, a lane that alone differs in a compare group, or is more than 2 lane clocks apart, or times out beyond 96 lane clocks, leads to the commit of what the others present and to the dim of that lane, counted per group (or as a timeout) and recorded; no other lane changes. With two lit lanes, a difference or a timeout is a vital fault, as are three lanes of which no two agree. Where V1 and V2 differ in their verdicts, nothing commits, the sequence number stays, the lanes stall and the voter restarts; where its ember generation has served already, that is a vital fault. -/
def Obligations.VoteVerdicts : Prop :=
  ∀ (dt : Nat) (l : LaneId) (x y z : LaneTx) (tx : VotedTx) (s : State), triadVotes s = true →
    (litLanes s = allLanes → apart y.at' x.at' ≤ 96 → (txDiff y x ≠ 0 ∨ 2 < apart y.at' x.at') →
      thirdRelight (lane l s) (begin' dt s) = false → delayPath (lane l s) s = false →
      Yields (exec (.signatureBeat dt { v1 := oneOdd l x (some y), v2 := oneOdd l x (some y) }) s) (fun t =>
        WritesOnly [.tri, .regs, .sta, .evr] (begin' dt s) t ∧ LanesOnly [l] s t
        ∧ (lane l t).st = .dimmed ∧ (lane l t).dimAt = now (begin' dt s) ∧ (lane l t).dims = sat 0xFFFF ((lane l s).dims + 1)
        ∧ t.tri.seq = (s.tri.seq + 1) % 65536 ∧ t.tri.beatCount = leNat (x.data.take 8)
        ∧ (∀ g, g < 4 → rv (0x020010 + 16 * laneIdx l + 4 * g) t =
            if bit (txDiff y x + 8 * b2n (decide (2 < apart y.at' x.at'))) g
            then sat 0xFFFFFFFF (rv (0x020010 + 16 * laneIdx l + 4 * g) s + 1) else rv (0x020010 + 16 * laneIdx l + 4 * g) s)
        ∧ RecordTypes [0x4101] s t))
    ∧ (∀ v : Option LaneTx, litLanes s = allLanes → (v = none ∨ ∃ y, v = some y ∧ x.at' + 96 < y.at') →
      thirdRelight (lane l s) (begin' dt s) = false → delayPath (lane l s) s = false →
      Yields (exec (.signatureBeat dt { v1 := oneOdd l x v, v2 := oneOdd l x v }) s) (fun t =>
        WritesOnly [.tri, .regs, .sta, .evr] (begin' dt s) t ∧ LanesOnly [l] s t
        ∧ (lane l t).st = .dimmed ∧ t.tri.seq = (s.tri.seq + 1) % 65536 ∧ t.tri.beatCount = leNat (x.data.take 8)
        ∧ rv (0x020040 + 4 * laneIdx l) t = sat 0xFFFFFFFF (rv (0x020040 + 4 * laneIdx l) s + 1)
        ∧ RecordTypes [0x4101] s t))
    ∧ (mayHalt s → litLanes s = [.a, .b] → (txDiff x y ≠ 0 ∨ 2 < apart x.at' y.at') →
      Yields (exec (.votedTransaction dt { v1 := { a := some x, b := some y, c := none }, v2 := { a := some x, b := some y, c := none } }) s)
        (fun t => Halted t ∧ t.tri.seq = s.tri.seq ∧ t.mem = s.mem))
    ∧ (mayHalt s → litLanes s = [.a, .b] →
      Yields (exec (.votedTransaction dt { v1 := { a := some x, b := none, c := none }, v2 := { a := some x, b := none, c := none } }) s)
        (fun t => Halted t ∧ t.tri.seq = s.tri.seq ∧ t.mem = s.mem))
    ∧ (mayHalt s → litLanes s = allLanes → txDiff x y ≠ 0 → txDiff y z ≠ 0 → txDiff x z ≠ 0 →
      Yields (exec (.votedTransaction dt { v1 := { a := some x, b := some y, c := some z }, v2 := { a := some x, b := some y, c := some z } }) s)
        (fun t => Halted t ∧ t.tri.seq = s.tri.seq ∧ t.mem = s.mem))
    ∧ (judge (litLanes s) tx.v1 ≠ judge (litLanes s) tx.v2 → s.tri.voter.used = false →
      Yields (exec (.votedTransaction dt tx) s) (fun t =>
        WritesOnly [.tri, .regs] (begin' dt s) t ∧ RegsOnly [0x020004] s t ∧ t.tri.seq = s.tri.seq
        ∧ t.tri.held = s.tri.held ++ [tx] ∧ t.tri.voter.restart = some (begin' dt s).clk.up ∧ t.tri.voter.used = true
        ∧ t.tri.hold.isSome = true ∧ t.tri.stallFrom.isSome = true
        ∧ rf 0x020004 16 16 t = sat 0xFFFF (rf 0x020004 16 16 s + 1)))
    ∧ (mayHalt s → judge (litLanes s) tx.v1 ≠ judge (litLanes s) tx.v2 → s.tri.voter.used = true →
      Yields (exec (.votedTransaction dt tx) s) (fun t => Halted t ∧ t.tri.seq = s.tri.seq ∧ t.mem = s.mem))

/-- While the triad votes with three lit lanes, a timeout of one lane commits what the other two present, and a timeout or a monitor trip (eight samples beyond the trip point from the median, found alike by both halves) dims that lane with its count and record, or, where it is the third relight within 3,600 s or the second boundary has not passed, retires it with the causes, and degraded operation begins with its two records. With two lit lanes such a monitor finding is a vital fault. A dimmed lane whose self-test passes within 200 us is READY, otherwise RETIRED. A relight without a finding, whose forced beat all lanes present alike, makes the lane LIT, counts it, leaves every data cache clean and advances the sequence number by the lines written back, the 64 writes of the buffer and the beat; one with a missed injection retires it; in split mode an attached lane comes back without vote. The second DEGRADED_NOTICE is written once, one hour before the limit. -/
def Obligations.LaneEventEffects : Prop :=
  ∀ (dt : Nat) (l : LaneId) (x : LaneTx) (v : Option LaneTx) (mq : MonQuantity) (m : MonIn) (r : RelightIn) (s : State),
    (triadVotes s = true → litLanes s = allLanes → x.kind = .beat → (v = none ∨ ∃ y, v = some y ∧ x.at' + 96 < y.at') →
      (thirdRelight (lane l s) (begin' dt s) = false → delayPath (lane l s) s = false →
        Yields (exec (.laneTimeout dt { v1 := oneOdd l x v, v2 := oneOdd l x v }) s) (fun t =>
          WritesOnly [.tri, .regs, .sta, .evr] (begin' dt s) t ∧ LanesOnly [l] s t ∧ (lane l t).st = .dimmed
          ∧ (lane l t).dims = sat 0xFFFF ((lane l s).dims + 1) ∧ t.tri.retired = s.tri.retired
          ∧ t.tri.seq = (s.tri.seq + 1) % 65536 ∧ t.tri.beatCount = leNat (x.data.take 8)
          ∧ rv (0x020040 + 4 * laneIdx l) t = sat 0xFFFFFFFF (rv (0x020040 + 4 * laneIdx l) s + 1) ∧ RecordTypes [0x4101] s t))
      ∧ ((thirdRelight (lane l s) (begin' dt s) = true ∨ delayPath (lane l s) s = true) →
        Yields (exec (.laneTimeout dt { v1 := oneOdd l x v, v2 := oneOdd l x v }) s) (fun t =>
          WritesOnly [.tri, .regs, .sta, .evr] (begin' dt s) t ∧ LanesOnly [l] s t ∧ (lane l t).st = .retired ∧ t.tri.retired = some l
          ∧ t.tri.causes = b2n (thirdRelight (lane l s) (begin' dt s)) + 2 * b2n (delayPath (lane l s) s)
          ∧ t.tri.retireAt = now (begin' dt s) ∧ t.tri.limitH = s.cfg.degradeH ∧ t.tri.seq = (s.tri.seq + 1) % 65536
          ∧ RecordTypes [0x4103, 0x4104] s t)))
    ∧ (triadVotes s = true → litLanes s = allLanes → position (begin' dt s) % 10 = 0 → m.v1.length = 8 → m.v2 = m.v1 →
      (∀ y ∈ m.v1, Config.tripPoint (monIdx mq) < (monVal l y - median3i y.a y.b y.c).natAbs) →
      (∀ k : LaneId, k ≠ l → ∃ y ∈ m.v1, (monVal k y - median3i y.a y.b y.c).natAbs ≤ Config.tripPoint (monIdx mq)) →
      (thirdRelight (lane l s) (begin' dt s) = false → delayPath (lane l s) s = false →
        Yields (exec (.laneMonitorTrip dt mq m) s) (fun t =>
          WritesOnly [.tri, .regs, .sta, .evr] (begin' dt s) t ∧ RegsOnly [0x0F006C] s t ∧ LanesOnly [l] s t ∧ (lane l t).st = .dimmed
          ∧ (lane l t).dims = sat 0xFFFF ((lane l s).dims + 1) ∧ t.tri.seq = s.tri.seq ∧ RecordTypes [0x4101] s t))
      ∧ ((thirdRelight (lane l s) (begin' dt s) = true ∨ delayPath (lane l s) s = true) →
        Yields (exec (.laneMonitorTrip dt mq m) s) (fun t =>
          LanesOnly [l] s t ∧ (lane l t).st = .retired ∧ t.tri.retired = some l ∧ RecordTypes [0x4103, 0x4104] s t)))
    ∧ (mayHalt s → triadVotes s = true → litLanes s = [.a, .b] → position (begin' dt s) % 10 = 0 → m.v1.length = 8 → m.v2 = m.v1 →
      (∀ y ∈ m.v1, Config.tripPoint (monIdx mq) < (y.a - y.b).natAbs) → Yields (exec (.laneMonitorTrip dt mq m) s) Halted)
    ∧ (powered s = true → (lane l s).st = .dimmed → nowLin (begin' dt s) - lin (lane l s).dimAt ≤ usLin s 200 →
      Yields (exec (.selfTestDone dt l true) s) (fun t =>
        WritesOnly [.tri] (begin' dt s) t ∧ LanesOnly [l] s t ∧ lane l t = { lane l s with st := .ready }))
    ∧ (powered s = true → (lane l s).st = .dimmed →
      Yields (exec (.selfTestDone dt l false) s) (fun t =>
        WritesOnly [.tri, .regs, .sta, .evr] (begin' dt s) t ∧ LanesOnly [l] s t ∧ (lane l t).st = .retired ∧ t.tri.retired = some l
        ∧ t.tri.causes = 4 ∧ RecordTypes [0x4103, 0x4104] s t))
    ∧ (triadVotes s = true → (lane r.lane s).st = .relighting → litLanes s = allLanes.filter (fun k => k != r.lane) →
      r.missed = 0#8 → r.disagree = none → r.beat = allSee x →
      Yields (exec (.relight dt r) s) (fun t =>
        WritesOnly [.tri, .regs, .sta, .evr, .prg, .mem, .xch] (begin' dt s) t
        ∧ (∀ k : LaneId, k ≠ r.lane → lane k t = { lane k s with dirty := [] }) ∧ (lane r.lane t).dirty = []
        ∧ (lane r.lane t).st = .lit ∧ (lane r.lane t).relights = sat 0xFFFF ((lane r.lane s).relights + 1)
        ∧ (lane r.lane t).lastRelight = some s.clk.cycle ∧ t.prg.releaseHeld = false
        ∧ t.tri.seq = (s.tri.seq + (litLanes s).foldl (fun n k => max n (lane k s).dirty.length) 0 + 65) % 65536
        ∧ t.tri.beatCount = leNat (x.data.take 8)
        ∧ (∀ n ∈ injectionsOf r.lane, rf 0x02004C n 1 t = 1) ∧ RecordTypes [0x4102] s t))
    ∧ (triadVotes s = true → (lane r.lane s).st = .relighting → r.missed ≠ 0#8 → r.disagree = none →
      Yields (exec (.relight dt r) s) (fun t => (lane r.lane t).st = .retired ∧ t.tri.retired = some r.lane
        ∧ t.tri.causes = 8 ∧ RecordTypes [0x4103, 0x4104] s t))
    ∧ (lanesRun s = true → s.cfg.split = true → (lane r.lane s).st = .relighting →
      Yields (exec (.relight dt r) s) (fun t => LanesOnly [r.lane] s t ∧ (lane r.lane t).st = .lit ∧ t.tri.seq = s.tri.seq ∧ RecordTypes [0x4102] s t))
    ∧ (powered s = true → s.tri.retired = some l → s.tri.noticed = false →
      degradedEnd s ≤ cycleLin s.clk.cycle + secLin s 3600 →
      Yields (exec (.degradedNotice dt) s) (fun t => WritesOnly [.tri, .regs, .evr] (begin' dt s) t ∧ RegsOnly [0x0F006C] s t
        ∧ t.tri = { s.tri with noticed := true } ∧ RecordTypes [0x4104] s t))

/-- With strap and permit: an attach while three lanes are lit takes that lane out of the vote (ATTACHED), counted and recorded; a halt of the attached lane halts it; a detach, and the end of the degraded limit, let it go to self-test, recorded. An attach of a second lane, or with fewer than three lit, and a halt of a lit lane beside an attached one, break the triad: recorded, and a vital fault that bars edges. In split mode a lit lane may be attached or halted beside the other. On an inert interface an attempt is only counted and recorded. -/
def Obligations.DebugCommandEffects : Prop :=
  ∀ (dt : Nat) (l : LaneId) (act : Byte) (a : Nat) (s : State), powered s = true →
    (debugOn s = true → ((s.cfg.split = false ∧ s.dbg.attached = [] ∧ litLanes s = allLanes) ∨ (s.cfg.split = true ∧ (lane l s).st = .lit)) →
      Yields (exec (.debugAttach dt l) s) (fun t =>
        WritesOnly [.tri, .dbg, .regs, .evr] (begin' dt s) t ∧ LanesOnly [l] s t ∧ RegsOnly [0x130010, 0x0F006C] s t
        ∧ lane l t = { lane l s with st := .attached, fromAttached := true, dirty := [] }
        ∧ t.dbg = { s.dbg with attached := (l, now (begin' dt s)) :: s.dbg.attached, attachAt := now (begin' dt s) }
        ∧ rv 0x130010 t = sat 0xFFFFFFFF (rv 0x130010 s + 1) ∧ RecordTypes [0x5301] s t))
    ∧ (mayHalt s → debugOn s = true → s.cfg.split = false → (s.dbg.attached ≠ [] ∨ (litLanes s).length < 3) →
      Yields (exec (.debugAttach dt l) s) (fun t => Halted t ∧ t.dbg.broke = true ∧ edgesBarred t = true ∧ Recorded 0x5302 s t))
    ∧ (debugOn s = true → (isAttached l s = true ∨ (s.cfg.split = true ∧ (lane l s).st = .lit)) →
      Yields (exec (.debugHalt dt l) s) (fun t => WritesOnly [.tri] (begin' dt s) t ∧ LanesOnly [l] s t
        ∧ lane l t = { lane l s with halted := true }))
    ∧ (mayHalt s → debugOn s = true → s.cfg.split = false → s.dbg.attached ≠ [] → isAttached l s = false → (lane l s).st = .lit →
      Yields (exec (.debugHalt dt l) s) (fun t => Halted t ∧ t.dbg.broke = true ∧ edgesBarred t = true ∧ Recorded 0x5302 s t))
    ∧ (debugOn s = true → isAttached l s = true →
      Yields (exec (.debugDetach (dt, l)) s) (fun t =>
        WritesOnly [.tri, .dbg, .regs, .evr] (begin' dt s) t ∧ LanesOnly [l] s t ∧ RegsOnly [0x0F006C] s t
        ∧ (lane l t).st = .dimmed ∧ (lane l t).halted = false ∧ (lane l t).dimAt = now (begin' dt s)
        ∧ t.dbg = { s.dbg with attached := s.dbg.attached.filter (fun x => x.1 != l) } ∧ RecordTypes [0x5301] s t))
    ∧ (s.dbg.attached = [(l, a)] → lin a + secLin s (3600 * s.cfg.degradeH) ≤ nowLin (begin' dt s) →
        Yields (exec (.debugAttachLimit dt) s) (fun t =>
          WritesOnly [.tri, .dbg, .regs, .evr] (begin' dt s) t ∧ LanesOnly [l] s t ∧ (lane l t).st = .dimmed
          ∧ (lane l t).halted = false ∧ (lane l t).dimAt = now (begin' dt s) ∧ t.dbg = { s.dbg with attached := [] } ∧ RecordTypes [0x5301] s t))
    ∧ (debugOn s = false →
      Yields (exec (.debugDenied dt l act) s) (fun t =>
        WritesOnly [.regs, .evr] (begin' dt s) t ∧ RegsOnly [0x130014, 0x0F006C] s t
        ∧ rv 0x130014 t = sat 0xFFFFFFFF (rv 0x130014 s + 1)
        ∧ Records [recNow 0x9303 [(1, laneIdx l), (1, act.toNat)] (begin' dt s)] s t)
      ∧ exec (.debugAttach dt l) s = exec (.debugDenied dt l 1#8) s ∧ exec (.debugDetach (dt, l)) s = exec (.debugDenied dt l 2#8) s
      ∧ exec (.debugHalt dt l) s = exec (.debugDenied dt l 3#8) s)

/-- Within 200 us of the first disagreement, a restored unit that was the last in restart ends the stall and the hold window and moves every deadline by the stall; the voter pair has each lane, the retirement and the attached lane as its newest ember with its journal gives them, and the injections of the lit lanes noted as found; the lattice pair has its P tables as the newest snapshot with its journal gives them, its N tables as their complement, and no other byte of memory changes; the field pair has its pins and groups as its newest ember with its journal gives them. A held transaction on which the halves differ again, a unit that is not restored, a restart that ends after the window, and the end of the window with a unit still in restart halt the module. -/
def Obligations.RestartsComplete : Prop :=
  (∀ (dt : Nat) (r : RestartIn) (s : State), powered s = true → (duplex r.unit s).restart.isSome = true →
    (∀ t0, s.tri.hold = some t0 → (begin' dt s).clk.up - t0 ≤ usUp 200) →
    (r.restored = true → s.fio.applyDue = false → s.prg.releaseHeld = false →
      (r.unit = .voter → r.missed = 0#24 → s.tri.held = [] → s.tri.lattice.restart = none → s.tri.field.restart = none →
        Yields (exec (.restartComplete dt r) s) (fun t =>
          WritesOnly [.tri, .dbg, .sta, .regs, .prg] (begin' dt s) t ∧ RegsOnly [0x02004C] s t
          ∧ (∀ l, lane l t = lane l (voterRestore s)) ∧ t.tri.retired = (voterRestore s).tri.retired ∧ t.dbg = (voterRestore s).dbg ∧ t.sta = (voterRestore s).sta
          ∧ t.tri.voter = { s.tri.voter with restart := none } ∧ t.tri.held = [] ∧ t.tri.hold = none ∧ t.tri.stallFrom = none ∧ stallMoved dt s t
          ∧ (∀ l ∈ litLanes (voterRestore s), ∀ n ∈ injectionsOf l, rf 0x02004C n 1 t = 1)))
      ∧ (r.unit = .lattice → r.missed = 0#24 → s.lat.stepDue = false → Memory.wf (latticeOf s) = true →
        s.tri.voter.restart = none → s.tri.field.restart = none →
        Yields (exec (.restartComplete dt r) s) (fun t =>
          WritesOnly [.tri, .mem, .vm, .prg] (begin' dt s) t
          ∧ t.tri.lattice = { s.tri.lattice with restart := none } ∧ t.tri.hold = none ∧ t.tri.stallFrom = none ∧ stallMoved dt s t
          ∧ (∀ a, (∀ x ∈ [(0x100440000, 0x40000), (0x100488000, 0x8000), (0x100494000, 0x4000)], a < x.1 ∨ x.1 + x.2 ≤ a) →
              memGet a t.mem = memGet a (latticeOf s))
          ∧ (∀ a, 0x100400000 ≤ a → a < 0x100440000 → memGet (a + 0x40000) t.mem = ~~~ memGet a (latticeOf s))
          ∧ (∀ a, 0x100480000 ≤ a → a < 0x100488000 → memGet (a + 0x8000) t.mem = ~~~ memGet a (latticeOf s))
          ∧ (∀ a, 0x100490000 ≤ a → a < 0x100494000 → memGet (a + 0x4000) t.mem = ~~~ memGet a (latticeOf s))))
      ∧ (r.unit = .field → r.missed = 0#24 → r.crossings = [] → r.lost = [] → s.fio.permitDue = false → (∀ n, (pin n s).swallowed = false) →
        s.tri.voter.restart = none → s.tri.lattice.restart = none →
        Yields (exec (.restartComplete dt r) s) (fun t =>
          WritesOnly [.tri, .fio, .prg] (begin' dt s) t
          ∧ t.tri.field = { s.tri.field with restart := none } ∧ t.tri.hold = none ∧ t.tri.stallFrom = none ∧ stallMoved dt s t
          ∧ t.fio = { (fieldRestore s).fio with pins := (fieldRestore s).fio.pins.map (fun p => { p with msgAt := (begin' dt s).clk.up }) })))
    ∧ (mayHalt s → r.restored = false → Yields (exec (.restartComplete dt r) s) Halted)
    ∧ (mayHalt s → r.restored = true → r.unit = .voter → r.missed = 0#24 → s.cfg.split = false → s.fio.applyDue = false → s.prg.releaseHeld = false →
      ∀ tx rest, s.tri.held = tx :: rest → r.again = [] → judge (litLanes (voterRestore s)) tx.v1 ≠ judge (litLanes (voterRestore s)) tx.v2 →
        Yields (exec (.restartComplete dt r) s) Halted))
  ∧ (∀ (dt : Nat) (r : RestartIn) (s : State) (t0 : Nat), mayHalt s → s.tri.hold = some t0 →
      ((duplex r.unit s).restart.isSome = true → usUp 200 < (begin' dt s).clk.up - t0 → Yields (exec (.restartComplete dt r) s) Halted)
      ∧ (anyRestart s = true → usUp 200 ≤ (begin' dt s).clk.up - t0 →
          Yields (exec (.holdWindowExpiry dt) s) (fun t => Halted t ∧ t.tri.hold = none)))

/-- At a boundary of a powered module that has started, at which no restart ends, the rest of the cycle passes, the position is 0 and CYCLE rises by one (a provisional one no further than 0xFFFF_FFFF, otherwise modulo 2^40); each unit not in restart has a new ember with its present contents, keeps the one before, and the new generation has served no restart, and a unit in restart keeps its own; the force indication runs exactly while the table holds a force. In FREE with the request held, station time adopted from a link, no stall and a stored edge, where the timer step finds no fault, NORMAL begins, and the edge and the request are used up. -/
def Obligations.MinorBoundaryEffects : Prop :=
  ∀ (k : Int) (s : State), s.pwr.phase = .running →
    Yields (exec (.minorCycleBoundary { skew := k }) s) (fun t =>
      t.clk.pos = 0 ∧ t.clk.up = s.clk.up + (cycleTicks s - s.clk.pos)
      ∧ t.clk.cycle = (if s.clk.prov = true then min (s.clk.cycle + 1) 0xFFFFFFFF else (s.clk.cycle + 1) % 2 ^ 40)
      ∧ t.clk.prov = s.clk.prov
      ∧ t.tri.voter = emberOf s.tri.voter ∧ t.tri.field = emberOf s.tri.field ∧ t.tri.lattice.gen = (emberOf s.tri.lattice).gen
      ∧ t.tri.embers = (if s.tri.voter.restart.isSome = true then s.tri.embers else (voterEmber s :: s.tri.embers).take 2)
      ∧ t.fio.embers = (if s.tri.field.restart.isSome = true then s.fio.embers else (fieldEmber s :: s.fio.embers).take 2)
      ∧ t.lat.snaps = (if s.tri.lattice.restart.isSome = true then s.lat.snaps else (latticeSnap s.mem :: s.lat.snaps).take 2)
      ∧ t.frc.ind = !t.frc.table.isEmpty)
    ∧ (s.prg.mode = .free → s.prg.reqNormal = true → s.lnk.timed = true → s.lnk.pair = .none → s.clk.prov = false → s.tri.stallFrom = none →
      s.snu.edgeStored = true → (latticeStep { disagree := false } (atTimerStep k s)).prg.mode = .free →
      (latticeStep { disagree := false } (atTimerStep k s)).tri.stallFrom = none →
      Yields (exec (.minorCycleBoundary { skew := k }) s) (fun t =>
        t.prg.mode = .normal ∧ t.prg.reqNormal = false ∧ t.prg.normalAt = some t.clk.cycle ∧ t.snu.edgeStored = false
        ∧ t.pwr.haltedSince = false))

/-- Once per major cycle, in a module without a pair: where the readback of the cycle that ended does not count or is complete, the count is cleared, and the anchor of integrated station time is written with the next sequence; nothing else changes unless a test request is held in NORMAL, which leads to FREE, cause TEST, with every output off. A readback that counts and is short is recorded and halts the module. -/
def Obligations.MajorBoundaryEffects : Prop :=
  ∀ (dt : Nat) (s : State), s.pwr.phase = .running → s.clk.cycle % 1000 = 0 → s.prg.majorAt ≠ some s.clk.cycle → s.lnk.pair = .none →
    ((readbackCounts s = false ∨ s.cfg.readback.length ≤ rf 0x040030 0 10 s) → s.prg.reqTest = false →
      Yields (exec (.majorCycleBoundary dt) s) (fun t =>
        WritesOnly [.prg, .regs, .cand] (begin' dt s) t ∧ RegsOnly [0x040030] s t ∧ rv 0x040030 t = 0
        ∧ t.prg = { (begin' dt s).prg with majorAt := some s.clk.cycle }
        ∧ (s.clk.prov = true → t.cand = (begin' dt s).cand)
        ∧ (s.clk.prov = false → s.cand.framErr = false → s.cand.framProt = false →
            anchorRec t = some { ancSeq := (match anchorRec s with | some y => y.ancSeq + 1 | none => 1), epoch := s.cfg.epoch, kind := 1, stamp := now (begin' dt s) })))
    ∧ ((readbackCounts s = false ∨ s.cfg.readback.length ≤ rf 0x040030 0 10 s) → pinsOf s → s.prg.reqTest = true → s.prg.mode = .normal →
      Yields (exec (.majorCycleBoundary dt) s) (fun t => t.prg.mode = .free ∧ t.prg.cause = .test ∧ t.prg.reqTest = false ∧ outputsOff t = true
        ∧ Recorded 0x4003 s t))
    ∧ (mayHalt s → readbackCounts s = true → rf 0x040030 0 10 s < s.cfg.readback.length →
      Yields (exec (.majorCycleBoundary dt) s) (fun t => Halted t ∧ Recorded 0x4402 s t))

/-- A power-up with a failing lane test, or with a lane that is retired since the last power-off, stops at step 3; one whose tests pass ends in FREE, cause START, with three lanes lit (two in split mode), or without a configuration, or stopped at step 9, and in each case with every output off, both paths open and the POWER_UP record first. NRST low for 1 us or more resets everything but NOR, the event store and the candle domain, and keeps a retirement and the bar of a limit, which VIN below 10.0 V ends; a shorter pulse does nothing. Below 10.0 V nothing runs and RAM is lost. Two samples below 13.5 V shut the module down: outputs off, paths open, the shutdown record COMPLETE, FRAM protected. -/
def Obligations.PowerCommandEffects : Prop :=
  ∀ (dt : Nat) (p : PowerUpIn) (s : State),
    ((s.pwr.phase = .off ∨ s.pwr.phase = .inReset ∨ s.pwr.phase = .done) → pinsOf s →
      ((p.lbistA = false ∨ s.tri.retired.isSome = true) →
        Yields (exec (.powerUp dt p) s) (fun t => t.pwr.phase = .stopped ∧ t.cand.bootStep = 3 ∧ t.cand.bootFail = 1
          ∧ litLanes t = [] ∧ t.tri.retired = s.tri.retired ∧ outputsOff t = true ∧ pathsOpen t = true))
      ∧ (p.framOk = true → s.cand.framErr = false → inTrial s = false → s.tri.retired = none → p.lbistA = true → p.lbistB = true → p.lbistC = true → p.lbistUnits = true →
          p.ramOk = true → p.norOk = true → p.norAgain = true → p.injMissed = 0#24 → p.walkOk = true →
        Yields (exec (.powerUp dt p) s) (fun t => t.pending = s.pending ∧ outputsOff t = true ∧ pathsOpen t = true
          ∧ t.pwr.nrst = true ∧ t.pwr.strap = p.strap ∧ t.pwr.limitBar = s.pwr.limitBar ∧ t.cand.cause = (if s.pwr.phase = .done then 5 else s.pwr.wake)
          ∧ (t.evr.queue.head?.map Rec.ty) = some 0x4001
          ∧ (t.pwr.phase = .noConfig
              ∨ (t.pwr.phase = .stopped ∧ t.cand.bootStep = 9 ∧ t.cand.bootFail = 5)
              ∨ (t.pwr.phase = .running ∧ t.prg.mode = .free ∧ t.prg.cause = .start ∧ t.cand.bootStep = 10
                  ∧ t.tri.a.st = .lit ∧ t.tri.b.st = .lit ∧ t.tri.c.st = (if t.cfg.split = true then .off else .lit))))))
    ∧ (∀ ns : Nat, ns < 1000 → exec (.nrstLow dt ns) s = .next (begin' dt s))
    ∧ (∀ ns : Nat, 1000 ≤ ns → s.pwr.phase ≠ .off → pinsOf s →
      Yields (exec (.nrstLow dt ns) s) (fun t => t.pwr.phase = .inReset ∧ t.pwr.nrst = false ∧ t.pwr.wake = 2 ∧ t.pwr.limitBar = s.pwr.limitBar ∧ t.regs = [] ∧ t.prg = {} ∧ t.frc = {}
        ∧ t.clk = {} ∧ t.tri = keptTriad s.tri ∧ t.dbg = { broke := s.dbg.broke } ∧ t.cfg = {} ∧ t.rings = State.reset.rings ∧ t.bus = {} ∧ t.tel = {} ∧ t.lat = {} ∧ outputsOff t = true ∧ pathsOpen t = true
        ∧ t.cand.sel = s.cand.sel ∧ t.cand.sd = s.cand.sd ∧ t.cand.anchor = s.cand.anchor ∧ t.cand.session = s.cand.session ∧ t.cand.light = s.cand.light
        ∧ t.evr = { j := s.evr.j, d := s.evr.d }
        ∧ t.mem = memSlice 0x200000000 0x208000000 s.mem))
    ∧ (pinsOf s →
      Yields (exec (.vinLoss dt) s) (fun t => t.pwr.phase = .off ∧ t.pwr.wake = 1 ∧ t.pwr.limitBar = false ∧ t.tri = {} ∧ t.dbg = {} ∧ powered t = false ∧ t.regs = [] ∧ t.prg = {} ∧ outputsOff t = true ∧ pathsOpen t = true
        ∧ t.evr = { j := s.evr.j, d := s.evr.d } ∧ t.cand.sel = s.cand.sel ∧ t.mem = memSlice 0x200000000 0x208000000 s.mem))
    ∧ (∀ mv1 mv2 us : Nat, canShut s = true → pinsOf s → mv1 < 13500 → mv2 < 13500 → 3600 ≤ us →
      Yields (exec (.powerFailWarning dt mv1 mv2 us) s) (fun t => t.pwr.phase = .done ∧ t.cand.framProt = true ∧ outputsOff t = true ∧ pathsOpen t = true
        ∧ t.prg.active = [] ∧ (s.cand.framErr = false → s.cand.framProt = false →
            ∃ x, sdRecord t = some x ∧ x.result = 2 ∧ x.cause = 1 ∧ x.mode = modeCode s.prg.mode ∧ x.lit = litMask s ∧ x.grpCut = cutMask s ∧ x.cfgSeq = s.cfg.seq)))
    ∧ (∀ mv1 mv2 us : Nat, canShut s = true → pinsOf s → mv1 < 13500 → mv2 < 13500 → us < 3600 →
      Yields (exec (.powerFailWarning dt mv1 mv2 us) s) (fun t => t.pwr.phase = .shutdown ∧ outputsOff t = true ∧ t.prg.active = []
        ∧ t.cand.framProt = s.cand.framProt))
    ∧ (∀ mv1 mv2 us : Nat, (13500 ≤ mv1 ∨ 13500 ≤ mv2) → exec (.powerFailWarning dt mv1 mv2 us) s = .next (begin' dt s))

/-- At the first major-cycle boundary at or after the end of the limit of a retired lane, or of a recorder that is down where the configuration asks for it, the module goes to HALTED with every output off, both paths open, no release, no force and no stored edge, and it bars edges. While the limit had not ended at that boundary, the two commands change nothing but the clocks. -/
def Obligations.LimitsEndInTheSafeState : Prop :=
  ∀ (dt : Nat) (s : State), s.pwr.phase = .running → pinsOf s → s.clk.cycle % 1000 = 0 →
    ((∃ l, s.tri.retired = some l) → degradedEnd s ≤ cycleLin s.clk.cycle →
      Yields (exec (.degradedExpired dt) s) (fun t => t.pwr.phase = .expired ∧ t.prg.mode = .halted ∧ edgesBarred t = true ∧ t.prg.active = []
        ∧ t.frc.table = [] ∧ t.snu.edgeStored = false ∧ outputsOff t = true ∧ pathsOpen t = true))
    ∧ (s.evr.st = .down → s.cfg.recShutdown = true → s.evr.downAt + secLin s (3600 * s.cfg.recFailH) ≤ cycleLin s.clk.cycle →
      Yields (exec (.recorderExpired dt) s) (fun t => t.pwr.phase = .expired ∧ t.prg.mode = .halted ∧ edgesBarred t = true ∧ t.prg.active = []
        ∧ t.frc.table = [] ∧ t.snu.edgeStored = false ∧ outputsOff t = true ∧ pathsOpen t = true))
    ∧ (cycleLin s.clk.cycle < degradedEnd s → exec (.degradedExpired dt) s = .next (begin' dt s))
    ∧ (cycleLin s.clk.cycle < s.evr.downAt + secLin s (3600 * s.cfg.recFailH) → exec (.recorderExpired dt) s = .next (begin' dt s))

/-- At its position the freeze writes each configured input point with its live value, or the force with FORCED and the live RESTRICT, to both copies of the input image and to nothing else. The apply shows each configured output point with its value in the output image or its force, and FORCED in that image exactly under a force; after it every pin that is on may be driven, and up to four pins that may be driven are on; while a duplex unit restarts, the apply waits for the end of the restart; where the sequencer halves disagree on it, they restart, or halt the module where that ember has served. A compare point that is due fires once, triggering the event tasks that name it. -/
def Obligations.ImagesFreezeAndApply : Prop :=
  ∀ (dt : Nat) (s : State),
    (s.pwr.phase = .running → s.prg.frozen = false → s.cfg.tasks.inFreeze ≤ position (begin' dt s) → Memory.wf s.mem = true →
      (∀ x ∈ liveInputs s, x.1 < 8192) → (liveInputs s).Pairwise (fun x y => x.1 ≠ y.1) →
      Yields (exec (.inputFreeze dt) s) (fun t =>
        WritesOnly [.mem, .prg] (begin' dt s) t
        ∧ t.prg = { (begin' dt s).prg with img := memSlice 0x07010000 0x07020000 t.mem, frozen := true }
        ∧ MemOnly [(0x07010000, 0x10000), (0x0F010000, 0x10000)] s t
        ∧ (∀ x ∈ liveInputs s, memNat (0x07010000 + 8 * x.1) 8 t.mem =
            (match forceOn false x.1 s with | some f => f + 2 ^ 32 + 2 ^ 33 * bits x.2 33 1 | none => x.2) % 2 ^ 64)))
    ∧ (s.pwr.phase = .running → s.prg.appliedNow = false → s.cfg.tasks.outApply ≤ position (begin' dt s) → Memory.wf s.mem = true → (∀ p ∈ outputPoints s, p < 8192) →
      (anyRestart s = false → pinsOf s →
        Yields (exec (.outputApply (dt, false)) s) (fun t =>
          WritesOnly [.sent, .prg, .regs, .fio, .evr, .mem] (begin' dt s) t ∧ t.prg.appliedNow = true
          ∧ (∀ p ∈ outputPoints s, assocGet p t.prg.applied =
              some (match forceOn true p s with | some f => f + 2 ^ 32 | none => memNat (0x07020000 + 8 * p) 4 s.mem))
          ∧ (∀ p ∈ outputPoints s, bit (memNat (0x07020000 + 8 * p) 8 t.mem) 32 = (forceOn true p s).isSome)
          ∧ MemOnly ((outputPoints s).map (fun p => (0x07020004 + 8 * p, 1)) ++ (outputPoints s).map (fun p => (0x0F020004 + 8 * p, 1))) s t
          ∧ (∀ n ∈ allPins, (pin n t).cmd = true → mayDrive n t = true)
          ∧ ((allPins.filter (fun n => mayDrive n t)).length ≤ 4 → ∀ n ∈ allPins, mayDrive n t = true → (pin n t).cmd = true)))
      ∧ (∀ d : Bool, anyRestart s = true →
        Yields (exec (.outputApply (dt, d)) s) (fun t => WritesOnly [.prg, .fio, .mem] (begin' dt s) t
          ∧ t.fio = { s.fio with applyDue := true } ∧ t.prg.appliedNow = true))
      ∧ (anyRestart s = false → s.tri.field.used = false →
        Yields (exec (.outputApply (dt, true)) s) (fun t => t.fio = { s.fio with applyDue := true } ∧ t.tri.field = { s.tri.field with restart := some (begin' dt s).clk.up, used := true }
          ∧ t.tri.stallFrom.isSome = true ∧ t.tri.hold.isSome = true))
      ∧ (anyRestart s = false → s.tri.field.used = true → mayHalt s → Yields (exec (.outputApply (dt, true)) s) Halted))
    ∧ (∀ n : Fin 8, inNormal s = true → s.tri.stallFrom = none → cpDue n.val (begin' dt s) = true →
      Yields (exec (.comparePoint dt n) s) (fun t => WritesOnly [.prg, .xch] (begin' dt s) t
        ∧ t.prg.cpFired = (cpMark n.val s).prg.cpFired ∧ t.prg.cpLate = (cpMark n.val s).prg.cpLate ∧ t.prg.active = (begin' dt s).prg.active
        ∧ (∀ e ∈ s.cfg.tasks.entries, 16 ≤ e.id → e.id < 48 → e.trig = 4 → e.tsel = n.val → s.xch.window = false →
            taskActive e.id false s = false → (taskState e.id false s).heldTrig = none →
            (taskState e.id false t).heldTrig = some (now (begin' dt s), n.val) ∧ (taskState e.id false s).trigCount < (taskState e.id false t).trigCount)))

/-- In NORMAL, outside stalls, pauses and exchange windows, an event task that is not active and whose separation is over is released with the stamp and detail of its first held trigger, the count of triggers, its deadline, cleared scratch registers and the image frozen last; its triggers are used up, and nothing else changes. REQ_NORMAL in FREE holds the request. REQ_TEST in NORMAL needs a verified TEST token, which it consumes; without one it is recorded. A verified entry with the ID that is 60 s old leaves the list; no other entry does. -/
def Obligations.ReleasesAndRequests : Prop :=
  ∀ (dt : Nat) (s : State),
    (∀ (id st d : Nat) (e : TaskEntry), inNormal s = true → s.tri.stallFrom = none → s.prg.releaseHeld = false → s.xch.window = false →
      isStandby s = false → s.cfg.tasksB = none → resting (begin' dt s) = false → laneStopped false s = false → 16 ≤ id → id < 48 → taskEntry id false s = some e → e.id = id →
      (taskState id false s).heldTrig = some (st, d) → taskActive id false s = false → separated e (taskState id false s) (begin' dt s) = true →
      Yields (exec (.eventTaskRelease dt id) s) (fun t => WritesOnly [.prg] (begin' dt s) t
        ∧ t.prg.active.length = s.prg.active.length + 1
        ∧ (∃ r ∈ t.prg.active, r.task = id ∧ r.laneB = false ∧ r.stamp = now (begin' dt s) ∧ r.trigStamp = st ∧ r.trigDetail = d
            ∧ r.trigCount = (taskState id false s).trigCount ∧ r.deadline = some (eventDeadline e (taskState id false s) st (begin' dt s))
            ∧ r.scr = [] ∧ r.outs = [] ∧ r.img = s.prg.img)
        ∧ (taskState id false t).heldTrig = none ∧ (taskState id false t).trigCount = 0
        ∧ (taskState id false t).lastRelease = some (now (begin' dt s))))
    ∧ (lanesRun s = true → bit s.cfg.progBlocks 4 = true → s.prg.mode = .free →
      exec (.reqNormal dt) s = .next { seqVoted (begin' dt s) with prg.reqNormal := true })
    ∧ (∀ e, lanesRun s = true → bit s.cfg.progBlocks 4 = true → s.prg.mode = .normal → findToken (rv 0x04000C s) 7 (begin' dt s) = some e →
      exec (.reqTest dt) s = .next { seqVoted (begin' dt s) with prg.reqTest := true, prg.tokVer := s.prg.tokVer.filter (fun x => x.id != e.id) })
    ∧ (lanesRun s = true → bit s.cfg.progBlocks 4 = true → s.prg.mode = .normal → findToken (rv 0x04000C s) 7 (begin' dt s) = none →
      Yields (exec (.reqTest dt) s) (fun t => WritesOnly [.regs, .evr] (seqVoted (begin' dt s)) t ∧ RegsOnly [0x0F006C] s t
        ∧ Records [nvNow 4 0x000F 0x0008 0 (begin' dt s)] s t))
    ∧ (∀ id : Half, Yields (exec (.verifiedEntryExpiry dt id) s) (fun t => WritesOnly [.prg] (begin' dt s) t
        ∧ (∀ v, v ∈ t.prg.tokVer ↔ v ∈ s.prg.tokVer ∧ ¬(v.id = id.toNat ∧ secLin s 60 ≤ nowLin (begin' dt s) - lin v.at'))))

/-- The command at the head of ring 53 leaves the ring. An accepted SET enters its force with the expiry counted from its arrival, in place of one on the same point, consumes its token, starts the indication, counts and records it; CLEAR removes exactly that force, CLEAR_ALL every force, each with its record; a refused command changes no entry and is counted. An expiry that has passed at the boundary of the present cycle removes exactly its force, counted and recorded, and ends the indication where it was the last. -/
def Obligations.ForceCommandEffects : Prop :=
  ∀ (dt : Nat) (e : List Byte) (rest : List (List Byte)) (s : State), s.pwr.phase = .running →
    ((ring 53 s).entries = e :: rest → s.rings.length = 64 →
      (∀ v, fcOp e = 1 → fcReason e (begin' dt s) = 0 → fcToken e (begin' dt s) = some v →
        Yields (exec (.forceSet dt) s) (fun t => (ring 53 t).entries = rest ∧ t.frc.ind = true
          ∧ t.frc.table = (if (fcEntry e s).isSome = true
              then s.frc.table.map (fun y => if y.dir == fcDir e && y.point == fcPoint e then
                { dir := fcDir e, point := fcPoint e, value := fieldAt e 4 4, expiry := unlin (lin (fieldAt e 24 8) + secLin s (fieldAt e 8 2)), token := v.id, staff := v.staff } else y)
              else s.frc.table ++ [{ dir := fcDir e, point := fcPoint e, value := fieldAt e 4 4, expiry := unlin (lin (fieldAt e 24 8) + secLin s (fieldAt e 8 2)), token := v.id, staff := v.staff }])
          ∧ (∀ x ∈ t.prg.tokVer, x.id ≠ v.id) ∧ rv 0x050008 t = sat 0xFFFFFFFF (rv 0x050008 s + 1) ∧ Recorded 0x4501 s t
          ∧ WritesOnly [.sent, .frc, .prg, .regs, .rings, .evr, .xch, .lnk] (begin' dt s) t))
      ∧ (∀ f, fcOp e = 2 → fcReason e (begin' dt s) = 0 → fcEntry e s = some f →
        Yields (exec (.forceClear dt) s) (fun t => (ring 53 t).entries = rest
          ∧ t.frc = { s.frc with table := s.frc.table.filter (fun y => !(y.dir == fcDir e && y.point == fcPoint e)) }
          ∧ Recorded 0x4502 s t ∧ WritesOnly [.sent, .frc, .prg, .regs, .rings, .evr, .xch, .lnk] (begin' dt s) t))
      ∧ (fcOp e = 3 → fcReason e (begin' dt s) = 0 →
        Yields (exec (.forceClearAll dt) s) (fun t => (ring 53 t).entries = rest ∧ t.frc = { s.frc with table := [] }
          ∧ (s.frc.table ≠ [] → Recorded 0x4502 s t) ∧ WritesOnly [.sent, .frc, .prg, .regs, .rings, .evr, .xch, .lnk] (begin' dt s) t))
      ∧ (fcOp e = 1 → fcReason e (begin' dt s) ≠ 0 →
        Yields (exec (.forceSet dt) s) (fun t => (ring 53 t).entries = rest ∧ t.frc = s.frc ∧ rv 0x050010 t = sat 0xFFFFFFFF (rv 0x050010 s + 1)
          ∧ WritesOnly [.sent, .prg, .regs, .rings, .evr, .xch, .lnk] (begin' dt s) t)))
    ∧ (∀ (dir : Bool) (point : BitVec 13) (f : ForceEntry), s.frc.table.find? (fun x => x.dir == dir && x.point == point.toNat) = some f →
      lin f.expiry ≤ cycleLin s.clk.cycle →
      Yields (exec (.forceExpiry dt dir point) s) (fun t => WritesOnly [.frc, .regs, .evr] (begin' dt s) t ∧ RegsOnly [0x05000C, 0x0F006C] s t
        ∧ t.frc.table = s.frc.table.filter (fun y => !(y.dir == dir && y.point == point.toNat)) ∧ t.frc.ind = !t.frc.table.isEmpty
        ∧ rv 0x05000C t = sat 0xFFFFFFFF (rv 0x05000C s + 1) ∧ RecordTypes [0x4503] s t))

/-- A clock deviation above 500 ppm or a stopped clock, CYCLE at its limit, a release past its deadline, a FREE iteration past its limit, a write of SYS_TRIP, a scrubber pass later than 9 s, an active pair member that hears neither channel for a minor cycle, and the end of the hold window with a unit in restart each halt the module: outputs off, releases and forces gone, the edge lost, the fault recorded; vital memory is left as it was. -/
def Obligations.VitalFaultEventsHalt : Prop :=
  ∀ (dt : Nat) (s : State), mayHalt s →
    (∀ ppm : Int, 500 < ppm.natAbs → Yields (exec (.clockFault dt ppm false) s) (fun t => Halted t ∧ Recorded 0x4004 s t ∧ WritesOnly faultParts (begin' dt s) t))
    ∧ (∀ ppm : Int, Yields (exec (.clockFault dt ppm true) s) (fun t => Halted t ∧ Recorded 0x4004 s t ∧ WritesOnly faultParts (begin' dt s) t))
    ∧ (0xFFFFFFFFFF ≤ s.clk.cycle → Yields (exec (.cycleLimit dt) s) (fun t => Halted t ∧ Recorded 0x4004 s t ∧ WritesOnly faultParts (begin' dt s) t))
    ∧ (∀ (task : Nat) (laneB : Bool) (r : Release), laneRuns laneB (begin' dt s) = true → (begin' dt s).prg.active.find? (fun x => x.task == task && x.laneB == laneB) = some r →
      overrunDue r (begin' dt s) = true →
      Yields (exec (.taskOverrun dt task laneB) s) (fun t => Halted t ∧ Recorded 0x4401 s t ∧ Recorded 0x4004 s t ∧ WritesOnly faultParts (begin' dt s) t))
    ∧ (∀ (view : Fin 4) (data : Half), lanesRun s = true →
      Yields (exec (.sysTrip dt view data) s) (fun t => Halted t ∧ Recorded 0x4402 s t ∧ Recorded 0x4004 s t ∧ WritesOnly faultParts (begin' dt s) t))
    ∧ (usUp 9000000 < (begin' dt s).clk.up - s.vm.passStart →
      Yields (exec (.scrubPassLate dt) s) (fun t => Halted t ∧ Recorded 0x4004 s t ∧ WritesOnly faultParts (begin' dt s) t))
    ∧ (s.lnk.pair = .active → usUp (cycleUs s) ≤ (begin' dt s).clk.up - s.bus.heardAt →
      Yields (exec (.busSilence dt) s) (fun t => Halted t ∧ Recorded 0x4004 s t ∧ t.lnk.pair = .unsynced ∧ WritesOnly faultParts (begin' dt s) t))
    ∧ (∀ t0, s.tri.hold = some t0 → anyRestart s = true → usUp 200 ≤ (begin' dt s).clk.up - t0 →
      Yields (exec (.holdWindowExpiry dt) s) (fun t => Halted t ∧ Recorded 0x4004 s t ∧ t.tri.hold = none ∧ WritesOnly faultParts (begin' dt s) t))

/-- The scrubber reads word after word of three areas, a completed pass being counted and timed. A good word is left as it is. One bad symbol of a good word is corrected and counted; more in one copy of a dual-stored or paired word, or a copy that carries another key, are repaired from the partner, in a code word by a reload of its page from NOR where it matches its page check entry: memory reads as before (a reloaded page as in NOR), the code is good again, the error is shown, counted and recorded. Two bad copies, swapped banks, copies of a dual-stored word that are no complements, and a page that does not match or that NOR does not give halt the module; copies of a pair that are no complements restart the lattice pair. INJ_ARM arms outside NORMAL only, and is recorded in NORMAL; the next voted write of the armed word stores it with one or two bad symbols and clears INJ_ARM. -/
def Obligations.MemoryRepairs : Prop :=
  ∀ (dt : Nat) (inv : Bool) (d : Word) (c : BitVec 16) (s : State), powered s = true → s.pwr.phase ≠ .stopped → Memory.wf s.mem = true → s.vm.area < 3 → s.vm.word < scrubWords s.vm.area →
    let a := scrubAddr s.vm.area s.vm.word
    let two := decide (storeKind a = .dual ∨ storeKind a = .pair)
    let x := if two = true then (if inv = true then invWord (trueWord a) else trueWord a) else a
    let e : CodeErr := { data := d, check := c }
    (wordGood a s →
      (s.vm.word + 1 < scrubWords s.vm.area → exec (.scrubRead dt {}) s = .next { begin' dt s with vm.word := s.vm.word + 1 })
      ∧ (scrubWords s.vm.area ≤ s.vm.word + 1 → s.vm.area < 2 → exec (.scrubRead dt {}) s = .next { begin' dt s with vm.area := s.vm.area + 1, vm.word := 0 })
      ∧ (scrubWords s.vm.area ≤ s.vm.word + 1 → s.vm.area = 2 → Yields (exec (.scrubRead dt {}) s) (fun t =>
          WritesOnly [.vm, .regs] (begin' dt s) t ∧ RegsOnly [0x03000C, 0x030010] s t
          ∧ t.vm = { s.vm with area := 0, word := 0, passStart := (begin' dt s).clk.up } ∧ rv 0x03000C t = sat 0xFFFFFFFF (rv 0x03000C s + 1)
          ∧ rf 0x030010 0 14 t = sat 0x3FFF (((begin' dt s).clk.up - s.vm.passStart) / 100000))))
    ∧ (wordGood a s → s.vm.word + 1 < scrubWords s.vm.area →
      (codeClass e = some .correctable →
        Yields (exec (.scrubRead dt { find := .flip inv d c }) s) (fun t => WritesOnly [.vm, .regs, .sta, .evr] (begin' dt s) t ∧ t.vm.word = s.vm.word + 1
          ∧ (∀ y, codeAt y t = codeAt y s)
          ∧ (let k := if x < 0x08000000 then 0x030014 else if x < 0x10000000 then 0x030018 else 0x03001C
             rv k t = sat 0xFFFFFFFF (rv k s + 1))))
      ∧ (∀ f : MemFinding, two = true → ((codeClass e = some .uncorrectable ∧ f = .flip inv d c) ∨ f = .wrongKey inv ∨ ∃ o, f = .allSame inv o) →
        Yields (exec (.scrubRead dt { find := f }) s) (fun t => WritesOnly [.mem, .vm, .regs, .sta, .evr] (begin' dt s) t
          ∧ t.vm.word = s.vm.word + 1 ∧ MemOnly [] s t ∧ (∀ y, codeAt y t = codeAt y s)
          ∧ rf 0x030020 0 16 t = sat 0xFFFF (rf 0x030020 0 16 s + 1) ∧ rf 0x030004 4 1 t = 1 ∧ rv 0x030024 t = x % 2 ^ 32 ∧ Recorded 0x8301 s t)))
    ∧ (mayHalt s → two = true → wordGood a s →
      ∀ f : MemFinding, ((∃ d1 c1, codeClass e = some .uncorrectable ∧ codeClass { data := d1, check := c1 } = some .uncorrectable ∧ f = .flips d d1 c c1) ∨ f = .swapped) →
        Yields (exec (.scrubRead dt { find := f }) s) (fun t => Halted t ∧ t.mem = s.mem ∧ rf 0x030004 4 1 t = 1 ∧ Recorded 0x4004 s t))
    ∧ (mayHalt s → wordGood a s → storeKind a = .dual → Yields (exec (.scrubRead dt { find := .stale }) s) (fun t => Halted t ∧ Recorded 0x4004 s t))
    ∧ (wordGood a s → storeKind a = .pair → s.tri.lattice.used = false → Yields (exec (.scrubRead dt { find := .stale }) s) (fun t =>
        t.tri.lattice = { s.tri.lattice with restart := some (begin' dt s).clk.up, used := true } ∧ t.prg = (begin' dt s).prg))
    ∧ (storeKind a = .code → wordGood a s → codeClass e = some .uncorrectable → s.vm.word + 1 < scrubWords s.vm.area →
      (let slot := a / 0x02000000
       let page := a % 0x02000000 / 4096
       let nor := norBank (if slot = 0 then s.vm.bank0 else s.vm.bank1) + 0x01800000 + page * 4096
       (pageCrc slot page s = some (crc32c (memRead nor 4096 s.mem)) →
         Yields (exec (.scrubRead dt { find := .flip inv d c }) s) (fun t => WritesOnly [.mem, .vm, .regs, .sta, .evr, .free] (begin' dt s) t
           ∧ MemOnly [(a / 4096 * 4096, 4096)] s t ∧ memRead (a / 4096 * 4096) 4096 t.mem = memRead nor 4096 s.mem
           ∧ (∀ y, a / 4096 * 4096 ≤ y → y < a / 4096 * 4096 + 4096 → codeAt y t = none)
           ∧ rf 0x030020 16 16 t = sat 0xFFFF (rf 0x030020 16 16 s + 1) ∧ Recorded 0x8302 s t))
       ∧ (∀ ok : Bool, mayHalt s → (ok = false ∨ pageCrc slot page s ≠ some (crc32c (memRead nor 4096 s.mem))) →
         Yields (exec (.scrubRead dt { find := .flip inv d c, norOk := ok }) s) (fun t => Halted t ∧ t.mem = s.mem ∧ rf 0x030028 8 4 t = 4))))
    ∧ (∀ data : Half, lanesRun s = true → bit s.cfg.progBlocks 3 = true → locked 0x030000 s = false →
      (s.prg.mode ≠ .normal → Yields (exec (.injArm dt data) s) (fun t => WritesOnly [.regs] (seqVoted (begin' dt s)) t ∧ RegsOnly [0x030000] s t
          ∧ rf 0x030000 0 3 t = bits data.toNat 0 3 ∧ rf 0x030000 31 1 t = bits data.toNat 31 1))
      ∧ (s.prg.mode = .normal → bit data.toNat 0 = true → Yields (exec (.injArm dt data) s) (fun t => WritesOnly [.regs, .evr] (seqVoted (begin' dt s)) t
          ∧ RegsOnly [0x0F006C] s t ∧ Records [nvNow 3 0x0005 data.toNat 0xF0030000 (begin' dt s)] s t)))
    ∧ (∀ y : LaneTx, triadVotes s = true → 2 ≤ (litLanes s).length → y.kind = .write → y.addr.toNat % 8 = 0 → y.data.length = 8 → (∀ i, i < 8 → y.be.getLsbD i = true) →
      laneWritable y.addr.toNat s = true → s.vm.mapActive = [] → s.lnk.pair ≠ .active → rf 0x030000 0 1 s = 1 → rv 0x030034 s = y.addr.toNat →
      Yields (exec (.votedTransaction dt (allSee y)) s) (fun t => memRead y.addr.toNat 8 t.mem = y.data ∧ rf 0x030000 0 1 t = 0
        ∧ codeAt y.addr.toNat t = (if rf 0x030000 1 2 s = 1 then some .correctable else if rf 0x030000 1 2 s = 2 then some .uncorrectable else none)))

/-- LOAD in IDLE, with XCHG enabled in NORMAL or FREE outside split mode and no activation pending, begins loading into the inactive slot, whose content is then invalid; any other LOAD is refused with its reason and changes only the reason and the record. A completed load begins the checks, a NOR failure returns to IDLE. Checks that pass begin the preparation, others return to IDLE with their reason. Checks that pass also start the write tracking of the instances to be converted. The preparation leads, where every pre-conversion ends, to READY, otherwise to IDLE with its reason, a trap with a record of its own. ARM in READY for a major-cycle boundary at least two minor cycles ahead, with no forced output whose writer changes, arms it; DISARM before the exchange cycle discards everything prepared, and what the window withheld is kept for the next boundary; at the boundary the window opens. -/
def Obligations.ExchangeCommandEffects : Prop :=
  ∀ (dt : Nat) (bank norOk : Bool) (s : State),
    (lanesRun s = true → bit s.cfg.progBlocks 7 = true → s.lnk.pair ≠ .active →
      (loadReason (begin' dt s) = 0 → Yields (exec (.xchgLoad dt bank) s) (fun t => WritesOnly [.xch, .vm] (seqVoted (begin' dt s)) t
        ∧ t.xch = { s.xch with st := .loading, srcBank := b2n bank, target := 1 - s.vm.activeSlot }
        ∧ (s.vm.activeSlot = 0 → t.vm = { s.vm with bank1 := b2n bank, valid1 := false, pages1 := [], prog1 := none })
        ∧ (s.vm.activeSlot = 1 → t.vm = { s.vm with bank0 := b2n bank, valid0 := false, pages0 := [], prog0 := none })))
      ∧ (loadReason (begin' dt s) ≠ 0 → Yields (exec (.xchgLoad dt bank) s) (fun t => WritesOnly [.regs, .evr] (seqVoted (begin' dt s)) t
        ∧ RegsOnly [0x070010, 0x070014, 0x0F006C] s t ∧ rf 0x070010 5 1 t = 1 ∧ rf 0x070010 8 8 t = loadReason (begin' dt s) ∧ RecordTypes [0x4702] s t))
      ∧ (armReason (armTarget s) false (begin' dt s) = (0, 0) → Yields (exec (.xchgArm dt) s) (fun t => WritesOnly [.xch, .regs] (seqVoted (begin' dt s)) t
        ∧ RegsOnly [0x070038] s t ∧ t.xch = { s.xch with st := .armed, skipped := 0 }))
      ∧ ((armReason (armTarget s) false (begin' dt s)).1 ≠ 0 → Yields (exec (.xchgArm dt) s) (fun t => WritesOnly [.regs, .evr] (seqVoted (begin' dt s)) t
        ∧ RegsOnly [0x070010, 0x070014, 0x0F006C] s t ∧ rf 0x070010 8 8 t = (armReason (armTarget s) false (begin' dt s)).1
        ∧ rv 0x070014 t = (armReason (armTarget s) false (begin' dt s)).2 % 2 ^ 32 ∧ RecordTypes [0x4702] s t))
      ∧ (s.xch.st ∈ [.loading, .checking, .preparing, .ready, .armed] → s.xch.window = false → s.xch.forActivation = false →
        Yields (exec (.xchgDisarm dt) s) (fun t => WritesOnly [.xch, .vm, .regs, .evr] (seqVoted (begin' dt s)) t ∧ t.xch.st = .idle ∧ t.xch.image = none
          ∧ t.xch.tracking = false ∧ t.vm = { s.vm with mapNew := [] } ∧ rf 0x070010 8 8 t = 0x10 ∧ RecordTypes [0x4703] s t))
      ∧ (s.xch.st = .draining → s.xch.window = true → s.xch.forActivation = false →
        Yields (exec (.xchgDisarm dt) s) (fun t => WritesOnly [.xch, .vm, .regs, .evr] (seqVoted (begin' dt s)) t ∧ t.xch.st = .idle ∧ t.xch.image = none
          ∧ t.xch.window = false ∧ t.xch.after = s.xch.withheld ∧ t.xch.afterTrig = s.xch.heldTrig ∧ rf 0x070010 8 8 t = 0x10 ∧ RecordTypes [0x4703] s t))
      ∧ (s.xch.st ∈ [.idle, .exchanging, .committed] → exec (.xchgDisarm dt) s = .next (seqVoted (begin' dt s))))
    ∧ (s.xch.st = .loading → (norOk = true → Yields (exec (.xchgLoadDone dt true) s) (fun t =>
          t.xch = { s.xch with st := .checking } ∧ rv 0x070044 t = hSeq (imgHeader (slotAddr s.xch.srcBank 3) s.mem) % 2 ^ 32
          ∧ WritesOnly [.xch, .vm, .mem, .regs] (begin' dt s) t ∧ RegsOnly [0x070044] s t)
        ∧ Yields (exec (.xchgLoadDone dt false) s) (fun t => t.xch.st = .idle ∧ rf 0x070010 8 8 t = 4 ∧ t.mem = s.mem ∧ RecordTypes [0x4702] s t)))
    ∧ (s.xch.st = .checking →
      ((progReason s.xch.srcBank (xchCfg s) s).1 = 0 → Yields (exec (.xchgCheckDone dt) s) (fun t => WritesOnly [.xch, .regs] (begin' dt s) t
          ∧ RegsOnly [0x070010] s t ∧ rf 0x070010 16 7 t = 0
          ∧ (∀ p, targetProg s = some p → t.xch = { s.xch with st := .preparing, image := some p, work := convWork s.vm.mapActive (matched p s), tracking := true })))
      ∧ ((progReason s.xch.srcBank (xchCfg s) s).1 ≠ 0 → (progReason s.xch.srcBank (xchCfg s) s).1 < 256 →
          Yields (exec (.xchgCheckDone dt) s) (fun t => t.xch.st = .idle ∧ t.xch.image = none ∧ t.mem = s.mem
            ∧ rf 0x070010 8 8 t = (progReason s.xch.srcBank (xchCfg s) s).1 ∧ RecordTypes [0x4702] s t)))
    ∧ (∀ p, s.xch.st = .preparing → s.xch.image = some p →
      (∀ u n, prepReason s.xch.work (matched p s) s = 0 → convertList p s.xch.work (prepStart dt p s) = ((.done, n), u) → u.prg.mode ≠ .halted →
        Yields (exec (.preparationComplete dt) s) (fun t => WritesOnly [.xch, .regs] u t ∧ t.xch = { u.xch with st := .ready }
          ∧ t.xch.dropped = u.xch.dropped ∧ rf 0x070010 16 7 t = 100))
      ∧ (prepReason s.xch.work (matched p s) s = 0 → s.xch.work = [] →
        Yields (exec (.preparationComplete dt) s) (fun t => WritesOnly [.xch, .vm, .regs, .mem, .lnk, .sent] (begin' dt s) t ∧ t.xch.st = .ready
          ∧ t.vm.mapNew = preparedMap (matched p s) s ∧ t.vm.mapActive = s.vm.mapActive ∧ t.vm.activeSlot = s.vm.activeSlot
          ∧ t.xch.dropped = droppedIdx p s ∧ rf 0x070010 16 7 t = 100))
      ∧ (∀ u c b, prepReason s.xch.work (matched p s) s = 0 → convertList p s.xch.work (prepStart dt p s) = ((.trapped c, b), u) → u.prg.mode ≠ .halted →
        u.xch.st = .preparing → u.xch.window = false →
        Yields (exec (.preparationComplete dt) s) (fun t => t.xch.st = .idle ∧ t.xch.tracking = false ∧ t.vm = { u.vm with mapNew := [] } ∧ t.mem = u.mem
          ∧ rf 0x070010 8 8 t = 0x11 ∧ rv 0x070014 t = b % 2 ^ 32 ∧ RecordTypes [0x4402, 0x4703] u t))
      ∧ (prepReason s.xch.work (matched p s) s ≠ 0 → Yields (exec (.preparationComplete dt) s) (fun t =>
          t.xch.st = .idle ∧ t.xch.tracking = false ∧ t.mem = s.mem ∧ rf 0x070010 8 8 t = prepReason s.xch.work (matched p s) s
          ∧ RecordTypes [0x4702] s t)))
    ∧ (lanesRun s = true → windowDue s = true → s.lnk.pair ≠ .active → exec (.xchgWindow dt) s = .next { begin' dt s with
        xch.st := .draining, xch.window := true, xch.windowAt := cycleLin s.clk.cycle, xch.exemptMajor := some s.clk.cycle, xch.withheld := [] })

/-- With no release running, a reconversion or a check that takes too long, a conversion block that traps or does not return, and a header that differs, each abort the exchange with its reason, a trap with a record of its own: the active map and slot stay, the mode, the memory, the forces, the pins and the lattice stay as the conversions of the dirty instances left them, and what the window withheld is kept for the next boundary; a converted granule whose copies are no complements halts the module. Conversions and checks that pass commit it: the prepared map and the target slot become active, memory holds the conversions, the cleared NEW bits and the reset globals, the selector names the new program on trial with the old selection as PREV, and where the lanes resume within the cycle the new program counts as the running one. -/
def Obligations.ExchangeCycleEffects : Prop :=
  ∀ (dt : Nat) (q : QuietIn) (p : ProgImage) (s : State), lanesRun s = true → s.xch.st = .draining → s.xch.window = true → s.prg.active = [] → s.xch.image = some p →
    s.xch.forActivation = false → s.lnk.pair ≠ .active →
    (reconvLimit false + q.stallUs < q.reconvUs → Yields (exec (.quietPoint dt q) s) (fun t => GivenUp 0x12 0 (begin' dt s) t))
    ∧ (q.reconvUs ≤ reconvLimit false + q.stallUs → ∀ (e : ConvEnd) (n : Nat) (u : State), convertList p (s.xch.work.filter isDirty) (cycleStart dt s) = ((e, n), u) →
      u.vm.mapActive = s.vm.mapActive ∧ u.vm.activeSlot = s.vm.activeSlot
      ∧ (u.prg.mode ≠ .halted → u.xch.st = .exchanging → u.xch.window = true → u.xch.forActivation = false →
        (∀ c, e = .trapped c → Yields (exec (.quietPoint dt q) s) (fun t => GivenUp 0x11 n u t ∧ Recorded 0x4402 u t))
        ∧ (e = .late → Yields (exec (.quietPoint dt q) s) (fun t => GivenUp 0x12 0 u t))
        ∧ (e = .done → checkLimit false + q.stallUs < q.checkUs → Yields (exec (.quietPoint dt q) s) (fun t => GivenUp 0x12 0 u t))
        ∧ (e = .done → q.checkUs ≤ checkLimit false + q.stallUs →
          (∀ j, headerBad p u = some j → Yields (exec (.quietPoint dt q) s) (fun t => GivenUp 0x13 j u t))
          ∧ (headerBad p u = none → notComplements u = true → mayHalt u → Yields (exec (.quietPoint dt q) s) (fun t => Halted t ∧ t.mem = u.mem))
          ∧ (headerBad p u = none → notComplements u = false → u.upd.act ≠ .rollback → u.lnk.pair ≠ .active →
            Yields (exec (.quietPoint dt q) s) (fun t =>
              t.vm = { u.vm with mapActive := u.vm.mapNew, mapNew := [], activeSlot := u.xch.target } ∧ (t.xch.st = .committed ∨ t.xch.st = .idle)
              ∧ t.frc = u.frc ∧ t.fio = u.fio ∧ t.prg.mode = u.prg.mode
              ∧ (t.xch.st = .idle → rv 0x070040 t = rv 0x070044 u)
              ∧ (u.prg.mode ≠ .free → t.mem = (resetGlobals p (clearNew p u)).mem)
              ∧ (∀ x, selector u = some x → u.cand.framProt = false → u.cand.framErr = false → ∃ y, selector t = some y ∧ y.prev = x.sel ∧ y.trial = true
                  ∧ y.method = 1 ∧ y.sel = newSel x.sel 4 (4 * u.xch.srcBank)))))))

/-- Wherever both operands read and d takes the result: integer ADD, SUB and MUL write the exact result wrapped to the type and set OVF exactly where it wraps; SUB of two stamps writes their difference as a TIME; DIV truncates toward zero and MOD has the sign of a; by zero both write 0 and set DIVZ; on REAL64 the IEEE result is written; MIN and MAX write the smaller and the larger operand. -/
def Obligations.ArithmeticResults : Prop :=
  ∀ (dt : Nat) (w : VInstr) (s a : State) (x y : Nat), Runs dt 1 w s → Reads2 (vlane w s) w.ty.toNat w (vstart dt w s) x y a →
    let ty := w.ty.toNat
    let b := vlane w s
    (tyInt ty = true →
      Gives (exec (.vAdd dt w) s) b ty w (tyEnc ty (tyVal ty x + tyVal ty y)) (setOvf b (!inType ty (tyVal ty x + tyVal ty y)) a)
      ∧ (ty ≠ 7 → Gives (exec (.vSub dt w) s) b ty w (tyEnc ty (tyVal ty x - tyVal ty y)) (setOvf b (!inType ty (tyVal ty x - tyVal ty y)) a))
      ∧ Gives (exec (.vMul dt w) s) b ty w (tyEnc ty (tyVal ty x * tyVal ty y)) (setOvf b (!inType ty (tyVal ty x * tyVal ty y)) a)
      ∧ (tyVal ty y = 0 → Gives (exec (.vDiv dt w) s) b ty w 0 (setDivz b true a) ∧ Gives (exec (.vMod dt w) s) b ty w 0 (setDivz b true a))
      ∧ (tyVal ty y ≠ 0 → inType ty ((tyVal ty x).tdiv (tyVal ty y)) = true → Gives (exec (.vDiv dt w) s) b ty w (tyEnc ty ((tyVal ty x).tdiv (tyVal ty y))) a)
      ∧ (tyVal ty y ≠ 0 → Gives (exec (.vMod dt w) s) b ty w (tyEnc ty ((tyVal ty x).tmod (tyVal ty y))) a)
      ∧ (tyVal ty x < tyVal ty y → Gives (exec (.vMin dt w) s) b ty w x a ∧ Gives (exec (.vMax dt w) s) b ty w y a)
      ∧ (tyVal ty y < tyVal ty x → Gives (exec (.vMin dt w) s) b ty w y a ∧ Gives (exec (.vMax dt w) s) b ty w x a)
      ∧ (x = y → Gives (exec (.vMin dt w) s) b ty w x a ∧ Gives (exec (.vMax dt w) s) b ty w x a))
    ∧ (ty = 7 → Gives (exec (.vSub dt w) s) b ty w (ofSigned 64 (stampDiff x y a)) a)
    ∧ (ty = 5 → Gives (exec (.vAdd dt w) s) b ty w (fAdd x y) a ∧ Gives (exec (.vSub dt w) s) b ty w (fSub x y) a ∧ Gives (exec (.vMul dt w) s) b ty w (fMul x y) a
      ∧ Gives (exec (.vDiv dt w) s) b ty w (fDiv x y) a ∧ Gives (exec (.vMod dt w) s) b ty w (fMod x y) a
      ∧ (fLt x y = true → Gives (exec (.vMin dt w) s) b ty w x a ∧ (fLt y x = false → Gives (exec (.vMax dt w) s) b ty w y a)))

/-- Wherever both operands read and d takes the result: AND, OR and XOR write the bitwise result; on integer types SHL, SHR, ROL and ROR act by b modulo the width, SHR arithmetic on signed types; BTST writes the bit, BSET and BCLR the word with the bit set or cleared, for bit numbers within the width; the six comparisons write a BOOL by the values of their type. -/
def Obligations.LogicShiftAndCompareResults : Prop :=
  ∀ (dt : Nat) (w : VInstr) (s a : State) (x y : Nat), Runs dt 1 w s → Reads2 (vlane w s) w.ty.toNat w (vstart dt w s) x y a →
    let ty := w.ty.toNat
    let b := vlane w s
    Gives (exec (.vAnd dt w) s) b ty w (Nat.land x y) a ∧ Gives (exec (.vOr dt w) s) b ty w (Nat.lor x y) a ∧ Gives (exec (.vXor dt w) s) b ty w (Nat.xor x y) a
    ∧ (tyInt ty = true →
      Gives (exec (.vShl dt w) s) b ty w (x * 2 ^ (y % tyWidth ty) % 2 ^ tyWidth ty) a
      ∧ Gives (exec (.vShr dt w) s) b ty w (tyEnc ty (tyVal ty x / (2 ^ (y % tyWidth ty) : Nat))) a
      ∧ Gives (exec (.vRol dt w) s) b ty w (rotLeft ty x (y % tyWidth ty)) a ∧ Gives (exec (.vRor dt w) s) b ty w (rotRight ty x (y % tyWidth ty)) a
      ∧ Gives (exec (.vCeq dt w) s) b 0 w (b2n (decide (tyVal ty x = tyVal ty y))) a ∧ Gives (exec (.vCne dt w) s) b 0 w (b2n (decide (tyVal ty x ≠ tyVal ty y))) a
      ∧ Gives (exec (.vClt dt w) s) b 0 w (b2n (decide (tyVal ty x < tyVal ty y))) a ∧ Gives (exec (.vCle dt w) s) b 0 w (b2n (decide (tyVal ty x ≤ tyVal ty y))) a
      ∧ Gives (exec (.vCgt dt w) s) b 0 w (b2n (decide (tyVal ty y < tyVal ty x))) a ∧ Gives (exec (.vCge dt w) s) b 0 w (b2n (decide (tyVal ty y ≤ tyVal ty x))) a)
    ∧ (ty = 5 → Gives (exec (.vCeq dt w) s) b 0 w (b2n (fEq x y)) a ∧ Gives (exec (.vCne dt w) s) b 0 w (b2n (!fEq x y)) a
      ∧ Gives (exec (.vClt dt w) s) b 0 w (b2n (fLt x y)) a ∧ Gives (exec (.vCle dt w) s) b 0 w (b2n (fLt x y || fEq x y)) a
      ∧ Gives (exec (.vCgt dt w) s) b 0 w (b2n (fLt y x)) a ∧ Gives (exec (.vCge dt w) s) b 0 w (b2n (fLt y x || fEq x y)) a)
    ∧ (y < tyWidth ty → Gives (exec (.vBtst dt w) s) b 0 w (b2n (x.testBit y)) a
      ∧ Gives (exec (.vBset dt w) s) b ty w (setBits x y 1 1) a ∧ Gives (exec (.vBclr dt w) s) b ty w (setBits x y 1 0) a)

/-- MOV writes the operand; LDI its immediate, sign-extended for signed types; LDX reads and STX writes the place b places on; CAST converts, to and from REAL64 by value with saturation and NaN to 0, between integer types where the value fits; NEG and ABS wrap with OVF; NOT complements within the type; LIM clamps d to a and b; TSTAMP writes the station time of the present instant. -/
def Obligations.MoveConvertAndUnaryResults : Prop :=
  ∀ (dt : Nat) (w : VInstr) (s a : State) (x : Nat),
    let ty := w.ty.toNat
    let b := vlane w s
    (Runs dt 1 w s → Reads1 b ty w (vstart dt w s) x a →
      Gives (exec (.vMov dt w) s) b ty w x a
      ∧ Gives (exec (.vNot dt w) s) b ty w (2 ^ tyWidth ty - 1 - x % 2 ^ tyWidth ty) a
      ∧ (tyInt ty = true → Gives (exec (.vNeg dt w) s) b ty w (tyEnc ty (-(tyVal ty x))) (setOvf b (!inType ty (-(tyVal ty x))) a)
        ∧ Gives (exec (.vAbs dt w) s) b ty w (tyEnc ty ((tyVal ty x).natAbs : Nat)) (setOvf b (!inType ty ((tyVal ty x).natAbs : Nat)) a))
      ∧ (ty = 5 → Gives (exec (.vNeg dt w) s) b ty w (fNegate x) a ∧ Gives (exec (.vAbs dt w) s) b ty w (fAbs x) a))
    ∧ (Runs dt 1 w s → (ty = 0 → w.src1.toNat + w.src2.toNat * 65536 ≤ 1) →
      Gives (exec (.vLdi dt w) s) b ty w (if tySigned ty then ofSigned 64 (toSigned 32 (w.src1.toNat + w.src2.toNat * 65536)) else w.src1.toNat + w.src2.toNat * 65536) (vstart dt w s))
    ∧ (Runs dt 1 w s → Gives (exec (.vTstamp dt w) s) b 7 w (now (begin' dt s)) (vstart dt w s))
    ∧ (Runs dt 8 w s → Reads1 b ty w (vstart dt w s) x a →
      (ty ≠ 5 → w.sub.toNat ≠ 5 → inType w.sub.toNat (tyVal ty x) = true → Gives (exec (.vCast dt w) s) b w.sub.toNat w (tyEnc w.sub.toNat (tyVal ty x)) a)
      ∧ (ty ≠ 5 → w.sub.toNat = 5 → Gives (exec (.vCast dt w) s) b 5 w (fOfInt (tyVal ty x)) a)
      ∧ (ty = 5 → w.sub.toNat ≠ 0 → w.sub.toNat ≠ 5 → fNan x = true → Gives (exec (.vCast dt w) s) b w.sub.toNat w 0 a)
      ∧ (ty = 5 → w.sub.toNat ≠ 0 → w.sub.toNat ≠ 5 → fNan x = false → fInf x = false →
          Gives (exec (.vCast dt w) s) b w.sub.toNat w (tyEnc w.sub.toNat (max (tyMin w.sub.toNat) (min (tyMax w.sub.toNat) (fToInt x)))) a))
    ∧ (∀ (i v : Nat) (m t : State) (u : Nat), Runs dt 1 w s → opRead b 1 w.src2 0 (vstart dt w s) = .ok m i → m.prg.mode ≠ .halted →
      (opRead b ty w.src1 (toSigned 32 i) m = .ok a v → a.prg.mode ≠ .halted → opWrite b ty w.dst 0 v a = .ok t u → exec (.vLdx dt w) s = .next t)
      ∧ (opRead b ty w.src1 0 m = .ok a v → a.prg.mode ≠ .halted → opWrite b ty w.dst (toSigned 32 i) v a = .ok t u → exec (.vStx dt w) s = .next t))
    ∧ (∀ (d y : Nat) (m : State), Runs dt 1 w s → tyInt ty = true → opRead b ty w.dst 0 (vstart dt w s) = .ok m d → m.prg.mode ≠ .halted →
      Reads2 b ty w m x y a → tyVal ty x ≤ tyVal ty y →
      Gives (exec (.vLim dt w) s) b ty w (if tyVal ty d < tyVal ty x then x else if tyVal ty y < tyVal ty d then y else d) a)

/-- A scratch register of 8 to 255 reads as last written and a write changes no other; CONST reads the block's constant; IN reads the frozen image of the release, or RESTRICT alone for a point that is not configured; INST and GLOB, where the configuration gives the region, and OUT read the stored word of a clean slot and change nothing; a write to INST or GLOB stores both copies, makes its line dirty in the lanes' data caches, and leaves every other byte; OUT writes wait for the end of the release. A read past a region delivers 0 and is recorded; a write to IN, CONST or a register below 8, and an index beyond a space, trap. -/
def Obligations.OperandReadsAndWrites : Prop :=
  ∀ (b : Bool) (w : BitVec 16) (d : Int) (i v : Nat) (s : State), opAt w d = some i → v < 2 ^ 64 → s.vm.mapActive = [] → (ctx b s).conv = none →
    (opSpace w = 1 → 8 ≤ i → i < 256 → slotRead b w d s = .ok s (scrGet b i s) ∧ slotWrite b w d v s = .ok (scrSet b i v s) 0
      ∧ scrGet b i (scrSet b i v s) = v ∧ (∀ j, j ≠ i → 8 ≤ j → scrGet b j (scrSet b i v s) = scrGet b j s) ∧ WritesOnly [.prg] s (scrSet b i v s))
    ∧ (opSpace w = 1 → i < 8 → slotRead b w d s = .ok s (scrFixed b i s) ∧ slotWrite b w d v s = .trap .write s)
    ∧ (opSpace w = 2 → i < 8192 → slotRead b w d s = .ok s (if inConfigured i s then memNat (0x07010000 + 8 * i) 8 (ctx b s).img else 2 ^ 33)
      ∧ slotWrite b w d v s = .trap .write s)
    ∧ (∀ k c, opSpace w = 4 → blockInfo (frameOf b s).block s = some k → k.consts[i]? = some c →
      slotRead b w d s = .ok s c ∧ slotWrite b w d v s = .trap .write s)
    ∧ (opSpace w = 3 → i < 8192 → wordClean (0x07020000 + 8 * i) s →
      slotRead b w d s = .ok s (memNat (0x07020000 + 8 * i) 8 s.mem)
      ∧ ∃ t, slotWrite b w d v s = .ok t 0 ∧ (ctx b t).outs = (ctx b s).outs ++ [(i, v % 2 ^ 32)] ∧ WritesOnly [.prg] s t)
    ∧ (∀ a : Nat, a % 8 = 0 → a < 0x08000000 →
      ((opSpace w = 0 ∧ a = (frameOf b s).base + 8 * i) ∨ (opSpace w = 5 ∧ a = 0x07000000 + 8 * i)) → i < 8192 →
      (laneWritable a s = true → wordClean a s → slotRead b w d s = .ok s (memNat a 8 s.mem))
      ∧ (laneReadable a s = false → slotRead b w d s = .ok (nvEvent 3 0x0004 0 a s) 0)
      ∧ (laneWritable a s = true → Memory.wf s.mem = true → rf 0x030000 0 1 s = 0 → s.lnk.pair ≠ .active →
          ∃ t, slotWrite b w d v s = .ok t 0 ∧ WritesOnly [.mem, .vm, .xch, .tri] s t ∧ t.tri = (cacheStore b a s).tri ∧ memNat a 8 t.mem = v
            ∧ memRead (a + invOffset) 8 t.mem = (leBytes 8 v).map (fun x => ~~~x) ∧ MemOnly [(a, 8), (a + invOffset, 8)] s t)
      ∧ (laneWritable a s = false → slotWrite b w d v s = .trap .write s))
    ∧ (opSpace w < 6 → opSpace w ≠ 4 → 8192 ≤ i → slotRead b w d s = .trap .index s)
    ∧ (opSpace w = 7 → slotRead b w d s = .trap .opc s ∧ slotWrite b w d v s = .trap .opc s)

/-- NOP only advances the index. JMP, and JT and JF where their condition holds, set the index to a target within the block; where it does not hold they only advance. CALL enters block a with its instance at slot d; RET of a called block leaves it. RET of a root block ends the release of an event or cyclic task: its OUT writes show in the output image and the release is gone. Beside the call stack and what the operand reads leave, nothing changes. -/
def Obligations.ControlFlowEffects : Prop :=
  ∀ (dt : Nat) (w : VInstr) (s : State), Runs dt 1 w s →
    let b := vlane w s
    let a := vstart dt w s
    exec (.vNop dt w) s = .next a
    ∧ WritesOnly [.prg] (begin' dt s) a
    ∧ (∀ f l, (ctx b (begin' dt s)).frames = f :: l → ctx b a = { ctx b (begin' dt s) with frames := { f with pc := f.pc + 1 } :: l })
    ∧ (∀ k f l, (ctx b a).frames = f :: l → blockInfo f.block s = some k → w.src1.toNat + w.src2.toNat * 65536 < k.count →
      Yields (exec (.vJmp dt w) s) (fun t => WritesOnly [.prg] a t
        ∧ ctx b t = { ctx b a with frames := { f with pc := w.src1.toNat + w.src2.toNat * 65536 } :: l })
      ∧ (∀ m, opRead b 0 w.dst 0 a = .ok m 1 → m = a →
        exec (.vJt dt w) s = exec (.vJmp dt w) s ∧ exec (.vJf dt w) s = .next a)
      ∧ (∀ m, opRead b 0 w.dst 0 a = .ok m 0 → m = a →
        exec (.vJf dt w) s = exec (.vJmp dt w) s ∧ exec (.vJt dt w) s = .next a))
    ∧ (∀ i, isInst w.dst = true → opSpace w.src1 = 4 → opRead b 2 w.src1 0 a = .ok a i → (blockInfo i s).isSome = true → (ctx b a).frames.length ≤ 32 →
      Yields (exec (.vCall dt w) s) (fun t => WritesOnly [.prg] a t
        ∧ (ctx b t).frames = { block := i, base := (frameOf b a).base + 8 * opIndex w.dst } :: (ctx b a).frames
        ∧ (ctx b t).scr = (ctx b a).scr ∧ (ctx b t).outs = (ctx b a).outs))
    ∧ (∀ r g f l, running b a = some r → r.frames = g :: f :: l →
      Yields (exec (.vRet dt w) s) (fun t => WritesOnly [.prg] a t ∧ ctx b t = { r with frames := f :: l }))
    ∧ (∀ r f, running b a = some r → r.frames = [f] → r.task ≠ 48 → s.xch.window = false → (taskState r.task b s).heldCyclic = none →
      Memory.wf s.mem = true → s.vm.mapActive = [] → s.cfg.instSize ≤ 0x3000000 → s.cfg.globSize ≤ 0x10000 → (∀ x ∈ r.outs, x.1 < 8192) →
      r.outs.Pairwise (fun x y => x.1 ≠ y.1) → s.prg.mode = .normal →
      Yields (exec (.vRet dt w) s) (fun t => taskActive r.task b t = false ∧ t.prg.mode = .normal
        ∧ (∀ x ∈ r.outs, memNat (0x07020000 + 8 * x.1) 4 t.mem = x.2 % 2 ^ 32)))

/-- Where their operands read: EDG writes Q for the edge of its kind, never at first use, with PREV the input; FLT shifts the input into its history and decides over a full window; TMR writes the timer as evaluated at the release stamp; POST hands the entry of d to ring a and FETCH takes the head record and writes 1, or writes 0 from an empty ring, each counting as one voted transaction, and a write that does not read back in the ring area, or a ring word that nothing repairs, halting the module; RDREG and WRREG read and write the register; TOKV writes the result of the token, enters a good one in both lists and records each; TRAP halts the module. -/
def Obligations.BlockRingAndTokenInstructions : Prop :=
  ∀ (dt : Nat) (w : VInstr) (s : State), (ctx (vlane w s) (vstart dt w s)).conv = none →
    let b := vlane w s
    let a := vstart dt w s
    (∀ inp st t u, Runs dt 2 w s → isInst w.dst = true → opRead b 0 w.src1 0 a = .ok a inp → slotRead b w.dst 0 a = .ok a st →
      slotWrite b w.dst 0 (b2n (!(firstUse b a) && (if w.sub.toNat = 0 then inp == 1 && !(st.testBit 1) else inp == 0 && st.testBit 1)) + 2 * (inp % 2)) a = .ok t u →
      exec (.vEdg dt w) s = .next t)
    ∧ (∀ inp n h c o t u, Runs dt 1 w s → isInst w.dst = true → opRead b 0 w.src1 0 a = .ok a inp → opRead b 2 w.src2 0 a = .ok a n → 1 ≤ n → n ≤ 64 →
      slotRead b w.dst 0 a = .ok a h → slotRead b w.dst 1 a = .ok a c → slotRead b w.dst 2 a = .ok a o → firstUse b a = false →
      writeSlots b w.dst 0 [(h * 2 + inp % 2) % 2 ^ 64, min 64 (c + 1),
        if min 64 (c + 1) < n then 0 else if (h * 2 + inp % 2) % 2 ^ 64 % 2 ^ n = 2 ^ n - 1 then 1 else if (h * 2 + inp % 2) % 2 ^ 64 % 2 ^ n = 0 then 0 else o % 2] a = .ok t u →
      exec (.vFlt dt w) s = .next t)
    ∧ (∀ inp pt st fl et t u, Runs dt 3 w s → isInst w.dst = true → opRead b 0 w.src1 0 a = .ok a inp → opRead b 6 w.src2 0 a = .ok a pt →
      slotRead b w.dst 0 a = .ok a st → slotRead b w.dst 1 a = .ok a fl → slotRead b w.dst 2 a = .ok a et →
      (let q := timerEval w.sub.toNat (match running b a with | some r => r.stamp | none => now a) (firstUse b a) (inp == 1) (toSigned 64 pt) (fun x => elapsed b x a)
          { start := st, q := fl.testBit 0, run := fl.testBit 1, prev := fl.testBit 2, et := toSigned 64 et }
       writeSlots b w.dst 0 [q.start, b2n q.q + 2 * b2n q.run + 4 * b2n q.prev, ofSigned 64 q.et] a = .ok t u) →
      exec (.vTmr dt w) s = .next t)
    ∧ (∀ r e, Runs dt 1 w s → opRead b 2 w.src1 0 a = .ok a r → postOpen r s = true → readSlots b w.dst 4 4 [] a = .ok (e, a) →
      exec (.vPost dt (w, {})) s = .next (postTo r b e (seqVoted a))
      ∧ (mayHalt s → Yields (exec (.vPost dt (w, { verify := false })) s) (fun t => Halted t ∧ t.rings = s.rings ∧ rf 0x030028 8 8 t = 0x34)))
    ∧ (∀ r e rest t u, Runs dt 1 w s → opRead b 2 w.src1 0 a = .ok a r → fetchOpen r s = true → rf 0x0C0000 0 1 s = 1 → (ring r s).entries = e :: rest →
      (writeSlots b w.dst 0 [fieldAt e 0 8, fieldAt e 8 8, fieldAt e 16 8, fieldAt e 24 8]
        (modRing r (fun x => { x with entries := rest, cells := cellsRelease x.cells }) (seqVoted a))).bind (fun m _ => opWrite b 0 w.src2 0 1 m) = .ok t u →
      exec (.vFetch dt (w, {})) s = .next t)
    ∧ (∀ r inv d c, Runs dt 1 w s → opRead b 2 w.src1 0 a = .ok a r → fetchOpen r s = true → codeClass { data := d, check := c } = some .uncorrectable → mayHalt s →
      Yields (exec (.vFetch dt (w, { find := .flip inv d c })) s) (fun t => Halted t ∧ t.rings = s.rings ∧ t.mem = s.mem))
    ∧ (∀ r t u, Runs dt 1 w s → opRead b 2 w.src1 0 a = .ok a r → fetchOpen r s = true → (ring r s).entries = [] →
      opWrite b 0 w.src2 0 0 (seqVoted a) = .ok t u → exec (.vFetch dt (w, {})) s = .next t)
    ∧ (∀ v t u, Runs dt 1 w s → slotRead b w.src1 0 a = .ok a v → regAddress v = true →
      slotWrite b w.dst 0 (regRead v (seqVoted a)).2 (regRead v (seqVoted a)).1 = .ok t u → exec (.vRdreg dt w) s = .next t)
    ∧ (∀ v d, Runs dt 1 w s → slotRead b w.src1 0 a = .ok a v → regAddress v = true → blockOpen v s = true → slotRead b w.dst 0 a = .ok a d →
      exec (.vWrreg dt w) s = .next (regWrite v (d % 2 ^ 32) (seqVoted a)))
    ∧ (∀ k act t u, Runs dt 1 w s → opRead b 2 w.src2 0 a = .ok a act → readSlots b w.src1 8 8 [] a = .ok (k, a) → tokenResult k act a ≠ 0 →
      opWrite b w.ty.toNat w.dst 0 (tokenResult k act a) (emit 0x4405 [(4, fieldAt k 0 4), (4, fieldAt k 8 4), (2, fieldAt k 4 2), (1, tokenResult k act a)] a) = .ok t u →
      exec (.vTokv dt w) s = .next t)
    ∧ (∀ k act t u, Runs dt 1 w s → opRead b 2 w.src2 0 a = .ok a act → readSlots b w.src1 8 8 [] a = .ok (k, a) → tokenResult k act a = 0 →
      opWrite b w.ty.toNat w.dst 0 0 (emit 0x4405 [(4, fieldAt k 0 4), (4, fieldAt k 8 4), (2, fieldAt k 4 2), (1, 0)]
        { a with prg.tokUsed := (fieldAt k 0 4 :: s.prg.tokUsed).take 256, prg.tokVer := liveTokens a ++ [{ id := fieldAt k 0 4, act := act, scope := fieldAt k 12 4, staff := fieldAt k 8 4, at' := now a }] }) = .ok t u →
      exec (.vTokv dt w) s = .next t)
    ∧ (∀ v, Runs dt 1 w s → mayHalt s → opRead b 2 w.src1 0 a = .ok a v →
      Yields (exec (.vTrap dt w) s) (fun t => Halted t ∧ Recorded 0x4402 s t ∧ Recorded 0x4004 s t))

/-- For NOP, MOV, ADD, JMP, CALL, RET, POST, RDREG, WRREG and TRAP with a type of 8 or more or a subcode other than 0, for CAST with a subcode of 8 or more, for TMR of 3 or more and EDG of 2 or more, the module halts with its TRAP and VITAL_FAULT records, and no byte of memory changes. -/
def Obligations.UndefinedInstructionsTrap : Prop :=
  ∀ (dt : Nat) (w : VInstr) (s : State), laneRuns (vlane w s) (begin' dt s) = true → mayHalt s →
    ((8 ≤ w.ty.toNat ∨ 1 ≤ w.sub.toNat) → ∀ i ∈ ([.vNop dt w, .vMov dt w, .vLdi dt w, .vAdd dt w, .vDiv dt w, .vShl dt w, .vCeq dt w, .vJmp dt w, .vCall dt w, .vRet dt w, .vPost dt (w, {}), .vFetch dt (w, {}), .vRdreg dt w, .vWrreg dt w, .vTokv dt w, .vTrap dt w] : List Instr),
      Yields (exec i s) (fun t => Halted t ∧ t.mem = s.mem ∧ Recorded 0x4402 s t ∧ Recorded 0x4004 s t))
    ∧ ((8 ≤ w.ty.toNat ∨ 8 ≤ w.sub.toNat) → Yields (exec (.vCast dt w) s) (fun t => Halted t ∧ t.mem = s.mem ∧ Recorded 0x4402 s t))
    ∧ ((8 ≤ w.ty.toNat ∨ 3 ≤ w.sub.toNat) → Yields (exec (.vTmr dt w) s) (fun t => Halted t ∧ t.mem = s.mem ∧ Recorded 0x4402 s t))
    ∧ ((8 ≤ w.ty.toNat ∨ 2 ≤ w.sub.toNat) → Yields (exec (.vEdg dt w) s) (fun t => Halted t ∧ t.mem = s.mem ∧ Recorded 0x4402 s t))

/-- In a node that is OFF, a SYNC, COLDSTART, VITAL, BACKGROUND or NULL frame on a linked port passes through, and teaches the delay that it carries. In every node a frame waits, unchanged and with its check values, at the other port of the channel where that is linked; a port without a link drops it silently, and an aligned node drops, with its count, a frame that no sender on that side is expected to send at this instant. 0.64 us after its start the waiting frame leaves that port, or is dropped and counted where another frame is still leaving; until then it waits. Nothing but the sent frames, the ports and the counts changes. -/
def Obligations.BusForwarding : Prop :=
  ∀ (dt : Nat) (f : BusFrame) (s : State), busUp f s = true →
    let p := f.port.val
    let q := if p % 2 = 0 then p + 1 else p - 1
    let b := { begin' dt s with bus.heardAt := (begin' dt s).clk.up }
    let x : OutFrame := { start := b.clk.up + 64, len := 416, header := f.header.toNat, bytes := f.payload ++ leBytes 8 f.check.toNat, fwd := true }
    (s.bus.st = .off →
      (let o := Host.Outcome.next (learnFirst false f (busHear f (begin' dt s)))
       exec (.sync dt f) s = o ∧ exec (.coldstart dt f) s = o ∧ exec (.background dt f) s = o ∧ exec (.null dt f) s = o)
      ∧ exec (.vital dt f) s = .next (learnFirst true f (busHear f (begin' dt s))))
    ∧ ((busAligned s = false ∨ fwdExpected p f b = true) → (busPort q b).link = true →
      busHear f (begin' dt s) = modPort q (fun k => { k with out := k.out ++ [x] }) b)
    ∧ ((busAligned s = false ∨ fwdExpected p f b = true) → (busPort q b).link = false → busHear f (begin' dt s) = b)
    ∧ (busAligned s = true → fwdExpected p f b = false →
      WritesOnly [.regs] b (busHear f (begin' dt s)) ∧ RegsOnly [0x080048] s (busHear f (begin' dt s))
      ∧ rv 0x080048 (busHear f (begin' dt s)) = sat 0xFFFFFFFF (rv 0x080048 s + 1))
    ∧ (∀ (y : OutFrame), s.bus.ports.length = 4 → y.fwd = true → (busPort q s).out = [y] → (∀ n, n ≠ q → (busPort n s).out = []) → (∀ l, (link l s).queue = []) → s.lnk.copyAt = none →
      (s.clk.up + dt < y.start → (begin' dt s).bus = s.bus ∧ (begin' dt s).sent = [])
      ∧ (y.start ≤ s.clk.up + dt → (busPort q s).busyTo ≤ y.start →
        (begin' dt s).sent = [.bus q y.header y.bytes] ∧ (begin' dt s).bus.clash = s.bus.clash
        ∧ busPort q (begin' dt s) = { busPort q s with out := [], busyTo := y.start + y.len })
      ∧ (y.start ≤ s.clk.up + dt → y.start < (busPort q s).busyTo →
        (begin' dt s).sent = [] ∧ (begin' dt s).bus.clash = sat 0xFFFFFFFF (s.bus.clash + 1) ∧ busPort q (begin' dt s) = { busPort q s with out := [] }))
    ∧ (regRead 0xF008004C s).2 = s.bus.clash % 2 ^ 32

/-- In LISTEN, a lamplighter's SYNC frame or a COLDSTART frame of the own schedule and version whose sender's path delay is known makes that sender the reference: the cycle count is the frame's, the position is that of its slot plus the path delay, station time is no longer provisional, with its records, and the node is INTEGRATING. A frame of another schedule or version is counted and restarts the timeout; one that fails its checks is counted; a SYNC frame that is not the lamplighter's only teaches the delay it carries. A COLDSTART frame leads from COLDSTART to BACKOFF, and from BACKOFF to INTEGRATING. -/
def Obligations.BusIntegration : Prop :=
  ∀ (dt : Nat) (f : BusFrame) (s : State), busUp f s = true →
    let h := learnFirst false f (busHear f (begin' dt s))
    let full := fieldAt f.payload 0 8 % 2 ^ 40
    let adopts := fun (o : Host.Outcome State Fault Refusal) => ∀ d, pathDelay (hChan f) (hSrc f) h = some d → s.bus.adopted = false →
      Yields o (fun t => t.bus.st = .integrating ∧ t.bus.ref = hSrc f ∧ t.bus.leader = false ∧ t.bus.adopted = true ∧ t.bus.consist = 1
        ∧ t.clk.cycle = full ∧ t.clk.pos = (5000 * hSlot f + d) / 10 ∧ t.clk.prov = false ∧ t.clk.corr = 0
        ∧ (s.clk.prov = false → t.evr = s.evr) ∧ (s.clk.prov = true → Recorded 0x4901 s t)
        ∧ WritesOnly [.sent, .clk, .bus, .regs, .evr] (begin' dt s) t)
    (s.bus.st = .listen → busChecks f = true → hSrc f ≠ s.cfg.sched.own → syncMatches f s = true →
      adopts (exec (.coldstart dt f) s) ∧ (hLamp f s = true → adopts (exec (.sync dt f) s))
      ∧ (hLamp f s = false → exec (.sync dt f) s = .next h))
    ∧ (s.bus.st = .listen → busChecks f = true → hSrc f ≠ s.cfg.sched.own → fieldAt f.payload 8 4 ≠ s.cfg.sched.schedId → hLamp f s = true →
      Yields (exec (.sync dt f) s) (fun t => t.bus.st = .listen ∧ t.bus.mismatch = s.bus.mismatch + 1 ∧ t.bus.since = (begin' dt s).clk.up ∧ t.clk = (begin' dt s).clk))
    ∧ (s.bus.st = .listen → busChecks f = true → hSrc f ≠ s.cfg.sched.own → fieldAt f.payload 8 4 = s.cfg.sched.schedId → syncMatches f s = false →
      Yields (exec (.coldstart dt f) s) (fun t => t.bus.st = .listen ∧ t.bus.version = s.bus.version + 1 ∧ t.bus.since = (begin' dt s).clk.up ∧ t.clk = (begin' dt s).clk))
    ∧ ((s.bus.st = .listen ∨ s.bus.st = .coldstart ∨ s.bus.st = .backoff) → busChecks f = false →
      exec (.sync dt f) s = .next (countCrc f h) ∧ exec (.coldstart dt f) s = .next (countCrc f h))
    ∧ (s.bus.st = .coldstart → busChecks f = true → hSrc f ≠ s.cfg.sched.own →
      exec (.coldstart dt f) s = .next { h with bus.st := .backoff } ∧ exec (.sync dt f) s = .next h)
    ∧ (s.bus.st = .backoff → busChecks f = true → hSrc f ≠ s.cfg.sched.own → syncMatches f s = true → adopts (exec (.coldstart dt f) s))

/-- ENABLE with a schedule and known delays leads from OFF to LISTEN, its clearing to OFF with the guardian closed. A link that comes up or goes down has no known delay. The LISTEN timeout leads a permitted cold-start node that has not yet integrated to COLDSTART, with station time started if it was provisional and the attempt counted, and otherwise starts again; the end of BACKOFF leads to the next attempt, after 16 to LISTEN with a bar of 1,000 cycles and its record. 1,000 cycles of SILENT are recorded once. After two missed cycles the lowest cold-start node heard in both earlier cycles becomes the reference; a SYNCED node that is this one becomes the lamplighter; with none, a SYNCED node returns to LISTEN. -/
def Obligations.BusNodeEvents : Prop :=
  ∀ (dt : Nat) (data : Half) (port : Fin 4) (s : State), powered s = true →
    (lanesRun s = true → bit s.cfg.progBlocks 8 = true → bit (rv 0x080000 s) 31 = false →
      (bit data.toNat 0 = true → s.bus.st = .off → 0 < s.cfg.sched.nodes → delaysKnown s = true → Yields (exec (.vbusEnable dt data) s) (fun t =>
        WritesOnly [.bus, .regs] (seqVoted (begin' dt s)) t ∧ RegsOnly [0x080000] s t ∧ t.bus.st = .listen ∧ t.bus.since = (begin' dt s).clk.up
        ∧ t.bus.guard = false ∧ t.bus.gcause = 1))
      ∧ (bit data.toNat 0 = false → Yields (exec (.vbusEnable dt data) s) (fun t =>
        WritesOnly [.bus, .regs] (seqVoted (begin' dt s)) t ∧ RegsOnly [0x080000] s t ∧ t.bus.st = .off ∧ t.bus.leader = false ∧ t.bus.guard = false ∧ t.bus.gcause = 1)))
    ∧ (s.bus.ports.length = 4 → s.bus.st ≠ .off →
        Yields (exec (.portLinkUp dt port) s) (fun t => WritesOnly [.bus] (begin' dt s) t
          ∧ busPort port.val t = { busPort port.val (begin' dt s) with link := true, meas := none, t1 := none } ∧ (∀ n, n ≠ port.val → busPort n t = busPort n (begin' dt s)))
        ∧ Yields (exec (.portLinkDown dt port) s) (fun t => WritesOnly [.bus] (begin' dt s) t
          ∧ busPort port.val t = { busPort port.val (begin' dt s) with link := false, meas := none, t1 := none, busyTo := 0, out := [] } ∧ (∀ n, n ≠ port.val → busPort n t = busPort n (begin' dt s))))
    ∧ (s.bus.st = .listen → usUp (2 * cycleUs s + 7 * s.cfg.sched.own) ≤ (begin' dt s).clk.up - s.bus.since →
      (∀ k, csIndex s.cfg.sched.own s = some k → bit (rv 0x080000 s) 1 = true → s.bus.everInt = false → s.bus.csBar ≤ s.clk.cycle →
        Yields (exec (.listenTimeout dt) s) (fun t => WritesOnly [.clk, .bus, .regs, .evr] (begin' dt s) t ∧ t.bus.st = .coldstart ∧ t.bus.attempt = 1
          ∧ t.bus.csSent = 0 ∧ t.bus.ref = s.cfg.sched.own ∧ t.clk.prov = false ∧ t.clk.pos = 500 * k
          ∧ (s.clk.prov = true → t.clk.cycle = coldSeed s ∧ Recorded 0x4901 s t)
          ∧ rf 0x080010 20 8 t = sat 255 (rf 0x080010 20 8 s + 1)))
      ∧ ((csIndex s.cfg.sched.own s = none ∨ bit (rv 0x080000 s) 1 = false ∨ s.bus.everInt = true ∨ s.clk.cycle < s.bus.csBar) →
        exec (.listenTimeout dt) s = .next { begin' dt s with bus.since := (begin' dt s).clk.up }))
    ∧ (s.bus.st = .backoff → usUp (cycleUs s + 7 * s.cfg.sched.own) ≤ (begin' dt s).clk.up - s.bus.since →
      (∀ k, s.bus.attempt < 16 → csIndex s.cfg.sched.own s = some k → Yields (exec (.backoffExpiry dt) s) (fun t =>
        WritesOnly [.clk, .bus, .regs, .evr] (begin' dt s) t ∧ t.bus.st = .coldstart ∧ t.bus.attempt = s.bus.attempt + 1 ∧ t.clk.pos = 500 * k))
      ∧ (16 ≤ s.bus.attempt → Yields (exec (.backoffExpiry dt) s) (fun t => WritesOnly [.bus, .regs, .evr] (begin' dt s) t ∧ RegsOnly [0x0F006C] s t
        ∧ t.bus.st = .listen ∧ t.bus.csBar = s.clk.cycle + 1000 ∧ t.bus.guard = false ∧ RecordTypes [0x8802] s t)))
    ∧ (s.bus.st = .silent → s.bus.lostRec = false → s.bus.silentAt + 1000 ≤ s.clk.cycle → Yields (exec (.busLost dt) s) (fun t =>
        WritesOnly [.bus, .regs, .evr] (begin' dt s) t ∧ RegsOnly [0x0F006C] s t ∧ t.bus = { (begin' dt s).bus with lostRec := true } ∧ RecordTypes [0x8803] s t))
    ∧ (busAligned s = true → s.bus.leader = false → 2 ≤ s.bus.missed →
      (∀ r, (∃ n, n = r ∧ n ∈ s.bus.heardPrev ∧ n ∈ s.bus.heardPrev2 ∧ (csIndex n s).isSome = true) →
        (∀ n, n ∈ s.bus.heardPrev → n ∈ s.bus.heardPrev2 → (csIndex n s).isSome = true → r ≤ n) →
        exec (.lamplighterTakeover dt) s = .next { begin' dt s with bus.ref := r, bus.leader := r == s.cfg.sched.own && s.bus.st == .synced, bus.missed := 0, bus.lastFull := none })
      ∧ ((∀ n, n ∈ s.bus.heardPrev → n ∈ s.bus.heardPrev2 → csIndex n s = none) → s.bus.st = .synced →
        Yields (exec (.lamplighterTakeover dt) s) (fun t => WritesOnly [.bus] (begin' dt s) t ∧ t.bus.st = .listen ∧ t.bus.leader = false ∧ t.bus.guard = false)))

/-- In a SYNCED node whose guardian is open, an own SYNC slot sends its SYNC frame once, with type, sender, channel, slot and cycle in the header and count, schedule and version in the payload; a VITAL or BACKGROUND slot sends the frame prepared for it, or a counted NULL frame of zeros. In COLDSTART the own SYNC slot sends one COLDSTART frame per cycle. A slot whose window has been used or lies elsewhere sends nothing and counts a guardian cut; the third of a major cycle leads to SILENT. With the guardian closed, or more than 0.50 us out of step with the controller, nothing is sent. Before an own slot its frame is prepared: a background telegram of its ring, or NULL where there is none. -/
def Obligations.BusSlots : Prop :=
  ∀ (dt slot : Nat) (s : State), powered s = true → ownSlot slot s = true → slot < 2048 → s.cfg.sched.own < 64 →
    let b := begin' dt s
    let kind := bits (slotWord slot s) 7 2
    let frame := fun (ftype flags pp pq : Nat) (pay : List Byte) (ch : Nat) =>
      pay ++ leBytes 4 (crc32cFrom pp (leBytes 8 (busHeader ftype ch slot flags b) ++ pay)) ++ leBytes 4 (crc32From pq (leBytes 8 (busHeader ftype ch slot flags b) ++ pay))
    let goes := fun (ftype flags pp pq : Nat) (pay : List Byte) (t : State) =>
      t.sent = b.sent ++ [.bus 0 (busHeader ftype 0 slot flags b) (frame ftype flags pp pq pay 0), .bus 1 (busHeader ftype 0 slot flags b) (frame ftype flags pp pq pay 0),
        .bus 2 (busHeader ftype 1 slot flags b) (frame ftype flags pp pq pay 1), .bus 3 (busHeader ftype 1 slot flags b) (frame ftype flags pp pq pay 1)]
    let free := slotOn slot 0 s = true ∧ slotOn slot 1 s = true ∧ s.bus.ports.length = 4 ∧ (∀ p, p < 4 → (busPort p b).link = true ∧ (busPort p b).busyTo ≤ b.clk.up)
    let fresh := s.bus.window ≠ some (s.clk.cycle * 4096 + slot) ∧ inWindow slot b = true
    (∀ (ftype ch flags : Nat), ftype < 8 → ch < 2 → bits (busHeader ftype ch slot flags b) 0 4 = ftype ∧ bits (busHeader ftype ch slot flags b) 8 6 = s.cfg.sched.own
      ∧ bits (busHeader ftype ch slot flags b) 14 1 = ch ∧ bits (busHeader ftype ch slot flags b) 16 11 = slot ∧ bits (busHeader ftype ch slot flags b) 40 24 = s.clk.cycle % 2 ^ 24)
    ∧ (bit (rv 0x080000 s) 0 = true → s.bus.st = .synced → s.bus.guard = true → s.bus.gskew.natAbs ≤ 500 → free → fresh →
      (kind = 0 → Yields (exec (.slotStart dt slot) s) (fun t => WritesOnly [.sent, .bus] b t ∧ t.bus.window = some (s.clk.cycle * 4096 + slot)
        ∧ goes 1 (telFlags b) 0xFFFFFFFF 0xFFFFFFFF (syncPayload 0 b) t ∧ fieldAt (syncPayload 0 b) 0 8 = s.clk.cycle % 2 ^ 40))
      ∧ (kind ≠ 0 → takeoverEmpty slot s = false → s.bus.prep.find? (fun q => q.slot == slot) = none →
        Yields (exec (.slotStart dt slot) s) (fun t => WritesOnly [.sent, .bus, .regs] b t ∧ RegsOnly [0x080060] s t
          ∧ rv 0x080060 t = sat 0xFFFFFFFF (rv 0x080060 s + 1) ∧ goes 5 (telFlags b) 0xFFFFFFFF 0xFFFFFFFF (List.replicate 32 0#8) t))
      ∧ (∀ p, kind ≠ 0 → takeoverEmpty slot s = false → s.bus.prep.find? (fun q => q.slot == slot) = some p → p.ftype ≠ 5 → (p.ftype = 3 → fenced s = false) →
        Yields (exec (.slotStart dt slot) s) (fun t => WritesOnly [.sent, .bus] b t ∧ goes p.ftype p.flags p.presetP p.presetQ p.payload t
          ∧ t.bus.prep = s.bus.prep.filter (fun q => q.slot != slot))))
    ∧ (bit (rv 0x080000 s) 0 = true → s.bus.st = .coldstart → kind = 0 → s.bus.csThis = false → s.bus.gskew.natAbs ≤ 500 → free → fresh →
      Yields (exec (.slotStart dt slot) s) (fun t => WritesOnly [.sent, .bus] b t ∧ t.bus.csThis = true ∧ t.bus.csSent = s.bus.csSent + 1
        ∧ goes 2 (telFlags b) 0xFFFFFFFF 0xFFFFFFFF (syncPayload s.bus.attempt b) t))
    ∧ (bit (rv 0x080000 s) 0 = true → s.bus.st = .synced → s.bus.guard = true → s.bus.gskew.natAbs ≤ 500 → takeoverEmpty slot s = false → ¬fresh →
      (s.bus.babble < 2 → Yields (exec (.slotStart dt slot) s) (fun t => WritesOnly [.bus, .regs] b t ∧ t.sent = b.sent ∧ t.bus = { b.bus with babble := s.bus.babble + 1 }
        ∧ rv 0x08005C t = sat 0xFFFFFFFF (rv 0x08005C s + 1)))
      ∧ (2 ≤ s.bus.babble → Yields (exec (.slotStart dt slot) s) (fun t => WritesOnly [.bus, .regs] b t ∧ t.sent = b.sent ∧ t.bus.st = .silent
        ∧ t.bus.guard = false ∧ t.bus.gcause = 3 ∧ rv 0x080058 t = sat 0xFFFFFFFF (rv 0x080058 s + 1))))
    ∧ (((s.bus.guard = false ∧ s.bus.st ≠ .coldstart) ∨ 500 < s.bus.gskew.natAbs) → exec (.slotStart dt slot) s = .next b)
    ∧ (s.bus.st = .synced → s.bus.guard = true → s.bus.gskew.natAbs ≤ 500 → kind = 2 → bits (slotWord slot s) 16 4 < 4 → rf 0x0C0000 0 1 s = 1 →
      (∀ d data s1, ringTakeItem (bits (slotWord slot s) 16 4) b = some (d, data, s1) →
        exec (.txringTake dt slot) s = .next { s1 with bus.prep := { slot := slot, ftype := 4, flags := telFlags b, payload := fitTo 32 data } :: s1.bus.prep.filter (fun q => q.slot != slot) })
      ∧ (ringTakeItem (bits (slotWord slot s) 16 4) b = none →
        exec (.txringTake dt slot) s = .next { b with bus.prep := { slot := slot, ftype := 5, flags := telFlags b, payload := List.replicate 32 0#8 } :: s.bus.prep.filter (fun q => q.slot != slot) }))
    ∧ (s.bus.st = .synced → s.bus.guard = true → s.bus.gskew.natAbs ≤ 500 → kind = 1 → Yields (exec (.txringTake dt slot) s) (fun t => ∃ p rest, t.bus.prep = p :: rest ∧ p.slot = slot ∧ (p.ftype = 3 ∨ p.ftype = 5)
        ∧ (p.ftype = 5 → p.payload = List.replicate 32 0#8) ∧ (∀ q ∈ rest, q.slot ≠ slot) ∧ (s.lnk.pair ≠ .active → t.sent = b.sent)))

/-- In an aligned node, a VITAL, BACKGROUND or NULL frame beyond the bands of its slot is counted as such; a BACKGROUND or NULL frame whose checks fail, or whose header does not agree with the schedule, is counted and not delivered; the first good BACKGROUND copy of a slot is kept and delivered to its ring, a second copy dropped, and counted where it differs. A VITAL frame whose checks fail on an open channel is counted; a second copy that passes is dropped; one that passes first is kept with its sequence and accepted as a telegram. In a node that is not aligned nothing is received. A frame of a sender whose path delay is not known teaches the delay that it carries. -/
def Obligations.BusReception : Prop :=
  ∀ (dt : Nat) (f : BusFrame) (s : State), busUp f s = true →
    let h := learnFirst false f (busHear f (begin' dt s))
    let v := learnFirst true f (busHear f (begin' dt s))
    let rx := rxRing (hSlot f) s
    (busAligned s = false → s.bus.st ≠ .integrating → exec (.vital dt f) s = .next v ∧ exec (.background dt f) s = .next h ∧ exec (.null dt f) s = .next h)
    ∧ (busAligned s = true → bandOf f (begin' dt s) = none →
      exec (.vital dt f) s = .next (cnt 0x080044 v) ∧ exec (.background dt f) s = .next (cnt 0x080044 h) ∧ exec (.null dt f) s = .next (cnt 0x080044 h)
      ∧ exec (.sync dt f) s = .next (cnt 0x080044 h))
    ∧ (∀ (edge : Bool) (dev : Int) (cyc : Nat), busAligned s = true → bandOf f (begin' dt s) = some (edge, dev, cyc) →
      let e := if edge then countEdge f h else h
      let e3 := if edge then countEdge f v else v
      (busChecks f = false → exec (.background dt f) s = .next (countCrc f e) ∧ exec (.null dt f) s = .next (countCrc f e) ∧ exec (.sync dt f) s = .next (countCrc f e))
      ∧ (busChecks f = true → headerAgrees 4 cyc f e = false → exec (.background dt f) s = .next (cnt 0x080040 e))
      ∧ (busChecks f = true → headerAgrees 5 cyc f e = false → exec (.null dt f) s = .next (cnt 0x080040 e))
      ∧ (busChecks f = true → headerAgrees 1 cyc f e = false → exec (.sync dt f) s = .next (cnt 0x080040 e))
      ∧ (busChecks f = true → headerAgrees 5 cyc f e = true → bit (slotWord (hSlot f) s) 12 = false → assocGet (gotKey cyc f) s.bus.got = none →
        Yields (exec (.null dt f) s) (fun t => t.rings = s.rings ∧ t.tel = s.tel ∧ assocGet (gotKey cyc f) t.bus.got = some (0, f.payload)))
      ∧ (busChecks f = true → headerAgrees 4 cyc f e = true → bit (slotWord (hSlot f) s) 12 = false → assocGet (gotKey cyc f) s.bus.got = none →
        rx = 0xF → Yields (exec (.background dt f) s) (fun t => t.rings = s.rings ∧ assocGet (gotKey cyc f) t.bus.got = some (0, f.payload)))
      ∧ (∀ pay, busChecks f = true → headerAgrees 4 cyc f e = true → bit (slotWord (hSlot f) s) 12 = false → assocGet (gotKey cyc f) s.bus.got = some (0, pay) →
        Yields (exec (.background dt f) s) (fun t => t.rings = s.rings ∧ t.bus.got = s.bus.got
          ∧ rv 0x080050 t = (if pay = f.payload then rv 0x080050 s else sat 0xFFFFFFFF (rv 0x080050 s + 1))))
      ∧ (busChecks f = true → headerAgrees 4 cyc f e = true → bit (slotWord (hSlot f) s) 12 = false → assocGet (gotKey cyc f) s.bus.got = none →
        rx ≠ 0xF → rf 0x0C0000 0 1 s = 1 →
        exec (.background dt f) s = .next (deliverItem rx 0 false
          (packFields [(4, 0), (4, 32 + 2 ^ 24 * hFlags f s + 2 ^ 28 * b2n edge), (8, 0), (8, now (begin' dt s)), (8, 0)]) f.payload
          { learnDelay f e with bus.got := assocSet (gotKey cyc f) (0, f.payload) s.bus.got }))
      ∧ (∀ t, busTemplate (hSlot f) s = some t → (chan t.index s).st = .openSt → assocGet (gotKey cyc f) s.bus.got = none →
        (∀ n, classify t (chan t.index s) (leBytes 8 f.header.toNat ++ f.payload) (bits f.check.toNat 0 32) (bits f.check.toNat 32 32) ≠ .pass n) →
        Yields (exec (.vital dt f) s) (fun u => u.rings = s.rings ∧ u.bus.got = s.bus.got
          ∧ rv (0x080038 + 4 * hChan f) u = sat 0xFFFFFFFF (rv (0x080038 + 4 * hChan f) s + 1)))
      ∧ (∀ t n, busTemplate (hSlot f) s = some t → (chan t.index s).st = .openSt → assocGet (gotKey cyc f) s.bus.got = none →
        classify t (chan t.index s) (leBytes 8 f.header.toNat ++ f.payload) (bits f.check.toNat 0 32) (bits f.check.toNat 32 32) = .pass n →
        (headerAgrees 3 cyc f e3 = false → exec (.vital dt f) s = .next (cnt 0x080040 e3))
        ∧ (headerAgrees 3 cyc f e3 = true → bit (slotWord (hSlot f) s) 12 = false → edge = false → s.bus.st = .synced → rx ≠ 0xF →
          exec (.vital dt f) s = .next (telAccept { t with ring := rx } t.index n (hFlags f s) (if hasWick t then fieldAt f.payload 0 2 else 0)
            (if hasWick t then f.payload.drop 2 else f.payload) none { learnDelay f e3 with bus.got := assocSet (gotKey cyc f) (n, f.payload) s.bus.got })))
      ∧ (∀ t n pay, busTemplate (hSlot f) s = some t → (chan t.index s).st = .openSt → assocGet (gotKey cyc f) s.bus.got = some (n, pay) →
        headerAgrees 3 cyc f e3 = true → checkP (presets t n) (leBytes 8 f.header.toNat ++ f.payload) = bits f.check.toNat 0 32 →
        checkQ (presets t n) (leBytes 8 f.header.toNat ++ f.payload) = bits f.check.toNat 32 32 →
        Yields (exec (.vital dt f) s) (fun u => u.rings = s.rings ∧ u.tel = s.tel ∧ u.bus.got = s.bus.got
          ∧ rv 0x080050 u = (if pay = f.payload then rv 0x080050 s else sat 0xFFFFFFFF (rv 0x080050 s + 1)))))

/-- A measurement that is due sends a DELAY_REQ frame on its DOWN port and notes the instant; on a module link the member of the lower cluster number sends it. A DELAY_REQ that passes its check is answered on the same port by a DELAY_RESP with a turnaround time, by an aligned node in the first idle interval of the port; one that fails is not. The answer to a running measurement sets the link's delay to half of the round trip less the turnaround, rounded to the nearest ns, and a delay above 100 ns sets LINK_LONG and is recorded. -/
def Obligations.LinkDelays : Prop :=
  ∀ (dt : Nat) (f : BusFrame) (s : State), powered s = true → s.bus.ports.length = 4 → s.lnk.l.length = 3 →
    let b := begin' dt s
    let d := halfTrip (refNs f b - (match (busPort f.port.val b).t1 with | some t => t.1 | none => 0)) (fieldAt f.payload 0 4)
    (∀ port : Fin 7, port.val < 4 → port.val % 2 = 0 → (busPort port.val s).link = true → measureDue port.val s = true → (busAligned s = false ∨ portIdle port.val b = true) →
      (busPort port.val b).busyTo ≤ b.clk.up → (busPort port.val b).out = [] →
      Yields (exec (.linkDelayMeasure dt port) s) (fun t => WritesOnly [.sent, .bus] b t ∧ (busPort port.val t).t1 = some (10 * b.clk.up, s.clk.cycle)
        ∧ (busPort port.val t).meas = (busPort port.val s).meas
        ∧ t.sent = b.sent ++ [.bus port.val (busHeader 6 (port.val / 2) 0 (telFlags b) b) (delayBytes (busHeader 6 (port.val / 2) 0 (telFlags b) b) (List.replicate 4 0#8))]))
    ∧ (∀ port : Fin 7, port.val < 4 → port.val % 2 = 1 → exec (.linkDelayMeasure dt port) s = .next b)
    ∧ (∀ port : Fin 7, 4 ≤ port.val → (link (port.val - 4) s).width ≠ 0 → s.cfg.cluster < linkPeer (port.val - 4) s → (link (port.val - 4) s).delay = 0x3FF →
      (link (port.val - 4) b).queue = [] → (link (port.val - 4) b).busyTo ≤ b.clk.up →
      Yields (exec (.linkDelayMeasure dt port) s) (fun t => (link (port.val - 4) t).t1 = some b.clk.up ∧ (link (port.val - 4) t).measAt = s.clk.cycle
        ∧ t.sent = b.sent ++ [.link (port.val - 4) (linkFrame (port.val - 4) { ltype := 4, prio := 2, chtag := 0, payload := [] } b)] ∧ t.bus = b.bus))
    ∧ (f.port.val < 4 → (busPort f.port.val s).link = true →
      (delayCheck f = true → (busPort f.port.val b).out = [] →
        (let h := busHeader 7 (f.port.val / 2) 0 (telFlags b) b
         let pay := leBytes 4 (takeFree b).1.toNat
         let w := idleWait f.port.val b
         ((busAligned s = false ∨ w = 0) → (busPort f.port.val b).busyTo ≤ b.clk.up → Yields (exec (.delayReq dt f) s) (fun t => WritesOnly [.sent, .bus, .free] b t ∧ t.free = s.free + 1
            ∧ t.sent = b.sent ++ [.bus f.port.val h (delayBytes h pay)]))
         ∧ (busAligned s = true → w ≠ 0 → Yields (exec (.delayReq dt f) s) (fun t => WritesOnly [.bus, .free] b t ∧ t.free = s.free + 1
            ∧ (busPort f.port.val t).out = [{ start := b.clk.up + w, len := 160, header := h, bytes := delayBytes h pay, fwd := false }]))))
      ∧ (delayCheck f = false → exec (.delayReq dt f) s = .next { b with bus.heardAt := b.clk.up }))
    ∧ (∀ t1 c, f.port.val < 4 → (busPort f.port.val b).t1 = some (t1, c) → (busPort f.port.val s).link = true → delayCheck f = true → refNs f b - t1 ≤ 1000 * cycleUs s →
      s.bus.st ≠ .off → 2 ≤ s.cfg.sched.pmaj →
      Yields (exec (.delayResp dt f) s) (fun t => WritesOnly [.bus, .regs, .evr] b t ∧ (busPort f.port.val t).meas = some d ∧ (busPort f.port.val t).t1 = none
        ∧ (d ≤ 100 → t.regs = s.regs ∧ t.evr = s.evr)
        ∧ (100 < d → rf 0x080010 (16 + f.port.val) 1 t = 1 ∧ Records [nvNow 8 0x0006 f.port.val d b] s t)))
    ∧ (∀ t1, 4 ≤ f.port.val → (link (f.port.val - 4) s).width ≠ 0 → linkGood { head := BitVec.ofNat 128 (f.header.toNat + 2 ^ 64 * f.lseq.toNat), check := f.check } f.payload = true → (link (f.port.val - 4) b).t1 = some t1 → f.time = none →
      Yields (exec (.delayResp dt f) s) (fun t => WritesOnly [.lnk] b t
        ∧ (link (f.port.val - 4) t).delay = min (halfTrip (refNs f b - 10 * t1) (fieldAt f.payload 0 8)) 0x3FE
        ∧ (link (f.port.val - 4) t).lseqRx = (f.lseq.toNat % 2 ^ 32 + 1) % 2 ^ 32 ∧ (link (f.port.val - 4) t).t1 = none))

/-- At a boundary of a SYNCED follower past its first correction, with deviations of both channels no more than 400 ns apart, the mean is their average; the rate takes half of it; the correction that the next cycle carries, in quarter nanoseconds, is minus the mean, at most 600 ns, and the new rate plus the rest carried before, cut to whole microticks of 10 ns toward zero, and the rest is carried. A mean beyond 600 ns, or a rate beyond 200 ppm, leads to SILENT. The lamplighter corrects by its rate alone. Deviations more than 400 ns apart are counted and not used. A guardian whose cycle start is more than 500 ns off the controller's is counted. -/
def Obligations.BusClockCorrection : Prop :=
  ∀ (k x y : Int) (s : State), s.bus.st = .synced → s.bus.guardNext = false → s.bus.dlyNew = [] →
    let t := busBoundary k s
    let dev := 2 * (x + y)
    (s.bus.leader = false → s.bus.first = false → s.bus.hear.devX = some x → s.bus.hear.devY = some y → (x - y).natAbs ≤ 400 →
      t.bus.rate = s.bus.rate + dev / 2 ∧ 4 * t.clk.corr + t.clk.carry = s.clk.carry - (max (-2400) (min 2400 dev) + t.bus.rate)
      ∧ t.clk.corr % 10 = 0 ∧ t.clk.carry.natAbs < 40 ∧ t.clk.cycle = s.clk.cycle ∧ t.clk.pos = s.clk.pos
      ∧ (dev.natAbs ≤ 2400 → 5 * t.bus.rate.natAbs ≤ 4 * cycleUs s → t.bus.st = .synced)
      ∧ ((2400 < dev.natAbs ∨ 4 * cycleUs s < 5 * t.bus.rate.natAbs) → t.bus.guard = false ∧ t.bus.gcause = 2
          ∧ rv 0x080058 t = sat 0xFFFFFFFF (rv 0x080058 s + 1)))
    ∧ (s.bus.leader = false → s.bus.hear.devX = some x → s.bus.hear.devY = some y → 400 < (x - y).natAbs →
      t.bus.rate = s.bus.rate ∧ 4 * t.clk.corr + t.clk.carry = s.clk.carry - s.bus.rate ∧ rv 0x080054 t = sat 0xFFFFFFFF (rv 0x080054 s + 1))
    ∧ (s.bus.leader = true → t.bus.rate = s.bus.rate ∧ 4 * t.clk.corr + t.clk.carry = s.clk.carry - s.bus.rate ∧ t.regs = s.regs)
    ∧ (t.bus.hear = s.bus.early ∧ t.bus.early = {} ∧ t.bus.heardPrev = s.bus.hear.nodes ∧ t.bus.heardPrev2 = s.bus.heardPrev)
    ∧ (t.bus.gskew = k ∧ t.bus.gsync = s.bus.gsync + (if k.natAbs ≤ 500 then 0 else 1))

/-- CREATE of a CLOSED index with a template opens the channel with its present handle, no wick and sequence 1; on an open channel it needs a usable key, and to transmit a session too: it stays busy until the session counter plus 1 is in FRAM and then opens with that session. Any other CREATE changes no channel and gives its reason. DESTROY of the current handle of an OPEN or EXHAUSTED channel closes it with the next generation, or retires it at the last one; any other handle is counted and recorded as stale. While a CREATE is busy neither changes a channel. No other channel changes; only the active member of a pair also sends. -/
def Obligations.ChannelCommandEffects : Prop :=
  ∀ (dt : Nat) (i : Fin 4096) (h : Half) (s : State), lanesRun s = true → bit s.cfg.progBlocks 0x0B = true →
    let alone := fun (l : List Comp) (b t : State) => WritesOnly (.sent :: .lnk :: l) b t ∧ (s.lnk.pair ≠ .active → WritesOnly l b t)
    let others := fun (t : State) => ∀ j, j ≠ i.val → chan j t = chan j s
    (s.tel.busy = none → (chan i.val s).st = .closed → ∀ x, tmpl i.val s = some x →
      ((isOpenCh x = false ∨ (x.rx = true ∧ keyUsable x.keySlot s = true)) → Yields (exec (.create dt i) s) (fun t =>
        alone [.tel, .regs] (seqVoted (begin' dt s)) t ∧ RegsOnly [0x0B0028, 0x0B002C] s t ∧ others t
        ∧ chan i.val t = { chan i.val s with st := .openSt, wick := none, seq := 1, session := none }
        ∧ rv 0x0B0028 t = ((chan i.val s).gen % 2 ^ 20 * 4096 + i.val) ∧ rf 0x0B002C 0 4 t = 0))
      ∧ (isOpenCh x = true → x.rx = false → keyUsable x.keySlot s = true → sessionsOk s = true →
        exec (.create dt i) s = .next { seqVoted (begin' dt s) with tel.busy := some i.val })
      ∧ (isOpenCh x = true → keyUsable x.keySlot s = false → Yields (exec (.create dt i) s) (fun t =>
        WritesOnly [.regs] (seqVoted (begin' dt s)) t ∧ RegsOnly [0x0B002C] s t ∧ rf 0x0B002C 0 4 t = 4)))
    ∧ (s.tel.busy = none → ∀ r, (((chan i.val s).st = .openSt ∨ (chan i.val s).st = .exhausted) ∧ r = 2) ∨ ((chan i.val s).st = .retired ∧ r = 5)
        ∨ ((chan i.val s).st = .closed ∧ tmpl i.val s = none ∧ r = 1) →
      Yields (exec (.create dt i) s) (fun t => WritesOnly [.regs] (seqVoted (begin' dt s)) t ∧ RegsOnly [0x0B002C] s t ∧ rf 0x0B002C 0 4 t = r))
    ∧ (s.tel.busy.isSome = true → Yields (exec (.create dt i) s) (fun t => WritesOnly [.regs, .evr] (seqVoted (begin' dt s)) t ∧ RegsOnly [0x0F006C] s t
          ∧ Records [nvNow 0x0B 0x000C (1 + 16 * i.val) 0xF00B0020 (begin' dt s)] s t)
        ∧ Yields (exec (.destroy dt h) s) (fun t => WritesOnly [.regs, .evr] (seqVoted (begin' dt s)) t ∧ RegsOnly [0x0F006C] s t))
    ∧ (∀ c, s.tel.busy = some i.val → sessionNow s = some c → Yields (exec (.createComplete dt i) s) (fun t =>
        alone [.tel, .regs, .cand] (begin' dt s) t ∧ t.tel.busy = none ∧ sessionNow t = some (c + 1) ∧ others t
        ∧ chan i.val t = { chan i.val s with st := .openSt, wick := none, seq := 1, session := some c }))
    ∧ (s.tel.busy = none → h.toNat % 4096 = i.val → handleOf (chan i.val s) = h.toNat → ((chan i.val s).st = .openSt ∨ (chan i.val s).st = .exhausted) →
      Yields (exec (.destroy dt h) s) (fun t => alone [.tel, .regs] (seqVoted (begin' dt s)) t ∧ RegsOnly [0x0B002C] s t ∧ others t ∧ rf 0x0B002C 0 4 t = 0
        ∧ (chan i.val t).wick = none ∧ (chan i.val t).session = none
        ∧ ((chan i.val s).gen ≠ 0xFFFFF → (chan i.val t).st = .closed ∧ (chan i.val t).gen = (chan i.val s).gen + 1)
        ∧ ((chan i.val s).gen = 0xFFFFF → (chan i.val t).st = .retired)))
    ∧ (s.tel.busy = none → h.toNat % 4096 = i.val → (handleOf (chan i.val s) ≠ h.toNat ∨ (chan i.val s).st = .closed ∨ (chan i.val s).st = .retired) →
      Yields (exec (.destroy dt h) s) (fun t => WritesOnly [.regs, .evr] (seqVoted (begin' dt s)) t ∧ RegsOnly [0x0B002C, 0x0B0078, 0x0F006C] s t ∧ rf 0x0B002C 0 4 t = 3
        ∧ rv 0x0B0078 t = sat 0xFFFFFFFF (rv 0x0B0078 s + 1) ∧ Records [recNow 0x0B03 [(4, h.toNat), (1, 0xFF), (2, 0)] (begin' dt s)] s t))

/-- A COMMIT to an unlocked key slot holds the 16 bytes written, valid if their SHA-384 with the slot number matches the configured hash, and otherwise leaves the slot invalid, with its record; a locked slot does not change. LOCK locks the slot and keeps its key. No other slot changes. A feed of one to four bytes, low byte first, advances the running value of CVU-P by the Castagnoli polynomial and that of CVU-Q by the IEEE 802.3 polynomial, and changes nothing else. -/
def Obligations.KeysAndCheckValues : Prop :=
  ∀ (dt n : Nat) (data : Half) (s : State), lanesRun s = true → bit s.cfg.progBlocks 0x0B = true → n < 48 →
    let d := (s.tel.keyData.map (leBytes 4)).flatten
    let others := fun (t : State) => ∀ m, m ≠ n → keyOf m t = keyOf m s
    ((keyOf n s).locked = false → sha384 (d ++ [BitVec.ofNat 8 n]) / 2 ^ 256 = s.cfg.keyHash.getD n 0 →
      Yields (exec (.keyCommit dt n) s) (fun t => WritesOnly [.tel] (seqVoted (begin' dt s)) t ∧ keyOf n t = { slot := n, data := d, valid := true } ∧ others t))
    ∧ ((keyOf n s).locked = false → sha384 (d ++ [BitVec.ofNat 8 n]) / 2 ^ 256 ≠ s.cfg.keyHash.getD n 0 →
      Yields (exec (.keyCommit dt n) s) (fun t => WritesOnly [.tel, .regs, .evr] (seqVoted (begin' dt s)) t ∧ RegsOnly [0x0F006C] s t ∧ keyOf n t = { slot := n } ∧ others t
        ∧ Records [recNow 0x4B01 [(2, n)] (begin' dt s)] s t))
    ∧ ((keyOf n s).locked = true → exec (.keyCommit dt n) s = .next (seqVoted (begin' dt s)))
    ∧ Yields (exec (.keyLock dt n) s) (fun t => WritesOnly [.tel] (seqVoted (begin' dt s)) t ∧ keyOf n t = { keyOf n s with locked := true } ∧ others t)
    ∧ Yields (exec (.cvuFeed dt data) s) (fun t => WritesOnly [.regs] (seqVoted (begin' dt s)) t ∧ RegsOnly [0x0B0004, 0x0B0008] s t
        ∧ (let b := leBytes (if rf 0x0B0010 0 2 s = 0 then 4 else rf 0x0B0010 0 2 s) data.toNat
           rv 0x0B0004 t = crcRun 0x82F63B78 (rv 0x0B0004 s) b % 2 ^ 32 ∧ rv 0x0B0008 t = crcRun 0xEDB88320 (rv 0x0B0008 s) b % 2 ^ 32))

/-- While an item of a better class of its Ethernet port waits, or an exchange window holds the Ethernet channels, a ring keeps its items. Otherwise, while sealing works, the descriptor and its data at the head of a transmit ring of Ethernet or a link leave the ring. With the current handle of an OPEN transmit channel, and no permissive aspect without its permit, the channel takes the next wick and the next sequence number, or is EXHAUSTED after the last one; outside an active pair member one telegram leaves on the enabled port or the link that is up and idle: its header with version, flags, wick, length and, in version 2, the sealing time, its data, and both check values from the sequence before. A stale handle and a refused aspect are counted and recorded, change no channel and send nothing. A frame without a handle leaves its enabled Ethernet port as it is. -/
def Obligations.TelegramSealing : Prop :=
  ∀ (dt : Nat) (r : Fin 64) (d data : List Byte) (s1 s : State), sealing s = true → isTxRing r.val = true → 8 ≤ r.val →
    ringTakeItem r.val (begin' dt s) = some (d, data, s1) →
    let b := begin' dt s
    let h := fieldAt d 0 4
    let body := bindFields (h % 4096) data s1
    let c := chan (h % 4096) s
    let sealed := fun (x : Template) (y : List Byte) =>
      let hl := if 2 ≤ x.tver / 16 then 16 else 8
      let wick := if hasWick x then c.wick.getD 0 else 0
      y.take hl = packFields [(1, x.tver), (1, telFlags s1), (2, if x.tver / 16 = 0 then 0 else wick), (2, body.length), (2, 0)] ++ (if hl = 16 then leBytes 8 (now s1) else [])
      ∧ (y.drop hl).take body.length = body
      ∧ (y.drop (hl + body.length)).take 8 = leBytes 4 (checkP (presets x c.seq) (y.take (hl + body.length))) ++ leBytes 4 (checkQ (presets x c.seq) (y.take (hl + body.length)))
    ((outranked r.val b = true ∨ sealWaits r.val d b = true) → exec (.telegramSealing dt r) s = .next b)
    ∧ (outranked r.val b = false → sealWaits r.val d b = false →
    (h = 0 → r.val < 40 → exec (.telegramSealing dt r) s = .next (if bit (rv 0x0A0000 s) ((r.val - 8) / 8) then { s1 with sent := b.sent ++ [.eth ((r.val - 8) / 8) ((r.val - 8) % 4) data] } else s1))
    ∧ ((h ≠ 0 ∨ 40 ≤ r.val) → ∀ x, tmpl (h % 4096) s = some x → c.st = .openSt → handleOf c = h → x.rx = false → gateRefuses x body s1 = none →
      (s.lnk.pair ≠ .active → isOpenCh x = true → bit (rv 0x0A0000 s) (x.transport - 1) = true → Yields (exec (.telegramSealing dt r) s) (fun t =>
          WritesOnly [.sent, .tel, .regs, .evr] s1 t ∧ ∃ y, t.sent = b.sent ++ [.eth (x.transport - 1) ((r.val - 8) % 4) (udpFrame x y)] ∧ sealed x y))
      ∧ (∀ l, s.lnk.pair ≠ .active → x.transport = l + 5 → (link l b).width ≠ 0 → (link l b).queue = [] → (link l b).busyTo ≤ b.clk.up →
        Yields (exec (.telegramSealing dt r) s) (fun t => WritesOnly [.sent, .tel, .regs, .evr, .lnk] s1 t
          ∧ ∃ y, t.sent = b.sent ++ [.link l (linkFrame l { ltype := 1, prio := if x.border then 0 else 1, chtag := x.mtch, payload := y } b)] ∧ sealed x y))
      ∧ Yields (exec (.telegramSealing dt r) s) (fun t => WritesOnly [.sent, .tel, .regs, .evr, .lnk] s1 t
          ∧ (hasWick x = true → (chan (h % 4096) t).wick = some ((c.wick.getD 0 + 1) % 65536)) ∧ (hasWick x = false → (chan (h % 4096) t).wick = c.wick)
          ∧ (hasFold x = true → c.seq ≠ 0xFFFFFFFF → (chan (h % 4096) t).seq = c.seq + 1 ∧ (chan (h % 4096) t).st = .openSt)
          ∧ (hasFold x = true → c.seq = 0xFFFFFFFF → (chan (h % 4096) t).st = .exhausted ∧ Recorded 0x4B02 s t)
          ∧ (hasFold x = false → (chan (h % 4096) t).seq = c.seq)
          ∧ (∀ j, j ≠ h % 4096 → chan j t = chan j s)))
    ∧ ((h ≠ 0 ∨ 40 ≤ r.val) → (tmpl (h % 4096) s = none ∨ c.st ≠ .openSt ∨ handleOf c ≠ h) → Yields (exec (.telegramSealing dt r) s) (fun t =>
        WritesOnly [.regs, .evr] s1 t ∧ RegsOnly [0x0B0078, 0x0F006C] s t ∧ t.sent = b.sent ∧ rv 0x0B0078 t = sat 0xFFFFFFFF (rv 0x0B0078 s + 1)
        ∧ Records [recNow 0x0B03 [(4, h), (1, r.val), (2, 0)] (begin' dt s)] s t))
    ∧ (∀ x e, (h ≠ 0 ∨ 40 ≤ r.val) → tmpl (h % 4096) s = some x → c.st = .openSt → handleOf c = h → x.rx = false → gateRefuses x body s1 = some e →
      Yields (exec (.telegramSealing dt r) s) (fun t => WritesOnly [.regs, .evr] s1 t ∧ RegsOnly [0x0B007C, 0x0F006C] s t ∧ t.sent = b.sent
        ∧ rv 0x0B007C t = sat 0xFFFFFFFF (rv 0x0B007C s + 1) ∧ Records [recNow 0x0B04 [(4, h), (1, r.val), (2, e)] (begin' dt s)] s t)))

/-- A frame of a link that fails its check, and anything on a port that is disabled, is not taken. A telegram that matches no template, or whose channel is not OPEN, is counted and changes no channel. One whose codes fail is counted by its class and on its channel, whose wick and sequence stay. One whose codes pass moves a FOLD channel past its sequence; a repeated wick, one beyond the window, and on an Ethernet channel a tag that does not match the key and session, are counted and deliver nothing. One that passes everything enters the ring of its template, where there is room, as descriptor and data, with the handle, flags, sequence, wick, the number lost and the arrival stamp, and its wick becomes the channel's; border data marked NOT_VITAL gives no update. -/
def Obligations.TelegramReception : Prop :=
  ∀ (dt : Nat) (x : TelIn) (s : State), s.pwr.phase = .running →
    let eth := decide (x.port.val < 4)
    let q := linkIn (x.port.val - 4) x.link x.data (begin' dt s)
    let b := if eth then begin' dt s else q.2
    let v := if eth then x.data else linkTel x
    let go := if eth then bit (rv 0x0A0000 s) x.port.val else q.1
    let mt := telMatch x.port.val (if eth then x.tag.toNat else bits x.link.head.toNat 32 16) s
    (go = false → exec (.telegram dt x) s = .next b)
    ∧ (go = true → mt = none → Yields (exec (.telegram dt x) s) (fun t => WritesOnly [.regs] b t ∧ RegsOnly [0x0B0080] s t
        ∧ rv 0x0B0080 t = sat 0xFFFFFFFF (rv 0x0B0080 s + 1)))
    ∧ (∀ y, go = true → mt = some y →
      let c := chan y.index s
      let hl := if 2 ≤ y.tver / 16 then 16 else 8
      let len := fieldAt v 4 2
      let wick := fieldAt v 2 2
      let ahead := fun (w0 : Nat) => (wick + 65536 - w0) % 65536
      let cls := classify y c (v.take (hl + len)) (fieldAt v (hl + len) 4) (fieldAt v (hl + len + 4) 4)
      let ses := fieldAt v (hl + len + 8) 4
      let iv := packFields [(2, y.src), (2, y.index % 4096), (4, ses), (4, match cls with | .pass n => n | _ => 0)]
      let tagOk := keyUsable y.keySlot s && gmac (keyOf y.keySlot s).data iv (v.take (hl + len + 12)) == (v.drop (hl + len + 12)).take 16
      let genuine := isOpenCh y = true → tagOk = true ∧ (c.session = none ∨ c.session = some ses)
      let fresh := fun (lost : Nat) => (hasWick y = true → wickCheck y c wick = .ok lost) ∧ (hasWick y = false → lost = 0)
      (c.st ≠ .openSt → Yields (exec (.telegram dt x) s) (fun t => WritesOnly [.regs] b t ∧ RegsOnly [0x0B0080] s t
        ∧ rv 0x0B0080 t = sat 0xFFFFFFFF (rv 0x0B0080 s + 1)))
      ∧ (∀ k, c.st = .openSt → ((cls = .checkOnly ∧ k = 0x0B0060) ∨ (cls = .corrupt ∧ k = 0x0B0064) ∨ (cls = .foldFail ∧ k = 0x0B0068)) →
        Yields (exec (.telegram dt x) s) (fun t => WritesOnly [.tel, .regs, .sta] b t ∧ RegsOnly [k] s t ∧ rv k t = sat 0xFFFFFFFF (rv k s + 1)
          ∧ chan y.index t = { c with fails := c.fails + 1 } ∧ (∀ j, j ≠ y.index → chan j t = chan j s)))
      ∧ (∀ n k w0, c.st = .openSt → cls = .pass n → hasWick y = true → c.wick = some w0 →
        ((ahead w0 = 0 ∧ k = 0x0B006C) ∨ (y.wickWin < ahead w0 ∧ ahead w0 ≠ 0 ∧ k = 0x0B0070)) →
        Yields (exec (.telegram dt x) s) (fun t => WritesOnly [.tel, .regs] b t ∧ RegsOnly [k] s t ∧ rv k t = sat 0xFFFFFFFF (rv k s + 1)
          ∧ (chan y.index t).wick = some w0 ∧ (hasFold y = true → (chan y.index t).seq = n + 1) ∧ (hasFold y = false → (chan y.index t).seq = c.seq)
          ∧ (chan y.index t).fails = c.fails + 1))
      ∧ (∀ n lost, c.st = .openSt → cls = .pass n → fresh lost → isOpenCh y = true → (tagOk = false ∨ ∃ w, c.session = some w ∧ w ≠ ses) →
        Yields (exec (.telegram dt x) s) (fun t => WritesOnly [.tel, .regs] b t ∧ RegsOnly [0x0B0074] s t ∧ rv 0x0B0074 t = sat 0xFFFFFFFF (rv 0x0B0074 s + 1)
          ∧ (chan y.index t).session = c.session ∧ (chan y.index t).fails = c.fails + 1))
      ∧ (∀ n lost, c.st = .openSt → cls = .pass n → fresh lost → genuine → y.border = true → bit (fieldAt v 1 1) 0 = true →
        Yields (exec (.telegram dt x) s) (fun t => WritesOnly [.tel] b t ∧ (hasWick y = true → (chan y.index t).wick = some wick) ∧ (chan y.index t).fails = c.fails))
      ∧ (∀ n lost, c.st = .openSt → cls = .pass n → fresh lost → genuine → y.border = false → y.latReq = false → rf 0x0C0000 0 1 s = 1 → y.ring < 64 → s.rings.length = 64 →
        (ring y.ring s).lostRaise = false → cellsFor y.ring ((((v.take (hl + len)).drop hl).length + 255) / 256) s = true →
        (let data := (v.take (hl + len)).drop hl
         let desc := packFields [(4, handleOf c), (4, data.length + 2 ^ 24 * (fieldAt v 1 1 % 16)), (4, if hasFold y then n else 0), (2, wick), (2, lost), (8, now b), (8, 0)]
         (itemEntries desc data).length ≤ ringFree y.ring s →
          Yields (exec (.telegram dt x) s) (fun t => (ring y.ring t).entries = (ring y.ring s).entries ++ itemEntries desc data ∧ RingsOnly [y.ring] s t
            ∧ (hasWick y = true → (chan y.index t).wick = some wick) ∧ (isOpenCh y = true → (chan y.index t).session = some ses) ∧ (chan y.index t).fails = c.fails
            ∧ (hasFold y = true → (chan y.index t).seq = n + 1) ∧ WritesOnly [.tel, .regs, .rings, .prg, .xch] b t))))

/-- Between two enabled ports a PTP event message, with transparent-clock correction on, leaves with its residence time added to correctionField, counted and its maximum kept, or is dropped and counted beyond 1 ms; every other frame leaves unchanged, a PTP message counted. Where its ring has room, a frame for the module enters the ring of its class with its length and arrival stamp, an event message with civil time too. An event message of the module that leaves is counted and its stamps enter the PTP ring. A port's link bit shows its link. -/
def Obligations.EthernetFrameEffects : Prop :=
  ∀ (dt : Nat) (p q : Fin 4) (b : List Byte) (ns : Nat) (up : Bool) (s : State), powered s = true → s.pwr.phase ≠ .stopped →
    (bit (rv 0x0A0000 s) p.val = true → bit (rv 0x0A0000 s) q.val = true →
      (ptpEvent b = true → rf 0x0A0100 0 1 s = 1 → ns ≤ 1000000 → Yields (exec (.ethernetFrame dt { port := some p, bytes := b, out := some q, resNs := ns }) s) (fun t =>
        WritesOnly [.sent, .regs] (begin' dt s) t ∧ RegsOnly [0x0A0104, 0x0A0110] s t ∧ rv 0x0A0104 t = sat 0xFFFFFFFF (rv 0x0A0104 s + 1)
        ∧ rf 0x0A0110 0 24 t = max ns (rf 0x0A0110 0 24 s) ∧ t.sent = (begin' dt s).sent ++ [.eth q.val (ethClass b) (ptpCorrect b ns)]))
      ∧ (ptpEvent b = true → rf 0x0A0100 0 1 s = 1 → 1000000 < ns → Yields (exec (.ethernetFrame dt { port := some p, bytes := b, out := some q, resNs := ns }) s) (fun t =>
        WritesOnly [.regs] (begin' dt s) t ∧ RegsOnly [0x0A010C] s t ∧ rv 0x0A010C t = sat 0xFFFFFFFF (rv 0x0A010C s + 1)))
      ∧ ((ptpAt b).isSome = true → (ptpEvent b = false ∨ rf 0x0A0100 0 1 s = 0) → Yields (exec (.ethernetFrame dt { port := some p, bytes := b, out := some q, resNs := ns }) s) (fun t =>
        WritesOnly [.sent, .regs] (begin' dt s) t ∧ RegsOnly [0x0A0108] s t ∧ rv 0x0A0108 t = sat 0xFFFFFFFF (rv 0x0A0108 s + 1)
        ∧ t.sent = (begin' dt s).sent ++ [.eth q.val (ethClass b) b]))
      ∧ (ptpAt b = none → exec (.ethernetFrame dt { port := some p, bytes := b, out := some q, resNs := ns }) s = .next { begin' dt s with sent := (begin' dt s).sent ++ [.eth q.val (ethClass b) b] }))
    ∧ (bit (rv 0x0A0000 s) p.val = false →
      exec (.ethernetFrame dt { port := some p, bytes := b, out := some q, resNs := ns }) s = .next (begin' dt s)
      ∧ exec (.ethernetFrame dt { port := some p, bytes := b, out := none, resNs := ns }) s = .next (begin' dt s))
    ∧ (bit (rv 0x0A0000 s) p.val = true → rf 0x0C0000 0 1 s = 1 → s.rings.length = 64 →
      let r := 12 + 8 * p.val + ethClass b
      let desc := packFields [(4, 0), (4, b.length % 2048), (8, 0), (8, now (begin' dt s)), (8, if ptpEvent b then (begin' dt s).civ.ns else 0)]
      (ring r s).lostRaise = false → cellsFor r ((b.length + 255) / 256) s = true → (itemEntries desc b).length ≤ ringFree r s →
      Yields (exec (.ethernetFrame dt { port := some p, bytes := b, out := none, resNs := ns }) s) (fun t =>
        (ring r t).entries = (ring r s).entries ++ itemEntries desc b ∧ RingsOnly [r] s t ∧ WritesOnly [.regs, .rings, .prg, .xch] (begin' dt s) t
        ∧ (ptpEvent b = true → rv 0x0A0114 t = sat 0xFFFFFFFF (rv 0x0A0114 s + 1))))
    ∧ (ptpEvent b = true → bit (rv 0x0A0000 s) q.val = true → rf 0x0C0000 0 1 s = 0 →
      Yields (exec (.ethernetFrame dt { port := none, bytes := b, out := some q, resNs := ns }) s) (fun t => WritesOnly [.regs] (begin' dt s) t
        ∧ RegsOnly [0x0A0118] s t ∧ rv 0x0A0118 t = sat 0xFFFFFFFF (rv 0x0A0118 s + 1)))
    ∧ (ptpEvent b = true → bit (rv 0x0A0000 s) q.val = true → rf 0x0C0000 0 1 s = 1 → s.rings.length = 64 →
      let r := 13 + 8 * q.val
      let desc := packFields [(4, 0), (4, 0), (8, 0), (8, now (begin' dt s)), (8, (begin' dt s).civ.ns)]
      (ring r s).lostRaise = false → (itemEntries desc []).length ≤ ringFree r s →
      Yields (exec (.ethernetFrame dt { port := none, bytes := b, out := some q, resNs := ns }) s) (fun t =>
        (ring r t).entries = (ring r s).entries ++ itemEntries desc [] ∧ RingsOnly [r] s t ∧ WritesOnly [.regs, .rings, .prg, .xch] (begin' dt s) t
        ∧ rv 0x0A0118 t = sat 0xFFFFFFFF (rv 0x0A0118 s + 1)))
    ∧ (ptpEvent b = false → exec (.ethernetFrame dt { port := none, bytes := b, out := some q, resNs := ns }) s = .next (begin' dt s))
    ∧ Yields (exec (.ethernetPortLink dt p up) s) (fun t => WritesOnly [.regs] (begin' dt s) t ∧ RegsOnly [0x0A0004] s t ∧ rf 0x0A0004 p.val 1 t = b2n up
        ∧ (∀ n, n ≠ p.val → bit (rv 0x0A0004 t) n = bit (rv 0x0A0004 s) n))

/-- In service, without restart, pause or full journal, the words that the step reads are checked and repaired first; then the request whose turn it is leaves the queue; the words of the decision are stored in both tables in one piece, and no other memory changes; the commit is journalled under its RSEQ and arrival stamp; one result record with the operation, result, reason, detail, arrival stamp, route state and the next RSEQ enters ring 51. A commit that the journal has no room for stops the engine until the boundary, with nothing written. Where the two engines disagree nothing is committed and no result written, the request stays, and the engine restarts, or halts the module where its ember has served. While the engine does not run, a request waits. -/
def Obligations.LatticeRequestsAnswered : Prop :=
  ∀ (dt : Nat) (u : EngineIn) (q : LatReq) (s : State),
    let b := begin' dt s
    let v := engineFindings u.hits b
    let answers := fun (o : Host.Outcome State Fault Refusal) (mine : Bool) (d : Decision) =>
      mine = true →
        let fits := journalBytes v + (16 + 16 * d.tx.words.length) ≤ 262144
        (latRuns b = true → latRuns v = true → engineReads u.hits v = true → u.disagree = false → d.tx.check = false → d.tx.bad = false →
          (fits → ringFree 51 s ≠ 0 → s.rings.length = 64 →
          Yields o (fun t => t.lat.reqQ = [] ∧ t.lat.rseq = (s.lat.rseq + 1) % 2 ^ 32 ∧ t.lat.updQ = s.lat.updQ
            ∧ t.mem = storeWords d.tx.m d.tx.words v.mem ∧ t.lat.starting = d.tx.starting
            ∧ t.lat.journal = s.lat.journal ++ (if d.tx.words = [] then [] else [journalEntry 1 ((s.lat.rseq + 1) % 2 ^ 32) (qArr q.entry) d.tx])
            ∧ (ring 51 t).entries = (ring 51 s).entries ++ [packFields [(4, qOp q.entry + 16 * d.res + 256 * d.reason + 65536 * qTag q.entry),
                (4, qTarget q.entry + 65536 * (d.detail % 16384)), (8, qArr q.entry), (8, now b),
                (4, if (qOp q.entry = 1 ∨ qOp q.entry = 2) ∧ qTarget q.entry < 4096 then rState (qTarget q.entry) t.mem else 0), (4, (s.lat.rseq + 1) % 2 ^ 32)]]
            ∧ t.prg.mode = s.prg.mode))
          ∧ (¬ fits → d.tx.words ≠ [] → o = .next { v with lat.jfull := true }))
        ∧ (latRuns b = true → latRuns v = true → engineReads u.hits v = true → u.disagree = true →
          (v.tri.lattice.used = false →
            Yields o (fun t => WritesOnly [.tri, .regs, .evr, .lnk, .sent] v t ∧ t.tri.lattice.restart = some b.clk.up
              ∧ t.tri.lattice.used = true ∧ t.tri.hold.isSome = true))
          ∧ (v.tri.lattice.used = true → mayHalt v → Yields o (fun t => Halted t ∧ t.mem = v.mem ∧ t.lat.reqQ = s.lat.reqQ)))
        ∧ (latRuns b = true → (latRuns v = false ∨ engineReads u.hits v = false) → o = .next v)
        ∧ (latRuns b = false → o = .next b)
    nextRequest b = some q → s.lat.reqQ = [q] → q.busy = false →
    answers (exec (.set dt u) s) (qOp q.entry == 1) (decideSet q v) ∧ answers (exec (.cancel dt u) s) (qOp q.entry == 2) (decideCancel q v)
    ∧ answers (exec (.elementBlock dt u) s) (qOp q.entry == 3) (decideBlock q v) ∧ answers (exec (.elementUnblock dt u) s) (qOp q.entry == 4) (decideUnblock q v)
    ∧ answers (exec (.pointLock dt u) s) (qOp q.entry == 5) (decidePointLock q v) ∧ answers (exec (.pointFree dt u) s) (qOp q.entry == 6) (decidePointFree q v)
    ∧ answers (exec (.emergencyRelease dt u) s) (qOp q.entry == 7) (decideEmergency q v).1
    ∧ answers (exec (.undefinedRequest dt u) s) (qOp q.entry == 0 || decide (8 ≤ qOp q.entry)) (refuse 6 0x20 0 v)

/-- SET of an IDLE route is refused with the lowest-numbered route that the conflict matrix names and that is not IDLE; SET of a route in any other state than IDLE, LOCKED or PROVED, and CANCEL of one in any other than LOCKED, PROVED and PERMIT, is BAD_STATE. ELEMENT_BLOCK and POINT_LOCK are refused by the lock that the element has, the lowest reason first; UNBLOCK needs a BLOCKED element, POINT_FREE a held point. An element operation that succeeds writes exactly its lock, and the held position of a point. An unconfigured route or element is BAD_TARGET; step 1 of an emergency release needs the zone at rest, step 2 the zone releasing for 5 s. A refusal computes no change. -/
def Obligations.LatticeDecisions : Prop :=
  ∀ (q : LatReq) (s : State), commonInvalid q = none → Memory.wf s.mem = true →
    let r := qTarget q.entry
    let x := routeRec r s.mem
    let w := memNat (elemAddr r) 8 s.mem
    let no := fun (d : Decision) (res reason detail : Nat) => d.res = res ∧ d.reason = reason ∧ d.detail = detail ∧ d.tx.words = [] ∧ d.tx.check = false ∧ d.tx.bad = false ∧ d.tx.starting = s.lat.starting
    (∀ j, routeKnown r s = true → checked x s = true → codeBad r x s = false → rState r s.mem = rIdle → j < 4096 →
      (memGet (0x100000000 + 512 * r + j / 8) s.mem).toNat.testBit (j % 8) = true → rState j s.mem ≠ rIdle →
      (∀ i, i < j → (memGet (0x100000000 + 512 * r + i / 8) s.mem).toNat.testBit (i % 8) = true → rState i s.mem = rIdle) → no (decideSet q s) 3 0x10 j)
    ∧ (routeKnown r s = true → checked x s = true → codeBad r x s = false → rState r s.mem ≠ rIdle → rState r s.mem ≠ rLocked → rState r s.mem ≠ rProved → no (decideSet q s) 6 0x22 0)
    ∧ (routeKnown r s = true → checked x s = true → codeBad r x s = false → rState r s.mem ≠ rPermit → rState r s.mem ≠ rLocked → rState r s.mem ≠ rProved → no (decideCancel q s) 6 0x22 0)
    ∧ (routeKnown r s = false → no (decideSet q s) 6 0x21 0 ∧ no (decideCancel q s) 6 0x21 0)
    ∧ (tyOf r s.mem = 0 → no (decideBlock q s) 6 0x21 0 ∧ no (decideUnblock q s) 6 0x21 0 ∧ no (decidePointLock q s) 6 0x21 0 ∧ no (decidePointFree q s) 6 0x21 0
        ∧ no (decideEmergency q s).1 6 0x21 0)
    ∧ (tyOf r s.mem = 7 → no (decideBlock q s) 6 0x26 0)
    ∧ (tyOf r s.mem ≠ 0 → tyOf r s.mem ≠ 7 → (∀ c, (lockOf r s.mem = lockRoute ∧ c = 3) ∨ (lockOf r s.mem = lockOverlap ∧ c = 3) ∨ (lockOf r s.mem = lockFlank ∧ c = 4)
          ∨ (lockOf r s.mem = lockFree ∧ flankCnt r s.mem ≠ 0 ∧ c = 4) ∨ (lockOf r s.mem = lockBlocked ∧ c = 5) ∨ (lockOf r s.mem = lockHeld ∧ c = 6) → no (decideBlock q s) 4 c r)
        ∧ (lockOf r s.mem = lockFree → flankCnt r s.mem = 0 → (decideBlock q s).res = 2
          ∧ (decideBlock q s).tx = settle settleFuel (txElem r (setBits w 16 16 0xA55A) (txOf s))))
    ∧ (tyOf r s.mem ≠ 0 → lockOf r s.mem = lockBlocked → (decideUnblock q s).res = 2 ∧ (decideUnblock q s).tx = settle settleFuel (txElem r (setBits w 16 16 0x9966) (txOf s)))
    ∧ (tyOf r s.mem ≠ 0 → lockOf r s.mem ≠ lockBlocked → no (decideUnblock q s) 6 0x22 0)
    ∧ (tyOf r s.mem ≠ 0 → tyOf r s.mem ≠ 2 → no (decidePointLock q s) 6 0x26 0)
    ∧ (tyOf r s.mem = 2 → stateOf r s.mem = 0 → no (decidePointLock q s) 4 1 r)
    ∧ (tyOf r s.mem = 2 → lockOf r s.mem = lockFree → flankCnt r s.mem = 0 → (stateOf r s.mem = 0x24DB ∨ stateOf r s.mem = 0x27D8) → no (decidePointLock q s) 4 7 r)
    ∧ (∀ p, tyOf r s.mem = 2 → lockOf r s.mem = lockFree → flankCnt r s.mem = 0 → (stateOf r s.mem = 0x21DE ∧ p = 1 ∨ stateOf r s.mem = 0x22DD ∧ p = 2) →
        (decidePointLock q s).res = 2 ∧ (decidePointLock q s).tx = settle settleFuel (txElem r (setBits (setBits w 16 16 0xA659) 50 2 p) (txOf s)))
    ∧ (tyOf r s.mem ≠ 0 → lockOf r s.mem = lockHeld → (decidePointFree q s).res = 2 ∧ (decidePointFree q s).tx = settle settleFuel (txElem r (setBits (setBits w 16 16 0x9966) 50 2 0) (txOf s)))
    ∧ (tyOf r s.mem = 7 → objectController s = false →
        ((qStep q.entry = 2 ∧ bits w 0 16 ≠ 0x7B84 ∨ qStep q.entry = 2 ∧ sinceStep1 r (qArr q.entry) 5 s = false ∨ qStep q.entry = 1 ∧ bits w 0 16 = 0x7B84) → no (decideEmergency q s).1 6 0x25 0)
        ∧ (qStep q.entry = 1 → bits w 0 16 ≠ 0x7B84 → (decideEmergency q s).1.res = 2
            ∧ (decideEmergency q s).1.tx = settle settleFuel (txElem r (setBits (setBits w 0 16 0x7B84) 32 32 (qArr q.entry / 2 ^ 24)) (txOf s))))

/-- The oldest update leaves its queue: an accepted one stores its state, UNKNOWN for a code that its type does not define, with AGE 0, and what follows for the routes of the element; a refused one changes no memory, is counted and recorded. The ends of cancel, approach and overlap times, a zone's 60 s and the border timeout, where due, commit what the rules give and nothing else; where not due they change nothing; each is journalled with the stamp of its boundary. Where the engines disagree, all of them change nothing but the restart of the pair. A result that waits for ring 51 is written as soon as it has room; a pause longer than a minor cycle is recorded once. -/
def Obligations.LatticeUpdatesAndTimers : Prop :=
  ∀ (dt : Nat) (u : EngineIn) (r : Fin 4096) (o : Fin 2048) (n : Fin 16384) (s : State),
    let b := begin' dt s
    let v := engineFindings u.hits b
    let w := memNat (elemAddr n.val) 8 v.mem
    let commits := fun (c : Instr) (tx : LatTx) => tx.check = false → tx.bad = false →
      Yields (exec c s) (fun t => t.mem = storeWords tx.m tx.words v.mem ∧ t.lat.starting = tx.starting ∧ t.lat.reqQ = s.lat.reqQ ∧ t.lat.updQ = s.lat.updQ ∧ t.lat.rseq = s.lat.rseq ∧ t.prg.mode = s.prg.mode
        ∧ t.lat.journal = s.lat.journal ++ (if tx.words = [] then [] else [journalEntry 3 0 (s.clk.cycle * 2 ^ 24) tx]))
    let sees := latRuns b = true ∧ latRuns v = true ∧ engineReads u.hits v = true ∧ u.disagree = false
    (∀ e, sees → nextUpdate b = some e → s.lat.updQ = [e] → s.lat.reqQ = [] → (ring 50 s).entries = [] →
      (updateBad e v = true → Yields (exec (.update dt u) s) (fun t => t.lat = { v.lat with updQ := [] } ∧ WritesOnly [.lat, .regs, .evr] v t
        ∧ rv 0x06001C t = sat 0xFFFFFFFF (rv 0x06001C v + 1) ∧ RecordTypes [0x8604] v t))
      ∧ (updateBad e v = false →
        (let m := qTarget e
         let code := if (stateCodes (tyOf m v.mem) (coded m v.mem)).contains (qState e) = true then qState e else 0
         let x := setBits (setBits (memNat (elemAddr m) 8 v.mem) 0 16 code) 56 8 0
         let tx := settle settleFuel { txElem m x (txOf v) with chg := if bits (memNat (elemAddr m) 8 v.mem) 0 16 = code then none else some m }
         tx.check = false → tx.bad = false → journalBytes v + (16 + 16 * tx.words.length) ≤ 262144 →
          Yields (exec (.update dt u) s) (fun t => t.mem = storeWords tx.m tx.words v.mem ∧ t.lat.updQ = [] ∧ t.lat.starting = tx.starting ∧ t.lat.rseq = s.lat.rseq
            ∧ (tx.words ≠ [] → t.lat.journal = s.lat.journal ++ [journalEntry 2 0 (qArr e) tx])))))
    ∧ (sees →
      (rState r.val v.mem = rCancel → timerDone (rWord r.val v.mem) (routeRec r.val v.mem).cancelTime false r.val (txOf v) = true →
        checked (routeRec r.val v.mem) v = true → codeBad r.val (routeRec r.val v.mem) v = false →
        commits (.cancelTimeExpiry dt (r, u)) (settleRoute r.val (txRoute r.val (setBits (setBits (rWord r.val v.mem) 0 16 0xF00F) 32 32 s.clk.cycle) (txOf v))))
      ∧ ((rState r.val v.mem ≠ rCancel ∨ checked (routeRec r.val v.mem) v = true ∧ timerDone (rWord r.val v.mem) (routeRec r.val v.mem).cancelTime false r.val (txOf v) = false) → exec (.cancelTimeExpiry dt (r, u)) s = .next v)
      ∧ (rState r.val v.mem = rApproach → timerDone (rWord r.val v.mem) (routeRec r.val v.mem).apprTime false r.val (txOf v) = true →
        checked (routeRec r.val v.mem) v = true → codeBad r.val (routeRec r.val v.mem) v = false →
        commits (.approachTimeExpiry dt (r, u)) (settleRoute r.val (txOf v)))
      ∧ ((rState r.val v.mem ≠ rApproach ∨ checked (routeRec r.val v.mem) v = true ∧ timerDone (rWord r.val v.mem) (routeRec r.val v.mem).apprTime false r.val (txOf v) = false) → exec (.approachTimeExpiry dt (r, u)) s = .next v)
      ∧ (bits (oWord o.val v.mem) 0 16 = ovTiming → timerDone (oWord o.val v.mem) (ovRec o.val v.mem).time true o.val (txOf v) = true →
        commits (.overlapTimeExpiry dt (o, u)) (settle settleFuel (txFreeOverlap o.val (txOf v))))
      ∧ ((bits (oWord o.val v.mem) 0 16 ≠ ovTiming ∨ (ovRec o.val v.mem).ok = true ∧ timerDone (oWord o.val v.mem) (ovRec o.val v.mem).time true o.val (txOf v) = false) → exec (.overlapTimeExpiry dt (o, u)) s = .next v)
      ∧ (tyOf n.val v.mem = 7 → bits w 0 16 = 0x7B84 → zoneDue n.val v = true →
        commits (.zoneLapse dt (n, u)) (settle settleFuel (txElem n.val (setBits w 0 16 0x7887) (txOf v))))
      ∧ ((tyOf n.val v.mem ≠ 7 ∨ bits w 0 16 ≠ 0x7B84 ∨ zoneDue n.val v = false) → exec (.zoneLapse dt (n, u)) s = .next v)
      ∧ (bit (elemConf n.val v.mem) 4 = true → tyOf n.val v.mem ≠ 0 → tyOf n.val v.mem ≠ 7 → bits w 0 16 ≠ 0 → s.cfg.borderTimeout < bits w 56 8 →
        commits (.borderTimeout dt (n, u)) (settle settleFuel (txElem n.val (setBits w 0 16 0) (txOf v))))
      ∧ ((bit (elemConf n.val v.mem) 4 = false ∨ tyOf n.val v.mem = 0 ∨ tyOf n.val v.mem = 7 ∨ bits w 0 16 = 0 ∨ bits w 56 8 ≤ s.cfg.borderTimeout) → exec (.borderTimeout dt (n, u)) s = .next v))
    ∧ (∀ i ∈ ([.update dt u, .cancelTimeExpiry dt (r, u), .approachTimeExpiry dt (r, u), .overlapTimeExpiry dt (o, u), .zoneLapse dt (n, u), .borderTimeout dt (n, u)] : List Instr), s.lat.reqQ = [] →
      (latRuns b = false → exec i s = .next b)
      ∧ (latRuns b = true → latRuns v = true → engineReads u.hits v = true → u.disagree = true → v.tri.lattice.used = false → (i = .update dt u → (nextUpdate b).isSome = true) →
        Yields (exec i s) (fun t => WritesOnly [.tri, .regs, .evr, .lnk, .sent] v t ∧ t.tri.lattice.restart = some b.clk.up ∧ t.tri.lattice.used = true)))
    ∧ (∀ x, s.lat.waiting = some x → s.pwr.phase = .running → s.rings.length = 64 →
      (ringFree 51 s ≠ 0 → (∀ y ∈ s.lat.reqQ, y.busy = false) → Yields (exec (.resultWriteResume dt) s) (fun t => t.lat.waiting = none ∧ t.lat.rseq = (s.lat.rseq + 1) % 2 ^ 32
        ∧ t.lat.reqQ = s.lat.reqQ ∧ (ring 51 t).entries = (ring 51 s).entries ++ [packFields [(4, x.w0), (4, x.w1), (8, x.tArr), (8, now b), (4, x.rstate), (4, (s.lat.rseq + 1) % 2 ^ 32)]] ∧ RingsOnly [51] s t ∧ t.mem = s.mem))
      ∧ (ringFree 51 s = 0 → exec (.resultWriteResume dt) s = .next b)
      ∧ (s.lat.pauseSeen = false → cycleUs s < (b.clk.up - s.lat.pausedAt) / 100 → Yields (exec (.resultPause dt) s) (fun t =>
        WritesOnly [.lat, .regs, .evr] b t ∧ RegsOnly [0x0F006C] s t ∧ t.lat = { s.lat with pauseSeen := true } ∧ RecordTypes [0x86FE] s t)))

/-- A crossing of at least 200 ns on an input begins a new raw level with the stamp of the crossing and, with EDGE_LOG, one record in the edge ring; a shorter one, or one in a restart of the sequencer, makes none; where the halves of the sequencer disagree on it the pair restarts. A raw level that has held for the filter window becomes the filtered value, with its edge stamp; before the window it does not. An input in band for longer than the window, and a pin without a valid message for 20 us, are flagged and recorded, and their filter is emptied. A status message that fails its check is counted; one that passes shows the pin's raw level, readback, high from 12.0 V and low to 4.0 V, and measurements; a disagreement restarts the field sequencer; a second high readback 300 us after the off command cuts the group as STUCK_ON. -/
def Obligations.FieldInputEvents : Prop :=
  ∀ (dt : Nat) (n : Fin 32) (s : State), powered s = true → s.fio.pins.length = 32 → s.fio.groups.length = 4 → s.snu.g.length = 4 →
    let b := begin' dt s
    let p := pin n.val s
    (isInput n.val s = true → ∀ (mv age width : Nat) (dis : Bool), levelCode (pinMode n.val s) mv ≠ p.raw →
      (200 ≤ width → fieldRestarting s = false → dis = false → bit (pinWord n.val s) 6 = false → Yields (exec (.inputCrossing dt n (mv, dis) age width) s) (fun t =>
        WritesOnly [.fio] b t ∧ PinsOnly [n.val] s t ∧ t.fio.seqNo = (s.fio.seqNo + 1) % 2 ^ 32
        ∧ pin n.val t = { p with raw := levelCode (pinMode n.val s) mv, rawAt := unlin (nowLin b - age * 16384 / cycleUs s), rawUp := b.clk.up - age / 10, merged := false, edgeNo := p.edgeNo + 1 }))
      ∧ (200 ≤ width → fieldRestarting s = false → dis = false → bit (pinWord n.val s) 6 = true → ringFree s.cfg.edgeRing s ≠ 0 → s.cfg.edgeRing < 64 → s.rings.length = 64 →
        Yields (exec (.inputCrossing dt n (mv, dis) age width) s) (fun t => RingsOnly [s.cfg.edgeRing] s t
          ∧ ∃ e, (ring s.cfg.edgeRing t).entries = (ring s.cfg.edgeRing s).entries ++ [e] ∧ bits (fieldAt e 0 4) 0 5 = n.val
            ∧ bits (fieldAt e 0 4) 5 2 = (if levelRank p.raw < levelRank (levelCode (pinMode n.val s) mv) then 1 else 2) ∧ bits (fieldAt e 0 4) 7 1 = 0
            ∧ fieldAt e 4 4 = (s.fio.seqNo + 1) % 2 ^ 32))
      ∧ (width < 200 → exec (.inputCrossing dt n (mv, dis) age width) s = .next b)
      ∧ (200 ≤ width → fieldRestarting s = true → Yields (exec (.inputCrossing dt n (mv, dis) age width) s) (fun t => WritesOnly [.fio] b t ∧ PinsOnly [n.val] s t
          ∧ t.fio.seqNo = s.fio.seqNo ∧ (pin n.val t).raw = levelCode (pinMode n.val s) mv ∧ (pin n.val t).filtered = p.filtered))
      ∧ (200 ≤ width → fieldRestarting s = false → dis = true → s.tri.field.used = false → Yields (exec (.inputCrossing dt n (mv, dis) age width) s) (fun t =>
          WritesOnly [.fio, .tri, .regs, .evr] b t ∧ PinsOnly [n.val] s t ∧ t.fio.seqNo = s.fio.seqNo ∧ (pin n.val t).raw = levelCode (pinMode n.val s) mv
          ∧ (pin n.val t).edgeNo = p.edgeNo ∧ t.tri.field.restart = some b.clk.up)))
    ∧ (isInput n.val s = true → p.raw ≠ 2 → fieldRestarting s = false → p.couplerLost = false → unpoweredNow (n.val / 8) s = false →
      (filterUp n.val s ≤ b.clk.up - p.rawUp → (p.raw == 1) ≠ p.filtered → p.inBand = false → elemBind n.val s = false → bit (pinWord n.val s) 6 = false →
        Yields (exec (.confirmedChange dt n) s) (fun t => WritesOnly [.fio, .prg, .xch] b t ∧ PinsOnly [n.val] s t
          ∧ pin n.val t = { p with filtered := p.raw == 1, filling := false, tEdge := p.rawAt } ∧ t.fio.seqNo = (s.fio.seqNo + 1) % 2 ^ 32 ∧ t.prg.mode = s.prg.mode))
      ∧ (b.clk.up - p.rawUp < filterUp n.val s → exec (.confirmedChange dt n) s = .next b))
    ∧ (isInput n.val s = true → p.raw = 2 → p.inBand = false → p.posted = false → filterUp n.val s < b.clk.up - p.rawUp →
      Yields (exec (.inBand dt n) s) (fun t => WritesOnly [.fio, .evr, .regs] b t ∧ PinsOnly [n.val] s t ∧ RegsOnly [0x0F006C] s t
        ∧ pin n.val t = { p with filtered := false, filling := true, rawUp := b.clk.up, inBand := true } ∧ pinLive n.val t = 2 ^ 33
        ∧ Records [recNow 0x4D01 [(1, n.val), (2, 6 + 256), (1, 0xFF), (4, 0)] b] s t))
    ∧ (pinMode n.val s ≠ 0 → p.couplerLost = false → fieldRestarting s = false → p.posted = false → usUp 20 ≤ b.clk.up - p.msgAt →
      Yields (exec (.couplerLost dt n) s) (fun t => WritesOnly [.fio, .evr, .regs] b t ∧ PinsOnly [n.val] s t ∧ RegsOnly [0x0F006C] s t
        ∧ (pin n.val t).couplerLost = true ∧ (pin n.val t).cmd = p.cmd ∧ (isInput n.val s = true → pinLive n.val t = 2 ^ 33)
        ∧ Records [recNow 0x4D01 [(1, n.val), (2, 7 + 256), (1, 0xFF), (4, 0)] b] s t))
    ∧ (∀ m : StatusMsg, fieldRestarting s = false →
      (m.disagree = false → m.good = false → Yields (exec (.fieldStatus dt n m) s) (fun t => WritesOnly [.regs] b t ∧ RegsOnly [0x0D0518] s t
        ∧ rv 0x0D0518 t = sat 0xFFFFFFFF (rv 0x0D0518 s + 1)))
      ∧ (m.disagree = true → s.tri.field.used = false → Yields (exec (.fieldStatus dt n m) s) (fun t => WritesOnly [.tri, .regs, .evr] b t
        ∧ t.tri.field.restart = some b.clk.up ∧ t.tri.field.used = true ∧ t.tri.hold.isSome = true ∧ t.tri.stallFrom.isSome = true))
      ∧ (m.disagree = false → m.good = true → isInput n.val s = true → p.cmd = false → p.couplerLost = false →
        Yields (exec (.fieldStatus dt n m) s) (fun t => WritesOnly [.fio, .regs] b t ∧ PinsOnly [n.val] s t
          ∧ (pin n.val t).raw = levelCode (pinMode n.val s) (100 * m.vDv) ∧ (pin n.val t).msgAt = b.clk.up ∧ (pin n.val t).rb = readback p m.vDv ∧ (pin n.val t).iMa = m.iMa ∧ (pin n.val t).vDv = m.vDv
          ∧ (pin n.val t).filtered = p.filtered ∧ (levelCode (pinMode n.val s) (100 * m.vDv) = p.raw → (pin n.val t).rawUp = p.rawUp) ∧ (levelCode (pinMode n.val s) (100 * m.vDv) ≠ p.raw → (pin n.val t).rawUp = b.clk.up)))
      ∧ (m.disagree = false → m.good = true → isOutput n.val s = true → p.cmd = false → p.couplerLost = false → p.stuckOn = false → 120 ≤ m.vDv → p.rb = true → p.rbHigh = 1 →
        p.testing = 0 → p.testAt = 0 → testShadow (n.val / 8) b = false → usUp 300 ≤ b.clk.up - p.cmdAt →
        Yields (exec (.fieldStatus dt n m) s) (fun t => (pin n.val t).stuckOn = true ∧ groupCut (n.val / 8) t = true ∧ Recorded 0x4D01 s t
          ∧ (∀ k ∈ groupPins (n.val / 8), (pin k t).cmd = false) ∧ SGroupsOnly [n.val / 8] s t ∧ FGroupsOnly [n.val / 8] s t ∧ t.prg = b.prg)))

/-- The lowest waiting pin is commanded on 10 us after the previous one, if it may still be driven, and otherwise waits no more; in a duplex restart nothing is switched. In its slot a pin that is on gets an off-pulse, one that is off a light test, where configured. A pulse passes whose readback is low from 280 us on at the latest, a light test that is high within 100 us. A pulse that passes ends the test; one that fails without a partner is STUCK_ON and cuts the group; a light test that fails is a DRIVE_FAIL. The current limit for more than 5 ms, or a thermal shutdown, switches its pin off and latches it; so does, for the pin with the highest current, the sixth 1 ms average in a row above 4.0 A of a group. A readback low for more than 300 us is a DRIVE_FAIL. A good refresh frame restarts the field-side timer, a bad one is counted; the timer's end takes the pin to its safe state and latches it. UNLATCH counts for the pins whose point commands off. -/
def Obligations.FieldOutputEvents : Prop :=
  ∀ (dt : Nat) (n : Fin 32) (s : State), powered s = true → s.fio.pins.length = 32 → s.fio.groups.length = 4 → s.snu.g.length = 4 →
    let b := begin' dt s
    let p := pin n.val s
    ((∀ m, m < n.val → (pin m s).waiting = false) → p.waiting = true → anyRestart s = false → usUp 10 ≤ b.clk.up - s.fio.staggerAt →
      (mayDrive n.val b = true → Yields (exec (.staggeredSwitchOn dt n) s) (fun t => WritesOnly [.sent, .fio] b t ∧ PinsOnly [n.val] s t
        ∧ (pin n.val t).cmd = true ∧ (pin n.val t).waiting = false ∧ (pin n.val t).cmdAt = b.clk.up ∧ t.fio.staggerAt = b.clk.up ∧ t.sent = b.sent ++ [.pin n.val true p.unlatch 0]))
      ∧ (mayDrive n.val b = false → Yields (exec (.staggeredSwitchOn dt n) s) (fun t => WritesOnly [.fio] b t ∧ PinsOnly [n.val] s t
        ∧ pin n.val t = { p with waiting := false })))
    ∧ (anyRestart s = true → exec (.staggeredSwitchOn dt n) s = .next b)
    ∧ (isOutput n.val s = true → testsAllowed (n.val / 8) s = true → testSlotNow b = n.val → usUp (testPos b % 3125) ≤ b.clk.up - p.cmdAt → p.testing = 0 → p.testAt = 0 → fieldRestarting s = false →
      (p.cmd = true → bit (pinWord n.val s) 5 = false → Yields (exec (.testSlot dt n) s) (fun t => WritesOnly [.sent, .fio] b t ∧ PinsOnly [n.val] s t
        ∧ (pin n.val t).testing = 1 ∧ (pin n.val t).testAt = b.clk.up ∧ (pin n.val t).cmd = true ∧ t.sent = b.sent ++ [.pin n.val true p.unlatch 1]))
      ∧ (p.cmd = false → bit (pinWord n.val s) 3 = true → Yields (exec (.testSlot dt n) s) (fun t => WritesOnly [.sent, .fio] b t ∧ PinsOnly [n.val] s t
        ∧ (pin n.val t).testing = 2 ∧ (pin n.val t).cmd = false ∧ t.sent = b.sent ++ [.pin n.val false p.unlatch 2]))
      ∧ (p.cmd = true → bit (pinWord n.val s) 5 = true → exec (.testSlot dt n) s = .next b))
    ∧ (p.testing = 1 → (∀ u, u ≤ 280 → Yields (exec (.offPulseEnd dt n { lowUs := some u, rises := [], falls := [] }) s) (fun t => WritesOnly [.fio] b t ∧ PinsOnly [n.val] s t
          ∧ pin n.val t = { p with testing := 0, lastTest := 1, rbLowFrom := none }))
        ∧ (∀ x : Option Nat, (∀ u, x = some u → 280 < u) → p.stuckOn = false → Yields (exec (.offPulseEnd dt n { lowUs := x, rises := [], falls := [] }) s) (fun t =>
          (pin n.val t).stuckOn = true ∧ (pin n.val t).lastTest = 3 ∧ (pin n.val t).cmd = false ∧ groupCut (n.val / 8) t = true ∧ Recorded 0x4D01 s t
          ∧ SGroupsOnly [n.val / 8] s t ∧ t.prg = b.prg ∧ (∀ k ∈ groupPins (n.val / 8), (pin k t).cmd = false))))
    ∧ (p.testing = 2 → p.driveFail = false → (∀ u, u ≤ 100 → Yields (exec (.lightTestEnd dt n (some u) []) s) (fun t => WritesOnly [.fio] b t ∧ PinsOnly [n.val] s t
          ∧ pin n.val t = { p with testing := 0, lastTest := 2 }))
        ∧ (∀ x : Option Nat, (∀ u, x = some u → 100 < u) → Yields (exec (.lightTestEnd dt n x []) s) (fun t => WritesOnly [.fio, .regs, .sta, .evr] b t ∧ PinsOnly [n.val] s t
          ∧ pin n.val t = { p with testing := 0, lastTest := 3, driveFail := true } ∧ rv 0x0D0504 t = sat 0xFFFFFFFF (rv 0x0D0504 s + 1)
          ∧ Records [recNow 0x4D01 [(1, n.val), (2, 5 + 256), (1, 0xFF), (4, 0)] b] s t)))
    ∧ (∀ w, p.watchTo = some w → (w ≤ b.clk.up → Yields (exec (.crossWatchEnd dt n) s) (fun t => WritesOnly [.fio] b t ∧ PinsOnly [n.val] s t ∧ pin n.val t = { p with watchTo := none }))
        ∧ (b.clk.up < w → exec (.crossWatchEnd dt n) s = .next b))
    ∧ (isOutput n.val s = true → p.cmd = true →
      (∀ thermal, (thermal = true ∨ ∃ u, p.limitFrom = some u ∧ usUp 5000 < b.clk.up - u) → Yields (exec (.overload dt n thermal) s) (fun t => WritesOnly [.sent, .fio, .regs, .sta, .evr] b t ∧ PinsOnly [n.val] s t ∧ RegsOnly [0x0D0508, 0x0F006C] s t
        ∧ (pin n.val t).cmd = false ∧ (pin n.val t).latched = true ∧ (pin n.val t).overload = true ∧ t.sent = b.sent ++ [.pin n.val false p.unlatch 0]
        ∧ rv 0x0D0508 t = sat 0xFFFFFFFF (rv 0x0D0508 s + 1) ∧ Records [recNow 0x4D01 [(1, n.val), (2, 2 + 256), (1, 0xFF), (4, 0)] b] s t))
      ∧ ((∀ u, p.limitFrom = some u → b.clk.up - u ≤ usUp 5000) → exec (.overload dt n false) s = .next b)
      ∧ (∀ (g : Fin 4) (ma : Nat), g.val = n.val / 8 → (∀ m ∈ groupPins g.val, m ≠ n.val → isOutput m s = true → (pin m s).cmd = true → (pin m s).iMa < p.iMa) →
        (4000 < ma → 5 ≤ (fgroup g.val s).overMs → Yields (exec (.groupOverload dt g ma) s) (fun t => PinsOnly [n.val] s t ∧ FGroupsOnly [g.val] s t
          ∧ (pin n.val t).cmd = false ∧ (pin n.val t).latched = true ∧ t.sent = b.sent ++ [.pin n.val false p.unlatch 0]))
        ∧ (4000 < ma → (fgroup g.val s).overMs < 5 → Yields (exec (.groupOverload dt g ma) s) (fun t => WritesOnly [.fio] b t ∧ PinsOnly [] s t ∧ FGroupsOnly [g.val] s t
          ∧ fgroup g.val t = { fgroup g.val s with overMs := (fgroup g.val s).overMs + 1 }))
        ∧ (ma ≤ 4000 → Yields (exec (.groupOverload dt g ma) s) (fun t => WritesOnly [.fio] b t ∧ PinsOnly [] s t ∧ fgroup g.val t = { fgroup g.val s with overMs := 0 })))
      ∧ (∀ u, p.rbLowFrom = some u → unpoweredNow (n.val / 8) s = false → p.limit = false → p.testing = 0 → p.driveFail = false → testShadow (n.val / 8) b = false → usUp 300 < b.clk.up - u →
        Yields (exec (.driveFail dt n) s) (fun t => WritesOnly [.fio, .sta, .regs, .evr] b t ∧ PinsOnly [n.val] s t ∧ pin n.val t = { p with driveFail := true }
          ∧ Records [recNow 0x4D01 [(1, n.val), (2, 5 + 256), (1, 0xFF), (4, 0)] b] s t)))
    ∧ (pinMode n.val s ≠ 0 → position b % 500 = 0 → fieldRestarting s = false → p.couplerLost = false →
      (p.timedOut = false → Yields (exec (.refreshFrame dt n true) s) (fun t => WritesOnly [.sent, .fio] b t ∧ PinsOnly [n.val] s t
          ∧ pin n.val t = { p with refreshAt := b.clk.up, unlatch := false, toggle := !p.toggle } ∧ t.sent = b.sent ++ [.pin n.val p.cmd p.unlatch 0])
        ∧ Yields (exec (.refreshFrame dt n false) s) (fun t => WritesOnly [.sent, .fio, .regs] b t ∧ (pin n.val t).refreshAt = p.refreshAt
          ∧ rv 0x0D0518 t = sat 0xFFFFFFFF (rv 0x0D0518 s + 1)))
      ∧ (p.timedOut = true → p.unlatch = true → Yields (exec (.refreshFrame dt n true) s) (fun t => (pin n.val t).timedOut = false
          ∧ Records [recNow 0x4D01 [(1, n.val), (2, 8), (1, 0xFF), (4, 0)] b] s t)))
    ∧ (isOutput n.val s = true → p.timedOut = false →
      (usUp (1000 * refreshMs n.val s) ≤ b.clk.up - p.refreshAt → Yields (exec (.timedOut dt n) s) (fun t => WritesOnly [.fio, .evr, .regs] b t ∧ PinsOnly [n.val] s t
        ∧ (pin n.val t).timedOut = true ∧ (pin n.val t).latched = true ∧ (pin n.val t).cmd = (pinMode n.val s == 4 && bit (pinWord n.val s) 4)
        ∧ Records [recNow 0x4D01 [(1, n.val), (2, 8 + 256), (1, 0xFF), (4, 0)] b] s t))
      ∧ (b.clk.up - p.refreshAt < usUp (1000 * refreshMs n.val s) → exec (.timedOut dt n) s = .next b))
    ∧ (∀ mask : Half, lanesRun s = true → bit s.cfg.progBlocks 0xD = true → Yields (exec (.unlatch dt mask) s) (fun t => WritesOnly [.fio] (seqVoted b) t ∧ t.fio.pins = s.fio.pins
        ∧ (∀ m, m < 32 → bit t.fio.unlatch m = (bit s.fio.unlatch m || (bit mask.toNat m && isOutput m s && appliedValue (pinPoint m s) s != 1)))))

/-- Each 100 us window of a used group shows its voltage and the lowest one. In the normal band it changes nothing else. The 21st window in a row below 16.0 V leads to UNPOWERED, recorded: every pin of the group is commanded off, SNUFF_K is de-energised and the closing sequence starts anew. The window that completes 10 ms at or above 19.5 V ends it, recorded, in the band of its voltage. No other group changes. -/
def Obligations.FieldSupplyEvents : Prop :=
  ∀ (dt : Nat) (g : Fin 4) (mv : Nat) (s : State), monitored g.val s = true → s.fio.pins.length = 32 → s.fio.groups.length = 4 → s.snu.g.length = 4 → mv ≤ 0xFFFF →
    let b := begin' dt s
    ((fgroup g.val s).band = .normal → 19200 ≤ mv → mv ≤ 30200 → Yields (exec (.supplyWindow dt g mv) s) (fun t =>
        WritesOnly [.fio, .regs] b t ∧ RegsOnly [0x0D0010 + 4 * g.val] s t ∧ t.fio.pins = s.fio.pins ∧ FGroupsOnly [g.val] s t
        ∧ (fgroup g.val t).band = .normal ∧ (fgroup g.val t).low = 0 ∧ rf (0x0D0010 + 4 * g.val) 0 16 t = mv
        ∧ rf (0x0D0010 + 4 * g.val) 16 16 t = min mv (rf (0x0D0010 + 4 * g.val) 16 16 s)))
    ∧ ((fgroup g.val s).band = .normal → 16000 ≤ mv → mv < 19200 → Yields (exec (.supplyWindow dt g mv) s) (fun t =>
        (fgroup g.val t).band = .sag ∧ t.fio.pins = s.fio.pins ∧ t.snu = s.snu ∧ FGroupsOnly [g.val] s t
        ∧ Records [recNow 0x4D02 [(1, g.val), (2, 1), (1, 0xFF), (4, 0)] b] s t))
    ∧ (((fgroup g.val s).band = .normal ∨ (fgroup g.val s).band = .sag) → mv < 16000 → 20 ≤ (fgroup g.val s).low → (∀ n ∈ groupPins g.val, (pin n s).posted = false) →
      Yields (exec (.unpowered dt g mv) s) (fun t => (fgroup g.val t).band = .unpowered ∧ (∀ n ∈ groupPins g.val, (pin n t).cmd = false ∧ (pin n t).waiting = false)
        ∧ (∀ n, n ∉ groupPins g.val → pin n t = pin n s) ∧ (sgroup g.val t).kOn = false ∧ (sgroup g.val t).phase = .open' ∧ FGroupsOnly [g.val] s t ∧ SGroupsOnly [g.val] s t
        ∧ (∀ n ∈ groupPins g.val, isInput n s = true → pinLive n t = 2 ^ 33) ∧ Records [recNow 0x4D02 [(1, g.val), (2, 3), (1, 0xFF), (4, 0)] b] s t ∧ t.prg = b.prg))
    ∧ ((fgroup g.val s).band = .unpowered → 19500 ≤ mv → 99 ≤ (fgroup g.val s).good → Yields (exec (.unpoweredExit dt g mv) s) (fun t =>
        (fgroup g.val t).band = (if 30200 < mv then .surge else .normal) ∧ (sgroup g.val t).unpowAt = none ∧ (∀ n, (pin n t).cmd = (pin n s).cmd)
        ∧ FGroupsOnly [g.val] s t ∧ SGroupsOnly [g.val] s t ∧ Records [recNow 0x4D02 [(1, g.val), (2, if 30200 < mv then 2 else 0), (1, 0xFF), (4, 0)] b] s t))
    ∧ ((fgroup g.val s).band = .unpowered → (mv < 19500 ∨ (fgroup g.val s).good < 99) → exec (.unpoweredExit dt g mv) s = .next b)
    ∧ ((16000 ≤ mv ∨ (fgroup g.val s).low < 20) → exec (.unpowered dt g mv) s = .next b)

/-- An enable transaction that the lanes agree on gives each fed group one edge: within 8 to 12 us it counts as regular, earlier or after 250 us it opens both paths; away from a multiple of 10 us of the position there is none. 250 us without an edge open both paths of a group that feeds or is closed. Path a closes after 16 regular intervals if its switch node is at 16.0 V or more; otherwise the group is cut. The third KAUX sample against the command in a row, a pick-up with voltage behind the open path, and a failed path test halt the module; a path a that does not close again within 100 us cuts its group. Test and drop commands are taken, the drop only while every output of the group commands off. -/
def Obligations.CutOffPathEffects : Prop :=
  ∀ (dt : Nat) (g : Fin 4) (s : State), s.fio.groups.length = 4 → s.snu.g.length = 4 → s.fio.pins.length = 32 →
    let b := begin' dt s
    let x := sgroup g.val s
    (∀ y : LaneTx, inNormal s = true → triadVotes s = true → lanesRun s = true → position b % 10 = 0 → 2 ≤ (litLanes s).length → feedEn s = true → s.prg.releaseHeld = false →
      (∀ i : Fin 4, i ≠ g → feedable i.val s = false) → feedable g.val s = true →
      (usUp 8 ≤ b.clk.up - x.edgeAt → b.clk.up - x.edgeAt < usUp 250 → Yields (exec (.snufferFeed dt (allSee y)) s) (fun t => WritesOnly [.tri, .snu] b t ∧ SGroupsOnly [g.val] s t
        ∧ t.tri = (seqVoted b).tri
        ∧ sgroup g.val t = { x with edgeAt := b.clk.up, toggle := !x.toggle, regular := if b.clk.up - x.edgeAt ≤ usUp 12 then x.regular + 1 else 0 }))
      ∧ ((b.clk.up - x.edgeAt < usUp 8 ∨ usUp 250 ≤ b.clk.up - x.edgeAt) → Yields (exec (.snufferFeed dt (allSee y)) s) (fun t => SGroupsOnly [g.val] s t
        ∧ (sgroup g.val t).aClosed = false ∧ (sgroup g.val t).kOn = false ∧ (sgroup g.val t).phase = .open' ∧ RecordTypes [0x4E01] s t)))
    ∧ (position b % 10 ≠ 0 → ∀ y, exec (.snufferFeed dt y) s = .next b)
    ∧ ((x.aClosed = true ∨ x.phase = .feeding) → usUp 250 ≤ b.clk.up - x.edgeAt → Yields (exec (.pathATrip dt g) s) (fun t => WritesOnly [.snu, .regs, .evr] b t ∧ SGroupsOnly [g.val] s t
        ∧ (sgroup g.val t).aClosed = false ∧ (sgroup g.val t).kOn = false ∧ (sgroup g.val t).phase = .open'))
    ∧ (b.clk.up - x.edgeAt < usUp 250 → exec (.pathATrip dt g) s = .next b)
    ∧ (powered s = true → x.phase = .feeding →
      (∀ mv, 16 ≤ x.regular → 16000 ≤ mv → Yields (exec (.pathAClose dt g mv) s) (fun t => WritesOnly [.snu] b t ∧ SGroupsOnly [g.val] s t
        ∧ sgroup g.val t = { x with phase := .closed, aClosed := true, kdrop := false, testFrom := nowLin b, testDue := false, testedA := false }))
      ∧ (∀ mv, 16 ≤ x.regular → mv < 16000 → Yields (exec (.pathAClose dt g mv) s) (fun t => SGroupsOnly [g.val] s t ∧ FGroupsOnly [g.val] s t
        ∧ groupCut g.val t = true ∧ (sgroup g.val t).aClosed = false ∧ (sgroup g.val t).kOn = false ∧ (∀ n ∈ groupPins g.val, (pin n t).cmd = false) ∧ Recorded 0x4004 s t))
      ∧ (∀ mv, x.regular < 16 → exec (.pathAClose dt g mv) s = .next b))
    ∧ (∀ (high : Bool) (mv : Nat), powered s = true → kauxEvaluated g.val b = true →
      (kauxWrong x high b = true → x.mismatch < 2 → x.phase ≠ .picking → Yields (exec (.kauxSample dt g high mv) s) (fun t => WritesOnly [.snu] b t ∧ SGroupsOnly [g.val] s t
        ∧ sgroup g.val t = { x with auxOpen := high, mismatch := x.mismatch + 1 }))
      ∧ (mayHalt s → kauxWrong x high b = true → 2 ≤ x.mismatch → Yields (exec (.kauxSample dt g high mv) s) Halted)
      ∧ (mayHalt s → x.phase = .picking → x.kOn = true → x.mismatch = 0 → kauxWrong x high b = false → high = x.auxOpen → 5000 ≤ mv → Yields (exec (.kauxSample dt g high mv) s) Halted)
      ∧ (x.phase = .picking → x.kOn = true → high = false → mv < 5000 → Yields (exec (.kauxSample dt g high mv) s) (fun t => WritesOnly [.snu] b t ∧ SGroupsOnly [g.val] s t
        ∧ (sgroup g.val t).phase = .feeding ∧ (sgroup g.val t).edgeAt = b.clk.up ∧ (sgroup g.val t).regular = 0 ∧ (sgroup g.val t).aClosed = x.aClosed)))
    ∧ (∀ r : PathTestIn, inNormal s = true → x.phase = .closed → x.testDue = true → 1000 ≤ testPos b % 3125 →
      (∀ u, testSlotNow b = 8 * g.val + 5 → r.decayUs = some u → u ≤ 150 → r.kauxLow = true → Yields (exec (.pathTest dt g true r) s) (fun t => WritesOnly [.snu, .regs] b t ∧ SGroupsOnly [g.val] s t
        ∧ (sgroup g.val t).testDue = false ∧ (sgroup g.val t).testFrom = nowLin b ∧ (sgroup g.val t).aClosed = x.aClosed ∧ rf (0x0E0010 + 4 * g.val) 24 8 t = u
        ∧ rv 0x0E0038 t = sat 0xFFFFFFFF (rv 0x0E0038 s + 1)))
      ∧ (∀ u v, testSlotNow b = 8 * g.val + 2 → x.testedA = false → r.decayUs = some u → u ≤ 150 → r.recloseUs = some v → v ≤ 100 → Yields (exec (.pathTest dt g false r) s) (fun t => WritesOnly [.snu, .regs] b t ∧ SGroupsOnly [g.val] s t
        ∧ (sgroup g.val t).testDue = true ∧ (sgroup g.val t).testedA = true ∧ rf (0x0E0010 + 4 * g.val) 16 8 t = u))
      ∧ (∀ u, testSlotNow b = 8 * g.val + 2 → x.testedA = false → r.decayUs = some u → u ≤ 150 → (∀ v, r.recloseUs = some v → 100 < v) → Yields (exec (.pathTest dt g false r) s) (fun t =>
        SGroupsOnly [g.val] s t ∧ FGroupsOnly [g.val] s t ∧ groupCut g.val t = true ∧ (sgroup g.val t).aClosed = false ∧ (sgroup g.val t).kOn = false
        ∧ (∀ n ∈ groupPins g.val, (pin n t).cmd = false) ∧ t.prg.mode = s.prg.mode ∧ Recorded 0x4004 s t))
      ∧ (mayHalt s → testSlotNow b = 8 * g.val + 2 → x.testedA = false → r.decayUs = none → Yields (exec (.pathTest dt g false r) s) Halted)
      ∧ (mayHalt s → testSlotNow b = 8 * g.val + 5 → (r.decayUs = none ∨ r.kauxLow = false) → Yields (exec (.pathTest dt g true r) s) Halted))
    ∧ (lanesRun s = true → bit s.cfg.progBlocks 0xE = true → exec (.testNow dt) s = .next { seqVoted b with snu.testNow := true })
    ∧ (lanesRun s = true → bit s.cfg.progBlocks 0xE = true →
      ((∀ n ∈ groupPins g.val, isOutput n s = true → appliedValue (pinPoint n s) s ≠ 1) → Yields (exec (.kdrop dt g) s) (fun t => WritesOnly [.snu, .regs, .evr] (seqVoted b) t ∧ SGroupsOnly [g.val] s t
        ∧ (sgroup g.val t).kdrop = true ∧ (sgroup g.val t).kOn = false ∧ (sgroup g.val t).phase = .open' ∧ RecordTypes [0x4E01] s t))
      ∧ (∀ n ∈ groupPins g.val, isOutput n s = true → appliedValue (pinPoint n s) s = 1 → Yields (exec (.kdrop dt g) s) (fun t => WritesOnly [.regs, .evr] (seqVoted b) t
        ∧ Records [nvNow 0xE 0x000D g.val 0 b] s t)))

/-- The third PRS sample from IDLE presses the button; the third REL sample after a press of 100 ms to 5 s is a valid edge, counted and recorded: barred, it is refused and sets BARRED; in HALTED it leads to FREE, cause RECOVERY; in FREE of another cause it is stored; in NORMAL with a cut group it clears the cuts. A shorter press is counted and has no other effect. Both contacts closed, or neither for more than 50 ms, make the button implausible, 5 s of press held, each with its record. REL for 1 s ends ARMING and IMPLAUSIBLE. -/
def Obligations.RestartButtonEffects : Prop :=
  ∀ (dt : Nat) (s : State), powered s = true →
    let b := begin' dt s
    let edge := s.snu.btn = .pressed ∧ s.snu.rel = 2 ∧ 100 ≤ s.snu.relPress ∧ s.snu.relPress ≤ 5000
    (s.snu.btn = .idle → s.snu.prs = 2 → Yields (exec (.buttonSample dt true false) s) (fun t => WritesOnly [.snu] b t ∧ t.snu.btn = .pressed ∧ t.snu.prs = 3
        ∧ t.snu.edgeStored = s.snu.edgeStored ∧ t.snu.g = s.snu.g))
    ∧ (edge → edgesBarred s = true → Yields (exec (.buttonSample dt false true) s) (fun t => WritesOnly [.snu, .regs, .evr] b t ∧ RegsOnly [0x0E0024, 0x0F006C] s t
        ∧ t.snu.barred = true ∧ t.snu.edgeStored = s.snu.edgeStored ∧ t.snu.g = s.snu.g ∧ t.snu.btn = .idle
        ∧ rv 0x0E0024 t = sat 0xFFFFFFFF (rv 0x0E0024 s + 1) ∧ RecordTypes [0x4E02] s t))
    ∧ (edge → edgesBarred s = false → s.pwr.phase = .running →
      (s.prg.mode = .halted → Yields (exec (.buttonSample dt false true) s) (fun t => t.prg.mode = .free ∧ t.prg.cause = .recovery))
      ∧ (s.prg.mode = .free → s.prg.cause ≠ .recovery → s.cfg.split = false → Yields (exec (.buttonSample dt false true) s) (fun t => WritesOnly [.snu, .regs, .evr] b t
          ∧ t.snu.edgeStored = true ∧ t.snu.g = s.snu.g ∧ RecordTypes [0x4E02] s t))
      ∧ (s.prg.mode = .normal → s.cfg.split = false → s.snu.g.length = 4 → s.fio.groups.length = 4 → (∃ g, g < 4 ∧ (sgroup g s).cut = true) → Yields (exec (.buttonSample dt false true) s) (fun t =>
          (∀ g, (sgroup g t).cut = false ∧ (sgroup g t).aClosed = (sgroup g s).aClosed) ∧ t.prg = b.prg ∧ t.snu.edgeStored = s.snu.edgeStored)))
    ∧ (s.snu.btn = .pressed → s.snu.rel = 2 → s.snu.relPress < 100 → Yields (exec (.buttonSample dt false true) s) (fun t => WritesOnly [.snu, .regs] b t
        ∧ RegsOnly [0x0E002C] s t ∧ rv 0x0E002C t = sat 0xFFFFFFFF (rv 0x0E002C s + 1) ∧ t.snu.btn = .idle ∧ t.snu.edgeStored = s.snu.edgeStored))
    ∧ ((s.snu.btn = .idle ∨ s.snu.btn = .pressed ∨ s.snu.btn = .held) → Yields (exec (.buttonSample dt true true) s) (fun t => WritesOnly [.snu, .regs, .evr] b t
        ∧ t.snu.btn = .implausible ∧ rv 0x0E0030 t = sat 0xFFFFFFFF (rv 0x0E0030 s + 1) ∧ RecordTypes [0x4E03] s t ∧ t.snu.edgeStored = s.snu.edgeStored))
    ∧ (s.snu.btn = .pressed → s.snu.rel = 0 → 5000 ≤ s.snu.pressMs → Yields (exec (.buttonHeld dt) s) (fun t => WritesOnly [.snu, .regs, .evr] b t
        ∧ t.snu = { s.snu with btn := .held } ∧ rv 0x0E0028 t = sat 0xFFFFFFFF (rv 0x0E0028 s + 1) ∧ RecordTypes [0x4E03] s t))
    ∧ (s.snu.btn = .pressed → 50 < s.snu.transit → Yields (exec (.buttonTransitTimeout dt) s) (fun t => WritesOnly [.snu, .regs, .evr] b t
        ∧ t.snu = { s.snu with btn := .implausible } ∧ RecordTypes [0x4E03] s t))
    ∧ (s.snu.transit ≤ 50 → exec (.buttonTransitTimeout dt) s = .next b)
    ∧ (1000 ≤ s.snu.rel → (s.snu.btn = .arming → exec (.buttonReleased1s dt) s = .next { b with snu.btn := .idle })
        ∧ (s.snu.btn = .implausible → Yields (exec (.buttonReleased1s dt) s) (fun t => WritesOnly [.snu, .regs, .evr] b t ∧ t.snu = { s.snu with btn := .idle } ∧ RecordTypes [0x4E03] s t)))
    ∧ (s.snu.rel < 1000 → exec (.buttonReleased1s dt) s = .next b)

/-- The oldest record at the ingest port merges into an open record of the same type and payload less than 1 s older, whose repeat count rises, or takes the next sequence and becomes the open record, the one before it closing into staging. Within 1,024 of the bound a RESERVE slot first moves the bound on. At a boundary 1 s or more after its stamp the open record closes. A page whose oldest record has waited 100 ms is committed: its records are then in their partition and no longer staged. A mount that fails, a record staged longer than 1 s and a failed self-check bring the recorder DOWN, with a FAILURE slot and its record; a good mount runs it. -/
def Obligations.RecorderIngestAndCommit : Prop :=
  ∀ (dt : Nat) (s : State), powered s = true →
    let b := begin' dt s
    let quietly := s.evr.lossNoSeq + s.evr.lossSeq = 0 ∧ s.evr.st ≠ .frozen
    let far := 1024 < (s.evr.bound + 2 ^ 32 - s.evr.seqNext) % 2 ^ 32
    let n := s.evr.seqNext
    let fresh := fun (x : Rec) => ({ t := x.t, ty := x.ty, seq := n, payload := x.payload } : SRec)
    (∀ x l, quietly → s.evr.queue = x :: l →
      (s.evr.open' = none → far → stagingUsed s + 24 + x.payload.length ≤ 0x800000 → Yields (exec (.recordIngest dt) s) (fun t => WritesOnly [.evr, .regs] b t ∧ RegsOnly [0x0F0060] s t
        ∧ t.evr = { s.evr with queue := l, open' := some (fresh x), seqNext := (n + 1) % 2 ^ 32 } ∧ rv 0x0F0060 t = sat 0xFFFFFFFF (rv 0x0F0060 s + 1)))
      ∧ (∀ o, s.evr.open' = some o → merges x o s = true → o.rep + 1 < 65535 → Yields (exec (.recordIngest dt) s) (fun t => WritesOnly [.evr, .regs] b t ∧ RegsOnly [0x0F0064] s t
        ∧ t.evr = { s.evr with queue := l, open' := some { o with rep := o.rep + 1 } } ∧ rv 0x0F0064 t = sat 0xFFFFFFFF (rv 0x0F0064 s + 1)))
      ∧ (∀ o, s.evr.open' = some o → merges x o s = false → far → stagingUsed s + recLen o ≤ 0x800000 → Yields (exec (.recordIngest dt) s) (fun t => WritesOnly [.evr, .regs] b t
        ∧ t.evr = { s.evr with queue := l, open' := some (fresh x), seqNext := (n + 1) % 2 ^ 32, staging := s.evr.staging ++ [{ o with closedAt := nowLin b }] }))
      ∧ (s.evr.open' = none → ¬far → s.cand.framErr = false → s.cand.framProt = false → n ≠ (s.evr.bound + 2 ^ 20) % 2 ^ 32 → stagingUsed s + 24 + x.payload.length ≤ 0x800000 →
        Yields (exec (.recordIngest dt) s) (fun t => WritesOnly [.evr, .regs, .cand] b t ∧ t.evr.bound = (s.evr.bound + 2 ^ 20) % 2 ^ 32 ∧ t.evr.open' = some (fresh x)
          ∧ ∃ y, t.cand.light.getLast? = some y ∧ y.kind = 5 ∧ y.bound = t.evr.bound ∧ y.lastSeq = s.evr.seqCommit)))
    ∧ (b.clk.pos ≠ 0 → exec (.openRecordClose dt) s = .next b)
    ∧ (∀ o, s.evr.open' = some o → s.evr.st ≠ .frozen → b.clk.pos = 0 →
      (lin o.t + secLin s 1 ≤ nowLin b → Yields (exec (.openRecordClose dt) s) (fun t => WritesOnly [.evr, .regs] b t
        ∧ t.evr = { s.evr with open' := none, staging := s.evr.staging ++ [{ o with closedAt := nowLin b }] }))
      ∧ (nowLin b < lin o.t + secLin s 1 → exec (.openRecordClose dt) s = .next b))
    ∧ (∀ x l, quietly → s.evr.staging = x :: l → recLen x ≤ 4096 → s.evr.st = .running → usLin s 100000 ≤ nowLin b - x.closedAt → (part (isDiag x.ty) s).usable ≠ 0 →
      Yields (exec (.pageCommit dt { fails := 0 }) s) (fun t => WritesOnly [.evr, .regs] b t ∧ RegsOnly [0x0F0068] s t
        ∧ part (!(isDiag x.ty)) t = part (!(isDiag x.ty)) s ∧ x ∈ committed (isDiag x.ty) t
        ∧ (∀ r ∈ (pageTake (isDiag x.ty) 4096 s.evr.staging).1, r ∈ committed (isDiag x.ty) t ∧ r ∉ t.evr.staging)
        ∧ (∀ r ∈ s.evr.staging, isDiag r.ty ≠ isDiag x.ty → (∀ y ∈ (pageTake (isDiag x.ty) 4096 s.evr.staging).1, y.seq ≠ r.seq) → r ∈ t.evr.staging)
        ∧ t.evr.queue = s.evr.queue ∧ t.evr.open' = s.evr.open'))
    ∧ (s.evr.st = .mounting → Yields (exec (.mount dt true) s) (fun t => WritesOnly [.evr] b t ∧ t.evr.st = .running ∧ t.evr.j = s.evr.j ∧ t.evr.d = s.evr.d ∧ t.evr.queue = s.evr.queue))
    ∧ (let downs := fun (c : Instr) (cause : Nat) => Yields (exec c s) (fun t => WritesOnly [.evr, .cand, .regs] b t ∧ t.evr.st = .down ∧ t.evr.downCause = cause ∧ RecordTypes [0x4F07] s t
          ∧ (s.cand.framErr = false → s.cand.framProt = false → ∃ y, t.cand.light.getLast? = some y ∧ y.kind = 2 ∧ y.cause = cause))
       (s.evr.st = .mounting → downs (.mount dt false) 1) ∧ (s.evr.st ≠ .down → s.evr.st ≠ .frozen → downs (.controllerSelfCheck dt false) 4)
       ∧ (s.evr.st = .running → (∃ r ∈ s.evr.staging, secLin s 1 < nowLin b - max r.closedAt s.evr.freezeEnd) → downs (.stall dt) 2))
    ∧ exec (.controllerSelfCheck dt true) s = .next b
    ∧ (s.evr.st = .running → (∀ r ∈ s.evr.staging, nowLin b - max r.closedAt s.evr.freezeEnd ≤ secLin s 1) → exec (.stall dt) s = .next b)

/-- FREEZE of a running, enabled recorder with less than 1 MiB staged freezes the store, THAW and 60 s end it, each recorded. CLEAR with a CLEAR token that covers its partitions consumes it, commits everything staged and makes every older record of those partitions unreadable; CLEARING_DONE ends the erase. READ delivers the committed records from its start to its ring, counted, and is DONE; beyond the newest it finds nothing. Every other command changes nothing but its result code. READ_STOP ends a read. A statistics update adds the gathered counts to a new copy with the next sequence; a sag and a temperature sample count in their bins. -/
def Obligations.RecorderCommandEffects : Prop :=
  ∀ (dt : Nat) (p : BitVec 2) (live : Bool) (s : State), lanesRun s = true → bit s.cfg.progBlocks 0xF = true →
    let b := begin' dt s
    let v := seqVoted b
    let only := fun (c : Instr) (code : Nat) => Yields (exec c s) (fun t => WritesOnly [.regs] v t ∧ RegsOnly [0x0F0024] s t ∧ rf 0x0F0024 0 4 t = code)
    (s.evr.st = .running → rf 0x0F0000 1 1 s = 1 → stagingUsed s < 0x100000 → Yields (exec (.freeze dt) s) (fun t => WritesOnly [.evr, .regs] v t ∧ t.evr.st = .frozen
        ∧ t.evr.freezeAt = nowLin b ∧ rf 0x0F0024 0 4 t = 0 ∧ rv 0x0F003C t = s.evr.seqCommit % 2 ^ 32 ∧ Records [recNow 0x4F01 [(4, s.evr.seqCommit), (4, stagingUsed s)] b] s t))
    ∧ (s.evr.st = .frozen → only (.freeze dt) 1 ∧ only (.recorderClear dt p) 1) ∧ (s.evr.st = .down → only (.freeze dt) 3 ∧ only (.thaw dt) 3 ∧ only (.recorderClear dt p) 3)
    ∧ (s.evr.st = .mounting → only (.freeze dt) 8 ∧ only (.thaw dt) 2 ∧ only (.recorderClear dt p) 8)
    ∧ (s.evr.st = .running → only (.thaw dt) 2 ∧ (rf 0x0F0000 1 1 s = 0 → only (.freeze dt) 6) ∧ (rf 0x0F0000 1 1 s = 1 → 0x100000 ≤ stagingUsed s → only (.freeze dt) 4))
    ∧ (s.evr.st = .frozen → Yields (exec (.thaw dt) s) (fun t => WritesOnly [.evr, .regs] v t ∧ t.evr.st = .running ∧ rf 0x0F0024 0 4 t = 0 ∧ RecordTypes [0x4F02] s t)
        ∧ (secLin s 60 ≤ nowLin b - s.evr.freezeAt → Yields (exec (.freezeTimeout dt) s) (fun t => WritesOnly [.evr, .regs] b t ∧ t.evr.st = .running ∧ RecordTypes [0x4F02] s t))
        ∧ (nowLin b - s.evr.freezeAt < secLin s 60 → exec (.freezeTimeout dt) s = .next b))
    ∧ (s.evr.st = .running → s.evr.clearing = false → (p = 0#2 → only (.recorderClear dt p) 7) ∧ (p ≠ 0#2 → findToken (rv 0x0F0010 s) 4 b = none → only (.recorderClear dt p) 5)
        ∧ (∀ e, p ≠ 0#2 → findToken (rv 0x0F0010 s) 4 b = some e → e.scope = 0xFFFFFFFF → Yields (exec (.recorderClear dt p) s) (fun t =>
          t.evr.clearing = true ∧ rf 0x0F0024 0 4 t = 0 ∧ t.evr.open' = none ∧ t.evr.staging = [] ∧ (∀ v ∈ t.prg.tokVer, v.id ≠ e.id) ∧ t.prg.mode = s.prg.mode
          ∧ (∀ d : Bool, bit p.toNat (b2n d) = true → ∃ n, (part d t).clearedTo = some n ∧ ∀ r ∈ committed d t, seqLt r.seq n = false))))
    ∧ exec (.clearingDone dt) s = .next { b with evr.clearing := false }
    ∧ exec (.readStop dt) s = .next (setRf 0x0F0024 0 4 0 { v with evr.reading := none })
    ∧ (rf 0x0F0000 0 1 s = 0 → only (.read dt p live []) 6)
    ∧ (rf 0x0F0000 0 1 s = 1 → (s.evr.st = .down → only (.read dt p live []) 3) ∧ (s.evr.st = .mounting → only (.read dt p live []) 8)
      ∧ ((s.evr.st = .running ∨ s.evr.st = .frozen) →
        (s.evr.reading.isSome = true → only (.read dt p live []) 8)
        ∧ (s.evr.reading = none → ((p ≠ 1#2 ∧ p ≠ 2#2) ∨ rf 0x0F0018 0 9 s = 0 ∨ 256 < rf 0x0F0018 0 9 s) → only (.read dt p live []) 7)
        ∧ (∀ r, s.evr.reading = none → p ≠ 0#2 → p ≠ 3#2 → rf 0x0F0018 0 9 s = 1 → s.rings.length = 64 → committed (p == 2#2) s = [r] → seqLt r.seq (rv 0x0F0014 s) = false → r.seq < 2 ^ 32 →
          s.evr.seqCommit ≠ 0 → seqLt s.evr.seqCommit (rv 0x0F0014 s) = false → (part (p == 2#2) s).clearedTo = none →
          (itemEntries (plainDesc (recLen r) (now b) 0) (recBytes r false)).length ≤ ringFree Config.readRing.toNat s →
          Yields (exec (.read dt p false []) s) (fun t => WritesOnly [.regs, .rings, .evr] v t ∧ RingsOnly [Config.readRing.toNat] s t ∧ t.evr = s.evr
            ∧ (ring Config.readRing.toNat t).entries = (ring Config.readRing.toNat s).entries ++ itemEntries (plainDesc (recLen r) (now b) 0) (recBytes r false)
            ∧ rf 0x0F0020 0 9 t = 1 ∧ rf 0x0F0020 9 1 t = 1 ∧ rv 0x0F001C t = r.seq ∧ rf 0x0F0024 0 4 t = 0))
        ∧ (s.evr.reading = none → p ≠ 0#2 → p ≠ 3#2 → rf 0x0F0018 0 9 s = 1 → s.evr.seqCommit = 0 → Yields (exec (.read dt p false []) s) (fun t => WritesOnly [.regs] v t
            ∧ rf 0x0F0020 0 9 t = 0 ∧ rf 0x0F0020 9 1 t = 1 ∧ rf 0x0F0020 13 1 t = 1))))
    ∧ (s.cand.framErr = false → s.cand.framProt = false → secLin s 3600 ≤ nowLin b - s.sta.lastUpd → Yields (exec (.statUpdate dt) s) (fun t => WritesOnly [.cand, .sta] b t
        ∧ t.sta.acc = [] ∧ t.sta.lastUpd = nowLin b ∧ ∀ i c, statValid s = some (i, c) → ∃ c', statValid t = some (1 - i, c') ∧ assocGet 8 c' = some ((assocGet 8 c).getD 0 + 1)))
    ∧ (nowLin b - s.sta.lastUpd < secLin s 3600 → exec (.statUpdate dt) s = .next b)
    ∧ (∀ depth us : Nat, (15 ≤ depth → Yields (exec (.vinSag dt depth us) s) (fun t => WritesOnly [.sta] b t ∧
          (let k := 0x190 + 4 * (4 * bin3 depth 25 40 60 + bin3 us 1000 10000 100000)
           (assocGet k t.sta.acc).getD 0 = (assocGet k s.sta.acc).getD 0 + 1 ∧ ∀ j, j ≠ k → assocGet j t.sta.acc = assocGet j s.sta.acc)))
        ∧ (depth < 15 → exec (.vinSag dt depth us) s = .next b))
    ∧ (∀ tenths : Int, -450 ≤ tenths → tenths < 1250 → -400 ≤ tenths → Yields (exec (.temperatureSample dt tenths) s) (fun t => WritesOnly [.sta] b t
        ∧ (let k := 0x100 + 4 * ((tenths + 450) / 50).toNat
           (assocGet k t.sta.acc).getD 0 = (assocGet k s.sta.acc).getD 0 + 1)))

/-- A message on the bus for another node, or from a link in a frame that fails, is not taken. A whole OFFER that fails a check is refused with that reason, its counts and its record; otherwise it opens a download, and a named slot becomes INCOMPLETE at the resume value, or it answers a running one again. A DATA segment is kept; a whole chunk that passes its CRC is held, one that fails is counted and answered BAD, the third BAD ending the transfer. GOOD frees a chunk at the sender, BAD repeats it and a third drops the neighbour, RESUME sets the first chunk, REFUSE drops the neighbour, and the last of a pass-through ends it. CHUNK_STORED writes just that chunk and its slot state, or ends the download on a NOR failure. OFFER is repeated after 5 s, a chunk without an answer stops the sender after 1 s, a neighbour is dropped after 30 min. Verification ends VALID or INVALID. ABORT_DL ends the own downloads. Nothing else changes. -/
def Obligations.RelayTransferEffects : Prop :=
  ∀ (dt : Nat) (m : RelaySeg) (kind : BitVec 2) (s : State), relayRuns s = true →
    let b0 := begin' dt s
    let q := linkIn (m.transport.val - 5) m.link (leBytes 4 m.word.toNat ++ m.bytes) b0
    let b := if m.transport.val < 5 then b0 else q.2
    let k := rKind m.word
    let c := rChunk m.word
    let tr := m.transport.val
    let nd := m.node.toNat
    let parts := [Comp.sent, .regs, .evr, .upd, .lnk]
    let seg := m.bytes.take (segSize tr)
    let h := m.bytes.take 256
    let r := offerReason h (fieldAt m.bytes 256 2) tr nd b
    let canWrite := fun (x : Selector) => x.slots.length = 6 ∧ s.cand.framProt = false
    (∀ i ∈ ([.offer dt m, .data dt m, .good dt m, .bad dt m, .resume dt m, .refuse dt m] : List Instr),
      (m.transport.val = 0 → m.dest.toNat ≠ s.cfg.sched.own → exec i s = .next b0) ∧ (5 ≤ m.transport.val → q.1 = false → exec i s = .next q.2))
    ∧ ((m.transport.val = 0 → m.dest.toNat = s.cfg.sched.own) → (5 ≤ m.transport.val → q.1 = true) →
    (s.upd.offers = [] → joinSegs [(rSeg m.word, seg)] ((258 + segSize tr - 1) / segSize tr) = none →
      exec (.offer dt m) s = .next { b with upd.offers := [{ transport := tr, node := nd, kind := k, segs := [(rSeg m.word, seg)] }] })
    ∧ (s.upd.offers = [] → segSize tr = 1024 → rSeg m.word = 0 → m.bytes.length = 258 →
      (r ≠ 0 → Yields (exec (.offer dt m) s) (fun t => WritesOnly parts b t ∧ RegsOnly [0x100010, 0x100050, 0x100054, 0x0F006C] b t ∧ t.upd.dls = s.upd.dls
        ∧ rf 0x100010 7 1 t = 1 ∧ rf 0x100010 8 8 t = r ∧ rv 0x100050 t = sat 0xFFFFFFFF (rv 0x100050 s + 1) ∧ rv 0x100054 t = sat 0xFFFFFFFF (rv 0x100054 s + 1)
        ∧ RecordTypes [0x5001] b t))
      ∧ (∀ d, r = 0 → dlOf (hKind h) s = some d → Yields (exec (.offer dt m) s) (fun t => WritesOnly [.sent, .regs, .upd, .lnk] b t
        ∧ RegsOnly [0x100050] b t ∧ t.upd.dls = s.upd.dls))
      ∧ (∀ x, r = 0 → (∀ d ∈ s.upd.dls, d.kind ≠ hKind h) → selector s = some x → canWrite x → Yields (exec (.offer dt m) s) (fun t => WritesOnly (.cand :: parts) b t
        ∧ RecordTypes [0x5001] b t
        ∧ ∃ d, t.upd.dls = d :: s.upd.dls ∧ d.kind = hKind h ∧ d.header = h ∧ d.store = offerNamed h s ∧ d.upTransport = tr ∧ d.upNode = nd ∧ d.held = []
          ∧ (d.store = false → t.cand = b.cand ∧ d.good = 0)
          ∧ (d.store = true → d.good = resumeValue h s ∧ ∃ y, selector t = some y ∧ y.sel = x.sel
            ∧ (inPrev (inactiveBank d.kind s) d.kind x = true → y.prevValid = false)
            ∧ selSlot y (inactiveBank d.kind s) d.kind = { st := if hChunks h ≤ d.good then 2 else 1, good := d.good, seq := hSeq h }))))
    ∧ (∀ d, dlOf k s = some d → d.upTransport = tr → d.upNode = nd → d.good ≤ c → c < hChunks d.header → (∀ x ∈ d.held, x.1 ≠ c) →
      d.held.length + ((d.segs.map (fun x => x.1)).filter (fun x => x != c)).eraseDups.length < 8 →
      let segs := (c, rSeg m.word, seg) :: d.segs.filter (fun x => !(x.1 == c && x.2.1 == rSeg m.word))
      let j := joinSegs ((segs.filter (fun x => x.1 == c)).map (fun x => x.2)) ((chunkLen d.header c + segSize tr - 1) / segSize tr)
      (j = none → exec (.data dt m) s = .next (setDl { d with segs := segs } b))
      ∧ (∀ y, j = some y → let x := y.take (chunkLen d.header c)
        (chunkOk d c x = true → d.store = true → Yields (exec (.data dt m) s) (fun t => WritesOnly parts b t
          ∧ ∃ e, dlOf k t = some e ∧ (c, x) ∈ e.held ∧ e.good = d.good ∧ e.header = d.header))
        ∧ (chunkOk d c x = false → badCount c d.badUp < 2 → Yields (exec (.data dt m) s) (fun t => WritesOnly [.sent, .regs, .upd, .lnk] b t
          ∧ RegsOnly [0x100058] b t ∧ rv 0x100058 t = sat 0xFFFFFFFF (rv 0x100058 s + 1)
          ∧ dlOf k t = some { d with segs := d.segs.filter (fun x => x.1 != c), badUp := bump c d.badUp }))
        ∧ (chunkOk d c x = false → 2 ≤ badCount c d.badUp → Yields (exec (.data dt m) s) (fun t => WritesOnly parts b t ∧ dlOf k t = none
          ∧ rf 0x100010 8 8 t = 0x10 ∧ RecordTypes [0x5001] b t))))
    ∧ (∀ d n, dlOf k s = some d → d.store = true → d.good < hChunks d.header → d.down.find? (isNode tr nd) = some n →
      let leaves := fun (t : State) (p : Neighbour → Prop) => WritesOnly parts b t
        ∧ ∃ e, dlOf k t = some e ∧ e.good = d.good ∧ e.store = true ∧ ∃ n', e.down.find? (isNode tr nd) = some n' ∧ p n'
      (c ∈ n.inFlight → c < n.next → Yields (exec (.good dt m) s) (fun t => leaves t (fun n' => c ∉ n'.inFlight ∧ n'.good = max n.good (c + 1) ∧ n.next ≤ n'.next)))
      ∧ (∀ y, c ∈ n.inFlight → badCount c n.bads < 2 → d.held.find? (fun x => x.1 == c) = some (c, y) → Yields (exec (.bad dt m) s) (fun t =>
          leaves t (fun n' => c ∈ n'.inFlight ∧ n'.bads = bump c n.bads) ∧ (sendMsg n.transport n.node n.mac mtData k c y b).sent <+: t.sent))
      ∧ (c ∈ n.inFlight → 2 ≤ badCount c n.bads → Yields (exec (.bad dt m) s) (fun t => leaves t (fun n' => n'.refused = true ∧ n'.inFlight = []) ∧ Recorded 0x5001 b t))
      ∧ (takesPart n = true → d.held = [] → exec (.resume dt m) s = .next (setDl { d with down := d.down.map (fun x => if isNode tr nd x then
          { n with answered := true, stopped := false, next := fieldAt m.bytes 2 2, good := fieldAt m.bytes 2 2, inFlight := [] } else x) } b))
      ∧ (takesPart n = true → Yields (exec (.refuse dt m) s) (fun t => leaves t (fun n' => n'.refused = true ∧ n'.inFlight = []) ∧ Recorded 0x5001 b t)))
    ∧ (∀ d n, dlOf k s = some d → d.store = false → d.down = [n] → isNode tr nd n = true → takesPart n = true →
      Yields (exec (.refuse dt m) s) (fun t => WritesOnly parts b t ∧ dlOf k t = none ∧ RecordTypes [0x5001] b t)))
    ∧ (∀ d, dlOf kind.toNat s = some d →
      let a := slotAddr (inactiveBank d.kind s) d.kind + 65536 * d.good
      (∀ x y, d.store = true → Memory.wf s.mem = true → selector s = some x → canWrite x → d.held.find? (fun x => x.1 == d.good) = some (d.good, y) →
        Yields (exec (.chunkStored dt kind true) s) (fun t => WritesOnly (.cand :: .mem :: parts) b0 t ∧ MemOnly [(a, y.length)] s t ∧ memRead a y.length t.mem = y
          ∧ (∃ z, selector t = some z ∧ z.sel = x.sel ∧ selSlot z (inactiveBank d.kind s) d.kind = { selSlot x (inactiveBank d.kind s) d.kind with
              st := if hChunks d.header ≤ d.good + 1 then 2 else 1, good := d.good + 1 })
          ∧ (d.good + 1 < hChunks d.header → ∃ e, dlOf d.kind t = some e ∧ e.good = d.good + 1)
          ∧ (hChunks d.header ≤ d.good + 1 → d.down = [] → dlOf d.kind t = none))
        ∧ Yields (exec (.chunkStored dt kind false) s) (fun t => WritesOnly parts b0 t ∧ dlOf d.kind t = none ∧ rf 0x100010 8 8 t = 0x14 ∧ RecordTypes [0x5001] s t))
      ∧ (∀ n, d.down = [n] → takesPart n = true →
        ((n.answered = false ∨ n.stopped = true) →
          (secLin b0 5 ≤ nowLin b0 - n.offerAt → exec (.offerRepeat dt kind) s = .next (setDl { d with down := [{ n with offerAt := nowLin b0 }] } (sendOffer d.header n b0)))
          ∧ (nowLin b0 - n.offerAt < secLin b0 5 → exec (.offerRepeat dt kind) s = .next (setDl d b0))
          ∧ (secLin b0 1800 ≤ nowLin b0 - n.silentAt → d.store = true → d.good < hChunks d.header → Yields (exec (.transferTimeout dt kind) s) (fun t =>
              WritesOnly parts b0 t ∧ Recorded 0x5001 s t ∧ ∃ e, dlOf d.kind t = some e ∧ e.good = d.good ∧ ∀ n' ∈ e.down, n'.refused = true))
          ∧ (secLin b0 1800 ≤ nowLin b0 - n.silentAt → d.store = false → Yields (exec (.transferTimeout dt kind) s) (fun t =>
              WritesOnly parts b0 t ∧ dlOf d.kind t = none ∧ RecordTypes [0x5001] s t))
          ∧ (nowLin b0 - n.silentAt < secLin b0 1800 → exec (.transferTimeout dt kind) s = .next b0))
        ∧ (n.answered = true → n.stopped = false → n.inFlight ≠ [] →
          (secLin b0 1 ≤ nowLin b0 - n.segAt → exec (.chunkTimeout dt kind) s = .next (setDl { d with down :=
            [{ n with stopped := true, inFlight := [], offerAt := nowLin b0, silentAt := nowLin b0 }] } (sendOffer d.header n b0)))
          ∧ (nowLin b0 - n.segAt < secLin b0 1 → exec (.chunkTimeout dt kind) s = .next (setDl d b0)))))
    ∧ (∀ bank x, verifying kind.toNat s = some bank → kind ≠ 0#2 → selector s = some x → canWrite x →
      let v := verifyReason (slotAddr bank kind.toNat) s.mem s
      Yields (exec (.verifyDone dt kind) s) (fun t => WritesOnly [.cand, .regs, .evr] b0 t ∧ RecordTypes [0x5001] s t
        ∧ (∃ z, selector t = some z ∧ z.sel = x.sel ∧ selSlot z bank kind.toNat = { selSlot x bank kind.toNat with st := if v = 0 then 3 else 4 })
        ∧ (v = 0 → RegsOnly [0x0F006C] s t) ∧ (v ≠ 0 → RegsOnly [0x100010, 0x100060, 0x0F006C] s t ∧ rf 0x100010 8 8 t = v)))
    ∧ (lanesRun s = true → bit s.cfg.progBlocks 0x10 = true → Yields (exec (.abortDl dt) s) (fun t => WritesOnly [.upd] (seqVoted b0) t
      ∧ (∀ d ∈ t.upd.dls, d.store = false) ∧ (∀ d ∈ s.upd.dls, d.store = false → d ∈ t.upd.dls)
      ∧ (∀ d ∈ s.upd.dls, d.store = true → d.down.any takesPart = true → { d with store := false } ∈ t.upd.dls)))

/-- A PREPARE whose images are VALID and fit begins the preparation by the first method that applies; its end is READY, or IDLE with a reason. ARM for a permitted boundary arms it, CANCEL discards it; each is otherwise refused with its reason. At the boundary a restart activation opens every output and path, writes the selector with the old selection as PREV, TRIAL and the method, and resets the module; an exchange that fails leaves the old program and selector, one that commits is on TRIAL. CONFIRM in NORMAL ends TRIAL, sets PREV_VALID and fuses owner slots where a configuration is confirmed; elsewhere it is refused. The elapsed confirmation window leads, by the method, to a rollback for the next major-cycle boundary, armed unless a force refuses it, or to a restart from the previous selection. -/
def Obligations.ActivationEffects : Prop :=
  ∀ (dt : Nat) (kinds : BitVec 3) (q : QuietIn) (s : State) (x : Selector), lanesRun s = true → bit s.cfg.progBlocks 0x10 = true → s.lnk.pair ≠ .active →
    selector s = some x → s.cand.framProt = false → pinsOf s →
    let b := begin' dt s
    let v := seqVoted b
    let refused := fun (i : Instr) (r : Nat) => Yields (exec i s) (fun t => WritesOnly [.regs] v t ∧ RegsOnly [0x100010] s t ∧ rf 0x100010 7 1 t = 1 ∧ rf 0x100010 8 8 t = r)
    let restarts := fun (t : State) => t.pwr.phase = .inReset ∧ outputsOff t = true ∧ pathsOpen t = true
    let pending := s.upd.act = .preparing ∨ s.upd.act = .ready ∨ s.upd.act = .armed
    (prepareReason kinds.toNat b ≠ 0 → refused (.prepare dt kinds) (prepareReason kinds.toNat b))
    ∧ (prepareReason kinds.toNat b = 0 →
      (methodOf kinds.toNat b = 3 → exec (.prepare dt kinds) s = .next { v with upd.act := .preparing, upd.kinds := kinds.toNat, upd.method := 3 })
      ∧ (methodOf kinds.toNat b ≠ 3 → Yields (exec (.prepare dt kinds) s) (fun t => WritesOnly [.upd, .xch, .vm] v t
          ∧ t.upd = { s.upd with act := .preparing, kinds := kinds.toNat, method := methodOf kinds.toNat b }
          ∧ t.xch.st = .loading ∧ t.xch.forActivation = true ∧ t.xch.srcBank = programBank kinds.toNat s ∧ t.xch.target = 1 - s.vm.activeSlot)))
    ∧ (s.upd.act = .preparing →
      (s.upd.method = 3 → exec (.prepareDone dt) s = .next { b with upd.act := .ready })
      ∧ (s.upd.method ≠ 3 → Yields (exec (.prepareDone dt) s) (fun t =>
          (t.upd.act = .ready ∧ t.xch.st = .ready) ∨ (t.upd.act = .idle ∧ rf 0x100010 7 1 t = 1 ∧ rf 0x100010 8 8 t = 0x26)))
      ∧ (∀ p, s.upd.method ≠ 3 → s.xch.st = .preparing → s.xch.image = some p → s.xch.work = [] → prepReason s.xch.work (matched p s) s = 0 →
        Yields (exec (.prepareDone dt) s) (fun t => t.upd.act = .ready ∧ t.prg.mode = s.prg.mode ∧ t.vm.mapActive = s.vm.mapActive ∧ t.vm.activeSlot = s.vm.activeSlot
          ∧ t.frc = s.frc ∧ t.fio = b.fio ∧ t.cand = b.cand)))
    ∧ (updArmReason b ≠ 0 → refused (.updArm dt) (updArmReason b))
    ∧ (updArmReason b = 0 →
      (s.upd.method = 3 → exec (.updArm dt) s = .next { v with upd.act := .armed, upd.target := updTarget s })
      ∧ (s.upd.method ≠ 3 → Yields (exec (.updArm dt) s) (fun t => WritesOnly [.upd, .xch, .regs] v t ∧ RegsOnly [0x070038] s t
          ∧ t.upd = { s.upd with act := .armed, target := updTarget s } ∧ t.xch = { s.xch with st := .armed, skipped := 0 })))
    ∧ (¬ pending → refused (.activationCancel dt) 0x25)
    ∧ (pending → s.upd.method = 3 → exec (.activationCancel dt) s = .next { v with upd.act := .idle })
    ∧ (pending → s.upd.method ≠ 3 → s.xch.window = false → s.xch.st ∈ [.loading, .checking, .preparing, .ready, .armed] →
      Yields (exec (.activationCancel dt) s) (fun t => WritesOnly [.upd, .xch, .vm, .regs, .evr] v t ∧ t.upd.act = .idle ∧ t.xch.st = .idle
        ∧ t.vm = { s.vm with mapNew := [] } ∧ RecordTypes [0x4703] s t))
    ∧ (activationDue s = false → exec (.activation dt q) s = .next b)
    ∧ (s.upd.act = .armed → s.upd.target ≤ s.clk.cycle → s.upd.method = 3 → Yields (exec (.activation dt q) s) (fun t => restarts t ∧ t.pwr.wake = 3 ∧ t.upd.act = .trial
        ∧ ∃ y, selector t = some y ∧ y.trial = true ∧ y.method = 3 ∧ y.prev = x.sel ∧ y.sel = newSel x.sel s.upd.kinds (7 - bits x.sel 0 3)))
    ∧ (∀ p, s.upd.act = .armed → s.upd.target ≤ s.clk.cycle → s.upd.method = 1 → s.upd.kinds = 4 → s.xch.st = .draining → s.xch.window = true → s.xch.forActivation = true →
      s.prg.active = [] → s.xch.image = some p →
      (reconvLimit false + q.stallUs < q.reconvUs → Yields (exec (.activation dt q) s) (fun t => GivenUp 0x12 0 b t ∧ t.upd.act = .idle ∧ t.cand = b.cand))
      ∧ (q.reconvUs ≤ reconvLimit false + q.stallUs → ∀ (e : ConvEnd) (n : Nat) (u : State), convertList p (s.xch.work.filter isDirty) (cycleStart dt s) = ((e, n), u) →
        u.prg.mode ≠ .halted → u.xch = (cycleStart dt s).xch → u.upd = s.upd → u.cand = b.cand → u.lnk.pair ≠ .active →
        (∀ c, e = .trapped c → Yields (exec (.activation dt q) s) (fun t => GivenUp 0x11 n u t ∧ t.upd.act = .idle ∧ t.cand = b.cand))
        ∧ (e = .done → q.checkUs ≤ checkLimit false + q.stallUs → headerBad p u = none → notComplements u = false → Yields (exec (.activation dt q) s) (fun t =>
          t.vm = { u.vm with mapActive := u.vm.mapNew, mapNew := [], activeSlot := u.xch.target } ∧ t.prg.mode = u.prg.mode ∧ t.upd.act = .trial
          ∧ ∃ y, selector t = some y ∧ y.trial = true ∧ y.method = 1 ∧ y.prev = x.sel ∧ y.sel = newSel x.sel 4 (7 - bits x.sel 0 3)))))
    ∧ (s.upd.act = .trial → x.trial = true → s.prg.mode = .normal → Yields (exec (.confirm dt) s) (fun t => WritesOnly [.cand, .upd, .regs, .evr] v t
        ∧ RegsOnly [0x0F006C] s t ∧ t.upd = { s.upd with act := .idle } ∧ (∃ y, selector t = some y ∧ y.trial = false ∧ y.prevValid = true ∧ y.sel = x.sel ∧ y.prev = x.prev)
        ∧ t.cand.fuses = if bit s.upd.kinds 1 then fuseOwners s.cfg s.cand.fuses else s.cand.fuses))
    ∧ ((s.upd.act ≠ .trial ∨ x.trial = false ∨ s.prg.mode ≠ .normal) → refused (.confirm dt) 0x25)
    ∧ (s.upd.act = .trial → x.trial = true → confirmOver b = false → exec (.confirmTimeout dt) s = .next b)
    ∧ (s.upd.act = .trial → x.trial = true → confirmOver b = true →
      ((s.prg.mode ≠ .normal ∨ s.upd.method = 3) → Yields (exec (.confirmTimeout dt) s) (fun t => restarts t ∧ t.pwr.wake = 4 ∧ t.upd.act = .idle
          ∧ ∃ y, selector t = some y ∧ y.trial = false ∧ y.sel = x.prev))
      ∧ (s.prg.mode = .normal → s.upd.method = 1 ∨ s.upd.method = 2 → Yields (exec (.confirmTimeout dt) s) (fun t =>
          (t.upd.act = .rollback ∧ t.upd.target = nextMajor s ∧ (t.xch.st = .armed ∨ t.xch.st = .idle) ∧ t.vm.activeSlot = s.vm.activeSlot) ∨ (restarts t ∧ t.upd.act = .idle))))

/-- A failing lane narrows its link, with a record, fresh sequences and its frames kept; a training brings an enabled link up; a lost link empties its queue and unsynchronises the standby or ends the fence. A mirror message in a frame that fails its check changes only that count. On a standby, each immediate message whose check values and sequence hold is acknowledged and applied: a journal word to its tables, a channel state, the force table, operand registers or a command, a mark; vital RAM writes are buffered and reach memory only with BOUNDARY. Any other message is counted and leads to STANDBY_UNSYNCED with nothing received. SOLO does so too; COMMIT commits a standby whose own exchange stands ready and unsynchronises another. On the active member ACK releases the telegrams it covers, SYNC_REQ starts the streams and the copy again without fence, and 10 us without an acknowledgement lead to solo. A gap-free major cycle, for the standby with the whole copy, synchronises; a due mark or a missed cycle makes the standby ACTIVE, dropping buffered writes and pending exchanges or activations. -/
def Obligations.LinkAndPairEffects : Prop :=
  ∀ (dt : Nat) (m : MirrorMsg) (s : State), powered s = true → s.lnk.l.length = 3 →
    let b := begin' dt s
    let q := fun (mt : Nat) => linkIn (partnerLink s) m.link (mirrorPayload mt m) b
    let standby := pairLinkUp s = true ∧ (s.lnk.pair = .unsynced ∨ s.lnk.pair = .synced)
    let whole := fun (mt : Nat) => (q mt).1 = true ∧ mirrorPass mt m s = true
    let first := m.stream.toNat = 1 ∧ m.mseq.toNat = (s.lnk.rx1 + 1) % 2 ^ 32
    let second := m.stream.toNat = 2 ∧ m.mseq.toNat = (s.lnk.rx2 + 1) % 2 ^ 32
    let taken := fun (t : State) => t.lnk.rx1 = m.mseq.toNat ∧ t.lnk.tx1 = (b.lnk.tx1 + 1) % 2 ^ 32 ∧ t.lnk.pair = s.lnk.pair
    let anew := fun (t : State) => t.lnk.pair = .unsynced ∧ t.lnk.rx1 = 0 ∧ t.lnk.rx2 = 0 ∧ t.lnk.ramBuf = [] ∧ t.lnk.part = [] ∧ t.lnk.mark = none
      ∧ t.lnk.copied = 0 ∧ t.lnk.fullCopy = false
    let acked := fun (mt : Nat) => sendAck m (gapStart { (q mt).2 with lnk.rx1 := m.mseq.toNat })
    (∀ (l : Fin 3) (w : Nat),
      (linkWidth w < (link l.val s).width → (linkWidth w ≠ 0 ∨ l.val ≠ partnerLink s) → Yields (exec (.linkRetrain dt l w) s) (fun t =>
        WritesOnly [.sent, .regs, .evr, .lnk] b t ∧ RegsOnly [0x120018 + 16 * l.val, 0x0F006C] s t ∧ RecordTypes [0x9201] s t ∧ t.lnk.pair = s.lnk.pair
        ∧ (link l.val t).width = linkWidth w ∧ (link l.val t).delay = 0x3FF ∧ (link l.val t).lseqRx = 0 ∧ (∀ k, k ≠ l.val → link k t = link k b)
        ∧ (linkWidth w ≠ 0 → (link l.val b).queue <+: (link l.val t).queue) ∧ (linkWidth w = 0 → (link l.val t).queue = [])))
      ∧ (0 < (link l.val s).width → l.val = partnerLink s → Yields (exec (.linkRetrain dt l 0) s) (fun t =>
        (link l.val t).width = 0 ∧ (link l.val t).queue = [] ∧ t.mem = s.mem ∧ (standby → anew t)
        ∧ (s.lnk.pair = .active → t.lnk.pair = .active ∧ t.lnk.fencing = false ∧ t.lnk.gapFree = none ∧ t.lnk.copyAt = none ∧ t.tel.fenced = [])))
      ∧ ((link l.val s).width ≤ linkWidth w → exec (.linkRetrain dt l w) s = .next b)
      ∧ (linkEnabled l.val s = true → linkWidth w ≠ 0 → Yields (exec (.linkTraining dt l w) s) (fun t => WritesOnly [.sent, .lnk] b t
        ∧ (link l.val t).width = linkWidth w ∧ (link l.val t).delay = 0x3FF ∧ (link l.val t).lseqRx = 0 ∧ (∀ k, k ≠ l.val → link k t = link k b)
        ∧ t.lnk.pair = s.lnk.pair ∧ (l.val = partnerLink s → s.lnk.pair = .unsynced → anew t ∧ t.lnk.tx1 = 2)))
      ∧ ((linkEnabled l.val s = false ∨ linkWidth w = 0) → exec (.linkTraining dt l w) s = .next b))
    ∧ (standby → ∀ r ∈ ([(1, .latCommit dt m), (2, .channel dt m), (3, .force dt m), (4, .command dt m), (5, .ramWrite dt m), (6, .boundary dt m), (0x10, .solo dt m),
        (0x11, .safeStateMark dt m), (0x12, .handover dt m), (0x13, .commitMark dt m)] : List (Nat × Instr)),
      ((q r.1).1 = false → exec r.2 s = .next (q r.1).2 ∧ WritesOnly [.regs] b (q r.1).2 ∧ RegsOnly [0x12001C + 16 * partnerLink s] b (q r.1).2)
      ∧ ((q r.1).1 = true → ¬ (mirrorPass r.1 m s = true ∧ (if r.1 = 5 ∨ r.1 = 6 then second else first)) → Yields (exec r.2 s) (fun t =>
          WritesOnly [.sent, .regs, .lnk] b t ∧ RegsOnly [0x120044] s t ∧ rv 0x120044 t = sat 0xFFFFFFFF (rv 0x120044 s + 1) ∧ anew t
          ∧ (s.lnk.pair = .synced → t.lnk.tx1 = 2))))
    ∧ (standby → first →
      (whole 1 → s.lnk.part = [] → Memory.wf s.mem = true → m.body.length = 32 → fieldAt m.body 2 2 = 1 → fieldAt m.body 0 1 ≠ 3 →
        let e := m.body.drop 16
        journalWordOk (journalAddr e) = true → Yields (exec (.latCommit dt m) s) (fun t => WritesOnly [.sent, .mem, .lat, .lnk] b t ∧ taken t ∧ t.lnk.part = []
          ∧ t.lat.journal = s.lat.journal ++ [m.body]
          ∧ MemOnly [(journalAddr e, 8), (invWord (journalAddr e), 8)] s t ∧ memNat (journalAddr e) 8 t.mem = fieldAt e 8 8
          ∧ memNat (invWord (journalAddr e)) 8 t.mem = 2 ^ 64 - 1 - fieldAt e 8 8))
      ∧ (whole 1 → s.lnk.part.length + m.body.length < 16 →
        Yields (exec (.latCommit dt m) s) (fun t => WritesOnly [.sent, .lnk] b t ∧ taken t ∧ t.lnk.part = s.lnk.part ++ m.body))
      ∧ (let i := fieldAt m.body 0 4 % 4096
        let g := fieldAt m.body 0 4 / 4096
        whole 2 → Yields (exec (.channel dt m) s) (fun t => WritesOnly [.sent, .tel, .lnk] b t ∧ taken t ∧ (∀ j, j ≠ i → chan j t = chan j s)
          ∧ (fieldAt m.body 4 1 = 1 → (chan i t).st = .openSt ∧ (chan i t).gen = g ∧ (chan i t).seq = fieldAt m.body 12 4)
          ∧ (fieldAt m.body 4 1 = 2 → g ≠ 0xFFFFF → (chan i t).st = .closed ∧ (chan i t).gen = g + 1)
          ∧ (fieldAt m.body 4 1 = 2 → g = 0xFFFFF → (chan i t).st = .retired ∧ (chan i t).gen = g)
          ∧ (fieldAt m.body 4 1 = 3 → (tmpl i s).any hasFold = true → fieldAt m.body 12 4 ≠ 0xFFFFFFFF → (chan i t).st = .openSt ∧ (chan i t).gen = g ∧ (chan i t).seq = fieldAt m.body 12 4 + 1)
          ∧ (fieldAt m.body 4 1 = 3 → (tmpl i s).any hasFold = true → fieldAt m.body 12 4 = 0xFFFFFFFF → (chan i t).st = .exhausted)))
      ∧ (let cmd := m.body.take 32
        whole 3 → bits (fieldAt (m.body.drop 32) 0 4) 4 4 = 1 →
        let others := s.frc.table.filter (fun y => !(y.dir == fcDir cmd && y.point == fcPoint cmd))
        Yields (exec (.force dt m) s) (fun t => WritesOnly [.sent, .prg, .frc, .lnk] b t ∧ taken t
          ∧ (fcOp cmd = 1 → s.frc.table.length < 256 → ∃ f, t.frc.table = others ++ [f] ∧ f.dir = fcDir cmd ∧ f.point = fcPoint cmd ∧ f.value = fieldAt cmd 4 4
              ∧ f.token = fieldAt cmd 12 4 ∧ f.expiry = fieldAt (m.body.drop 32) 16 8 ∧ t.frc.ind = true)
          ∧ (fcOp cmd = 2 → t.frc.table = others) ∧ (fcOp cmd = 3 → t.frc.table = [])))
      ∧ (whole 4 → fieldAt m.body 0 4 ∈ [0xF0070008, 0xF007000C, 0xF0100008, 0xF010000C] → Yields (exec (.command dt m) s) (fun t => WritesOnly [.sent, .regs, .lnk] b t ∧ taken t
          ∧ RegsOnly [fieldAt m.body 0 4 - 0xF0000000] s t ∧ rv (fieldAt m.body 0 4 - 0xF0000000) t = fieldAt m.body 4 4))
      ∧ (whole 4 → fieldAt m.body 0 4 = 0xF0070004 → fieldAt m.body 4 4 = 1 → loadReason s = 0 → Yields (exec (.command dt m) s) (fun t =>
          WritesOnly [.sent, .xch, .vm, .lnk] b t ∧ taken t ∧ t.xch.st = .loading ∧ t.xch.srcBank = 0))
      ∧ (whole 0x10 → Yields (exec (.solo dt m) s) (fun t => WritesOnly [.sent, .lnk] b t ∧ anew t ∧ t.lnk.tx1 = 2))
      ∧ (whole 0x11 → s.lnk.pair = .synced → Yields (exec (.safeStateMark dt m) s) (fun t => WritesOnly [.sent, .lnk] b t ∧ taken t ∧ t.lnk.mark = some (s.clk.cycle + 1)))
      ∧ (whole 0x12 → s.lnk.pair = .synced → Yields (exec (.handover dt m) s) (fun t => WritesOnly [.sent, .lnk] b t ∧ taken t ∧ t.lnk.mark = some (fieldAt m.body 0 8)))
      ∧ (whole 0x13 → (commitReady (fieldAt m.body 0 8) s = false ∨ dirtyMatches s = false) →
        Yields (exec (.commitMark dt m) s) (fun t => WritesOnly [.sent, .lnk] b t ∧ t.lnk.pair = .unsynced ∧ t.xch = s.xch))
      ∧ (∀ (p : ProgImage) (n : Nat) (u : State), whole 0x13 → commitReady (fieldAt m.body 0 8) s = true → dirtyMatches s = true → s.xch.image = some p →
        convertList p (s.xch.work.filter isDirty) { acked 0x13 with xch.st := .exchanging, xch.tracking := false, xch.heldTrig := [], xch.window := false } = ((.done, n), u) →
        u.prg.mode ≠ .halted → Yields (exec (.commitMark dt m) s) (fun t => taken t ∧ t.xch.st = .idle
          ∧ t.vm.mapActive = s.vm.mapNew ∧ t.vm.activeSlot = s.xch.target ∧ rv 0x070040 t = rv 0x070044 s ∧ t.prg.mode = u.prg.mode)))
    ∧ (standby → second →
      (whole 5 → Yields (exec (.ramWrite dt m) s) (fun t => WritesOnly [.lnk] b t ∧ t.lnk.rx2 = m.mseq.toNat ∧ t.lnk.pair = s.lnk.pair
        ∧ t.lnk.ramBuf = s.lnk.ramBuf ++ [(fieldAt m.body 0 8, m.body.drop 8)]))
      ∧ (whole 6 → s.lnk.ramBuf = [] → Yields (exec (.boundary dt m) s) (fun t => WritesOnly [.lnk] b t ∧ t.lnk.markThis = true ∧ t.lnk.rx2 = m.mseq.toNat
        ∧ t.lnk.fullCopy = decide (copySize s ≤ s.lnk.copied)))
      ∧ (∀ a d, whole 6 → s.lnk.ramBuf = [(a, d)] → d ≠ [] → Memory.wf s.mem = true → a + d.length ≤ 0x07040000 → dualStored a = true → dualStored (a + d.length - 1) = true →
        Yields (exec (.boundary dt m) s) (fun t => WritesOnly [.mem, .vm, .xch, .lnk] b t ∧ t.lnk.ramBuf = [] ∧ t.lnk.markThis = true
          ∧ MemOnly [(a, d.length), (a + invOffset, d.length)] s t ∧ memRead a d.length t.mem = d)))
    ∧ (pairLinkUp s = true → s.lnk.pair = .active →
      (whole 0x20 → first → Yields (exec (.ack dt m) s) (fun t => WritesOnly [.sent, .tel, .lnk] b t ∧ t.lnk.rx1 = m.mseq.toNat
        ∧ t.lnk.ackT = fieldAt m.body 8 8 ∧ t.lnk.pair = .active
        ∧ (fenced s = true → t.tel.fenced = s.tel.fenced.filter (fun x => decide (fieldAt m.body 8 8 < x.1)))))
      ∧ ((q 0x20).1 = true → ¬ (mirrorPass 0x20 m s = true ∧ first) → Yields (exec (.ack dt m) s) (fun t => WritesOnly [.regs, .lnk] b t ∧ RegsOnly [0x120044] s t
        ∧ rv 0x120044 t = sat 0xFFFFFFFF (rv 0x120044 s + 1) ∧ t.lnk.ackT = s.lnk.ackT ∧ t.lnk.pair = .active))
      ∧ (whole 0x21 → m.stream.toNat = 1 → Yields (exec (.syncReq dt m) s) (fun t => WritesOnly [.sent, .tel, .lnk] b t ∧ t.lnk.pair = .active ∧ t.lnk.fencing = false
        ∧ t.lnk.solo = false ∧ t.lnk.tx1 = 1 ∧ t.lnk.tx2 = 1 ∧ t.lnk.copyAt = some 0 ∧ t.lnk.ackT = 0 ∧ t.lnk.gapFree = some s.clk.cycle ∧ t.tel.fenced = []))
      ∧ (∀ r ∈ ([(0x20, .ack dt m), (0x21, .syncReq dt m)] : List (Nat × Instr)), (q r.1).1 = false → exec r.2 s = .next (q r.1).2))
    ∧ (fenced s = true → ackMissing b = true → Yields (exec (.mirrorFenceTimeout dt) s) (fun t => WritesOnly [.sent, .tel, .lnk] b t ∧ t.lnk.solo = true ∧ t.lnk.fencing = false
        ∧ t.lnk.gapFree = none ∧ t.lnk.pair = .active ∧ t.tel.fenced = []))
    ∧ ((fenced s = false ∨ ackMissing b = false) → exec (.mirrorFenceTimeout dt) s = .next b)
    ∧ (pairLinkUp s = true → gapFreeMajor s = true →
      (s.lnk.pair = .unsynced → s.lnk.fullCopy = true → exec (.standbySynced dt) s = .next { b with lnk.pair := .synced, lnk.missedCycle := false, lnk.markThis := true })
      ∧ (s.lnk.pair = .unsynced → s.lnk.fullCopy = false → exec (.standbySynced dt) s = .next b)
      ∧ (s.lnk.pair = .active → s.lnk.solo = false → exec (.standbySynced dt) s = .next { b with lnk.fencing := true }))
    ∧ ((pairLinkUp s = false ∨ gapFreeMajor s = false) → exec (.standbySynced dt) s = .next b)
    ∧ (s.pwr.phase = .running →
      (takeoverDue s = true → Yields (exec (.takeover dt) s) (fun t => t.lnk.pair = .active ∧ t.lnk.ramBuf = [] ∧ t.lnk.mark = none ∧ t.lnk.fencing = false
        ∧ t.lnk.copyAt = none ∧ t.prg.mode = s.prg.mode ∧ t.lat = s.lat ∧ t.tel = s.tel ∧ t.frc = s.frc ∧ t.fio = s.fio
        ∧ (s.xch.st ∈ [.armed, .draining, .exchanging] → t.xch.st = .idle ∧ t.vm.mapActive = s.vm.mapActive ∧ rf 0x070010 8 8 t = 0x15)
        ∧ (s.upd.act ∈ [.armed, .ready, .preparing] → t.upd.act = .idle)))
      ∧ (takeoverDue s = false → exec (.takeover dt) s = .next b))

/-- A voted register access whose address lies in the register region with a block index from 0x15 on delivers 0 if it reads, sets UNMAPPED and hands the recorder one NV_EVENT; no other register, and nothing else but the voted sequence number, changes. An RDREG or WRREG, and a voted register transaction, that names an address outside the region is a run-time trap, which halts the module. -/
def Obligations.UnmappedRegisterAccess : Prop :=
  ∀ (dt : Nat) (x : LaneTx) (w : VInstr) (s : State),
    (triadVotes s = true → 2 ≤ (litLanes s).length → regAddress x.addr.toNat = true → 0x15 ≤ bits x.addr.toNat 16 8 →
      (x.kind = .regRead → Yields (exec (.votedTransaction dt (allSee x)) s) (fun t =>
        WritesOnly [.sent, .tri, .regs, .evr] (begin' dt s) t ∧ t.sent = (begin' dt s).sent ++ [.read (leBytes 4 0)] ∧ t.tri = (seqVoted (begin' dt s)).tri
        ∧ RegsOnly [0x000008, 0x0F006C] s t ∧ rf 0x000008 1 1 t = 1 ∧ rf 0x000008 0 1 t = rf 0x000008 0 1 s
        ∧ Records [nvNow 0 0x0003 0 x.addr.toNat (begin' dt s)] s t))
      ∧ (x.kind = .regWrite → Yields (exec (.votedTransaction dt (allSee x)) s) (fun t =>
        WritesOnly [.tri, .regs, .evr] (begin' dt s) t ∧ t.tri = (seqVoted (begin' dt s)).tri
        ∧ RegsOnly [0x000008, 0x0F006C] s t ∧ rf 0x000008 1 1 t = 1 ∧ rf 0x000008 0 1 t = rf 0x000008 0 1 s
        ∧ Records [nvNow 0 0x0003 (leNat (x.data.take 4)) x.addr.toNat (begin' dt s)] s t)))
    ∧ (triadVotes s = true → 2 ≤ (litLanes s).length → mayHalt s → regAddress x.addr.toNat = false → (x.kind = .regRead ∨ x.kind = .regWrite) →
      Yields (exec (.votedTransaction dt (allSee x)) s) (fun t => Halted t ∧ Recorded 0x4402 s t ∧ t.sent.all (fun y => match y with | .read _ => false | _ => true) = true))
    ∧ (∀ v, Runs dt 1 w s → mayHalt s → slotRead (vlane w s) w.src1 0 (vstart dt w s) = .ok (vstart dt w s) v → regAddress v = false →
      Yields (exec (.vRdreg dt w) s) (fun t => Halted t ∧ Recorded 0x4402 s t) ∧ Yields (exec (.vWrreg dt w) s) (fun t => Halted t ∧ Recorded 0x4402 s t))

/-- A voted write to a register that holds a guarded bit, in whatever view and with whatever data, while the LOCK of its block is set, and any write to SYS_APP_ID after its first plain write, change nothing but LOCKVIOL, its count, and, where LOCKVIOL was clear, the address and data of this first violation; a LOCKVIOL record carries the address as issued and the data; the sequence number advances, so the write completes toward the lanes. An alias write to SYS_APP_ID before its first plain write changes nothing; its first plain write is taken. -/
def Obligations.LockViolations : Prop :=
  ∀ (dt : Nat) (x : LaneTx) (s : State), triadVotes s = true → 2 ≤ (litLanes s).length → regAddress x.addr.toNat = true → x.kind = .regWrite →
    bits x.addr.toNat 16 8 < 0x15 → blockOpen x.addr.toNat s = true →
    let k := regKey x.addr.toNat
    let d := leNat (x.data.take 4)
    (((guarded k = true ∧ locked k s = true) ∨ (k = 0x00001C ∧ rv appIdTaken s ≠ 0)) →
      Yields (exec (.votedTransaction dt (allSee x)) s) (fun t =>
        WritesOnly [.tri, .regs, .evr] (begin' dt s) t ∧ t.tri = (seqVoted (begin' dt s)).tri
        ∧ RegsOnly [0x000008, 0x00000C, 0x000010, 0x000014, 0x0F006C] s t ∧ rf 0x000008 0 1 t = 1 ∧ rf 0x000008 1 1 t = rf 0x000008 1 1 s
        ∧ rf 0x000014 0 16 t = sat 0xFFFF (rf 0x000014 0 16 s + 1)
        ∧ (rf 0x000008 0 1 s = 0 → rv 0x00000C t = x.addr.toNat ∧ rv 0x000010 t = d)
        ∧ (rf 0x000008 0 1 s = 1 → rv 0x00000C t = rv 0x00000C s ∧ rv 0x000010 t = rv 0x000010 s)
        ∧ Records [recNow 0x0005 [(8, x.addr.toNat), (4, d)] (begin' dt s)] s t))
    ∧ (k = 0x00001C → rv appIdTaken s = 0 → regView x.addr.toNat ≠ 0 →
      exec (.votedTransaction dt (allSee x)) s = .next (seqVoted (begin' dt s)))
    ∧ (k = 0x00001C → rv appIdTaken s = 0 → regView x.addr.toNat = 0 →
      Yields (exec (.votedTransaction dt (allSee x)) s) (fun t => WritesOnly [.tri, .regs] (begin' dt s) t ∧ RegsOnly [0x00001C, appIdTaken] s t
        ∧ rv 0x00001C t = d ∧ rv appIdTaken t ≠ 0))

/-- At every address that reaches it, whatever the ignored offset bits and bits 1:0, a voted write leaves a full-width RW register with the data, its OR, its AND NOT or its XOR by the view, and changes no other register. A plain write of SYS_ERR clears exactly the bits written as 1; a plain write with bit 31 to an unlocked CTL register of TASK, CVU or EVR sets LOCK, an alias write leaves LOCK as it is, whatever the block. A write to a register that has no RW, W1C, W1, LOCK or command bits changes nothing. -/
def Obligations.RegisterViewsAndAccessTypes : Prop :=
  ∀ (dt : Nat) (x : LaneTx) (s : State), triadVotes s = true → 2 ≤ (litLanes s).length → regAddress x.addr.toNat = true → x.kind = .regWrite →
    bits x.addr.toNat 16 8 < 0x15 → blockOpen x.addr.toNat s = true → s.lnk.pair ≠ .active →
    let k := regKey x.addr.toNat
    let d := leNat (x.data.take 4)
    (k ∈ [0x04000C, 0x070008, 0x090024, 0x090028, 0x090030, 0x0B0004, 0x0B0008, 0x0B0024, 0x0F0010, 0x0F0014] →
      Yields (exec (.votedTransaction dt (allSee x)) s) (fun t => WritesOnly [.tri, .regs] (begin' dt s) t ∧ RegsOnly [k] s t
        ∧ t.tri = (seqVoted (begin' dt s)).tri
        ∧ rv k t = (match bits x.addr.toNat 14 2 with
            | 0 => d | 1 => Nat.lor (rv k s) d | 2 => Nat.land (rv k s) (Nat.xor d 0xFFFFFFFF) | _ => Nat.xor (rv k s) d)))
    ∧ (k = 0x000008 → bits x.addr.toNat 14 2 = 0 → Yields (exec (.votedTransaction dt (allSee x)) s) (fun t =>
        WritesOnly [.tri, .regs] (begin' dt s) t ∧ RegsOnly [0x000008] s t
        ∧ (∀ i, bit (rv 0x000008 t) i = (bit (rv 0x000008 s) i && !(bit d i && decide (i < 2))))))
    ∧ (k = 0x000008 → bits x.addr.toNat 14 2 ≠ 0 → exec (.votedTransaction dt (allSee x)) s = .next (seqVoted (begin' dt s)))
    ∧ (k ∈ [0x040000, 0x0B0000, 0x0F0000] → locked k s = false → bits x.addr.toNat 14 2 = 0 →
        Yields (exec (.votedTransaction dt (allSee x)) s) (fun t => WritesOnly [.tri, .regs] (begin' dt s) t ∧ RegsOnly [k] s t
          ∧ locked k t = bit d 31 ∧ (∀ i, i < 31 → bit (rv k t) i = if bit (rwMask k) i then bit d i else bit (rv k s) i)))
    ∧ (k % 0x10000 = 0 → locked k s = false → bits x.addr.toNat 14 2 ≠ 0 →
        Yields (exec (.votedTransaction dt (allSee x)) s) (fun t => locked k t = false))
    ∧ (rwMask k = 0 → w1cMask k = 0 → k % 0x10000 ≠ 0 →
        k ∉ [0x000018, 0x00001C, 0x040008, 0x070004, 0x09002C, 0x0B000C, 0x0B0020, 0x0B0034, 0x0B0038, 0x0B003C, 0x0B0040, 0x0B0044, 0x0D0008, 0x0E0020, 0x0F000C, 0x100004] →
        exec (.votedTransaction dt (allSee x)) s = .next (seqVoted (begin' dt s)))
end

