-- ==== Sys2Proof/Laws/Keeps.lean ====
section
/-! SUPPORT. Frames. `Keeps m s t`: every field of the state that `m` marks is in `t` as in `s`; bit `i` of `m` stands for the `i`-th field of `State`. One lemma of this form per function of the model says once what it leaves alone. -/

namespace Sys2Proof.Machine

/-- `t` agrees with `s` in each field of `State` that `m` marks. -/
structure Keeps (m : Nat) (s t : State) : Prop where
  pending : m.testBit 0 = true → t.pending = s.pending
  sent : m.testBit 1 = true → t.sent = s.sent
  free : m.testBit 2 = true → t.free = s.free
  clk : m.testBit 3 = true → t.clk = s.clk
  civ : m.testBit 4 = true → t.civ = s.civ
  cand : m.testBit 5 = true → t.cand = s.cand
  pwr : m.testBit 6 = true → t.pwr = s.pwr
  tri : m.testBit 7 = true → t.tri = s.tri
  dbg : m.testBit 8 = true → t.dbg = s.dbg
  prg : m.testBit 9 = true → t.prg = s.prg
  frc : m.testBit 10 = true → t.frc = s.frc
  mem : m.testBit 11 = true → t.mem = s.mem
  vm : m.testBit 12 = true → t.vm = s.vm
  xch : m.testBit 13 = true → t.xch = s.xch
  regs : m.testBit 14 = true → t.regs = s.regs
  bus : m.testBit 15 = true → t.bus = s.bus
  tel : m.testBit 16 = true → t.tel = s.tel
  rings : m.testBit 17 = true → t.rings = s.rings
  lat : m.testBit 18 = true → t.lat = s.lat
  fio : m.testBit 19 = true → t.fio = s.fio
  snu : m.testBit 20 = true → t.snu = s.snu
  evr : m.testBit 21 = true → t.evr = s.evr
  sta : m.testBit 22 = true → t.sta = s.sta
  upd : m.testBit 23 = true → t.upd = s.upd
  lnk : m.testBit 24 = true → t.lnk = s.lnk
  cfg : m.testBit 25 = true → t.cfg = s.cfg

theorem Keeps.refl {m : Nat} {s : State} : Keeps m s s := by constructor <;> exact fun _ => rfl

theorem Keeps.trans {m : Nat} {s t u : State} (h : Keeps m s t) (k : Keeps m t u) : Keeps m s u where
  pending b := (k.pending b).trans (h.pending b)
  sent b := (k.sent b).trans (h.sent b)
  free b := (k.free b).trans (h.free b)
  clk b := (k.clk b).trans (h.clk b)
  civ b := (k.civ b).trans (h.civ b)
  cand b := (k.cand b).trans (h.cand b)
  pwr b := (k.pwr b).trans (h.pwr b)
  tri b := (k.tri b).trans (h.tri b)
  dbg b := (k.dbg b).trans (h.dbg b)
  prg b := (k.prg b).trans (h.prg b)
  frc b := (k.frc b).trans (h.frc b)
  mem b := (k.mem b).trans (h.mem b)
  vm b := (k.vm b).trans (h.vm b)
  xch b := (k.xch b).trans (h.xch b)
  regs b := (k.regs b).trans (h.regs b)
  bus b := (k.bus b).trans (h.bus b)
  tel b := (k.tel b).trans (h.tel b)
  rings b := (k.rings b).trans (h.rings b)
  lat b := (k.lat b).trans (h.lat b)
  fio b := (k.fio b).trans (h.fio b)
  snu b := (k.snu b).trans (h.snu b)
  evr b := (k.evr b).trans (h.evr b)
  sta b := (k.sta b).trans (h.sta b)
  upd b := (k.upd b).trans (h.upd b)
  lnk b := (k.lnk b).trans (h.lnk b)
  cfg b := (k.cfg b).trans (h.cfg b)

theorem testBit_of_land {m n i : Nat} (h : m &&& n = m) (b : m.testBit i = true) : n.testBit i = true := by
  rw [← h, Nat.testBit_and] at b
  simp at b
  exact b.2

theorem bit_false {m n i : Nat} (h : m &&& n = m) (b : n.testBit i = false) : m.testBit i = false := by
  cases k : m.testBit i with
  | false => rfl
  | true => exact (testBit_of_land h k).symm.trans b

theorem noBit {m i : Nat} {p : Prop} (h : m.testBit i = true) (k : m.testBit i = false) : p := absurd (h.symm.trans k) Bool.noConfusion

theorem land_le {m k n : Nat} (h : m &&& k = m) (j : k &&& n = k) : m &&& n = m := by
  rw [← h, Nat.and_assoc, j]

theorem Keeps.mono {m n : Nat} {s t : State} (k : Keeps n s t) (h : m &&& n = m) : Keeps m s t where
  pending b := k.pending (testBit_of_land h b)
  sent b := k.sent (testBit_of_land h b)
  free b := k.free (testBit_of_land h b)
  clk b := k.clk (testBit_of_land h b)
  civ b := k.civ (testBit_of_land h b)
  cand b := k.cand (testBit_of_land h b)
  pwr b := k.pwr (testBit_of_land h b)
  tri b := k.tri (testBit_of_land h b)
  dbg b := k.dbg (testBit_of_land h b)
  prg b := k.prg (testBit_of_land h b)
  frc b := k.frc (testBit_of_land h b)
  mem b := k.mem (testBit_of_land h b)
  vm b := k.vm (testBit_of_land h b)
  xch b := k.xch (testBit_of_land h b)
  regs b := k.regs (testBit_of_land h b)
  bus b := k.bus (testBit_of_land h b)
  tel b := k.tel (testBit_of_land h b)
  rings b := k.rings (testBit_of_land h b)
  lat b := k.lat (testBit_of_land h b)
  fio b := k.fio (testBit_of_land h b)
  snu b := k.snu (testBit_of_land h b)
  evr b := k.evr (testBit_of_land h b)
  sta b := k.sta (testBit_of_land h b)
  upd b := k.upd (testBit_of_land h b)
  lnk b := k.lnk (testBit_of_land h b)
  cfg b := k.cfg (testBit_of_land h b)

/-- One more function applied: it keeps `n`, which covers `m`. -/
theorem Keeps.step {m n : Nat} {s t u : State} (k : Keeps n t u) (h : m &&& n = m) (j : Keeps m s t) : Keeps m s u := j.trans (k.mono h)

/-- The same for a function known to keep `m` itself. -/
theorem Keeps.app {m : Nat} {s t u : State} (k : Keeps m t u) (j : Keeps m s t) : Keeps m s u := j.trans k

/-! Writing one field keeps every mask without that field's bit. -/

theorem wr_pending {m : Nat} {s : State} {v} (k : m.testBit 0 = false) : Keeps m s { s with pending := v } := ⟨fun h => noBit h k, fun _ => rfl, fun _ => rfl, fun _ => rfl, fun _ => rfl, fun _ => rfl, fun _ => rfl, fun _ => rfl, fun _ => rfl, fun _ => rfl, fun _ => rfl, fun _ => rfl, fun _ => rfl, fun _ => rfl, fun _ => rfl, fun _ => rfl, fun _ => rfl, fun _ => rfl, fun _ => rfl, fun _ => rfl, fun _ => rfl, fun _ => rfl, fun _ => rfl, fun _ => rfl, fun _ => rfl, fun _ => rfl⟩

theorem wr_sent {m : Nat} {s : State} {v} (k : m.testBit 1 = false) : Keeps m s { s with sent := v } := ⟨fun _ => rfl, fun h => noBit h k, fun _ => rfl, fun _ => rfl, fun _ => rfl, fun _ => rfl, fun _ => rfl, fun _ => rfl, fun _ => rfl, fun _ => rfl, fun _ => rfl, fun _ => rfl, fun _ => rfl, fun _ => rfl, fun _ => rfl, fun _ => rfl, fun _ => rfl, fun _ => rfl, fun _ => rfl, fun _ => rfl, fun _ => rfl, fun _ => rfl, fun _ => rfl, fun _ => rfl, fun _ => rfl, fun _ => rfl⟩

theorem wr_free {m : Nat} {s : State} {v} (k : m.testBit 2 = false) : Keeps m s { s with free := v } := ⟨fun _ => rfl, fun _ => rfl, fun h => noBit h k, fun _ => rfl, fun _ => rfl, fun _ => rfl, fun _ => rfl, fun _ => rfl, fun _ => rfl, fun _ => rfl, fun _ => rfl, fun _ => rfl, fun _ => rfl, fun _ => rfl, fun _ => rfl, fun _ => rfl, fun _ => rfl, fun _ => rfl, fun _ => rfl, fun _ => rfl, fun _ => rfl, fun _ => rfl, fun _ => rfl, fun _ => rfl, fun _ => rfl, fun _ => rfl⟩

theorem wr_clk {m : Nat} {s : State} {v} (k : m.testBit 3 = false) : Keeps m s { s with clk := v } := ⟨fun _ => rfl, fun _ => rfl, fun _ => rfl, fun h => noBit h k, fun _ => rfl, fun _ => rfl, fun _ => rfl, fun _ => rfl, fun _ => rfl, fun _ => rfl, fun _ => rfl, fun _ => rfl, fun _ => rfl, fun _ => rfl, fun _ => rfl, fun _ => rfl, fun _ => rfl, fun _ => rfl, fun _ => rfl, fun _ => rfl, fun _ => rfl, fun _ => rfl, fun _ => rfl, fun _ => rfl, fun _ => rfl, fun _ => rfl⟩

theorem wr_civ {m : Nat} {s : State} {v} (k : m.testBit 4 = false) : Keeps m s { s with civ := v } := ⟨fun _ => rfl, fun _ => rfl, fun _ => rfl, fun _ => rfl, fun h => noBit h k, fun _ => rfl, fun _ => rfl, fun _ => rfl, fun _ => rfl, fun _ => rfl, fun _ => rfl, fun _ => rfl, fun _ => rfl, fun _ => rfl, fun _ => rfl, fun _ => rfl, fun _ => rfl, fun _ => rfl, fun _ => rfl, fun _ => rfl, fun _ => rfl, fun _ => rfl, fun _ => rfl, fun _ => rfl, fun _ => rfl, fun _ => rfl⟩

theorem wr_cand {m : Nat} {s : State} {v} (k : m.testBit 5 = false) : Keeps m s { s with cand := v } := ⟨fun _ => rfl, fun _ => rfl, fun _ => rfl, fun _ => rfl, fun _ => rfl, fun h => noBit h k, fun _ => rfl, fun _ => rfl, fun _ => rfl, fun _ => rfl, fun _ => rfl, fun _ => rfl, fun _ => rfl, fun _ => rfl, fun _ => rfl, fun _ => rfl, fun _ => rfl, fun _ => rfl, fun _ => rfl, fun _ => rfl, fun _ => rfl, fun _ => rfl, fun _ => rfl, fun _ => rfl, fun _ => rfl, fun _ => rfl⟩

theorem wr_pwr {m : Nat} {s : State} {v} (k : m.testBit 6 = false) : Keeps m s { s with pwr := v } := ⟨fun _ => rfl, fun _ => rfl, fun _ => rfl, fun _ => rfl, fun _ => rfl, fun _ => rfl, fun h => noBit h k, fun _ => rfl, fun _ => rfl, fun _ => rfl, fun _ => rfl, fun _ => rfl, fun _ => rfl, fun _ => rfl, fun _ => rfl, fun _ => rfl, fun _ => rfl, fun _ => rfl, fun _ => rfl, fun _ => rfl, fun _ => rfl, fun _ => rfl, fun _ => rfl, fun _ => rfl, fun _ => rfl, fun _ => rfl⟩

theorem wr_tri {m : Nat} {s : State} {v} (k : m.testBit 7 = false) : Keeps m s { s with tri := v } := ⟨fun _ => rfl, fun _ => rfl, fun _ => rfl, fun _ => rfl, fun _ => rfl, fun _ => rfl, fun _ => rfl, fun h => noBit h k, fun _ => rfl, fun _ => rfl, fun _ => rfl, fun _ => rfl, fun _ => rfl, fun _ => rfl, fun _ => rfl, fun _ => rfl, fun _ => rfl, fun _ => rfl, fun _ => rfl, fun _ => rfl, fun _ => rfl, fun _ => rfl, fun _ => rfl, fun _ => rfl, fun _ => rfl, fun _ => rfl⟩

theorem wr_dbg {m : Nat} {s : State} {v} (k : m.testBit 8 = false) : Keeps m s { s with dbg := v } := ⟨fun _ => rfl, fun _ => rfl, fun _ => rfl, fun _ => rfl, fun _ => rfl, fun _ => rfl, fun _ => rfl, fun _ => rfl, fun h => noBit h k, fun _ => rfl, fun _ => rfl, fun _ => rfl, fun _ => rfl, fun _ => rfl, fun _ => rfl, fun _ => rfl, fun _ => rfl, fun _ => rfl, fun _ => rfl, fun _ => rfl, fun _ => rfl, fun _ => rfl, fun _ => rfl, fun _ => rfl, fun _ => rfl, fun _ => rfl⟩

theorem wr_prg {m : Nat} {s : State} {v} (k : m.testBit 9 = false) : Keeps m s { s with prg := v } := ⟨fun _ => rfl, fun _ => rfl, fun _ => rfl, fun _ => rfl, fun _ => rfl, fun _ => rfl, fun _ => rfl, fun _ => rfl, fun _ => rfl, fun h => noBit h k, fun _ => rfl, fun _ => rfl, fun _ => rfl, fun _ => rfl, fun _ => rfl, fun _ => rfl, fun _ => rfl, fun _ => rfl, fun _ => rfl, fun _ => rfl, fun _ => rfl, fun _ => rfl, fun _ => rfl, fun _ => rfl, fun _ => rfl, fun _ => rfl⟩

theorem wr_frc {m : Nat} {s : State} {v} (k : m.testBit 10 = false) : Keeps m s { s with frc := v } := ⟨fun _ => rfl, fun _ => rfl, fun _ => rfl, fun _ => rfl, fun _ => rfl, fun _ => rfl, fun _ => rfl, fun _ => rfl, fun _ => rfl, fun _ => rfl, fun h => noBit h k, fun _ => rfl, fun _ => rfl, fun _ => rfl, fun _ => rfl, fun _ => rfl, fun _ => rfl, fun _ => rfl, fun _ => rfl, fun _ => rfl, fun _ => rfl, fun _ => rfl, fun _ => rfl, fun _ => rfl, fun _ => rfl, fun _ => rfl⟩

theorem wr_mem {m : Nat} {s : State} {v} (k : m.testBit 11 = false) : Keeps m s { s with mem := v } := ⟨fun _ => rfl, fun _ => rfl, fun _ => rfl, fun _ => rfl, fun _ => rfl, fun _ => rfl, fun _ => rfl, fun _ => rfl, fun _ => rfl, fun _ => rfl, fun _ => rfl, fun h => noBit h k, fun _ => rfl, fun _ => rfl, fun _ => rfl, fun _ => rfl, fun _ => rfl, fun _ => rfl, fun _ => rfl, fun _ => rfl, fun _ => rfl, fun _ => rfl, fun _ => rfl, fun _ => rfl, fun _ => rfl, fun _ => rfl⟩

theorem wr_vm {m : Nat} {s : State} {v} (k : m.testBit 12 = false) : Keeps m s { s with vm := v } := ⟨fun _ => rfl, fun _ => rfl, fun _ => rfl, fun _ => rfl, fun _ => rfl, fun _ => rfl, fun _ => rfl, fun _ => rfl, fun _ => rfl, fun _ => rfl, fun _ => rfl, fun _ => rfl, fun h => noBit h k, fun _ => rfl, fun _ => rfl, fun _ => rfl, fun _ => rfl, fun _ => rfl, fun _ => rfl, fun _ => rfl, fun _ => rfl, fun _ => rfl, fun _ => rfl, fun _ => rfl, fun _ => rfl, fun _ => rfl⟩

theorem wr_xch {m : Nat} {s : State} {v} (k : m.testBit 13 = false) : Keeps m s { s with xch := v } := ⟨fun _ => rfl, fun _ => rfl, fun _ => rfl, fun _ => rfl, fun _ => rfl, fun _ => rfl, fun _ => rfl, fun _ => rfl, fun _ => rfl, fun _ => rfl, fun _ => rfl, fun _ => rfl, fun _ => rfl, fun h => noBit h k, fun _ => rfl, fun _ => rfl, fun _ => rfl, fun _ => rfl, fun _ => rfl, fun _ => rfl, fun _ => rfl, fun _ => rfl, fun _ => rfl, fun _ => rfl, fun _ => rfl, fun _ => rfl⟩

theorem wr_regs {m : Nat} {s : State} {v} (k : m.testBit 14 = false) : Keeps m s { s with regs := v } := ⟨fun _ => rfl, fun _ => rfl, fun _ => rfl, fun _ => rfl, fun _ => rfl, fun _ => rfl, fun _ => rfl, fun _ => rfl, fun _ => rfl, fun _ => rfl, fun _ => rfl, fun _ => rfl, fun _ => rfl, fun _ => rfl, fun h => noBit h k, fun _ => rfl, fun _ => rfl, fun _ => rfl, fun _ => rfl, fun _ => rfl, fun _ => rfl, fun _ => rfl, fun _ => rfl, fun _ => rfl, fun _ => rfl, fun _ => rfl⟩

theorem wr_bus {m : Nat} {s : State} {v} (k : m.testBit 15 = false) : Keeps m s { s with bus := v } := ⟨fun _ => rfl, fun _ => rfl, fun _ => rfl, fun _ => rfl, fun _ => rfl, fun _ => rfl, fun _ => rfl, fun _ => rfl, fun _ => rfl, fun _ => rfl, fun _ => rfl, fun _ => rfl, fun _ => rfl, fun _ => rfl, fun _ => rfl, fun h => noBit h k, fun _ => rfl, fun _ => rfl, fun _ => rfl, fun _ => rfl, fun _ => rfl, fun _ => rfl, fun _ => rfl, fun _ => rfl, fun _ => rfl, fun _ => rfl⟩

theorem wr_tel {m : Nat} {s : State} {v} (k : m.testBit 16 = false) : Keeps m s { s with tel := v } := ⟨fun _ => rfl, fun _ => rfl, fun _ => rfl, fun _ => rfl, fun _ => rfl, fun _ => rfl, fun _ => rfl, fun _ => rfl, fun _ => rfl, fun _ => rfl, fun _ => rfl, fun _ => rfl, fun _ => rfl, fun _ => rfl, fun _ => rfl, fun _ => rfl, fun h => noBit h k, fun _ => rfl, fun _ => rfl, fun _ => rfl, fun _ => rfl, fun _ => rfl, fun _ => rfl, fun _ => rfl, fun _ => rfl, fun _ => rfl⟩

theorem wr_rings {m : Nat} {s : State} {v} (k : m.testBit 17 = false) : Keeps m s { s with rings := v } := ⟨fun _ => rfl, fun _ => rfl, fun _ => rfl, fun _ => rfl, fun _ => rfl, fun _ => rfl, fun _ => rfl, fun _ => rfl, fun _ => rfl, fun _ => rfl, fun _ => rfl, fun _ => rfl, fun _ => rfl, fun _ => rfl, fun _ => rfl, fun _ => rfl, fun _ => rfl, fun h => noBit h k, fun _ => rfl, fun _ => rfl, fun _ => rfl, fun _ => rfl, fun _ => rfl, fun _ => rfl, fun _ => rfl, fun _ => rfl⟩

theorem wr_lat {m : Nat} {s : State} {v} (k : m.testBit 18 = false) : Keeps m s { s with lat := v } := ⟨fun _ => rfl, fun _ => rfl, fun _ => rfl, fun _ => rfl, fun _ => rfl, fun _ => rfl, fun _ => rfl, fun _ => rfl, fun _ => rfl, fun _ => rfl, fun _ => rfl, fun _ => rfl, fun _ => rfl, fun _ => rfl, fun _ => rfl, fun _ => rfl, fun _ => rfl, fun _ => rfl, fun h => noBit h k, fun _ => rfl, fun _ => rfl, fun _ => rfl, fun _ => rfl, fun _ => rfl, fun _ => rfl, fun _ => rfl⟩

theorem wr_fio {m : Nat} {s : State} {v} (k : m.testBit 19 = false) : Keeps m s { s with fio := v } := ⟨fun _ => rfl, fun _ => rfl, fun _ => rfl, fun _ => rfl, fun _ => rfl, fun _ => rfl, fun _ => rfl, fun _ => rfl, fun _ => rfl, fun _ => rfl, fun _ => rfl, fun _ => rfl, fun _ => rfl, fun _ => rfl, fun _ => rfl, fun _ => rfl, fun _ => rfl, fun _ => rfl, fun _ => rfl, fun h => noBit h k, fun _ => rfl, fun _ => rfl, fun _ => rfl, fun _ => rfl, fun _ => rfl, fun _ => rfl⟩

theorem wr_snu {m : Nat} {s : State} {v} (k : m.testBit 20 = false) : Keeps m s { s with snu := v } := ⟨fun _ => rfl, fun _ => rfl, fun _ => rfl, fun _ => rfl, fun _ => rfl, fun _ => rfl, fun _ => rfl, fun _ => rfl, fun _ => rfl, fun _ => rfl, fun _ => rfl, fun _ => rfl, fun _ => rfl, fun _ => rfl, fun _ => rfl, fun _ => rfl, fun _ => rfl, fun _ => rfl, fun _ => rfl, fun _ => rfl, fun h => noBit h k, fun _ => rfl, fun _ => rfl, fun _ => rfl, fun _ => rfl, fun _ => rfl⟩

theorem wr_evr {m : Nat} {s : State} {v} (k : m.testBit 21 = false) : Keeps m s { s with evr := v } := ⟨fun _ => rfl, fun _ => rfl, fun _ => rfl, fun _ => rfl, fun _ => rfl, fun _ => rfl, fun _ => rfl, fun _ => rfl, fun _ => rfl, fun _ => rfl, fun _ => rfl, fun _ => rfl, fun _ => rfl, fun _ => rfl, fun _ => rfl, fun _ => rfl, fun _ => rfl, fun _ => rfl, fun _ => rfl, fun _ => rfl, fun _ => rfl, fun h => noBit h k, fun _ => rfl, fun _ => rfl, fun _ => rfl, fun _ => rfl⟩

theorem wr_sta {m : Nat} {s : State} {v} (k : m.testBit 22 = false) : Keeps m s { s with sta := v } := ⟨fun _ => rfl, fun _ => rfl, fun _ => rfl, fun _ => rfl, fun _ => rfl, fun _ => rfl, fun _ => rfl, fun _ => rfl, fun _ => rfl, fun _ => rfl, fun _ => rfl, fun _ => rfl, fun _ => rfl, fun _ => rfl, fun _ => rfl, fun _ => rfl, fun _ => rfl, fun _ => rfl, fun _ => rfl, fun _ => rfl, fun _ => rfl, fun _ => rfl, fun h => noBit h k, fun _ => rfl, fun _ => rfl, fun _ => rfl⟩

theorem wr_upd {m : Nat} {s : State} {v} (k : m.testBit 23 = false) : Keeps m s { s with upd := v } := ⟨fun _ => rfl, fun _ => rfl, fun _ => rfl, fun _ => rfl, fun _ => rfl, fun _ => rfl, fun _ => rfl, fun _ => rfl, fun _ => rfl, fun _ => rfl, fun _ => rfl, fun _ => rfl, fun _ => rfl, fun _ => rfl, fun _ => rfl, fun _ => rfl, fun _ => rfl, fun _ => rfl, fun _ => rfl, fun _ => rfl, fun _ => rfl, fun _ => rfl, fun _ => rfl, fun h => noBit h k, fun _ => rfl, fun _ => rfl⟩

theorem wr_lnk {m : Nat} {s : State} {v} (k : m.testBit 24 = false) : Keeps m s { s with lnk := v } := ⟨fun _ => rfl, fun _ => rfl, fun _ => rfl, fun _ => rfl, fun _ => rfl, fun _ => rfl, fun _ => rfl, fun _ => rfl, fun _ => rfl, fun _ => rfl, fun _ => rfl, fun _ => rfl, fun _ => rfl, fun _ => rfl, fun _ => rfl, fun _ => rfl, fun _ => rfl, fun _ => rfl, fun _ => rfl, fun _ => rfl, fun _ => rfl, fun _ => rfl, fun _ => rfl, fun _ => rfl, fun h => noBit h k, fun _ => rfl⟩

theorem wr_cfg {m : Nat} {s : State} {v} (k : m.testBit 25 = false) : Keeps m s { s with cfg := v } := ⟨fun _ => rfl, fun _ => rfl, fun _ => rfl, fun _ => rfl, fun _ => rfl, fun _ => rfl, fun _ => rfl, fun _ => rfl, fun _ => rfl, fun _ => rfl, fun _ => rfl, fun _ => rfl, fun _ => rfl, fun _ => rfl, fun _ => rfl, fun _ => rfl, fun _ => rfl, fun _ => rfl, fun _ => rfl, fun _ => rfl, fun _ => rfl, fun _ => rfl, fun _ => rfl, fun _ => rfl, fun _ => rfl, fun h => noBit h k⟩

/-! Choices, pairs and folds. -/

theorem Keeps.ite {m : Nat} {s a b : State} {c : Prop} [Decidable c] (h : Keeps m s a) (k : Keeps m s b) : Keeps m s (if c then a else b) := by
  split
  · exact h
  · exact k

theorem Keeps.ite1 {α : Type} {m : Nat} {s : State} {a b : State × α} {c : Prop} [Decidable c] (h : Keeps m s a.1) (k : Keeps m s b.1) : Keeps m s (if c then a else b).1 := by
  split
  · exact h
  · exact k

theorem Keeps.ite2 {α : Type} {m : Nat} {s : State} {a b : α × State} {c : Prop} [Decidable c] (h : Keeps m s a.2) (k : Keeps m s b.2) : Keeps m s (if c then a else b).2 := by
  split
  · exact h
  · exact k

theorem Keeps.mkFst {α : Type} {m : Nat} {s a : State} {b : α} (h : Keeps m s a) : Keeps m s (a, b).1 := h

theorem Keeps.mkSnd {α : Type} {m : Nat} {s a : State} {b : α} (h : Keeps m s a) : Keeps m s (b, a).2 := h

theorem Keeps.fst {α : Type} {m : Nat} {s t : State} {v : α} {p : State × α} (h : Keeps m s p.1) (e : p = (t, v)) : Keeps m s t := by
  rw [e] at h
  exact h

theorem Keeps.snd {α : Type} {m : Nat} {s t : State} {v : α} {p : α × State} (h : Keeps m s p.2) (e : p = (v, t)) : Keeps m s t := by
  rw [e] at h
  exact h

theorem Keeps.foldl {α : Type} {m : Nat} {s : State} {f : State → α → State} (hf : ∀ t x, Keeps m t (f t x)) :
    ∀ (l : List α) {i : State}, Keeps m s i → Keeps m s (l.foldl f i)
  | [], _, h => h
  | x :: l, _, h => Keeps.foldl hf l (h.trans (hf _ x))

theorem Keeps.foldl1 {α β : Type} {m : Nat} {s : State} {f : State × β → α → State × β} (hf : ∀ p x, Keeps m p.1 (f p x).1) :
    ∀ (l : List α) {i : State × β}, Keeps m s i.1 → Keeps m s (l.foldl f i).1
  | [], _, h => h
  | x :: l, i, h => Keeps.foldl1 hf l (h.trans (hf i x))

theorem Keeps.foldl2 {α β : Type} {m : Nat} {s : State} {f : β × State → α → β × State} (hf : ∀ p x, Keeps m p.2 (f p x).2) :
    ∀ (l : List α) {i : β × State}, Keeps m s i.2 → Keeps m s (l.foldl f i).2
  | [], _, h => h
  | x :: l, i, h => Keeps.foldl2 hf l (h.trans (hf i x))

/-! ### Operand and operation outcomes, optional results, answers -/

/-- `Keeps` for the state in an outcome of an operand or an operation. -/
def KeepsE (m : Nat) (s : State) : Ev → Prop
  | .ok t _ => Keeps m s t
  | .trap _ t => Keeps m s t

theorem KeepsE.ok {m : Nat} {s t : State} {v : Nat} (h : Keeps m s t) : KeepsE m s (.ok t v) := h

theorem KeepsE.trap {m : Nat} {s t : State} {c : TrapCause} (h : Keeps m s t) : KeepsE m s (.trap c t) := h

theorem KeepsE.ofOk {m : Nat} {s t : State} {v : Nat} {e : Ev} (h : KeepsE m s e) (q : e = .ok t v) : Keeps m s t := by
  rw [q] at h
  exact h

theorem KeepsE.ofTrap {m : Nat} {s t : State} {c : TrapCause} {e : Ev} (h : KeepsE m s e) (q : e = .trap c t) : Keeps m s t := by
  rw [q] at h
  exact h

theorem KeepsE.ite {m : Nat} {s : State} {a b : Ev} {c : Prop} [Decidable c] (h : KeepsE m s a) (k : KeepsE m s b) : KeepsE m s (if c then a else b) := by
  split
  · exact h
  · exact k

theorem KeepsE.step {m n : Nat} {s t : State} {e : Ev} (k : KeepsE n t e) (h : m &&& n = m) (j : Keeps m s t) : KeepsE m s e := by
  cases e with
  | ok u v => exact Keeps.step k h j
  | trap c u => exact Keeps.step k h j

theorem KeepsE.app {m : Nat} {s t : State} {e : Ev} (k : KeepsE m t e) (j : Keeps m s t) : KeepsE m s e := KeepsE.step k (Nat.and_self m) j

theorem KeepsE.bind {m : Nat} {s : State} {e : Ev} {f : State → Nat → Ev} (h : KeepsE m s e) (hf : ∀ t v, KeepsE m t (f t v)) : KeepsE m s (e.bind f) := by
  cases e with
  | trap c u => exact h
  | ok u v =>
    simp only [Ev.bind]
    split
    · exact h
    · exact KeepsE.app (hf u v) h

/-- `Keeps` for the state in a result that may be absent. -/
def KeepsS {α : Type} (m : Nat) (s : State) : Option (α × State) → Prop
  | some p => Keeps m s p.2
  | none => True

theorem KeepsS.some {α : Type} {m : Nat} {s : State} {p : α × State} (h : Keeps m s p.2) : KeepsS m s (some p) := h

theorem KeepsS.elim {α : Type} {m : Nat} {s t : State} {v : α} {o : Option (α × State)} (h : KeepsS m s o) (q : o = Option.some (v, t)) : Keeps m s t := by
  rw [q] at h
  exact h

theorem KeepsS.step {α : Type} {m n : Nat} {s t : State} {o : Option (α × State)} (k : KeepsS n t o) (h : m &&& n = m) (j : Keeps m s t) : KeepsS m s o := by
  cases o with
  | none => trivial
  | some p => exact Keeps.step k h j

theorem KeepsS.ite {α : Type} {m : Nat} {s : State} {a b : Option (α × State)} {c : Prop} [Decidable c] (h : KeepsS m s a) (k : KeepsS m s b) :
    KeepsS m s (if c then a else b) := by
  split
  · exact h
  · exact k

/-- The same for a result of two values. -/
def KeepsS3 {α β : Type} (m : Nat) (s : State) : Option (α × β × State) → Prop
  | some p => Keeps m s p.2.2
  | none => True

theorem KeepsS3.some {α β : Type} {m : Nat} {s t : State} {v : α} {w : β} (h : Keeps m s t) : KeepsS3 m s (some (v, w, t)) := h

theorem KeepsS3.elim {α β : Type} {m : Nat} {s t : State} {v : α} {w : β} {o : Option (α × β × State)} (h : KeepsS3 m s o) (q : o = Option.some (v, w, t)) : Keeps m s t := by
  rw [q] at h
  exact h

theorem KeepsS3.step {α β : Type} {m n : Nat} {s t : State} {o : Option (α × β × State)} (k : KeepsS3 n t o) (h : m &&& n = m) (j : Keeps m s t) : KeepsS3 m s o := by
  cases o with
  | none => trivial
  | some p => exact Keeps.step k h j

/-- `Keeps` for the state in a result or in the error that stands for it. -/
def KeepsX {ε α : Type} (m : Nat) (s : State) : Except (ε × State) (α × State) → Prop
  | .ok p => Keeps m s p.2
  | .error p => Keeps m s p.2

theorem KeepsX.ok {ε α : Type} {m : Nat} {s : State} {p : α × State} (h : Keeps m s p.2) : KeepsX m s (Except.ok p : Except (ε × State) (α × State)) := h

theorem KeepsX.error {ε α : Type} {m : Nat} {s : State} {p : ε × State} (h : Keeps m s p.2) : KeepsX m s (Except.error p : Except (ε × State) (α × State)) := h

theorem KeepsX.ofOk {ε α : Type} {m : Nat} {s t : State} {v : α} {e : Except (ε × State) (α × State)} (h : KeepsX m s e) (q : e = .ok (v, t)) : Keeps m s t := by
  rw [q] at h
  exact h

theorem KeepsX.ofError {ε α : Type} {m : Nat} {s t : State} {v : ε} {e : Except (ε × State) (α × State)} (h : KeepsX m s e) (q : e = .error (v, t)) : Keeps m s t := by
  rw [q] at h
  exact h

theorem KeepsX.step {ε α : Type} {m n : Nat} {s t : State} {e : Except (ε × State) (α × State)} (k : KeepsX n t e) (h : m &&& n = m) (j : Keeps m s t) : KeepsX m s e := by
  cases e with
  | ok p => exact Keeps.step k h j
  | error p => exact Keeps.step k h j

theorem KeepsX.app {ε α : Type} {m : Nat} {s t : State} {e : Except (ε × State) (α × State)} (k : KeepsX m t e) (j : Keeps m s t) : KeepsX m s e :=
  KeepsX.step k (Nat.and_self m) j

/-- The command answers a next state, and that state keeps `m`. -/
def Answers (m : Nat) (s : State) (o : Host.Outcome State Fault Refusal) : Prop := ∃ t, o = .next t ∧ Keeps m s t

theorem Answers.next {m : Nat} {s t : State} (h : Keeps m s t) : Answers m s (.next t) := ⟨t, rfl, h⟩

theorem Answers.ite {m : Nat} {s : State} {a b : Host.Outcome State Fault Refusal} {c : Prop} [Decidable c] (h : Answers m s a) (k : Answers m s b) :
    Answers m s (if c then a else b) := by
  split
  · exact h
  · exact k

end Sys2Proof.Machine
end

