-- ==== Sys2Proof/Laws/Mem.lean ====
section
/-! SUPPORT. Memory: the canonical form is kept by every memory operation, and read after write (R3, R17). -/

namespace Sys2Proof.Machine

theorem memWfFrom_mono {lo lo' : Nat} (h : lo' ≤ lo) : ∀ {m : List Host.Cell}, memWfFrom lo m = true → memWfFrom lo' m = true
  | [], _ => rfl
  | (b, w) :: t, hw => by
    simp only [memWfFrom, Bool.and_eq_true, decide_eq_true_eq] at hw ⊢
    exact ⟨⟨Nat.le_trans h hw.1.1, hw.1.2⟩, hw.2⟩

theorem memCons_wf {lo a : Nat} {v : Byte} {t : List Host.Cell} (hl : lo ≤ a) (h : memWfFrom (a + 1) t = true) :
    memWfFrom lo (memCons a v t) = true := by
  unfold memCons
  split
  · exact memWfFrom_mono (by omega) h
  · simp [memWfFrom, *]

theorem memSet_wfFrom {lo a : Nat} {v : Byte} (hl : lo ≤ a) : ∀ {m : List Host.Cell}, memWfFrom lo m = true → memWfFrom lo (memSet a v m) = true
  | [], _ => memCons_wf hl rfl
  | (b, w) :: t, hw => by
    simp only [memWfFrom, Bool.and_eq_true, decide_eq_true_eq] at hw
    unfold memSet
    split
    · subst_vars
      exact memCons_wf hw.1.1 hw.2
    · split
      · refine memCons_wf hl ?_
        simp [memWfFrom, hw]
        omega
      · simp only [memWfFrom, Bool.and_eq_true, decide_eq_true_eq]
        exact ⟨hw.1, memSet_wfFrom (by omega) hw.2⟩

/-- Storing one byte keeps the canonical form. -/
theorem memSet_wf {a : Nat} {v : Byte} {m : List Host.Cell} (h : Memory.wf m = true) : Memory.wf (memSet a v m) = true :=
  memSet_wfFrom (Nat.zero_le a) h

/-- Storing a byte string keeps it. -/
theorem memSetList_wf : ∀ {l : List Byte} {a : Nat} {m : List Host.Cell}, Memory.wf m = true → Memory.wf (memSetList a l m) = true
  | [], _, _, h => h
  | v :: t, a, m, h => by
    rw [memSetList]
    exact memSetList_wf (memSet_wf h)

theorem memFilter_wfFrom (f : Host.Cell → Bool) : ∀ {lo : Nat} {m : List Host.Cell}, memWfFrom lo m = true → memWfFrom lo (m.filter f) = true
  | _, [], _ => rfl
  | lo, (b, w) :: t, hw => by
    simp only [memWfFrom, Bool.and_eq_true, decide_eq_true_eq] at hw
    simp only [List.filter_cons]
    split
    · simp only [memWfFrom, Bool.and_eq_true, decide_eq_true_eq]
      exact ⟨hw.1, memFilter_wfFrom f hw.2⟩
    · exact memWfFrom_mono (by omega) (memFilter_wfFrom f hw.2)

/-- Erasing a range keeps it. -/
theorem memErase_wf {lo hi : Nat} {m : List Host.Cell} (h : Memory.wf m = true) : Memory.wf (memErase lo hi m) = true :=
  memFilter_wfFrom _ h

/-- So does cutting a range out. -/
theorem memSlice_wf {lo hi : Nat} {m : List Host.Cell} (h : Memory.wf m = true) : Memory.wf (memSlice lo hi m) = true :=
  memFilter_wfFrom _ h

/-- A store to vital RAM keeps it. -/
theorem storeBytes_wf {a : Nat} {l : List Byte} {m : List Host.Cell} (h : Memory.wf m = true) : Memory.wf (storeBytes a l m) = true := by
  unfold storeBytes
  split <;> simp [memSetList_wf, h]

theorem memGet_lt {a : Nat} : ∀ {lo : Nat} {m : List Host.Cell}, memWfFrom lo m = true → a < lo → memGet a m = memDefault a
  | _, [], _, _ => rfl
  | lo, (b, w) :: t, hw, hl => by
    simp only [memWfFrom, Bool.and_eq_true, decide_eq_true_eq] at hw
    simp only [memGet]
    rw [if_neg (by omega), if_pos (by omega)]

theorem memGet_memCons_same {lo a : Nat} {v : Byte} {t : List Host.Cell} (h : memWfFrom lo t = true) (hl : a < lo) :
    memGet a (memCons a v t) = v := by
  unfold memCons
  split
  · rename_i hv; rw [memGet_lt h hl, hv]
  · simp [memGet]

theorem memGet_memCons_other {lo a b : Nat} {v : Byte} {t : List Host.Cell} (h : memWfFrom lo t = true) (hl : a < lo) (hb : b ≠ a) :
    memGet b (memCons a v t) = memGet b t := by
  unfold memCons
  split
  · rfl
  · simp only [memGet]
    rw [if_neg (fun e => hb e.symm)]
    split
    · rename_i hlt; rw [memGet_lt h (by omega)]
    · rfl

theorem memGet_memSet_sameFrom {a : Nat} {v : Byte} : ∀ {lo : Nat} {m : List Host.Cell}, memWfFrom lo m = true → memGet a (memSet a v m) = v
  | _, [], _ => memGet_memCons_same (lo := a + 1) rfl (by omega)
  | lo, (b, w) :: t, hw => by
    simp only [memWfFrom, Bool.and_eq_true, decide_eq_true_eq] at hw
    unfold memSet
    split
    · subst_vars; exact memGet_memCons_same hw.2 (by omega)
    · split
      · rename_i hne hlt
        refine memGet_memCons_same (lo := b) ?_ hlt
        simp [memWfFrom, hw]
      · rename_i hne hlt
        simp only [memGet]
        rw [if_neg hne, if_neg hlt]
        exact memGet_memSet_sameFrom hw.2

theorem memGet_memSet_otherFrom {a b : Nat} {v : Byte} (hb : b ≠ a) : ∀ {lo : Nat} {m : List Host.Cell}, memWfFrom lo m = true → memGet b (memSet a v m) = memGet b m
  | _, [], _ => memGet_memCons_other (lo := a + 1) rfl (by omega) hb
  | lo, (c, w) :: t, hw => by
    simp only [memWfFrom, Bool.and_eq_true, decide_eq_true_eq] at hw
    unfold memSet
    split
    · rename_i hc
      subst hc
      rw [memGet_memCons_other hw.2 (by omega) hb]
      simp only [memGet]
      rw [if_neg (fun e => hb e.symm)]
      split
      · rw [memGet_lt hw.2 (by omega)]
      · rfl
    · split
      · rename_i hne hlt
        exact memGet_memCons_other (lo := c) (by simp [memWfFrom, hw]) hlt hb
      · simp only [memGet]
        split
        · rfl
        · split
          · rfl
          · exact memGet_memSet_otherFrom hb hw.2

/-- A read after a write to the same byte gives the value written. -/
theorem memGet_memSet_same {a : Nat} {v : Byte} {m : List Host.Cell} (h : Memory.wf m = true) : memGet a (memSet a v m) = v :=
  memGet_memSet_sameFrom h

/-- A write leaves every other byte alone. -/
theorem memGet_memSet_other {a b : Nat} {v : Byte} {m : List Host.Cell} (h : Memory.wf m = true) (hb : b ≠ a) :
    memGet b (memSet a v m) = memGet b m :=
  memGet_memSet_otherFrom hb h

/-- A byte string leaves every byte outside it alone. -/
theorem memGet_memSetList_other : ∀ {l : List Byte} {a b : Nat} {m : List Host.Cell}, Memory.wf m = true → b < a ∨ a + l.length ≤ b →
    memGet b (memSetList a l m) = memGet b m
  | [], _, _, _, _, _ => rfl
  | v :: t, a, b, m, h, hb => by
    simp only [List.length_cons] at hb
    rw [memSetList, memGet_memSetList_other (memSet_wf h) (by omega), memGet_memSet_other h (by omega)]

/-- A byte string reads back. -/
theorem memGet_memSetList : ∀ {l : List Byte} {a i : Nat} {m : List Host.Cell}, Memory.wf m = true → (hi : i < l.length) →
    memGet (a + i) (memSetList a l m) = l[i]
  | v :: t, a, 0, m, h, _ => by
    rw [memSetList, memGet_memSetList_other (memSet_wf h) (by omega)]
    simpa using memGet_memSet_same h
  | v :: t, a, i + 1, m, h, hi => by
    have := memGet_memSetList (l := t) (a := a + 1) (i := i) (memSet_wf (a := a) (v := v) h) (by simpa using hi)
    rw [memSetList, show a + (i + 1) = a + 1 + i by omega, this]
    rfl

end Sys2Proof.Machine
end

