-- ==== Sys2Proof/Laws/Inv.lean ====
section
/-! SUPPORT. The invariant `Inv`: how it passes through updates, choices, pairs, folds and functions that leave its parts alone. Bits 5, 10, 11, 18 and 21 of a mask are `cand`, `frc`, `mem`, `lat` and `evr`. -/

namespace Sys2Proof.Machine

/-- A function that leaves the five parts alone keeps the invariant. -/
theorem Inv.keep {n : Nat} {s t : State} (k : Keeps n s t) (b : 0x240C20 &&& n = 0x240C20) (h : Inv s) : Inv t where
  mem := by rw [k.mem (testBit_of_land b rfl)]; exact h.mem
  cand := by rw [k.cand (testBit_of_land b rfl)]; exact h.cand
  evr := by rw [k.evr (testBit_of_land b rfl)]; exact h.evr
  frc := by rw [k.frc (testBit_of_land b rfl)]; exact h.frc
  lat := by rw [k.lat (testBit_of_land b rfl)]; exact h.lat

theorem Inv.set_mem {t : State} {v} (k : Inv t → Memory.wf v = true) (h : Inv t) : Inv { t with mem := v } := ⟨k h, h.cand, h.evr, h.frc, h.lat⟩

theorem Inv.set_cand {t : State} {v : Candle} (k : Inv t → v.light.length ≤ 64) (h : Inv t) : Inv { t with cand := v } := ⟨h.mem, k h, h.evr, h.frc, h.lat⟩

theorem Inv.set_evr {t : State} {v : Recorder} (k : Inv t → v.queue.length ≤ 1024) (h : Inv t) : Inv { t with evr := v } := ⟨h.mem, h.cand, k h, h.frc, h.lat⟩

theorem Inv.set_frc {t : State} {v : Forces} (k : Inv t → v.table.length ≤ 256) (h : Inv t) : Inv { t with frc := v } := ⟨h.mem, h.cand, h.evr, k h, h.lat⟩

theorem Inv.set_lat {t : State} {v : Lat} (k : Inv t → v.updQ.length ≤ 64) (h : Inv t) : Inv { t with lat := v } := ⟨h.mem, h.cand, h.evr, h.frc, k h⟩

theorem Inv.ite {a b : State} {c : Prop} [Decidable c] (h : Inv a) (k : Inv b) : Inv (if c then a else b) := by
  split
  · exact h
  · exact k

theorem Inv.ite1 {α : Type} {a b : State × α} {c : Prop} [Decidable c] (h : Inv a.1) (k : Inv b.1) : Inv (if c then a else b).1 := by
  split
  · exact h
  · exact k

theorem Inv.ite2 {α : Type} {a b : α × State} {c : Prop} [Decidable c] (h : Inv a.2) (k : Inv b.2) : Inv (if c then a else b).2 := by
  split
  · exact h
  · exact k

theorem Inv.mkFst {α : Type} {a : State} {b : α} (h : Inv a) : Inv (a, b).1 := h

theorem Inv.mkSnd {α : Type} {a : State} {b : α} (h : Inv a) : Inv (b, a).2 := h

theorem Inv.fst {α : Type} {t : State} {v : α} {p : State × α} (h : Inv p.1) (e : p = (t, v)) : Inv t := by
  rw [e] at h
  exact h

theorem Inv.snd {α : Type} {t : State} {v : α} {p : α × State} (h : Inv p.2) (e : p = (v, t)) : Inv t := by
  rw [e] at h
  exact h

theorem Inv.foldl {α : Type} {f : State → α → State} (hf : ∀ t x, Inv t → Inv (f t x)) : ∀ (l : List α) {i : State}, Inv i → Inv (l.foldl f i)
  | [], _, h => h
  | x :: l, _, h => Inv.foldl hf l (hf _ x h)

theorem Inv.foldl1 {α β : Type} {f : State × β → α → State × β} (hf : ∀ p x, Inv p.1 → Inv (f p x).1) : ∀ (l : List α) {i : State × β}, Inv i.1 → Inv (l.foldl f i).1
  | [], _, h => h
  | x :: l, _, h => Inv.foldl1 hf l (hf _ x h)

theorem Inv.foldl2 {α β : Type} {f : β × State → α → β × State} (hf : ∀ p x, Inv p.2 → Inv (f p x).2) : ∀ (l : List α) {i : β × State}, Inv i.2 → Inv (l.foldl f i).2
  | [], _, h => h
  | x :: l, _, h => Inv.foldl2 hf l (hf _ x h)

/-! ### Outcomes -/

/-- The invariant of the state in an outcome of an operand or an operation. -/
def InvE : Ev → Prop
  | .ok t _ => Inv t
  | .trap _ t => Inv t

theorem InvE.ok {t : State} {v : Nat} (h : Inv t) : InvE (.ok t v) := h

theorem InvE.trap {t : State} {c : TrapCause} (h : Inv t) : InvE (.trap c t) := h

theorem InvE.ofOk {t : State} {v : Nat} {e : Ev} (h : InvE e) (q : e = .ok t v) : Inv t := by
  rw [q] at h
  exact h

theorem InvE.ofTrap {t : State} {c : TrapCause} {e : Ev} (h : InvE e) (q : e = .trap c t) : Inv t := by
  rw [q] at h
  exact h

theorem InvE.ite {a b : Ev} {c : Prop} [Decidable c] (h : InvE a) (k : InvE b) : InvE (if c then a else b) := by
  split
  · exact h
  · exact k

theorem InvE.keep {n : Nat} {s : State} {e : Ev} (k : KeepsE n s e) (b : 0x240C20 &&& n = 0x240C20) (h : Inv s) : InvE e := by
  cases e with
  | ok u v => exact Inv.keep (n := n) k b h
  | trap c u => exact Inv.keep (n := n) k b h

theorem InvE.bind {e : Ev} {f : State → Nat → Ev} (h : InvE e) (hf : ∀ t v, Inv t → InvE (f t v)) : InvE (e.bind f) := by
  cases e with
  | trap c u => exact h
  | ok u v =>
    simp only [Ev.bind]
    split
    · exact h
    · exact hf u v h

/-- The invariant of the state in a result that may be absent. -/
def InvS {α : Type} : Option (α × State) → Prop
  | some p => Inv p.2
  | none => True

theorem InvS.elim {α : Type} {t : State} {v : α} {o : Option (α × State)} (h : InvS o) (q : o = Option.some (v, t)) : Inv t := by
  rw [q] at h
  exact h

theorem InvS.keep {α : Type} {n : Nat} {s : State} {o : Option (α × State)} (k : KeepsS n s o) (b : 0x240C20 &&& n = 0x240C20) (h : Inv s) : InvS o := by
  cases o with
  | none => trivial
  | some p => exact Inv.keep (n := n) k b h

theorem InvS.ite {α : Type} {a b : Option (α × State)} {c : Prop} [Decidable c] (h : InvS a) (k : InvS b) : InvS (if c then a else b) := by
  split
  · exact h
  · exact k

/-- The same for a result of two values. -/
def InvS3 {α β : Type} : Option (α × β × State) → Prop
  | some p => Inv p.2.2
  | none => True

theorem InvS3.elim {α β : Type} {t : State} {v : α} {w : β} {o : Option (α × β × State)} (h : InvS3 o) (q : o = Option.some (v, w, t)) : Inv t := by
  rw [q] at h
  exact h

theorem InvS3.keep {α β : Type} {n : Nat} {s : State} {o : Option (α × β × State)} (k : KeepsS3 n s o) (b : 0x240C20 &&& n = 0x240C20) (h : Inv s) : InvS3 o := by
  cases o with
  | none => trivial
  | some p => exact Inv.keep (n := n) k b h

/-- The invariant of the state in a result or in the error that stands for it. -/
def InvX {ε α : Type} : Except (ε × State) (α × State) → Prop
  | .ok p => Inv p.2
  | .error p => Inv p.2

theorem InvX.ok {ε α : Type} {p : α × State} (h : Inv p.2) : InvX (Except.ok p : Except (ε × State) (α × State)) := h

theorem InvX.error {ε α : Type} {p : ε × State} (h : Inv p.2) : InvX (Except.error p : Except (ε × State) (α × State)) := h

theorem InvX.ofOk {ε α : Type} {t : State} {v : α} {e : Except (ε × State) (α × State)} (h : InvX e) (q : e = .ok (v, t)) : Inv t := by
  rw [q] at h
  exact h

theorem InvX.ofError {ε α : Type} {t : State} {v : ε} {e : Except (ε × State) (α × State)} (h : InvX e) (q : e = .error (v, t)) : Inv t := by
  rw [q] at h
  exact h

/-- The command answers a next state with the invariant. -/
def InvA (o : Host.Outcome State Fault Refusal) : Prop := ∃ t, o = .next t ∧ Inv t

theorem InvA.next {t : State} (h : Inv t) : InvA (.next t) := ⟨t, rfl, h⟩

theorem InvA.keep {n : Nat} {s : State} {o : Host.Outcome State Fault Refusal} (k : Answers n s o) (b : 0x240C20 &&& n = 0x240C20) (h : Inv s) : InvA o := by
  obtain ⟨t, e, j⟩ := k
  exact ⟨t, e, Inv.keep j b h⟩

theorem InvA.ite {a b : Host.Outcome State Fault Refusal} {c : Prop} [Decidable c] (h : InvA a) (k : InvA b) : InvA (if c then a else b) := by
  split
  · exact h
  · exact k

end Sys2Proof.Machine
end

