-- ==== Sys2Proof/Laws/KeepsOps.lean ====
section
/-! SUPPORT. Frames of the functions of Machine/Ops.lean: what each leaves alone, said once. The docstrings name the parts of `State` a function may write; the mask marks all others. -/

namespace Sys2Proof.Machine

/-- Writes at most: regs. -/
theorem setRv_keeps {b0 b1 s} : Keeps 67092479 s (setRv b0 b1 s) := by
  unfold setRv
  refine Keeps.app (wr_regs rfl) ?_
  exact Keeps.refl

/-- Writes at most: regs. -/
theorem setRf_keeps {b0 b1 b2 b3 s} : Keeps 67092479 s (setRf b0 b1 b2 b3 s) := by
  unfold setRf
  refine Keeps.step setRv_keeps rfl ?_
  exact Keeps.refl

/-- Writes at most: regs. -/
theorem addRf_keeps {b0 b1 b2 b3 s} : Keeps 67092479 s (addRf b0 b1 b2 b3 s) := by
  unfold addRf
  refine Keeps.step setRf_keeps rfl ?_
  exact Keeps.refl

/-- Writes at most: regs. -/
theorem cnt_keeps {b0 s} : Keeps 67092479 s (cnt b0 s) := by
  unfold cnt
  refine Keeps.step addRf_keeps rfl ?_
  exact Keeps.refl

/-- Writes at most: sent. -/
theorem send_keeps {b0 s} : Keeps 67108861 s (send b0 s) := by
  unfold send
  refine Keeps.app (wr_sent rfl) ?_
  exact Keeps.refl

/-- Writes at most: free. -/
theorem takeFree_keeps {s} : Keeps 67108859 s (takeFree s).2 := by
  unfold takeFree
  refine Keeps.mkSnd ?_
  refine Keeps.app (wr_free rfl) ?_
  exact Keeps.refl

/-- Writes at most: regs evr. -/
theorem recordLoss_keeps {s} : Keeps 64995327 s (recordLoss s) := by
  unfold recordLoss
  refine Keeps.step cnt_keeps rfl ?_
  refine Keeps.app (wr_evr rfl) ?_
  exact Keeps.refl

/-- Writes at most: regs evr. -/
theorem emitAt_keeps {b0 b1 b2 s} : Keeps 64995327 s (emitAt b0 b1 b2 s) := by
  unfold emitAt
  refine Keeps.ite ?_ ?_
  · refine Keeps.app (wr_evr rfl) ?_
    exact Keeps.refl
  · refine Keeps.step recordLoss_keeps rfl ?_
    exact Keeps.refl

/-- Writes at most: regs evr. -/
theorem lostNotice_keeps {s} : Keeps 64995327 s (lostNotice s) := by
  unfold lostNotice
  refine Keeps.ite ?_ ?_
  · refine Keeps.step emitAt_keeps rfl ?_
    refine Keeps.app (wr_evr rfl) ?_
    exact Keeps.refl
  · exact Keeps.refl

/-- Writes at most: regs evr. -/
theorem emit_keeps {b0 b1 s} : Keeps 64995327 s (emit b0 b1 s) := by
  unfold emit
  refine Keeps.step emitAt_keeps rfl ?_
  exact Keeps.refl

/-- Writes at most: regs evr. -/
theorem nvEvent_keeps {b0 b1 b2 b3 s} : Keeps 64995327 s (nvEvent b0 b1 b2 b3 s) := by
  unfold nvEvent
  refine Keeps.step emit_keeps rfl ?_
  exact Keeps.refl

/-- Writes at most: regs evr. -/
theorem imageEvent_keeps {b0 b1 b2 b3 b4 b5 b6 b7 b8 s} : Keeps 64995327 s (imageEvent b0 b1 b2 b3 b4 b5 b6 b7 b8 s) := by
  unfold imageEvent
  refine Keeps.step emit_keeps rfl ?_
  exact Keeps.refl

/-- Writes at most: sta. -/
theorem stat_keeps {b0 b1 s} : Keeps 62914559 s (stat b0 b1 s) := by
  unfold stat
  refine Keeps.app (wr_sta rfl) ?_
  exact Keeps.refl

/-- Writes at most: tri. -/
theorem modLane_keeps {b0 b1 s} : Keeps 67108735 s (modLane b0 b1 s) := by
  unfold modLane
  split
  · refine Keeps.app (wr_tri rfl) ?_
    exact Keeps.refl
  · refine Keeps.app (wr_tri rfl) ?_
    exact Keeps.refl
  · refine Keeps.app (wr_tri rfl) ?_
    exact Keeps.refl

/-- Writes at most: tri. -/
theorem voterLog_keeps {b0 s} : Keeps 67108735 s (voterLog b0 s) := by
  unfold voterLog
  refine Keeps.app (wr_tri rfl) ?_
  exact Keeps.refl

/-- Writes at most: tri. -/
theorem laneTo_keeps {b0 b1 s} : Keeps 67108735 s (laneTo b0 b1 s) := by
  unfold laneTo
  refine Keeps.step modLane_keeps rfl ?_
  refine Keeps.step voterLog_keeps rfl ?_
  exact Keeps.refl

/-- Writes at most: tri. -/
theorem seqNext_keeps {s} : Keeps 67108735 s (seqNext s) := by
  unfold seqNext
  refine Keeps.app (wr_tri rfl) ?_
  exact Keeps.refl

/-- Writes at most: tri. -/
theorem seqMany_keeps {b0 s} : Keeps 67108735 s (seqMany b0 s) := by
  unfold seqMany
  refine Keeps.app (wr_tri rfl) ?_
  exact Keeps.refl

/-- Writes at most: tri. -/
theorem seqVoted_keeps {s} : Keeps 67108735 s (seqVoted s) := by
  unfold seqVoted
  refine Keeps.ite ?_ ?_
  · exact Keeps.refl
  · refine Keeps.step seqNext_keeps rfl ?_
    exact Keeps.refl

/-- Writes at most: prg regs evr. -/
theorem setMode_keeps {b0 b1 s} : Keeps 64994815 s (setMode b0 b1 s) := by
  unfold setMode
  extract_lets -merge -useContext +onlyGivenNames x0
  try clear_value x0
  refine Keeps.step emit_keeps rfl ?_
  refine Keeps.app (wr_prg rfl) ?_
  exact Keeps.refl

/-- Writes at most: cand. -/
theorem rtcAdvance_keeps {b0 s} : Keeps 67108831 s (rtcAdvance b0 s) := by
  unfold rtcAdvance
  refine Keeps.ite ?_ ?_
  · exact Keeps.refl
  · extract_lets -merge -useContext +onlyGivenNames x0
    try clear_value x0
    extract_lets -merge -useContext +onlyGivenNames x1
    try clear_value x1
    extract_lets -merge -useContext +onlyGivenNames x2
    try clear_value x2
    refine Keeps.app (wr_cand rfl) ?_
    exact Keeps.refl

/-- Writes at most: civ. -/
theorem civilAdvance_keeps {b0 s} : Keeps 67108847 s (civilAdvance b0 s) := by
  unfold civilAdvance
  extract_lets -merge -useContext +onlyGivenNames x0
  try clear_value x0
  refine Keeps.app (wr_civ rfl) ?_
  exact Keeps.refl

/-- Writes at most: prg. -/
theorem execAdvance_keeps {b0 s} : Keeps 67108351 s (execAdvance b0 s) := by
  unfold execAdvance
  refine Keeps.ite ?_ ?_
  · exact Keeps.refl
  · extract_lets -merge -useContext +onlyGivenNames x0
    try clear_value x0
    refine Keeps.app (wr_prg rfl) ?_
    exact Keeps.refl

/-- Writes at most: rings. -/
theorem modRing_keeps {b0 b1 s} : Keeps 66977791 s (modRing b0 b1 s) := by
  unfold modRing
  refine Keeps.app (wr_rings rfl) ?_
  exact Keeps.refl

/-- Writes at most: regs evr. -/
theorem ringOverflow_keeps {b0 b1 s} : Keeps 64995327 s (ringOverflow b0 b1 s) := by
  unfold ringOverflow
  refine Keeps.ite ?_ ?_
  · refine Keeps.step emit_keeps rfl ?_
    refine Keeps.step cnt_keeps rfl ?_
    exact Keeps.refl
  · refine Keeps.step cnt_keeps rfl ?_
    exact Keeps.refl

/-- Writes at most: regs. -/
theorem ringHigh_keeps {b0 s} : Keeps 67092479 s (ringHigh b0 s) := by
  unfold ringHigh
  extract_lets -merge -useContext +onlyGivenNames x0
  try clear_value x0
  refine Keeps.ite ?_ ?_
  · refine Keeps.step setRf_keeps rfl ?_
    exact Keeps.refl
  · exact Keeps.refl

/-- Writes at most: regs rings. -/
theorem ringPush_keeps {b0 b1 s} : Keeps 66961407 s (ringPush b0 b1 s) := by
  unfold ringPush
  refine Keeps.step ringHigh_keeps rfl ?_
  refine Keeps.step modRing_keeps rfl ?_
  exact Keeps.refl

/-- Writes at most: fio. -/
theorem fieldLog_keeps {b0 s} : Keeps 66584575 s (fieldLog b0 s) := by
  unfold fieldLog
  refine Keeps.app (wr_fio rfl) ?_
  exact Keeps.refl

/-- Writes at most: fio. -/
theorem modPin_keeps {b0 b1 s} : Keeps 66584575 s (modPin b0 b1 s) := by
  unfold modPin
  extract_lets -merge -useContext +onlyGivenNames x0
  try clear_value x0
  refine Keeps.app (wr_fio rfl) ?_
  exact Keeps.refl

/-- Writes at most: fio. -/
theorem modGroup_keeps {b0 b1 s} : Keeps 66584575 s (modGroup b0 b1 s) := by
  unfold modGroup
  extract_lets -merge -useContext +onlyGivenNames x0
  try clear_value x0
  refine Keeps.app (wr_fio rfl) ?_
  exact Keeps.refl

/-- Writes at most: snu. -/
theorem modSnu_keeps {b0 b1 s} : Keeps 66060287 s (modSnu b0 b1 s) := by
  unfold modSnu
  refine Keeps.app (wr_snu rfl) ?_
  exact Keeps.refl

/-- Writes at most: sent fio. -/
theorem sendPin_keeps {b0 b1 b2 s} : Keeps 66584573 s (sendPin b0 b1 b2 s) := by
  unfold sendPin
  refine Keeps.step send_keeps rfl ?_
  refine Keeps.step modPin_keeps rfl ?_
  exact Keeps.refl

/-- Writes at most: sent fio. -/
theorem pinOff_keeps {b0 s} : Keeps 66584573 s (pinOff b0 s) := by
  unfold pinOff
  extract_lets -merge -useContext +onlyGivenNames x0
  try clear_value x0
  refine Keeps.ite ?_ ?_
  · refine Keeps.step sendPin_keeps rfl ?_
    refine Keeps.step modPin_keeps rfl ?_
    exact Keeps.refl
  · refine Keeps.step modPin_keeps rfl ?_
    exact Keeps.refl

/-- Writes at most: sent fio. -/
theorem pinsOff_keeps {b0 s} : Keeps 66584573 s (pinsOff b0 s) := by
  induction b0 generalizing s with
  | nil =>
    rw [pinsOff.eq_1]
    exact Keeps.refl
  | cons z zs ih =>
    rw [pinsOff.eq_2]
    refine Keeps.app ih ?_
    refine Keeps.step pinOff_keeps rfl ?_
    exact Keeps.refl

/-- Writes at most: regs evr. -/
theorem recordCut_keeps {b0 b1 s} : Keeps 64995327 s (recordCut b0 b1 s) := by
  unfold recordCut
  refine Keeps.ite ?_ ?_
  · exact Keeps.refl
  · extract_lets -merge -useContext +onlyGivenNames x0
    have h1 : Keeps 64995327 s x0 := by
      unfold x0
      refine Keeps.step setRf_keeps rfl ?_
      refine Keeps.step setRf_keeps rfl ?_
      exact Keeps.refl
    try clear_value x0
    refine Keeps.step emit_keeps rfl ?_
    refine Keeps.step cnt_keeps rfl ?_
    exact h1

/-- Writes at most: snu. -/
theorem dropK_keeps {b0 s} : Keeps 66060287 s (dropK b0 s) := by
  unfold dropK
  refine Keeps.step modSnu_keeps rfl ?_
  exact Keeps.refl

/-- Writes at most: snu. -/
theorem openGroup_keeps {b0 s} : Keeps 66060287 s (openGroup b0 s) := by
  unfold openGroup
  refine Keeps.step modSnu_keeps rfl ?_
  refine Keeps.step dropK_keeps rfl ?_
  exact Keeps.refl

/-- Writes at most: snu. -/
theorem cutPicking_keeps {b0 b1 s} : Keeps 66060287 s (cutPicking b0 b1 s) := by
  induction b0 generalizing b1 s with
  | nil =>
    rw [cutPicking.eq_1]
    exact Keeps.refl
  | cons z zs ih =>
    rw [cutPicking.eq_2]
    refine Keeps.app ih ?_
    refine Keeps.ite ?_ ?_
    · refine Keeps.step openGroup_keeps rfl ?_
      exact Keeps.refl
    · exact Keeps.refl

/-- Writes at most: snu. -/
theorem openAll_keeps {s} : Keeps 66060287 s (openAll s) := by
  unfold openAll
  refine Keeps.step openGroup_keeps rfl ?_
  refine Keeps.step openGroup_keeps rfl ?_
  refine Keeps.step openGroup_keeps rfl ?_
  refine Keeps.step openGroup_keeps rfl ?_
  exact Keeps.refl

/-- Writes at most: lnk. -/
theorem modLink_keeps {b0 b1 s} : Keeps 50331647 s (modLink b0 b1 s) := by
  unfold modLink
  refine Keeps.app (wr_lnk rfl) ?_
  exact Keeps.refl

/-- Writes at most: sent lnk. -/
theorem transmit_keeps {b0 b1 b2 s} : Keeps 50331645 s (transmit b0 b1 b2 s) := by
  unfold transmit
  extract_lets -merge -useContext +onlyGivenNames x0
  try clear_value x0
  refine Keeps.step send_keeps rfl ?_
  refine Keeps.step modLink_keeps rfl ?_
  exact Keeps.refl

/-- Writes at most: sent lnk. -/
theorem sendItem_keeps {b0 b1 s} : Keeps 50331645 s (sendItem b0 b1 s) := by
  unfold sendItem
  extract_lets -merge -useContext +onlyGivenNames x0
  try clear_value x0
  refine Keeps.ite ?_ ?_
  · exact Keeps.refl
  · refine Keeps.ite ?_ ?_
    · refine Keeps.step transmit_keeps rfl ?_
      exact Keeps.refl
    · refine Keeps.step modLink_keeps rfl ?_
      exact Keeps.refl

/-- Writes at most: sent lnk. -/
theorem sendLink_keeps {b0 b1 b2 b3 b4 s} : Keeps 50331645 s (sendLink b0 b1 b2 b3 b4 s) := by
  unfold sendLink
  refine Keeps.step sendItem_keeps rfl ?_
  exact Keeps.refl

/-- Writes at most: lnk. -/
theorem mirrorItem_keeps {b0 b1 b2 s} : Keeps 50331647 s (mirrorItem b0 b1 b2 s).2 := by
  unfold mirrorItem
  extract_lets -merge -useContext +onlyGivenNames x0
  try clear_value x0
  extract_lets -merge -useContext +onlyGivenNames x1
  try clear_value x1
  refine Keeps.mkSnd ?_
  refine Keeps.ite ?_ ?_
  · refine Keeps.app (wr_lnk rfl) ?_
    exact Keeps.refl
  · refine Keeps.app (wr_lnk rfl) ?_
    exact Keeps.refl

/-- Writes at most: sent lnk. -/
theorem mirrorSend_keeps {b0 b1 b2 s} : Keeps 50331645 s (mirrorSend b0 b1 b2 s) := by
  unfold mirrorSend
  extract_lets -merge -useContext +onlyGivenNames x0
  have h1 : Keeps 50331645 s (x0).2 := by
    unfold x0
    refine Keeps.step mirrorItem_keeps rfl ?_
    exact Keeps.refl
  try clear_value x0
  refine Keeps.step sendItem_keeps rfl ?_
  exact h1

/-- Writes at most: lnk. -/
theorem mirrorReset_keeps {s} : Keeps 50331647 s (mirrorReset s) := by
  unfold mirrorReset
  refine Keeps.app (wr_lnk rfl) ?_
  exact Keeps.refl

/-- Writes at most: sent lnk. -/
theorem askSync_keeps {s} : Keeps 50331645 s (askSync s) := by
  unfold askSync
  refine Keeps.step mirrorSend_keeps rfl ?_
  exact Keeps.refl

/-- Writes at most: sent lnk. -/
theorem toUnsynced_keeps {s} : Keeps 50331645 s (toUnsynced s) := by
  unfold toUnsynced
  refine Keeps.step askSync_keeps rfl ?_
  refine Keeps.step mirrorReset_keeps rfl ?_
  refine Keeps.app (wr_lnk rfl) ?_
  exact Keeps.refl

/-- Writes at most: sent lnk. -/
theorem mirror_keeps {b0 b1 b2 s} : Keeps 50331645 s (mirror b0 b1 b2 s) := by
  unfold mirror
  refine Keeps.ite ?_ ?_
  · refine Keeps.step mirrorSend_keeps rfl ?_
    exact Keeps.refl
  · exact Keeps.refl

/-- Writes at most: prg frc vm. -/
theorem reservedInto_keeps {b0 s} : Keeps 67103231 s (reservedInto b0 s) := by
  unfold reservedInto
  extract_lets -merge -useContext +onlyGivenNames x0
  try clear_value x0
  extract_lets -merge -useContext +onlyGivenNames x1
  try clear_value x1
  extract_lets -merge -useContext +onlyGivenNames x2
  try clear_value x2
  exact Keeps.app (show Keeps 67103231 s _ from ⟨fun _ => rfl, fun _ => rfl, fun _ => rfl, fun _ => rfl, fun _ => rfl, fun _ => rfl, fun _ => rfl, fun _ => rfl, fun _ => rfl, fun h => noBit h rfl, fun h => noBit h rfl, fun _ => rfl, fun h => noBit h rfl, fun _ => rfl, fun _ => rfl, fun _ => rfl, fun _ => rfl, fun _ => rfl, fun _ => rfl, fun _ => rfl, fun _ => rfl, fun _ => rfl, fun _ => rfl, fun _ => rfl, fun _ => rfl, fun _ => rfl⟩) Keeps.refl

/-- Writes at most: lnk. -/
theorem copyNext_keeps {s} : KeepsS 50331647 s (copyNext s) := by
  unfold copyNext
  split
  · split
    · refine KeepsS.ite ?_ ?_
      · refine KeepsS.some ?_
        refine Keeps.step mirrorItem_keeps rfl ?_
        refine Keeps.app (wr_lnk rfl) ?_
        exact Keeps.refl
      · exact trivial
    · exact trivial
  · exact trivial

/-- Writes at most: sent lnk. -/
theorem pumpLink_keeps {b0 b1 s} : Keeps 50331645 s (pumpLink b0 b1 s) := by
  induction b1 generalizing b0 s with
  | zero =>
    rw [pumpLink.eq_1]
    exact Keeps.refl
  | succ z ih =>
    rw [pumpLink.eq_2]
    refine Keeps.ite ?_ ?_
    · exact Keeps.refl
    · split
      · refine Keeps.app ih ?_
        refine Keeps.step transmit_keeps rfl ?_
        refine Keeps.step modLink_keeps rfl ?_
        exact Keeps.refl
      · refine Keeps.ite ?_ ?_
        · split
          · rename_i y3 y4 q5
            have h6 : Keeps 50331645 s y4 := by
              refine KeepsS.elim ?_ q5
              refine KeepsS.step copyNext_keeps rfl ?_
              exact Keeps.refl
            refine Keeps.app ih ?_
            refine Keeps.step transmit_keeps rfl ?_
            exact h6
          · exact Keeps.refl
        · exact Keeps.refl

/-- Writes at most: sent lnk. -/
theorem pumpLinks_keeps {b0 s} : Keeps 50331645 s (pumpLinks b0 s) := by
  unfold pumpLinks
  refine Keeps.step pumpLink_keeps rfl ?_
  refine Keeps.step pumpLink_keeps rfl ?_
  refine Keeps.step pumpLink_keeps rfl ?_
  exact Keeps.refl

/-- Writes at most: bus. -/
theorem modPort_keeps {b0 b1 s} : Keeps 67076095 s (modPort b0 b1 s) := by
  unfold modPort
  refine Keeps.app (wr_bus rfl) ?_
  exact Keeps.refl

/-- Writes at most: bus. -/
theorem busClash_keeps {s} : Keeps 67076095 s (busClash s) := by
  unfold busClash
  refine Keeps.app (wr_bus rfl) ?_
  exact Keeps.refl

/-- Writes at most: sent bus. -/
theorem portFrame_keeps {b0 b1 s} : Keeps 67076093 s (portFrame b0 b1 s) := by
  unfold portFrame
  extract_lets -merge -useContext +onlyGivenNames x0
  try clear_value x0
  extract_lets -merge -useContext +onlyGivenNames x1
  try clear_value x1
  refine Keeps.ite ?_ ?_
  · refine Keeps.step modPort_keeps rfl ?_
    exact Keeps.refl
  · refine Keeps.ite ?_ ?_
    · refine Keeps.step busClash_keeps rfl ?_
      exact Keeps.refl
    · refine Keeps.step send_keeps rfl ?_
      refine Keeps.step modPort_keeps rfl ?_
      exact Keeps.refl

/-- Writes at most: sent bus. -/
theorem pumpPort_keeps {b0 s} : Keeps 67076093 s (pumpPort b0 s) := by
  unfold pumpPort
  refine Keeps.foldl ?_ _ ?_
  · intro s a0
    refine Keeps.step portFrame_keeps rfl ?_
    exact Keeps.refl
  · refine Keeps.step modPort_keeps rfl ?_
    exact Keeps.refl

/-- Writes at most: sent bus. -/
theorem pumpPorts_keeps {s} : Keeps 67076093 s (pumpPorts s) := by
  unfold pumpPorts
  refine Keeps.step pumpPort_keeps rfl ?_
  refine Keeps.step pumpPort_keeps rfl ?_
  refine Keeps.step pumpPort_keeps rfl ?_
  refine Keeps.step pumpPort_keeps rfl ?_
  exact Keeps.refl

/-- Writes at most: sent clk civ cand prg bus lnk. -/
theorem begin'_keeps {b0 s} : Keeps 50298309 s (begin' b0 s) := by
  unfold begin'
  extract_lets -merge -useContext +onlyGivenNames x0
  have h1 : Keeps 50298309 s x0 := by
    unfold x0
    refine Keeps.step rtcAdvance_keeps rfl ?_
    refine Keeps.app (wr_sent rfl) ?_
    exact Keeps.refl
  try clear_value x0
  refine Keeps.ite ?_ ?_
  · extract_lets -merge -useContext +onlyGivenNames x2
    have h3 : Keeps 50298309 s x2 := by
      unfold x2
      refine Keeps.step execAdvance_keeps rfl ?_
      refine Keeps.step civilAdvance_keeps rfl ?_
      exact h1
    try clear_value x2
    refine Keeps.step pumpPorts_keeps rfl ?_
    refine Keeps.step pumpLinks_keeps rfl ?_
    refine Keeps.app (wr_clk rfl) ?_
    exact h3
  · exact h1

/-- Writes at most: regs evr. -/
theorem xchRecord_keeps {b0 b1 b2 s} : Keeps 64995327 s (xchRecord b0 b1 b2 s) := by
  unfold xchRecord
  refine Keeps.step emit_keeps rfl ?_
  exact Keeps.refl

/-- Writes at most: regs. -/
theorem xchReason_keeps {b0 b1 s} : Keeps 67092479 s (xchReason b0 b1 s) := by
  unfold xchReason
  refine Keeps.step setRv_keeps rfl ?_
  refine Keeps.step setRf_keeps rfl ?_
  refine Keeps.step setRf_keeps rfl ?_
  exact Keeps.refl

/-- Writes at most: vm xch regs upd. -/
theorem xchDiscard_keeps {s} : Keeps 58691583 s (xchDiscard s) := by
  unfold xchDiscard
  refine Keeps.step setRv_keeps rfl ?_
  exact Keeps.app (show Keeps 58691583 s _ from ⟨fun _ => rfl, fun _ => rfl, fun _ => rfl, fun _ => rfl, fun _ => rfl, fun _ => rfl, fun _ => rfl, fun _ => rfl, fun _ => rfl, fun _ => rfl, fun _ => rfl, fun _ => rfl, fun h => noBit h rfl, fun h => noBit h rfl, fun _ => rfl, fun _ => rfl, fun _ => rfl, fun _ => rfl, fun _ => rfl, fun _ => rfl, fun _ => rfl, fun _ => rfl, fun _ => rfl, fun h => noBit h rfl, fun _ => rfl, fun _ => rfl⟩) Keeps.refl

/-- Writes at most: vm xch regs evr upd. -/
theorem xchAbort_keeps {b0 b1 s} : Keeps 56594431 s (xchAbort b0 b1 s) := by
  unfold xchAbort
  refine Keeps.ite ?_ ?_
  · exact Keeps.refl
  · refine Keeps.step xchDiscard_keeps rfl ?_
    refine Keeps.step xchRecord_keeps rfl ?_
    refine Keeps.step xchReason_keeps rfl ?_
    exact Keeps.refl

/-- Writes at most: regs evr. -/
theorem forceClearRec_keeps {b0 b1 b2 b3 b4 s} : Keeps 64995327 s (forceClearRec b0 b1 b2 b3 b4 s) := by
  unfold forceClearRec
  extract_lets -merge -useContext +onlyGivenNames x0
  try clear_value x0
  refine Keeps.step emit_keeps rfl ?_
  exact Keeps.refl

/-- Writes at most: regs evr. -/
theorem forceClearRecs_keeps {b0 b1 b2 b3 b4 s} : Keeps 64995327 s (forceClearRecs b0 b1 b2 b3 b4 s) := by
  induction b4 generalizing b0 b1 b2 b3 s with
  | nil =>
    rw [forceClearRecs.eq_1]
    exact Keeps.refl
  | cons z zs ih =>
    rw [forceClearRecs.eq_2]
    refine Keeps.app ih ?_
    refine Keeps.step forceClearRec_keeps rfl ?_
    exact Keeps.refl

/-- Writes at most: frc regs evr. -/
theorem forcesHalt_keeps {s} : Keeps 64994303 s (forcesHalt s) := by
  unfold forcesHalt
  extract_lets -merge -useContext +onlyGivenNames x0
  have h1 : Keeps 64994303 s x0 := by
    unfold x0
    refine Keeps.step forceClearRecs_keeps rfl ?_
    exact Keeps.refl
  try clear_value x0
  refine Keeps.app (wr_frc rfl) ?_
  exact h1

/-- Writes at most: regs rings evr. -/
theorem endAllPosts_keeps {s} : Keeps 64864255 s (endAllPosts s) := by
  unfold endAllPosts
  extract_lets -merge -useContext +onlyGivenNames x0
  try clear_value x0
  extract_lets -merge -useContext +onlyGivenNames x1
  have h2 : Keeps 64864255 s x1 := by
    unfold x1
    split
    · refine Keeps.step lostNotice_keeps rfl ?_
      refine Keeps.step recordLoss_keeps rfl ?_
      refine Keeps.app (wr_evr rfl) ?_
      exact Keeps.refl
    · exact Keeps.refl
  try clear_value x1
  refine Keeps.app (wr_rings rfl) ?_
  exact h2

/-- Writes at most: cand. -/
theorem writeSelector_keeps {b0 s} : Keeps 67108831 s (writeSelector b0 s) := by
  unfold writeSelector
  refine Keeps.ite ?_ ?_
  · exact Keeps.refl
  · extract_lets -merge -useContext +onlyGivenNames x0
    try clear_value x0
    split
    · refine Keeps.app (wr_cand rfl) ?_
      exact Keeps.refl
    · refine Keeps.app (wr_cand rfl) ?_
      exact Keeps.refl
    · refine Keeps.ite ?_ ?_
      · refine Keeps.app (wr_cand rfl) ?_
        exact Keeps.refl
      · refine Keeps.app (wr_cand rfl) ?_
        exact Keeps.refl

/-- Writes at most: sent cand pwr tri fio snu upd. -/
theorem trialFallback_keeps {s} : Keeps 57147165 s (trialFallback s) := by
  unfold trialFallback
  split
  · extract_lets -merge -useContext +onlyGivenNames x1
    have h2 : Keeps 57147165 s x1 := by
      unfold x1
      refine Keeps.step writeSelector_keeps rfl ?_
      exact Keeps.refl
    try clear_value x1
    extract_lets -merge -useContext +onlyGivenNames x3
    have h4 : Keeps 57147165 s x3 := by
      unfold x3
      refine Keeps.step openAll_keeps rfl ?_
      refine Keeps.step pinsOff_keeps rfl ?_
      exact h2
    try clear_value x3
    exact Keeps.app (show Keeps 57147165 x3 _ from ⟨fun _ => rfl, fun _ => rfl, fun _ => rfl, fun _ => rfl, fun _ => rfl, fun _ => rfl, fun h => noBit h rfl, fun h => noBit h rfl, fun _ => rfl, fun _ => rfl, fun _ => rfl, fun _ => rfl, fun _ => rfl, fun _ => rfl, fun _ => rfl, fun _ => rfl, fun _ => rfl, fun _ => rfl, fun _ => rfl, fun _ => rfl, fun _ => rfl, fun _ => rfl, fun _ => rfl, fun h => noBit h rfl, fun _ => rfl, fun _ => rfl⟩) h4
  · exact Keeps.refl

/-- Writes at most: regs evr. -/
theorem faultRecord_keeps {b0 b1 b2 b3 s} : Keeps 64995327 s (faultRecord b0 b1 b2 b3 s) := by
  unfold faultRecord
  refine Keeps.step emit_keeps rfl ?_
  exact Keeps.refl

/-- Writes at most: sent pwr prg frc vm xch regs rings fio snu evr upd lnk. -/
theorem enterHalted_keeps {b0 s} : Keeps 38111677 s (enterHalted b0 s) := by
  unfold enterHalted
  extract_lets -merge -useContext +onlyGivenNames x0
  have h1 : Keeps 38111677 s x0 := by
    unfold x0
    refine Keeps.step cutPicking_keeps rfl ?_
    refine Keeps.step recordCut_keeps rfl ?_
    exact Keeps.refl
  try clear_value x0
  extract_lets -merge -useContext +onlyGivenNames x2
  have h3 : Keeps 38111677 s x2 := by
    unfold x2
    refine Keeps.step pinsOff_keeps rfl ?_
    exact h1
  try clear_value x2
  extract_lets -merge -useContext +onlyGivenNames x4
  have h5 : Keeps 38111677 s x4 := by
    unfold x4
    refine Keeps.step endAllPosts_keeps rfl ?_
    exact h3
  try clear_value x4
  extract_lets -merge -useContext +onlyGivenNames x6
  have h7 : Keeps 38111677 s x6 := by
    unfold x6
    refine Keeps.step forcesHalt_keeps rfl ?_
    exact h5
  try clear_value x6
  extract_lets -merge -useContext +onlyGivenNames x8
  have h9 : Keeps 38111677 s x8 := by
    unfold x8
    refine Keeps.step xchAbort_keeps rfl ?_
    exact h7
  try clear_value x8
  extract_lets -merge -useContext +onlyGivenNames x10
  have h11 : Keeps 38111677 s x10 := by
    unfold x10
    refine Keeps.ite ?_ ?_
    · refine Keeps.step mirror_keeps rfl ?_
      exact h9
    · exact h9
  try clear_value x10
  extract_lets -merge -useContext +onlyGivenNames x12
  have h13 : Keeps 38111677 s x12 := by
    unfold x12
    refine Keeps.step setMode_keeps rfl ?_
    exact h11
  try clear_value x12
  exact Keeps.app (show Keeps 38111677 x12 _ from ⟨fun _ => rfl, fun _ => rfl, fun _ => rfl, fun _ => rfl, fun _ => rfl, fun _ => rfl, fun h => noBit h rfl, fun _ => rfl, fun _ => rfl, fun h => noBit h rfl, fun _ => rfl, fun _ => rfl, fun _ => rfl, fun _ => rfl, fun _ => rfl, fun _ => rfl, fun _ => rfl, fun _ => rfl, fun _ => rfl, fun _ => rfl, fun h => noBit h rfl, fun _ => rfl, fun _ => rfl, fun h => noBit h rfl, fun h => noBit h rfl, fun _ => rfl⟩) h13

/-- Writes at most: sent cand pwr tri prg frc vm xch regs rings fio snu evr upd lnk. -/
theorem vitalFault_keeps {b0 b1 s} : Keeps 38111517 s (vitalFault b0 b1 s) := by
  unfold vitalFault
  extract_lets -merge -useContext +onlyGivenNames x0
  have h1 : Keeps 38111517 s x0 := by
    unfold x0
    refine Keeps.step faultRecord_keeps rfl ?_
    exact Keeps.refl
  try clear_value x0
  split
  · refine Keeps.ite ?_ ?_
    · exact h1
    · extract_lets -merge -useContext +onlyGivenNames x3
      have h4 : Keeps 38111517 s x3 := by
        unfold x3
        refine Keeps.step enterHalted_keeps rfl ?_
        exact h1
      try clear_value x3
      refine Keeps.ite ?_ ?_
      · refine Keeps.step trialFallback_keeps rfl ?_
        exact h4
      · exact h4
  · refine Keeps.ite ?_ ?_
    · exact h1
    · extract_lets -merge -useContext +onlyGivenNames x6
      have h7 : Keeps 38111517 s x6 := by
        unfold x6
        refine Keeps.step enterHalted_keeps rfl ?_
        exact h1
      try clear_value x6
      refine Keeps.ite ?_ ?_
      · refine Keeps.step trialFallback_keeps rfl ?_
        exact h7
      · exact h7
  · refine Keeps.app (wr_pwr rfl) ?_
    exact h1
  · exact h1

/-- Writes at most: sent regs fio snu evr. -/
theorem groupFault_keeps {b0 b1 b2 b3 s} : Keeps 63422461 s (groupFault b0 b1 b2 b3 s) := by
  unfold groupFault
  extract_lets -merge -useContext +onlyGivenNames x0
  have h1 : Keeps 63422461 s x0 := by
    unfold x0
    refine Keeps.step faultRecord_keeps rfl ?_
    exact Keeps.refl
  try clear_value x0
  extract_lets -merge -useContext +onlyGivenNames x2
  have h3 : Keeps 63422461 s x2 := by
    unfold x2
    refine Keeps.step cutPicking_keeps rfl ?_
    refine Keeps.step recordCut_keeps rfl ?_
    exact h1
  try clear_value x2
  refine Keeps.foldl ?_ _ ?_
  · intro s a4
    refine Keeps.ite ?_ ?_
    · refine Keeps.step pinsOff_keeps rfl ?_
      refine Keeps.step modSnu_keeps rfl ?_
      refine Keeps.step modGroup_keeps rfl ?_
      exact Keeps.refl
    · exact Keeps.refl
  · exact h3

/-- Writes at most: sent cand pwr tri prg frc vm xch regs rings fio snu evr upd lnk. -/
theorem snufferFault_keeps {b0 b1 b2 s} : Keeps 38111517 s (snufferFault b0 b1 b2 s) := by
  unfold snufferFault
  extract_lets -merge -useContext +onlyGivenNames x0
  try clear_value x0
  extract_lets -merge -useContext +onlyGivenNames x1
  have h2 : Keeps 38111517 s x1 := by
    unfold x1
    refine Keeps.step vitalFault_keeps rfl ?_
    exact Keeps.refl
  try clear_value x1
  refine Keeps.ite ?_ ?_
  · exact h2
  · refine Keeps.step setRf_keeps rfl ?_
    exact h2

/-- Writes at most: regs evr. -/
theorem trapRecord_keeps {b0 b1 b2 s} : Keeps 64995327 s (trapRecord b0 b1 b2 s) := by
  unfold trapRecord
  split
  · refine Keeps.step emit_keeps rfl ?_
    exact Keeps.refl
  · refine Keeps.step emit_keeps rfl ?_
    exact Keeps.refl

/-- Writes at most: sent cand pwr tri prg frc vm xch regs rings fio snu evr upd lnk. -/
theorem trapFault_keeps {b0 b1 s} : Keeps 38111517 s (trapFault b0 b1 s) := by
  unfold trapFault
  refine Keeps.step vitalFault_keeps rfl ?_
  refine Keeps.step trapRecord_keeps rfl ?_
  exact Keeps.refl

end Sys2Proof.Machine
end

