-- ==== Sys2Proof/Laws/InvOps.lean ====
section
/-! SUPPORT. The functions of Machine/Ops.lean keep the invariant `Inv`. -/

namespace Sys2Proof.Machine

theorem recordLoss_inv {s} (hs : Inv s) : Inv (recordLoss s) := by
  unfold recordLoss
  refine Inv.keep cnt_keeps rfl ?_
  refine Inv.set_evr (fun h => ?_) ?_
  · exact h.evr
  · exact hs

theorem emitAt_inv {b0 b1 b2 s} (hs : Inv s) : Inv (emitAt b0 b1 b2 s) := by
  unfold emitAt
  split
  · rename_i q
    refine Inv.set_evr (fun h => ?_) hs
    simp only [List.length_append, List.length_cons, List.length_nil]
    omega
  · exact recordLoss_inv hs

theorem lostNotice_inv {s} (hs : Inv s) : Inv (lostNotice s) := by
  unfold lostNotice
  refine Inv.ite ?_ ?_
  · refine emitAt_inv ?_
    refine Inv.set_evr (fun h => ?_) ?_
    · exact h.evr
    · exact hs
  · exact hs

theorem emit_inv {b0 b1 s} (hs : Inv s) : Inv (emit b0 b1 s) := by
  unfold emit
  refine emitAt_inv ?_
  exact hs

theorem nvEvent_inv {b0 b1 b2 b3 s} (hs : Inv s) : Inv (nvEvent b0 b1 b2 b3 s) := by
  unfold nvEvent
  refine emit_inv ?_
  exact hs

theorem imageEvent_inv {b0 b1 b2 b3 b4 b5 b6 b7 b8 s} (hs : Inv s) : Inv (imageEvent b0 b1 b2 b3 b4 b5 b6 b7 b8 s) := by
  unfold imageEvent
  refine emit_inv ?_
  exact hs

theorem setMode_inv {b0 b1 s} (hs : Inv s) : Inv (setMode b0 b1 s) := by
  unfold setMode
  extract_lets -merge -useContext +onlyGivenNames x0
  try clear_value x0
  refine emit_inv ?_
  refine Inv.keep (wr_prg (m := 67108351) rfl) rfl ?_
  exact hs

theorem rtcAdvance_inv {b0 s} (hs : Inv s) : Inv (rtcAdvance b0 s) := by
  unfold rtcAdvance
  refine Inv.ite ?_ ?_
  · exact hs
  · extract_lets -merge -useContext +onlyGivenNames x0
    try clear_value x0
    extract_lets -merge -useContext +onlyGivenNames x1
    try clear_value x1
    extract_lets -merge -useContext +onlyGivenNames x2
    try clear_value x2
    refine Inv.set_cand (fun h => ?_) ?_
    · exact h.cand
    · exact hs

theorem ringOverflow_inv {b0 b1 s} (hs : Inv s) : Inv (ringOverflow b0 b1 s) := by
  unfold ringOverflow
  refine Inv.ite ?_ ?_
  · refine emit_inv ?_
    refine Inv.keep cnt_keeps rfl ?_
    exact hs
  · refine Inv.keep cnt_keeps rfl ?_
    exact hs

theorem recordCut_inv {b0 b1 s} (hs : Inv s) : Inv (recordCut b0 b1 s) := by
  unfold recordCut
  refine Inv.ite ?_ ?_
  · exact hs
  · extract_lets -merge -useContext +onlyGivenNames x0
    have h1 : Inv x0 := by
      unfold x0
      refine Inv.keep setRf_keeps rfl ?_
      refine Inv.keep setRf_keeps rfl ?_
      exact hs
    try clear_value x0
    refine emit_inv ?_
    refine Inv.keep cnt_keeps rfl ?_
    exact h1

theorem chunks_length {α : Type} (n : Nat) : ∀ (k : Nat) (l : List α), (chunks n k l).length ≤ k
  | 0, _ => Nat.le_refl 0
  | k + 1, l => by
    rw [chunks]
    split
    · exact Nat.zero_le _
    · exact Nat.succ_le_succ (chunks_length n k _)

theorem reservedInto_inv {b0 s} (hs : Inv s) : Inv (reservedInto b0 s) :=
  ⟨hs.mem, hs.cand, hs.evr, Nat.le_trans (Nat.le_of_eq (List.length_map _)) (Nat.le_trans (List.length_filter_le _ _) (chunks_length _ _ _)), hs.lat⟩

theorem begin'_inv {b0 s} (hs : Inv s) : Inv (begin' b0 s) := by
  unfold begin'
  extract_lets -merge -useContext +onlyGivenNames x0
  have h1 : Inv x0 := by
    unfold x0
    refine rtcAdvance_inv ?_
    refine Inv.keep (wr_sent (m := 67108861) rfl) rfl ?_
    exact hs
  try clear_value x0
  refine Inv.ite ?_ ?_
  · extract_lets -merge -useContext +onlyGivenNames x2
    have h3 : Inv x2 := by
      unfold x2
      refine Inv.keep execAdvance_keeps rfl ?_
      refine Inv.keep civilAdvance_keeps rfl ?_
      exact h1
    try clear_value x2
    refine Inv.keep pumpPorts_keeps rfl ?_
    refine Inv.keep pumpLinks_keeps rfl ?_
    refine Inv.keep (wr_clk (m := 67108855) rfl) rfl ?_
    exact h3
  · exact h1

theorem xchRecord_inv {b0 b1 b2 s} (hs : Inv s) : Inv (xchRecord b0 b1 b2 s) := by
  unfold xchRecord
  refine emit_inv ?_
  exact hs

theorem xchAbort_inv {b0 b1 s} (hs : Inv s) : Inv (xchAbort b0 b1 s) := by
  unfold xchAbort
  refine Inv.ite ?_ ?_
  · exact hs
  · refine Inv.keep xchDiscard_keeps rfl ?_
    refine xchRecord_inv ?_
    refine Inv.keep xchReason_keeps rfl ?_
    exact hs

theorem forceClearRec_inv {b0 b1 b2 b3 b4 s} (hs : Inv s) : Inv (forceClearRec b0 b1 b2 b3 b4 s) := by
  unfold forceClearRec
  extract_lets -merge -useContext +onlyGivenNames x0
  try clear_value x0
  refine emit_inv ?_
  exact hs

theorem forceClearRecs_inv {b0 b1 b2 b3 b4 s} (hs : Inv s) : Inv (forceClearRecs b0 b1 b2 b3 b4 s) := by
  induction b4 generalizing b0 b1 b2 b3 s with
  | nil =>
    rw [forceClearRecs.eq_1]
    exact hs
  | cons z zs ih =>
    rw [forceClearRecs.eq_2]
    refine ih ?_
    refine forceClearRec_inv ?_
    exact hs

theorem forcesHalt_inv {s} (hs : Inv s) : Inv (forcesHalt s) := by
  unfold forcesHalt
  extract_lets -merge -useContext +onlyGivenNames x0
  have h1 : Inv x0 := by
    unfold x0
    refine forceClearRecs_inv ?_
    exact hs
  try clear_value x0
  refine Inv.set_frc (fun h => ?_) ?_
  · exact Nat.zero_le _
  · exact h1

theorem endAllPosts_inv {s} (hs : Inv s) : Inv (endAllPosts s) := by
  unfold endAllPosts
  extract_lets -merge -useContext +onlyGivenNames x0
  have h1 : x0 = s.evr := rfl
  replace h1 : x0.queue.length ≤ 1024 := by
    rw [h1]
    exact hs.evr
  try clear_value x0
  extract_lets -merge -useContext +onlyGivenNames x2
  have h3 : Inv x2 := by
    unfold x2
    split
    · refine lostNotice_inv ?_
      refine recordLoss_inv ?_
      refine Inv.set_evr (fun h => ?_) ?_
      · assumption
      · exact hs
    · exact hs
  try clear_value x2
  refine Inv.keep (wr_rings (m := 66977791) rfl) rfl ?_
  exact h3

theorem writeSelector_inv {b0 s} (hs : Inv s) : Inv (writeSelector b0 s) := by
  unfold writeSelector
  refine Inv.ite ?_ ?_
  · exact hs
  · extract_lets -merge -useContext +onlyGivenNames x0
    try clear_value x0
    split
    · refine Inv.set_cand (fun h => ?_) ?_
      · exact h.cand
      · exact hs
    · refine Inv.set_cand (fun h => ?_) ?_
      · exact h.cand
      · exact hs
    · refine Inv.ite ?_ ?_
      · refine Inv.set_cand (fun h => ?_) ?_
        · exact h.cand
        · exact hs
      · refine Inv.set_cand (fun h => ?_) ?_
        · exact h.cand
        · exact hs

theorem trialFallback_inv {s} (hs : Inv s) : Inv (trialFallback s) := by
  unfold trialFallback
  split
  · extract_lets -merge -useContext +onlyGivenNames x1
    have h2 : Inv x1 := by
      unfold x1
      refine writeSelector_inv ?_
      exact hs
    try clear_value x1
    extract_lets -merge -useContext +onlyGivenNames x3
    have h4 : Inv x3 := by
      unfold x3
      refine Inv.keep openAll_keeps rfl ?_
      refine Inv.keep pinsOff_keeps rfl ?_
      exact h2
    try clear_value x3
    exact Inv.keep (show Keeps 58720063 x3 _ from ⟨fun _ => rfl, fun _ => rfl, fun _ => rfl, fun _ => rfl, fun _ => rfl, fun _ => rfl, fun h => noBit h rfl, fun h => noBit h rfl, fun _ => rfl, fun _ => rfl, fun _ => rfl, fun _ => rfl, fun _ => rfl, fun _ => rfl, fun _ => rfl, fun _ => rfl, fun _ => rfl, fun _ => rfl, fun _ => rfl, fun _ => rfl, fun _ => rfl, fun _ => rfl, fun _ => rfl, fun h => noBit h rfl, fun _ => rfl, fun _ => rfl⟩) rfl h4
  · exact hs

theorem faultRecord_inv {b0 b1 b2 b3 s} (hs : Inv s) : Inv (faultRecord b0 b1 b2 b3 s) := by
  unfold faultRecord
  refine emit_inv ?_
  exact hs

theorem enterHalted_inv {b0 s} (hs : Inv s) : Inv (enterHalted b0 s) := by
  unfold enterHalted
  extract_lets -merge -useContext +onlyGivenNames x0
  have h1 : Inv x0 := by
    unfold x0
    refine Inv.keep cutPicking_keeps rfl ?_
    refine recordCut_inv ?_
    exact hs
  try clear_value x0
  extract_lets -merge -useContext +onlyGivenNames x2
  have h3 : Inv x2 := by
    unfold x2
    refine Inv.keep pinsOff_keeps rfl ?_
    exact h1
  try clear_value x2
  extract_lets -merge -useContext +onlyGivenNames x4
  have h5 : Inv x4 := by
    unfold x4
    refine endAllPosts_inv ?_
    exact h3
  try clear_value x4
  extract_lets -merge -useContext +onlyGivenNames x6
  have h7 : Inv x6 := by
    unfold x6
    refine forcesHalt_inv ?_
    exact h5
  try clear_value x6
  extract_lets -merge -useContext +onlyGivenNames x8
  have h9 : Inv x8 := by
    unfold x8
    refine xchAbort_inv ?_
    exact h7
  try clear_value x8
  extract_lets -merge -useContext +onlyGivenNames x10
  have h11 : Inv x10 := by
    unfold x10
    refine Inv.ite ?_ ?_
    · refine Inv.keep mirror_keeps rfl ?_
      exact h9
    · exact h9
  try clear_value x10
  extract_lets -merge -useContext +onlyGivenNames x12
  have h13 : Inv x12 := by
    unfold x12
    refine setMode_inv ?_
    exact h11
  try clear_value x12
  exact Inv.keep (show Keeps 40893887 x12 _ from ⟨fun _ => rfl, fun _ => rfl, fun _ => rfl, fun _ => rfl, fun _ => rfl, fun _ => rfl, fun h => noBit h rfl, fun _ => rfl, fun _ => rfl, fun h => noBit h rfl, fun _ => rfl, fun _ => rfl, fun _ => rfl, fun _ => rfl, fun _ => rfl, fun _ => rfl, fun _ => rfl, fun _ => rfl, fun _ => rfl, fun _ => rfl, fun h => noBit h rfl, fun _ => rfl, fun _ => rfl, fun h => noBit h rfl, fun h => noBit h rfl, fun _ => rfl⟩) rfl h13

theorem vitalFault_inv {b0 b1 s} (hs : Inv s) : Inv (vitalFault b0 b1 s) := by
  unfold vitalFault
  extract_lets -merge -useContext +onlyGivenNames x0
  have h1 : Inv x0 := by
    unfold x0
    refine faultRecord_inv ?_
    exact hs
  try clear_value x0
  split
  · refine Inv.ite ?_ ?_
    · exact h1
    · extract_lets -merge -useContext +onlyGivenNames x3
      have h4 : Inv x3 := by
        unfold x3
        refine enterHalted_inv ?_
        exact h1
      try clear_value x3
      refine Inv.ite ?_ ?_
      · refine trialFallback_inv ?_
        exact h4
      · exact h4
  · refine Inv.ite ?_ ?_
    · exact h1
    · extract_lets -merge -useContext +onlyGivenNames x6
      have h7 : Inv x6 := by
        unfold x6
        refine enterHalted_inv ?_
        exact h1
      try clear_value x6
      refine Inv.ite ?_ ?_
      · refine trialFallback_inv ?_
        exact h7
      · exact h7
  · refine Inv.keep (wr_pwr (m := 67108799) rfl) rfl ?_
    exact h1
  · exact h1

theorem groupFault_inv {b0 b1 b2 b3 s} (hs : Inv s) : Inv (groupFault b0 b1 b2 b3 s) := by
  unfold groupFault
  extract_lets -merge -useContext +onlyGivenNames x0
  have h1 : Inv x0 := by
    unfold x0
    refine faultRecord_inv ?_
    exact hs
  try clear_value x0
  extract_lets -merge -useContext +onlyGivenNames x2
  have h3 : Inv x2 := by
    unfold x2
    refine Inv.keep cutPicking_keeps rfl ?_
    refine recordCut_inv ?_
    exact h1
  try clear_value x2
  refine Inv.foldl ?_ _ ?_
  · intro s a4 hs
    refine Inv.ite ?_ ?_
    · refine Inv.keep pinsOff_keeps rfl ?_
      refine Inv.keep modSnu_keeps rfl ?_
      refine Inv.keep modGroup_keeps rfl ?_
      exact hs
    · exact hs
  · exact h3

theorem snufferFault_inv {b0 b1 b2 s} (hs : Inv s) : Inv (snufferFault b0 b1 b2 s) := by
  unfold snufferFault
  extract_lets -merge -useContext +onlyGivenNames x0
  try clear_value x0
  extract_lets -merge -useContext +onlyGivenNames x1
  have h2 : Inv x1 := by
    unfold x1
    refine vitalFault_inv ?_
    exact hs
  try clear_value x1
  refine Inv.ite ?_ ?_
  · exact h2
  · refine Inv.keep setRf_keeps rfl ?_
    exact h2

theorem trapRecord_inv {b0 b1 b2 s} (hs : Inv s) : Inv (trapRecord b0 b1 b2 s) := by
  unfold trapRecord
  split
  · refine emit_inv ?_
    exact hs
  · refine emit_inv ?_
    exact hs

theorem trapFault_inv {b0 b1 s} (hs : Inv s) : Inv (trapFault b0 b1 s) := by
  unfold trapFault
  refine vitalFault_inv ?_
  refine trapRecord_inv ?_
  exact hs

end Sys2Proof.Machine
end

