-- ==== Sys2Proof/Laws/KeepsCivil.lean ====
section
/-! SUPPORT. Frames of the functions of Machine/Civil.lean: what each leaves alone, said once. The docstrings name the parts of `State` a function may write; the mask marks all others. -/

namespace Sys2Proof.Machine

/-- Writes at most: regs evr. -/
theorem lockViolation_keeps {b0 b1 s} : Keeps 64995327 s (lockViolation b0 b1 s) := by
  unfold lockViolation
  extract_lets -merge -useContext +onlyGivenNames x0
  have h1 : Keeps 64995327 s x0 := by
    unfold x0
    refine Keeps.ite ?_ ?_
    · exact Keeps.refl
    · refine Keeps.step setRv_keeps rfl ?_
      refine Keeps.step setRv_keeps rfl ?_
      exact Keeps.refl
  try clear_value x0
  refine Keeps.step emit_keeps rfl ?_
  refine Keeps.step addRf_keeps rfl ?_
  refine Keeps.step setRf_keeps rfl ?_
  exact h1

/-- Writes at most: sent cand pwr tri prg frc vm xch regs rings fio snu evr upd lnk. -/
theorem blockCommand_keeps {m : Nat} {b0 b1 s} (hf1 : ∀ t, Keeps m t (b1 t)) (hm : m &&& 38111517 = m) : Keeps m s (blockCommand b0 b1 s) := by
  unfold blockCommand
  refine Keeps.ite ?_ ?_
  · refine Keeps.ite ?_ ?_
    · refine Keeps.app (hf1 _) ?_
      refine Keeps.step seqVoted_keeps (land_le hm rfl) ?_
      exact Keeps.refl
    · refine Keeps.step trapFault_keeps (land_le hm rfl) ?_
      exact Keeps.refl
  · exact Keeps.refl

/-- Writes at most: prg. -/
theorem consumeToken_keeps {b0 s} : Keeps 67108351 s (consumeToken b0 s) := by
  unfold consumeToken
  refine Keeps.app (wr_prg rfl) ?_
  exact Keeps.refl

/-- Writes at most: civ regs. -/
theorem civApply_keeps {b0 s} : Keeps 67092463 s (civApply b0 s) := by
  unfold civApply
  refine Keeps.step addRf_keeps rfl ?_
  refine Keeps.app (wr_civ rfl) ?_
  exact Keeps.refl

/-- Writes at most: civ. -/
theorem civLock_keeps {s} : Keeps 67108847 s (civLock s) := by
  unfold civLock
  refine Keeps.app (wr_civ rfl) ?_
  exact Keeps.refl

/-- Writes at most: civ regs evr. -/
theorem civRefuse_keeps {b0 s} : Keeps 64995311 s (civRefuse b0 s) := by
  unfold civRefuse
  refine Keeps.step emit_keeps rfl ?_
  refine Keeps.step addRf_keeps rfl ?_
  refine Keeps.step setRf_keeps rfl ?_
  refine Keeps.app (wr_civ rfl) ?_
  exact Keeps.refl

/-- Writes at most: civ regs evr. -/
theorem civStep_keeps {s} : Keeps 64995311 s (civStep s) := by
  unfold civStep
  extract_lets -merge -useContext +onlyGivenNames x0
  try clear_value x0
  split
  · extract_lets -merge -useContext +onlyGivenNames x2
    have h3 : Keeps 64995311 s x2 := by
      unfold x2
      refine Keeps.step civLock_keeps rfl ?_
      refine Keeps.step civApply_keeps rfl ?_
      exact Keeps.refl
    try clear_value x2
    refine Keeps.app (wr_civ rfl) ?_
    exact h3
  · refine Keeps.ite ?_ ?_
    · refine Keeps.step civLock_keeps rfl ?_
      refine Keeps.step civApply_keeps rfl ?_
      exact Keeps.refl
    · refine Keeps.step civRefuse_keeps rfl ?_
      exact Keeps.refl

/-- Writes at most: civ prg regs evr. -/
theorem civAccept_keeps {s} : Keeps 64994799 s (civAccept s) := by
  unfold civAccept
  extract_lets -merge -useContext +onlyGivenNames x0
  try clear_value x0
  extract_lets -merge -useContext +onlyGivenNames x1
  have h2 : Keeps 64994799 s x1 := by
    unfold x1
    refine Keeps.step nvEvent_keeps rfl ?_
    exact Keeps.refl
  try clear_value x1
  split
  · refine Keeps.step nvEvent_keeps rfl ?_
    exact Keeps.refl
  · exact h2
  · split
    · refine Keeps.ite ?_ ?_
      · refine Keeps.step emit_keeps rfl ?_
        refine Keeps.step consumeToken_keeps rfl ?_
        refine Keeps.step civLock_keeps rfl ?_
        refine Keeps.step civApply_keeps rfl ?_
        exact Keeps.refl
      · exact h2
    · exact h2

/-- Writes at most: civ. -/
theorem civKick_keeps {s} : Keeps 67108847 s (civKick s) := by
  unfold civKick
  refine Keeps.ite ?_ ?_
  · refine Keeps.app (wr_civ rfl) ?_
    exact Keeps.refl
  · exact Keeps.refl

/-- Writes at most: civ regs evr. -/
theorem civDiscard_keeps {s} : Keeps 64995311 s (civDiscard s) := by
  unfold civDiscard
  split
  · refine Keeps.step nvEvent_keeps rfl ?_
    exact Keeps.refl
  · refine Keeps.app (wr_civ rfl) ?_
    exact Keeps.refl

/-- Writes at most: regs evr. -/
theorem incrWrite_keeps {b0 s} : Keeps 64995327 s (incrWrite b0 s) := by
  unfold incrWrite
  refine Keeps.ite ?_ ?_
  · refine Keeps.step setRv_keeps rfl ?_
    exact Keeps.refl
  · refine Keeps.step nvEvent_keeps rfl ?_
    refine Keeps.step setRf_keeps rfl ?_
    exact Keeps.refl

/-- Writes at most: civ. -/
theorem snapshot_keeps {s} : Keeps 67108847 s (snapshot s) := by
  unfold snapshot
  refine Keeps.app (wr_civ rfl) ?_
  exact Keeps.refl

/-- Writes at most: cand. -/
theorem rtcCapture_keeps {s} : Keeps 67108831 s (rtcCapture s) := by
  unfold rtcCapture
  refine Keeps.app (wr_cand rfl) ?_
  exact Keeps.refl

/-- Writes at most: civ cand. -/
theorem rtcWrite_keeps {s} : Keeps 67108815 s (rtcWrite s) := by
  unfold rtcWrite
  exact Keeps.app (show Keeps 67108815 s _ from ⟨fun _ => rfl, fun _ => rfl, fun _ => rfl, fun _ => rfl, fun h => noBit h rfl, fun h => noBit h rfl, fun _ => rfl, fun _ => rfl, fun _ => rfl, fun _ => rfl, fun _ => rfl, fun _ => rfl, fun _ => rfl, fun _ => rfl, fun _ => rfl, fun _ => rfl, fun _ => rfl, fun _ => rfl, fun _ => rfl, fun _ => rfl, fun _ => rfl, fun _ => rfl, fun _ => rfl, fun _ => rfl, fun _ => rfl, fun _ => rfl⟩) Keeps.refl

/-- Writes at most: sent clk civ cand pwr tri prg frc vm xch regs bus rings fio snu evr upd lnk. -/
theorem execStep_keeps {b0 s} : Answers 38078725 s (execStep b0 s) := by
  unfold execStep
  refine Answers.next ?_
  refine Keeps.app (blockCommand_keeps ?_ rfl) ?_
  · intro s
    refine Keeps.step civStep_keeps rfl ?_
    exact Keeps.refl
  · refine Keeps.step begin'_keeps rfl ?_
    exact Keeps.refl

/-- Writes at most: sent clk civ cand pwr tri prg frc vm xch regs bus rings fio snu evr upd lnk. -/
theorem execAccept_keeps {b0 s} : Answers 38078725 s (execAccept b0 s) := by
  unfold execAccept
  refine Answers.next ?_
  refine Keeps.app (blockCommand_keeps ?_ rfl) ?_
  · intro s
    refine Keeps.step civAccept_keeps rfl ?_
    exact Keeps.refl
  · refine Keeps.step begin'_keeps rfl ?_
    exact Keeps.refl

/-- Writes at most: sent clk civ cand pwr tri prg frc vm xch regs bus rings fio snu evr upd lnk. -/
theorem execKick_keeps {b0 s} : Answers 38078725 s (execKick b0 s) := by
  unfold execKick
  refine Answers.next ?_
  refine Keeps.app (blockCommand_keeps ?_ rfl) ?_
  · intro s
    refine Keeps.step civKick_keeps rfl ?_
    exact Keeps.refl
  · refine Keeps.step begin'_keeps rfl ?_
    exact Keeps.refl

/-- Writes at most: sent clk civ cand pwr tri prg frc vm xch regs bus rings fio snu evr upd lnk. -/
theorem execDiscard_keeps {b0 s} : Answers 38078725 s (execDiscard b0 s) := by
  unfold execDiscard
  refine Answers.next ?_
  refine Keeps.app (blockCommand_keeps ?_ rfl) ?_
  · intro s
    refine Keeps.step civDiscard_keeps rfl ?_
    exact Keeps.refl
  · refine Keeps.step begin'_keeps rfl ?_
    exact Keeps.refl

/-- Writes at most: sent clk civ cand pwr tri prg frc vm xch regs bus rings fio snu evr upd lnk. -/
theorem execTimeIncr_keeps {b0 b1 s} : Answers 38078725 s (execTimeIncr b0 b1 s) := by
  unfold execTimeIncr
  refine Answers.next ?_
  refine Keeps.app (blockCommand_keeps ?_ rfl) ?_
  · intro s
    refine Keeps.step incrWrite_keeps rfl ?_
    exact Keeps.refl
  · refine Keeps.step begin'_keeps rfl ?_
    exact Keeps.refl

/-- Writes at most: sent clk civ cand tri prg bus lnk. -/
theorem execStSnapshot_keeps {b0 s} : Answers 50298181 s (execStSnapshot b0 s) := by
  unfold execStSnapshot
  extract_lets -merge -useContext +onlyGivenNames x0
  have h1 : Keeps 50298181 s x0 := by
    unfold x0
    refine Keeps.step begin'_keeps rfl ?_
    exact Keeps.refl
  try clear_value x0
  refine Answers.next ?_
  refine Keeps.ite ?_ ?_
  · refine Keeps.step send_keeps rfl ?_
    refine Keeps.step snapshot_keeps rfl ?_
    refine Keeps.step seqVoted_keeps rfl ?_
    exact h1
  · exact h1

/-- Writes at most: sent clk civ cand tri prg bus lnk. -/
theorem execRtcCapture_keeps {b0 s} : Answers 50298181 s (execRtcCapture b0 s) := by
  unfold execRtcCapture
  extract_lets -merge -useContext +onlyGivenNames x0
  have h1 : Keeps 50298181 s x0 := by
    unfold x0
    refine Keeps.step begin'_keeps rfl ?_
    exact Keeps.refl
  try clear_value x0
  refine Answers.next ?_
  refine Keeps.ite ?_ ?_
  · refine Keeps.step send_keeps rfl ?_
    refine Keeps.step rtcCapture_keeps rfl ?_
    refine Keeps.step seqVoted_keeps rfl ?_
    exact h1
  · exact h1

/-- Writes at most: sent clk civ cand prg regs bus evr lnk. -/
theorem execCivilHoldover_keeps {b0 s} : Answers 48184773 s (execCivilHoldover b0 s) := by
  unfold execCivilHoldover
  extract_lets -merge -useContext +onlyGivenNames x0
  have h1 : Keeps 48184773 s x0 := by
    unfold x0
    refine Keeps.step begin'_keeps rfl ?_
    exact Keeps.refl
  try clear_value x0
  refine Answers.next ?_
  refine Keeps.ite ?_ ?_
  · refine Keeps.step emit_keeps rfl ?_
    refine Keeps.app (wr_civ rfl) ?_
    exact h1
  · exact h1

/-- Writes at most: sent clk civ cand prg regs bus evr lnk. -/
theorem execCivilPendingDiscarded_keeps {b0 s} : Answers 48184773 s (execCivilPendingDiscarded b0 s) := by
  unfold execCivilPendingDiscarded
  extract_lets -merge -useContext +onlyGivenNames x0
  have h1 : Keeps 48184773 s x0 := by
    unfold x0
    refine Keeps.step begin'_keeps rfl ?_
    exact Keeps.refl
  try clear_value x0
  refine Answers.next ?_
  split
  · refine Keeps.ite ?_ ?_
    · refine Keeps.step nvEvent_keeps rfl ?_
      refine Keeps.app (wr_civ rfl) ?_
      exact h1
    · exact h1
  · exact h1

/-- Writes at most: sent clk civ cand prg bus lnk. -/
theorem execRtcWrite_keeps {b0 s} : Answers 50298309 s (execRtcWrite b0 s) := by
  unfold execRtcWrite
  extract_lets -merge -useContext +onlyGivenNames x0
  have h1 : Keeps 50298309 s x0 := by
    unfold x0
    refine Keeps.step begin'_keeps rfl ?_
    exact Keeps.refl
  try clear_value x0
  refine Answers.next ?_
  refine Keeps.ite ?_ ?_
  · refine Keeps.step rtcWrite_keeps rfl ?_
    exact h1
  · exact h1

/-- Writes at most: sent clk civ cand prg regs bus evr lnk. -/
theorem execTimeEpochNear_keeps {b0 s} : Answers 48184773 s (execTimeEpochNear b0 s) := by
  unfold execTimeEpochNear
  extract_lets -merge -useContext +onlyGivenNames x0
  have h1 : Keeps 48184773 s x0 := by
    unfold x0
    refine Keeps.step begin'_keeps rfl ?_
    exact Keeps.refl
  try clear_value x0
  extract_lets -merge -useContext +onlyGivenNames x2
  try clear_value x2
  refine Answers.next ?_
  refine Keeps.ite ?_ ?_
  · refine Keeps.step emit_keeps rfl ?_
    refine Keeps.app (wr_clk rfl) ?_
    exact h1
  · exact h1

/-- Writes at most: sent clk civ cand pwr tri prg frc vm xch regs bus rings fio snu evr upd lnk. -/
theorem execCycleLimit_keeps {b0 s} : Answers 38078725 s (execCycleLimit b0 s) := by
  unfold execCycleLimit
  extract_lets -merge -useContext +onlyGivenNames x0
  have h1 : Keeps 38078725 s x0 := by
    unfold x0
    refine Keeps.step begin'_keeps rfl ?_
    exact Keeps.refl
  try clear_value x0
  refine Answers.next ?_
  refine Keeps.ite ?_ ?_
  · refine Keeps.step vitalFault_keeps rfl ?_
    exact h1
  · exact h1

/-- Writes at most: sent clk civ cand prg regs bus evr lnk. -/
theorem execTimeProvHeld_keeps {b0 s} : Answers 48184773 s (execTimeProvHeld b0 s) := by
  unfold execTimeProvHeld
  extract_lets -merge -useContext +onlyGivenNames x0
  have h1 : Keeps 48184773 s x0 := by
    unfold x0
    refine Keeps.step begin'_keeps rfl ?_
    exact Keeps.refl
  try clear_value x0
  refine Answers.next ?_
  refine Keeps.ite ?_ ?_
  · refine Keeps.step emit_keeps rfl ?_
    refine Keeps.app (wr_clk rfl) ?_
    exact h1
  · exact h1

/-- Writes at most: sent clk civ cand prg bus lnk. -/
theorem execRtcLost_keeps {b0 s} : Answers 50298309 s (execRtcLost b0 s) := by
  unfold execRtcLost
  extract_lets -merge -useContext +onlyGivenNames x0
  have h1 : Keeps 50298309 s x0 := by
    unfold x0
    refine Keeps.step begin'_keeps rfl ?_
    exact Keeps.refl
  try clear_value x0
  refine Answers.next ?_
  refine Keeps.ite ?_ ?_
  · refine Keeps.app (wr_cand rfl) ?_
    exact h1
  · exact h1

/-- Writes at most: regs. -/
theorem vbakTake_keeps {b0 s} : Keeps 67092479 s (vbakTake b0 s) := by
  unfold vbakTake
  extract_lets -merge -useContext +onlyGivenNames x0
  try clear_value x0
  refine Keeps.step setRf_keeps rfl ?_
  refine Keeps.step setRf_keeps rfl ?_
  refine Keeps.step setRf_keeps rfl ?_
  exact Keeps.refl

/-- Writes at most: sent clk civ cand prg regs bus lnk. -/
theorem execVbakSample_keeps {b0 b1 s} : Answers 50281925 s (execVbakSample b0 b1 s) := by
  unfold execVbakSample
  extract_lets -merge -useContext +onlyGivenNames x0
  have h1 : Keeps 50281925 s x0 := by
    unfold x0
    refine Keeps.step begin'_keeps rfl ?_
    exact Keeps.refl
  try clear_value x0
  refine Answers.next ?_
  refine Keeps.ite ?_ ?_
  · refine Keeps.step vbakTake_keeps rfl ?_
    exact h1
  · exact h1

end Sys2Proof.Machine
end

