-- ==== Sys2Proof/Laws/InvCivil.lean ====
section
/-! SUPPORT. The functions of Machine/Civil.lean keep the invariant `Inv`. -/

namespace Sys2Proof.Machine

theorem lockViolation_inv {b0 b1 s} (hs : Inv s) : Inv (lockViolation b0 b1 s) := by
  unfold lockViolation
  extract_lets -merge -useContext +onlyGivenNames x0
  have h1 : Inv x0 := by
    unfold x0
    refine Inv.ite ?_ ?_
    · exact hs
    · refine Inv.keep setRv_keeps rfl ?_
      refine Inv.keep setRv_keeps rfl ?_
      exact hs
  try clear_value x0
  refine emit_inv ?_
  refine Inv.keep addRf_keeps rfl ?_
  refine Inv.keep setRf_keeps rfl ?_
  exact h1

theorem blockCommand_inv {b0 b1 s} (hf1 : ∀ t, Inv t → Inv (b1 t)) (hs : Inv s) : Inv (blockCommand b0 b1 s) := by
  unfold blockCommand
  refine Inv.ite ?_ ?_
  · refine Inv.ite ?_ ?_
    · refine hf1 _ ?_
      refine Inv.keep seqVoted_keeps rfl ?_
      exact hs
    · refine trapFault_inv ?_
      exact hs
  · exact hs

theorem civRefuse_inv {b0 s} (hs : Inv s) : Inv (civRefuse b0 s) := by
  unfold civRefuse
  refine emit_inv ?_
  refine Inv.keep addRf_keeps rfl ?_
  refine Inv.keep setRf_keeps rfl ?_
  refine Inv.keep (wr_civ (m := 67108847) rfl) rfl ?_
  exact hs

theorem civStep_inv {s} (hs : Inv s) : Inv (civStep s) := by
  unfold civStep
  extract_lets -merge -useContext +onlyGivenNames x0
  try clear_value x0
  split
  · extract_lets -merge -useContext +onlyGivenNames x2
    have h3 : Inv x2 := by
      unfold x2
      refine Inv.keep civLock_keeps rfl ?_
      refine Inv.keep civApply_keeps rfl ?_
      exact hs
    try clear_value x2
    refine Inv.keep (wr_civ (m := 67108847) rfl) rfl ?_
    exact h3
  · refine Inv.ite ?_ ?_
    · refine Inv.keep civLock_keeps rfl ?_
      refine Inv.keep civApply_keeps rfl ?_
      exact hs
    · refine civRefuse_inv ?_
      exact hs

theorem civAccept_inv {s} (hs : Inv s) : Inv (civAccept s) := by
  unfold civAccept
  extract_lets -merge -useContext +onlyGivenNames x0
  try clear_value x0
  extract_lets -merge -useContext +onlyGivenNames x1
  have h2 : Inv x1 := by
    unfold x1
    refine nvEvent_inv ?_
    exact hs
  try clear_value x1
  split
  · refine nvEvent_inv ?_
    exact hs
  · exact h2
  · split
    · refine Inv.ite ?_ ?_
      · refine emit_inv ?_
        refine Inv.keep consumeToken_keeps rfl ?_
        refine Inv.keep civLock_keeps rfl ?_
        refine Inv.keep civApply_keeps rfl ?_
        exact hs
      · exact h2
    · exact h2

theorem civDiscard_inv {s} (hs : Inv s) : Inv (civDiscard s) := by
  unfold civDiscard
  split
  · refine nvEvent_inv ?_
    exact hs
  · refine Inv.keep (wr_civ (m := 67108847) rfl) rfl ?_
    exact hs

theorem incrWrite_inv {b0 s} (hs : Inv s) : Inv (incrWrite b0 s) := by
  unfold incrWrite
  refine Inv.ite ?_ ?_
  · refine Inv.keep setRv_keeps rfl ?_
    exact hs
  · refine nvEvent_inv ?_
    refine Inv.keep setRf_keeps rfl ?_
    exact hs

theorem rtcCapture_inv {s} (hs : Inv s) : Inv (rtcCapture s) := by
  unfold rtcCapture
  refine Inv.set_cand (fun h => ?_) ?_
  · exact h.cand
  · exact hs

theorem rtcWrite_inv {s} (hs : Inv s) : Inv (rtcWrite s) := by
  unfold rtcWrite
  have h := hs
  refine ⟨h.mem, ?_, h.evr, h.frc, h.lat⟩
  · exact h.cand

theorem execStep_inv {b0 s} (hs : Inv s) : InvA (execStep b0 s) := by
  unfold execStep
  refine InvA.next ?_
  refine blockCommand_inv ?_ ?_
  · intro s hs
    refine civStep_inv ?_
    exact hs
  · refine begin'_inv ?_
    exact hs

theorem execAccept_inv {b0 s} (hs : Inv s) : InvA (execAccept b0 s) := by
  unfold execAccept
  refine InvA.next ?_
  refine blockCommand_inv ?_ ?_
  · intro s hs
    refine civAccept_inv ?_
    exact hs
  · refine begin'_inv ?_
    exact hs

theorem execKick_inv {b0 s} (hs : Inv s) : InvA (execKick b0 s) := by
  unfold execKick
  refine InvA.next ?_
  refine blockCommand_inv ?_ ?_
  · intro s hs
    refine Inv.keep civKick_keeps rfl ?_
    exact hs
  · refine begin'_inv ?_
    exact hs

theorem execDiscard_inv {b0 s} (hs : Inv s) : InvA (execDiscard b0 s) := by
  unfold execDiscard
  refine InvA.next ?_
  refine blockCommand_inv ?_ ?_
  · intro s hs
    refine civDiscard_inv ?_
    exact hs
  · refine begin'_inv ?_
    exact hs

theorem execTimeIncr_inv {b0 b1 s} (hs : Inv s) : InvA (execTimeIncr b0 b1 s) := by
  unfold execTimeIncr
  refine InvA.next ?_
  refine blockCommand_inv ?_ ?_
  · intro s hs
    refine incrWrite_inv ?_
    exact hs
  · refine begin'_inv ?_
    exact hs

theorem execStSnapshot_inv {b0 s} (hs : Inv s) : InvA (execStSnapshot b0 s) := by
  unfold execStSnapshot
  extract_lets -merge -useContext +onlyGivenNames x0
  have h1 : Inv x0 := by
    unfold x0
    refine begin'_inv ?_
    exact hs
  try clear_value x0
  refine InvA.next ?_
  refine Inv.ite ?_ ?_
  · refine Inv.keep send_keeps rfl ?_
    refine Inv.keep snapshot_keeps rfl ?_
    refine Inv.keep seqVoted_keeps rfl ?_
    exact h1
  · exact h1

theorem execRtcCapture_inv {b0 s} (hs : Inv s) : InvA (execRtcCapture b0 s) := by
  unfold execRtcCapture
  extract_lets -merge -useContext +onlyGivenNames x0
  have h1 : Inv x0 := by
    unfold x0
    refine begin'_inv ?_
    exact hs
  try clear_value x0
  refine InvA.next ?_
  refine Inv.ite ?_ ?_
  · refine Inv.keep send_keeps rfl ?_
    refine rtcCapture_inv ?_
    refine Inv.keep seqVoted_keeps rfl ?_
    exact h1
  · exact h1

theorem execCivilHoldover_inv {b0 s} (hs : Inv s) : InvA (execCivilHoldover b0 s) := by
  unfold execCivilHoldover
  extract_lets -merge -useContext +onlyGivenNames x0
  have h1 : Inv x0 := by
    unfold x0
    refine begin'_inv ?_
    exact hs
  try clear_value x0
  refine InvA.next ?_
  refine Inv.ite ?_ ?_
  · refine emit_inv ?_
    refine Inv.keep (wr_civ (m := 67108847) rfl) rfl ?_
    exact h1
  · exact h1

theorem execCivilPendingDiscarded_inv {b0 s} (hs : Inv s) : InvA (execCivilPendingDiscarded b0 s) := by
  unfold execCivilPendingDiscarded
  extract_lets -merge -useContext +onlyGivenNames x0
  have h1 : Inv x0 := by
    unfold x0
    refine begin'_inv ?_
    exact hs
  try clear_value x0
  refine InvA.next ?_
  split
  · refine Inv.ite ?_ ?_
    · refine nvEvent_inv ?_
      refine Inv.keep (wr_civ (m := 67108847) rfl) rfl ?_
      exact h1
    · exact h1
  · exact h1

theorem execRtcWrite_inv {b0 s} (hs : Inv s) : InvA (execRtcWrite b0 s) := by
  unfold execRtcWrite
  extract_lets -merge -useContext +onlyGivenNames x0
  have h1 : Inv x0 := by
    unfold x0
    refine begin'_inv ?_
    exact hs
  try clear_value x0
  refine InvA.next ?_
  refine Inv.ite ?_ ?_
  · refine rtcWrite_inv ?_
    exact h1
  · exact h1

theorem execTimeEpochNear_inv {b0 s} (hs : Inv s) : InvA (execTimeEpochNear b0 s) := by
  unfold execTimeEpochNear
  extract_lets -merge -useContext +onlyGivenNames x0
  have h1 : Inv x0 := by
    unfold x0
    refine begin'_inv ?_
    exact hs
  try clear_value x0
  extract_lets -merge -useContext +onlyGivenNames x2
  try clear_value x2
  refine InvA.next ?_
  refine Inv.ite ?_ ?_
  · refine emit_inv ?_
    refine Inv.keep (wr_clk (m := 67108855) rfl) rfl ?_
    exact h1
  · exact h1

theorem execCycleLimit_inv {b0 s} (hs : Inv s) : InvA (execCycleLimit b0 s) := by
  unfold execCycleLimit
  extract_lets -merge -useContext +onlyGivenNames x0
  have h1 : Inv x0 := by
    unfold x0
    refine begin'_inv ?_
    exact hs
  try clear_value x0
  refine InvA.next ?_
  refine Inv.ite ?_ ?_
  · refine vitalFault_inv ?_
    exact h1
  · exact h1

theorem execTimeProvHeld_inv {b0 s} (hs : Inv s) : InvA (execTimeProvHeld b0 s) := by
  unfold execTimeProvHeld
  extract_lets -merge -useContext +onlyGivenNames x0
  have h1 : Inv x0 := by
    unfold x0
    refine begin'_inv ?_
    exact hs
  try clear_value x0
  refine InvA.next ?_
  refine Inv.ite ?_ ?_
  · refine emit_inv ?_
    refine Inv.keep (wr_clk (m := 67108855) rfl) rfl ?_
    exact h1
  · exact h1

theorem execRtcLost_inv {b0 s} (hs : Inv s) : InvA (execRtcLost b0 s) := by
  unfold execRtcLost
  extract_lets -merge -useContext +onlyGivenNames x0
  have h1 : Inv x0 := by
    unfold x0
    refine begin'_inv ?_
    exact hs
  try clear_value x0
  refine InvA.next ?_
  refine Inv.ite ?_ ?_
  · refine Inv.set_cand (fun h => ?_) ?_
    · exact h.cand
    · exact h1
  · exact h1

theorem execVbakSample_inv {b0 b1 s} (hs : Inv s) : InvA (execVbakSample b0 b1 s) := by
  unfold execVbakSample
  extract_lets -merge -useContext +onlyGivenNames x0
  have h1 : Inv x0 := by
    unfold x0
    refine begin'_inv ?_
    exact hs
  try clear_value x0
  refine InvA.next ?_
  refine Inv.ite ?_ ?_
  · refine Inv.keep vbakTake_keeps rfl ?_
    exact h1
  · exact h1

end Sys2Proof.Machine
end

