-- ==== Sys2Proof/Laws/KeepsTriad.lean ====
section
/-! SUPPORT. Frames of the functions of Machine/Triad.lean: what each leaves alone, said once. The docstrings name the parts of `State` a function may write; the mask marks all others. -/

namespace Sys2Proof.Machine

/-- Writes at most: regs evr. -/
theorem laneRecord_keeps {b0 b1 b2 s} : Keeps 64995327 s (laneRecord b0 b1 b2 s) := by
  unfold laneRecord
  refine Keeps.step emit_keeps rfl ?_
  exact Keeps.refl

/-- Writes at most: regs evr. -/
theorem degradedRecord_keeps {b0 s} : Keeps 64995327 s (degradedRecord b0 s) := by
  unfold degradedRecord
  split
  · refine Keeps.step laneRecord_keeps rfl ?_
    exact Keeps.refl
  · exact Keeps.refl

/-- Writes at most: tri regs evr sta. -/
theorem retireLane_keeps {b0 b1 s} : Keeps 60800895 s (retireLane b0 b1 s) := by
  unfold retireLane
  extract_lets -merge -useContext +onlyGivenNames x0
  have h1 : Keeps 60800895 s x0 := by
    unfold x0
    refine Keeps.step modLane_keeps rfl ?_
    refine Keeps.step laneTo_keeps rfl ?_
    refine Keeps.step voterLog_keeps rfl ?_
    exact Keeps.refl
  try clear_value x0
  extract_lets -merge -useContext +onlyGivenNames x2
  try clear_value x2
  extract_lets -merge -useContext +onlyGivenNames x3
  have h4 : Keeps 60800895 s x3 := by
    unfold x3
    refine Keeps.app (wr_tri rfl) ?_
    exact h1
  try clear_value x3
  extract_lets -merge -useContext +onlyGivenNames x5
  have h6 : Keeps 60800895 s x5 := by
    unfold x5
    refine Keeps.foldl ?_ _ ?_
    · intro s a7
      refine Keeps.ite ?_ ?_
      · refine Keeps.step stat_keeps rfl ?_
        exact Keeps.refl
      · exact Keeps.refl
    · exact h4
  try clear_value x5
  refine Keeps.step degradedRecord_keeps rfl ?_
  refine Keeps.step laneRecord_keeps rfl ?_
  exact h6

/-- Writes at most: tri regs evr. -/
theorem dimLane_keeps {b0 b1 s} : Keeps 64995199 s (dimLane b0 b1 s) := by
  unfold dimLane
  extract_lets -merge -useContext +onlyGivenNames x0
  have h1 : Keeps 64995199 s x0 := by
    unfold x0
    refine Keeps.step laneRecord_keeps rfl ?_
    exact Keeps.refl
  try clear_value x0
  refine Keeps.step modLane_keeps rfl ?_
  refine Keeps.step laneTo_keeps rfl ?_
  exact h1

/-- Writes at most: sent cand pwr tri prg frc vm xch regs rings fio snu evr sta upd lnk. -/
theorem tripLane_keeps {b0 b1 b2 s} : Keeps 33917213 s (tripLane b0 b1 b2 s) := by
  unfold tripLane
  refine Keeps.ite ?_ ?_
  · exact Keeps.refl
  · refine Keeps.ite ?_ ?_
    · refine Keeps.step vitalFault_keeps rfl ?_
      exact Keeps.refl
    · extract_lets -merge -useContext +onlyGivenNames x0
      try clear_value x0
      extract_lets -merge -useContext +onlyGivenNames x1
      try clear_value x1
      refine Keeps.ite ?_ ?_
      · refine Keeps.step dimLane_keeps rfl ?_
        exact Keeps.refl
      · refine Keeps.step retireLane_keeps rfl ?_
        exact Keeps.refl

/-- Writes at most: regs sta. -/
theorem countVerdict_keeps {b0 b1 s} : Keeps 62898175 s (countVerdict b0 b1 s) := by
  unfold countVerdict
  refine Keeps.foldl ?_ _ ?_
  · intro s a0
    refine Keeps.ite ?_ ?_
    · refine Keeps.step stat_keeps rfl ?_
      refine Keeps.step cnt_keeps rfl ?_
      exact Keeps.refl
    · exact Keeps.refl
  · exact Keeps.refl

/-- Writes at most: regs sta. -/
theorem countTimeout_keeps {b0 s} : Keeps 62898175 s (countTimeout b0 s) := by
  unfold countTimeout
  refine Keeps.step stat_keeps rfl ?_
  refine Keeps.step cnt_keeps rfl ?_
  exact Keeps.refl

/-- Writes at most: sent clk civ cand tri prg regs bus evr sta lnk. -/
theorem execSelfTestDone_keeps {b0 b1 b2 s} : Answers 43990341 s (execSelfTestDone b0 b1 b2 s) := by
  unfold execSelfTestDone
  extract_lets -merge -useContext +onlyGivenNames x0
  have h1 : Keeps 43990341 s x0 := by
    unfold x0
    refine Keeps.step begin'_keeps rfl ?_
    exact Keeps.refl
  try clear_value x0
  refine Answers.next ?_
  refine Keeps.ite ?_ ?_
  · refine Keeps.ite ?_ ?_
    · refine Keeps.step laneTo_keeps rfl ?_
      exact h1
    · refine Keeps.step retireLane_keeps rfl ?_
      exact h1
  · exact h1

/-- Writes at most: regs. -/
theorem injResult_keeps {b0 b1 s} : Keeps 67092479 s (injResult b0 b1 s) := by
  unfold injResult
  refine Keeps.foldl ?_ _ ?_
  · intro s a0
    refine Keeps.step setRf_keeps rfl ?_
    exact Keeps.refl
  · exact Keeps.refl

/-- Writes at most: tri. -/
theorem loadDelays_keeps {b0 s} : Keeps 67108735 s (loadDelays b0 s) := by
  unfold loadDelays
  refine Keeps.step modLane_keeps rfl ?_
  exact Keeps.refl

/-- Writes at most: tri. -/
theorem abandonRelight_keeps {s} : Keeps 67108735 s (abandonRelight s) := by
  unfold abandonRelight
  refine Keeps.foldl ?_ _ ?_
  · intro s a0
    refine Keeps.ite ?_ ?_
    · refine Keeps.step laneTo_keeps rfl ?_
      exact Keeps.refl
    · exact Keeps.refl
  · exact Keeps.refl

/-- Writes at most: tri regs. -/
theorem startHold_keeps {b0 s} : Keeps 67092351 s (startHold b0 s) := by
  unfold startHold
  extract_lets -merge -useContext +onlyGivenNames x0
  have h1 : Keeps 67092351 s x0 := by
    unfold x0
    refine Keeps.step abandonRelight_keeps rfl ?_
    exact Keeps.refl
  try clear_value x0
  extract_lets -merge -useContext +onlyGivenNames x2
  try clear_value x2
  extract_lets -merge -useContext +onlyGivenNames x3
  have h4 : Keeps 67092351 s x3 := by
    unfold x3
    refine Keeps.app (wr_tri rfl) ?_
    exact h1
  try clear_value x3
  split
  · refine Keeps.step addRf_keeps rfl ?_
    refine Keeps.app (wr_tri rfl) ?_
    exact h4
  · refine Keeps.step cnt_keeps rfl ?_
    refine Keeps.app (wr_tri rfl) ?_
    exact h4
  · refine Keeps.step cnt_keeps rfl ?_
    refine Keeps.app (wr_tri rfl) ?_
    exact h4

/-- Writes at most: sent cand pwr tri prg frc vm xch regs rings fio snu evr upd lnk. -/
theorem unitDisagrees_keeps {b0 s} : Keeps 38111517 s (unitDisagrees b0 s) := by
  unfold unitDisagrees
  refine Keeps.ite ?_ ?_
  · refine Keeps.step vitalFault_keeps rfl ?_
    exact Keeps.refl
  · refine Keeps.step startHold_keeps rfl ?_
    exact Keeps.refl

/-- Writes at most: sent clk civ cand tri prg regs bus evr lnk. -/
theorem execDegradedNotice_keeps {b0 s} : Answers 48184645 s (execDegradedNotice b0 s) := by
  unfold execDegradedNotice
  extract_lets -merge -useContext +onlyGivenNames x0
  have h1 : Keeps 48184645 s x0 := by
    unfold x0
    refine Keeps.step begin'_keeps rfl ?_
    exact Keeps.refl
  try clear_value x0
  refine Answers.next ?_
  refine Keeps.ite ?_ ?_
  · refine Keeps.step degradedRecord_keeps rfl ?_
    refine Keeps.app (wr_tri rfl) ?_
    exact h1
  · exact h1

/-- Writes at most: sent clk civ cand pwr tri prg frc vm xch regs bus rings fio snu evr upd lnk. -/
theorem execClockFault_keeps {b0 b1 b2 s} : Answers 38078725 s (execClockFault b0 b1 b2 s) := by
  unfold execClockFault
  extract_lets -merge -useContext +onlyGivenNames x0
  have h1 : Keeps 38078725 s x0 := by
    unfold x0
    refine Keeps.step begin'_keeps rfl ?_
    exact Keeps.refl
  try clear_value x0
  refine Answers.next ?_
  refine Keeps.ite ?_ ?_
  · refine Keeps.step vitalFault_keeps rfl ?_
    exact h1
  · exact h1

/-- Writes at most: tri lat fio. -/
theorem embers_keeps {s} : Keeps 66322303 s (embers s) := by
  unfold embers
  extract_lets -merge -useContext +onlyGivenNames x0
  try clear_value x0
  extract_lets -merge -useContext +onlyGivenNames x1
  have h2 : Keeps 66322303 s x1 := by
    unfold x1
    refine Keeps.ite ?_ ?_
    · exact Keeps.refl
    · refine Keeps.app (wr_tri rfl) ?_
      exact Keeps.refl
  try clear_value x1
  extract_lets -merge -useContext +onlyGivenNames x3
  try clear_value x3
  extract_lets -merge -useContext +onlyGivenNames x4
  have h5 : Keeps 66322303 s x4 := by
    unfold x4
    refine Keeps.ite ?_ ?_
    · exact h2
    · refine Keeps.app (wr_lat rfl) ?_
      exact h2
  try clear_value x4
  extract_lets -merge -useContext +onlyGivenNames x6
  try clear_value x6
  extract_lets -merge -useContext +onlyGivenNames x7
  have h8 : Keeps 66322303 s x7 := by
    unfold x7
    refine Keeps.ite ?_ ?_
    · exact h5
    · refine Keeps.app (wr_fio rfl) ?_
      exact h5
  try clear_value x7
  refine Keeps.app (wr_tri rfl) ?_
  exact h8

/-- Writes at most: tri. -/
theorem restoreLane_keeps {b0 b1 s} : Keeps 67108735 s (restoreLane b0 b1 s) := by
  unfold restoreLane
  extract_lets -merge -useContext +onlyGivenNames x0
  try clear_value x0
  refine Keeps.step modLane_keeps rfl ?_
  exact Keeps.refl

/-- Writes at most: tri dbg sta. -/
theorem voterRestore_keeps {s} : Keeps 62914175 s (voterRestore s) := by
  unfold voterRestore
  split
  · exact Keeps.refl
  · extract_lets -merge -useContext +onlyGivenNames x3
    try clear_value x3
    extract_lets -merge -useContext +onlyGivenNames x4
    have h5 : Keeps 62914175 s x4 := by
      unfold x4
      refine Keeps.step restoreLane_keeps rfl ?_
      refine Keeps.step restoreLane_keeps rfl ?_
      refine Keeps.step restoreLane_keeps rfl ?_
      exact Keeps.refl
    try clear_value x4
    exact Keeps.app (show Keeps 62914175 x4 _ from ⟨fun _ => rfl, fun _ => rfl, fun _ => rfl, fun _ => rfl, fun _ => rfl, fun _ => rfl, fun _ => rfl, fun h => noBit h rfl, fun h => noBit h rfl, fun _ => rfl, fun _ => rfl, fun _ => rfl, fun _ => rfl, fun _ => rfl, fun _ => rfl, fun _ => rfl, fun _ => rfl, fun _ => rfl, fun _ => rfl, fun _ => rfl, fun _ => rfl, fun _ => rfl, fun h => noBit h rfl, fun _ => rfl, fun _ => rfl, fun _ => rfl⟩) h5

/-- Writes at most: fio. -/
theorem fieldRestore_keeps {s} : Keeps 66584575 s (fieldRestore s) := by
  unfold fieldRestore
  split
  · exact Keeps.refl
  · extract_lets -merge -useContext +onlyGivenNames x3
    try clear_value x3
    refine Keeps.app (wr_fio rfl) ?_
    exact Keeps.refl

/-- Writes at most: regs evr. -/
theorem debugRecord_keeps {b0 b1 b2 s} : Keeps 64995327 s (debugRecord b0 b1 b2 s) := by
  unfold debugRecord
  refine Keeps.step emit_keeps rfl ?_
  exact Keeps.refl

/-- Writes at most: regs evr. -/
theorem debugDeny_keeps {b0 b1 s} : Keeps 64995327 s (debugDeny b0 b1 s) := by
  unfold debugDeny
  refine Keeps.step debugRecord_keeps rfl ?_
  refine Keeps.step cnt_keeps rfl ?_
  exact Keeps.refl

/-- Writes at most: sent cand pwr tri dbg prg frc vm xch regs rings fio snu evr upd lnk. -/
theorem debugBreak_keeps {b0 b1 s} : Keeps 38111261 s (debugBreak b0 b1 s) := by
  unfold debugBreak
  refine Keeps.step vitalFault_keeps rfl ?_
  refine Keeps.step debugRecord_keeps rfl ?_
  refine Keeps.step modLane_keeps rfl ?_
  refine Keeps.app (wr_dbg rfl) ?_
  exact Keeps.refl

/-- Writes at most: tri dbg regs evr. -/
theorem debugAttachOk_keeps {b0 s} : Keeps 64994943 s (debugAttachOk b0 s) := by
  unfold debugAttachOk
  extract_lets -merge -useContext +onlyGivenNames x0
  have h1 : Keeps 64994943 s x0 := by
    unfold x0
    refine Keeps.step modLane_keeps rfl ?_
    refine Keeps.step laneTo_keeps rfl ?_
    exact Keeps.refl
  try clear_value x0
  refine Keeps.step debugRecord_keeps rfl ?_
  refine Keeps.step cnt_keeps rfl ?_
  refine Keeps.app (wr_dbg rfl) ?_
  exact h1

/-- Writes at most: sent clk civ cand pwr tri dbg prg frc vm xch regs bus rings fio snu evr upd lnk. -/
theorem execDebugAttach_keeps {b0 b1 s} : Answers 38078469 s (execDebugAttach b0 b1 s) := by
  unfold execDebugAttach
  extract_lets -merge -useContext +onlyGivenNames x0
  have h1 : Keeps 38078469 s x0 := by
    unfold x0
    refine Keeps.step begin'_keeps rfl ?_
    exact Keeps.refl
  try clear_value x0
  refine Answers.next ?_
  refine Keeps.ite ?_ ?_
  · exact h1
  · refine Keeps.ite ?_ ?_
    · refine Keeps.step debugDeny_keeps rfl ?_
      exact h1
    · refine Keeps.ite ?_ ?_
      · refine Keeps.ite ?_ ?_
        · refine Keeps.step debugAttachOk_keeps rfl ?_
          exact h1
        · exact h1
      · refine Keeps.ite ?_ ?_
        · refine Keeps.step debugBreak_keeps rfl ?_
          exact h1
        · refine Keeps.step debugAttachOk_keeps rfl ?_
          exact h1

/-- Writes at most: tri dbg regs evr. -/
theorem debugRelease_keeps {b0 s} : Keeps 64994943 s (debugRelease b0 s) := by
  unfold debugRelease
  extract_lets -merge -useContext +onlyGivenNames x0
  have h1 : Keeps 64994943 s x0 := by
    unfold x0
    refine Keeps.step modLane_keeps rfl ?_
    refine Keeps.step laneTo_keeps rfl ?_
    exact Keeps.refl
  try clear_value x0
  refine Keeps.step debugRecord_keeps rfl ?_
  refine Keeps.app (wr_dbg rfl) ?_
  exact h1

/-- Writes at most: sent clk civ cand tri dbg prg regs bus evr lnk. -/
theorem execDebugDetach_keeps {b0 s} : Answers 48184389 s (execDebugDetach b0 s) := by
  unfold execDebugDetach
  extract_lets -merge -useContext +onlyGivenNames x0
  have h1 : Keeps 48184389 s x0 := by
    unfold x0
    refine Keeps.step begin'_keeps rfl ?_
    exact Keeps.refl
  try clear_value x0
  refine Answers.next ?_
  refine Keeps.ite ?_ ?_
  · exact h1
  · refine Keeps.ite ?_ ?_
    · refine Keeps.step debugDeny_keeps rfl ?_
      exact h1
    · refine Keeps.ite ?_ ?_
      · refine Keeps.step debugRelease_keeps rfl ?_
        exact h1
      · exact h1

/-- Writes at most: sent clk civ cand pwr tri dbg prg frc vm xch regs bus rings fio snu evr upd lnk. -/
theorem execDebugHalt_keeps {b0 b1 s} : Answers 38078469 s (execDebugHalt b0 b1 s) := by
  unfold execDebugHalt
  extract_lets -merge -useContext +onlyGivenNames x0
  have h1 : Keeps 38078469 s x0 := by
    unfold x0
    refine Keeps.step begin'_keeps rfl ?_
    exact Keeps.refl
  try clear_value x0
  refine Answers.next ?_
  refine Keeps.ite ?_ ?_
  · exact h1
  · refine Keeps.ite ?_ ?_
    · refine Keeps.step debugDeny_keeps rfl ?_
      exact h1
    · refine Keeps.ite ?_ ?_
      · refine Keeps.step modLane_keeps rfl ?_
        exact h1
      · refine Keeps.ite ?_ ?_
        · exact h1
        · refine Keeps.ite ?_ ?_
          · refine Keeps.step modLane_keeps rfl ?_
            exact h1
          · refine Keeps.ite ?_ ?_
            · refine Keeps.step debugBreak_keeps rfl ?_
              exact h1
            · exact h1

/-- Writes at most: sent clk civ cand tri dbg prg regs bus evr lnk. -/
theorem execDebugAttachLimit_keeps {b0 s} : Answers 48184389 s (execDebugAttachLimit b0 s) := by
  unfold execDebugAttachLimit
  extract_lets -merge -useContext +onlyGivenNames x0
  have h1 : Keeps 48184389 s x0 := by
    unfold x0
    refine Keeps.step begin'_keeps rfl ?_
    exact Keeps.refl
  try clear_value x0
  refine Answers.next ?_
  refine Keeps.ite ?_ ?_
  · refine Keeps.foldl ?_ _ ?_
    · intro s a2
      refine Keeps.ite ?_ ?_
      · refine Keeps.step debugRelease_keeps rfl ?_
        exact Keeps.refl
      · exact Keeps.refl
    · exact h1
  · exact h1

/-- Writes at most: sent clk civ cand prg regs bus evr lnk. -/
theorem execDebugDenied_keeps {b0 b1 b2 s} : Answers 48184773 s (execDebugDenied b0 b1 b2 s) := by
  unfold execDebugDenied
  extract_lets -merge -useContext +onlyGivenNames x0
  have h1 : Keeps 48184773 s x0 := by
    unfold x0
    refine Keeps.step begin'_keeps rfl ?_
    exact Keeps.refl
  try clear_value x0
  refine Answers.next ?_
  refine Keeps.ite ?_ ?_
  · refine Keeps.step debugDeny_keeps rfl ?_
    exact h1
  · exact h1

end Sys2Proof.Machine
end

