-- ==== Sys2Proof/Laws/InvTriad.lean ====
section
/-! SUPPORT. The functions of Machine/Triad.lean keep the invariant `Inv`. -/

namespace Sys2Proof.Machine

theorem laneRecord_inv {b0 b1 b2 s} (hs : Inv s) : Inv (laneRecord b0 b1 b2 s) := by
  unfold laneRecord
  refine emit_inv ?_
  exact hs

theorem degradedRecord_inv {b0 s} (hs : Inv s) : Inv (degradedRecord b0 s) := by
  unfold degradedRecord
  split
  · refine laneRecord_inv ?_
    exact hs
  · exact hs

theorem retireLane_inv {b0 b1 s} (hs : Inv s) : Inv (retireLane b0 b1 s) := by
  unfold retireLane
  extract_lets -merge -useContext +onlyGivenNames x0
  have h1 : Inv x0 := by
    unfold x0
    refine Inv.keep modLane_keeps rfl ?_
    refine Inv.keep laneTo_keeps rfl ?_
    refine Inv.keep voterLog_keeps rfl ?_
    exact hs
  try clear_value x0
  extract_lets -merge -useContext +onlyGivenNames x2
  try clear_value x2
  extract_lets -merge -useContext +onlyGivenNames x3
  have h4 : Inv x3 := by
    unfold x3
    refine Inv.keep (wr_tri (m := 67108735) rfl) rfl ?_
    exact h1
  try clear_value x3
  extract_lets -merge -useContext +onlyGivenNames x5
  have h6 : Inv x5 := by
    unfold x5
    refine Inv.foldl ?_ _ ?_
    · intro s a7 hs
      refine Inv.ite ?_ ?_
      · refine Inv.keep stat_keeps rfl ?_
        exact hs
      · exact hs
    · exact h4
  try clear_value x5
  refine degradedRecord_inv ?_
  refine laneRecord_inv ?_
  exact h6

theorem dimLane_inv {b0 b1 s} (hs : Inv s) : Inv (dimLane b0 b1 s) := by
  unfold dimLane
  extract_lets -merge -useContext +onlyGivenNames x0
  have h1 : Inv x0 := by
    unfold x0
    refine laneRecord_inv ?_
    exact hs
  try clear_value x0
  refine Inv.keep modLane_keeps rfl ?_
  refine Inv.keep laneTo_keeps rfl ?_
  exact h1

theorem tripLane_inv {b0 b1 b2 s} (hs : Inv s) : Inv (tripLane b0 b1 b2 s) := by
  unfold tripLane
  refine Inv.ite ?_ ?_
  · exact hs
  · refine Inv.ite ?_ ?_
    · refine vitalFault_inv ?_
      exact hs
    · extract_lets -merge -useContext +onlyGivenNames x0
      try clear_value x0
      extract_lets -merge -useContext +onlyGivenNames x1
      try clear_value x1
      refine Inv.ite ?_ ?_
      · refine dimLane_inv ?_
        exact hs
      · refine retireLane_inv ?_
        exact hs

theorem execSelfTestDone_inv {b0 b1 b2 s} (hs : Inv s) : InvA (execSelfTestDone b0 b1 b2 s) := by
  unfold execSelfTestDone
  extract_lets -merge -useContext +onlyGivenNames x0
  have h1 : Inv x0 := by
    unfold x0
    refine begin'_inv ?_
    exact hs
  try clear_value x0
  refine InvA.next ?_
  refine Inv.ite ?_ ?_
  · refine Inv.ite ?_ ?_
    · refine Inv.keep laneTo_keeps rfl ?_
      exact h1
    · refine retireLane_inv ?_
      exact h1
  · exact h1

theorem unitDisagrees_inv {b0 s} (hs : Inv s) : Inv (unitDisagrees b0 s) := by
  unfold unitDisagrees
  refine Inv.ite ?_ ?_
  · refine vitalFault_inv ?_
    exact hs
  · refine Inv.keep startHold_keeps rfl ?_
    exact hs

theorem execDegradedNotice_inv {b0 s} (hs : Inv s) : InvA (execDegradedNotice b0 s) := by
  unfold execDegradedNotice
  extract_lets -merge -useContext +onlyGivenNames x0
  have h1 : Inv x0 := by
    unfold x0
    refine begin'_inv ?_
    exact hs
  try clear_value x0
  refine InvA.next ?_
  refine Inv.ite ?_ ?_
  · refine degradedRecord_inv ?_
    refine Inv.keep (wr_tri (m := 67108735) rfl) rfl ?_
    exact h1
  · exact h1

theorem execClockFault_inv {b0 b1 b2 s} (hs : Inv s) : InvA (execClockFault b0 b1 b2 s) := by
  unfold execClockFault
  extract_lets -merge -useContext +onlyGivenNames x0
  have h1 : Inv x0 := by
    unfold x0
    refine begin'_inv ?_
    exact hs
  try clear_value x0
  refine InvA.next ?_
  refine Inv.ite ?_ ?_
  · refine vitalFault_inv ?_
    exact h1
  · exact h1

theorem embers_inv {s} (hs : Inv s) : Inv (embers s) := by
  unfold embers
  extract_lets -merge -useContext +onlyGivenNames x0
  try clear_value x0
  extract_lets -merge -useContext +onlyGivenNames x1
  have h2 : Inv x1 := by
    unfold x1
    refine Inv.ite ?_ ?_
    · exact hs
    · refine Inv.keep (wr_tri (m := 67108735) rfl) rfl ?_
      exact hs
  try clear_value x1
  extract_lets -merge -useContext +onlyGivenNames x3
  have h4 : x3 = x1.lat := rfl
  replace h4 : x3.updQ.length ≤ 64 := by
    rw [h4]
    exact h2.lat
  try clear_value x3
  extract_lets -merge -useContext +onlyGivenNames x5
  have h6 : Inv x5 := by
    unfold x5
    refine Inv.ite ?_ ?_
    · exact h2
    · refine Inv.set_lat (fun h => ?_) ?_
      · exact by assumption
      · exact h2
  try clear_value x5
  extract_lets -merge -useContext +onlyGivenNames x7
  try clear_value x7
  extract_lets -merge -useContext +onlyGivenNames x8
  have h9 : Inv x8 := by
    unfold x8
    refine Inv.ite ?_ ?_
    · exact h6
    · refine Inv.keep (wr_fio (m := 66584575) rfl) rfl ?_
      exact h6
  try clear_value x8
  refine Inv.keep (wr_tri (m := 67108735) rfl) rfl ?_
  exact h9

theorem debugRecord_inv {b0 b1 b2 s} (hs : Inv s) : Inv (debugRecord b0 b1 b2 s) := by
  unfold debugRecord
  refine emit_inv ?_
  exact hs

theorem debugDeny_inv {b0 b1 s} (hs : Inv s) : Inv (debugDeny b0 b1 s) := by
  unfold debugDeny
  refine debugRecord_inv ?_
  refine Inv.keep cnt_keeps rfl ?_
  exact hs

theorem debugBreak_inv {b0 b1 s} (hs : Inv s) : Inv (debugBreak b0 b1 s) := by
  unfold debugBreak
  refine vitalFault_inv ?_
  refine debugRecord_inv ?_
  refine Inv.keep modLane_keeps rfl ?_
  refine Inv.keep (wr_dbg (m := 67108607) rfl) rfl ?_
  exact hs

theorem debugAttachOk_inv {b0 s} (hs : Inv s) : Inv (debugAttachOk b0 s) := by
  unfold debugAttachOk
  extract_lets -merge -useContext +onlyGivenNames x0
  have h1 : Inv x0 := by
    unfold x0
    refine Inv.keep modLane_keeps rfl ?_
    refine Inv.keep laneTo_keeps rfl ?_
    exact hs
  try clear_value x0
  refine debugRecord_inv ?_
  refine Inv.keep cnt_keeps rfl ?_
  refine Inv.keep (wr_dbg (m := 67108607) rfl) rfl ?_
  exact h1

theorem execDebugAttach_inv {b0 b1 s} (hs : Inv s) : InvA (execDebugAttach b0 b1 s) := by
  unfold execDebugAttach
  extract_lets -merge -useContext +onlyGivenNames x0
  have h1 : Inv x0 := by
    unfold x0
    refine begin'_inv ?_
    exact hs
  try clear_value x0
  refine InvA.next ?_
  refine Inv.ite ?_ ?_
  · exact h1
  · refine Inv.ite ?_ ?_
    · refine debugDeny_inv ?_
      exact h1
    · refine Inv.ite ?_ ?_
      · refine Inv.ite ?_ ?_
        · refine debugAttachOk_inv ?_
          exact h1
        · exact h1
      · refine Inv.ite ?_ ?_
        · refine debugBreak_inv ?_
          exact h1
        · refine debugAttachOk_inv ?_
          exact h1

theorem debugRelease_inv {b0 s} (hs : Inv s) : Inv (debugRelease b0 s) := by
  unfold debugRelease
  extract_lets -merge -useContext +onlyGivenNames x0
  have h1 : Inv x0 := by
    unfold x0
    refine Inv.keep modLane_keeps rfl ?_
    refine Inv.keep laneTo_keeps rfl ?_
    exact hs
  try clear_value x0
  refine debugRecord_inv ?_
  refine Inv.keep (wr_dbg (m := 67108607) rfl) rfl ?_
  exact h1

theorem execDebugDetach_inv {b0 s} (hs : Inv s) : InvA (execDebugDetach b0 s) := by
  unfold execDebugDetach
  extract_lets -merge -useContext +onlyGivenNames x0
  have h1 : Inv x0 := by
    unfold x0
    refine begin'_inv ?_
    exact hs
  try clear_value x0
  refine InvA.next ?_
  refine Inv.ite ?_ ?_
  · exact h1
  · refine Inv.ite ?_ ?_
    · refine debugDeny_inv ?_
      exact h1
    · refine Inv.ite ?_ ?_
      · refine debugRelease_inv ?_
        exact h1
      · exact h1

theorem execDebugHalt_inv {b0 b1 s} (hs : Inv s) : InvA (execDebugHalt b0 b1 s) := by
  unfold execDebugHalt
  extract_lets -merge -useContext +onlyGivenNames x0
  have h1 : Inv x0 := by
    unfold x0
    refine begin'_inv ?_
    exact hs
  try clear_value x0
  refine InvA.next ?_
  refine Inv.ite ?_ ?_
  · exact h1
  · refine Inv.ite ?_ ?_
    · refine debugDeny_inv ?_
      exact h1
    · refine Inv.ite ?_ ?_
      · refine Inv.keep modLane_keeps rfl ?_
        exact h1
      · refine Inv.ite ?_ ?_
        · exact h1
        · refine Inv.ite ?_ ?_
          · refine Inv.keep modLane_keeps rfl ?_
            exact h1
          · refine Inv.ite ?_ ?_
            · refine debugBreak_inv ?_
              exact h1
            · exact h1

theorem execDebugAttachLimit_inv {b0 s} (hs : Inv s) : InvA (execDebugAttachLimit b0 s) := by
  unfold execDebugAttachLimit
  extract_lets -merge -useContext +onlyGivenNames x0
  have h1 : Inv x0 := by
    unfold x0
    refine begin'_inv ?_
    exact hs
  try clear_value x0
  refine InvA.next ?_
  refine Inv.ite ?_ ?_
  · refine Inv.foldl ?_ _ ?_
    · intro s a2 hs
      refine Inv.ite ?_ ?_
      · refine debugRelease_inv ?_
        exact hs
      · exact hs
    · exact h1
  · exact h1

theorem execDebugDenied_inv {b0 b1 b2 s} (hs : Inv s) : InvA (execDebugDenied b0 b1 b2 s) := by
  unfold execDebugDenied
  extract_lets -merge -useContext +onlyGivenNames x0
  have h1 : Inv x0 := by
    unfold x0
    refine begin'_inv ?_
    exact hs
  try clear_value x0
  refine InvA.next ?_
  refine Inv.ite ?_ ?_
  · refine debugDeny_inv ?_
    exact h1
  · exact h1

end Sys2Proof.Machine
end

