-- ==== Sys2Proof/Laws/KeepsVMem.lean ====
section
/-! SUPPORT. Frames of the functions of Machine/VMem.lean: what each leaves alone, said once. The docstrings name the parts of `State` a function may write; the mask marks all others. -/

namespace Sys2Proof.Machine

/-- Writes at most: vm. -/
theorem codeFix_keeps {b0 s} : Keeps 67104767 s (codeFix b0 s) := by
  unfold codeFix
  refine Keeps.app (wr_vm rfl) ?_
  exact Keeps.refl

/-- Writes at most: vm. -/
theorem codeSet_keeps {b0 b1 s} : Keeps 67104767 s (codeSet b0 b1 s) := by
  unfold codeSet
  refine Keeps.ite ?_ ?_
  · refine Keeps.step codeFix_keeps rfl ?_
    exact Keeps.refl
  · refine Keeps.app (wr_vm rfl) ?_
    exact Keeps.refl

/-- Writes at most: vm. -/
theorem codeFlip_keeps {b0 b1 b2 s} : Keeps 67104767 s (codeFlip b0 b1 b2 s) := by
  unfold codeFlip
  extract_lets -merge -useContext +onlyGivenNames x0
  try clear_value x0
  refine Keeps.step codeSet_keeps rfl ?_
  exact Keeps.refl

/-- Writes at most: vm. -/
theorem codeForeign_keeps {b0 s} : Keeps 67104767 s (codeForeign b0 s) := by
  unfold codeForeign
  refine Keeps.step codeSet_keeps rfl ?_
  exact Keeps.refl

/-- Writes at most: regs sta. -/
theorem countCe_keeps {b0 s} : Keeps 62898175 s (countCe b0 s) := by
  unfold countCe
  refine Keeps.ite ?_ ?_
  · refine Keeps.step stat_keeps rfl ?_
    refine Keeps.step cnt_keeps rfl ?_
    exact Keeps.refl
  · refine Keeps.ite ?_ ?_
    · refine Keeps.step stat_keeps rfl ?_
      refine Keeps.step cnt_keeps rfl ?_
      exact Keeps.refl
    · refine Keeps.step stat_keeps rfl ?_
      refine Keeps.step cnt_keeps rfl ?_
      exact Keeps.refl

/-- Writes at most: regs. -/
theorem memErr_keeps {b0 b1 b2 s} : Keeps 67092479 s (memErr b0 b1 b2 s) := by
  unfold memErr
  refine Keeps.step setRv_keeps rfl ?_
  refine Keeps.step setRv_keeps rfl ?_
  refine Keeps.step setRf_keeps rfl ?_
  exact Keeps.refl

/-- Writes at most: regs evr. -/
theorem memRecord_keeps {b0 s} : Keeps 64995327 s (memRecord b0 s) := by
  unfold memRecord
  refine Keeps.step emit_keeps rfl ?_
  exact Keeps.refl

/-- Writes at most: vm regs evr sta. -/
theorem rowRepair_keeps {b0 s} : Keeps 60796927 s (rowRepair b0 s) := by
  unfold rowRepair
  refine Keeps.ite ?_ ?_
  · exact Keeps.refl
  · extract_lets -merge -useContext +onlyGivenNames x0
    try clear_value x0
    split
    · extract_lets -merge -useContext +onlyGivenNames x2
      try clear_value x2
      refine Keeps.ite ?_ ?_
      · extract_lets -merge -useContext +onlyGivenNames x3
        try clear_value x3
        extract_lets -merge -useContext +onlyGivenNames x4
        try clear_value x4
        refine Keeps.ite ?_ ?_
        · extract_lets -merge -useContext +onlyGivenNames x5
          try clear_value x5
          extract_lets -merge -useContext +onlyGivenNames x6
          have h7 : Keeps 60796927 s x6 := by
            unfold x6
            refine Keeps.app (wr_vm rfl) ?_
            exact Keeps.refl
          try clear_value x6
          extract_lets -merge -useContext +onlyGivenNames x8
          try clear_value x8
          extract_lets -merge -useContext +onlyGivenNames x9
          try clear_value x9
          extract_lets -merge -useContext +onlyGivenNames x10
          have h11 : Keeps 60796927 s x10 := by
            unfold x10
            refine Keeps.ite ?_ ?_
            · refine Keeps.app (wr_vm rfl) ?_
              exact h7
            · refine Keeps.app (wr_vm rfl) ?_
              exact h7
          try clear_value x10
          extract_lets -merge -useContext +onlyGivenNames x12
          have h13 : Keeps 60796927 s x12 := by
            unfold x12
            refine Keeps.step memRecord_keeps rfl ?_
            refine Keeps.step stat_keeps rfl ?_
            exact h11
          try clear_value x12
          refine Keeps.ite ?_ ?_
          · refine Keeps.step nvEvent_keeps rfl ?_
            exact h13
          · exact h13
        · refine Keeps.app (wr_vm rfl) ?_
          exact Keeps.refl
      · refine Keeps.app (wr_vm rfl) ?_
        exact Keeps.refl
    · refine Keeps.app (wr_vm rfl) ?_
      exact Keeps.refl

/-- Writes at most: prg. -/
theorem addStall_keeps {b0 s} : Keeps 67108351 s (addStall b0 s) := by
  unfold addStall
  refine Keeps.app (wr_prg rfl) ?_
  exact Keeps.refl

/-- Writes at most: sent free cand pwr tri prg frc mem vm xch regs rings fio snu evr sta upd lnk. -/
theorem pageReload_keeps {b0 b1 b2 s} : Keeps 33915161 s (pageReload b0 b1 b2 s) := by
  unfold pageReload
  extract_lets -merge -useContext +onlyGivenNames x0
  try clear_value x0
  extract_lets -merge -useContext +onlyGivenNames x1
  try clear_value x1
  extract_lets -merge -useContext +onlyGivenNames x2
  try clear_value x2
  extract_lets -merge -useContext +onlyGivenNames x3
  try clear_value x3
  extract_lets -merge -useContext +onlyGivenNames x4
  try clear_value x4
  extract_lets -merge -useContext +onlyGivenNames x5
  have h6 : Keeps 33915161 s x5 := by
    unfold x5
    refine Keeps.step memErr_keeps rfl ?_
    exact Keeps.refl
  try clear_value x5
  refine Keeps.ite ?_ ?_
  · extract_lets -merge -useContext +onlyGivenNames x7
    try clear_value x7
    extract_lets -merge -useContext +onlyGivenNames x8
    have h9 : Keeps 33915161 s x8 := by
      unfold x8
      exact Keeps.app (show Keeps 33915161 x5 _ from ⟨fun _ => rfl, fun _ => rfl, fun _ => rfl, fun _ => rfl, fun _ => rfl, fun _ => rfl, fun _ => rfl, fun _ => rfl, fun _ => rfl, fun _ => rfl, fun _ => rfl, fun h => noBit h rfl, fun h => noBit h rfl, fun _ => rfl, fun _ => rfl, fun _ => rfl, fun _ => rfl, fun _ => rfl, fun _ => rfl, fun _ => rfl, fun _ => rfl, fun _ => rfl, fun _ => rfl, fun _ => rfl, fun _ => rfl, fun _ => rfl⟩) h6
    try clear_value x8
    split
    · rename_i y10 y11 q12
      have h13 : Keeps 33915161 s y11 := by
        refine Keeps.snd ?_ q12
        refine Keeps.step takeFree_keeps rfl ?_
        exact h9
      refine Keeps.step rowRepair_keeps rfl ?_
      refine Keeps.step memRecord_keeps rfl ?_
      refine Keeps.step stat_keeps rfl ?_
      refine Keeps.step addRf_keeps rfl ?_
      refine Keeps.ite ?_ ?_
      · refine Keeps.step addStall_keeps rfl ?_
        exact h13
      · exact h13
  · refine Keeps.step vitalFault_keeps rfl ?_
    refine Keeps.step memErr_keeps rfl ?_
    exact Keeps.refl

/-- Writes at most: sent cand pwr tri prg frc vm xch regs rings fio snu evr sta upd lnk. -/
theorem memLost_keeps {b0 b1 s} : Keeps 33917213 s (memLost b0 b1 s) := by
  unfold memLost
  refine Keeps.step vitalFault_keeps rfl ?_
  refine Keeps.step stat_keeps rfl ?_
  refine Keeps.step memErr_keeps rfl ?_
  exact Keeps.refl

/-- Writes at most: mem vm regs evr sta. -/
theorem partnerRepair_keeps {b0 b1 b2 s} : Keeps 60794879 s (partnerRepair b0 b1 b2 s) := by
  unfold partnerRepair
  extract_lets -merge -useContext +onlyGivenNames x0
  try clear_value x0
  extract_lets -merge -useContext +onlyGivenNames x1
  have h2 : Keeps 60794879 s x1 := by
    unfold x1
    refine Keeps.step memErr_keeps rfl ?_
    refine Keeps.step codeFix_keeps rfl ?_
    refine Keeps.app (wr_mem rfl) ?_
    exact Keeps.refl
  try clear_value x1
  refine Keeps.step rowRepair_keeps rfl ?_
  refine Keeps.step memRecord_keeps rfl ?_
  refine Keeps.step stat_keeps rfl ?_
  refine Keeps.step addRf_keeps rfl ?_
  exact h2

/-- Writes at most: vm regs evr sta. -/
theorem fixCorrectable_keeps {b0 s} : Keeps 60796927 s (fixCorrectable b0 s) := by
  unfold fixCorrectable
  refine Keeps.ite ?_ ?_
  · refine Keeps.step rowRepair_keeps rfl ?_
    refine Keeps.step countCe_keeps rfl ?_
    refine Keeps.step codeFix_keeps rfl ?_
    exact Keeps.refl
  · exact Keeps.refl

/-- Writes at most: sent free cand pwr tri prg frc mem vm xch regs rings fio snu evr sta upd lnk. -/
theorem checkWordOf_keeps {b0 b1 b2 s} : Keeps 33915161 s (checkWordOf b0 b1 b2 s) := by
  unfold checkWordOf
  split
  · extract_lets -merge -useContext +onlyGivenNames x1
    try clear_value x1
    extract_lets -merge -useContext +onlyGivenNames x2
    try clear_value x2
    extract_lets -merge -useContext +onlyGivenNames x3
    have h4 : Keeps 33915161 s x3 := by
      unfold x3
      refine Keeps.step fixCorrectable_keeps rfl ?_
      refine Keeps.step fixCorrectable_keeps rfl ?_
      exact Keeps.refl
    try clear_value x3
    split
    · refine Keeps.step memLost_keeps rfl ?_
      exact h4
    · refine Keeps.step partnerRepair_keeps rfl ?_
      exact h4
    · refine Keeps.step partnerRepair_keeps rfl ?_
      exact h4
    · refine Keeps.ite ?_ ?_
      · exact h4
      · refine Keeps.ite ?_ ?_
        · refine Keeps.step vitalFault_keeps rfl ?_
          exact h4
        · refine Keeps.step unitDisagrees_keeps rfl ?_
          exact h4
  · extract_lets -merge -useContext +onlyGivenNames x11
    try clear_value x11
    extract_lets -merge -useContext +onlyGivenNames x12
    try clear_value x12
    extract_lets -merge -useContext +onlyGivenNames x13
    have h14 : Keeps 33915161 s x13 := by
      unfold x13
      refine Keeps.step fixCorrectable_keeps rfl ?_
      refine Keeps.step fixCorrectable_keeps rfl ?_
      exact Keeps.refl
    try clear_value x13
    split
    · refine Keeps.step memLost_keeps rfl ?_
      exact h14
    · refine Keeps.step partnerRepair_keeps rfl ?_
      exact h14
    · refine Keeps.step partnerRepair_keeps rfl ?_
      exact h14
    · refine Keeps.ite ?_ ?_
      · exact h14
      · refine Keeps.ite ?_ ?_
        · refine Keeps.step vitalFault_keeps rfl ?_
          exact h14
        · refine Keeps.step unitDisagrees_keeps rfl ?_
          exact h14
  · extract_lets -merge -useContext +onlyGivenNames x21
    have h22 : Keeps 33915161 s x21 := by
      unfold x21
      refine Keeps.step fixCorrectable_keeps rfl ?_
      exact Keeps.refl
    try clear_value x21
    refine Keeps.ite ?_ ?_
    · refine Keeps.step pageReload_keeps rfl ?_
      exact h22
    · exact h22
  · extract_lets -merge -useContext +onlyGivenNames x24
    have h25 : Keeps 33915161 s x24 := by
      unfold x24
      refine Keeps.step fixCorrectable_keeps rfl ?_
      exact Keeps.refl
    try clear_value x24
    refine Keeps.ite ?_ ?_
    · extract_lets -merge -useContext +onlyGivenNames x26
      have h27 : Keeps 33915161 s x26 := by
        unfold x26
        refine Keeps.step rowRepair_keeps rfl ?_
        refine Keeps.step codeFix_keeps rfl ?_
        refine Keeps.step memErr_keeps rfl ?_
        refine Keeps.app (wr_mem rfl) ?_
        exact h25
      try clear_value x26
      extract_lets -merge -useContext +onlyGivenNames x28
      try clear_value x28
      refine Keeps.ite ?_ ?_
      · refine Keeps.step lostNotice_keeps rfl ?_
        refine Keeps.app (wr_evr rfl) ?_
        exact h27
      · exact h27
    · exact h25
  · extract_lets -merge -useContext +onlyGivenNames x30
    have h31 : Keeps 33915161 s x30 := by
      unfold x30
      refine Keeps.step fixCorrectable_keeps rfl ?_
      exact Keeps.refl
    try clear_value x30
    refine Keeps.ite ?_ ?_
    · refine Keeps.step unitDisagrees_keeps rfl ?_
      refine Keeps.step codeFix_keeps rfl ?_
      refine Keeps.step memErr_keeps rfl ?_
      exact h31
    · exact h31
  · extract_lets -merge -useContext +onlyGivenNames x33
    have h34 : Keeps 33915161 s x33 := by
      unfold x33
      refine Keeps.step fixCorrectable_keeps rfl ?_
      exact Keeps.refl
    try clear_value x33
    refine Keeps.ite ?_ ?_
    · refine Keeps.step memLost_keeps rfl ?_
      exact h34
    · exact h34
  · extract_lets -merge -useContext +onlyGivenNames x36
    have h37 : Keeps 33915161 s x36 := by
      unfold x36
      refine Keeps.step fixCorrectable_keeps rfl ?_
      exact Keeps.refl
    try clear_value x36
    refine Keeps.ite ?_ ?_
    · refine Keeps.step memLost_keeps rfl ?_
      exact h37
    · exact h37
  · extract_lets -merge -useContext +onlyGivenNames x39
    have h40 : Keeps 33915161 s x39 := by
      unfold x39
      refine Keeps.step fixCorrectable_keeps rfl ?_
      exact Keeps.refl
    try clear_value x39
    refine Keeps.ite ?_ ?_
    · refine Keeps.step memLost_keeps rfl ?_
      exact h40
    · exact h40

/-- Writes at most: sent free cand pwr tri prg frc mem vm xch regs rings fio snu evr sta upd lnk. -/
theorem checkWord_keeps {b0 b1 s} : Keeps 33915161 s (checkWord b0 b1 s) := by
  unfold checkWord
  refine Keeps.step checkWordOf_keeps rfl ?_
  exact Keeps.refl

/-- Writes at most: mem vm. -/
theorem applyFinding_keeps {b0 b1 s} : Keeps 67102719 s (applyFinding b0 b1 s) := by
  unfold applyFinding
  extract_lets -merge -useContext +onlyGivenNames x0
  try clear_value x0
  extract_lets -merge -useContext +onlyGivenNames x1
  try clear_value x1
  extract_lets -merge -useContext +onlyGivenNames x2
  try clear_value x2
  split
  · exact Keeps.refl
  · refine Keeps.step codeFlip_keeps rfl ?_
    exact Keeps.refl
  · refine Keeps.ite ?_ ?_
    · refine Keeps.step codeFlip_keeps rfl ?_
      refine Keeps.step codeFlip_keeps rfl ?_
      exact Keeps.refl
    · refine Keeps.step codeFlip_keeps rfl ?_
      exact Keeps.refl
  · refine Keeps.step codeForeign_keeps rfl ?_
    exact Keeps.refl
  · refine Keeps.step codeForeign_keeps rfl ?_
    exact Keeps.refl
  · refine Keeps.ite ?_ ?_
    · refine Keeps.step codeForeign_keeps rfl ?_
      refine Keeps.step codeForeign_keeps rfl ?_
      exact Keeps.refl
    · refine Keeps.step codeForeign_keeps rfl ?_
      exact Keeps.refl
  · refine Keeps.ite ?_ ?_
    · refine Keeps.app (wr_mem rfl) ?_
      exact Keeps.refl
    · exact Keeps.refl

/-- Writes at most: sent free cand pwr tri prg frc mem vm xch regs rings fio snu evr sta upd lnk. -/
theorem laneReadBy_keeps {b0 b1 b2 s} : Keeps 33915161 s (laneReadBy b0 b1 b2 s).1 := by
  unfold laneReadBy
  refine Keeps.ite1 ?_ ?_
  · refine Keeps.ite1 ?_ ?_
    · extract_lets -merge -useContext +onlyGivenNames x0
      try clear_value x0
      extract_lets -merge -useContext +onlyGivenNames x1
      have h2 : Keeps 33915161 s x1 := by
        unfold x1
        refine Keeps.step checkWordOf_keeps rfl ?_
        exact Keeps.refl
      try clear_value x1
      refine Keeps.mkFst ?_
      exact h2
    · refine Keeps.mkFst ?_
      refine Keeps.step nvEvent_keeps rfl ?_
      exact Keeps.refl
  · refine Keeps.ite1 ?_ ?_
    · refine Keeps.mkFst ?_
      exact Keeps.refl
    · refine Keeps.ite1 ?_ ?_
      · extract_lets -merge -useContext +onlyGivenNames x3
        have h4 : Keeps 33915161 s x3 := by
          unfold x3
          refine Keeps.step checkWord_keeps rfl ?_
          exact Keeps.refl
        try clear_value x3
        refine Keeps.mkFst ?_
        exact h4
      · refine Keeps.mkFst ?_
        exact Keeps.refl

/-- Writes at most: sent free cand pwr tri prg frc mem vm xch regs rings fio snu evr sta upd lnk. -/
theorem laneReadOf_keeps {b0 b1 s} : Keeps 33915161 s (laneReadOf b0 b1 s).1 := by
  unfold laneReadOf
  refine Keeps.step laneReadBy_keeps rfl ?_
  exact Keeps.refl

/-- Writes at most: sent free cand pwr tri prg frc mem vm xch regs rings fio snu evr sta upd lnk. -/
theorem laneRead_keeps {b0 s} : Keeps 33915161 s (laneRead b0 s).1 := by
  unfold laneRead
  refine Keeps.step laneReadOf_keeps rfl ?_
  exact Keeps.refl

/-- Writes at most: tri. -/
theorem cacheStore_keeps {b0 b1 s} : Keeps 67108735 s (cacheStore b0 b1 s) := by
  unfold cacheStore
  refine Keeps.ite ?_ ?_
  · refine Keeps.step modLane_keeps rfl ?_
    exact Keeps.refl
  · extract_lets -merge -useContext +onlyGivenNames x0
    try clear_value x0
    extract_lets -merge -useContext +onlyGivenNames x1
    have h2 : Keeps 67108735 s x1 := by
      unfold x1
      refine Keeps.foldl ?_ _ ?_
      · intro s a3
        refine Keeps.step modLane_keeps rfl ?_
        exact Keeps.refl
      · exact Keeps.refl
    try clear_value x1
    refine Keeps.ite ?_ ?_
    · refine Keeps.step seqNext_keeps rfl ?_
      exact h2
    · exact h2

/-- Writes at most: tri. -/
theorem cacheClean_keeps {b0 s} : Keeps 67108735 s (cacheClean b0 s) := by
  unfold cacheClean
  refine Keeps.foldl ?_ _ ?_
  · intro s a0
    refine Keeps.step modLane_keeps rfl ?_
    exact Keeps.refl
  · exact Keeps.refl

/-- Writes at most: tri. -/
theorem cacheFlush_keeps {s} : Keeps 67108735 s (cacheFlush s) := by
  unfold cacheFlush
  extract_lets -merge -useContext +onlyGivenNames x0
  try clear_value x0
  refine Keeps.step seqMany_keeps rfl ?_
  refine Keeps.foldl ?_ _ ?_
  · intro s a1
    refine Keeps.step modLane_keeps rfl ?_
    exact Keeps.refl
  · exact Keeps.refl

/-- Writes at most: xch. -/
theorem trackWrite_keeps {b0 b1 s} : Keeps 67100671 s (trackWrite b0 b1 s) := by
  unfold trackWrite
  refine Keeps.ite ?_ ?_
  · extract_lets -merge -useContext +onlyGivenNames x0
    try clear_value x0
    refine Keeps.app (wr_xch rfl) ?_
    exact Keeps.refl
  · exact Keeps.refl

/-- Writes at most: vm regs. -/
theorem injectWrite_keeps {b0 s} : Keeps 67088383 s (injectWrite b0 s) := by
  unfold injectWrite
  refine Keeps.ite ?_ ?_
  · extract_lets -merge -useContext +onlyGivenNames x0
    try clear_value x0
    extract_lets -merge -useContext +onlyGivenNames x1
    have h2 : Keeps 67088383 s x1 := by
      unfold x1
      refine Keeps.step setRf_keeps rfl ?_
      exact Keeps.refl
    try clear_value x1
    refine Keeps.ite ?_ ?_
    · refine Keeps.step codeFlip_keeps rfl ?_
      exact h2
    · refine Keeps.ite ?_ ?_
      · refine Keeps.step codeFlip_keeps rfl ?_
        exact h2
      · exact h2
  · exact Keeps.refl

/-- Writes at most: mem vm. -/
theorem storeGood_keeps {b0 b1 s} : Keeps 67102719 s (storeGood b0 b1 s) := by
  unfold storeGood
  exact Keeps.app (show Keeps 67102719 s _ from ⟨fun _ => rfl, fun _ => rfl, fun _ => rfl, fun _ => rfl, fun _ => rfl, fun _ => rfl, fun _ => rfl, fun _ => rfl, fun _ => rfl, fun _ => rfl, fun _ => rfl, fun h => noBit h rfl, fun h => noBit h rfl, fun _ => rfl, fun _ => rfl, fun _ => rfl, fun _ => rfl, fun _ => rfl, fun _ => rfl, fun _ => rfl, fun _ => rfl, fun _ => rfl, fun _ => rfl, fun _ => rfl, fun _ => rfl, fun _ => rfl⟩) Keeps.refl

/-- Writes at most: sent lnk. -/
theorem mirrorRam_keeps {b0 b1 s} : Keeps 50331645 s (mirrorRam b0 b1 s) := by
  unfold mirrorRam
  extract_lets -merge -useContext +onlyGivenNames x0
  try clear_value x0
  refine Keeps.step mirror_keeps rfl ?_
  exact Keeps.refl

/-- Writes at most: sent mem vm lnk. -/
theorem freshStore_keeps {b0 b1 s} : Keeps 50325501 s (freshStore b0 b1 s) := by
  unfold freshStore
  refine Keeps.step mirrorRam_keeps rfl ?_
  refine Keeps.step storeGood_keeps rfl ?_
  exact Keeps.refl

/-- Writes at most: sent mem vm xch regs lnk. -/
theorem laneStore_keeps {b0 b1 s} : Keeps 50300925 s (laneStore b0 b1 s) := by
  unfold laneStore
  extract_lets -merge -useContext +onlyGivenNames x0
  try clear_value x0
  refine Keeps.step mirrorRam_keeps rfl ?_
  refine Keeps.step injectWrite_keeps rfl ?_
  refine Keeps.step storeGood_keeps rfl ?_
  refine Keeps.step trackWrite_keeps rfl ?_
  exact Keeps.refl

/-- Writes at most: sent cand pwr tri prg frc vm xch regs rings fio snu evr sta upd lnk. -/
theorem writeVerify_keeps {b0 b1 s} : Keeps 33917213 s (writeVerify b0 b1 s) := by
  unfold writeVerify
  refine Keeps.ite ?_ ?_
  · exact Keeps.refl
  · refine Keeps.step vitalFault_keeps rfl ?_
    refine Keeps.step stat_keeps rfl ?_
    refine Keeps.step memErr_keeps rfl ?_
    exact Keeps.refl

/-- Writes at most: sent cand pwr tri prg frc vm xch regs rings fio snu evr sta upd lnk. -/
theorem ringFinding_keeps {b0 b1 s} : Keeps 33917213 s (ringFinding b0 b1 s) := by
  unfold ringFinding
  extract_lets -merge -useContext +onlyGivenNames x0
  try clear_value x0
  split
  · exact Keeps.refl
  · refine Keeps.step countCe_keeps rfl ?_
    exact Keeps.refl
  · refine Keeps.step vitalFault_keeps rfl ?_
    refine Keeps.step stat_keeps rfl ?_
    refine Keeps.step memErr_keeps rfl ?_
    exact Keeps.refl

/-- Writes at most: vm regs. -/
theorem scrubAdvance_keeps {s} : Keeps 67088383 s (scrubAdvance s) := by
  unfold scrubAdvance
  refine Keeps.ite ?_ ?_
  · refine Keeps.app (wr_vm rfl) ?_
    exact Keeps.refl
  · refine Keeps.ite ?_ ?_
    · refine Keeps.app (wr_vm rfl) ?_
      exact Keeps.refl
    · extract_lets -merge -useContext +onlyGivenNames x0
      try clear_value x0
      extract_lets -merge -useContext +onlyGivenNames x1
      have h2 : Keeps 67088383 s x1 := by
        unfold x1
        refine Keeps.step setRf_keeps rfl ?_
        refine Keeps.step cnt_keeps rfl ?_
        exact Keeps.refl
      try clear_value x1
      extract_lets -merge -useContext +onlyGivenNames x3
      have h4 : Keeps 67088383 s x3 := by
        unfold x3
        refine Keeps.step setRf_keeps rfl ?_
        exact h2
      try clear_value x3
      refine Keeps.app (wr_vm rfl) ?_
      exact h4

/-- Writes at most: sent free clk civ cand pwr tri prg frc mem vm xch regs bus rings fio snu evr sta upd lnk. -/
theorem execScrubRead_keeps {b0 b1 s} : Answers 33882369 s (execScrubRead b0 b1 s) := by
  unfold execScrubRead
  extract_lets -merge -useContext +onlyGivenNames x0
  have h1 : Keeps 33882369 s x0 := by
    unfold x0
    refine Keeps.step begin'_keeps rfl ?_
    exact Keeps.refl
  try clear_value x0
  refine Answers.next ?_
  refine Keeps.ite ?_ ?_
  · extract_lets -merge -useContext +onlyGivenNames x2
    try clear_value x2
    refine Keeps.step scrubAdvance_keeps rfl ?_
    refine Keeps.step checkWordOf_keeps rfl ?_
    refine Keeps.step applyFinding_keeps rfl ?_
    exact h1
  · exact h1

/-- Writes at most: sent clk civ cand pwr tri prg frc vm xch regs bus rings fio snu evr upd lnk. -/
theorem execScrubPassLate_keeps {b0 s} : Answers 38078725 s (execScrubPassLate b0 s) := by
  unfold execScrubPassLate
  extract_lets -merge -useContext +onlyGivenNames x0
  have h1 : Keeps 38078725 s x0 := by
    unfold x0
    refine Keeps.step begin'_keeps rfl ?_
    exact Keeps.refl
  try clear_value x0
  refine Answers.next ?_
  refine Keeps.ite ?_ ?_
  · refine Keeps.step vitalFault_keeps rfl ?_
    exact h1
  · exact h1

end Sys2Proof.Machine
end

