-- ==== Sys2Proof/Laws/InvVMem.lean ====
section
/-! SUPPORT. The functions of Machine/VMem.lean keep the invariant `Inv`. -/

namespace Sys2Proof.Machine

theorem memRecord_inv {b0 s} (hs : Inv s) : Inv (memRecord b0 s) := by
  unfold memRecord
  refine emit_inv ?_
  exact hs

theorem rowRepair_inv {b0 s} (hs : Inv s) : Inv (rowRepair b0 s) := by
  unfold rowRepair
  refine Inv.ite ?_ ?_
  · exact hs
  · extract_lets -merge -useContext +onlyGivenNames x0
    try clear_value x0
    split
    · extract_lets -merge -useContext +onlyGivenNames x2
      try clear_value x2
      refine Inv.ite ?_ ?_
      · extract_lets -merge -useContext +onlyGivenNames x3
        try clear_value x3
        extract_lets -merge -useContext +onlyGivenNames x4
        try clear_value x4
        refine Inv.ite ?_ ?_
        · extract_lets -merge -useContext +onlyGivenNames x5
          try clear_value x5
          extract_lets -merge -useContext +onlyGivenNames x6
          have h7 : Inv x6 := by
            unfold x6
            refine Inv.keep (wr_vm (m := 67104767) rfl) rfl ?_
            exact hs
          try clear_value x6
          extract_lets -merge -useContext +onlyGivenNames x8
          try clear_value x8
          extract_lets -merge -useContext +onlyGivenNames x9
          try clear_value x9
          extract_lets -merge -useContext +onlyGivenNames x10
          have h11 : Inv x10 := by
            unfold x10
            refine Inv.ite ?_ ?_
            · refine Inv.keep (wr_vm (m := 67104767) rfl) rfl ?_
              exact h7
            · refine Inv.keep (wr_vm (m := 67104767) rfl) rfl ?_
              exact h7
          try clear_value x10
          extract_lets -merge -useContext +onlyGivenNames x12
          have h13 : Inv x12 := by
            unfold x12
            refine memRecord_inv ?_
            refine Inv.keep stat_keeps rfl ?_
            exact h11
          try clear_value x12
          refine Inv.ite ?_ ?_
          · refine nvEvent_inv ?_
            exact h13
          · exact h13
        · refine Inv.keep (wr_vm (m := 67104767) rfl) rfl ?_
          exact hs
      · refine Inv.keep (wr_vm (m := 67104767) rfl) rfl ?_
        exact hs
    · refine Inv.keep (wr_vm (m := 67104767) rfl) rfl ?_
      exact hs

theorem pageReload_inv {b0 b1 b2 s} (hs : Inv s) : Inv (pageReload b0 b1 b2 s) := by
  unfold pageReload
  extract_lets -merge -useContext +onlyGivenNames x0
  try clear_value x0
  extract_lets -merge -useContext +onlyGivenNames x1
  try clear_value x1
  extract_lets -merge -useContext +onlyGivenNames x2
  try clear_value x2
  extract_lets -merge -useContext +onlyGivenNames x3
  try clear_value x3
  extract_lets -merge -useContext +onlyGivenNames x4
  try clear_value x4
  extract_lets -merge -useContext +onlyGivenNames x5
  have h6 : Inv x5 := by
    unfold x5
    refine Inv.keep memErr_keeps rfl ?_
    exact hs
  try clear_value x5
  refine Inv.ite ?_ ?_
  · extract_lets -merge -useContext +onlyGivenNames x7
    try clear_value x7
    extract_lets -merge -useContext +onlyGivenNames x8
    have h9 : Inv x8 := by
      unfold x8
      have h := h6
      refine ⟨?_, h.cand, h.evr, h.frc, h.lat⟩
      · exact memSetList_wf h.mem
    try clear_value x8
    split
    · rename_i y10 y11 q12
      have h13 : Inv y11 := by
        refine Inv.snd ?_ q12
        refine Inv.keep takeFree_keeps rfl ?_
        exact h9
      refine rowRepair_inv ?_
      refine memRecord_inv ?_
      refine Inv.keep stat_keeps rfl ?_
      refine Inv.keep addRf_keeps rfl ?_
      refine Inv.ite ?_ ?_
      · refine Inv.keep addStall_keeps rfl ?_
        exact h13
      · exact h13
  · refine vitalFault_inv ?_
    refine Inv.keep memErr_keeps rfl ?_
    exact hs

theorem memLost_inv {b0 b1 s} (hs : Inv s) : Inv (memLost b0 b1 s) := by
  unfold memLost
  refine vitalFault_inv ?_
  refine Inv.keep stat_keeps rfl ?_
  refine Inv.keep memErr_keeps rfl ?_
  exact hs

theorem partnerRepair_inv {b0 b1 b2 s} (hs : Inv s) : Inv (partnerRepair b0 b1 b2 s) := by
  unfold partnerRepair
  extract_lets -merge -useContext +onlyGivenNames x0
  try clear_value x0
  extract_lets -merge -useContext +onlyGivenNames x1
  have h2 : Inv x1 := by
    unfold x1
    refine Inv.keep memErr_keeps rfl ?_
    refine Inv.keep codeFix_keeps rfl ?_
    refine Inv.set_mem (fun h => ?_) ?_
    · exact memSetList_wf h.mem
    · exact hs
  try clear_value x1
  refine rowRepair_inv ?_
  refine memRecord_inv ?_
  refine Inv.keep stat_keeps rfl ?_
  refine Inv.keep addRf_keeps rfl ?_
  exact h2

theorem fixCorrectable_inv {b0 s} (hs : Inv s) : Inv (fixCorrectable b0 s) := by
  unfold fixCorrectable
  refine Inv.ite ?_ ?_
  · refine rowRepair_inv ?_
    refine Inv.keep countCe_keeps rfl ?_
    refine Inv.keep codeFix_keeps rfl ?_
    exact hs
  · exact hs

theorem checkWordOf_inv {b0 b1 b2 s} (hs : Inv s) : Inv (checkWordOf b0 b1 b2 s) := by
  unfold checkWordOf
  split
  · extract_lets -merge -useContext +onlyGivenNames x1
    try clear_value x1
    extract_lets -merge -useContext +onlyGivenNames x2
    try clear_value x2
    extract_lets -merge -useContext +onlyGivenNames x3
    have h4 : Inv x3 := by
      unfold x3
      refine fixCorrectable_inv ?_
      refine fixCorrectable_inv ?_
      exact hs
    try clear_value x3
    split
    · refine memLost_inv ?_
      exact h4
    · refine partnerRepair_inv ?_
      exact h4
    · refine partnerRepair_inv ?_
      exact h4
    · refine Inv.ite ?_ ?_
      · exact h4
      · refine Inv.ite ?_ ?_
        · refine vitalFault_inv ?_
          exact h4
        · refine unitDisagrees_inv ?_
          exact h4
  · extract_lets -merge -useContext +onlyGivenNames x11
    try clear_value x11
    extract_lets -merge -useContext +onlyGivenNames x12
    try clear_value x12
    extract_lets -merge -useContext +onlyGivenNames x13
    have h14 : Inv x13 := by
      unfold x13
      refine fixCorrectable_inv ?_
      refine fixCorrectable_inv ?_
      exact hs
    try clear_value x13
    split
    · refine memLost_inv ?_
      exact h14
    · refine partnerRepair_inv ?_
      exact h14
    · refine partnerRepair_inv ?_
      exact h14
    · refine Inv.ite ?_ ?_
      · exact h14
      · refine Inv.ite ?_ ?_
        · refine vitalFault_inv ?_
          exact h14
        · refine unitDisagrees_inv ?_
          exact h14
  · extract_lets -merge -useContext +onlyGivenNames x21
    have h22 : Inv x21 := by
      unfold x21
      refine fixCorrectable_inv ?_
      exact hs
    try clear_value x21
    refine Inv.ite ?_ ?_
    · refine pageReload_inv ?_
      exact h22
    · exact h22
  · extract_lets -merge -useContext +onlyGivenNames x24
    have h25 : Inv x24 := by
      unfold x24
      refine fixCorrectable_inv ?_
      exact hs
    try clear_value x24
    refine Inv.ite ?_ ?_
    · extract_lets -merge -useContext +onlyGivenNames x26
      have h27 : Inv x26 := by
        unfold x26
        refine rowRepair_inv ?_
        refine Inv.keep codeFix_keeps rfl ?_
        refine Inv.keep memErr_keeps rfl ?_
        refine Inv.set_mem (fun h => ?_) ?_
        · exact memSetList_wf h.mem
        · exact h25
      try clear_value x26
      extract_lets -merge -useContext +onlyGivenNames x28
      try clear_value x28
      refine Inv.ite ?_ ?_
      · refine lostNotice_inv ?_
        refine Inv.set_evr (fun h => ?_) ?_
        · exact h.evr
        · exact h27
      · exact h27
    · exact h25
  · extract_lets -merge -useContext +onlyGivenNames x30
    have h31 : Inv x30 := by
      unfold x30
      refine fixCorrectable_inv ?_
      exact hs
    try clear_value x30
    refine Inv.ite ?_ ?_
    · refine unitDisagrees_inv ?_
      refine Inv.keep codeFix_keeps rfl ?_
      refine Inv.keep memErr_keeps rfl ?_
      exact h31
    · exact h31
  · extract_lets -merge -useContext +onlyGivenNames x33
    have h34 : Inv x33 := by
      unfold x33
      refine fixCorrectable_inv ?_
      exact hs
    try clear_value x33
    refine Inv.ite ?_ ?_
    · refine memLost_inv ?_
      exact h34
    · exact h34
  · extract_lets -merge -useContext +onlyGivenNames x36
    have h37 : Inv x36 := by
      unfold x36
      refine fixCorrectable_inv ?_
      exact hs
    try clear_value x36
    refine Inv.ite ?_ ?_
    · refine memLost_inv ?_
      exact h37
    · exact h37
  · extract_lets -merge -useContext +onlyGivenNames x39
    have h40 : Inv x39 := by
      unfold x39
      refine fixCorrectable_inv ?_
      exact hs
    try clear_value x39
    refine Inv.ite ?_ ?_
    · refine memLost_inv ?_
      exact h40
    · exact h40

theorem checkWord_inv {b0 b1 s} (hs : Inv s) : Inv (checkWord b0 b1 s) := by
  unfold checkWord
  refine checkWordOf_inv ?_
  exact hs

theorem applyFinding_inv {b0 b1 s} (hs : Inv s) : Inv (applyFinding b0 b1 s) := by
  unfold applyFinding
  extract_lets -merge -useContext +onlyGivenNames x0
  try clear_value x0
  extract_lets -merge -useContext +onlyGivenNames x1
  try clear_value x1
  extract_lets -merge -useContext +onlyGivenNames x2
  try clear_value x2
  split
  · exact hs
  · refine Inv.keep codeFlip_keeps rfl ?_
    exact hs
  · refine Inv.ite ?_ ?_
    · refine Inv.keep codeFlip_keeps rfl ?_
      refine Inv.keep codeFlip_keeps rfl ?_
      exact hs
    · refine Inv.keep codeFlip_keeps rfl ?_
      exact hs
  · refine Inv.keep codeForeign_keeps rfl ?_
    exact hs
  · refine Inv.keep codeForeign_keeps rfl ?_
    exact hs
  · refine Inv.ite ?_ ?_
    · refine Inv.keep codeForeign_keeps rfl ?_
      refine Inv.keep codeForeign_keeps rfl ?_
      exact hs
    · refine Inv.keep codeForeign_keeps rfl ?_
      exact hs
  · refine Inv.ite ?_ ?_
    · refine Inv.set_mem (fun h => ?_) ?_
      · exact memSetList_wf h.mem
      · exact hs
    · exact hs

theorem laneReadBy_inv {b0 b1 b2 s} (hs : Inv s) : Inv (laneReadBy b0 b1 b2 s).1 := by
  unfold laneReadBy
  refine Inv.ite1 ?_ ?_
  · refine Inv.ite1 ?_ ?_
    · extract_lets -merge -useContext +onlyGivenNames x0
      try clear_value x0
      extract_lets -merge -useContext +onlyGivenNames x1
      have h2 : Inv x1 := by
        unfold x1
        refine checkWordOf_inv ?_
        exact hs
      try clear_value x1
      refine Inv.mkFst ?_
      exact h2
    · refine Inv.mkFst ?_
      refine nvEvent_inv ?_
      exact hs
  · refine Inv.ite1 ?_ ?_
    · refine Inv.mkFst ?_
      exact hs
    · refine Inv.ite1 ?_ ?_
      · extract_lets -merge -useContext +onlyGivenNames x3
        have h4 : Inv x3 := by
          unfold x3
          refine checkWord_inv ?_
          exact hs
        try clear_value x3
        refine Inv.mkFst ?_
        exact h4
      · refine Inv.mkFst ?_
        exact hs

theorem laneReadOf_inv {b0 b1 s} (hs : Inv s) : Inv (laneReadOf b0 b1 s).1 := by
  unfold laneReadOf
  refine laneReadBy_inv ?_
  exact hs

theorem laneRead_inv {b0 s} (hs : Inv s) : Inv (laneRead b0 s).1 := by
  unfold laneRead
  refine laneReadOf_inv ?_
  exact hs

theorem storeGood_inv {b0 b1 s} (hs : Inv s) : Inv (storeGood b0 b1 s) := by
  unfold storeGood
  have h := hs
  refine ⟨?_, h.cand, h.evr, h.frc, h.lat⟩
  · exact storeBytes_wf h.mem

theorem freshStore_inv {b0 b1 s} (hs : Inv s) : Inv (freshStore b0 b1 s) := by
  unfold freshStore
  refine Inv.keep mirrorRam_keeps rfl ?_
  refine storeGood_inv ?_
  exact hs

theorem laneStore_inv {b0 b1 s} (hs : Inv s) : Inv (laneStore b0 b1 s) := by
  unfold laneStore
  extract_lets -merge -useContext +onlyGivenNames x0
  try clear_value x0
  refine Inv.keep mirrorRam_keeps rfl ?_
  refine Inv.keep injectWrite_keeps rfl ?_
  refine storeGood_inv ?_
  refine Inv.keep trackWrite_keeps rfl ?_
  exact hs

theorem writeVerify_inv {b0 b1 s} (hs : Inv s) : Inv (writeVerify b0 b1 s) := by
  unfold writeVerify
  refine Inv.ite ?_ ?_
  · exact hs
  · refine vitalFault_inv ?_
    refine Inv.keep stat_keeps rfl ?_
    refine Inv.keep memErr_keeps rfl ?_
    exact hs

theorem ringFinding_inv {b0 b1 s} (hs : Inv s) : Inv (ringFinding b0 b1 s) := by
  unfold ringFinding
  extract_lets -merge -useContext +onlyGivenNames x0
  try clear_value x0
  split
  · exact hs
  · refine Inv.keep countCe_keeps rfl ?_
    exact hs
  · refine vitalFault_inv ?_
    refine Inv.keep stat_keeps rfl ?_
    refine Inv.keep memErr_keeps rfl ?_
    exact hs

theorem execScrubRead_inv {b0 b1 s} (hs : Inv s) : InvA (execScrubRead b0 b1 s) := by
  unfold execScrubRead
  extract_lets -merge -useContext +onlyGivenNames x0
  have h1 : Inv x0 := by
    unfold x0
    refine begin'_inv ?_
    exact hs
  try clear_value x0
  refine InvA.next ?_
  refine Inv.ite ?_ ?_
  · extract_lets -merge -useContext +onlyGivenNames x2
    try clear_value x2
    refine Inv.keep scrubAdvance_keeps rfl ?_
    refine checkWordOf_inv ?_
    refine applyFinding_inv ?_
    exact h1
  · exact h1

theorem execScrubPassLate_inv {b0 s} (hs : Inv s) : InvA (execScrubPassLate b0 s) := by
  unfold execScrubPassLate
  extract_lets -merge -useContext +onlyGivenNames x0
  have h1 : Inv x0 := by
    unfold x0
    refine begin'_inv ?_
    exact hs
  try clear_value x0
  refine InvA.next ?_
  refine Inv.ite ?_ ?_
  · refine vitalFault_inv ?_
    exact h1
  · exact h1

end Sys2Proof.Machine
end

