-- ==== Sys2Proof/Laws/KeepsInImage.lean ====
section
/-! SUPPORT. Frames of the functions of Machine/InImage.lean: what each leaves alone, said once. The docstrings name the parts of `State` a function may write; the mask marks all others. -/

namespace Sys2Proof.Machine

/-- Writes at most: prg mem. -/
theorem freezeInputs_keeps {s} : Keeps 67106303 s (freezeInputs s) := by
  unfold freezeInputs
  extract_lets -merge -useContext +onlyGivenNames x0
  try clear_value x0
  exact Keeps.app (show Keeps 67106303 s _ from ⟨fun _ => rfl, fun _ => rfl, fun _ => rfl, fun _ => rfl, fun _ => rfl, fun _ => rfl, fun _ => rfl, fun _ => rfl, fun _ => rfl, fun h => noBit h rfl, fun _ => rfl, fun h => noBit h rfl, fun _ => rfl, fun _ => rfl, fun _ => rfl, fun _ => rfl, fun _ => rfl, fun _ => rfl, fun _ => rfl, fun _ => rfl, fun _ => rfl, fun _ => rfl, fun _ => rfl, fun _ => rfl, fun _ => rfl, fun _ => rfl⟩) Keeps.refl

/-- Writes at most: prg mem. -/
theorem freshImage_keeps {s} : Keeps 67106303 s (freshImage s) := by
  unfold freshImage
  extract_lets -merge -useContext +onlyGivenNames x0
  have h1 : Keeps 67106303 s x0 := by
    unfold x0
    refine Keeps.step freezeInputs_keeps rfl ?_
    exact Keeps.refl
  try clear_value x0
  refine Keeps.app (wr_prg rfl) ?_
  exact h1

end Sys2Proof.Machine
end

