-- ==== Sys2Proof/Laws/InvInImage.lean ====
section
/-! SUPPORT. The functions of Machine/InImage.lean keep the invariant `Inv`. -/

namespace Sys2Proof.Machine

theorem writeImage_wf (s : State) : ∀ {l : List (Nat × Nat)} {m : List Host.Cell}, Memory.wf m = true → Memory.wf (writeImage s l m) = true
  | [], _, h => h
  | (_, _) :: _, _, h => by
    rw [writeImage]
    exact writeImage_wf s (storeBytes_wf h)

theorem freezeInputs_inv {s} (hs : Inv s) : Inv (freezeInputs s) := by
  unfold freezeInputs
  exact ⟨writeImage_wf _ hs.mem, hs.cand, hs.evr, hs.frc, hs.lat⟩

theorem freshImage_inv {s} (hs : Inv s) : Inv (freshImage s) := by
  unfold freshImage
  extract_lets -merge -useContext +onlyGivenNames x0
  have h1 : Inv x0 := by
    unfold x0
    refine freezeInputs_inv ?_
    exact hs
  try clear_value x0
  refine Inv.keep (wr_prg (m := 67108351) rfl) rfl ?_
  exact h1

end Sys2Proof.Machine
end

