-- ==== Sys2Proof/Laws/KeepsRelease.lean ====
section
/-! SUPPORT. Frames of the functions of Machine/Release.lean: what each leaves alone, said once. The docstrings name the parts of `State` a function may write; the mask marks all others. -/

namespace Sys2Proof.Machine

/-- Writes at most: prg. -/
theorem setTask_keeps {b0 s} : Keeps 67108351 s (setTask b0 s) := by
  unfold setTask
  refine Keeps.app (wr_prg rfl) ?_
  exact Keeps.refl

/-- Writes at most: prg. -/
theorem release_keeps {b0 b1 b2 b3 b4 b5 s} : Keeps 67108351 s (release b0 b1 b2 b3 b4 b5 s) := by
  unfold release
  refine Keeps.ite ?_ ?_
  · exact Keeps.refl
  · extract_lets -merge -useContext +onlyGivenNames x0
    try clear_value x0
    extract_lets -merge -useContext +onlyGivenNames x1
    try clear_value x1
    extract_lets -merge -useContext +onlyGivenNames x2
    try clear_value x2
    extract_lets -merge -useContext +onlyGivenNames x3
    have h4 : Keeps 67108351 s x3 := by
      unfold x3
      refine Keeps.step setTask_keeps rfl ?_
      exact Keeps.refl
    try clear_value x3
    refine Keeps.app (wr_prg rfl) ?_
    exact h4

/-- Writes at most: prg mem. -/
theorem releaseFree_keeps {b0 s} : Keeps 67106303 s (releaseFree b0 s) := by
  unfold releaseFree
  split
  · refine Keeps.step release_keeps rfl ?_
    refine Keeps.step freshImage_keeps rfl ?_
    exact Keeps.refl
  · exact Keeps.refl

/-- Writes at most: vm xch regs evr upd. -/
theorem modeAbort_keeps {s} : Keeps 56594431 s (modeAbort s) := by
  unfold modeAbort
  refine Keeps.ite ?_ ?_
  · refine Keeps.step xchAbort_keeps rfl ?_
    exact Keeps.refl
  · exact Keeps.refl

/-- Writes at most: sent regs fio snu evr. -/
theorem leaveNormal_keeps {s} : Keeps 63422461 s (leaveNormal s) := by
  unfold leaveNormal
  refine Keeps.ite ?_ ?_
  · refine Keeps.step pinsOff_keeps rfl ?_
    refine Keeps.step cutPicking_keeps rfl ?_
    refine Keeps.step recordCut_keeps rfl ?_
    exact Keeps.refl
  · exact Keeps.refl

/-- Writes at most: sent prg mem vm xch regs rings fio snu evr upd. -/
theorem enterFree_keeps {b0 s} : Keeps 54887933 s (enterFree b0 s) := by
  unfold enterFree
  extract_lets -merge -useContext +onlyGivenNames x0
  have h1 : Keeps 54887933 s x0 := by
    unfold x0
    refine Keeps.step setMode_keeps rfl ?_
    refine Keeps.step modeAbort_keeps rfl ?_
    refine Keeps.step leaveNormal_keeps rfl ?_
    exact Keeps.refl
  try clear_value x0
  extract_lets -merge -useContext +onlyGivenNames x2
  try clear_value x2
  extract_lets -merge -useContext +onlyGivenNames x3
  have h4 : Keeps 54887933 s x3 := by
    unfold x3
    refine Keeps.step endAllPosts_keeps rfl ?_
    refine Keeps.app (wr_prg rfl) ?_
    exact h1
  try clear_value x3
  extract_lets -merge -useContext +onlyGivenNames x5
  have h6 : Keeps 54887933 s x5 := by
    unfold x5
    refine Keeps.step releaseFree_keeps rfl ?_
    exact h4
  try clear_value x5
  refine Keeps.ite ?_ ?_
  · refine Keeps.step releaseFree_keeps rfl ?_
    exact h6
  · exact h6

/-- Writes at most: prg. -/
theorem releaseCyclic_keeps {b0 b1 s} : Keeps 67108351 s (releaseCyclic b0 b1 s) := by
  induction b1 generalizing b0 s with
  | nil =>
    rw [releaseCyclic.eq_1]
    exact Keeps.refl
  | cons z zs ih =>
    rw [releaseCyclic.eq_2]
    refine Keeps.app ih ?_
    refine Keeps.ite ?_ ?_
    · refine Keeps.ite ?_ ?_
      · refine Keeps.step setTask_keeps rfl ?_
        exact Keeps.refl
      · refine Keeps.step release_keeps rfl ?_
        exact Keeps.refl
    · exact Keeps.refl

/-- Writes at most: xch. -/
theorem skipCyclic_keeps {b0 b1 s} : Keeps 67100671 s (skipCyclic b0 b1 s) := by
  induction b1 generalizing b0 s with
  | nil =>
    rw [skipCyclic.eq_1]
    exact Keeps.refl
  | cons z zs ih =>
    rw [skipCyclic.eq_2]
    refine Keeps.app ih ?_
    refine Keeps.ite ?_ ?_
    · refine Keeps.app (wr_xch rfl) ?_
      exact Keeps.refl
    · exact Keeps.refl

/-- Writes at most: prg xch. -/
theorem trigger_keeps {b0 b1 b2 b3 s} : Keeps 67100159 s (trigger b0 b1 b2 b3 s) := by
  unfold trigger
  extract_lets -merge -useContext +onlyGivenNames x0
  try clear_value x0
  refine Keeps.ite ?_ ?_
  · refine Keeps.app (wr_xch rfl) ?_
    exact Keeps.refl
  · refine Keeps.ite ?_ ?_
    · refine Keeps.step setTask_keeps rfl ?_
      exact Keeps.refl
    · refine Keeps.step setTask_keeps rfl ?_
      exact Keeps.refl

/-- Writes at most: prg xch. -/
theorem fireIn_keeps {b0 b1 b2 b3 b4 s} : Keeps 67100159 s (fireIn b0 b1 b2 b3 b4 s) := by
  induction b4 generalizing b0 b1 b2 b3 s with
  | nil =>
    rw [fireIn.eq_1]
    exact Keeps.refl
  | cons z zs ih =>
    rw [fireIn.eq_2]
    refine Keeps.app ih ?_
    refine Keeps.ite ?_ ?_
    · refine Keeps.step trigger_keeps rfl ?_
      exact Keeps.refl
    · exact Keeps.refl

/-- Writes at most: prg xch. -/
theorem fire_keeps {b0 b1 b2 s} : Keeps 67100159 s (fire b0 b1 b2 s) := by
  unfold fire
  refine Keeps.ite ?_ ?_
  · extract_lets -merge -useContext +onlyGivenNames x0
    have h1 : Keeps 67100159 s x0 := by
      unfold x0
      refine Keeps.step fireIn_keeps rfl ?_
      exact Keeps.refl
    try clear_value x0
    split
    · refine Keeps.step fireIn_keeps rfl ?_
      exact h1
    · exact h1
  · exact Keeps.refl

/-- Writes at most: prg xch. -/
theorem fireRing_keeps {b0 s} : Keeps 67100159 s (fireRing b0 s) := by
  unfold fireRing
  refine Keeps.step fire_keeps rfl ?_
  exact Keeps.refl

/-- Writes at most: prg xch. -/
theorem fireEdge_keeps {b0 b1 b2 s} : Keeps 67100159 s (fireEdge b0 b1 b2 s) := by
  unfold fireEdge
  refine Keeps.step fire_keeps rfl ?_
  exact Keeps.refl

/-- Writes at most: prg xch. -/
theorem fireNotice_keeps {b0 b1 b2 s} : Keeps 67100159 s (fireNotice b0 b1 b2 s) := by
  unfold fireNotice
  refine Keeps.step fire_keeps rfl ?_
  exact Keeps.refl

/-- Writes at most: prg xch. -/
theorem firePosition_keeps {b0 s} : Keeps 67100159 s (firePosition b0 s) := by
  unfold firePosition
  refine Keeps.step fire_keeps rfl ?_
  exact Keeps.refl

/-- Writes at most: prg. -/
theorem releaseEvent_keeps {b0 b1 s} : Keeps 67108351 s (releaseEvent b0 b1 s) := by
  unfold releaseEvent
  extract_lets -merge -useContext +onlyGivenNames x0
  try clear_value x0
  split
  · refine Keeps.ite ?_ ?_
    · refine Keeps.step release_keeps rfl ?_
      exact Keeps.refl
    · exact Keeps.refl
  · exact Keeps.refl

/-- Writes at most: sent clk civ cand prg bus lnk. -/
theorem execEventTaskRelease_keeps {b0 b1 s} : Answers 50298309 s (execEventTaskRelease b0 b1 s) := by
  unfold execEventTaskRelease
  extract_lets -merge -useContext +onlyGivenNames x0
  have h1 : Keeps 50298309 s x0 := by
    unfold x0
    refine Keeps.step begin'_keeps rfl ?_
    exact Keeps.refl
  try clear_value x0
  refine Answers.next ?_
  refine Keeps.ite ?_ ?_
  · refine Keeps.step releaseEvent_keeps rfl ?_
    refine Keeps.step releaseEvent_keeps rfl ?_
    exact h1
  · exact h1

/-- Writes at most: sent mem vm xch regs lnk. -/
theorem armFirst_keeps {b0 s} : Keeps 50300925 s (armFirst b0 s) := by
  induction b0 generalizing s with
  | nil =>
    rw [armFirst.eq_1]
    exact Keeps.refl
  | cons z zs ih =>
    rw [armFirst.eq_2]
    refine Keeps.app ih ?_
    refine Keeps.step laneStore_keeps rfl ?_
    exact Keeps.refl

/-- Writes at most: sent cand pwr prg mem vm xch regs rings snu evr upd lnk. -/
theorem enterNormal_keeps {s} : Keeps 38634909 s (enterNormal s) := by
  unfold enterNormal
  extract_lets -merge -useContext +onlyGivenNames x0
  try clear_value x0
  extract_lets -merge -useContext +onlyGivenNames x1
  have h2 : Keeps 38634909 s x1 := by
    unfold x1
    refine Keeps.step setMode_keeps rfl ?_
    refine Keeps.step modeAbort_keeps rfl ?_
    exact Keeps.refl
  try clear_value x1
  extract_lets -merge -useContext +onlyGivenNames x3
  have h4 : Keeps 38634909 s x3 := by
    unfold x3
    refine Keeps.step endAllPosts_keeps rfl ?_
    exact h2
  try clear_value x3
  extract_lets -merge -useContext +onlyGivenNames x5
  have h6 : Keeps 38634909 s x5 := by
    unfold x5
    refine Keeps.step armFirst_keeps rfl ?_
    exact h4
  try clear_value x5
  extract_lets -merge -useContext +onlyGivenNames x7
  have h8 : Keeps 38634909 s x7 := by
    unfold x7
    split
    · refine Keeps.step armFirst_keeps rfl ?_
      exact h6
    · exact h6
  try clear_value x7
  extract_lets -merge -useContext +onlyGivenNames x11
  have h12 : Keeps 38634909 s x11 := by
    unfold x11
    refine Keeps.step setRf_keeps rfl ?_
    exact h8
  try clear_value x11
  exact Keeps.app (show Keeps 38634909 x11 _ from ⟨fun _ => rfl, fun _ => rfl, fun _ => rfl, fun _ => rfl, fun _ => rfl, fun h => noBit h rfl, fun h => noBit h rfl, fun _ => rfl, fun _ => rfl, fun h => noBit h rfl, fun _ => rfl, fun _ => rfl, fun _ => rfl, fun _ => rfl, fun _ => rfl, fun _ => rfl, fun _ => rfl, fun _ => rfl, fun _ => rfl, fun _ => rfl, fun h => noBit h rfl, fun _ => rfl, fun _ => rfl, fun _ => rfl, fun _ => rfl, fun _ => rfl⟩) h12

/-- Writes at most: prg. -/
theorem requestNormal_keeps {s} : Keeps 67108351 s (requestNormal s) := by
  unfold requestNormal
  refine Keeps.ite ?_ ?_
  · refine Keeps.app (wr_prg rfl) ?_
    exact Keeps.refl
  · exact Keeps.refl

/-- Writes at most: prg regs evr. -/
theorem requestTest_keeps {s} : Keeps 64994815 s (requestTest s) := by
  unfold requestTest
  refine Keeps.ite ?_ ?_
  · split
    · refine Keeps.step consumeToken_keeps rfl ?_
      refine Keeps.app (wr_prg rfl) ?_
      exact Keeps.refl
    · refine Keeps.step nvEvent_keeps rfl ?_
      exact Keeps.refl
  · exact Keeps.refl

/-- Writes at most: sent clk civ cand pwr tri prg frc vm xch regs bus rings fio snu evr upd lnk. -/
theorem execReqNormal_keeps {b0 s} : Answers 38078725 s (execReqNormal b0 s) := by
  unfold execReqNormal
  refine Answers.next ?_
  refine Keeps.app (blockCommand_keeps ?_ rfl) ?_
  · intro s
    refine Keeps.step requestNormal_keeps rfl ?_
    exact Keeps.refl
  · refine Keeps.step begin'_keeps rfl ?_
    exact Keeps.refl

/-- Writes at most: sent clk civ cand pwr tri prg frc vm xch regs bus rings fio snu evr upd lnk. -/
theorem execReqTest_keeps {b0 s} : Answers 38078725 s (execReqTest b0 s) := by
  unfold execReqTest
  refine Answers.next ?_
  refine Keeps.app (blockCommand_keeps ?_ rfl) ?_
  · intro s
    refine Keeps.step requestTest_keeps rfl ?_
    exact Keeps.refl
  · refine Keeps.step begin'_keeps rfl ?_
    exact Keeps.refl

/-- Writes at most: sent clk civ cand prg bus lnk. -/
theorem execVerifiedEntryExpiry_keeps {b0 b1 s} : Answers 50298309 s (execVerifiedEntryExpiry b0 b1 s) := by
  unfold execVerifiedEntryExpiry
  extract_lets -merge -useContext +onlyGivenNames x0
  have h1 : Keeps 50298309 s x0 := by
    unfold x0
    refine Keeps.step begin'_keeps rfl ?_
    exact Keeps.refl
  try clear_value x0
  refine Answers.next ?_
  refine Keeps.app (wr_prg rfl) ?_
  exact h1

/-- Writes at most: sent cand pwr tri prg frc vm xch regs rings fio snu evr upd lnk. -/
theorem sysTripWrite_keeps {b0 s} : Keeps 38111517 s (sysTripWrite b0 s) := by
  unfold sysTripWrite
  refine Keeps.step vitalFault_keeps rfl ?_
  refine Keeps.step trapRecord_keeps rfl ?_
  exact Keeps.refl

/-- Writes at most: sent clk civ cand pwr tri prg frc vm xch regs bus rings fio snu evr upd lnk. -/
theorem execSysTrip_keeps {b0 b1 b2 s} : Answers 38078725 s (execSysTrip b0 b1 b2 s) := by
  unfold execSysTrip
  extract_lets -merge -useContext +onlyGivenNames x0
  have h1 : Keeps 38078725 s x0 := by
    unfold x0
    refine Keeps.step begin'_keeps rfl ?_
    exact Keeps.refl
  try clear_value x0
  refine Answers.next ?_
  refine Keeps.ite ?_ ?_
  · refine Keeps.step sysTripWrite_keeps rfl ?_
    refine Keeps.step seqVoted_keeps rfl ?_
    exact h1
  · exact h1

/-- Writes at most: sent clk civ cand pwr tri prg frc vm xch regs bus rings fio snu evr upd lnk. -/
theorem execTaskOverrun_keeps {b0 b1 b2 s} : Answers 38078725 s (execTaskOverrun b0 b1 b2 s) := by
  unfold execTaskOverrun
  extract_lets -merge -useContext +onlyGivenNames x0
  have h1 : Keeps 38078725 s x0 := by
    unfold x0
    refine Keeps.step begin'_keeps rfl ?_
    exact Keeps.refl
  try clear_value x0
  refine Answers.next ?_
  split
  · refine Keeps.ite ?_ ?_
    · refine Keeps.step vitalFault_keeps rfl ?_
      refine Keeps.step trapRecord_keeps rfl ?_
      exact h1
    · exact h1
  · exact h1

end Sys2Proof.Machine
end

