-- ==== Sys2Proof/Laws/InvRelease.lean ====
section
/-! SUPPORT. The functions of Machine/Release.lean keep the invariant `Inv`. -/

namespace Sys2Proof.Machine

theorem releaseFree_inv {b0 s} (hs : Inv s) : Inv (releaseFree b0 s) := by
  unfold releaseFree
  split
  · refine Inv.keep release_keeps rfl ?_
    refine freshImage_inv ?_
    exact hs
  · exact hs

theorem modeAbort_inv {s} (hs : Inv s) : Inv (modeAbort s) := by
  unfold modeAbort
  refine Inv.ite ?_ ?_
  · refine xchAbort_inv ?_
    exact hs
  · exact hs

theorem leaveNormal_inv {s} (hs : Inv s) : Inv (leaveNormal s) := by
  unfold leaveNormal
  refine Inv.ite ?_ ?_
  · refine Inv.keep pinsOff_keeps rfl ?_
    refine Inv.keep cutPicking_keeps rfl ?_
    refine recordCut_inv ?_
    exact hs
  · exact hs

theorem enterFree_inv {b0 s} (hs : Inv s) : Inv (enterFree b0 s) := by
  unfold enterFree
  extract_lets -merge -useContext +onlyGivenNames x0
  have h1 : Inv x0 := by
    unfold x0
    refine setMode_inv ?_
    refine modeAbort_inv ?_
    refine leaveNormal_inv ?_
    exact hs
  try clear_value x0
  extract_lets -merge -useContext +onlyGivenNames x2
  try clear_value x2
  extract_lets -merge -useContext +onlyGivenNames x3
  have h4 : Inv x3 := by
    unfold x3
    refine endAllPosts_inv ?_
    refine Inv.keep (wr_prg (m := 67108351) rfl) rfl ?_
    exact h1
  try clear_value x3
  extract_lets -merge -useContext +onlyGivenNames x5
  have h6 : Inv x5 := by
    unfold x5
    refine releaseFree_inv ?_
    exact h4
  try clear_value x5
  refine Inv.ite ?_ ?_
  · refine releaseFree_inv ?_
    exact h6
  · exact h6

theorem execEventTaskRelease_inv {b0 b1 s} (hs : Inv s) : InvA (execEventTaskRelease b0 b1 s) := by
  unfold execEventTaskRelease
  extract_lets -merge -useContext +onlyGivenNames x0
  have h1 : Inv x0 := by
    unfold x0
    refine begin'_inv ?_
    exact hs
  try clear_value x0
  refine InvA.next ?_
  refine Inv.ite ?_ ?_
  · refine Inv.keep releaseEvent_keeps rfl ?_
    refine Inv.keep releaseEvent_keeps rfl ?_
    exact h1
  · exact h1

theorem armFirst_inv {b0 s} (hs : Inv s) : Inv (armFirst b0 s) := by
  induction b0 generalizing s with
  | nil =>
    rw [armFirst.eq_1]
    exact hs
  | cons z zs ih =>
    rw [armFirst.eq_2]
    refine ih ?_
    refine laneStore_inv ?_
    exact hs

theorem enterNormal_inv {s} (hs : Inv s) : Inv (enterNormal s) := by
  unfold enterNormal
  extract_lets -merge -useContext +onlyGivenNames x0
  try clear_value x0
  extract_lets -merge -useContext +onlyGivenNames x1
  have h2 : Inv x1 := by
    unfold x1
    refine setMode_inv ?_
    refine modeAbort_inv ?_
    exact hs
  try clear_value x1
  extract_lets -merge -useContext +onlyGivenNames x3
  have h4 : Inv x3 := by
    unfold x3
    refine endAllPosts_inv ?_
    exact h2
  try clear_value x3
  extract_lets -merge -useContext +onlyGivenNames x5
  have h6 : Inv x5 := by
    unfold x5
    refine armFirst_inv ?_
    exact h4
  try clear_value x5
  extract_lets -merge -useContext +onlyGivenNames x7
  have h8 : Inv x7 := by
    unfold x7
    split
    · refine armFirst_inv ?_
      exact h6
    · exact h6
  try clear_value x7
  extract_lets -merge -useContext +onlyGivenNames x11
  have h12 : Inv x11 := by
    unfold x11
    refine Inv.keep setRf_keeps rfl ?_
    exact h8
  try clear_value x11
  have h := h12
  refine ⟨h.mem, ?_, h.evr, h.frc, h.lat⟩
  · exact h.cand

theorem requestTest_inv {s} (hs : Inv s) : Inv (requestTest s) := by
  unfold requestTest
  refine Inv.ite ?_ ?_
  · split
    · refine Inv.keep consumeToken_keeps rfl ?_
      refine Inv.keep (wr_prg (m := 67108351) rfl) rfl ?_
      exact hs
    · refine nvEvent_inv ?_
      exact hs
  · exact hs

theorem execReqNormal_inv {b0 s} (hs : Inv s) : InvA (execReqNormal b0 s) := by
  unfold execReqNormal
  refine InvA.next ?_
  refine blockCommand_inv ?_ ?_
  · intro s hs
    refine Inv.keep requestNormal_keeps rfl ?_
    exact hs
  · refine begin'_inv ?_
    exact hs

theorem execReqTest_inv {b0 s} (hs : Inv s) : InvA (execReqTest b0 s) := by
  unfold execReqTest
  refine InvA.next ?_
  refine blockCommand_inv ?_ ?_
  · intro s hs
    refine requestTest_inv ?_
    exact hs
  · refine begin'_inv ?_
    exact hs

theorem execVerifiedEntryExpiry_inv {b0 b1 s} (hs : Inv s) : InvA (execVerifiedEntryExpiry b0 b1 s) := by
  unfold execVerifiedEntryExpiry
  extract_lets -merge -useContext +onlyGivenNames x0
  have h1 : Inv x0 := by
    unfold x0
    refine begin'_inv ?_
    exact hs
  try clear_value x0
  refine InvA.next ?_
  refine Inv.keep (wr_prg (m := 67108351) rfl) rfl ?_
  exact h1

theorem sysTripWrite_inv {b0 s} (hs : Inv s) : Inv (sysTripWrite b0 s) := by
  unfold sysTripWrite
  refine vitalFault_inv ?_
  refine trapRecord_inv ?_
  exact hs

theorem execSysTrip_inv {b0 b1 b2 s} (hs : Inv s) : InvA (execSysTrip b0 b1 b2 s) := by
  unfold execSysTrip
  extract_lets -merge -useContext +onlyGivenNames x0
  have h1 : Inv x0 := by
    unfold x0
    refine begin'_inv ?_
    exact hs
  try clear_value x0
  refine InvA.next ?_
  refine Inv.ite ?_ ?_
  · refine sysTripWrite_inv ?_
    refine Inv.keep seqVoted_keeps rfl ?_
    exact h1
  · exact h1

theorem execTaskOverrun_inv {b0 b1 b2 s} (hs : Inv s) : InvA (execTaskOverrun b0 b1 b2 s) := by
  unfold execTaskOverrun
  extract_lets -merge -useContext +onlyGivenNames x0
  have h1 : Inv x0 := by
    unfold x0
    refine begin'_inv ?_
    exact hs
  try clear_value x0
  refine InvA.next ?_
  split
  · refine Inv.ite ?_ ?_
    · refine vitalFault_inv ?_
      refine trapRecord_inv ?_
      exact h1
    · exact h1
  · exact h1

end Sys2Proof.Machine
end

