-- ==== Sys2Proof/Laws/KeepsVote.lean ====
section
/-! SUPPORT. Frames of the functions of Machine/Vote.lean: what each leaves alone, said once. The docstrings name the parts of `State` a function may write; the mask marks all others. -/

namespace Sys2Proof.Machine

/-- Writes at most: sent cand pwr tri prg frc vm xch regs rings fio snu evr sta upd lnk. -/
theorem vote_keeps {b0 s} : Keeps 33917213 s (vote b0 s).1 := by
  unfold vote
  extract_lets -merge -useContext +onlyGivenNames x0
  try clear_value x0
  extract_lets -merge -useContext +onlyGivenNames x1
  try clear_value x1
  refine Keeps.ite1 ?_ ?_
  · extract_lets -merge -useContext +onlyGivenNames x2
    have h3 : Keeps 33917213 s x2 := by
      unfold x2
      refine Keeps.step unitDisagrees_keeps rfl ?_
      exact Keeps.refl
    try clear_value x2
    refine Keeps.mkFst ?_
    refine Keeps.app (wr_tri rfl) ?_
    exact h3
  · split
    · refine Keeps.mkFst ?_
      exact Keeps.refl
    · refine Keeps.mkFst ?_
      refine Keeps.step tripLane_keeps rfl ?_
      refine Keeps.ite ?_ ?_
      · refine Keeps.step countTimeout_keeps rfl ?_
        exact Keeps.refl
      · refine Keeps.step countVerdict_keeps rfl ?_
        exact Keeps.refl
    · refine Keeps.mkFst ?_
      refine Keeps.step vitalFault_keeps rfl ?_
      exact Keeps.refl

end Sys2Proof.Machine
end

