-- ==== Sys2Proof/Laws/InvVote.lean ====
section
/-! SUPPORT. The functions of Machine/Vote.lean keep the invariant `Inv`. -/

namespace Sys2Proof.Machine

theorem vote_inv {b0 s} (hs : Inv s) : Inv (vote b0 s).1 := by
  unfold vote
  extract_lets -merge -useContext +onlyGivenNames x0
  try clear_value x0
  extract_lets -merge -useContext +onlyGivenNames x1
  try clear_value x1
  refine Inv.ite1 ?_ ?_
  · extract_lets -merge -useContext +onlyGivenNames x2
    have h3 : Inv x2 := by
      unfold x2
      refine unitDisagrees_inv ?_
      exact hs
    try clear_value x2
    refine Inv.mkFst ?_
    refine Inv.keep (wr_tri (m := 67108735) rfl) rfl ?_
    exact h3
  · split
    · refine Inv.mkFst ?_
      exact hs
    · refine Inv.mkFst ?_
      refine tripLane_inv ?_
      refine Inv.ite ?_ ?_
      · refine Inv.keep countTimeout_keeps rfl ?_
        exact hs
      · refine Inv.keep countVerdict_keeps rfl ?_
        exact hs
    · refine Inv.mkFst ?_
      refine vitalFault_inv ?_
      exact hs

end Sys2Proof.Machine
end

