-- ==== Sys2Proof/Laws/KeepsSnuffer.lean ====
section
/-! SUPPORT. Frames of the functions of Machine/Snuffer.lean: what each leaves alone, said once. The docstrings name the parts of `State` a function may write; the mask marks all others. -/

namespace Sys2Proof.Machine

/-- Writes at most: regs snu evr. -/
theorem pathTrip_keeps {b0 s} : Keeps 63946751 s (pathTrip b0 s) := by
  unfold pathTrip
  refine Keeps.step openGroup_keeps rfl ?_
  refine Keeps.ite ?_ ?_
  · refine Keeps.step recordCut_keeps rfl ?_
    exact Keeps.refl
  · exact Keeps.refl

/-- Writes at most: regs snu evr. -/
theorem feedEdge_keeps {b0 s} : Keeps 63946751 s (feedEdge b0 s) := by
  unfold feedEdge
  refine Keeps.ite ?_ ?_
  · extract_lets -merge -useContext +onlyGivenNames x0
    try clear_value x0
    extract_lets -merge -useContext +onlyGivenNames x1
    try clear_value x1
    refine Keeps.ite ?_ ?_
    · refine Keeps.step pathTrip_keeps rfl ?_
      exact Keeps.refl
    · refine Keeps.step modSnu_keeps rfl ?_
      exact Keeps.refl
  · exact Keeps.refl

/-- Writes at most: regs snu evr. -/
theorem feedAll_keeps {s} : Keeps 63946751 s (feedAll s) := by
  unfold feedAll
  refine Keeps.step feedEdge_keeps rfl ?_
  refine Keeps.step feedEdge_keeps rfl ?_
  refine Keeps.step feedEdge_keeps rfl ?_
  refine Keeps.step feedEdge_keeps rfl ?_
  exact Keeps.refl

/-- Writes at most: sent clk civ cand pwr tri prg frc vm xch regs bus rings fio snu evr sta upd lnk. -/
theorem execSnufferFeed_keeps {b0 b1 s} : Answers 33884421 s (execSnufferFeed b0 b1 s) := by
  unfold execSnufferFeed
  extract_lets -merge -useContext +onlyGivenNames x0
  have h1 : Keeps 33884421 s x0 := by
    unfold x0
    refine Keeps.step begin'_keeps rfl ?_
    exact Keeps.refl
  try clear_value x0
  refine Answers.next ?_
  refine Keeps.ite ?_ ?_
  · split
    · rename_i y2 y3 q4
      have h5 : Keeps 33884421 s y2 := by
        refine Keeps.fst ?_ q4
        refine Keeps.step vote_keeps rfl ?_
        exact h1
      refine Keeps.step feedAll_keeps rfl ?_
      refine Keeps.step seqNext_keeps rfl ?_
      exact h5
    · rename_i y6 q7
      have h8 : Keeps 33884421 s y6 := by
        refine Keeps.fst ?_ q7
        refine Keeps.step vote_keeps rfl ?_
        exact h1
      exact h8
  · exact h1

/-- Writes at most: sent clk civ cand prg regs bus snu evr lnk. -/
theorem execPathATrip_keeps {b0 b1 s} : Answers 47136197 s (execPathATrip b0 b1 s) := by
  unfold execPathATrip
  extract_lets -merge -useContext +onlyGivenNames x0
  have h1 : Keeps 47136197 s x0 := by
    unfold x0
    refine Keeps.step begin'_keeps rfl ?_
    exact Keeps.refl
  try clear_value x0
  extract_lets -merge -useContext +onlyGivenNames x2
  try clear_value x2
  refine Answers.next ?_
  refine Keeps.ite ?_ ?_
  · refine Keeps.step pathTrip_keeps rfl ?_
    exact h1
  · exact h1

/-- Writes at most: sent clk civ cand prg regs bus fio snu evr lnk. -/
theorem execPathAClose_keeps {b0 b1 b2 s} : Answers 46611909 s (execPathAClose b0 b1 b2 s) := by
  unfold execPathAClose
  extract_lets -merge -useContext +onlyGivenNames x0
  have h1 : Keeps 46611909 s x0 := by
    unfold x0
    refine Keeps.step begin'_keeps rfl ?_
    exact Keeps.refl
  try clear_value x0
  extract_lets -merge -useContext +onlyGivenNames x2
  try clear_value x2
  refine Answers.next ?_
  refine Keeps.ite ?_ ?_
  · refine Keeps.ite ?_ ?_
    · refine Keeps.step modSnu_keeps rfl ?_
      exact h1
    · refine Keeps.step openGroup_keeps rfl ?_
      refine Keeps.step groupFault_keeps rfl ?_
      exact h1
  · exact h1

/-- Writes at most: sent clk civ cand pwr tri prg frc vm xch regs bus rings fio snu evr upd lnk. -/
theorem execKauxSample_keeps {b0 b1 b2 b3 s} : Answers 38078725 s (execKauxSample b0 b1 b2 b3 s) := by
  unfold execKauxSample
  extract_lets -merge -useContext +onlyGivenNames x0
  have h1 : Keeps 38078725 s x0 := by
    unfold x0
    refine Keeps.step begin'_keeps rfl ?_
    exact Keeps.refl
  try clear_value x0
  extract_lets -merge -useContext +onlyGivenNames x2
  try clear_value x2
  refine Answers.next ?_
  refine Keeps.ite ?_ ?_
  · exact h1
  · refine Keeps.ite ?_ ?_
    · refine Keeps.step modSnu_keeps rfl ?_
      exact h1
    · extract_lets -merge -useContext +onlyGivenNames x3
      try clear_value x3
      extract_lets -merge -useContext +onlyGivenNames x4
      try clear_value x4
      extract_lets -merge -useContext +onlyGivenNames x5
      try clear_value x5
      extract_lets -merge -useContext +onlyGivenNames x6
      have h7 : Keeps 38078725 s x6 := by
        unfold x6
        refine Keeps.step modSnu_keeps rfl ?_
        exact h1
      try clear_value x6
      refine Keeps.ite ?_ ?_
      · refine Keeps.step snufferFault_keeps rfl ?_
        exact h7
      · refine Keeps.ite ?_ ?_
        · refine Keeps.ite ?_ ?_
          · refine Keeps.step snufferFault_keeps rfl ?_
            exact h7
          · refine Keeps.ite ?_ ?_
            · refine Keeps.step modSnu_keeps rfl ?_
              exact h7
            · exact h7
        · exact h7

/-- Writes at most: snu. -/
theorem closeStart_keeps {b0 s} : Keeps 66060287 s (closeStart b0 s) := by
  unfold closeStart
  refine Keeps.ite ?_ ?_
  · refine Keeps.step modSnu_keeps rfl ?_
    exact Keeps.refl
  · exact Keeps.refl

/-- Writes at most: snu. -/
theorem closingSequence_keeps {s} : Keeps 66060287 s (closingSequence s) := by
  unfold closingSequence
  refine Keeps.step closeStart_keeps rfl ?_
  refine Keeps.step closeStart_keeps rfl ?_
  refine Keeps.step closeStart_keeps rfl ?_
  refine Keeps.step closeStart_keeps rfl ?_
  exact Keeps.refl

/-- Writes at most: snu. -/
theorem testPeriod_keeps {s} : Keeps 66060287 s (testPeriod s) := by
  unfold testPeriod
  refine Keeps.ite ?_ ?_
  · extract_lets -merge -useContext +onlyGivenNames x0
    try clear_value x0
    extract_lets -merge -useContext +onlyGivenNames x1
    try clear_value x1
    refine Keeps.app (wr_snu rfl) ?_
    exact Keeps.refl
  · exact Keeps.refl

/-- Writes at most: sent clk civ cand pwr tri prg frc vm xch regs bus rings fio snu evr upd lnk. -/
theorem execPathTest_keeps {b0 b1 b2 b3 s} : Answers 38078725 s (execPathTest b0 b1 b2 b3 s) := by
  unfold execPathTest
  extract_lets -merge -useContext +onlyGivenNames x0
  have h1 : Keeps 38078725 s x0 := by
    unfold x0
    refine Keeps.step begin'_keeps rfl ?_
    exact Keeps.refl
  try clear_value x0
  extract_lets -merge -useContext +onlyGivenNames x2
  try clear_value x2
  refine Answers.next ?_
  refine Keeps.ite ?_ ?_
  · exact h1
  · extract_lets -merge -useContext +onlyGivenNames x3
    have h4 : Keeps 38078725 s x3 := by
      unfold x3
      refine Keeps.step cnt_keeps rfl ?_
      refine Keeps.step modSnu_keeps rfl ?_
      exact h1
    try clear_value x3
    extract_lets -merge -useContext +onlyGivenNames x5
    have h6 : ∀ s, Keeps 38078725 s (x5 s) := by
      intro s
      unfold x5
      refine Keeps.step snufferFault_keeps rfl ?_
      refine Keeps.step openGroup_keeps rfl ?_
      exact Keeps.refl
    try clear_value x5
    split
    · refine Keeps.app (h6 _) ?_
      exact h4
    · refine Keeps.ite ?_ ?_
      · refine Keeps.app (h6 _) ?_
        exact h4
      · refine Keeps.ite ?_ ?_
        · refine Keeps.ite ?_ ?_
          · refine Keeps.step setRf_keeps rfl ?_
            refine Keeps.step modSnu_keeps rfl ?_
            exact h4
          · refine Keeps.app (h6 _) ?_
            exact h4
        · extract_lets -merge -useContext +onlyGivenNames x9
          have h10 : Keeps 38078725 s x9 := by
            unfold x9
            refine Keeps.step setRf_keeps rfl ?_
            exact h4
          try clear_value x9
          extract_lets -merge -useContext +onlyGivenNames x11
          try clear_value x11
          refine Keeps.ite ?_ ?_
          · exact h10
          · refine Keeps.step openGroup_keeps rfl ?_
            refine Keeps.step groupFault_keeps rfl ?_
            exact h10

/-- Writes at most: sent clk civ cand pwr tri prg frc vm xch regs bus rings fio snu evr upd lnk. -/
theorem execTestNow_keeps {b0 s} : Answers 38078725 s (execTestNow b0 s) := by
  unfold execTestNow
  refine Answers.next ?_
  refine Keeps.app (blockCommand_keeps ?_ rfl) ?_
  · intro s
    refine Keeps.app (wr_snu rfl) ?_
    exact Keeps.refl
  · refine Keeps.step begin'_keeps rfl ?_
    exact Keeps.refl

/-- Writes at most: regs snu evr. -/
theorem kdropDo_keeps {b0 s} : Keeps 63946751 s (kdropDo b0 s) := by
  unfold kdropDo
  refine Keeps.ite ?_ ?_
  · extract_lets -merge -useContext +onlyGivenNames x0
    have h1 : Keeps 63946751 s x0 := by
      unfold x0
      refine Keeps.step recordCut_keeps rfl ?_
      exact Keeps.refl
    try clear_value x0
    refine Keeps.step modSnu_keeps rfl ?_
    refine Keeps.step dropK_keeps rfl ?_
    exact h1
  · refine Keeps.step nvEvent_keeps rfl ?_
    exact Keeps.refl

/-- Writes at most: sent clk civ cand pwr tri prg frc vm xch regs bus rings fio snu evr upd lnk. -/
theorem execKdrop_keeps {b0 b1 s} : Answers 38078725 s (execKdrop b0 b1 s) := by
  unfold execKdrop
  refine Answers.next ?_
  refine Keeps.app (blockCommand_keeps ?_ rfl) ?_
  · intro s
    refine Keeps.step kdropDo_keeps rfl ?_
    exact Keeps.refl
  · refine Keeps.step begin'_keeps rfl ?_
    exact Keeps.refl

/-- Writes at most: regs evr. -/
theorem snuRecord_keeps {b0 b1 s} : Keeps 64995327 s (snuRecord b0 b1 s) := by
  unfold snuRecord
  refine Keeps.step emit_keeps rfl ?_
  exact Keeps.refl

/-- Writes at most: regs fio evr. -/
theorem clearPin_keeps {b0 s} : Keeps 64471039 s (clearPin b0 s) := by
  unfold clearPin
  extract_lets -merge -useContext +onlyGivenNames x0
  try clear_value x0
  extract_lets -merge -useContext +onlyGivenNames x1
  have h2 : Keeps 64471039 s x1 := by
    unfold x1
    refine Keeps.step modPin_keeps rfl ?_
    exact Keeps.refl
  try clear_value x1
  extract_lets -merge -useContext +onlyGivenNames x3
  have h4 : Keeps 64471039 s x3 := by
    unfold x3
    refine Keeps.ite ?_ ?_
    · refine Keeps.step emit_keeps rfl ?_
      exact h2
    · exact h2
  try clear_value x3
  refine Keeps.ite ?_ ?_
  · refine Keeps.step emit_keeps rfl ?_
    exact h4
  · exact h4

/-- Writes at most: regs fio snu evr. -/
theorem clearCuts_keeps {s} : Keeps 63422463 s (clearCuts s) := by
  unfold clearCuts
  refine Keeps.foldl ?_ _ ?_
  · intro s a0
    refine Keeps.ite ?_ ?_
    · extract_lets -merge -useContext +onlyGivenNames x1
      have h2 : Keeps 63422463 s x1 := by
        unfold x1
        refine Keeps.step modSnu_keeps rfl ?_
        refine Keeps.step modGroup_keeps rfl ?_
        exact Keeps.refl
      try clear_value x1
      refine Keeps.foldl ?_ _ ?_
      · intro s a3
        refine Keeps.step clearPin_keeps rfl ?_
        exact Keeps.refl
      · exact h2
    · exact Keeps.refl
  · exact Keeps.refl

/-- Writes at most: tri dbg prg lat fio. -/
theorem relightAll_keeps {s} : Keeps 66321535 s (relightAll s) := by
  unfold relightAll
  extract_lets -merge -useContext +onlyGivenNames x0
  try clear_value x0
  extract_lets -merge -useContext +onlyGivenNames x1
  have h2 : Keeps 66321535 s x1 := by
    unfold x1
    refine Keeps.foldl ?_ _ ?_
    · intro s a3
      refine Keeps.ite ?_ ?_
      · refine Keeps.step voterLog_keeps rfl ?_
        exact Keeps.refl
      · exact Keeps.refl
    · exact Keeps.refl
  try clear_value x1
  exact Keeps.app (show Keeps 66321535 x1 _ from ⟨fun _ => rfl, fun _ => rfl, fun _ => rfl, fun _ => rfl, fun _ => rfl, fun _ => rfl, fun _ => rfl, fun h => noBit h rfl, fun h => noBit h rfl, fun h => noBit h rfl, fun _ => rfl, fun _ => rfl, fun _ => rfl, fun _ => rfl, fun _ => rfl, fun _ => rfl, fun _ => rfl, fun _ => rfl, fun h => noBit h rfl, fun h => noBit h rfl, fun _ => rfl, fun _ => rfl, fun _ => rfl, fun _ => rfl, fun _ => rfl, fun _ => rfl⟩) h2

/-- Writes at most: sent tri dbg prg mem vm xch regs rings lat fio snu evr upd. -/
theorem restartEdge_keeps {s} : Keeps 54625405 s (restartEdge s) := by
  unfold restartEdge
  extract_lets -merge -useContext +onlyGivenNames x0
  try clear_value x0
  extract_lets -merge -useContext +onlyGivenNames x1
  try clear_value x1
  extract_lets -merge -useContext +onlyGivenNames x2
  have h3 : Keeps 54625405 s x2 := by
    unfold x2
    refine Keeps.step cnt_keeps rfl ?_
    refine Keeps.app (wr_snu rfl) ?_
    exact Keeps.refl
  try clear_value x2
  extract_lets -merge -useContext +onlyGivenNames x4
  have h5 : Keeps 54625405 s x4 := by
    unfold x4
    refine Keeps.step snuRecord_keeps rfl ?_
    exact h3
  try clear_value x4
  refine Keeps.ite ?_ ?_
  · refine Keeps.app (wr_snu rfl) ?_
    exact h5
  · refine Keeps.ite ?_ ?_
    · exact h5
    · refine Keeps.ite ?_ ?_
      · refine Keeps.step enterFree_keeps rfl ?_
        refine Keeps.step relightAll_keeps rfl ?_
        exact h5
      · refine Keeps.ite ?_ ?_
        · exact h5
        · refine Keeps.ite ?_ ?_
          · refine Keeps.app (wr_snu rfl) ?_
            exact h5
          · refine Keeps.ite ?_ ?_
            · refine Keeps.step clearCuts_keeps rfl ?_
              exact h5
            · refine Keeps.step cnt_keeps rfl ?_
              exact h5

/-- Writes at most: regs snu evr. -/
theorem implausible_keeps {s} : Keeps 63946751 s (implausible s) := by
  unfold implausible
  refine Keeps.ite ?_ ?_
  · refine Keeps.app (wr_snu rfl) ?_
    exact Keeps.refl
  · refine Keeps.ite ?_ ?_
    · exact Keeps.refl
    · extract_lets -merge -useContext +onlyGivenNames x0
      try clear_value x0
      extract_lets -merge -useContext +onlyGivenNames x1
      have h2 : Keeps 63946751 s x1 := by
        unfold x1
        refine Keeps.step cnt_keeps rfl ?_
        refine Keeps.app (wr_snu rfl) ?_
        exact Keeps.refl
      try clear_value x1
      refine Keeps.step snuRecord_keeps rfl ?_
      exact h2

/-- Writes at most: snu. -/
theorem buttonRuns_keeps {b0 b1 s} : Keeps 66060287 s (buttonRuns b0 b1 s) := by
  unfold buttonRuns
  extract_lets -merge -useContext +onlyGivenNames x0
  try clear_value x0
  extract_lets -merge -useContext +onlyGivenNames x1
  try clear_value x1
  extract_lets -merge -useContext +onlyGivenNames x2
  try clear_value x2
  extract_lets -merge -useContext +onlyGivenNames x3
  try clear_value x3
  extract_lets -merge -useContext +onlyGivenNames x4
  try clear_value x4
  refine Keeps.app (wr_snu rfl) ?_
  exact Keeps.refl

/-- Writes at most: regs snu evr. -/
theorem buttonHold_keeps {s} : Keeps 63946751 s (buttonHold s) := by
  unfold buttonHold
  refine Keeps.ite ?_ ?_
  · extract_lets -merge -useContext +onlyGivenNames x0
    try clear_value x0
    extract_lets -merge -useContext +onlyGivenNames x1
    have h2 : Keeps 63946751 s x1 := by
      unfold x1
      refine Keeps.step cnt_keeps rfl ?_
      refine Keeps.app (wr_snu rfl) ?_
      exact Keeps.refl
    try clear_value x1
    refine Keeps.step snuRecord_keeps rfl ?_
    exact h2
  · exact Keeps.refl

/-- Writes at most: regs snu evr. -/
theorem buttonIdle_keeps {s} : Keeps 63946751 s (buttonIdle s) := by
  unfold buttonIdle
  refine Keeps.ite ?_ ?_
  · split
    · refine Keeps.app (wr_snu rfl) ?_
      exact Keeps.refl
    · refine Keeps.step snuRecord_keeps rfl ?_
      refine Keeps.app (wr_snu rfl) ?_
      exact Keeps.refl
    · exact Keeps.refl
  · exact Keeps.refl

/-- Writes at most: sent clk civ cand tri dbg prg mem vm xch regs bus rings lat fio snu evr upd lnk. -/
theorem execButtonSample_keeps {b0 b1 b2 s} : Answers 37815365 s (execButtonSample b0 b1 b2 s) := by
  unfold execButtonSample
  extract_lets -merge -useContext +onlyGivenNames x0
  have h1 : Keeps 37815365 s x0 := by
    unfold x0
    refine Keeps.step begin'_keeps rfl ?_
    exact Keeps.refl
  try clear_value x0
  refine Answers.next ?_
  refine Keeps.ite ?_ ?_
  · exact h1
  · extract_lets -merge -useContext +onlyGivenNames x2
    have h3 : Keeps 37815365 s x2 := by
      unfold x2
      refine Keeps.step buttonRuns_keeps rfl ?_
      exact h1
    try clear_value x2
    refine Keeps.ite ?_ ?_
    · refine Keeps.step implausible_keeps rfl ?_
      exact h3
    · split
      · refine Keeps.ite ?_ ?_
        · refine Keeps.app (wr_snu rfl) ?_
          exact h3
        · exact h3
      · refine Keeps.ite ?_ ?_
        · extract_lets -merge -useContext +onlyGivenNames x6
          try clear_value x6
          extract_lets -merge -useContext +onlyGivenNames x7
          have h8 : Keeps 37815365 s x7 := by
            unfold x7
            refine Keeps.app (wr_snu rfl) ?_
            exact h3
          try clear_value x7
          refine Keeps.ite ?_ ?_
          · refine Keeps.step cnt_keeps rfl ?_
            exact h8
          · refine Keeps.ite ?_ ?_
            · refine Keeps.step restartEdge_keeps rfl ?_
              exact h8
            · exact h8
        · refine Keeps.step buttonHold_keeps rfl ?_
          exact h3
      · refine Keeps.ite ?_ ?_
        · refine Keeps.app (wr_snu rfl) ?_
          exact h3
        · exact h3
      · refine Keeps.step buttonIdle_keeps rfl ?_
        exact h3

/-- Writes at most: sent clk civ cand prg regs bus snu evr lnk. -/
theorem execButtonHeld_keeps {b0 s} : Answers 47136197 s (execButtonHeld b0 s) := by
  unfold execButtonHeld
  extract_lets -merge -useContext +onlyGivenNames x0
  have h1 : Keeps 47136197 s x0 := by
    unfold x0
    refine Keeps.step begin'_keeps rfl ?_
    exact Keeps.refl
  try clear_value x0
  refine Answers.next ?_
  refine Keeps.ite ?_ ?_
  · refine Keeps.step buttonHold_keeps rfl ?_
    exact h1
  · exact h1

/-- Writes at most: sent clk civ cand prg regs bus snu evr lnk. -/
theorem execButtonTransitTimeout_keeps {b0 s} : Answers 47136197 s (execButtonTransitTimeout b0 s) := by
  unfold execButtonTransitTimeout
  extract_lets -merge -useContext +onlyGivenNames x0
  have h1 : Keeps 47136197 s x0 := by
    unfold x0
    refine Keeps.step begin'_keeps rfl ?_
    exact Keeps.refl
  try clear_value x0
  refine Answers.next ?_
  refine Keeps.ite ?_ ?_
  · refine Keeps.step implausible_keeps rfl ?_
    exact h1
  · exact h1

/-- Writes at most: sent clk civ cand prg regs bus snu evr lnk. -/
theorem execButtonReleased1s_keeps {b0 s} : Answers 47136197 s (execButtonReleased1s b0 s) := by
  unfold execButtonReleased1s
  extract_lets -merge -useContext +onlyGivenNames x0
  have h1 : Keeps 47136197 s x0 := by
    unfold x0
    refine Keeps.step begin'_keeps rfl ?_
    exact Keeps.refl
  try clear_value x0
  refine Answers.next ?_
  refine Keeps.ite ?_ ?_
  · refine Keeps.step buttonIdle_keeps rfl ?_
    exact h1
  · exact h1

end Sys2Proof.Machine
end

