-- ==== Sys2Proof/Laws/InvSnuffer.lean ====
section
/-! SUPPORT. The functions of Machine/Snuffer.lean keep the invariant `Inv`. -/

namespace Sys2Proof.Machine

theorem pathTrip_inv {b0 s} (hs : Inv s) : Inv (pathTrip b0 s) := by
  unfold pathTrip
  refine Inv.keep openGroup_keeps rfl ?_
  refine Inv.ite ?_ ?_
  · refine recordCut_inv ?_
    exact hs
  · exact hs

theorem feedEdge_inv {b0 s} (hs : Inv s) : Inv (feedEdge b0 s) := by
  unfold feedEdge
  refine Inv.ite ?_ ?_
  · extract_lets -merge -useContext +onlyGivenNames x0
    try clear_value x0
    extract_lets -merge -useContext +onlyGivenNames x1
    try clear_value x1
    refine Inv.ite ?_ ?_
    · refine pathTrip_inv ?_
      exact hs
    · refine Inv.keep modSnu_keeps rfl ?_
      exact hs
  · exact hs

theorem feedAll_inv {s} (hs : Inv s) : Inv (feedAll s) := by
  unfold feedAll
  refine feedEdge_inv ?_
  refine feedEdge_inv ?_
  refine feedEdge_inv ?_
  refine feedEdge_inv ?_
  exact hs

theorem execSnufferFeed_inv {b0 b1 s} (hs : Inv s) : InvA (execSnufferFeed b0 b1 s) := by
  unfold execSnufferFeed
  extract_lets -merge -useContext +onlyGivenNames x0
  have h1 : Inv x0 := by
    unfold x0
    refine begin'_inv ?_
    exact hs
  try clear_value x0
  refine InvA.next ?_
  refine Inv.ite ?_ ?_
  · split
    · rename_i y2 y3 q4
      have h5 : Inv y2 := by
        refine Inv.fst ?_ q4
        refine vote_inv ?_
        exact h1
      refine feedAll_inv ?_
      refine Inv.keep seqNext_keeps rfl ?_
      exact h5
    · rename_i y6 q7
      have h8 : Inv y6 := by
        refine Inv.fst ?_ q7
        refine vote_inv ?_
        exact h1
      exact h8
  · exact h1

theorem execPathATrip_inv {b0 b1 s} (hs : Inv s) : InvA (execPathATrip b0 b1 s) := by
  unfold execPathATrip
  extract_lets -merge -useContext +onlyGivenNames x0
  have h1 : Inv x0 := by
    unfold x0
    refine begin'_inv ?_
    exact hs
  try clear_value x0
  extract_lets -merge -useContext +onlyGivenNames x2
  try clear_value x2
  refine InvA.next ?_
  refine Inv.ite ?_ ?_
  · refine pathTrip_inv ?_
    exact h1
  · exact h1

theorem execPathAClose_inv {b0 b1 b2 s} (hs : Inv s) : InvA (execPathAClose b0 b1 b2 s) := by
  unfold execPathAClose
  extract_lets -merge -useContext +onlyGivenNames x0
  have h1 : Inv x0 := by
    unfold x0
    refine begin'_inv ?_
    exact hs
  try clear_value x0
  extract_lets -merge -useContext +onlyGivenNames x2
  try clear_value x2
  refine InvA.next ?_
  refine Inv.ite ?_ ?_
  · refine Inv.ite ?_ ?_
    · refine Inv.keep modSnu_keeps rfl ?_
      exact h1
    · refine Inv.keep openGroup_keeps rfl ?_
      refine groupFault_inv ?_
      exact h1
  · exact h1

theorem execKauxSample_inv {b0 b1 b2 b3 s} (hs : Inv s) : InvA (execKauxSample b0 b1 b2 b3 s) := by
  unfold execKauxSample
  extract_lets -merge -useContext +onlyGivenNames x0
  have h1 : Inv x0 := by
    unfold x0
    refine begin'_inv ?_
    exact hs
  try clear_value x0
  extract_lets -merge -useContext +onlyGivenNames x2
  try clear_value x2
  refine InvA.next ?_
  refine Inv.ite ?_ ?_
  · exact h1
  · refine Inv.ite ?_ ?_
    · refine Inv.keep modSnu_keeps rfl ?_
      exact h1
    · extract_lets -merge -useContext +onlyGivenNames x3
      try clear_value x3
      extract_lets -merge -useContext +onlyGivenNames x4
      try clear_value x4
      extract_lets -merge -useContext +onlyGivenNames x5
      try clear_value x5
      extract_lets -merge -useContext +onlyGivenNames x6
      have h7 : Inv x6 := by
        unfold x6
        refine Inv.keep modSnu_keeps rfl ?_
        exact h1
      try clear_value x6
      refine Inv.ite ?_ ?_
      · refine snufferFault_inv ?_
        exact h7
      · refine Inv.ite ?_ ?_
        · refine Inv.ite ?_ ?_
          · refine snufferFault_inv ?_
            exact h7
          · refine Inv.ite ?_ ?_
            · refine Inv.keep modSnu_keeps rfl ?_
              exact h7
            · exact h7
        · exact h7

theorem execPathTest_inv {b0 b1 b2 b3 s} (hs : Inv s) : InvA (execPathTest b0 b1 b2 b3 s) := by
  unfold execPathTest
  extract_lets -merge -useContext +onlyGivenNames x0
  have h1 : Inv x0 := by
    unfold x0
    refine begin'_inv ?_
    exact hs
  try clear_value x0
  extract_lets -merge -useContext +onlyGivenNames x2
  try clear_value x2
  refine InvA.next ?_
  refine Inv.ite ?_ ?_
  · exact h1
  · extract_lets -merge -useContext +onlyGivenNames x3
    have h4 : Inv x3 := by
      unfold x3
      refine Inv.keep cnt_keeps rfl ?_
      refine Inv.keep modSnu_keeps rfl ?_
      exact h1
    try clear_value x3
    extract_lets -merge -useContext +onlyGivenNames x5
    have h6 : ∀ s, Inv (s) → Inv (x5 s) := by
      intro s hs
      unfold x5
      refine snufferFault_inv ?_
      refine Inv.keep openGroup_keeps rfl ?_
      exact hs
    try clear_value x5
    split
    · refine h6 _ ?_
      exact h4
    · refine Inv.ite ?_ ?_
      · refine h6 _ ?_
        exact h4
      · refine Inv.ite ?_ ?_
        · refine Inv.ite ?_ ?_
          · refine Inv.keep setRf_keeps rfl ?_
            refine Inv.keep modSnu_keeps rfl ?_
            exact h4
          · refine h6 _ ?_
            exact h4
        · extract_lets -merge -useContext +onlyGivenNames x9
          have h10 : Inv x9 := by
            unfold x9
            refine Inv.keep setRf_keeps rfl ?_
            exact h4
          try clear_value x9
          extract_lets -merge -useContext +onlyGivenNames x11
          try clear_value x11
          refine Inv.ite ?_ ?_
          · exact h10
          · refine Inv.keep openGroup_keeps rfl ?_
            refine groupFault_inv ?_
            exact h10

theorem execTestNow_inv {b0 s} (hs : Inv s) : InvA (execTestNow b0 s) := by
  unfold execTestNow
  refine InvA.next ?_
  refine blockCommand_inv ?_ ?_
  · intro s hs
    refine Inv.keep (wr_snu (m := 66060287) rfl) rfl ?_
    exact hs
  · refine begin'_inv ?_
    exact hs

theorem kdropDo_inv {b0 s} (hs : Inv s) : Inv (kdropDo b0 s) := by
  unfold kdropDo
  refine Inv.ite ?_ ?_
  · extract_lets -merge -useContext +onlyGivenNames x0
    have h1 : Inv x0 := by
      unfold x0
      refine recordCut_inv ?_
      exact hs
    try clear_value x0
    refine Inv.keep modSnu_keeps rfl ?_
    refine Inv.keep dropK_keeps rfl ?_
    exact h1
  · refine nvEvent_inv ?_
    exact hs

theorem execKdrop_inv {b0 b1 s} (hs : Inv s) : InvA (execKdrop b0 b1 s) := by
  unfold execKdrop
  refine InvA.next ?_
  refine blockCommand_inv ?_ ?_
  · intro s hs
    refine kdropDo_inv ?_
    exact hs
  · refine begin'_inv ?_
    exact hs

theorem snuRecord_inv {b0 b1 s} (hs : Inv s) : Inv (snuRecord b0 b1 s) := by
  unfold snuRecord
  refine emit_inv ?_
  exact hs

theorem clearPin_inv {b0 s} (hs : Inv s) : Inv (clearPin b0 s) := by
  unfold clearPin
  extract_lets -merge -useContext +onlyGivenNames x0
  try clear_value x0
  extract_lets -merge -useContext +onlyGivenNames x1
  have h2 : Inv x1 := by
    unfold x1
    refine Inv.keep modPin_keeps rfl ?_
    exact hs
  try clear_value x1
  extract_lets -merge -useContext +onlyGivenNames x3
  have h4 : Inv x3 := by
    unfold x3
    refine Inv.ite ?_ ?_
    · refine emit_inv ?_
      exact h2
    · exact h2
  try clear_value x3
  refine Inv.ite ?_ ?_
  · refine emit_inv ?_
    exact h4
  · exact h4

theorem clearCuts_inv {s} (hs : Inv s) : Inv (clearCuts s) := by
  unfold clearCuts
  refine Inv.foldl ?_ _ ?_
  · intro s a0 hs
    refine Inv.ite ?_ ?_
    · extract_lets -merge -useContext +onlyGivenNames x1
      have h2 : Inv x1 := by
        unfold x1
        refine Inv.keep modSnu_keeps rfl ?_
        refine Inv.keep modGroup_keeps rfl ?_
        exact hs
      try clear_value x1
      refine Inv.foldl ?_ _ ?_
      · intro s a3 hs
        refine clearPin_inv ?_
        exact hs
      · exact h2
    · exact hs
  · exact hs

theorem relightAll_inv {s} (hs : Inv s) : Inv (relightAll s) := by
  unfold relightAll
  extract_lets -merge -useContext +onlyGivenNames x0
  try clear_value x0
  extract_lets -merge -useContext +onlyGivenNames x1
  have h2 : Inv x1 := by
    unfold x1
    refine Inv.foldl ?_ _ ?_
    · intro s a3 hs
      refine Inv.ite ?_ ?_
      · refine Inv.keep voterLog_keeps rfl ?_
        exact hs
      · exact hs
    · exact hs
  try clear_value x1
  have h := h2
  refine ⟨h.mem, h.cand, h.evr, h.frc, ?_⟩
  · exact h.lat

theorem restartEdge_inv {s} (hs : Inv s) : Inv (restartEdge s) := by
  unfold restartEdge
  extract_lets -merge -useContext +onlyGivenNames x0
  try clear_value x0
  extract_lets -merge -useContext +onlyGivenNames x1
  try clear_value x1
  extract_lets -merge -useContext +onlyGivenNames x2
  have h3 : Inv x2 := by
    unfold x2
    refine Inv.keep cnt_keeps rfl ?_
    refine Inv.keep (wr_snu (m := 66060287) rfl) rfl ?_
    exact hs
  try clear_value x2
  extract_lets -merge -useContext +onlyGivenNames x4
  have h5 : Inv x4 := by
    unfold x4
    refine snuRecord_inv ?_
    exact h3
  try clear_value x4
  refine Inv.ite ?_ ?_
  · refine Inv.keep (wr_snu (m := 66060287) rfl) rfl ?_
    exact h5
  · refine Inv.ite ?_ ?_
    · exact h5
    · refine Inv.ite ?_ ?_
      · refine enterFree_inv ?_
        refine relightAll_inv ?_
        exact h5
      · refine Inv.ite ?_ ?_
        · exact h5
        · refine Inv.ite ?_ ?_
          · refine Inv.keep (wr_snu (m := 66060287) rfl) rfl ?_
            exact h5
          · refine Inv.ite ?_ ?_
            · refine clearCuts_inv ?_
              exact h5
            · refine Inv.keep cnt_keeps rfl ?_
              exact h5

theorem implausible_inv {s} (hs : Inv s) : Inv (implausible s) := by
  unfold implausible
  refine Inv.ite ?_ ?_
  · refine Inv.keep (wr_snu (m := 66060287) rfl) rfl ?_
    exact hs
  · refine Inv.ite ?_ ?_
    · exact hs
    · extract_lets -merge -useContext +onlyGivenNames x0
      try clear_value x0
      extract_lets -merge -useContext +onlyGivenNames x1
      have h2 : Inv x1 := by
        unfold x1
        refine Inv.keep cnt_keeps rfl ?_
        refine Inv.keep (wr_snu (m := 66060287) rfl) rfl ?_
        exact hs
      try clear_value x1
      refine snuRecord_inv ?_
      exact h2

theorem buttonHold_inv {s} (hs : Inv s) : Inv (buttonHold s) := by
  unfold buttonHold
  refine Inv.ite ?_ ?_
  · extract_lets -merge -useContext +onlyGivenNames x0
    try clear_value x0
    extract_lets -merge -useContext +onlyGivenNames x1
    have h2 : Inv x1 := by
      unfold x1
      refine Inv.keep cnt_keeps rfl ?_
      refine Inv.keep (wr_snu (m := 66060287) rfl) rfl ?_
      exact hs
    try clear_value x1
    refine snuRecord_inv ?_
    exact h2
  · exact hs

theorem buttonIdle_inv {s} (hs : Inv s) : Inv (buttonIdle s) := by
  unfold buttonIdle
  refine Inv.ite ?_ ?_
  · split
    · refine Inv.keep (wr_snu (m := 66060287) rfl) rfl ?_
      exact hs
    · refine snuRecord_inv ?_
      refine Inv.keep (wr_snu (m := 66060287) rfl) rfl ?_
      exact hs
    · exact hs
  · exact hs

theorem execButtonSample_inv {b0 b1 b2 s} (hs : Inv s) : InvA (execButtonSample b0 b1 b2 s) := by
  unfold execButtonSample
  extract_lets -merge -useContext +onlyGivenNames x0
  have h1 : Inv x0 := by
    unfold x0
    refine begin'_inv ?_
    exact hs
  try clear_value x0
  refine InvA.next ?_
  refine Inv.ite ?_ ?_
  · exact h1
  · extract_lets -merge -useContext +onlyGivenNames x2
    have h3 : Inv x2 := by
      unfold x2
      refine Inv.keep buttonRuns_keeps rfl ?_
      exact h1
    try clear_value x2
    refine Inv.ite ?_ ?_
    · refine implausible_inv ?_
      exact h3
    · split
      · refine Inv.ite ?_ ?_
        · refine Inv.keep (wr_snu (m := 66060287) rfl) rfl ?_
          exact h3
        · exact h3
      · refine Inv.ite ?_ ?_
        · extract_lets -merge -useContext +onlyGivenNames x6
          try clear_value x6
          extract_lets -merge -useContext +onlyGivenNames x7
          have h8 : Inv x7 := by
            unfold x7
            refine Inv.keep (wr_snu (m := 66060287) rfl) rfl ?_
            exact h3
          try clear_value x7
          refine Inv.ite ?_ ?_
          · refine Inv.keep cnt_keeps rfl ?_
            exact h8
          · refine Inv.ite ?_ ?_
            · refine restartEdge_inv ?_
              exact h8
            · exact h8
        · refine buttonHold_inv ?_
          exact h3
      · refine Inv.ite ?_ ?_
        · refine Inv.keep (wr_snu (m := 66060287) rfl) rfl ?_
          exact h3
        · exact h3
      · refine buttonIdle_inv ?_
        exact h3

theorem execButtonHeld_inv {b0 s} (hs : Inv s) : InvA (execButtonHeld b0 s) := by
  unfold execButtonHeld
  extract_lets -merge -useContext +onlyGivenNames x0
  have h1 : Inv x0 := by
    unfold x0
    refine begin'_inv ?_
    exact hs
  try clear_value x0
  refine InvA.next ?_
  refine Inv.ite ?_ ?_
  · refine buttonHold_inv ?_
    exact h1
  · exact h1

theorem execButtonTransitTimeout_inv {b0 s} (hs : Inv s) : InvA (execButtonTransitTimeout b0 s) := by
  unfold execButtonTransitTimeout
  extract_lets -merge -useContext +onlyGivenNames x0
  have h1 : Inv x0 := by
    unfold x0
    refine begin'_inv ?_
    exact hs
  try clear_value x0
  refine InvA.next ?_
  refine Inv.ite ?_ ?_
  · refine implausible_inv ?_
    exact h1
  · exact h1

theorem execButtonReleased1s_inv {b0 s} (hs : Inv s) : InvA (execButtonReleased1s b0 s) := by
  unfold execButtonReleased1s
  extract_lets -merge -useContext +onlyGivenNames x0
  have h1 : Inv x0 := by
    unfold x0
    refine begin'_inv ?_
    exact hs
  try clear_value x0
  refine InvA.next ?_
  refine Inv.ite ?_ ?_
  · refine buttonIdle_inv ?_
    exact h1
  · exact h1

end Sys2Proof.Machine
end

