-- ==== Sys2Proof/Laws/KeepsRecorder.lean ====
section
/-! SUPPORT. Frames of the functions of Machine/Recorder.lean: what each leaves alone, said once. The docstrings name the parts of `State` a function may write; the mask marks all others. -/

namespace Sys2Proof.Machine

/-- Writes at most: cand evr. -/
theorem writeLight_keeps {b0 b1 b2 b3 s} : Keeps 65011679 s (writeLight b0 b1 b2 b3 s) := by
  unfold writeLight
  refine Keeps.ite ?_ ?_
  · exact Keeps.refl
  · extract_lets -merge -useContext +onlyGivenNames x0
    try clear_value x0
    extract_lets -merge -useContext +onlyGivenNames x1
    try clear_value x1
    extract_lets -merge -useContext +onlyGivenNames x2
    try clear_value x2
    exact Keeps.app (show Keeps 65011679 s _ from ⟨fun _ => rfl, fun _ => rfl, fun _ => rfl, fun _ => rfl, fun _ => rfl, fun h => noBit h rfl, fun _ => rfl, fun _ => rfl, fun _ => rfl, fun _ => rfl, fun _ => rfl, fun _ => rfl, fun _ => rfl, fun _ => rfl, fun _ => rfl, fun _ => rfl, fun _ => rfl, fun _ => rfl, fun _ => rfl, fun _ => rfl, fun _ => rfl, fun h => noBit h rfl, fun _ => rfl, fun _ => rfl, fun _ => rfl, fun _ => rfl⟩) Keeps.refl

/-- Writes at most: cand evr. -/
theorem reserveSeq_keeps {s} : Keeps 65011679 s (reserveSeq s) := by
  unfold reserveSeq
  refine Keeps.ite ?_ ?_
  · refine Keeps.step writeLight_keeps rfl ?_
    exact Keeps.refl
  · exact Keeps.refl

/-- Writes at most: regs evr. -/
theorem closeOpen_keeps {s} : Keeps 64995327 s (closeOpen s) := by
  unfold closeOpen
  split
  · extract_lets -merge -useContext +onlyGivenNames x1
    try clear_value x1
    extract_lets -merge -useContext +onlyGivenNames x2
    have h3 : Keeps 64995327 s x2 := by
      unfold x2
      refine Keeps.app (wr_evr rfl) ?_
      exact Keeps.refl
    try clear_value x2
    extract_lets -merge -useContext +onlyGivenNames x4
    try clear_value x4
    refine Keeps.ite ?_ ?_
    · refine Keeps.step setRf_keeps rfl ?_
      exact h3
    · exact h3
  · exact Keeps.refl

/-- Writes at most: regs evr. -/
theorem thawState_keeps {s} : Keeps 64995327 s (thawState s) := by
  unfold thawState
  refine Keeps.step setRf_keeps rfl ?_
  refine Keeps.app (wr_evr rfl) ?_
  exact Keeps.refl

/-- Writes at most: regs evr. -/
theorem freezeEnd_keeps {b0 s} : Keeps 64995327 s (freezeEnd b0 s) := by
  unfold freezeEnd
  refine Keeps.step emit_keeps rfl ?_
  refine Keeps.step thawState_keeps rfl ?_
  exact Keeps.refl

/-- Writes at most: regs evr. -/
theorem freezeOverrun_keeps {s} : Keeps 64995327 s (freezeOverrun s) := by
  unfold freezeOverrun
  refine Keeps.ite ?_ ?_
  · extract_lets -merge -useContext +onlyGivenNames x0
    have h1 : Keeps 64995327 s x0 := by
      unfold x0
      refine Keeps.step setRf_keeps rfl ?_
      refine Keeps.step cnt_keeps rfl ?_
      refine Keeps.step thawState_keeps rfl ?_
      exact Keeps.refl
    try clear_value x0
    refine Keeps.step emit_keeps rfl ?_
    exact h1
  · exact Keeps.refl

/-- Writes at most: regs evr. -/
theorem openNew_keeps {b0 s} : Keeps 64995327 s (openNew b0 s) := by
  unfold openNew
  extract_lets -merge -useContext +onlyGivenNames x0
  try clear_value x0
  refine Keeps.step cnt_keeps rfl ?_
  refine Keeps.app (wr_evr rfl) ?_
  exact Keeps.refl

/-- Writes at most: cand regs evr. -/
theorem ingest_keeps {s} : Keeps 64995295 s (ingest s) := by
  unfold ingest
  split
  · exact Keeps.refl
  · extract_lets -merge -useContext +onlyGivenNames x3
    try clear_value x3
    extract_lets -merge -useContext +onlyGivenNames x4
    have h5 : Keeps 64995295 s x4 := by
      unfold x4
      refine Keeps.app (wr_evr rfl) ?_
      exact Keeps.refl
    try clear_value x4
    split
    · refine Keeps.ite ?_ ?_
      · extract_lets -merge -useContext +onlyGivenNames x7
        try clear_value x7
        extract_lets -merge -useContext +onlyGivenNames x8
        have h9 : Keeps 64995295 s x8 := by
          unfold x8
          refine Keeps.step cnt_keeps rfl ?_
          refine Keeps.app (wr_evr rfl) ?_
          exact h5
        try clear_value x8
        refine Keeps.ite ?_ ?_
        · refine Keeps.step closeOpen_keeps rfl ?_
          exact h9
        · exact h9
      · refine Keeps.ite ?_ ?_
        · refine Keeps.step recordLoss_keeps rfl ?_
          exact h5
        · extract_lets -merge -useContext +onlyGivenNames x10
          have h11 : Keeps 64995295 s x10 := by
            unfold x10
            refine Keeps.step reserveSeq_keeps rfl ?_
            exact h5
          try clear_value x10
          refine Keeps.ite ?_ ?_
          · refine Keeps.app (wr_evr rfl) ?_
            exact h11
          · refine Keeps.step openNew_keeps rfl ?_
            refine Keeps.step closeOpen_keeps rfl ?_
            exact h11
    · refine Keeps.ite ?_ ?_
      · refine Keeps.step recordLoss_keeps rfl ?_
        exact h5
      · extract_lets -merge -useContext +onlyGivenNames x13
        have h14 : Keeps 64995295 s x13 := by
          unfold x13
          refine Keeps.step reserveSeq_keeps rfl ?_
          exact h5
        try clear_value x13
        refine Keeps.ite ?_ ?_
        · refine Keeps.app (wr_evr rfl) ?_
          exact h14
        · refine Keeps.step openNew_keeps rfl ?_
          exact h14

/-- Writes at most: sent clk civ cand prg regs bus evr lnk. -/
theorem execRecordIngest_keeps {b0 s} : Answers 48184773 s (execRecordIngest b0 s) := by
  unfold execRecordIngest
  extract_lets -merge -useContext +onlyGivenNames x0
  have h1 : Keeps 48184773 s x0 := by
    unfold x0
    refine Keeps.step begin'_keeps rfl ?_
    exact Keeps.refl
  try clear_value x0
  refine Answers.next ?_
  refine Keeps.ite ?_ ?_
  · refine Keeps.step lostNotice_keeps rfl ?_
    refine Keeps.step freezeOverrun_keeps rfl ?_
    refine Keeps.step ingest_keeps rfl ?_
    exact h1
  · exact h1

/-- Writes at most: regs evr. -/
theorem closeAged_keeps {s} : Keeps 64995327 s (closeAged s) := by
  unfold closeAged
  split
  · refine Keeps.ite ?_ ?_
    · refine Keeps.step freezeOverrun_keeps rfl ?_
      refine Keeps.step closeOpen_keeps rfl ?_
      exact Keeps.refl
    · exact Keeps.refl
  · exact Keeps.refl

/-- Writes at most: sent clk civ cand prg regs bus evr lnk. -/
theorem execOpenRecordClose_keeps {b0 s} : Answers 48184773 s (execOpenRecordClose b0 s) := by
  unfold execOpenRecordClose
  extract_lets -merge -useContext +onlyGivenNames x0
  have h1 : Keeps 48184773 s x0 := by
    unfold x0
    refine Keeps.step begin'_keeps rfl ?_
    exact Keeps.refl
  try clear_value x0
  refine Answers.next ?_
  refine Keeps.ite ?_ ?_
  · refine Keeps.step closeAged_keeps rfl ?_
    exact h1
  · exact h1

/-- Writes at most: evr. -/
theorem modPart_keeps {b0 b1 s} : Keeps 65011711 s (modPart b0 b1 s) := by
  unfold modPart
  refine Keeps.ite ?_ ?_
  · refine Keeps.app (wr_evr rfl) ?_
    exact Keeps.refl
  · refine Keeps.app (wr_evr rfl) ?_
    exact Keeps.refl

/-- Writes at most: cand regs evr. -/
theorem recorderDown_keeps {b0 s} : Keeps 64995295 s (recorderDown b0 s) := by
  unfold recorderDown
  refine Keeps.ite ?_ ?_
  · exact Keeps.refl
  · extract_lets -merge -useContext +onlyGivenNames x0
    have h1 : Keeps 64995295 s x0 := by
      unfold x0
      refine Keeps.ite ?_ ?_
      · refine Keeps.step freezeEnd_keeps rfl ?_
        exact Keeps.refl
      · exact Keeps.refl
    try clear_value x0
    extract_lets -merge -useContext +onlyGivenNames x2
    try clear_value x2
    extract_lets -merge -useContext +onlyGivenNames x3
    have h4 : Keeps 64995295 s x3 := by
      unfold x3
      refine Keeps.step writeLight_keeps rfl ?_
      refine Keeps.app (wr_evr rfl) ?_
      exact h1
    try clear_value x3
    refine Keeps.step emit_keeps rfl ?_
    exact h4

/-- Writes at most: regs evr. -/
theorem retireBlock_keeps {b0 s} : Keeps 64995327 s (retireBlock b0 s) := by
  unfold retireBlock
  extract_lets -merge -useContext +onlyGivenNames x0
  try clear_value x0
  extract_lets -merge -useContext +onlyGivenNames x1
  have h2 : Keeps 64995327 s x1 := by
    unfold x1
    refine Keeps.step modPart_keeps rfl ?_
    exact Keeps.refl
  try clear_value x1
  extract_lets -merge -useContext +onlyGivenNames x3
  have h4 : Keeps 64995327 s x3 := by
    unfold x3
    refine Keeps.step emit_keeps rfl ?_
    refine Keeps.step cnt_keeps rfl ?_
    exact h2
  try clear_value x3
  refine Keeps.ite ?_ ?_
  · refine Keeps.step nvEvent_keeps rfl ?_
    refine Keeps.step setRf_keeps rfl ?_
    exact h4
  · exact h4

/-- Writes at most: regs evr. -/
theorem retireBlocks_keeps {b0 b1 s} : Keeps 64995327 s (retireBlocks b0 b1 s) := by
  induction b1 generalizing b0 s with
  | zero =>
    rw [retireBlocks.eq_1]
    exact Keeps.refl
  | succ z ih =>
    rw [retireBlocks.eq_2]
    refine Keeps.app ih ?_
    refine Keeps.ite ?_ ?_
    · exact Keeps.refl
    · refine Keeps.step retireBlock_keeps rfl ?_
      exact Keeps.refl

/-- Writes at most: regs evr. -/
theorem commitPage_keeps {b0 b1 s} : Keeps 64995327 s (commitPage b0 b1 s) := by
  unfold commitPage
  split
  · exact Keeps.refl
  · extract_lets -merge -useContext +onlyGivenNames x2
    have h3 : Keeps 64995327 s x2 := by
      unfold x2
      refine Keeps.step modPart_keeps rfl ?_
      exact Keeps.refl
    try clear_value x2
    extract_lets -merge -useContext +onlyGivenNames x4
    have h5 : Keeps 64995327 s x4 := by
      unfold x4
      refine Keeps.step addRf_keeps rfl ?_
      exact h3
    try clear_value x4
    refine Keeps.app (wr_evr rfl) ?_
    exact h5

/-- Writes at most: regs evr. -/
theorem commitAll_keeps {b0 s} : Keeps 64995327 s (commitAll b0 s) := by
  induction b0 generalizing s with
  | zero =>
    rw [commitAll.eq_1]
    exact Keeps.refl
  | succ z ih =>
    rw [commitAll.eq_2]
    split
    · exact Keeps.refl
    · refine Keeps.app ih ?_
      refine Keeps.step commitPage_keeps rfl ?_
      exact Keeps.refl

/-- Writes at most: sent clk civ cand prg regs bus evr lnk. -/
theorem execPageCommit_keeps {b0 b1 s} : Answers 48184773 s (execPageCommit b0 b1 s) := by
  unfold execPageCommit
  extract_lets -merge -useContext +onlyGivenNames x0
  have h1 : Keeps 48184773 s x0 := by
    unfold x0
    refine Keeps.step begin'_keeps rfl ?_
    exact Keeps.refl
  try clear_value x0
  refine Answers.next ?_
  split
  · exact h1
  · extract_lets -merge -useContext +onlyGivenNames x5
    try clear_value x5
    extract_lets -merge -useContext +onlyGivenNames x6
    try clear_value x6
    refine Keeps.ite ?_ ?_
    · extract_lets -merge -useContext +onlyGivenNames x7
      have h8 : Keeps 48184773 s x7 := by
        unfold x7
        refine Keeps.step retireBlocks_keeps rfl ?_
        exact h1
      try clear_value x7
      refine Keeps.ite ?_ ?_
      · refine Keeps.step recorderDown_keeps rfl ?_
        exact h8
      · refine Keeps.step lostNotice_keeps rfl ?_
        refine Keeps.step commitPage_keeps rfl ?_
        exact h8
    · exact h1

/-- Writes at most: sent clk civ cand prg regs bus evr lnk. -/
theorem execMount_keeps {b0 b1 s} : Answers 48184773 s (execMount b0 b1 s) := by
  unfold execMount
  extract_lets -merge -useContext +onlyGivenNames x0
  have h1 : Keeps 48184773 s x0 := by
    unfold x0
    refine Keeps.step begin'_keeps rfl ?_
    exact Keeps.refl
  try clear_value x0
  refine Answers.next ?_
  refine Keeps.ite ?_ ?_
  · refine Keeps.ite ?_ ?_
    · extract_lets -merge -useContext +onlyGivenNames x2
      try clear_value x2
      refine Keeps.app (wr_evr rfl) ?_
      exact h1
    · refine Keeps.step recorderDown_keeps rfl ?_
      exact h1
  · exact h1

/-- Writes at most: sent clk civ cand prg regs bus evr lnk. -/
theorem execStall_keeps {b0 s} : Answers 48184773 s (execStall b0 s) := by
  unfold execStall
  extract_lets -merge -useContext +onlyGivenNames x0
  have h1 : Keeps 48184773 s x0 := by
    unfold x0
    refine Keeps.step begin'_keeps rfl ?_
    exact Keeps.refl
  try clear_value x0
  refine Answers.next ?_
  refine Keeps.ite ?_ ?_
  · refine Keeps.step recorderDown_keeps rfl ?_
    exact h1
  · exact h1

/-- Writes at most: sent clk civ cand prg regs bus evr lnk. -/
theorem execControllerSelfCheck_keeps {b0 b1 s} : Answers 48184773 s (execControllerSelfCheck b0 b1 s) := by
  unfold execControllerSelfCheck
  extract_lets -merge -useContext +onlyGivenNames x0
  have h1 : Keeps 48184773 s x0 := by
    unfold x0
    refine Keeps.step begin'_keeps rfl ?_
    exact Keeps.refl
  try clear_value x0
  refine Answers.next ?_
  refine Keeps.ite ?_ ?_
  · refine Keeps.step recorderDown_keeps rfl ?_
    exact h1
  · exact h1

/-- Writes at most: regs. -/
theorem evrRes_keeps {b0 s} : Keeps 67092479 s (evrRes b0 s) := by
  unfold evrRes
  refine Keeps.step setRf_keeps rfl ?_
  exact Keeps.refl

/-- Writes at most: regs evr. -/
theorem evrFreeze_keeps {s} : Keeps 64995327 s (evrFreeze s) := by
  unfold evrFreeze
  split
  · refine Keeps.step evrRes_keeps rfl ?_
    exact Keeps.refl
  · refine Keeps.step evrRes_keeps rfl ?_
    exact Keeps.refl
  · refine Keeps.step evrRes_keeps rfl ?_
    exact Keeps.refl
  · refine Keeps.ite ?_ ?_
    · refine Keeps.step evrRes_keeps rfl ?_
      exact Keeps.refl
    · refine Keeps.ite ?_ ?_
      · refine Keeps.step evrRes_keeps rfl ?_
        exact Keeps.refl
      · extract_lets -merge -useContext +onlyGivenNames x4
        try clear_value x4
        extract_lets -merge -useContext +onlyGivenNames x5
        have h6 : Keeps 64995327 s x5 := by
          unfold x5
          refine Keeps.step setRv_keeps rfl ?_
          refine Keeps.step setRf_keeps rfl ?_
          refine Keeps.step evrRes_keeps rfl ?_
          refine Keeps.app (wr_evr rfl) ?_
          exact Keeps.refl
        try clear_value x5
        refine Keeps.step emit_keeps rfl ?_
        exact h6

/-- Writes at most: regs evr. -/
theorem evrThaw_keeps {s} : Keeps 64995327 s (evrThaw s) := by
  unfold evrThaw
  split
  · refine Keeps.step freezeEnd_keeps rfl ?_
    refine Keeps.step evrRes_keeps rfl ?_
    exact Keeps.refl
  · refine Keeps.step evrRes_keeps rfl ?_
    exact Keeps.refl
  · refine Keeps.step evrRes_keeps rfl ?_
    exact Keeps.refl

/-- Writes at most: evr. -/
theorem clearPart_keeps {b0 b1 s} : Keeps 65011711 s (clearPart b0 b1 s) := by
  unfold clearPart
  refine Keeps.step modPart_keeps rfl ?_
  exact Keeps.refl

/-- Writes at most: regs evr. -/
theorem stageClear_keeps {b0 s} : Keeps 64995327 s (stageClear b0 s) := by
  unfold stageClear
  refine Keeps.step cnt_keeps rfl ?_
  refine Keeps.app (wr_evr rfl) ?_
  exact Keeps.refl

/-- Writes at most: regs evr. -/
theorem endRead_keeps {b0 s} : Keeps 64995327 s (endRead b0 s) := by
  unfold endRead
  split
  · refine Keeps.ite ?_ ?_
    · refine Keeps.step setRf_keeps rfl ?_
      refine Keeps.step setRf_keeps rfl ?_
      refine Keeps.app (wr_evr rfl) ?_
      exact Keeps.refl
    · exact Keeps.refl
  · exact Keeps.refl

/-- Writes at most: cand prg regs evr. -/
theorem evrClear_keeps {b0 s} : Keeps 64994783 s (evrClear b0 s) := by
  unfold evrClear
  refine Keeps.ite ?_ ?_
  · refine Keeps.step evrRes_keeps rfl ?_
    exact Keeps.refl
  · refine Keeps.ite ?_ ?_
    · refine Keeps.step evrRes_keeps rfl ?_
      exact Keeps.refl
    · refine Keeps.ite ?_ ?_
      · refine Keeps.step evrRes_keeps rfl ?_
        exact Keeps.refl
      · refine Keeps.ite ?_ ?_
        · refine Keeps.step evrRes_keeps rfl ?_
          exact Keeps.refl
        · split
          · refine Keeps.step evrRes_keeps rfl ?_
            exact Keeps.refl
          · refine Keeps.ite ?_ ?_
            · refine Keeps.step evrRes_keeps rfl ?_
              exact Keeps.refl
            · extract_lets -merge -useContext +onlyGivenNames x2
              have h3 : Keeps 64994783 s x2 := by
                unfold x2
                refine Keeps.step consumeToken_keeps rfl ?_
                refine Keeps.step closeOpen_keeps rfl ?_
                exact Keeps.refl
              try clear_value x2
              extract_lets -merge -useContext +onlyGivenNames x4
              have h5 : Keeps 64994783 s x4 := by
                unfold x4
                refine Keeps.step commitAll_keeps rfl ?_
                exact h3
              try clear_value x4
              extract_lets -merge -useContext +onlyGivenNames x6
              try clear_value x6
              extract_lets -merge -useContext +onlyGivenNames x7
              try clear_value x7
              extract_lets -merge -useContext +onlyGivenNames x8
              try clear_value x8
              extract_lets -merge -useContext +onlyGivenNames x9
              have h10 : Keeps 64994783 s x9 := by
                unfold x9
                refine Keeps.step reserveSeq_keeps rfl ?_
                exact h5
              try clear_value x9
              extract_lets -merge -useContext +onlyGivenNames x11
              try clear_value x11
              extract_lets -merge -useContext +onlyGivenNames x12
              try clear_value x12
              extract_lets -merge -useContext +onlyGivenNames x13
              have h14 : Keeps 64994783 s x13 := by
                unfold x13
                refine Keeps.step stageClear_keeps rfl ?_
                exact h10
              try clear_value x13
              extract_lets -merge -useContext +onlyGivenNames x15
              have h16 : Keeps 64994783 s x15 := by
                unfold x15
                refine Keeps.step commitPage_keeps rfl ?_
                exact h14
              try clear_value x15
              extract_lets -merge -useContext +onlyGivenNames x17
              have h18 : Keeps 64994783 s x17 := by
                unfold x17
                refine Keeps.step writeLight_keeps rfl ?_
                exact h16
              try clear_value x17
              extract_lets -merge -useContext +onlyGivenNames x19
              have h20 : Keeps 64994783 s x19 := by
                unfold x19
                refine Keeps.ite ?_ ?_
                · refine Keeps.step clearPart_keeps rfl ?_
                  exact h18
                · exact h18
              try clear_value x19
              extract_lets -merge -useContext +onlyGivenNames x21
              have h22 : Keeps 64994783 s x21 := by
                unfold x21
                refine Keeps.ite ?_ ?_
                · refine Keeps.step clearPart_keeps rfl ?_
                  exact h20
                · exact h20
              try clear_value x21
              refine Keeps.step evrRes_keeps rfl ?_
              extract_lets -merge -useContext +onlyGivenNames x23
              have h24 : Keeps 64994783 s x23 := by
                unfold x23
                refine Keeps.step endRead_keeps rfl ?_
                exact h22
              try clear_value x23
              refine Keeps.app (wr_evr rfl) ?_
              exact h24

/-- Writes at most: regs rings evr. -/
theorem deliver_keeps {b0 b1 b2 b3 b4 b5 b6 s} : Keeps 64864255 s (deliver b0 b1 b2 b3 b4 b5 b6 s) := by
  induction b4 generalizing b5 b6 s with
  | nil =>
    rw [deliver.eq_1]
    refine Keeps.step setRf_keeps rfl ?_
    refine Keeps.app (wr_evr rfl) ?_
    exact Keeps.refl
  | cons z zs ih =>
    cases b5 with
    | zero =>
      simp only [deliver]
      refine Keeps.step setRf_keeps rfl ?_
      refine Keeps.app (wr_evr rfl) ?_
      exact Keeps.refl
    | succ n =>
      rw [deliver.eq_3]
      refine Keeps.ite ?_ ?_
      · refine Keeps.app ih ?_
        refine Keeps.step cnt_keeps rfl ?_
        refine Keeps.step setRf_keeps rfl ?_
        exact Keeps.refl
      · extract_lets -merge -useContext +onlyGivenNames x0
        try clear_value x0
        refine Keeps.ite ?_ ?_
        · refine Keeps.app (wr_evr rfl) ?_
          exact Keeps.refl
        · extract_lets -merge -useContext +onlyGivenNames x1
          have h2 : Keeps 64864255 s x1 := by
            unfold x1
            refine Keeps.step ringPush_keeps rfl ?_
            exact Keeps.refl
          try clear_value x1
          extract_lets -merge -useContext +onlyGivenNames x3
          have h4 : Keeps 64864255 s x3 := by
            unfold x3
            refine Keeps.ite ?_ ?_
            · refine Keeps.step setRv_keeps rfl ?_
              exact h2
            · exact h2
          try clear_value x3
          extract_lets -merge -useContext +onlyGivenNames x5
          have h6 : Keeps 64864255 s x5 := by
            unfold x5
            refine Keeps.step addRf_keeps rfl ?_
            refine Keeps.ite ?_ ?_
            · refine Keeps.step setRf_keeps rfl ?_
              exact h4
            · exact h4
          try clear_value x5
          refine Keeps.app ih ?_
          exact h6

/-- Writes at most: regs rings evr. -/
theorem evrRead_keeps {b0 b1 b2 s} : Keeps 64864255 s (evrRead b0 b1 b2 s) := by
  unfold evrRead
  extract_lets -merge -useContext +onlyGivenNames x0
  try clear_value x0
  refine Keeps.ite ?_ ?_
  · refine Keeps.step evrRes_keeps rfl ?_
    exact Keeps.refl
  · refine Keeps.ite ?_ ?_
    · refine Keeps.step evrRes_keeps rfl ?_
      exact Keeps.refl
    · refine Keeps.ite ?_ ?_
      · refine Keeps.step evrRes_keeps rfl ?_
        exact Keeps.refl
      · refine Keeps.ite ?_ ?_
        · refine Keeps.step evrRes_keeps rfl ?_
          exact Keeps.refl
        · extract_lets -merge -useContext +onlyGivenNames x1
          try clear_value x1
          extract_lets -merge -useContext +onlyGivenNames x2
          try clear_value x2
          extract_lets -merge -useContext +onlyGivenNames x3
          try clear_value x3
          extract_lets -merge -useContext +onlyGivenNames x4
          have h5 : Keeps 64864255 s x4 := by
            unfold x4
            refine Keeps.step setRv_keeps rfl ?_
            refine Keeps.step setRv_keeps rfl ?_
            refine Keeps.step evrRes_keeps rfl ?_
            exact Keeps.refl
          try clear_value x4
          extract_lets -merge -useContext +onlyGivenNames x6
          try clear_value x6
          extract_lets -merge -useContext +onlyGivenNames x7
          try clear_value x7
          extract_lets -merge -useContext +onlyGivenNames x8
          try clear_value x8
          extract_lets -merge -useContext +onlyGivenNames x9
          have h10 : Keeps 64864255 s x9 := by
            unfold x9
            refine Keeps.ite ?_ ?_
            · refine Keeps.step setRf_keeps rfl ?_
              exact h5
            · split
              · refine Keeps.ite ?_ ?_
                · refine Keeps.step setRf_keeps rfl ?_
                  exact h5
                · exact h5
              · exact h5
          try clear_value x9
          refine Keeps.ite ?_ ?_
          · refine Keeps.step setRf_keeps rfl ?_
            refine Keeps.step setRf_keeps rfl ?_
            exact h10
          · refine Keeps.step deliver_keeps rfl ?_
            exact h10

/-- Writes at most: regs rings evr. -/
theorem readContinue_keeps {s} : Keeps 64864255 s (readContinue s) := by
  unfold readContinue
  split
  · extract_lets -merge -useContext +onlyGivenNames x1
    try clear_value x1
    extract_lets -merge -useContext +onlyGivenNames x2
    have h3 : Keeps 64864255 s x2 := by
      unfold x2
      refine Keeps.app (wr_evr rfl) ?_
      exact Keeps.refl
    try clear_value x2
    refine Keeps.step deliver_keeps rfl ?_
    exact h3
  · exact Keeps.refl

/-- Writes at most: regs evr. -/
theorem evrReadStop_keeps {s} : Keeps 64995327 s (evrReadStop s) := by
  unfold evrReadStop
  refine Keeps.step evrRes_keeps rfl ?_
  refine Keeps.app (wr_evr rfl) ?_
  exact Keeps.refl

/-- Writes at most: sent clk civ cand pwr tri prg frc vm xch regs bus rings fio snu evr upd lnk. -/
theorem execFreeze_keeps {b0 s} : Answers 38078725 s (execFreeze b0 s) := by
  unfold execFreeze
  refine Answers.next ?_
  refine Keeps.app (blockCommand_keeps ?_ rfl) ?_
  · intro s
    refine Keeps.step evrFreeze_keeps rfl ?_
    exact Keeps.refl
  · refine Keeps.step begin'_keeps rfl ?_
    exact Keeps.refl

/-- Writes at most: sent clk civ cand pwr tri prg frc vm xch regs bus rings fio snu evr upd lnk. -/
theorem execThaw_keeps {b0 s} : Answers 38078725 s (execThaw b0 s) := by
  unfold execThaw
  refine Answers.next ?_
  refine Keeps.app (blockCommand_keeps ?_ rfl) ?_
  · intro s
    refine Keeps.step evrThaw_keeps rfl ?_
    exact Keeps.refl
  · refine Keeps.step begin'_keeps rfl ?_
    exact Keeps.refl

/-- Writes at most: sent clk civ cand prg regs bus evr lnk. -/
theorem execFreezeTimeout_keeps {b0 s} : Answers 48184773 s (execFreezeTimeout b0 s) := by
  unfold execFreezeTimeout
  extract_lets -merge -useContext +onlyGivenNames x0
  have h1 : Keeps 48184773 s x0 := by
    unfold x0
    refine Keeps.step begin'_keeps rfl ?_
    exact Keeps.refl
  try clear_value x0
  refine Answers.next ?_
  refine Keeps.ite ?_ ?_
  · refine Keeps.step freezeEnd_keeps rfl ?_
    exact h1
  · exact h1

/-- Writes at most: sent clk civ cand pwr tri prg frc vm xch regs bus rings fio snu evr upd lnk. -/
theorem execRecorderClear_keeps {b0 b1 s} : Answers 38078725 s (execRecorderClear b0 b1 s) := by
  unfold execRecorderClear
  refine Answers.next ?_
  refine Keeps.app (blockCommand_keeps ?_ rfl) ?_
  · intro s
    refine Keeps.step evrClear_keeps rfl ?_
    exact Keeps.refl
  · refine Keeps.step begin'_keeps rfl ?_
    exact Keeps.refl

/-- Writes at most: sent clk civ cand prg bus evr lnk. -/
theorem execClearingDone_keeps {b0 s} : Answers 48201157 s (execClearingDone b0 s) := by
  unfold execClearingDone
  extract_lets -merge -useContext +onlyGivenNames x0
  have h1 : Keeps 48201157 s x0 := by
    unfold x0
    refine Keeps.step begin'_keeps rfl ?_
    exact Keeps.refl
  try clear_value x0
  refine Answers.next ?_
  refine Keeps.ite ?_ ?_
  · refine Keeps.app (wr_evr rfl) ?_
    exact h1
  · exact h1

/-- Writes at most: sent clk civ cand pwr tri prg frc vm xch regs bus rings fio snu evr upd lnk. -/
theorem execRead_keeps {b0 b1 b2 b3 s} : Answers 38078725 s (execRead b0 b1 b2 b3 s) := by
  unfold execRead
  refine Answers.next ?_
  refine Keeps.app (blockCommand_keeps ?_ rfl) ?_
  · intro s
    refine Keeps.step evrRead_keeps rfl ?_
    exact Keeps.refl
  · refine Keeps.step begin'_keeps rfl ?_
    exact Keeps.refl

/-- Writes at most: sent clk civ cand pwr tri prg frc vm xch regs bus rings fio snu evr upd lnk. -/
theorem execReadStop_keeps {b0 s} : Answers 38078725 s (execReadStop b0 s) := by
  unfold execReadStop
  refine Answers.next ?_
  refine Keeps.app (blockCommand_keeps ?_ rfl) ?_
  · intro s
    refine Keeps.step evrReadStop_keeps rfl ?_
    exact Keeps.refl
  · refine Keeps.step begin'_keeps rfl ?_
    exact Keeps.refl

/-- Writes at most: sta. -/
theorem statMax_keeps {b0 b1 s} : Keeps 62914559 s (statMax b0 b1 s) := by
  unfold statMax
  extract_lets -merge -useContext +onlyGivenNames x0
  try clear_value x0
  refine Keeps.app (wr_sta rfl) ?_
  exact Keeps.refl

/-- Writes at most: cand sta. -/
theorem writeStat_keeps {s} : Keeps 62914527 s (writeStat s) := by
  unfold writeStat
  refine Keeps.ite ?_ ?_
  · exact Keeps.refl
  · extract_lets -merge -useContext +onlyGivenNames x0
    try clear_value x0
    extract_lets -merge -useContext +onlyGivenNames x1
    try clear_value x1
    extract_lets -merge -useContext +onlyGivenNames x2
    have h3 : Keeps 62914527 s x2 := by
      unfold x2
      refine Keeps.step stat_keeps rfl ?_
      exact Keeps.refl
    try clear_value x2
    extract_lets -merge -useContext +onlyGivenNames x4
    try clear_value x4
    extract_lets -merge -useContext +onlyGivenNames x5
    have h6 : Keeps 62914527 s x5 := by
      unfold x5
      refine Keeps.ite ?_ ?_
      · refine Keeps.app (wr_sta rfl) ?_
        exact h3
      · exact Keeps.refl
    try clear_value x5
    extract_lets -merge -useContext +onlyGivenNames x7
    try clear_value x7
    extract_lets -merge -useContext +onlyGivenNames x8
    try clear_value x8
    extract_lets -merge -useContext +onlyGivenNames x9
    have h10 : Keeps 62914527 s x9 := by
      unfold x9
      refine Keeps.step stat_keeps rfl ?_
      refine Keeps.app (wr_sta rfl) ?_
      exact h6
    try clear_value x9
    extract_lets -merge -useContext +onlyGivenNames x11
    try clear_value x11
    extract_lets -merge -useContext +onlyGivenNames x12
    try clear_value x12
    extract_lets -merge -useContext +onlyGivenNames x13
    try clear_value x13
    extract_lets -merge -useContext +onlyGivenNames x14
    have h15 : Keeps 62914527 s x14 := by
      unfold x14
      refine Keeps.app (wr_sta rfl) ?_
      exact h10
    try clear_value x14
    split
    · exact Keeps.app (show Keeps 62914527 x14 _ from ⟨fun _ => rfl, fun _ => rfl, fun _ => rfl, fun _ => rfl, fun _ => rfl, fun h => noBit h rfl, fun _ => rfl, fun _ => rfl, fun _ => rfl, fun _ => rfl, fun _ => rfl, fun _ => rfl, fun _ => rfl, fun _ => rfl, fun _ => rfl, fun _ => rfl, fun _ => rfl, fun _ => rfl, fun _ => rfl, fun _ => rfl, fun _ => rfl, fun _ => rfl, fun h => noBit h rfl, fun _ => rfl, fun _ => rfl, fun _ => rfl⟩) h15
    · exact Keeps.app (show Keeps 62914527 x14 _ from ⟨fun _ => rfl, fun _ => rfl, fun _ => rfl, fun _ => rfl, fun _ => rfl, fun h => noBit h rfl, fun _ => rfl, fun _ => rfl, fun _ => rfl, fun _ => rfl, fun _ => rfl, fun _ => rfl, fun _ => rfl, fun _ => rfl, fun _ => rfl, fun _ => rfl, fun _ => rfl, fun _ => rfl, fun _ => rfl, fun _ => rfl, fun _ => rfl, fun _ => rfl, fun h => noBit h rfl, fun _ => rfl, fun _ => rfl, fun _ => rfl⟩) h15

/-- Writes at most: sent clk civ cand prg bus sta lnk. -/
theorem execStatUpdate_keeps {b0 s} : Answers 46104005 s (execStatUpdate b0 s) := by
  unfold execStatUpdate
  extract_lets -merge -useContext +onlyGivenNames x0
  have h1 : Keeps 46104005 s x0 := by
    unfold x0
    refine Keeps.step begin'_keeps rfl ?_
    exact Keeps.refl
  try clear_value x0
  refine Answers.next ?_
  refine Keeps.ite ?_ ?_
  · refine Keeps.step writeStat_keeps rfl ?_
    exact h1
  · exact h1

/-- Writes at most: sent clk civ cand prg bus sta lnk. -/
theorem execVinSag_keeps {b0 b1 b2 s} : Answers 46104005 s (execVinSag b0 b1 b2 s) := by
  unfold execVinSag
  extract_lets -merge -useContext +onlyGivenNames x0
  have h1 : Keeps 46104005 s x0 := by
    unfold x0
    refine Keeps.step begin'_keeps rfl ?_
    exact Keeps.refl
  try clear_value x0
  refine Answers.next ?_
  refine Keeps.ite ?_ ?_
  · refine Keeps.step stat_keeps rfl ?_
    exact h1
  · exact h1

/-- Writes at most: sent clk civ cand prg bus sta lnk. -/
theorem execTemperatureSample_keeps {b0 b1 s} : Answers 46104005 s (execTemperatureSample b0 b1 s) := by
  unfold execTemperatureSample
  extract_lets -merge -useContext +onlyGivenNames x0
  have h1 : Keeps 46104005 s x0 := by
    unfold x0
    refine Keeps.step begin'_keeps rfl ?_
    exact Keeps.refl
  try clear_value x0
  extract_lets -merge -useContext +onlyGivenNames x2
  try clear_value x2
  refine Answers.next ?_
  refine Keeps.ite ?_ ?_
  · refine Keeps.step statMax_keeps rfl ?_
    refine Keeps.step stat_keeps rfl ?_
    exact h1
  · exact h1

end Sys2Proof.Machine
end

