-- ==== Sys2Proof/Laws/InvRecorder.lean ====
section
/-! SUPPORT. The functions of Machine/Recorder.lean keep the invariant `Inv`. -/

namespace Sys2Proof.Machine

theorem writeLight_inv {b0 b1 b2 b3 s} (hs : Inv s) : Inv (writeLight b0 b1 b2 b3 s) := by
  unfold writeLight
  refine Inv.ite ?_ ?_
  · exact hs
  · extract_lets -merge -useContext +onlyGivenNames x0
    try clear_value x0
    extract_lets -merge -useContext +onlyGivenNames x1
    try clear_value x1
    extract_lets -merge -useContext +onlyGivenNames x2
    try clear_value x2
    have h := hs
    refine ⟨h.mem, ?_, ?_, h.frc, h.lat⟩
    · show (List.drop _ _).length ≤ 64; rw [List.length_drop]; omega
    · exact h.evr

theorem reserveSeq_inv {s} (hs : Inv s) : Inv (reserveSeq s) := by
  unfold reserveSeq
  refine Inv.ite ?_ ?_
  · refine writeLight_inv ?_
    exact hs
  · exact hs

theorem closeOpen_inv {s} (hs : Inv s) : Inv (closeOpen s) := by
  unfold closeOpen
  split
  · extract_lets -merge -useContext +onlyGivenNames x1
    have h2 : x1 = s.evr := rfl
    replace h2 : x1.queue.length ≤ 1024 := by
      rw [h2]
      exact hs.evr
    try clear_value x1
    extract_lets -merge -useContext +onlyGivenNames x3
    have h4 : Inv x3 := by
      unfold x3
      refine Inv.set_evr (fun h => ?_) ?_
      · assumption
      · exact hs
    try clear_value x3
    extract_lets -merge -useContext +onlyGivenNames x5
    try clear_value x5
    refine Inv.ite ?_ ?_
    · refine Inv.keep setRf_keeps rfl ?_
      exact h4
    · exact h4
  · exact hs

theorem thawState_inv {s} (hs : Inv s) : Inv (thawState s) := by
  unfold thawState
  refine Inv.keep setRf_keeps rfl ?_
  refine Inv.set_evr (fun h => ?_) ?_
  · exact h.evr
  · exact hs

theorem freezeEnd_inv {b0 s} (hs : Inv s) : Inv (freezeEnd b0 s) := by
  unfold freezeEnd
  refine emit_inv ?_
  refine thawState_inv ?_
  exact hs

theorem freezeOverrun_inv {s} (hs : Inv s) : Inv (freezeOverrun s) := by
  unfold freezeOverrun
  refine Inv.ite ?_ ?_
  · extract_lets -merge -useContext +onlyGivenNames x0
    have h1 : Inv x0 := by
      unfold x0
      refine Inv.keep setRf_keeps rfl ?_
      refine Inv.keep cnt_keeps rfl ?_
      refine thawState_inv ?_
      exact hs
    try clear_value x0
    refine emit_inv ?_
    exact h1
  · exact hs

theorem openNew_inv {b0 s} (hs : Inv s) : Inv (openNew b0 s) := by
  unfold openNew
  extract_lets -merge -useContext +onlyGivenNames x0
  try clear_value x0
  refine Inv.keep cnt_keeps rfl ?_
  refine Inv.set_evr (fun h => ?_) ?_
  · exact h.evr
  · exact hs

theorem ingest_inv {s} (hs : Inv s) : Inv (ingest s) := by
  unfold ingest
  split
  · exact hs
  · extract_lets -merge -useContext +onlyGivenNames x3
    have h4 : x3 = s.evr := rfl
    replace h4 : x3.queue.length ≤ 1024 := by
      rw [h4]
      exact hs.evr
    try clear_value x3
    extract_lets -merge -useContext +onlyGivenNames x5
    have h6 : Inv x5 := by
      unfold x5
      refine Inv.set_evr (fun h => ?_) ?_
      · have q := hs.evr; rw [‹s.evr.queue = _ :: _›] at q; exact Nat.le_of_succ_le q
      · exact hs
    try clear_value x5
    split
    · refine Inv.ite ?_ ?_
      · extract_lets -merge -useContext +onlyGivenNames x8
        have h9 : x8 = x5.evr := rfl
        replace h9 : x8.queue.length ≤ 1024 := by
          rw [h9]
          exact h6.evr
        try clear_value x8
        extract_lets -merge -useContext +onlyGivenNames x10
        have h11 : Inv x10 := by
          unfold x10
          refine Inv.keep cnt_keeps rfl ?_
          refine Inv.set_evr (fun h => ?_) ?_
          · assumption
          · exact h6
        try clear_value x10
        refine Inv.ite ?_ ?_
        · refine closeOpen_inv ?_
          exact h11
        · exact h11
      · refine Inv.ite ?_ ?_
        · refine recordLoss_inv ?_
          exact h6
        · extract_lets -merge -useContext +onlyGivenNames x12
          have h13 : Inv x12 := by
            unfold x12
            refine reserveSeq_inv ?_
            exact h6
          try clear_value x12
          refine Inv.ite ?_ ?_
          · refine Inv.set_evr (fun h => ?_) ?_
            · have q := hs.evr; rw [‹s.evr.queue = _ :: _›] at q; exact q
            · exact h13
          · refine openNew_inv ?_
            refine closeOpen_inv ?_
            exact h13
    · refine Inv.ite ?_ ?_
      · refine recordLoss_inv ?_
        exact h6
      · extract_lets -merge -useContext +onlyGivenNames x15
        have h16 : Inv x15 := by
          unfold x15
          refine reserveSeq_inv ?_
          exact h6
        try clear_value x15
        refine Inv.ite ?_ ?_
        · refine Inv.set_evr (fun h => ?_) ?_
          · have q := hs.evr; rw [‹s.evr.queue = _ :: _›] at q; exact q
          · exact h16
        · refine openNew_inv ?_
          exact h16

theorem execRecordIngest_inv {b0 s} (hs : Inv s) : InvA (execRecordIngest b0 s) := by
  unfold execRecordIngest
  extract_lets -merge -useContext +onlyGivenNames x0
  have h1 : Inv x0 := by
    unfold x0
    refine begin'_inv ?_
    exact hs
  try clear_value x0
  refine InvA.next ?_
  refine Inv.ite ?_ ?_
  · refine lostNotice_inv ?_
    refine freezeOverrun_inv ?_
    refine ingest_inv ?_
    exact h1
  · exact h1

theorem closeAged_inv {s} (hs : Inv s) : Inv (closeAged s) := by
  unfold closeAged
  split
  · refine Inv.ite ?_ ?_
    · refine freezeOverrun_inv ?_
      refine closeOpen_inv ?_
      exact hs
    · exact hs
  · exact hs

theorem execOpenRecordClose_inv {b0 s} (hs : Inv s) : InvA (execOpenRecordClose b0 s) := by
  unfold execOpenRecordClose
  extract_lets -merge -useContext +onlyGivenNames x0
  have h1 : Inv x0 := by
    unfold x0
    refine begin'_inv ?_
    exact hs
  try clear_value x0
  refine InvA.next ?_
  refine Inv.ite ?_ ?_
  · refine closeAged_inv ?_
    exact h1
  · exact h1

theorem modPart_inv {b0 b1 s} (hs : Inv s) : Inv (modPart b0 b1 s) := by
  unfold modPart
  refine Inv.ite ?_ ?_
  · refine Inv.set_evr (fun h => ?_) ?_
    · exact h.evr
    · exact hs
  · refine Inv.set_evr (fun h => ?_) ?_
    · exact h.evr
    · exact hs

theorem recorderDown_inv {b0 s} (hs : Inv s) : Inv (recorderDown b0 s) := by
  unfold recorderDown
  refine Inv.ite ?_ ?_
  · exact hs
  · extract_lets -merge -useContext +onlyGivenNames x0
    have h1 : Inv x0 := by
      unfold x0
      refine Inv.ite ?_ ?_
      · refine freezeEnd_inv ?_
        exact hs
      · exact hs
    try clear_value x0
    extract_lets -merge -useContext +onlyGivenNames x2
    have h3 : x2 = x0.evr := rfl
    replace h3 : x2.queue.length ≤ 1024 := by
      rw [h3]
      exact h1.evr
    try clear_value x2
    extract_lets -merge -useContext +onlyGivenNames x4
    have h5 : Inv x4 := by
      unfold x4
      refine writeLight_inv ?_
      refine Inv.set_evr (fun h => ?_) ?_
      · assumption
      · exact h1
    try clear_value x4
    refine emit_inv ?_
    exact h5

theorem retireBlock_inv {b0 s} (hs : Inv s) : Inv (retireBlock b0 s) := by
  unfold retireBlock
  extract_lets -merge -useContext +onlyGivenNames x0
  try clear_value x0
  extract_lets -merge -useContext +onlyGivenNames x1
  have h2 : Inv x1 := by
    unfold x1
    refine modPart_inv ?_
    exact hs
  try clear_value x1
  extract_lets -merge -useContext +onlyGivenNames x3
  have h4 : Inv x3 := by
    unfold x3
    refine emit_inv ?_
    refine Inv.keep cnt_keeps rfl ?_
    exact h2
  try clear_value x3
  refine Inv.ite ?_ ?_
  · refine nvEvent_inv ?_
    refine Inv.keep setRf_keeps rfl ?_
    exact h4
  · exact h4

theorem retireBlocks_inv {b0 b1 s} (hs : Inv s) : Inv (retireBlocks b0 b1 s) := by
  induction b1 generalizing b0 s with
  | zero =>
    rw [retireBlocks.eq_1]
    exact hs
  | succ z ih =>
    rw [retireBlocks.eq_2]
    refine ih ?_
    refine Inv.ite ?_ ?_
    · exact hs
    · refine retireBlock_inv ?_
      exact hs

theorem commitPage_inv {b0 b1 s} (hs : Inv s) : Inv (commitPage b0 b1 s) := by
  unfold commitPage
  split
  · exact hs
  · extract_lets -merge -useContext +onlyGivenNames x2
    have h3 : Inv x2 := by
      unfold x2
      refine modPart_inv ?_
      exact hs
    try clear_value x2
    extract_lets -merge -useContext +onlyGivenNames x4
    have h5 : Inv x4 := by
      unfold x4
      refine Inv.keep addRf_keeps rfl ?_
      exact h3
    try clear_value x4
    refine Inv.set_evr (fun h => ?_) ?_
    · exact h.evr
    · exact h5

theorem commitAll_inv {b0 s} (hs : Inv s) : Inv (commitAll b0 s) := by
  induction b0 generalizing s with
  | zero =>
    rw [commitAll.eq_1]
    exact hs
  | succ z ih =>
    rw [commitAll.eq_2]
    split
    · exact hs
    · refine ih ?_
      refine commitPage_inv ?_
      exact hs

theorem execPageCommit_inv {b0 b1 s} (hs : Inv s) : InvA (execPageCommit b0 b1 s) := by
  unfold execPageCommit
  extract_lets -merge -useContext +onlyGivenNames x0
  have h1 : Inv x0 := by
    unfold x0
    refine begin'_inv ?_
    exact hs
  try clear_value x0
  refine InvA.next ?_
  split
  · exact h1
  · extract_lets -merge -useContext +onlyGivenNames x5
    try clear_value x5
    extract_lets -merge -useContext +onlyGivenNames x6
    try clear_value x6
    refine Inv.ite ?_ ?_
    · extract_lets -merge -useContext +onlyGivenNames x7
      have h8 : Inv x7 := by
        unfold x7
        refine retireBlocks_inv ?_
        exact h1
      try clear_value x7
      refine Inv.ite ?_ ?_
      · refine recorderDown_inv ?_
        exact h8
      · refine lostNotice_inv ?_
        refine commitPage_inv ?_
        exact h8
    · exact h1

theorem execMount_inv {b0 b1 s} (hs : Inv s) : InvA (execMount b0 b1 s) := by
  unfold execMount
  extract_lets -merge -useContext +onlyGivenNames x0
  have h1 : Inv x0 := by
    unfold x0
    refine begin'_inv ?_
    exact hs
  try clear_value x0
  refine InvA.next ?_
  refine Inv.ite ?_ ?_
  · refine Inv.ite ?_ ?_
    · extract_lets -merge -useContext +onlyGivenNames x2
      try clear_value x2
      refine Inv.set_evr (fun h => ?_) ?_
      · exact h.evr
      · exact h1
    · refine recorderDown_inv ?_
      exact h1
  · exact h1

theorem execStall_inv {b0 s} (hs : Inv s) : InvA (execStall b0 s) := by
  unfold execStall
  extract_lets -merge -useContext +onlyGivenNames x0
  have h1 : Inv x0 := by
    unfold x0
    refine begin'_inv ?_
    exact hs
  try clear_value x0
  refine InvA.next ?_
  refine Inv.ite ?_ ?_
  · refine recorderDown_inv ?_
    exact h1
  · exact h1

theorem execControllerSelfCheck_inv {b0 b1 s} (hs : Inv s) : InvA (execControllerSelfCheck b0 b1 s) := by
  unfold execControllerSelfCheck
  extract_lets -merge -useContext +onlyGivenNames x0
  have h1 : Inv x0 := by
    unfold x0
    refine begin'_inv ?_
    exact hs
  try clear_value x0
  refine InvA.next ?_
  refine Inv.ite ?_ ?_
  · refine recorderDown_inv ?_
    exact h1
  · exact h1

theorem evrFreeze_inv {s} (hs : Inv s) : Inv (evrFreeze s) := by
  unfold evrFreeze
  split
  · refine Inv.keep evrRes_keeps rfl ?_
    exact hs
  · refine Inv.keep evrRes_keeps rfl ?_
    exact hs
  · refine Inv.keep evrRes_keeps rfl ?_
    exact hs
  · refine Inv.ite ?_ ?_
    · refine Inv.keep evrRes_keeps rfl ?_
      exact hs
    · refine Inv.ite ?_ ?_
      · refine Inv.keep evrRes_keeps rfl ?_
        exact hs
      · extract_lets -merge -useContext +onlyGivenNames x4
        have h5 : x4 = s.evr := rfl
        replace h5 : x4.queue.length ≤ 1024 := by
          rw [h5]
          exact hs.evr
        try clear_value x4
        extract_lets -merge -useContext +onlyGivenNames x6
        have h7 : Inv x6 := by
          unfold x6
          refine Inv.keep setRv_keeps rfl ?_
          refine Inv.keep setRf_keeps rfl ?_
          refine Inv.keep evrRes_keeps rfl ?_
          refine Inv.set_evr (fun h => ?_) ?_
          · assumption
          · exact hs
        try clear_value x6
        refine emit_inv ?_
        exact h7

theorem evrThaw_inv {s} (hs : Inv s) : Inv (evrThaw s) := by
  unfold evrThaw
  split
  · refine freezeEnd_inv ?_
    refine Inv.keep evrRes_keeps rfl ?_
    exact hs
  · refine Inv.keep evrRes_keeps rfl ?_
    exact hs
  · refine Inv.keep evrRes_keeps rfl ?_
    exact hs

theorem clearPart_inv {b0 b1 s} (hs : Inv s) : Inv (clearPart b0 b1 s) := by
  unfold clearPart
  refine modPart_inv ?_
  exact hs

theorem stageClear_inv {b0 s} (hs : Inv s) : Inv (stageClear b0 s) := by
  unfold stageClear
  refine Inv.keep cnt_keeps rfl ?_
  refine Inv.set_evr (fun h => ?_) ?_
  · exact h.evr
  · exact hs

theorem endRead_inv {b0 s} (hs : Inv s) : Inv (endRead b0 s) := by
  unfold endRead
  split
  · refine Inv.ite ?_ ?_
    · refine Inv.keep setRf_keeps rfl ?_
      refine Inv.keep setRf_keeps rfl ?_
      refine Inv.set_evr (fun h => ?_) ?_
      · exact h.evr
      · exact hs
    · exact hs
  · exact hs

theorem evrClear_inv {b0 s} (hs : Inv s) : Inv (evrClear b0 s) := by
  unfold evrClear
  refine Inv.ite ?_ ?_
  · refine Inv.keep evrRes_keeps rfl ?_
    exact hs
  · refine Inv.ite ?_ ?_
    · refine Inv.keep evrRes_keeps rfl ?_
      exact hs
    · refine Inv.ite ?_ ?_
      · refine Inv.keep evrRes_keeps rfl ?_
        exact hs
      · refine Inv.ite ?_ ?_
        · refine Inv.keep evrRes_keeps rfl ?_
          exact hs
        · split
          · refine Inv.keep evrRes_keeps rfl ?_
            exact hs
          · refine Inv.ite ?_ ?_
            · refine Inv.keep evrRes_keeps rfl ?_
              exact hs
            · extract_lets -merge -useContext +onlyGivenNames x2
              have h3 : Inv x2 := by
                unfold x2
                refine Inv.keep consumeToken_keeps rfl ?_
                refine closeOpen_inv ?_
                exact hs
              try clear_value x2
              extract_lets -merge -useContext +onlyGivenNames x4
              have h5 : Inv x4 := by
                unfold x4
                refine commitAll_inv ?_
                exact h3
              try clear_value x4
              extract_lets -merge -useContext +onlyGivenNames x6
              try clear_value x6
              extract_lets -merge -useContext +onlyGivenNames x7
              try clear_value x7
              extract_lets -merge -useContext +onlyGivenNames x8
              try clear_value x8
              extract_lets -merge -useContext +onlyGivenNames x9
              have h10 : Inv x9 := by
                unfold x9
                refine reserveSeq_inv ?_
                exact h5
              try clear_value x9
              extract_lets -merge -useContext +onlyGivenNames x11
              try clear_value x11
              extract_lets -merge -useContext +onlyGivenNames x12
              try clear_value x12
              extract_lets -merge -useContext +onlyGivenNames x13
              have h14 : Inv x13 := by
                unfold x13
                refine stageClear_inv ?_
                exact h10
              try clear_value x13
              extract_lets -merge -useContext +onlyGivenNames x15
              have h16 : Inv x15 := by
                unfold x15
                refine commitPage_inv ?_
                exact h14
              try clear_value x15
              extract_lets -merge -useContext +onlyGivenNames x17
              have h18 : Inv x17 := by
                unfold x17
                refine writeLight_inv ?_
                exact h16
              try clear_value x17
              extract_lets -merge -useContext +onlyGivenNames x19
              have h20 : Inv x19 := by
                unfold x19
                refine Inv.ite ?_ ?_
                · refine clearPart_inv ?_
                  exact h18
                · exact h18
              try clear_value x19
              extract_lets -merge -useContext +onlyGivenNames x21
              have h22 : Inv x21 := by
                unfold x21
                refine Inv.ite ?_ ?_
                · refine clearPart_inv ?_
                  exact h20
                · exact h20
              try clear_value x21
              refine Inv.keep evrRes_keeps rfl ?_
              extract_lets -merge -useContext +onlyGivenNames x23
              have h24 : Inv x23 := by
                unfold x23
                refine endRead_inv ?_
                exact h22
              try clear_value x23
              refine Inv.set_evr (fun h => ?_) ?_
              · exact h.evr
              · exact h24

theorem deliver_inv {b0 b1 b2 b3 b4 b5 b6 s} (hs : Inv s) : Inv (deliver b0 b1 b2 b3 b4 b5 b6 s) := by
  induction b4 generalizing b5 b6 s with
  | nil =>
    rw [deliver.eq_1]
    refine Inv.keep setRf_keeps rfl ?_
    refine Inv.set_evr (fun h => ?_) ?_
    · exact h.evr
    · exact hs
  | cons z zs ih =>
    cases b5 with
    | zero =>
      simp only [deliver]
      refine Inv.keep setRf_keeps rfl ?_
      refine Inv.set_evr (fun h => ?_) ?_
      · exact h.evr
      · exact hs
    | succ n =>
      rw [deliver.eq_3]
      refine Inv.ite ?_ ?_
      · refine ih ?_
        refine Inv.keep cnt_keeps rfl ?_
        refine Inv.keep setRf_keeps rfl ?_
        exact hs
      · extract_lets -merge -useContext +onlyGivenNames x0
        try clear_value x0
        refine Inv.ite ?_ ?_
        · refine Inv.set_evr (fun h => ?_) ?_
          · exact h.evr
          · exact hs
        · extract_lets -merge -useContext +onlyGivenNames x1
          have h2 : Inv x1 := by
            unfold x1
            refine Inv.keep ringPush_keeps rfl ?_
            exact hs
          try clear_value x1
          extract_lets -merge -useContext +onlyGivenNames x3
          have h4 : Inv x3 := by
            unfold x3
            refine Inv.ite ?_ ?_
            · refine Inv.keep setRv_keeps rfl ?_
              exact h2
            · exact h2
          try clear_value x3
          extract_lets -merge -useContext +onlyGivenNames x5
          have h6 : Inv x5 := by
            unfold x5
            refine Inv.keep addRf_keeps rfl ?_
            refine Inv.ite ?_ ?_
            · refine Inv.keep setRf_keeps rfl ?_
              exact h4
            · exact h4
          try clear_value x5
          refine ih ?_
          exact h6

theorem evrRead_inv {b0 b1 b2 s} (hs : Inv s) : Inv (evrRead b0 b1 b2 s) := by
  unfold evrRead
  extract_lets -merge -useContext +onlyGivenNames x0
  try clear_value x0
  refine Inv.ite ?_ ?_
  · refine Inv.keep evrRes_keeps rfl ?_
    exact hs
  · refine Inv.ite ?_ ?_
    · refine Inv.keep evrRes_keeps rfl ?_
      exact hs
    · refine Inv.ite ?_ ?_
      · refine Inv.keep evrRes_keeps rfl ?_
        exact hs
      · refine Inv.ite ?_ ?_
        · refine Inv.keep evrRes_keeps rfl ?_
          exact hs
        · extract_lets -merge -useContext +onlyGivenNames x1
          try clear_value x1
          extract_lets -merge -useContext +onlyGivenNames x2
          try clear_value x2
          extract_lets -merge -useContext +onlyGivenNames x3
          try clear_value x3
          extract_lets -merge -useContext +onlyGivenNames x4
          have h5 : Inv x4 := by
            unfold x4
            refine Inv.keep setRv_keeps rfl ?_
            refine Inv.keep setRv_keeps rfl ?_
            refine Inv.keep evrRes_keeps rfl ?_
            exact hs
          try clear_value x4
          extract_lets -merge -useContext +onlyGivenNames x6
          try clear_value x6
          extract_lets -merge -useContext +onlyGivenNames x7
          try clear_value x7
          extract_lets -merge -useContext +onlyGivenNames x8
          try clear_value x8
          extract_lets -merge -useContext +onlyGivenNames x9
          have h10 : Inv x9 := by
            unfold x9
            refine Inv.ite ?_ ?_
            · refine Inv.keep setRf_keeps rfl ?_
              exact h5
            · split
              · refine Inv.ite ?_ ?_
                · refine Inv.keep setRf_keeps rfl ?_
                  exact h5
                · exact h5
              · exact h5
          try clear_value x9
          refine Inv.ite ?_ ?_
          · refine Inv.keep setRf_keeps rfl ?_
            refine Inv.keep setRf_keeps rfl ?_
            exact h10
          · refine deliver_inv ?_
            exact h10

theorem readContinue_inv {s} (hs : Inv s) : Inv (readContinue s) := by
  unfold readContinue
  split
  · extract_lets -merge -useContext +onlyGivenNames x1
    have h2 : x1 = s.evr := rfl
    replace h2 : x1.queue.length ≤ 1024 := by
      rw [h2]
      exact hs.evr
    try clear_value x1
    extract_lets -merge -useContext +onlyGivenNames x3
    have h4 : Inv x3 := by
      unfold x3
      refine Inv.set_evr (fun h => ?_) ?_
      · assumption
      · exact hs
    try clear_value x3
    refine deliver_inv ?_
    exact h4
  · exact hs

theorem evrReadStop_inv {s} (hs : Inv s) : Inv (evrReadStop s) := by
  unfold evrReadStop
  refine Inv.keep evrRes_keeps rfl ?_
  refine Inv.set_evr (fun h => ?_) ?_
  · exact h.evr
  · exact hs

theorem execFreeze_inv {b0 s} (hs : Inv s) : InvA (execFreeze b0 s) := by
  unfold execFreeze
  refine InvA.next ?_
  refine blockCommand_inv ?_ ?_
  · intro s hs
    refine evrFreeze_inv ?_
    exact hs
  · refine begin'_inv ?_
    exact hs

theorem execThaw_inv {b0 s} (hs : Inv s) : InvA (execThaw b0 s) := by
  unfold execThaw
  refine InvA.next ?_
  refine blockCommand_inv ?_ ?_
  · intro s hs
    refine evrThaw_inv ?_
    exact hs
  · refine begin'_inv ?_
    exact hs

theorem execFreezeTimeout_inv {b0 s} (hs : Inv s) : InvA (execFreezeTimeout b0 s) := by
  unfold execFreezeTimeout
  extract_lets -merge -useContext +onlyGivenNames x0
  have h1 : Inv x0 := by
    unfold x0
    refine begin'_inv ?_
    exact hs
  try clear_value x0
  refine InvA.next ?_
  refine Inv.ite ?_ ?_
  · refine freezeEnd_inv ?_
    exact h1
  · exact h1

theorem execRecorderClear_inv {b0 b1 s} (hs : Inv s) : InvA (execRecorderClear b0 b1 s) := by
  unfold execRecorderClear
  refine InvA.next ?_
  refine blockCommand_inv ?_ ?_
  · intro s hs
    refine evrClear_inv ?_
    exact hs
  · refine begin'_inv ?_
    exact hs

theorem execClearingDone_inv {b0 s} (hs : Inv s) : InvA (execClearingDone b0 s) := by
  unfold execClearingDone
  extract_lets -merge -useContext +onlyGivenNames x0
  have h1 : Inv x0 := by
    unfold x0
    refine begin'_inv ?_
    exact hs
  try clear_value x0
  refine InvA.next ?_
  refine Inv.ite ?_ ?_
  · refine Inv.set_evr (fun h => ?_) ?_
    · exact h.evr
    · exact h1
  · exact h1

theorem execRead_inv {b0 b1 b2 b3 s} (hs : Inv s) : InvA (execRead b0 b1 b2 b3 s) := by
  unfold execRead
  refine InvA.next ?_
  refine blockCommand_inv ?_ ?_
  · intro s hs
    refine evrRead_inv ?_
    exact hs
  · refine begin'_inv ?_
    exact hs

theorem execReadStop_inv {b0 s} (hs : Inv s) : InvA (execReadStop b0 s) := by
  unfold execReadStop
  refine InvA.next ?_
  refine blockCommand_inv ?_ ?_
  · intro s hs
    refine evrReadStop_inv ?_
    exact hs
  · refine begin'_inv ?_
    exact hs

theorem writeStat_inv {s} (hs : Inv s) : Inv (writeStat s) := by
  unfold writeStat
  refine Inv.ite ?_ ?_
  · exact hs
  · extract_lets -merge -useContext +onlyGivenNames x0
    try clear_value x0
    extract_lets -merge -useContext +onlyGivenNames x1
    try clear_value x1
    extract_lets -merge -useContext +onlyGivenNames x2
    have h3 : Inv x2 := by
      unfold x2
      refine Inv.keep stat_keeps rfl ?_
      exact hs
    try clear_value x2
    extract_lets -merge -useContext +onlyGivenNames x4
    try clear_value x4
    extract_lets -merge -useContext +onlyGivenNames x5
    have h6 : Inv x5 := by
      unfold x5
      refine Inv.ite ?_ ?_
      · refine Inv.keep (wr_sta (m := 62914559) rfl) rfl ?_
        exact h3
      · exact hs
    try clear_value x5
    extract_lets -merge -useContext +onlyGivenNames x7
    try clear_value x7
    extract_lets -merge -useContext +onlyGivenNames x8
    try clear_value x8
    extract_lets -merge -useContext +onlyGivenNames x9
    have h10 : Inv x9 := by
      unfold x9
      refine Inv.keep stat_keeps rfl ?_
      refine Inv.keep (wr_sta (m := 62914559) rfl) rfl ?_
      exact h6
    try clear_value x9
    extract_lets -merge -useContext +onlyGivenNames x11
    try clear_value x11
    extract_lets -merge -useContext +onlyGivenNames x12
    try clear_value x12
    extract_lets -merge -useContext +onlyGivenNames x13
    try clear_value x13
    extract_lets -merge -useContext +onlyGivenNames x14
    have h15 : Inv x14 := by
      unfold x14
      refine Inv.keep (wr_sta (m := 62914559) rfl) rfl ?_
      exact h10
    try clear_value x14
    split
    · have h := h15
      refine ⟨h.mem, ?_, h.evr, h.frc, h.lat⟩
      · exact h.cand
    · have h := h15
      refine ⟨h.mem, ?_, h.evr, h.frc, h.lat⟩
      · exact h.cand

theorem execStatUpdate_inv {b0 s} (hs : Inv s) : InvA (execStatUpdate b0 s) := by
  unfold execStatUpdate
  extract_lets -merge -useContext +onlyGivenNames x0
  have h1 : Inv x0 := by
    unfold x0
    refine begin'_inv ?_
    exact hs
  try clear_value x0
  refine InvA.next ?_
  refine Inv.ite ?_ ?_
  · refine writeStat_inv ?_
    exact h1
  · exact h1

theorem execVinSag_inv {b0 b1 b2 s} (hs : Inv s) : InvA (execVinSag b0 b1 b2 s) := by
  unfold execVinSag
  extract_lets -merge -useContext +onlyGivenNames x0
  have h1 : Inv x0 := by
    unfold x0
    refine begin'_inv ?_
    exact hs
  try clear_value x0
  refine InvA.next ?_
  refine Inv.ite ?_ ?_
  · refine Inv.keep stat_keeps rfl ?_
    exact h1
  · exact h1

theorem execTemperatureSample_inv {b0 b1 s} (hs : Inv s) : InvA (execTemperatureSample b0 b1 s) := by
  unfold execTemperatureSample
  extract_lets -merge -useContext +onlyGivenNames x0
  have h1 : Inv x0 := by
    unfold x0
    refine begin'_inv ?_
    exact hs
  try clear_value x0
  extract_lets -merge -useContext +onlyGivenNames x2
  try clear_value x2
  refine InvA.next ?_
  refine Inv.ite ?_ ?_
  · refine Inv.keep statMax_keeps rfl ?_
    refine Inv.keep stat_keeps rfl ?_
    exact h1
  · exact h1

end Sys2Proof.Machine
end

