-- ==== Sys2Proof/Laws/KeepsRings.lean ====
section
/-! SUPPORT. Frames of the functions of Machine/Rings.lean: what each leaves alone, said once. The docstrings name the parts of `State` a function may write; the mask marks all others. -/

namespace Sys2Proof.Machine

/-- Writes at most: prg xch regs rings evr. -/
theorem postTx_keeps {b0 b1 b2 b3 s} : Keeps 64855551 s (postTx b0 b1 b2 b3 s) := by
  unfold postTx
  extract_lets -merge -useContext +onlyGivenNames x0
  try clear_value x0
  extract_lets -merge -useContext +onlyGivenNames x1
  try clear_value x1
  extract_lets -merge -useContext +onlyGivenNames x2
  try clear_value x2
  split
  · extract_lets -merge -useContext +onlyGivenNames x7
    try clear_value x7
    extract_lets -merge -useContext +onlyGivenNames x8
    try clear_value x8
    refine Keeps.ite ?_ ?_
    · refine Keeps.step fireRing_keeps rfl ?_
      refine Keeps.step ringPush_keeps rfl ?_
      refine Keeps.step modRing_keeps rfl ?_
      exact Keeps.refl
    · refine Keeps.step modRing_keeps rfl ?_
      exact Keeps.refl
  · split
    · extract_lets -merge -useContext +onlyGivenNames x13
      try clear_value x13
      refine Keeps.step ringOverflow_keeps rfl ?_
      refine Keeps.step modRing_keeps rfl ?_
      exact Keeps.refl
    · extract_lets -merge -useContext +onlyGivenNames x15
      try clear_value x15
      refine Keeps.ite ?_ ?_
      · refine Keeps.step ringOverflow_keeps rfl ?_
        refine Keeps.ite ?_ ?_
        · exact Keeps.refl
        · refine Keeps.step modRing_keeps rfl ?_
          exact Keeps.refl
      · refine Keeps.ite ?_ ?_
        · refine Keeps.step fireRing_keeps rfl ?_
          refine Keeps.step ringPush_keeps rfl ?_
          exact Keeps.refl
        · refine Keeps.step modRing_keeps rfl ?_
          exact Keeps.refl

/-- Writes at most: regs evr. -/
theorem post55_keeps {b0 b1 b2 s} : Keeps 64995327 s (post55 b0 b1 b2 s) := by
  unfold post55
  extract_lets -merge -useContext +onlyGivenNames x0
  have h1 : ∀ s, Keeps 64995327 s (x0 s) := by
    intro s
    unfold x0
    refine Keeps.step lostNotice_keeps rfl ?_
    refine Keeps.step recordLoss_keeps rfl ?_
    exact Keeps.refl
  try clear_value x0
  extract_lets -merge -useContext +onlyGivenNames x2
  have h3 : ∀ c0 s, Keeps 64995327 s (x2 c0 s) := by
    intro a4 s
    unfold x2
    extract_lets -merge -useContext +onlyGivenNames x5
    try clear_value x5
    extract_lets -merge -useContext +onlyGivenNames x6
    try clear_value x6
    refine Keeps.step emitAt_keeps rfl ?_
    exact Keeps.refl
  try clear_value x2
  extract_lets -merge -useContext +onlyGivenNames x7
  have h8 : ∀ s, Keeps 64995327 s (x7 s) := by
    intro s
    unfold x7
    extract_lets -merge -useContext +onlyGivenNames x9
    try clear_value x9
    extract_lets -merge -useContext +onlyGivenNames x10
    try clear_value x10
    refine Keeps.ite ?_ ?_
    · refine Keeps.app (h1 _) ?_
      exact Keeps.refl
    · refine Keeps.ite ?_ ?_
      · refine Keeps.app (h3 _ _) ?_
        exact Keeps.refl
      · refine Keeps.app (wr_evr rfl) ?_
        exact Keeps.refl
  try clear_value x7
  split
  · refine Keeps.ite ?_ ?_
    · extract_lets -merge -useContext +onlyGivenNames x15
      try clear_value x15
      refine Keeps.ite ?_ ?_
      · refine Keeps.app (h3 _ _) ?_
        refine Keeps.app (wr_evr rfl) ?_
        exact Keeps.refl
      · refine Keeps.app (wr_evr rfl) ?_
        exact Keeps.refl
    · refine Keeps.app (h8 _) ?_
      refine Keeps.app (h1 _) ?_
      refine Keeps.app (wr_evr rfl) ?_
      exact Keeps.refl
  · refine Keeps.app (h8 _) ?_
    exact Keeps.refl

/-- Writes at most: prg xch regs rings evr. -/
theorem postRecord_keeps {b0 b1 s} : Keeps 64855551 s (postRecord b0 b1 s) := by
  unfold postRecord
  refine Keeps.ite ?_ ?_
  · refine Keeps.step ringOverflow_keeps rfl ?_
    exact Keeps.refl
  · refine Keeps.step fireRing_keeps rfl ?_
    refine Keeps.step ringPush_keeps rfl ?_
    exact Keeps.refl

/-- Writes at most: regs rings evr. -/
theorem endPosts_keeps {b0 b1 s} : Keeps 64864255 s (endPosts b0 b1 s) := by
  unfold endPosts
  extract_lets -merge -useContext +onlyGivenNames x0
  try clear_value x0
  extract_lets -merge -useContext +onlyGivenNames x1
  have h2 : Keeps 64864255 s x1 := by
    unfold x1
    split
    · refine Keeps.ite ?_ ?_
      · refine Keeps.step lostNotice_keeps rfl ?_
        refine Keeps.step recordLoss_keeps rfl ?_
        refine Keeps.app (wr_evr rfl) ?_
        exact Keeps.refl
      · exact Keeps.refl
    · exact Keeps.refl
  try clear_value x1
  refine Keeps.foldl ?_ _ ?_
  · intro s a8
    extract_lets -merge -useContext +onlyGivenNames x9
    try clear_value x9
    refine Keeps.ite ?_ ?_
    · extract_lets -merge -useContext +onlyGivenNames x10
      try clear_value x10
      extract_lets -merge -useContext +onlyGivenNames x11
      try clear_value x11
      extract_lets -merge -useContext +onlyGivenNames x12
      have h13 : Keeps 64864255 s x12 := by
        unfold x12
        refine Keeps.step modRing_keeps rfl ?_
        exact Keeps.refl
      try clear_value x12
      refine Keeps.ite ?_ ?_
      · refine Keeps.step ringOverflow_keeps rfl ?_
        exact h13
      · exact h13
    · exact Keeps.refl
  · exact h2

/-- Writes at most: prg xch regs rings evr. -/
theorem deliverItem_keeps {b0 b1 b2 b3 b4 s} : Keeps 64855551 s (deliverItem b0 b1 b2 b3 b4 s) := by
  unfold deliverItem
  extract_lets -merge -useContext +onlyGivenNames x0
  try clear_value x0
  extract_lets -merge -useContext +onlyGivenNames x1
  try clear_value x1
  refine Keeps.ite ?_ ?_
  · refine Keeps.step ringOverflow_keeps rfl ?_
    exact Keeps.refl
  · refine Keeps.ite ?_ ?_
    · refine Keeps.step ringOverflow_keeps rfl ?_
      refine Keeps.ite ?_ ?_
      · refine Keeps.step modRing_keeps rfl ?_
        exact Keeps.refl
      · exact Keeps.refl
    · extract_lets -merge -useContext +onlyGivenNames x2
      try clear_value x2
      extract_lets -merge -useContext +onlyGivenNames x3
      try clear_value x3
      extract_lets -merge -useContext +onlyGivenNames x4
      have h5 : Keeps 64855551 s x4 := by
        unfold x4
        refine Keeps.step modRing_keeps rfl ?_
        exact Keeps.refl
      try clear_value x4
      extract_lets -merge -useContext +onlyGivenNames x6
      have h7 : Keeps 64855551 s x6 := by
        unfold x6
        refine Keeps.step ringPush_keeps rfl ?_
        exact h5
      try clear_value x6
      extract_lets -merge -useContext +onlyGivenNames x8
      try clear_value x8
      extract_lets -merge -useContext +onlyGivenNames x9
      have h10 : Keeps 64855551 s x9 := by
        unfold x9
        refine Keeps.ite ?_ ?_
        · refine Keeps.step setRf_keeps rfl ?_
          exact h7
        · exact h7
      try clear_value x9
      refine Keeps.step fireRing_keeps rfl ?_
      exact h10

/-- Writes at most: rings. -/
theorem ringTake_keeps {b0 s} : KeepsS 66977791 s (ringTake b0 s) := by
  unfold ringTake
  split
  · exact trivial
  · refine KeepsS.some ?_
    refine Keeps.mkSnd ?_
    refine Keeps.step modRing_keeps rfl ?_
    exact Keeps.refl

/-- Writes at most: rings. -/
theorem ringTakeItem_keeps {b0 s} : KeepsS3 66977791 s (ringTakeItem b0 s) := by
  unfold ringTakeItem
  split
  · exact trivial
  · extract_lets -merge -useContext +onlyGivenNames x3
    try clear_value x3
    extract_lets -merge -useContext +onlyGivenNames x4
    try clear_value x4
    refine KeepsS3.some ?_
    refine Keeps.step modRing_keeps rfl ?_
    exact Keeps.refl

end Sys2Proof.Machine
end

