-- ==== Sys2Proof/Laws/InvRings.lean ====
section
/-! SUPPORT. The functions of Machine/Rings.lean keep the invariant `Inv`. -/

namespace Sys2Proof.Machine

theorem postTx_inv {b0 b1 b2 b3 s} (hs : Inv s) : Inv (postTx b0 b1 b2 b3 s) := by
  unfold postTx
  extract_lets -merge -useContext +onlyGivenNames x0
  try clear_value x0
  extract_lets -merge -useContext +onlyGivenNames x1
  try clear_value x1
  extract_lets -merge -useContext +onlyGivenNames x2
  try clear_value x2
  split
  · extract_lets -merge -useContext +onlyGivenNames x7
    try clear_value x7
    extract_lets -merge -useContext +onlyGivenNames x8
    try clear_value x8
    refine Inv.ite ?_ ?_
    · refine Inv.keep fireRing_keeps rfl ?_
      refine Inv.keep ringPush_keeps rfl ?_
      refine Inv.keep modRing_keeps rfl ?_
      exact hs
    · refine Inv.keep modRing_keeps rfl ?_
      exact hs
  · split
    · extract_lets -merge -useContext +onlyGivenNames x13
      try clear_value x13
      refine ringOverflow_inv ?_
      refine Inv.keep modRing_keeps rfl ?_
      exact hs
    · extract_lets -merge -useContext +onlyGivenNames x15
      try clear_value x15
      refine Inv.ite ?_ ?_
      · refine ringOverflow_inv ?_
        refine Inv.ite ?_ ?_
        · exact hs
        · refine Inv.keep modRing_keeps rfl ?_
          exact hs
      · refine Inv.ite ?_ ?_
        · refine Inv.keep fireRing_keeps rfl ?_
          refine Inv.keep ringPush_keeps rfl ?_
          exact hs
        · refine Inv.keep modRing_keeps rfl ?_
          exact hs

theorem post55_inv {b0 b1 b2 s} (hs : Inv s) : Inv (post55 b0 b1 b2 s) := by
  unfold post55
  extract_lets -merge -useContext +onlyGivenNames x0
  have h1 : ∀ s, Inv (s) → Inv (x0 s) := by
    intro s hs
    unfold x0
    refine lostNotice_inv ?_
    refine recordLoss_inv ?_
    exact hs
  try clear_value x0
  extract_lets -merge -useContext +onlyGivenNames x2
  have h3 : ∀ c0 s, Inv (s) → Inv (x2 c0 s) := by
    intro a4 s hs
    unfold x2
    extract_lets -merge -useContext +onlyGivenNames x5
    try clear_value x5
    extract_lets -merge -useContext +onlyGivenNames x6
    try clear_value x6
    refine emitAt_inv ?_
    exact hs
  try clear_value x2
  extract_lets -merge -useContext +onlyGivenNames x7
  have h8 : ∀ s, Inv (s) → Inv (x7 s) := by
    intro s hs
    unfold x7
    extract_lets -merge -useContext +onlyGivenNames x9
    try clear_value x9
    extract_lets -merge -useContext +onlyGivenNames x10
    try clear_value x10
    refine Inv.ite ?_ ?_
    · refine h1 _ ?_
      exact hs
    · refine Inv.ite ?_ ?_
      · refine h3 _ _ ?_
        exact hs
      · refine Inv.set_evr (fun h => ?_) ?_
        · exact h.evr
        · exact hs
  try clear_value x7
  split
  · refine Inv.ite ?_ ?_
    · extract_lets -merge -useContext +onlyGivenNames x15
      try clear_value x15
      refine Inv.ite ?_ ?_
      · refine h3 _ _ ?_
        refine Inv.set_evr (fun h => ?_) ?_
        · exact h.evr
        · exact hs
      · refine Inv.set_evr (fun h => ?_) ?_
        · exact h.evr
        · exact hs
    · refine h8 _ ?_
      refine h1 _ ?_
      refine Inv.set_evr (fun h => ?_) ?_
      · exact h.evr
      · exact hs
  · refine h8 _ ?_
    exact hs

theorem postRecord_inv {b0 b1 s} (hs : Inv s) : Inv (postRecord b0 b1 s) := by
  unfold postRecord
  refine Inv.ite ?_ ?_
  · refine ringOverflow_inv ?_
    exact hs
  · refine Inv.keep fireRing_keeps rfl ?_
    refine Inv.keep ringPush_keeps rfl ?_
    exact hs

theorem endPosts_inv {b0 b1 s} (hs : Inv s) : Inv (endPosts b0 b1 s) := by
  unfold endPosts
  extract_lets -merge -useContext +onlyGivenNames x0
  have h1 : x0 = s.evr := rfl
  replace h1 : x0.queue.length ≤ 1024 := by
    rw [h1]
    exact hs.evr
  try clear_value x0
  extract_lets -merge -useContext +onlyGivenNames x2
  have h3 : Inv x2 := by
    unfold x2
    split
    · refine Inv.ite ?_ ?_
      · refine lostNotice_inv ?_
        refine recordLoss_inv ?_
        refine Inv.set_evr (fun h => ?_) ?_
        · assumption
        · exact hs
      · exact hs
    · exact hs
  try clear_value x2
  refine Inv.foldl ?_ _ ?_
  · intro s a9 hs
    extract_lets -merge -useContext +onlyGivenNames x10
    try clear_value x10
    refine Inv.ite ?_ ?_
    · extract_lets -merge -useContext +onlyGivenNames x11
      try clear_value x11
      extract_lets -merge -useContext +onlyGivenNames x12
      try clear_value x12
      extract_lets -merge -useContext +onlyGivenNames x13
      have h14 : Inv x13 := by
        unfold x13
        refine Inv.keep modRing_keeps rfl ?_
        exact hs
      try clear_value x13
      refine Inv.ite ?_ ?_
      · refine ringOverflow_inv ?_
        exact h14
      · exact h14
    · exact hs
  · exact h3

theorem deliverItem_inv {b0 b1 b2 b3 b4 s} (hs : Inv s) : Inv (deliverItem b0 b1 b2 b3 b4 s) := by
  unfold deliverItem
  extract_lets -merge -useContext +onlyGivenNames x0
  try clear_value x0
  extract_lets -merge -useContext +onlyGivenNames x1
  try clear_value x1
  refine Inv.ite ?_ ?_
  · refine ringOverflow_inv ?_
    exact hs
  · refine Inv.ite ?_ ?_
    · refine ringOverflow_inv ?_
      refine Inv.ite ?_ ?_
      · refine Inv.keep modRing_keeps rfl ?_
        exact hs
      · exact hs
    · extract_lets -merge -useContext +onlyGivenNames x2
      try clear_value x2
      extract_lets -merge -useContext +onlyGivenNames x3
      try clear_value x3
      extract_lets -merge -useContext +onlyGivenNames x4
      have h5 : Inv x4 := by
        unfold x4
        refine Inv.keep modRing_keeps rfl ?_
        exact hs
      try clear_value x4
      extract_lets -merge -useContext +onlyGivenNames x6
      have h7 : Inv x6 := by
        unfold x6
        refine Inv.keep ringPush_keeps rfl ?_
        exact h5
      try clear_value x6
      extract_lets -merge -useContext +onlyGivenNames x8
      try clear_value x8
      extract_lets -merge -useContext +onlyGivenNames x9
      have h10 : Inv x9 := by
        unfold x9
        refine Inv.ite ?_ ?_
        · refine Inv.keep setRf_keeps rfl ?_
          exact h7
        · exact h7
      try clear_value x9
      refine Inv.keep fireRing_keeps rfl ?_
      exact h10

end Sys2Proof.Machine
end

