-- ==== Sys2Proof/Laws/KeepsFieldIn.lean ====
section
/-! SUPPORT. Frames of the functions of Machine/FieldIn.lean: what each leaves alone, said once. The docstrings name the parts of `State` a function may write; the mask marks all others. -/

namespace Sys2Proof.Machine

/-- Writes at most: rings lat. -/
theorem admitUpdates_keeps {b0 s} : Keeps 66715647 s (admitUpdates b0 s) := by
  induction b0 generalizing s with
  | zero =>
    rw [admitUpdates.eq_1]
    exact Keeps.refl
  | succ z ih =>
    rw [admitUpdates.eq_2]
    refine Keeps.ite ?_ ?_
    · split
      · rename_i y0 y1 q2
        have h3 : Keeps 66715647 s y1 := by
          refine KeepsS.elim ?_ q2
          refine KeepsS.step ringTake_keeps rfl ?_
          exact Keeps.refl
        refine Keeps.app ih ?_
        refine Keeps.app (wr_lat rfl) ?_
        exact h3
      · exact Keeps.refl
    · exact Keeps.refl

/-- Writes at most: sent cand pwr tri prg frc vm xch regs rings lat fio snu evr upd lnk. -/
theorem postUpdate_keeps {b0 b1 b2 s} : Keeps 37849373 s (postUpdate b0 b1 b2 s) := by
  unfold postUpdate
  refine Keeps.ite ?_ ?_
  · refine Keeps.step vitalFault_keeps rfl ?_
    exact Keeps.refl
  · refine Keeps.step fireRing_keeps rfl ?_
    refine Keeps.step admitUpdates_keeps rfl ?_
    refine Keeps.step ringPush_keeps rfl ?_
    exact Keeps.refl

/-- Writes at most: sent cand pwr tri prg frc vm xch regs rings lat fio snu evr upd lnk. -/
theorem pinUpdate_keeps {b0 s} : Keeps 37849373 s (pinUpdate b0 s) := by
  unfold pinUpdate
  refine Keeps.ite ?_ ?_
  · extract_lets -merge -useContext +onlyGivenNames x0
    try clear_value x0
    extract_lets -merge -useContext +onlyGivenNames x1
    try clear_value x1
    refine Keeps.step postUpdate_keeps rfl ?_
    refine Keeps.step modPin_keeps rfl ?_
    exact Keeps.refl
  · exact Keeps.refl

/-- Writes at most: prg xch regs rings fio evr. -/
theorem inputRecord_keeps {b0 b1 b2 b3 b4 b5 s} : Keeps 64331263 s (inputRecord b0 b1 b2 b3 b4 b5 s) := by
  unfold inputRecord
  extract_lets -merge -useContext +onlyGivenNames x0
  try clear_value x0
  extract_lets -merge -useContext +onlyGivenNames x1
  try clear_value x1
  extract_lets -merge -useContext +onlyGivenNames x2
  have h3 : Keeps 64331263 s x2 := by
    unfold x2
    refine Keeps.step fieldLog_keeps rfl ?_
    refine Keeps.app (wr_fio rfl) ?_
    exact Keeps.refl
  try clear_value x2
  extract_lets -merge -useContext +onlyGivenNames x4
  try clear_value x4
  refine Keeps.ite ?_ ?_
  · extract_lets -merge -useContext +onlyGivenNames x5
    try clear_value x5
    refine Keeps.ite ?_ ?_
    · refine Keeps.step ringOverflow_keeps rfl ?_
      exact h3
    · refine Keeps.step fireRing_keeps rfl ?_
      refine Keeps.step ringPush_keeps rfl ?_
      exact h3
  · exact h3

/-- Writes at most: sent clk civ cand pwr tri prg frc vm xch regs bus rings fio snu evr upd lnk. -/
theorem execInputCrossing_keeps {b0 b1 b2 b3 b4 s} : Answers 38078725 s (execInputCrossing b0 b1 b2 b3 b4 s) := by
  unfold execInputCrossing
  extract_lets -merge -useContext +onlyGivenNames x0
  have h1 : Keeps 38078725 s x0 := by
    unfold x0
    refine Keeps.step begin'_keeps rfl ?_
    exact Keeps.refl
  try clear_value x0
  extract_lets -merge -useContext +onlyGivenNames x2
  try clear_value x2
  extract_lets -merge -useContext +onlyGivenNames x3
  try clear_value x3
  refine Answers.next ?_
  refine Keeps.ite ?_ ?_
  · exact h1
  · extract_lets -merge -useContext +onlyGivenNames x4
    try clear_value x4
    extract_lets -merge -useContext +onlyGivenNames x5
    try clear_value x5
    extract_lets -merge -useContext +onlyGivenNames x6
    try clear_value x6
    extract_lets -merge -useContext +onlyGivenNames x7
    have h8 : Keeps 38078725 s x7 := by
      unfold x7
      refine Keeps.step modPin_keeps rfl ?_
      exact h1
    try clear_value x7
    refine Keeps.ite ?_ ?_
    · exact h8
    · refine Keeps.ite ?_ ?_
      · refine Keeps.step unitDisagrees_keeps rfl ?_
        exact h8
      · extract_lets -merge -useContext +onlyGivenNames x9
        have h10 : Keeps 38078725 s x9 := by
          unfold x9
          refine Keeps.step modPin_keeps rfl ?_
          exact h8
        try clear_value x9
        refine Keeps.step inputRecord_keeps rfl ?_
        exact h10

/-- Writes at most: sent cand pwr tri prg frc vm xch regs rings lat fio snu evr upd lnk. -/
theorem confirmRun_keeps {b0 s} : Keeps 37849373 s (confirmRun b0 s) := by
  unfold confirmRun
  extract_lets -merge -useContext +onlyGivenNames x0
  try clear_value x0
  extract_lets -merge -useContext +onlyGivenNames x1
  try clear_value x1
  extract_lets -merge -useContext +onlyGivenNames x2
  try clear_value x2
  extract_lets -merge -useContext +onlyGivenNames x3
  have h4 : Keeps 37849373 s x3 := by
    unfold x3
    refine Keeps.step modPin_keeps rfl ?_
    exact Keeps.refl
  try clear_value x3
  extract_lets -merge -useContext +onlyGivenNames x5
  have h6 : Keeps 37849373 s x5 := by
    unfold x5
    refine Keeps.ite ?_ ?_
    · refine Keeps.step emit_keeps rfl ?_
      exact h4
    · exact h4
  try clear_value x5
  refine Keeps.ite ?_ ?_
  · extract_lets -merge -useContext +onlyGivenNames x7
    have h8 : Keeps 37849373 s x7 := by
      unfold x7
      refine Keeps.step inputRecord_keeps rfl ?_
      exact h6
    try clear_value x7
    refine Keeps.step pinUpdate_keeps rfl ?_
    refine Keeps.step fireEdge_keeps rfl ?_
    exact h8
  · refine Keeps.ite ?_ ?_
    · refine Keeps.step pinUpdate_keeps rfl ?_
      exact h6
    · exact h6

/-- Writes at most: sent clk civ cand pwr tri prg frc vm xch regs bus rings lat fio snu evr upd lnk. -/
theorem execConfirmedChange_keeps {b0 b1 s} : Answers 37816581 s (execConfirmedChange b0 b1 s) := by
  unfold execConfirmedChange
  extract_lets -merge -useContext +onlyGivenNames x0
  have h1 : Keeps 37816581 s x0 := by
    unfold x0
    refine Keeps.step begin'_keeps rfl ?_
    exact Keeps.refl
  try clear_value x0
  extract_lets -merge -useContext +onlyGivenNames x2
  try clear_value x2
  refine Answers.next ?_
  refine Keeps.ite ?_ ?_
  · refine Keeps.step confirmRun_keeps rfl ?_
    exact h1
  · exact h1

/-- Writes at most: regs evr. -/
theorem pinFault_keeps {b0 b1 b2 b3 b4 s} : Keeps 64995327 s (pinFault b0 b1 b2 b3 b4 s) := by
  unfold pinFault
  refine Keeps.step emit_keeps rfl ?_
  exact Keeps.refl

/-- Writes at most: sent cand pwr tri prg frc vm xch regs rings lat fio snu evr upd lnk. -/
theorem emptyFilter_keeps {b0 s} : Keeps 37849373 s (emptyFilter b0 s) := by
  unfold emptyFilter
  extract_lets -merge -useContext +onlyGivenNames x0
  try clear_value x0
  extract_lets -merge -useContext +onlyGivenNames x1
  try clear_value x1
  extract_lets -merge -useContext +onlyGivenNames x2
  have h3 : Keeps 37849373 s x2 := by
    unfold x2
    refine Keeps.step modPin_keeps rfl ?_
    exact Keeps.refl
  try clear_value x2
  refine Keeps.ite ?_ ?_
  · refine Keeps.step pinUpdate_keeps rfl ?_
    exact h3
  · exact h3

/-- Writes at most: sent clk civ cand pwr tri prg frc vm xch regs bus rings lat fio snu evr upd lnk. -/
theorem execInBand_keeps {b0 b1 s} : Answers 37816581 s (execInBand b0 b1 s) := by
  unfold execInBand
  extract_lets -merge -useContext +onlyGivenNames x0
  have h1 : Keeps 37816581 s x0 := by
    unfold x0
    refine Keeps.step begin'_keeps rfl ?_
    exact Keeps.refl
  try clear_value x0
  extract_lets -merge -useContext +onlyGivenNames x2
  try clear_value x2
  refine Answers.next ?_
  refine Keeps.ite ?_ ?_
  · extract_lets -merge -useContext +onlyGivenNames x3
    have h4 : Keeps 37816581 s x3 := by
      unfold x3
      refine Keeps.step pinFault_keeps rfl ?_
      refine Keeps.step emptyFilter_keeps rfl ?_
      exact h1
    try clear_value x3
    refine Keeps.step modPin_keeps rfl ?_
    exact h4
  · exact h1

/-- Writes at most: sent clk civ cand pwr tri prg frc vm xch regs bus rings lat fio snu evr upd lnk. -/
theorem execCouplerLost_keeps {b0 b1 s} : Answers 37816581 s (execCouplerLost b0 b1 s) := by
  unfold execCouplerLost
  extract_lets -merge -useContext +onlyGivenNames x0
  have h1 : Keeps 37816581 s x0 := by
    unfold x0
    refine Keeps.step begin'_keeps rfl ?_
    exact Keeps.refl
  try clear_value x0
  extract_lets -merge -useContext +onlyGivenNames x2
  try clear_value x2
  refine Answers.next ?_
  refine Keeps.ite ?_ ?_
  · extract_lets -merge -useContext +onlyGivenNames x3
    have h4 : Keeps 37816581 s x3 := by
      unfold x3
      refine Keeps.ite ?_ ?_
      · refine Keeps.step emptyFilter_keeps rfl ?_
        exact h1
      · exact h1
    try clear_value x3
    refine Keeps.step pinFault_keeps rfl ?_
    refine Keeps.step modPin_keeps rfl ?_
    exact h4
  · exact h1

/-- Writes at most: sta. -/
theorem pinStat_keeps {b0 b1 s} : Keeps 62914559 s (pinStat b0 b1 s) := by
  unfold pinStat
  refine Keeps.step stat_keeps rfl ?_
  exact Keeps.refl

/-- Writes at most: sent regs fio snu evr sta. -/
theorem stuckOn_keeps {b0 b1 s} : Keeps 59228157 s (stuckOn b0 b1 s) := by
  unfold stuckOn
  refine Keeps.ite ?_ ?_
  · exact Keeps.refl
  · extract_lets -merge -useContext +onlyGivenNames x0
    have h1 : Keeps 59228157 s x0 := by
      unfold x0
      refine Keeps.step modPin_keeps rfl ?_
      exact Keeps.refl
    try clear_value x0
    refine Keeps.step groupFault_keeps rfl ?_
    refine Keeps.step pinFault_keeps rfl ?_
    refine Keeps.step pinStat_keeps rfl ?_
    exact h1

/-- Writes at most: sent regs fio snu evr sta. -/
theorem crossFault_keeps {b0 b1 b2 s} : Keeps 59228157 s (crossFault b0 b1 b2 s) := by
  unfold crossFault
  extract_lets -merge -useContext +onlyGivenNames x0
  have h1 : Keeps 59228157 s x0 := by
    unfold x0
    refine Keeps.step modPin_keeps rfl ?_
    exact Keeps.refl
  try clear_value x0
  extract_lets -merge -useContext +onlyGivenNames x2
  have h3 : Keeps 59228157 s x2 := by
    unfold x2
    refine Keeps.step modPin_keeps rfl ?_
    exact h1
  try clear_value x2
  extract_lets -merge -useContext +onlyGivenNames x4
  have h5 : Keeps 59228157 s x4 := by
    unfold x4
    refine Keeps.step pinFault_keeps rfl ?_
    refine Keeps.step pinStat_keeps rfl ?_
    refine Keeps.step pinStat_keeps rfl ?_
    exact h3
  try clear_value x4
  extract_lets -merge -useContext +onlyGivenNames x6
  try clear_value x6
  refine Keeps.step groupFault_keeps rfl ?_
  exact h5

/-- Writes at most: sent regs fio snu evr sta. -/
theorem offCheck_keeps {b0 b1 s} : Keeps 59228157 s (offCheck b0 b1 s) := by
  unfold offCheck
  extract_lets -merge -useContext +onlyGivenNames x0
  try clear_value x0
  refine Keeps.ite ?_ ?_
  · refine Keeps.step modPin_keeps rfl ?_
    exact Keeps.refl
  · refine Keeps.ite ?_ ?_
    · refine Keeps.step modPin_keeps rfl ?_
      exact Keeps.refl
    · split
      · refine Keeps.step crossFault_keeps rfl ?_
        exact Keeps.refl
      · refine Keeps.ite ?_ ?_
        · exact Keeps.refl
        · extract_lets -merge -useContext +onlyGivenNames x3
          try clear_value x3
          extract_lets -merge -useContext +onlyGivenNames x4
          have h5 : Keeps 59228157 s x4 := by
            unfold x4
            refine Keeps.step modPin_keeps rfl ?_
            exact Keeps.refl
          try clear_value x4
          refine Keeps.ite ?_ ?_
          · refine Keeps.step stuckOn_keeps rfl ?_
            exact h5
          · exact h5

/-- Writes at most: sent clk civ cand pwr tri prg frc vm xch regs bus rings fio snu evr sta upd lnk. -/
theorem execFieldStatus_keeps {b0 b1 b2 s} : Answers 33884421 s (execFieldStatus b0 b1 b2 s) := by
  unfold execFieldStatus
  extract_lets -merge -useContext +onlyGivenNames x0
  have h1 : Keeps 33884421 s x0 := by
    unfold x0
    refine Keeps.step begin'_keeps rfl ?_
    exact Keeps.refl
  try clear_value x0
  extract_lets -merge -useContext +onlyGivenNames x2
  try clear_value x2
  refine Answers.next ?_
  refine Keeps.ite ?_ ?_
  · exact h1
  · refine Keeps.ite ?_ ?_
    · refine Keeps.step unitDisagrees_keeps rfl ?_
      exact h1
    · refine Keeps.ite ?_ ?_
      · refine Keeps.step cnt_keeps rfl ?_
        exact h1
      · extract_lets -merge -useContext +onlyGivenNames x3
        try clear_value x3
        extract_lets -merge -useContext +onlyGivenNames x4
        have h5 : Keeps 33884421 s x4 := by
          unfold x4
          refine Keeps.ite ?_ ?_
          · refine Keeps.step pinFault_keeps rfl ?_
            exact h1
          · exact h1
        try clear_value x4
        extract_lets -merge -useContext +onlyGivenNames x6
        try clear_value x6
        extract_lets -merge -useContext +onlyGivenNames x7
        try clear_value x7
        extract_lets -merge -useContext +onlyGivenNames x8
        have h9 : Keeps 33884421 s x8 := by
          unfold x8
          refine Keeps.ite ?_ ?_
          · refine Keeps.step modPin_keeps rfl ?_
            exact h5
          · exact h5
        try clear_value x8
        extract_lets -merge -useContext +onlyGivenNames x10
        have h11 : Keeps 33884421 s x10 := by
          unfold x10
          refine Keeps.ite ?_ ?_
          · refine Keeps.step offCheck_keeps rfl ?_
            exact h9
          · exact h9
        try clear_value x10
        extract_lets -merge -useContext +onlyGivenNames x12
        have h13 : Keeps 33884421 s x12 := by
          unfold x12
          refine Keeps.step modPin_keeps rfl ?_
          exact h11
        try clear_value x12
        extract_lets -merge -useContext +onlyGivenNames x14
        have h15 : Keeps 33884421 s x14 := by
          unfold x14
          refine Keeps.ite ?_ ?_
          · refine Keeps.step pinFault_keeps rfl ?_
            refine Keeps.step modPin_keeps rfl ?_
            exact h13
          · exact h13
        try clear_value x14
        extract_lets -merge -useContext +onlyGivenNames x16
        try clear_value x16
        extract_lets -merge -useContext +onlyGivenNames x17
        try clear_value x17
        refine Keeps.step setRf_keeps rfl ?_
        refine Keeps.step setRf_keeps rfl ?_
        exact h15

/-- Writes at most: regs fio evr. -/
theorem openLoadPin_keeps {s b1} : Keeps 64471039 s (openLoadPin s b1) := by
  unfold openLoadPin
  extract_lets -merge -useContext +onlyGivenNames x0
  try clear_value x0
  extract_lets -merge -useContext +onlyGivenNames x1
  have h2 : Keeps 64471039 s x1 := by
    unfold x1
    refine Keeps.step modPin_keeps rfl ?_
    exact Keeps.refl
  try clear_value x1
  refine Keeps.ite ?_ ?_
  · extract_lets -merge -useContext +onlyGivenNames x3
    try clear_value x3
    refine Keeps.ite ?_ ?_
    · refine Keeps.step pinFault_keeps rfl ?_
      refine Keeps.step modPin_keeps rfl ?_
      exact h2
    · exact h2
  · exact h2

/-- Writes at most: regs fio evr. -/
theorem openLoads_keeps {s} : Keeps 64471039 s (openLoads s) := by
  unfold openLoads
  refine Keeps.foldl ?_ _ ?_
  · intro s a0
    refine Keeps.step openLoadPin_keeps rfl ?_
    exact Keeps.refl
  · exact Keeps.refl

/-- Writes at most: regs fio evr sta. -/
theorem setBand_keeps {b0 b1 s} : Keeps 60276735 s (setBand b0 b1 s) := by
  unfold setBand
  extract_lets -merge -useContext +onlyGivenNames x0
  try clear_value x0
  extract_lets -merge -useContext +onlyGivenNames x1
  have h2 : Keeps 60276735 s x1 := by
    unfold x1
    refine Keeps.step emit_keeps rfl ?_
    exact Keeps.refl
  try clear_value x1
  extract_lets -merge -useContext +onlyGivenNames x3
  have h4 : Keeps 60276735 s x3 := by
    unfold x3
    refine Keeps.ite ?_ ?_
    · refine Keeps.step stat_keeps rfl ?_
      exact h2
    · exact h2
  try clear_value x3
  extract_lets -merge -useContext +onlyGivenNames x5
  have h6 : Keeps 60276735 s x5 := by
    unfold x5
    refine Keeps.ite ?_ ?_
    · split
      · refine Keeps.ite ?_ ?_
        · exact h4
        · refine Keeps.step stat_keeps rfl ?_
          exact h4
      · exact h4
    · exact h4
  try clear_value x5
  extract_lets -merge -useContext +onlyGivenNames x9
  try clear_value x9
  refine Keeps.step modGroup_keeps rfl ?_
  exact h6

/-- Writes at most: fio. -/
theorem seenBands_keeps {s} : Keeps 66584575 s (seenBands s) := by
  unfold seenBands
  refine Keeps.foldl ?_ _ ?_
  · intro s a0
    refine Keeps.step modGroup_keeps rfl ?_
    exact Keeps.refl
  · exact Keeps.refl

/-- Writes at most: sent cand pwr tri prg frc vm xch regs rings lat fio snu evr sta upd lnk. -/
theorem enterUnpowered_keeps {b0 s} : Keeps 33655069 s (enterUnpowered b0 s) := by
  unfold enterUnpowered
  extract_lets -merge -useContext +onlyGivenNames x0
  have h1 : Keeps 33655069 s x0 := by
    unfold x0
    refine Keeps.foldl ?_ _ ?_
    · intro s a2
      refine Keeps.ite ?_ ?_
      · refine Keeps.step emptyFilter_keeps rfl ?_
        exact Keeps.refl
      · exact Keeps.refl
    · exact Keeps.refl
  try clear_value x0
  extract_lets -merge -useContext +onlyGivenNames x3
  have h4 : Keeps 33655069 s x3 := by
    unfold x3
    refine Keeps.step pinsOff_keeps rfl ?_
    refine Keeps.step setBand_keeps rfl ?_
    exact h1
  try clear_value x3
  refine Keeps.step modSnu_keeps rfl ?_
  refine Keeps.step dropK_keeps rfl ?_
  exact h4

/-- Writes at most: regs fio snu evr sta. -/
theorem leaveUnpowered_keeps {b0 b1 s} : Keeps 59228159 s (leaveUnpowered b0 b1 s) := by
  unfold leaveUnpowered
  extract_lets -merge -useContext +onlyGivenNames x0
  have h1 : Keeps 59228159 s x0 := by
    unfold x0
    refine Keeps.step setBand_keeps rfl ?_
    exact Keeps.refl
  try clear_value x0
  extract_lets -merge -useContext +onlyGivenNames x2
  have h3 : Keeps 59228159 s x2 := by
    unfold x2
    refine Keeps.step modSnu_keeps rfl ?_
    exact h1
  try clear_value x2
  refine Keeps.foldl ?_ _ ?_
  · intro s a4
    refine Keeps.ite ?_ ?_
    · refine Keeps.step modPin_keeps rfl ?_
      exact Keeps.refl
    · exact Keeps.refl
  · exact h3

/-- Writes at most: sent cand pwr tri prg frc vm xch regs rings lat fio snu evr sta upd lnk. -/
theorem supplyWindow_keeps {b0 b1 s} : Keeps 33655069 s (supplyWindow b0 b1 s) := by
  unfold supplyWindow
  extract_lets -merge -useContext +onlyGivenNames x0
  have h1 : Keeps 33655069 s x0 := by
    unfold x0
    refine Keeps.step setRf_keeps rfl ?_
    exact Keeps.refl
  try clear_value x0
  extract_lets -merge -useContext +onlyGivenNames x2
  have h3 : Keeps 33655069 s x2 := by
    unfold x2
    refine Keeps.step setRf_keeps rfl ?_
    exact h1
  try clear_value x2
  extract_lets -merge -useContext +onlyGivenNames x4
  have h5 : Keeps 33655069 s x4 := by
    unfold x4
    refine Keeps.step modGroup_keeps rfl ?_
    exact h3
  try clear_value x4
  extract_lets -merge -useContext +onlyGivenNames x6
  try clear_value x6
  split
  · refine Keeps.ite ?_ ?_
    · refine Keeps.step leaveUnpowered_keeps rfl ?_
      exact h5
    · exact h5
  · refine Keeps.ite ?_ ?_
    · refine Keeps.step enterUnpowered_keeps rfl ?_
      exact h5
    · refine Keeps.ite ?_ ?_
      · refine Keeps.step setBand_keeps rfl ?_
        exact h5
      · refine Keeps.ite ?_ ?_
        · refine Keeps.step setBand_keeps rfl ?_
          exact h5
        · exact h5
  · refine Keeps.ite ?_ ?_
    · refine Keeps.step enterUnpowered_keeps rfl ?_
      exact h5
    · refine Keeps.ite ?_ ?_
      · refine Keeps.step setBand_keeps rfl ?_
        exact h5
      · refine Keeps.ite ?_ ?_
        · refine Keeps.step setBand_keeps rfl ?_
          exact h5
        · exact h5
  · refine Keeps.ite ?_ ?_
    · refine Keeps.step setBand_keeps rfl ?_
      exact h5
    · refine Keeps.ite ?_ ?_
      · refine Keeps.step setBand_keeps rfl ?_
        exact h5
      · exact h5

/-- Writes at most: sent clk civ cand pwr tri prg frc vm xch regs bus rings lat fio snu evr sta upd lnk. -/
theorem execSupplyWindow_keeps {b0 b1 b2 s} : Answers 33622277 s (execSupplyWindow b0 b1 b2 s) := by
  unfold execSupplyWindow
  extract_lets -merge -useContext +onlyGivenNames x0
  have h1 : Keeps 33622277 s x0 := by
    unfold x0
    refine Keeps.step begin'_keeps rfl ?_
    exact Keeps.refl
  try clear_value x0
  refine Answers.next ?_
  refine Keeps.ite ?_ ?_
  · refine Keeps.step supplyWindow_keeps rfl ?_
    exact h1
  · exact h1

/-- Writes at most: sent clk civ cand pwr tri prg frc vm xch regs bus rings lat fio snu evr sta upd lnk. -/
theorem execUnpowered_keeps {b0 b1 b2 s} : Answers 33622277 s (execUnpowered b0 b1 b2 s) := by
  unfold execUnpowered
  extract_lets -merge -useContext +onlyGivenNames x0
  have h1 : Keeps 33622277 s x0 := by
    unfold x0
    refine Keeps.step begin'_keeps rfl ?_
    exact Keeps.refl
  try clear_value x0
  refine Answers.next ?_
  refine Keeps.ite ?_ ?_
  · refine Keeps.step supplyWindow_keeps rfl ?_
    exact h1
  · exact h1

/-- Writes at most: sent clk civ cand pwr tri prg frc vm xch regs bus rings lat fio snu evr sta upd lnk. -/
theorem execUnpoweredExit_keeps {b0 b1 b2 s} : Answers 33622277 s (execUnpoweredExit b0 b1 b2 s) := by
  unfold execUnpoweredExit
  extract_lets -merge -useContext +onlyGivenNames x0
  have h1 : Keeps 33622277 s x0 := by
    unfold x0
    refine Keeps.step begin'_keeps rfl ?_
    exact Keeps.refl
  try clear_value x0
  refine Answers.next ?_
  refine Keeps.ite ?_ ?_
  · refine Keeps.step supplyWindow_keeps rfl ?_
    exact h1
  · exact h1

/-- Writes at most: sent clk civ cand prg mem bus lnk. -/
theorem execInputFreeze_keeps {b0 s} : Answers 50296261 s (execInputFreeze b0 s) := by
  unfold execInputFreeze
  extract_lets -merge -useContext +onlyGivenNames x0
  have h1 : Keeps 50296261 s x0 := by
    unfold x0
    refine Keeps.step begin'_keeps rfl ?_
    exact Keeps.refl
  try clear_value x0
  refine Answers.next ?_
  refine Keeps.ite ?_ ?_
  · refine Keeps.step freezeInputs_keeps rfl ?_
    exact h1
  · exact h1

end Sys2Proof.Machine
end

