-- ==== Sys2Proof/Laws/InvFieldIn.lean ====
section
/-! SUPPORT. The functions of Machine/FieldIn.lean keep the invariant `Inv`. -/

namespace Sys2Proof.Machine

theorem admitUpdates_inv {b0 s} (hs : Inv s) : Inv (admitUpdates b0 s) := by
  induction b0 generalizing s with
  | zero =>
    rw [admitUpdates.eq_1]
    exact hs
  | succ z ih =>
    rw [admitUpdates.eq_2]
    split
    · rename_i g
      split
      · rename_i y0 y1 q2
        have k : Keeps 66977791 s y1 := KeepsS.elim ringTake_keeps q2
        have h3 : Inv y1 := Inv.keep k rfl hs
        refine ih (Inv.set_lat (fun _ => ?_) h3)
        simp only [List.length_append, List.length_cons, List.length_nil, k.lat rfl]
        omega
      · exact hs
    · exact hs

theorem postUpdate_inv {b0 b1 b2 s} (hs : Inv s) : Inv (postUpdate b0 b1 b2 s) := by
  unfold postUpdate
  refine Inv.ite ?_ ?_
  · refine vitalFault_inv ?_
    exact hs
  · refine Inv.keep fireRing_keeps rfl ?_
    refine admitUpdates_inv ?_
    refine Inv.keep ringPush_keeps rfl ?_
    exact hs

theorem pinUpdate_inv {b0 s} (hs : Inv s) : Inv (pinUpdate b0 s) := by
  unfold pinUpdate
  refine Inv.ite ?_ ?_
  · extract_lets -merge -useContext +onlyGivenNames x0
    try clear_value x0
    extract_lets -merge -useContext +onlyGivenNames x1
    try clear_value x1
    refine postUpdate_inv ?_
    refine Inv.keep modPin_keeps rfl ?_
    exact hs
  · exact hs

theorem inputRecord_inv {b0 b1 b2 b3 b4 b5 s} (hs : Inv s) : Inv (inputRecord b0 b1 b2 b3 b4 b5 s) := by
  unfold inputRecord
  extract_lets -merge -useContext +onlyGivenNames x0
  try clear_value x0
  extract_lets -merge -useContext +onlyGivenNames x1
  try clear_value x1
  extract_lets -merge -useContext +onlyGivenNames x2
  have h3 : Inv x2 := by
    unfold x2
    refine Inv.keep fieldLog_keeps rfl ?_
    refine Inv.keep (wr_fio (m := 66584575) rfl) rfl ?_
    exact hs
  try clear_value x2
  extract_lets -merge -useContext +onlyGivenNames x4
  try clear_value x4
  refine Inv.ite ?_ ?_
  · extract_lets -merge -useContext +onlyGivenNames x5
    try clear_value x5
    refine Inv.ite ?_ ?_
    · refine ringOverflow_inv ?_
      exact h3
    · refine Inv.keep fireRing_keeps rfl ?_
      refine Inv.keep ringPush_keeps rfl ?_
      exact h3
  · exact h3

theorem execInputCrossing_inv {b0 b1 b2 b3 b4 s} (hs : Inv s) : InvA (execInputCrossing b0 b1 b2 b3 b4 s) := by
  unfold execInputCrossing
  extract_lets -merge -useContext +onlyGivenNames x0
  have h1 : Inv x0 := by
    unfold x0
    refine begin'_inv ?_
    exact hs
  try clear_value x0
  extract_lets -merge -useContext +onlyGivenNames x2
  try clear_value x2
  extract_lets -merge -useContext +onlyGivenNames x3
  try clear_value x3
  refine InvA.next ?_
  refine Inv.ite ?_ ?_
  · exact h1
  · extract_lets -merge -useContext +onlyGivenNames x4
    try clear_value x4
    extract_lets -merge -useContext +onlyGivenNames x5
    try clear_value x5
    extract_lets -merge -useContext +onlyGivenNames x6
    try clear_value x6
    extract_lets -merge -useContext +onlyGivenNames x7
    have h8 : Inv x7 := by
      unfold x7
      refine Inv.keep modPin_keeps rfl ?_
      exact h1
    try clear_value x7
    refine Inv.ite ?_ ?_
    · exact h8
    · refine Inv.ite ?_ ?_
      · refine unitDisagrees_inv ?_
        exact h8
      · extract_lets -merge -useContext +onlyGivenNames x9
        have h10 : Inv x9 := by
          unfold x9
          refine Inv.keep modPin_keeps rfl ?_
          exact h8
        try clear_value x9
        refine inputRecord_inv ?_
        exact h10

theorem confirmRun_inv {b0 s} (hs : Inv s) : Inv (confirmRun b0 s) := by
  unfold confirmRun
  extract_lets -merge -useContext +onlyGivenNames x0
  try clear_value x0
  extract_lets -merge -useContext +onlyGivenNames x1
  try clear_value x1
  extract_lets -merge -useContext +onlyGivenNames x2
  try clear_value x2
  extract_lets -merge -useContext +onlyGivenNames x3
  have h4 : Inv x3 := by
    unfold x3
    refine Inv.keep modPin_keeps rfl ?_
    exact hs
  try clear_value x3
  extract_lets -merge -useContext +onlyGivenNames x5
  have h6 : Inv x5 := by
    unfold x5
    refine Inv.ite ?_ ?_
    · refine emit_inv ?_
      exact h4
    · exact h4
  try clear_value x5
  refine Inv.ite ?_ ?_
  · extract_lets -merge -useContext +onlyGivenNames x7
    have h8 : Inv x7 := by
      unfold x7
      refine inputRecord_inv ?_
      exact h6
    try clear_value x7
    refine pinUpdate_inv ?_
    refine Inv.keep fireEdge_keeps rfl ?_
    exact h8
  · refine Inv.ite ?_ ?_
    · refine pinUpdate_inv ?_
      exact h6
    · exact h6

theorem execConfirmedChange_inv {b0 b1 s} (hs : Inv s) : InvA (execConfirmedChange b0 b1 s) := by
  unfold execConfirmedChange
  extract_lets -merge -useContext +onlyGivenNames x0
  have h1 : Inv x0 := by
    unfold x0
    refine begin'_inv ?_
    exact hs
  try clear_value x0
  extract_lets -merge -useContext +onlyGivenNames x2
  try clear_value x2
  refine InvA.next ?_
  refine Inv.ite ?_ ?_
  · refine confirmRun_inv ?_
    exact h1
  · exact h1

theorem pinFault_inv {b0 b1 b2 b3 b4 s} (hs : Inv s) : Inv (pinFault b0 b1 b2 b3 b4 s) := by
  unfold pinFault
  refine emit_inv ?_
  exact hs

theorem emptyFilter_inv {b0 s} (hs : Inv s) : Inv (emptyFilter b0 s) := by
  unfold emptyFilter
  extract_lets -merge -useContext +onlyGivenNames x0
  try clear_value x0
  extract_lets -merge -useContext +onlyGivenNames x1
  try clear_value x1
  extract_lets -merge -useContext +onlyGivenNames x2
  have h3 : Inv x2 := by
    unfold x2
    refine Inv.keep modPin_keeps rfl ?_
    exact hs
  try clear_value x2
  refine Inv.ite ?_ ?_
  · refine pinUpdate_inv ?_
    exact h3
  · exact h3

theorem execInBand_inv {b0 b1 s} (hs : Inv s) : InvA (execInBand b0 b1 s) := by
  unfold execInBand
  extract_lets -merge -useContext +onlyGivenNames x0
  have h1 : Inv x0 := by
    unfold x0
    refine begin'_inv ?_
    exact hs
  try clear_value x0
  extract_lets -merge -useContext +onlyGivenNames x2
  try clear_value x2
  refine InvA.next ?_
  refine Inv.ite ?_ ?_
  · extract_lets -merge -useContext +onlyGivenNames x3
    have h4 : Inv x3 := by
      unfold x3
      refine pinFault_inv ?_
      refine emptyFilter_inv ?_
      exact h1
    try clear_value x3
    refine Inv.keep modPin_keeps rfl ?_
    exact h4
  · exact h1

theorem execCouplerLost_inv {b0 b1 s} (hs : Inv s) : InvA (execCouplerLost b0 b1 s) := by
  unfold execCouplerLost
  extract_lets -merge -useContext +onlyGivenNames x0
  have h1 : Inv x0 := by
    unfold x0
    refine begin'_inv ?_
    exact hs
  try clear_value x0
  extract_lets -merge -useContext +onlyGivenNames x2
  try clear_value x2
  refine InvA.next ?_
  refine Inv.ite ?_ ?_
  · extract_lets -merge -useContext +onlyGivenNames x3
    have h4 : Inv x3 := by
      unfold x3
      refine Inv.ite ?_ ?_
      · refine emptyFilter_inv ?_
        exact h1
      · exact h1
    try clear_value x3
    refine pinFault_inv ?_
    refine Inv.keep modPin_keeps rfl ?_
    exact h4
  · exact h1

theorem stuckOn_inv {b0 b1 s} (hs : Inv s) : Inv (stuckOn b0 b1 s) := by
  unfold stuckOn
  refine Inv.ite ?_ ?_
  · exact hs
  · extract_lets -merge -useContext +onlyGivenNames x0
    have h1 : Inv x0 := by
      unfold x0
      refine Inv.keep modPin_keeps rfl ?_
      exact hs
    try clear_value x0
    refine groupFault_inv ?_
    refine pinFault_inv ?_
    refine Inv.keep pinStat_keeps rfl ?_
    exact h1

theorem crossFault_inv {b0 b1 b2 s} (hs : Inv s) : Inv (crossFault b0 b1 b2 s) := by
  unfold crossFault
  extract_lets -merge -useContext +onlyGivenNames x0
  have h1 : Inv x0 := by
    unfold x0
    refine Inv.keep modPin_keeps rfl ?_
    exact hs
  try clear_value x0
  extract_lets -merge -useContext +onlyGivenNames x2
  have h3 : Inv x2 := by
    unfold x2
    refine Inv.keep modPin_keeps rfl ?_
    exact h1
  try clear_value x2
  extract_lets -merge -useContext +onlyGivenNames x4
  have h5 : Inv x4 := by
    unfold x4
    refine pinFault_inv ?_
    refine Inv.keep pinStat_keeps rfl ?_
    refine Inv.keep pinStat_keeps rfl ?_
    exact h3
  try clear_value x4
  extract_lets -merge -useContext +onlyGivenNames x6
  try clear_value x6
  refine groupFault_inv ?_
  exact h5

theorem offCheck_inv {b0 b1 s} (hs : Inv s) : Inv (offCheck b0 b1 s) := by
  unfold offCheck
  extract_lets -merge -useContext +onlyGivenNames x0
  try clear_value x0
  refine Inv.ite ?_ ?_
  · refine Inv.keep modPin_keeps rfl ?_
    exact hs
  · refine Inv.ite ?_ ?_
    · refine Inv.keep modPin_keeps rfl ?_
      exact hs
    · split
      · refine crossFault_inv ?_
        exact hs
      · refine Inv.ite ?_ ?_
        · exact hs
        · extract_lets -merge -useContext +onlyGivenNames x3
          try clear_value x3
          extract_lets -merge -useContext +onlyGivenNames x4
          have h5 : Inv x4 := by
            unfold x4
            refine Inv.keep modPin_keeps rfl ?_
            exact hs
          try clear_value x4
          refine Inv.ite ?_ ?_
          · refine stuckOn_inv ?_
            exact h5
          · exact h5

theorem execFieldStatus_inv {b0 b1 b2 s} (hs : Inv s) : InvA (execFieldStatus b0 b1 b2 s) := by
  unfold execFieldStatus
  extract_lets -merge -useContext +onlyGivenNames x0
  have h1 : Inv x0 := by
    unfold x0
    refine begin'_inv ?_
    exact hs
  try clear_value x0
  extract_lets -merge -useContext +onlyGivenNames x2
  try clear_value x2
  refine InvA.next ?_
  refine Inv.ite ?_ ?_
  · exact h1
  · refine Inv.ite ?_ ?_
    · refine unitDisagrees_inv ?_
      exact h1
    · refine Inv.ite ?_ ?_
      · refine Inv.keep cnt_keeps rfl ?_
        exact h1
      · extract_lets -merge -useContext +onlyGivenNames x3
        try clear_value x3
        extract_lets -merge -useContext +onlyGivenNames x4
        have h5 : Inv x4 := by
          unfold x4
          refine Inv.ite ?_ ?_
          · refine pinFault_inv ?_
            exact h1
          · exact h1
        try clear_value x4
        extract_lets -merge -useContext +onlyGivenNames x6
        try clear_value x6
        extract_lets -merge -useContext +onlyGivenNames x7
        try clear_value x7
        extract_lets -merge -useContext +onlyGivenNames x8
        have h9 : Inv x8 := by
          unfold x8
          refine Inv.ite ?_ ?_
          · refine Inv.keep modPin_keeps rfl ?_
            exact h5
          · exact h5
        try clear_value x8
        extract_lets -merge -useContext +onlyGivenNames x10
        have h11 : Inv x10 := by
          unfold x10
          refine Inv.ite ?_ ?_
          · refine offCheck_inv ?_
            exact h9
          · exact h9
        try clear_value x10
        extract_lets -merge -useContext +onlyGivenNames x12
        have h13 : Inv x12 := by
          unfold x12
          refine Inv.keep modPin_keeps rfl ?_
          exact h11
        try clear_value x12
        extract_lets -merge -useContext +onlyGivenNames x14
        have h15 : Inv x14 := by
          unfold x14
          refine Inv.ite ?_ ?_
          · refine pinFault_inv ?_
            refine Inv.keep modPin_keeps rfl ?_
            exact h13
          · exact h13
        try clear_value x14
        extract_lets -merge -useContext +onlyGivenNames x16
        try clear_value x16
        extract_lets -merge -useContext +onlyGivenNames x17
        try clear_value x17
        refine Inv.keep setRf_keeps rfl ?_
        refine Inv.keep setRf_keeps rfl ?_
        exact h15

theorem openLoadPin_inv {s b1} (hs : Inv s) : Inv (openLoadPin s b1) := by
  unfold openLoadPin
  extract_lets -merge -useContext +onlyGivenNames x0
  try clear_value x0
  extract_lets -merge -useContext +onlyGivenNames x1
  have h2 : Inv x1 := by
    unfold x1
    refine Inv.keep modPin_keeps rfl ?_
    exact hs
  try clear_value x1
  refine Inv.ite ?_ ?_
  · extract_lets -merge -useContext +onlyGivenNames x3
    try clear_value x3
    refine Inv.ite ?_ ?_
    · refine pinFault_inv ?_
      refine Inv.keep modPin_keeps rfl ?_
      exact h2
    · exact h2
  · exact h2

theorem openLoads_inv {s} (hs : Inv s) : Inv (openLoads s) := by
  unfold openLoads
  refine Inv.foldl ?_ _ ?_
  · intro s a0 hs
    refine openLoadPin_inv ?_
    exact hs
  · exact hs

theorem setBand_inv {b0 b1 s} (hs : Inv s) : Inv (setBand b0 b1 s) := by
  unfold setBand
  extract_lets -merge -useContext +onlyGivenNames x0
  try clear_value x0
  extract_lets -merge -useContext +onlyGivenNames x1
  have h2 : Inv x1 := by
    unfold x1
    refine emit_inv ?_
    exact hs
  try clear_value x1
  extract_lets -merge -useContext +onlyGivenNames x3
  have h4 : Inv x3 := by
    unfold x3
    refine Inv.ite ?_ ?_
    · refine Inv.keep stat_keeps rfl ?_
      exact h2
    · exact h2
  try clear_value x3
  extract_lets -merge -useContext +onlyGivenNames x5
  have h6 : Inv x5 := by
    unfold x5
    refine Inv.ite ?_ ?_
    · split
      · refine Inv.ite ?_ ?_
        · exact h4
        · refine Inv.keep stat_keeps rfl ?_
          exact h4
      · exact h4
    · exact h4
  try clear_value x5
  extract_lets -merge -useContext +onlyGivenNames x9
  try clear_value x9
  refine Inv.keep modGroup_keeps rfl ?_
  exact h6

theorem enterUnpowered_inv {b0 s} (hs : Inv s) : Inv (enterUnpowered b0 s) := by
  unfold enterUnpowered
  extract_lets -merge -useContext +onlyGivenNames x0
  have h1 : Inv x0 := by
    unfold x0
    refine Inv.foldl ?_ _ ?_
    · intro s a2 hs
      refine Inv.ite ?_ ?_
      · refine emptyFilter_inv ?_
        exact hs
      · exact hs
    · exact hs
  try clear_value x0
  extract_lets -merge -useContext +onlyGivenNames x3
  have h4 : Inv x3 := by
    unfold x3
    refine Inv.keep pinsOff_keeps rfl ?_
    refine setBand_inv ?_
    exact h1
  try clear_value x3
  refine Inv.keep modSnu_keeps rfl ?_
  refine Inv.keep dropK_keeps rfl ?_
  exact h4

theorem leaveUnpowered_inv {b0 b1 s} (hs : Inv s) : Inv (leaveUnpowered b0 b1 s) := by
  unfold leaveUnpowered
  extract_lets -merge -useContext +onlyGivenNames x0
  have h1 : Inv x0 := by
    unfold x0
    refine setBand_inv ?_
    exact hs
  try clear_value x0
  extract_lets -merge -useContext +onlyGivenNames x2
  have h3 : Inv x2 := by
    unfold x2
    refine Inv.keep modSnu_keeps rfl ?_
    exact h1
  try clear_value x2
  refine Inv.foldl ?_ _ ?_
  · intro s a4 hs
    refine Inv.ite ?_ ?_
    · refine Inv.keep modPin_keeps rfl ?_
      exact hs
    · exact hs
  · exact h3

theorem supplyWindow_inv {b0 b1 s} (hs : Inv s) : Inv (supplyWindow b0 b1 s) := by
  unfold supplyWindow
  extract_lets -merge -useContext +onlyGivenNames x0
  have h1 : Inv x0 := by
    unfold x0
    refine Inv.keep setRf_keeps rfl ?_
    exact hs
  try clear_value x0
  extract_lets -merge -useContext +onlyGivenNames x2
  have h3 : Inv x2 := by
    unfold x2
    refine Inv.keep setRf_keeps rfl ?_
    exact h1
  try clear_value x2
  extract_lets -merge -useContext +onlyGivenNames x4
  have h5 : Inv x4 := by
    unfold x4
    refine Inv.keep modGroup_keeps rfl ?_
    exact h3
  try clear_value x4
  extract_lets -merge -useContext +onlyGivenNames x6
  try clear_value x6
  split
  · refine Inv.ite ?_ ?_
    · refine leaveUnpowered_inv ?_
      exact h5
    · exact h5
  · refine Inv.ite ?_ ?_
    · refine enterUnpowered_inv ?_
      exact h5
    · refine Inv.ite ?_ ?_
      · refine setBand_inv ?_
        exact h5
      · refine Inv.ite ?_ ?_
        · refine setBand_inv ?_
          exact h5
        · exact h5
  · refine Inv.ite ?_ ?_
    · refine enterUnpowered_inv ?_
      exact h5
    · refine Inv.ite ?_ ?_
      · refine setBand_inv ?_
        exact h5
      · refine Inv.ite ?_ ?_
        · refine setBand_inv ?_
          exact h5
        · exact h5
  · refine Inv.ite ?_ ?_
    · refine setBand_inv ?_
      exact h5
    · refine Inv.ite ?_ ?_
      · refine setBand_inv ?_
        exact h5
      · exact h5

theorem execSupplyWindow_inv {b0 b1 b2 s} (hs : Inv s) : InvA (execSupplyWindow b0 b1 b2 s) := by
  unfold execSupplyWindow
  extract_lets -merge -useContext +onlyGivenNames x0
  have h1 : Inv x0 := by
    unfold x0
    refine begin'_inv ?_
    exact hs
  try clear_value x0
  refine InvA.next ?_
  refine Inv.ite ?_ ?_
  · refine supplyWindow_inv ?_
    exact h1
  · exact h1

theorem execUnpowered_inv {b0 b1 b2 s} (hs : Inv s) : InvA (execUnpowered b0 b1 b2 s) := by
  unfold execUnpowered
  extract_lets -merge -useContext +onlyGivenNames x0
  have h1 : Inv x0 := by
    unfold x0
    refine begin'_inv ?_
    exact hs
  try clear_value x0
  refine InvA.next ?_
  refine Inv.ite ?_ ?_
  · refine supplyWindow_inv ?_
    exact h1
  · exact h1

theorem execUnpoweredExit_inv {b0 b1 b2 s} (hs : Inv s) : InvA (execUnpoweredExit b0 b1 b2 s) := by
  unfold execUnpoweredExit
  extract_lets -merge -useContext +onlyGivenNames x0
  have h1 : Inv x0 := by
    unfold x0
    refine begin'_inv ?_
    exact hs
  try clear_value x0
  refine InvA.next ?_
  refine Inv.ite ?_ ?_
  · refine supplyWindow_inv ?_
    exact h1
  · exact h1

theorem execInputFreeze_inv {b0 s} (hs : Inv s) : InvA (execInputFreeze b0 s) := by
  unfold execInputFreeze
  extract_lets -merge -useContext +onlyGivenNames x0
  have h1 : Inv x0 := by
    unfold x0
    refine begin'_inv ?_
    exact hs
  try clear_value x0
  refine InvA.next ?_
  refine Inv.ite ?_ ?_
  · refine freezeInputs_inv ?_
    exact h1
  · exact h1

end Sys2Proof.Machine
end

