-- ==== Sys2Proof/Laws/KeepsFieldOut.lean ====
section
/-! SUPPORT. Frames of the functions of Machine/FieldOut.lean: what each leaves alone, said once. The docstrings name the parts of `State` a function may write; the mask marks all others. -/

namespace Sys2Proof.Machine

/-- Writes at most: sent fio. -/
theorem pinOn_keeps {b0 s} : Keeps 66584573 s (pinOn b0 s) := by
  unfold pinOn
  refine Keeps.step sendPin_keeps rfl ?_
  refine Keeps.step modPin_keeps rfl ?_
  exact Keeps.refl

/-- Writes at most: mem. -/
theorem markForced_keeps {b0 s} : Keeps 67106815 s (markForced b0 s) := by
  induction b0 generalizing s with
  | nil =>
    rw [markForced.eq_1]
    exact Keeps.refl
  | cons z zs ih =>
    rw [markForced.eq_2]
    refine Keeps.app ih ?_
    refine Keeps.ite ?_ ?_
    · exact Keeps.refl
    · refine Keeps.app (wr_mem rfl) ?_
      exact Keeps.refl

/-- Writes at most: regs fio evr. -/
theorem unlatchPins_keeps {s} : Keeps 64471039 s (unlatchPins s) := by
  unfold unlatchPins
  refine Keeps.app (wr_fio rfl) ?_
  refine Keeps.foldl ?_ _ ?_
  · intro s a0
    refine Keeps.ite ?_ ?_
    · extract_lets -merge -useContext +onlyGivenNames x1
      have h2 : Keeps 64471039 s x1 := by
        unfold x1
        refine Keeps.ite ?_ ?_
        · refine Keeps.step pinFault_keeps rfl ?_
          exact Keeps.refl
        · exact Keeps.refl
      try clear_value x1
      extract_lets -merge -useContext +onlyGivenNames x3
      have h4 : Keeps 64471039 s x3 := by
        unfold x3
        refine Keeps.step cnt_keeps rfl ?_
        refine Keeps.step modPin_keeps rfl ?_
        exact h2
      try clear_value x3
      refine Keeps.step emit_keeps rfl ?_
      exact h4
    · exact Keeps.refl
  · exact Keeps.refl

/-- Writes at most: fio. -/
theorem permitFlags_keeps {s} : Keeps 66584575 s (permitFlags s) := by
  unfold permitFlags
  refine Keeps.foldl ?_ _ ?_
  · intro s a0
    refine Keeps.step modPin_keeps rfl ?_
    exact Keeps.refl
  · exact Keeps.refl

/-- Writes at most: sent fio. -/
theorem switchOffs_keeps {s} : Keeps 66584573 s (switchOffs s) := by
  unfold switchOffs
  refine Keeps.foldl ?_ _ ?_
  · intro s a0
    refine Keeps.ite ?_ ?_
    · refine Keeps.step pinOff_keeps rfl ?_
      exact Keeps.refl
    · exact Keeps.refl
  · exact Keeps.refl

/-- Writes at most: sent fio. -/
theorem switchOns_keeps {s} : Keeps 66584573 s (switchOns s) := by
  unfold switchOns
  extract_lets -merge -useContext +onlyGivenNames x0
  try clear_value x0
  refine Keeps.ite ?_ ?_
  · refine Keeps.foldl ?_ _ ?_
    · intro s a1
      refine Keeps.step pinOn_keeps rfl ?_
      exact Keeps.refl
    · exact Keeps.refl
  · split
    · exact Keeps.refl
    · refine Keeps.foldl ?_ _ ?_
      · intro s a5
        refine Keeps.step modPin_keeps rfl ?_
        exact Keeps.refl
      · extract_lets -merge -useContext +onlyGivenNames x6
        have h7 : Keeps 66584573 s x6 := by
          unfold x6
          refine Keeps.step pinOn_keeps rfl ?_
          exact Keeps.refl
        try clear_value x6
        refine Keeps.app (wr_fio rfl) ?_
        exact h7

/-- Writes at most: sent regs fio evr. -/
theorem sequencerApply_keeps {s} : Keeps 64471037 s (sequencerApply s) := by
  unfold sequencerApply
  refine Keeps.step switchOns_keeps rfl ?_
  refine Keeps.step switchOffs_keeps rfl ?_
  refine Keeps.step permitFlags_keeps rfl ?_
  refine Keeps.step unlatchPins_keeps rfl ?_
  exact Keeps.refl

/-- Writes at most: sent cand pwr tri prg frc mem vm xch regs rings fio snu evr upd lnk. -/
theorem applyOutputs_keeps {b0 s} : Keeps 38109469 s (applyOutputs b0 s) := by
  unfold applyOutputs
  extract_lets -merge -useContext +onlyGivenNames x0
  try clear_value x0
  extract_lets -merge -useContext +onlyGivenNames x1
  have h2 : Keeps 38109469 s x1 := by
    unfold x1
    refine Keeps.step markForced_keeps rfl ?_
    refine Keeps.app (wr_prg rfl) ?_
    exact Keeps.refl
  try clear_value x1
  refine Keeps.ite ?_ ?_
  · refine Keeps.app (wr_fio rfl) ?_
    exact h2
  · refine Keeps.ite ?_ ?_
    · refine Keeps.step unitDisagrees_keeps rfl ?_
      refine Keeps.app (wr_fio rfl) ?_
      exact h2
    · refine Keeps.step sequencerApply_keeps rfl ?_
      exact h2

/-- Writes at most: sent clk civ cand pwr tri prg frc mem vm xch regs bus rings fio snu evr upd lnk. -/
theorem execOutputApply_keeps {b0 s} : Answers 38076677 s (execOutputApply b0 s) := by
  unfold execOutputApply
  extract_lets -merge -useContext +onlyGivenNames x0
  have h1 : Keeps 38076677 s x0 := by
    unfold x0
    refine Keeps.step begin'_keeps rfl ?_
    exact Keeps.refl
  try clear_value x0
  refine Answers.next ?_
  refine Keeps.ite ?_ ?_
  · refine Keeps.step applyOutputs_keeps rfl ?_
    exact h1
  · exact h1

/-- Writes at most: sent fio. -/
theorem permitFollow_keeps {s} : Keeps 66584573 s (permitFollow s) := by
  unfold permitFollow
  refine Keeps.ite ?_ ?_
  · refine Keeps.app (wr_fio rfl) ?_
    exact Keeps.refl
  · refine Keeps.step permitFlags_keeps rfl ?_
    refine Keeps.foldl ?_ _ ?_
    · intro s a0
      refine Keeps.ite ?_ ?_
      · refine Keeps.step pinOff_keeps rfl ?_
        exact Keeps.refl
      · exact Keeps.refl
    · exact Keeps.refl

/-- Writes at most: sent clk civ cand prg bus fio lnk. -/
theorem execStaggeredSwitchOn_keeps {b0 b1 s} : Answers 49774021 s (execStaggeredSwitchOn b0 b1 s) := by
  unfold execStaggeredSwitchOn
  extract_lets -merge -useContext +onlyGivenNames x0
  have h1 : Keeps 49774021 s x0 := by
    unfold x0
    refine Keeps.step begin'_keeps rfl ?_
    exact Keeps.refl
  try clear_value x0
  extract_lets -merge -useContext +onlyGivenNames x2
  try clear_value x2
  refine Answers.next ?_
  refine Keeps.ite ?_ ?_
  · extract_lets -merge -useContext +onlyGivenNames x3
    try clear_value x3
    extract_lets -merge -useContext +onlyGivenNames x4
    have h5 : Keeps 49774021 s x4 := by
      unfold x4
      refine Keeps.app (wr_fio rfl) ?_
      exact h1
    try clear_value x4
    refine Keeps.ite ?_ ?_
    · refine Keeps.step pinOn_keeps rfl ?_
      exact h5
    · refine Keeps.step modPin_keeps rfl ?_
      exact h5
  · exact h1

/-- Writes at most: sent fio. -/
theorem startTest_keeps {b0 s} : Keeps 66584573 s (startTest b0 s) := by
  unfold startTest
  extract_lets -merge -useContext +onlyGivenNames x0
  try clear_value x0
  refine Keeps.ite ?_ ?_
  · refine Keeps.step sendPin_keeps rfl ?_
    refine Keeps.step modPin_keeps rfl ?_
    exact Keeps.refl
  · refine Keeps.ite ?_ ?_
    · refine Keeps.step sendPin_keeps rfl ?_
      refine Keeps.step modPin_keeps rfl ?_
      exact Keeps.refl
    · exact Keeps.refl

/-- Writes at most: sent clk civ cand prg bus fio lnk. -/
theorem execTestSlot_keeps {b0 b1 s} : Answers 49774021 s (execTestSlot b0 b1 s) := by
  unfold execTestSlot
  extract_lets -merge -useContext +onlyGivenNames x0
  have h1 : Keeps 49774021 s x0 := by
    unfold x0
    refine Keeps.step begin'_keeps rfl ?_
    exact Keeps.refl
  try clear_value x0
  extract_lets -merge -useContext +onlyGivenNames x2
  try clear_value x2
  refine Answers.next ?_
  refine Keeps.ite ?_ ?_
  · refine Keeps.ite ?_ ?_
    · refine Keeps.step modPin_keeps rfl ?_
      exact h1
    · refine Keeps.step startTest_keeps rfl ?_
      exact h1
  · exact h1

/-- Writes at most: sent regs fio snu evr sta. -/
theorem watchFalls_keeps {b0 b1 s} : Keeps 59228157 s (watchFalls b0 b1 s) := by
  induction b1 generalizing b0 s with
  | nil =>
    rw [watchFalls.eq_1]
    exact Keeps.refl
  | cons z zs ih =>
    rw [watchFalls.eq_2]
    refine Keeps.app ih ?_
    refine Keeps.ite ?_ ?_
    · refine Keeps.step crossFault_keeps rfl ?_
      exact Keeps.refl
    · exact Keeps.refl

/-- Writes at most: sent clk civ cand prg regs bus fio snu evr sta lnk. -/
theorem execOffPulseEnd_keeps {b0 b1 b2 s} : Answers 42417605 s (execOffPulseEnd b0 b1 b2 s) := by
  unfold execOffPulseEnd
  extract_lets -merge -useContext +onlyGivenNames x0
  have h1 : Keeps 42417605 s x0 := by
    unfold x0
    refine Keeps.step begin'_keeps rfl ?_
    exact Keeps.refl
  try clear_value x0
  extract_lets -merge -useContext +onlyGivenNames x2
  try clear_value x2
  refine Answers.next ?_
  refine Keeps.ite ?_ ?_
  · extract_lets -merge -useContext +onlyGivenNames x3
    try clear_value x3
    extract_lets -merge -useContext +onlyGivenNames x4
    have h5 : Keeps 42417605 s x4 := by
      unfold x4
      refine Keeps.step modPin_keeps rfl ?_
      exact h1
    try clear_value x4
    extract_lets -merge -useContext +onlyGivenNames x6
    have h7 : Keeps 42417605 s x6 := by
      unfold x6
      refine Keeps.step watchFalls_keeps rfl ?_
      exact h5
    try clear_value x6
    refine Keeps.ite ?_ ?_
    · exact h7
    · extract_lets -merge -useContext +onlyGivenNames x8
      have h9 : Keeps 42417605 s x8 := by
        unfold x8
        refine Keeps.step pinStat_keeps rfl ?_
        refine Keeps.step cnt_keeps rfl ?_
        exact h7
      try clear_value x8
      split
      · refine Keeps.step crossFault_keeps rfl ?_
        exact h9
      · refine Keeps.step stuckOn_keeps rfl ?_
        exact h9
  · exact h1

/-- Writes at most: sent regs fio snu evr sta. -/
theorem lightRises_keeps {b0 b1 s} : Keeps 59228157 s (lightRises b0 b1 s) := by
  induction b1 generalizing b0 s with
  | nil =>
    rw [lightRises.eq_1]
    exact Keeps.refl
  | cons z zs ih =>
    rw [lightRises.eq_2]
    refine Keeps.app ih ?_
    refine Keeps.ite ?_ ?_
    · refine Keeps.step crossFault_keeps rfl ?_
      exact Keeps.refl
    · exact Keeps.refl

/-- Writes at most: sent clk civ cand prg regs bus fio snu evr sta lnk. -/
theorem execLightTestEnd_keeps {b0 b1 b2 b3 s} : Answers 42417605 s (execLightTestEnd b0 b1 b2 b3 s) := by
  unfold execLightTestEnd
  extract_lets -merge -useContext +onlyGivenNames x0
  have h1 : Keeps 42417605 s x0 := by
    unfold x0
    refine Keeps.step begin'_keeps rfl ?_
    exact Keeps.refl
  try clear_value x0
  extract_lets -merge -useContext +onlyGivenNames x2
  try clear_value x2
  refine Answers.next ?_
  refine Keeps.ite ?_ ?_
  · extract_lets -merge -useContext +onlyGivenNames x3
    try clear_value x3
    extract_lets -merge -useContext +onlyGivenNames x4
    try clear_value x4
    extract_lets -merge -useContext +onlyGivenNames x5
    have h6 : Keeps 42417605 s x5 := by
      unfold x5
      refine Keeps.step modPin_keeps rfl ?_
      exact h1
    try clear_value x5
    extract_lets -merge -useContext +onlyGivenNames x7
    have h8 : Keeps 42417605 s x7 := by
      unfold x7
      refine Keeps.ite ?_ ?_
      · exact h6
      · refine Keeps.step pinStat_keeps rfl ?_
        refine Keeps.step pinStat_keeps rfl ?_
        refine Keeps.step cnt_keeps rfl ?_
        exact h6
    try clear_value x7
    extract_lets -merge -useContext +onlyGivenNames x9
    have h10 : Keeps 42417605 s x9 := by
      unfold x9
      refine Keeps.ite ?_ ?_
      · refine Keeps.step pinFault_keeps rfl ?_
        exact h8
      · exact h8
    try clear_value x9
    refine Keeps.step lightRises_keeps rfl ?_
    exact h10
  · exact h1

/-- Writes at most: sent clk civ cand prg bus fio lnk. -/
theorem execCrossWatchEnd_keeps {b0 b1 s} : Answers 49774021 s (execCrossWatchEnd b0 b1 s) := by
  unfold execCrossWatchEnd
  extract_lets -merge -useContext +onlyGivenNames x0
  have h1 : Keeps 49774021 s x0 := by
    unfold x0
    refine Keeps.step begin'_keeps rfl ?_
    exact Keeps.refl
  try clear_value x0
  refine Answers.next ?_
  split
  · refine Keeps.ite ?_ ?_
    · refine Keeps.step modPin_keeps rfl ?_
      exact h1
    · exact h1
  · exact h1

/-- Writes at most: sent regs fio evr sta. -/
theorem latchOff_keeps {b0 s} : Keeps 60276733 s (latchOff b0 s) := by
  unfold latchOff
  extract_lets -merge -useContext +onlyGivenNames x0
  have h1 : Keeps 60276733 s x0 := by
    unfold x0
    refine Keeps.step pinOff_keeps rfl ?_
    refine Keeps.step pinStat_keeps rfl ?_
    refine Keeps.step cnt_keeps rfl ?_
    exact Keeps.refl
  try clear_value x0
  refine Keeps.step pinFault_keeps rfl ?_
  refine Keeps.step modPin_keeps rfl ?_
  exact h1

/-- Writes at most: sent clk civ cand prg regs bus fio evr sta lnk. -/
theorem execOverload_keeps {b0 b1 b2 s} : Answers 43466181 s (execOverload b0 b1 b2 s) := by
  unfold execOverload
  extract_lets -merge -useContext +onlyGivenNames x0
  have h1 : Keeps 43466181 s x0 := by
    unfold x0
    refine Keeps.step begin'_keeps rfl ?_
    exact Keeps.refl
  try clear_value x0
  extract_lets -merge -useContext +onlyGivenNames x2
  try clear_value x2
  refine Answers.next ?_
  refine Keeps.ite ?_ ?_
  · refine Keeps.step latchOff_keeps rfl ?_
    exact h1
  · exact h1

/-- Writes at most: sent clk civ cand prg regs bus fio evr sta lnk. -/
theorem execGroupOverload_keeps {b0 b1 b2 s} : Answers 43466181 s (execGroupOverload b0 b1 b2 s) := by
  unfold execGroupOverload
  extract_lets -merge -useContext +onlyGivenNames x0
  have h1 : Keeps 43466181 s x0 := by
    unfold x0
    refine Keeps.step begin'_keeps rfl ?_
    exact Keeps.refl
  try clear_value x0
  refine Answers.next ?_
  refine Keeps.ite ?_ ?_
  · extract_lets -merge -useContext +onlyGivenNames x2
    have h3 : Keeps 43466181 s x2 := by
      unfold x2
      refine Keeps.step modGroup_keeps rfl ?_
      exact h1
    try clear_value x2
    refine Keeps.ite ?_ ?_
    · split
      · refine Keeps.step latchOff_keeps rfl ?_
        exact h3
      · exact h3
    · exact h3
  · exact h1

/-- Writes at most: sent clk civ cand prg regs bus fio evr sta lnk. -/
theorem execDriveFail_keeps {b0 b1 s} : Answers 43466181 s (execDriveFail b0 b1 s) := by
  unfold execDriveFail
  extract_lets -merge -useContext +onlyGivenNames x0
  have h1 : Keeps 43466181 s x0 := by
    unfold x0
    refine Keeps.step begin'_keeps rfl ?_
    exact Keeps.refl
  try clear_value x0
  extract_lets -merge -useContext +onlyGivenNames x2
  try clear_value x2
  refine Answers.next ?_
  split
  · refine Keeps.ite ?_ ?_
    · refine Keeps.step pinFault_keeps rfl ?_
      refine Keeps.step pinStat_keeps rfl ?_
      refine Keeps.step modPin_keeps rfl ?_
      exact h1
    · exact h1
  · exact h1

/-- Writes at most: sent clk civ cand prg regs bus fio evr lnk. -/
theorem execRefreshFrame_keeps {b0 b1 b2 s} : Answers 47660485 s (execRefreshFrame b0 b1 b2 s) := by
  unfold execRefreshFrame
  extract_lets -merge -useContext +onlyGivenNames x0
  have h1 : Keeps 47660485 s x0 := by
    unfold x0
    refine Keeps.step begin'_keeps rfl ?_
    exact Keeps.refl
  try clear_value x0
  extract_lets -merge -useContext +onlyGivenNames x2
  try clear_value x2
  extract_lets -merge -useContext +onlyGivenNames x3
  try clear_value x3
  refine Answers.next ?_
  refine Keeps.ite ?_ ?_
  · extract_lets -merge -useContext +onlyGivenNames x4
    have h5 : Keeps 47660485 s x4 := by
      unfold x4
      refine Keeps.step sendPin_keeps rfl ?_
      exact h1
    try clear_value x4
    refine Keeps.ite ?_ ?_
    · extract_lets -merge -useContext +onlyGivenNames x6
      have h7 : Keeps 47660485 s x6 := by
        unfold x6
        refine Keeps.ite ?_ ?_
        · refine Keeps.step pinFault_keeps rfl ?_
          exact h5
        · exact h5
      try clear_value x6
      refine Keeps.step modPin_keeps rfl ?_
      exact h7
    · refine Keeps.step cnt_keeps rfl ?_
      exact h5
  · exact h1

/-- Writes at most: sent clk civ cand prg regs bus fio evr lnk. -/
theorem execTimedOut_keeps {b0 b1 s} : Answers 47660485 s (execTimedOut b0 b1 s) := by
  unfold execTimedOut
  extract_lets -merge -useContext +onlyGivenNames x0
  have h1 : Keeps 47660485 s x0 := by
    unfold x0
    refine Keeps.step begin'_keeps rfl ?_
    exact Keeps.refl
  try clear_value x0
  extract_lets -merge -useContext +onlyGivenNames x2
  try clear_value x2
  extract_lets -merge -useContext +onlyGivenNames x3
  try clear_value x3
  refine Answers.next ?_
  refine Keeps.ite ?_ ?_
  · extract_lets -merge -useContext +onlyGivenNames x4
    try clear_value x4
    refine Keeps.step pinFault_keeps rfl ?_
    refine Keeps.step modPin_keeps rfl ?_
    exact h1
  · exact h1

/-- Writes at most: fio. -/
theorem unlatchWrite_keeps {b0 s} : Keeps 66584575 s (unlatchWrite b0 s) := by
  unfold unlatchWrite
  extract_lets -merge -useContext +onlyGivenNames x0
  try clear_value x0
  refine Keeps.step fieldLog_keeps rfl ?_
  refine Keeps.app (wr_fio rfl) ?_
  exact Keeps.refl

/-- Writes at most: sent clk civ cand pwr tri prg frc vm xch regs bus rings fio snu evr upd lnk. -/
theorem execUnlatch_keeps {b0 b1 s} : Answers 38078725 s (execUnlatch b0 b1 s) := by
  unfold execUnlatch
  refine Answers.next ?_
  refine Keeps.app (blockCommand_keeps ?_ rfl) ?_
  · intro s
    refine Keeps.step unlatchWrite_keeps rfl ?_
    exact Keeps.refl
  · refine Keeps.step begin'_keeps rfl ?_
    exact Keeps.refl

/-- Writes at most: prg. -/
theorem cpMark_keeps {b0 s} : Keeps 67108351 s (cpMark b0 s) := by
  unfold cpMark
  refine Keeps.ite ?_ ?_
  · refine Keeps.app (wr_prg rfl) ?_
    exact Keeps.refl
  · refine Keeps.app (wr_prg rfl) ?_
    exact Keeps.refl

/-- Writes at most: sent clk civ cand prg xch bus lnk. -/
theorem execComparePoint_keeps {b0 b1 s} : Answers 50290117 s (execComparePoint b0 b1 s) := by
  unfold execComparePoint
  extract_lets -merge -useContext +onlyGivenNames x0
  have h1 : Keeps 50290117 s x0 := by
    unfold x0
    refine Keeps.step begin'_keeps rfl ?_
    exact Keeps.refl
  try clear_value x0
  refine Answers.next ?_
  refine Keeps.ite ?_ ?_
  · refine Keeps.step firePosition_keeps rfl ?_
    refine Keeps.step cpMark_keeps rfl ?_
    exact h1
  · exact h1

end Sys2Proof.Machine
end

