-- ==== Sys2Proof/Laws/InvFieldOut.lean ====
section
/-! SUPPORT. The functions of Machine/FieldOut.lean keep the invariant `Inv`. -/

namespace Sys2Proof.Machine

theorem markForced_inv {b0 s} (hs : Inv s) : Inv (markForced b0 s) := by
  induction b0 generalizing s with
  | nil =>
    rw [markForced.eq_1]
    exact hs
  | cons z zs ih =>
    rw [markForced.eq_2]
    refine ih ?_
    refine Inv.ite ?_ ?_
    · exact hs
    · refine Inv.set_mem (fun h => ?_) ?_
      · exact storeBytes_wf h.mem
      · exact hs

theorem unlatchPins_inv {s} (hs : Inv s) : Inv (unlatchPins s) := by
  unfold unlatchPins
  refine Inv.keep (wr_fio (m := 66584575) rfl) rfl ?_
  refine Inv.foldl ?_ _ ?_
  · intro s a0 hs
    refine Inv.ite ?_ ?_
    · extract_lets -merge -useContext +onlyGivenNames x1
      have h2 : Inv x1 := by
        unfold x1
        refine Inv.ite ?_ ?_
        · refine pinFault_inv ?_
          exact hs
        · exact hs
      try clear_value x1
      extract_lets -merge -useContext +onlyGivenNames x3
      have h4 : Inv x3 := by
        unfold x3
        refine Inv.keep cnt_keeps rfl ?_
        refine Inv.keep modPin_keeps rfl ?_
        exact h2
      try clear_value x3
      refine emit_inv ?_
      exact h4
    · exact hs
  · exact hs

theorem sequencerApply_inv {s} (hs : Inv s) : Inv (sequencerApply s) := by
  unfold sequencerApply
  refine Inv.keep switchOns_keeps rfl ?_
  refine Inv.keep switchOffs_keeps rfl ?_
  refine Inv.keep permitFlags_keeps rfl ?_
  refine unlatchPins_inv ?_
  exact hs

theorem applyOutputs_inv {b0 s} (hs : Inv s) : Inv (applyOutputs b0 s) := by
  unfold applyOutputs
  extract_lets -merge -useContext +onlyGivenNames x0
  try clear_value x0
  extract_lets -merge -useContext +onlyGivenNames x1
  have h2 : Inv x1 := by
    unfold x1
    refine markForced_inv ?_
    refine Inv.keep (wr_prg (m := 67108351) rfl) rfl ?_
    exact hs
  try clear_value x1
  refine Inv.ite ?_ ?_
  · refine Inv.keep (wr_fio (m := 66584575) rfl) rfl ?_
    exact h2
  · refine Inv.ite ?_ ?_
    · refine unitDisagrees_inv ?_
      refine Inv.keep (wr_fio (m := 66584575) rfl) rfl ?_
      exact h2
    · refine sequencerApply_inv ?_
      exact h2

theorem execOutputApply_inv {b0 s} (hs : Inv s) : InvA (execOutputApply b0 s) := by
  unfold execOutputApply
  extract_lets -merge -useContext +onlyGivenNames x0
  have h1 : Inv x0 := by
    unfold x0
    refine begin'_inv ?_
    exact hs
  try clear_value x0
  refine InvA.next ?_
  refine Inv.ite ?_ ?_
  · refine applyOutputs_inv ?_
    exact h1
  · exact h1

theorem execStaggeredSwitchOn_inv {b0 b1 s} (hs : Inv s) : InvA (execStaggeredSwitchOn b0 b1 s) := by
  unfold execStaggeredSwitchOn
  extract_lets -merge -useContext +onlyGivenNames x0
  have h1 : Inv x0 := by
    unfold x0
    refine begin'_inv ?_
    exact hs
  try clear_value x0
  extract_lets -merge -useContext +onlyGivenNames x2
  try clear_value x2
  refine InvA.next ?_
  refine Inv.ite ?_ ?_
  · extract_lets -merge -useContext +onlyGivenNames x3
    try clear_value x3
    extract_lets -merge -useContext +onlyGivenNames x4
    have h5 : Inv x4 := by
      unfold x4
      refine Inv.keep (wr_fio (m := 66584575) rfl) rfl ?_
      exact h1
    try clear_value x4
    refine Inv.ite ?_ ?_
    · refine Inv.keep pinOn_keeps rfl ?_
      exact h5
    · refine Inv.keep modPin_keeps rfl ?_
      exact h5
  · exact h1

theorem execTestSlot_inv {b0 b1 s} (hs : Inv s) : InvA (execTestSlot b0 b1 s) := by
  unfold execTestSlot
  extract_lets -merge -useContext +onlyGivenNames x0
  have h1 : Inv x0 := by
    unfold x0
    refine begin'_inv ?_
    exact hs
  try clear_value x0
  extract_lets -merge -useContext +onlyGivenNames x2
  try clear_value x2
  refine InvA.next ?_
  refine Inv.ite ?_ ?_
  · refine Inv.ite ?_ ?_
    · refine Inv.keep modPin_keeps rfl ?_
      exact h1
    · refine Inv.keep startTest_keeps rfl ?_
      exact h1
  · exact h1

theorem watchFalls_inv {b0 b1 s} (hs : Inv s) : Inv (watchFalls b0 b1 s) := by
  induction b1 generalizing b0 s with
  | nil =>
    rw [watchFalls.eq_1]
    exact hs
  | cons z zs ih =>
    rw [watchFalls.eq_2]
    refine ih ?_
    refine Inv.ite ?_ ?_
    · refine crossFault_inv ?_
      exact hs
    · exact hs

theorem execOffPulseEnd_inv {b0 b1 b2 s} (hs : Inv s) : InvA (execOffPulseEnd b0 b1 b2 s) := by
  unfold execOffPulseEnd
  extract_lets -merge -useContext +onlyGivenNames x0
  have h1 : Inv x0 := by
    unfold x0
    refine begin'_inv ?_
    exact hs
  try clear_value x0
  extract_lets -merge -useContext +onlyGivenNames x2
  try clear_value x2
  refine InvA.next ?_
  refine Inv.ite ?_ ?_
  · extract_lets -merge -useContext +onlyGivenNames x3
    try clear_value x3
    extract_lets -merge -useContext +onlyGivenNames x4
    have h5 : Inv x4 := by
      unfold x4
      refine Inv.keep modPin_keeps rfl ?_
      exact h1
    try clear_value x4
    extract_lets -merge -useContext +onlyGivenNames x6
    have h7 : Inv x6 := by
      unfold x6
      refine watchFalls_inv ?_
      exact h5
    try clear_value x6
    refine Inv.ite ?_ ?_
    · exact h7
    · extract_lets -merge -useContext +onlyGivenNames x8
      have h9 : Inv x8 := by
        unfold x8
        refine Inv.keep pinStat_keeps rfl ?_
        refine Inv.keep cnt_keeps rfl ?_
        exact h7
      try clear_value x8
      split
      · refine crossFault_inv ?_
        exact h9
      · refine stuckOn_inv ?_
        exact h9
  · exact h1

theorem lightRises_inv {b0 b1 s} (hs : Inv s) : Inv (lightRises b0 b1 s) := by
  induction b1 generalizing b0 s with
  | nil =>
    rw [lightRises.eq_1]
    exact hs
  | cons z zs ih =>
    rw [lightRises.eq_2]
    refine ih ?_
    refine Inv.ite ?_ ?_
    · refine crossFault_inv ?_
      exact hs
    · exact hs

theorem execLightTestEnd_inv {b0 b1 b2 b3 s} (hs : Inv s) : InvA (execLightTestEnd b0 b1 b2 b3 s) := by
  unfold execLightTestEnd
  extract_lets -merge -useContext +onlyGivenNames x0
  have h1 : Inv x0 := by
    unfold x0
    refine begin'_inv ?_
    exact hs
  try clear_value x0
  extract_lets -merge -useContext +onlyGivenNames x2
  try clear_value x2
  refine InvA.next ?_
  refine Inv.ite ?_ ?_
  · extract_lets -merge -useContext +onlyGivenNames x3
    try clear_value x3
    extract_lets -merge -useContext +onlyGivenNames x4
    try clear_value x4
    extract_lets -merge -useContext +onlyGivenNames x5
    have h6 : Inv x5 := by
      unfold x5
      refine Inv.keep modPin_keeps rfl ?_
      exact h1
    try clear_value x5
    extract_lets -merge -useContext +onlyGivenNames x7
    have h8 : Inv x7 := by
      unfold x7
      refine Inv.ite ?_ ?_
      · exact h6
      · refine Inv.keep pinStat_keeps rfl ?_
        refine Inv.keep pinStat_keeps rfl ?_
        refine Inv.keep cnt_keeps rfl ?_
        exact h6
    try clear_value x7
    extract_lets -merge -useContext +onlyGivenNames x9
    have h10 : Inv x9 := by
      unfold x9
      refine Inv.ite ?_ ?_
      · refine pinFault_inv ?_
        exact h8
      · exact h8
    try clear_value x9
    refine lightRises_inv ?_
    exact h10
  · exact h1

theorem execCrossWatchEnd_inv {b0 b1 s} (hs : Inv s) : InvA (execCrossWatchEnd b0 b1 s) := by
  unfold execCrossWatchEnd
  extract_lets -merge -useContext +onlyGivenNames x0
  have h1 : Inv x0 := by
    unfold x0
    refine begin'_inv ?_
    exact hs
  try clear_value x0
  refine InvA.next ?_
  split
  · refine Inv.ite ?_ ?_
    · refine Inv.keep modPin_keeps rfl ?_
      exact h1
    · exact h1
  · exact h1

theorem latchOff_inv {b0 s} (hs : Inv s) : Inv (latchOff b0 s) := by
  unfold latchOff
  extract_lets -merge -useContext +onlyGivenNames x0
  have h1 : Inv x0 := by
    unfold x0
    refine Inv.keep pinOff_keeps rfl ?_
    refine Inv.keep pinStat_keeps rfl ?_
    refine Inv.keep cnt_keeps rfl ?_
    exact hs
  try clear_value x0
  refine pinFault_inv ?_
  refine Inv.keep modPin_keeps rfl ?_
  exact h1

theorem execOverload_inv {b0 b1 b2 s} (hs : Inv s) : InvA (execOverload b0 b1 b2 s) := by
  unfold execOverload
  extract_lets -merge -useContext +onlyGivenNames x0
  have h1 : Inv x0 := by
    unfold x0
    refine begin'_inv ?_
    exact hs
  try clear_value x0
  extract_lets -merge -useContext +onlyGivenNames x2
  try clear_value x2
  refine InvA.next ?_
  refine Inv.ite ?_ ?_
  · refine latchOff_inv ?_
    exact h1
  · exact h1

theorem execGroupOverload_inv {b0 b1 b2 s} (hs : Inv s) : InvA (execGroupOverload b0 b1 b2 s) := by
  unfold execGroupOverload
  extract_lets -merge -useContext +onlyGivenNames x0
  have h1 : Inv x0 := by
    unfold x0
    refine begin'_inv ?_
    exact hs
  try clear_value x0
  refine InvA.next ?_
  refine Inv.ite ?_ ?_
  · extract_lets -merge -useContext +onlyGivenNames x2
    have h3 : Inv x2 := by
      unfold x2
      refine Inv.keep modGroup_keeps rfl ?_
      exact h1
    try clear_value x2
    refine Inv.ite ?_ ?_
    · split
      · refine latchOff_inv ?_
        exact h3
      · exact h3
    · exact h3
  · exact h1

theorem execDriveFail_inv {b0 b1 s} (hs : Inv s) : InvA (execDriveFail b0 b1 s) := by
  unfold execDriveFail
  extract_lets -merge -useContext +onlyGivenNames x0
  have h1 : Inv x0 := by
    unfold x0
    refine begin'_inv ?_
    exact hs
  try clear_value x0
  extract_lets -merge -useContext +onlyGivenNames x2
  try clear_value x2
  refine InvA.next ?_
  split
  · refine Inv.ite ?_ ?_
    · refine pinFault_inv ?_
      refine Inv.keep pinStat_keeps rfl ?_
      refine Inv.keep modPin_keeps rfl ?_
      exact h1
    · exact h1
  · exact h1

theorem execRefreshFrame_inv {b0 b1 b2 s} (hs : Inv s) : InvA (execRefreshFrame b0 b1 b2 s) := by
  unfold execRefreshFrame
  extract_lets -merge -useContext +onlyGivenNames x0
  have h1 : Inv x0 := by
    unfold x0
    refine begin'_inv ?_
    exact hs
  try clear_value x0
  extract_lets -merge -useContext +onlyGivenNames x2
  try clear_value x2
  extract_lets -merge -useContext +onlyGivenNames x3
  try clear_value x3
  refine InvA.next ?_
  refine Inv.ite ?_ ?_
  · extract_lets -merge -useContext +onlyGivenNames x4
    have h5 : Inv x4 := by
      unfold x4
      refine Inv.keep sendPin_keeps rfl ?_
      exact h1
    try clear_value x4
    refine Inv.ite ?_ ?_
    · extract_lets -merge -useContext +onlyGivenNames x6
      have h7 : Inv x6 := by
        unfold x6
        refine Inv.ite ?_ ?_
        · refine pinFault_inv ?_
          exact h5
        · exact h5
      try clear_value x6
      refine Inv.keep modPin_keeps rfl ?_
      exact h7
    · refine Inv.keep cnt_keeps rfl ?_
      exact h5
  · exact h1

theorem execTimedOut_inv {b0 b1 s} (hs : Inv s) : InvA (execTimedOut b0 b1 s) := by
  unfold execTimedOut
  extract_lets -merge -useContext +onlyGivenNames x0
  have h1 : Inv x0 := by
    unfold x0
    refine begin'_inv ?_
    exact hs
  try clear_value x0
  extract_lets -merge -useContext +onlyGivenNames x2
  try clear_value x2
  extract_lets -merge -useContext +onlyGivenNames x3
  try clear_value x3
  refine InvA.next ?_
  refine Inv.ite ?_ ?_
  · extract_lets -merge -useContext +onlyGivenNames x4
    try clear_value x4
    refine pinFault_inv ?_
    refine Inv.keep modPin_keeps rfl ?_
    exact h1
  · exact h1

theorem execUnlatch_inv {b0 b1 s} (hs : Inv s) : InvA (execUnlatch b0 b1 s) := by
  unfold execUnlatch
  refine InvA.next ?_
  refine blockCommand_inv ?_ ?_
  · intro s hs
    refine Inv.keep unlatchWrite_keeps rfl ?_
    exact hs
  · refine begin'_inv ?_
    exact hs

theorem execComparePoint_inv {b0 b1 s} (hs : Inv s) : InvA (execComparePoint b0 b1 s) := by
  unfold execComparePoint
  extract_lets -merge -useContext +onlyGivenNames x0
  have h1 : Inv x0 := by
    unfold x0
    refine begin'_inv ?_
    exact hs
  try clear_value x0
  refine InvA.next ?_
  refine Inv.ite ?_ ?_
  · refine Inv.keep firePosition_keeps rfl ?_
    refine Inv.keep cpMark_keeps rfl ?_
    exact h1
  · exact h1

end Sys2Proof.Machine
end

