-- ==== Sys2Proof/Laws/KeepsLattice.lean ====
section
/-! SUPPORT. Frames of the functions of Machine/Lattice.lean: what each leaves alone, said once. The docstrings name the parts of `State` a function may write; the mask marks all others. -/

namespace Sys2Proof.Machine

/-- Writes at most: prg xch regs rings lat evr. -/
theorem putResult_keeps {b0 s} : Keeps 64593407 s (putResult b0 s) := by
  unfold putResult
  extract_lets -merge -useContext +onlyGivenNames x0
  try clear_value x0
  extract_lets -merge -useContext +onlyGivenNames x1
  try clear_value x1
  extract_lets -merge -useContext +onlyGivenNames x2
  try clear_value x2
  extract_lets -merge -useContext +onlyGivenNames x3
  try clear_value x3
  extract_lets -merge -useContext +onlyGivenNames x4
  try clear_value x4
  extract_lets -merge -useContext +onlyGivenNames x5
  have h6 : Keeps 64593407 s x5 := by
    unfold x5
    refine Keeps.app (wr_lat rfl) ?_
    exact Keeps.refl
  try clear_value x5
  extract_lets -merge -useContext +onlyGivenNames x7
  have h8 : Keeps 64593407 s x7 := by
    unfold x7
    refine Keeps.ite ?_ ?_
    · refine Keeps.step cnt_keeps rfl ?_
      exact h6
    · refine Keeps.ite ?_ ?_
      · refine Keeps.step cnt_keeps rfl ?_
        exact h6
      · refine Keeps.ite ?_ ?_
        · refine Keeps.step cnt_keeps rfl ?_
          exact h6
        · exact h6
  try clear_value x7
  extract_lets -merge -useContext +onlyGivenNames x9
  try clear_value x9
  extract_lets -merge -useContext +onlyGivenNames x10
  have h11 : Keeps 64593407 s x10 := by
    unfold x10
    refine Keeps.step setRf_keeps rfl ?_
    exact h8
  try clear_value x10
  refine Keeps.step emitAt_keeps rfl ?_
  refine Keeps.step fireRing_keeps rfl ?_
  refine Keeps.step ringPush_keeps rfl ?_
  exact h11

/-- Writes at most: prg xch regs rings lat evr. -/
theorem result_keeps {b0 s} : Keeps 64593407 s (result b0 s) := by
  unfold result
  refine Keeps.ite ?_ ?_
  · refine Keeps.app (wr_lat rfl) ?_
    exact Keeps.refl
  · refine Keeps.step putResult_keeps rfl ?_
    exact Keeps.refl

/-- Writes at most: prg xch regs rings lat evr. -/
theorem notice_keeps {b0 s} : Keeps 64593407 s (notice b0 s) := by
  unfold notice
  split
  · extract_lets -merge -useContext +onlyGivenNames x4
    try clear_value x4
    extract_lets -merge -useContext +onlyGivenNames x5
    try clear_value x5
    extract_lets -merge -useContext +onlyGivenNames x6
    try clear_value x6
    extract_lets -merge -useContext +onlyGivenNames x7
    try clear_value x7
    extract_lets -merge -useContext +onlyGivenNames x8
    try clear_value x8
    extract_lets -merge -useContext +onlyGivenNames x9
    try clear_value x9
    extract_lets -merge -useContext +onlyGivenNames x10
    have h11 : Keeps 64593407 s x10 := by
      unfold x10
      refine Keeps.app (wr_lat rfl) ?_
      exact Keeps.refl
    try clear_value x10
    extract_lets -merge -useContext +onlyGivenNames x12
    have h13 : Keeps 64593407 s x12 := by
      unfold x12
      refine Keeps.ite ?_ ?_
      · refine Keeps.step cnt_keeps rfl ?_
        exact h11
      · refine Keeps.step fireNotice_keeps rfl ?_
        refine Keeps.step fireRing_keeps rfl ?_
        refine Keeps.step ringPush_keeps rfl ?_
        exact h11
    try clear_value x12
    refine Keeps.step emitAt_keeps rfl ?_
    exact h13

/-- Writes at most: prg xch regs rings lat evr. -/
theorem notices_keeps {b0 s} : Keeps 64593407 s (notices b0 s) := by
  induction b0 generalizing s with
  | nil =>
    rw [notices.eq_1]
    exact Keeps.refl
  | cons z zs ih =>
    rw [notices.eq_2]
    refine Keeps.app ih ?_
    refine Keeps.step notice_keeps rfl ?_
    exact Keeps.refl

/-- Writes at most: sent lnk. -/
theorem mirrorParts_keeps {b0 s} : Keeps 50331645 s (mirrorParts b0 s) := by
  induction b0 generalizing s with
  | nil =>
    rw [mirrorParts.eq_1]
    exact Keeps.refl
  | cons z zs ih =>
    rw [mirrorParts.eq_2]
    refine Keeps.app ih ?_
    refine Keeps.step mirror_keeps rfl ?_
    exact Keeps.refl

/-- Writes at most: sent cand pwr tri prg frc mem vm xch regs rings lat fio snu evr upd lnk. -/
theorem latCommit_keeps {m : Nat} {b0 b1 b2 b3 b4 s b6} (hf6 : ∀ t, Keeps m t (b6 t)) (hm : m &&& 37847325 = m) : Keeps m s (latCommit b0 b1 b2 b3 b4 s b6) := by
  unfold latCommit
  refine Keeps.ite ?_ ?_
  · refine Keeps.step vitalFault_keeps (land_le hm rfl) ?_
    exact Keeps.refl
  · refine Keeps.ite ?_ ?_
    · refine Keeps.step unitDisagrees_keeps (land_le hm rfl) ?_
      exact Keeps.refl
    · extract_lets -merge -useContext +onlyGivenNames x0
      try clear_value x0
      extract_lets -merge -useContext +onlyGivenNames x1
      try clear_value x1
      refine Keeps.ite ?_ ?_
      · refine Keeps.app (wr_lat (bit_false hm rfl)) ?_
        exact Keeps.refl
      · extract_lets -merge -useContext +onlyGivenNames x2
        try clear_value x2
        extract_lets -merge -useContext +onlyGivenNames x3
        have h4 : Keeps m s x3 := by
          unfold x3
          exact Keeps.app (show Keeps m s _ from ⟨fun _ => rfl, fun _ => rfl, fun _ => rfl, fun _ => rfl, fun _ => rfl, fun _ => rfl, fun _ => rfl, fun _ => rfl, fun _ => rfl, fun _ => rfl, fun _ => rfl, fun h => noBit (testBit_of_land hm h) rfl, fun _ => rfl, fun _ => rfl, fun _ => rfl, fun _ => rfl, fun _ => rfl, fun _ => rfl, fun h => noBit (testBit_of_land hm h) rfl, fun _ => rfl, fun _ => rfl, fun _ => rfl, fun _ => rfl, fun _ => rfl, fun _ => rfl, fun _ => rfl⟩) Keeps.refl
        try clear_value x3
        extract_lets -merge -useContext +onlyGivenNames x5
        have h6 : Keeps m s x5 := by
          unfold x5
          refine Keeps.ite ?_ ?_
          · exact h4
          · refine Keeps.step mirrorParts_keeps (land_le hm rfl) ?_
            exact h4
        try clear_value x5
        extract_lets -merge -useContext +onlyGivenNames x7
        have h8 : Keeps m s x7 := by
          unfold x7
          refine Keeps.step notices_keeps (land_le hm rfl) ?_
          exact h6
        try clear_value x7
        refine Keeps.app (hf6 _) ?_
        refine Keeps.ite ?_ ?_
        · refine Keeps.step permitFollow_keeps (land_le hm rfl) ?_
          exact h8
        · exact h8

/-- Writes at most: prg xch regs rings lat evr. -/
theorem drainBusy_keeps {b0 s} : Keeps 64593407 s (drainBusy b0 s) := by
  induction b0 generalizing s with
  | zero =>
    rw [drainBusy.eq_1]
    exact Keeps.refl
  | succ z ih =>
    rw [drainBusy.eq_2]
    split
    · refine Keeps.ite ?_ ?_
      · refine Keeps.app ih ?_
        refine Keeps.step result_keeps rfl ?_
        refine Keeps.app (wr_lat rfl) ?_
        exact Keeps.refl
      · exact Keeps.refl
    · exact Keeps.refl

/-- Writes at most: prg xch regs rings lat evr. -/
theorem drain_keeps {s} : Keeps 64593407 s (drain s) := by
  unfold drain
  refine Keeps.step drainBusy_keeps rfl ?_
  exact Keeps.refl

/-- Writes at most: prg xch regs rings lat evr. -/
theorem postRequest_keeps {b0 b1 s} : Keeps 64593407 s (postRequest b0 b1 s) := by
  unfold postRequest
  extract_lets -merge -useContext +onlyGivenNames x0
  try clear_value x0
  refine Keeps.step drain_keeps rfl ?_
  refine Keeps.step fireRing_keeps rfl ?_
  refine Keeps.app (wr_lat rfl) ?_
  exact Keeps.refl

/-- Writes at most: sent cand pwr tri prg frc mem vm xch regs rings lat fio snu evr upd lnk. -/
theorem decideReq_keeps {b0 b1 s} : Keeps 37847325 s (decideReq b0 b1 s) := by
  unfold decideReq
  refine Keeps.app (latCommit_keeps ?_ rfl) ?_
  · intro s
    extract_lets -merge -useContext +onlyGivenNames x0
    try clear_value x0
    extract_lets -merge -useContext +onlyGivenNames x1
    have h2 : Keeps 37847325 s x1 := by
      unfold x1
      refine Keeps.app (wr_lat rfl) ?_
      exact Keeps.refl
    try clear_value x1
    refine Keeps.step drain_keeps rfl ?_
    refine Keeps.step result_keeps rfl ?_
    exact h2
  · exact Keeps.refl

/-- Writes at most: regs evr. -/
theorem emergRecord_keeps {b0 b1 b2 b3 s} : Keeps 64995327 s (emergRecord b0 b1 b2 b3 s) := by
  unfold emergRecord
  refine Keeps.step emit_keeps rfl ?_
  exact Keeps.refl

/-- Writes at most: sent free cand pwr tri prg frc mem vm xch regs rings fio snu evr sta upd lnk. -/
theorem engineFindings_keeps {b0 s} : Keeps 33915161 s (engineFindings b0 s) := by
  induction b0 generalizing s with
  | nil =>
    rw [engineFindings.eq_1]
    exact Keeps.refl
  | cons z zs ih =>
    rw [engineFindings.eq_2]
    refine Keeps.app ih ?_
    refine Keeps.ite ?_ ?_
    · refine Keeps.step checkWord_keeps rfl ?_
      refine Keeps.step applyFinding_keeps rfl ?_
      exact Keeps.refl
    · exact Keeps.refl

/-- Writes at most: sent free cand pwr tri prg frc mem vm xch regs rings fio snu evr sta upd lnk. -/
theorem engineStep_keeps {m : Nat} {b0 b1 s} (hf1 : ∀ t, Keeps m t (b1 t)) (hm : m &&& 33915161 = m) : Keeps m s (engineStep b0 b1 s) := by
  unfold engineStep
  refine Keeps.ite ?_ ?_
  · extract_lets -merge -useContext +onlyGivenNames x0
    have h1 : Keeps m s x0 := by
      unfold x0
      refine Keeps.step engineFindings_keeps (land_le hm rfl) ?_
      exact Keeps.refl
    try clear_value x0
    refine Keeps.ite ?_ ?_
    · exact h1
    · refine Keeps.ite ?_ ?_
      · refine Keeps.step unitDisagrees_keeps (land_le hm rfl) ?_
        exact h1
      · refine Keeps.app (hf1 _) ?_
        exact h1
  · exact Keeps.refl

/-- Writes at most: sent free cand pwr tri prg frc mem vm xch regs rings lat fio snu evr sta upd lnk. -/
theorem requestRow_keeps {m : Nat} {b0 b1 b2 s} (hf2 : ∀ c0 t, Keeps m t (b2 c0 t)) (hm : m &&& 33653017 = m) : Keeps m s (requestRow b0 b1 b2 s) := by
  unfold requestRow
  extract_lets -merge -useContext +onlyGivenNames x0
  have h1 : Keeps m s x0 := by
    unfold x0
    refine Keeps.step drain_keeps (land_le hm rfl) ?_
    exact Keeps.refl
  try clear_value x0
  split
  · refine Keeps.ite ?_ ?_
    · refine Keeps.app (engineStep_keeps ?_ (land_le hm rfl)) ?_
      · intro s
        refine Keeps.app (hf2 _ _) ?_
        exact Keeps.refl
      · exact h1
    · exact h1
  · exact h1

/-- Writes at most: sent free clk civ cand pwr tri prg frc mem vm xch regs bus rings lat fio snu evr sta upd lnk. -/
theorem execSet_keeps {b0 b1 s} : Answers 33620225 s (execSet b0 b1 s) := by
  unfold execSet
  refine Answers.next ?_
  refine Keeps.app (requestRow_keeps ?_ rfl) ?_
  · intro a0 s
    refine Keeps.step decideReq_keeps rfl ?_
    exact Keeps.refl
  · refine Keeps.step begin'_keeps rfl ?_
    exact Keeps.refl

/-- Writes at most: sent free clk civ cand pwr tri prg frc mem vm xch regs bus rings lat fio snu evr sta upd lnk. -/
theorem execCancel_keeps {b0 b1 s} : Answers 33620225 s (execCancel b0 b1 s) := by
  unfold execCancel
  refine Answers.next ?_
  refine Keeps.app (requestRow_keeps ?_ rfl) ?_
  · intro a0 s
    refine Keeps.step decideReq_keeps rfl ?_
    exact Keeps.refl
  · refine Keeps.step begin'_keeps rfl ?_
    exact Keeps.refl

/-- Writes at most: sent free clk civ cand pwr tri prg frc mem vm xch regs bus rings lat fio snu evr sta upd lnk. -/
theorem execElementBlock_keeps {b0 b1 s} : Answers 33620225 s (execElementBlock b0 b1 s) := by
  unfold execElementBlock
  refine Answers.next ?_
  refine Keeps.app (requestRow_keeps ?_ rfl) ?_
  · intro a0 s
    refine Keeps.step decideReq_keeps rfl ?_
    exact Keeps.refl
  · refine Keeps.step begin'_keeps rfl ?_
    exact Keeps.refl

/-- Writes at most: sent free clk civ cand pwr tri prg frc mem vm xch regs bus rings lat fio snu evr sta upd lnk. -/
theorem execElementUnblock_keeps {b0 b1 s} : Answers 33620225 s (execElementUnblock b0 b1 s) := by
  unfold execElementUnblock
  refine Answers.next ?_
  refine Keeps.app (requestRow_keeps ?_ rfl) ?_
  · intro a0 s
    refine Keeps.step decideReq_keeps rfl ?_
    exact Keeps.refl
  · refine Keeps.step begin'_keeps rfl ?_
    exact Keeps.refl

/-- Writes at most: sent free clk civ cand pwr tri prg frc mem vm xch regs bus rings lat fio snu evr sta upd lnk. -/
theorem execPointLock_keeps {b0 b1 s} : Answers 33620225 s (execPointLock b0 b1 s) := by
  unfold execPointLock
  refine Answers.next ?_
  refine Keeps.app (requestRow_keeps ?_ rfl) ?_
  · intro a0 s
    refine Keeps.step decideReq_keeps rfl ?_
    exact Keeps.refl
  · refine Keeps.step begin'_keeps rfl ?_
    exact Keeps.refl

/-- Writes at most: sent free clk civ cand pwr tri prg frc mem vm xch regs bus rings lat fio snu evr sta upd lnk. -/
theorem execPointFree_keeps {b0 b1 s} : Answers 33620225 s (execPointFree b0 b1 s) := by
  unfold execPointFree
  refine Answers.next ?_
  refine Keeps.app (requestRow_keeps ?_ rfl) ?_
  · intro a0 s
    refine Keeps.step decideReq_keeps rfl ?_
    exact Keeps.refl
  · refine Keeps.step begin'_keeps rfl ?_
    exact Keeps.refl

/-- What follows an emergency request is at most its record. -/
theorem decideEmergency_keeps {q s t} : Keeps 64733183 t ((decideEmergency q s).2 t) := by
  have no : ∀ c : Nat, Keeps 64733183 t ((fun (s : State) => s) t) := fun _ => Keeps.refl
  unfold decideEmergency
  repeat' (first | extract_lets | split)
  all_goals first
    | exact Keeps.refl
    | exact Keeps.step emergRecord_keeps rfl Keeps.refl
    | exact Keeps.step emergRecord_keeps rfl (Keeps.app (wr_lat rfl) Keeps.refl)

/-- Writes at most: sent cand pwr tri prg frc mem vm xch regs rings lat fio snu evr upd lnk. -/
theorem emergencyDone_keeps {b0 s} : Keeps 37847325 s (emergencyDone b0 s) := by
  unfold emergencyDone
  extract_lets d n s1
  have h : Keeps 37847325 s s1 := Keeps.step decideReq_keeps rfl Keeps.refl
  refine Keeps.ite (Keeps.step decideEmergency_keeps rfl h) h

/-- Writes at most: sent free clk civ cand pwr tri prg frc mem vm xch regs bus rings lat fio snu evr sta upd lnk. -/
theorem execEmergencyRelease_keeps {b0 b1 s} : Answers 33620225 s (execEmergencyRelease b0 b1 s) := by
  unfold execEmergencyRelease
  refine Answers.next ?_
  refine Keeps.app (requestRow_keeps ?_ rfl) ?_
  · intro a0 s
    refine Keeps.step emergencyDone_keeps rfl ?_
    exact Keeps.refl
  · refine Keeps.step begin'_keeps rfl ?_
    exact Keeps.refl

/-- Writes at most: sent free clk civ cand pwr tri prg frc mem vm xch regs bus rings lat fio snu evr sta upd lnk. -/
theorem execUndefinedRequest_keeps {b0 b1 s} : Answers 33620225 s (execUndefinedRequest b0 b1 s) := by
  unfold execUndefinedRequest
  refine Answers.next ?_
  refine Keeps.app (requestRow_keeps ?_ rfl) ?_
  · intro a0 s
    refine Keeps.step decideReq_keeps rfl ?_
    exact Keeps.refl
  · refine Keeps.step begin'_keeps rfl ?_
    exact Keeps.refl

/-- Writes at most: regs evr. -/
theorem updateRefused_keeps {b0 s} : Keeps 64995327 s (updateRefused b0 s) := by
  unfold updateRefused
  refine Keeps.step emitAt_keeps rfl ?_
  refine Keeps.step cnt_keeps rfl ?_
  exact Keeps.refl

/-- Writes at most: sent cand pwr tri prg frc mem vm xch regs rings lat fio snu evr upd lnk. -/
theorem latUpdate_keeps {b0 s} : Keeps 37847325 s (latUpdate b0 s) := by
  unfold latUpdate
  extract_lets -merge -useContext +onlyGivenNames x0
  have h1 : ∀ s, Keeps 37847325 s (x0 s) := by
    intro s
    unfold x0
    refine Keeps.step admitUpdates_keeps rfl ?_
    refine Keeps.app (wr_lat rfl) ?_
    exact Keeps.refl
  try clear_value x0
  refine Keeps.ite ?_ ?_
  · refine Keeps.step drain_keeps rfl ?_
    refine Keeps.app (h1 _) ?_
    refine Keeps.step updateRefused_keeps rfl ?_
    exact Keeps.refl
  · refine Keeps.app (latCommit_keeps ?_ rfl) ?_
    · intro s
      refine Keeps.step drain_keeps rfl ?_
      refine Keeps.app (h1 _) ?_
      exact Keeps.refl
    · exact Keeps.refl

/-- Writes at most: sent free clk civ cand pwr tri prg frc mem vm xch regs bus rings lat fio snu evr sta upd lnk. -/
theorem execUpdate_keeps {b0 b1 s} : Answers 33620225 s (execUpdate b0 b1 s) := by
  unfold execUpdate
  extract_lets -merge -useContext +onlyGivenNames x0
  have h1 : Keeps 33620225 s x0 := by
    unfold x0
    refine Keeps.step drain_keeps rfl ?_
    refine Keeps.step begin'_keeps rfl ?_
    exact Keeps.refl
  try clear_value x0
  refine Answers.next ?_
  split
  · refine Keeps.app (engineStep_keeps ?_ rfl) ?_
    · intro s
      refine Keeps.step latUpdate_keeps rfl ?_
      exact Keeps.refl
    · exact h1
  · exact h1

/-- Writes at most: sent clk civ cand prg xch regs bus rings lat evr lnk. -/
theorem execResultWriteResume_keeps {b0 s} : Answers 47783365 s (execResultWriteResume b0 s) := by
  unfold execResultWriteResume
  extract_lets -merge -useContext +onlyGivenNames x0
  have h1 : Keeps 47783365 s x0 := by
    unfold x0
    refine Keeps.step begin'_keeps rfl ?_
    exact Keeps.refl
  try clear_value x0
  refine Answers.next ?_
  split
  · refine Keeps.ite ?_ ?_
    · refine Keeps.step drain_keeps rfl ?_
      refine Keeps.step putResult_keeps rfl ?_
      exact h1
    · exact h1
  · exact h1

/-- Writes at most: sent clk civ cand prg regs bus lat evr lnk. -/
theorem execResultPause_keeps {b0 s} : Answers 47922629 s (execResultPause b0 s) := by
  unfold execResultPause
  extract_lets -merge -useContext +onlyGivenNames x0
  have h1 : Keeps 47922629 s x0 := by
    unfold x0
    refine Keeps.step begin'_keeps rfl ?_
    exact Keeps.refl
  try clear_value x0
  extract_lets -merge -useContext +onlyGivenNames x2
  try clear_value x2
  refine Answers.next ?_
  refine Keeps.ite ?_ ?_
  · refine Keeps.step nvEvent_keeps rfl ?_
    refine Keeps.app (wr_lat rfl) ?_
    exact h1
  · exact h1

/-- Writes at most: sent cand pwr tri prg frc mem vm xch regs rings lat fio snu evr upd lnk. -/
theorem timerCommit_keeps {m : Nat} {b0 s b2} (hf2 : ∀ t, Keeps m t (b2 t)) (hm : m &&& 37847325 = m) : Keeps m s (timerCommit b0 s b2) := by
  unfold timerCommit
  refine Keeps.app (latCommit_keeps ?_ (land_le hm rfl)) ?_
  · intro s
    refine Keeps.app (hf2 _) ?_
    exact Keeps.refl
  · exact Keeps.refl

/-- Writes at most: sent cand pwr tri prg frc mem vm xch regs rings lat fio snu evr upd lnk. -/
theorem cancelExpiry_keeps {b0 s} : Keeps 37847325 s (cancelExpiry b0 s) := by
  unfold cancelExpiry
  refine Keeps.ite ?_ ?_
  · refine Keeps.app (timerCommit_keeps ?_ rfl) ?_
    · intro s
      exact Keeps.refl
    · exact Keeps.refl
  · exact Keeps.refl

/-- Writes at most: sent free clk civ cand pwr tri prg frc mem vm xch regs bus rings lat fio snu evr sta upd lnk. -/
theorem execCancelTimeExpiry_keeps {b0 b1 s} : Answers 33620225 s (execCancelTimeExpiry b0 b1 s) := by
  unfold execCancelTimeExpiry
  refine Answers.next ?_
  refine Keeps.app (engineStep_keeps ?_ rfl) ?_
  · intro s
    refine Keeps.step cancelExpiry_keeps rfl ?_
    exact Keeps.refl
  · refine Keeps.step begin'_keeps rfl ?_
    exact Keeps.refl

/-- Writes at most: sent cand pwr tri prg frc mem vm xch regs rings lat fio snu evr upd lnk. -/
theorem approachExpiry_keeps {b0 s} : Keeps 37847325 s (approachExpiry b0 s) := by
  unfold approachExpiry
  refine Keeps.ite ?_ ?_
  · refine Keeps.app (timerCommit_keeps ?_ rfl) ?_
    · intro s
      exact Keeps.refl
    · exact Keeps.refl
  · exact Keeps.refl

/-- Writes at most: sent free clk civ cand pwr tri prg frc mem vm xch regs bus rings lat fio snu evr sta upd lnk. -/
theorem execApproachTimeExpiry_keeps {b0 b1 s} : Answers 33620225 s (execApproachTimeExpiry b0 b1 s) := by
  unfold execApproachTimeExpiry
  refine Answers.next ?_
  refine Keeps.app (engineStep_keeps ?_ rfl) ?_
  · intro s
    refine Keeps.step approachExpiry_keeps rfl ?_
    exact Keeps.refl
  · refine Keeps.step begin'_keeps rfl ?_
    exact Keeps.refl

/-- Writes at most: sent cand pwr tri prg frc mem vm xch regs rings lat fio snu evr upd lnk. -/
theorem overlapExpiry_keeps {b0 s} : Keeps 37847325 s (overlapExpiry b0 s) := by
  unfold overlapExpiry
  extract_lets -merge -useContext +onlyGivenNames x0
  try clear_value x0
  refine Keeps.ite ?_ ?_
  · refine Keeps.app (timerCommit_keeps ?_ rfl) ?_
    · intro s
      exact Keeps.refl
    · exact Keeps.refl
  · exact Keeps.refl

/-- Writes at most: sent free clk civ cand pwr tri prg frc mem vm xch regs bus rings lat fio snu evr sta upd lnk. -/
theorem execOverlapTimeExpiry_keeps {b0 b1 s} : Answers 33620225 s (execOverlapTimeExpiry b0 b1 s) := by
  unfold execOverlapTimeExpiry
  refine Answers.next ?_
  refine Keeps.app (engineStep_keeps ?_ rfl) ?_
  · intro s
    refine Keeps.step overlapExpiry_keeps rfl ?_
    exact Keeps.refl
  · refine Keeps.step begin'_keeps rfl ?_
    exact Keeps.refl

/-- Writes at most: sent cand pwr tri prg frc mem vm xch regs rings lat fio snu evr upd lnk. -/
theorem zoneLapse_keeps {b0 s} : Keeps 37847325 s (zoneLapse b0 s) := by
  unfold zoneLapse
  extract_lets -merge -useContext +onlyGivenNames x0
  try clear_value x0
  refine Keeps.ite ?_ ?_
  · refine Keeps.app (timerCommit_keeps ?_ rfl) ?_
    · intro s
      refine Keeps.step emergRecord_keeps rfl ?_
      exact Keeps.refl
    · exact Keeps.refl
  · exact Keeps.refl

/-- Writes at most: sent free clk civ cand pwr tri prg frc mem vm xch regs bus rings lat fio snu evr sta upd lnk. -/
theorem execZoneLapse_keeps {b0 b1 s} : Answers 33620225 s (execZoneLapse b0 b1 s) := by
  unfold execZoneLapse
  refine Answers.next ?_
  refine Keeps.app (engineStep_keeps ?_ rfl) ?_
  · intro s
    refine Keeps.step zoneLapse_keeps rfl ?_
    exact Keeps.refl
  · refine Keeps.step begin'_keeps rfl ?_
    exact Keeps.refl

/-- Writes at most: sent cand pwr tri prg frc mem vm xch regs rings lat fio snu evr upd lnk. -/
theorem borderTimeout_keeps {b0 s} : Keeps 37847325 s (borderTimeout b0 s) := by
  unfold borderTimeout
  extract_lets -merge -useContext +onlyGivenNames x0
  try clear_value x0
  refine Keeps.ite ?_ ?_
  · refine Keeps.app (timerCommit_keeps ?_ rfl) ?_
    · intro s
      refine Keeps.step nvEvent_keeps rfl ?_
      refine Keeps.step cnt_keeps rfl ?_
      exact Keeps.refl
    · exact Keeps.refl
  · exact Keeps.refl

/-- Writes at most: sent free clk civ cand pwr tri prg frc mem vm xch regs bus rings lat fio snu evr sta upd lnk. -/
theorem execBorderTimeout_keeps {b0 b1 s} : Answers 33620225 s (execBorderTimeout b0 b1 s) := by
  unfold execBorderTimeout
  refine Answers.next ?_
  refine Keeps.app (engineStep_keeps ?_ rfl) ?_
  · intro s
    refine Keeps.step borderTimeout_keeps rfl ?_
    exact Keeps.refl
  · refine Keeps.step begin'_keeps rfl ?_
    exact Keeps.refl

/-- Writes at most: nothing. -/
theorem timerFold_keeps {m : Nat} {b0 b1 s} (hf0 : ∀ c0 t, Keeps m t (b0 c0 t)) (_hm : m &&& 67108863 = m) : Keeps m s (timerFold b0 b1 s) := by
  induction b1 generalizing s with
  | nil =>
    rw [timerFold.eq_1]
    exact Keeps.refl
  | cons z zs ih =>
    rw [timerFold.eq_2]
    refine Keeps.app ih ?_
    refine Keeps.ite ?_ ?_
    · refine Keeps.app (hf0 _ _) ?_
      exact Keeps.refl
    · exact Keeps.refl

/-- Writes at most: sent cand pwr tri prg frc mem vm xch regs rings lat fio snu evr upd lnk. -/
theorem timerSteps_keeps {s} : Keeps 37847325 s (timerSteps s) := by
  unfold timerSteps
  extract_lets -merge -useContext +onlyGivenNames x0
  have h1 : Keeps 37847325 s x0 := by
    unfold x0
    refine Keeps.app (latCommit_keeps ?_ rfl) ?_
    · intro s
      exact Keeps.refl
    · exact Keeps.refl
  try clear_value x0
  extract_lets -merge -useContext +onlyGivenNames x2
  have h3 : Keeps 37847325 s x2 := by
    unfold x2
    refine Keeps.app (timerFold_keeps ?_ rfl) ?_
    · intro a4 s
      refine Keeps.step borderTimeout_keeps rfl ?_
      exact Keeps.refl
    · exact h1
  try clear_value x2
  extract_lets -merge -useContext +onlyGivenNames x5
  have h6 : Keeps 37847325 s x5 := by
    unfold x5
    refine Keeps.app (timerFold_keeps ?_ rfl) ?_
    · intro a7 s
      refine Keeps.step cancelExpiry_keeps rfl ?_
      exact Keeps.refl
    · exact h3
  try clear_value x5
  extract_lets -merge -useContext +onlyGivenNames x8
  have h9 : Keeps 37847325 s x8 := by
    unfold x8
    refine Keeps.app (timerFold_keeps ?_ rfl) ?_
    · intro a10 s
      refine Keeps.step approachExpiry_keeps rfl ?_
      exact Keeps.refl
    · exact h6
  try clear_value x8
  extract_lets -merge -useContext +onlyGivenNames x11
  have h12 : Keeps 37847325 s x11 := by
    unfold x11
    refine Keeps.app (timerFold_keeps ?_ rfl) ?_
    · intro a13 s
      refine Keeps.step overlapExpiry_keeps rfl ?_
      exact Keeps.refl
    · exact h9
  try clear_value x11
  refine Keeps.app (timerFold_keeps ?_ rfl) ?_
  · intro a14 s
    refine Keeps.step zoneLapse_keeps rfl ?_
    exact Keeps.refl
  · exact h12

/-- Writes at most: sent free cand pwr tri prg frc mem vm xch regs rings lat fio snu evr sta upd lnk. -/
theorem timerStep_keeps {b0 s} : Keeps 33653017 s (timerStep b0 s) := by
  unfold timerStep
  extract_lets -merge -useContext +onlyGivenNames x0
  try clear_value x0
  extract_lets -merge -useContext +onlyGivenNames x1
  have h2 : Keeps 33653017 s x1 := by
    unfold x1
    refine Keeps.step engineFindings_keeps rfl ?_
    refine Keeps.app (wr_lat rfl) ?_
    exact Keeps.refl
  try clear_value x1
  refine Keeps.ite ?_ ?_
  · exact h2
  · refine Keeps.ite ?_ ?_
    · refine Keeps.app (wr_lat rfl) ?_
      exact h2
    · refine Keeps.ite ?_ ?_
      · refine Keeps.step unitDisagrees_keeps rfl ?_
        refine Keeps.app (wr_lat rfl) ?_
        exact h2
      · extract_lets -merge -useContext +onlyGivenNames x3
        have h4 : Keeps 33653017 s x3 := by
          unfold x3
          refine Keeps.step timerSteps_keeps rfl ?_
          exact h2
        try clear_value x3
        refine Keeps.ite ?_ ?_
        · refine Keeps.step unitDisagrees_keeps rfl ?_
          refine Keeps.app (wr_lat rfl) ?_
          exact h2
        · refine Keeps.step drain_keeps rfl ?_
          exact h4

end Sys2Proof.Machine
end

