-- ==== Sys2Proof/Laws/InvLattice.lean ====
section
/-! SUPPORT. The functions of Machine/Lattice.lean keep the invariant `Inv`. -/

namespace Sys2Proof.Machine

theorem foldl_wf {α : Type} {f : List Host.Cell → α → List Host.Cell} (hf : ∀ m x, Memory.wf m = true → Memory.wf (f m x) = true) :
    ∀ (l : List α) {m : List Host.Cell}, Memory.wf m = true → Memory.wf (l.foldl f m) = true
  | [], _, h => h
  | x :: l, _, h => foldl_wf hf l (hf _ x h)

theorem ageAll_wf {m : List Host.Cell} (h : Memory.wf m = true) : Memory.wf (ageAll m) = true :=
  foldl_wf (fun _ _ k => memSet_wf (memSet_wf k)) _ h

theorem storeWords_wf {m dst : List Host.Cell} {l : List Nat} (h : Memory.wf dst = true) : Memory.wf (storeWords m l dst) = true :=
  foldl_wf (fun _ _ k => memSetList_wf (memSetList_wf k)) _ h

theorem journalPart_wf {m : List Host.Cell} {p : List Byte} (h : Memory.wf m = true) : Memory.wf (journalPart m p) = true := by
  rw [journalPart]
  split
  · exact memSetList_wf h
  · exact h

theorem journalInto_wf {x : List Host.Cell × Option Nat} {e : List Byte} (h : Memory.wf x.1 = true) : Memory.wf (journalInto x e).1 = true := by
  refine foldl_wf (fun _ _ k => journalPart_wf k) _ ?_
  split
  · exact ageAll_wf h
  · exact h

theorem journals_wf : ∀ (l : List (List Byte)) {x : List Host.Cell × Option Nat}, Memory.wf x.1 = true → Memory.wf (l.foldl journalInto x).1 = true
  | [], _, h => h
  | _ :: l, _, h => journals_wf l (journalInto_wf h)

theorem restoreTables_wf {snap m : List Host.Cell} {l : List (List Byte)} (h : Memory.wf m = true) : Memory.wf (restoreTables snap l m) = true :=
  journals_wf l (foldl_wf (fun _ _ k => memSet_wf k) snap (memFilter_wfFrom _ h))

theorem putResult_inv {b0 s} (hs : Inv s) : Inv (putResult b0 s) := by
  unfold putResult
  extract_lets -merge -useContext +onlyGivenNames x0
  try clear_value x0
  extract_lets -merge -useContext +onlyGivenNames x1
  try clear_value x1
  extract_lets -merge -useContext +onlyGivenNames x2
  try clear_value x2
  extract_lets -merge -useContext +onlyGivenNames x3
  try clear_value x3
  extract_lets -merge -useContext +onlyGivenNames x4
  have h5 : x4 = s.lat := rfl
  replace h5 : x4.updQ.length ≤ 64 := by
    rw [h5]
    exact hs.lat
  try clear_value x4
  extract_lets -merge -useContext +onlyGivenNames x6
  have h7 : Inv x6 := by
    unfold x6
    refine Inv.set_lat (fun h => ?_) ?_
    · assumption
    · exact hs
  try clear_value x6
  extract_lets -merge -useContext +onlyGivenNames x8
  have h9 : Inv x8 := by
    unfold x8
    refine Inv.ite ?_ ?_
    · refine Inv.keep cnt_keeps rfl ?_
      exact h7
    · refine Inv.ite ?_ ?_
      · refine Inv.keep cnt_keeps rfl ?_
        exact h7
      · refine Inv.ite ?_ ?_
        · refine Inv.keep cnt_keeps rfl ?_
          exact h7
        · exact h7
  try clear_value x8
  extract_lets -merge -useContext +onlyGivenNames x10
  try clear_value x10
  extract_lets -merge -useContext +onlyGivenNames x11
  have h12 : Inv x11 := by
    unfold x11
    refine Inv.keep setRf_keeps rfl ?_
    exact h9
  try clear_value x11
  refine emitAt_inv ?_
  refine Inv.keep fireRing_keeps rfl ?_
  refine Inv.keep ringPush_keeps rfl ?_
  exact h12

theorem result_inv {b0 s} (hs : Inv s) : Inv (result b0 s) := by
  unfold result
  refine Inv.ite ?_ ?_
  · refine Inv.set_lat (fun h => ?_) ?_
    · exact h.lat
    · exact hs
  · refine putResult_inv ?_
    exact hs

theorem notice_inv {b0 s} (hs : Inv s) : Inv (notice b0 s) := by
  unfold notice
  split
  · extract_lets -merge -useContext +onlyGivenNames x4
    try clear_value x4
    extract_lets -merge -useContext +onlyGivenNames x5
    try clear_value x5
    extract_lets -merge -useContext +onlyGivenNames x6
    try clear_value x6
    extract_lets -merge -useContext +onlyGivenNames x7
    try clear_value x7
    extract_lets -merge -useContext +onlyGivenNames x8
    try clear_value x8
    extract_lets -merge -useContext +onlyGivenNames x9
    have h10 : x9 = s.lat := rfl
    replace h10 : x9.updQ.length ≤ 64 := by
      rw [h10]
      exact hs.lat
    try clear_value x9
    extract_lets -merge -useContext +onlyGivenNames x11
    have h12 : Inv x11 := by
      unfold x11
      refine Inv.set_lat (fun h => ?_) ?_
      · assumption
      · exact hs
    try clear_value x11
    extract_lets -merge -useContext +onlyGivenNames x13
    have h14 : Inv x13 := by
      unfold x13
      refine Inv.ite ?_ ?_
      · refine Inv.keep cnt_keeps rfl ?_
        exact h12
      · refine Inv.keep fireNotice_keeps rfl ?_
        refine Inv.keep fireRing_keeps rfl ?_
        refine Inv.keep ringPush_keeps rfl ?_
        exact h12
    try clear_value x13
    refine emitAt_inv ?_
    exact h14

theorem notices_inv {b0 s} (hs : Inv s) : Inv (notices b0 s) := by
  induction b0 generalizing s with
  | nil =>
    rw [notices.eq_1]
    exact hs
  | cons z zs ih =>
    rw [notices.eq_2]
    refine ih ?_
    refine notice_inv ?_
    exact hs

theorem latCommit_inv {b0 b1 b2 b3 b4 s b6} (hf6 : ∀ t, Inv t → Inv (b6 t)) (hs : Inv s) : Inv (latCommit b0 b1 b2 b3 b4 s b6) := by
  unfold latCommit
  refine Inv.ite ?_ ?_
  · refine vitalFault_inv ?_
    exact hs
  · refine Inv.ite ?_ ?_
    · refine unitDisagrees_inv ?_
      exact hs
    · extract_lets -merge -useContext +onlyGivenNames x0
      try clear_value x0
      extract_lets -merge -useContext +onlyGivenNames x1
      try clear_value x1
      refine Inv.ite ?_ ?_
      · refine Inv.set_lat (fun h => ?_) ?_
        · exact h.lat
        · exact hs
      · extract_lets -merge -useContext +onlyGivenNames x2
        have h3 : x2 = s.lat := rfl
        replace h3 : x2.updQ.length ≤ 64 := by
          rw [h3]
          exact hs.lat
        try clear_value x2
        extract_lets -merge -useContext +onlyGivenNames x4
        have h5 : Inv x4 := by
          unfold x4
          have h := hs
          refine ⟨?_, h.cand, h.evr, h.frc, ?_⟩
          · exact storeWords_wf (by split <;> first | exact ageAll_wf h.mem | exact h.mem)
          · assumption
        try clear_value x4
        extract_lets -merge -useContext +onlyGivenNames x6
        have h7 : Inv x6 := by
          unfold x6
          refine Inv.ite ?_ ?_
          · exact h5
          · refine Inv.keep mirrorParts_keeps rfl ?_
            exact h5
        try clear_value x6
        extract_lets -merge -useContext +onlyGivenNames x8
        have h9 : Inv x8 := by
          unfold x8
          refine notices_inv ?_
          exact h7
        try clear_value x8
        refine hf6 _ ?_
        refine Inv.ite ?_ ?_
        · refine Inv.keep permitFollow_keeps rfl ?_
          exact h9
        · exact h9

theorem drainBusy_inv {b0 s} (hs : Inv s) : Inv (drainBusy b0 s) := by
  induction b0 generalizing s with
  | zero =>
    rw [drainBusy.eq_1]
    exact hs
  | succ z ih =>
    rw [drainBusy.eq_2]
    split
    · refine Inv.ite ?_ ?_
      · refine ih ?_
        refine result_inv ?_
        refine Inv.set_lat (fun h => ?_) ?_
        · exact h.lat
        · exact hs
      · exact hs
    · exact hs

theorem drain_inv {s} (hs : Inv s) : Inv (drain s) := by
  unfold drain
  refine drainBusy_inv ?_
  exact hs

theorem postRequest_inv {b0 b1 s} (hs : Inv s) : Inv (postRequest b0 b1 s) := by
  unfold postRequest
  extract_lets -merge -useContext +onlyGivenNames x0
  try clear_value x0
  refine drain_inv ?_
  refine Inv.keep fireRing_keeps rfl ?_
  refine Inv.set_lat (fun h => ?_) ?_
  · exact h.lat
  · exact hs

theorem decideReq_inv {b0 b1 s} (hs : Inv s) : Inv (decideReq b0 b1 s) := by
  unfold decideReq
  refine latCommit_inv ?_ ?_
  · intro s hs
    extract_lets -merge -useContext +onlyGivenNames x0
    have h1 : x0 = s.lat := rfl
    replace h1 : x0.updQ.length ≤ 64 := by
      rw [h1]
      exact hs.lat
    try clear_value x0
    extract_lets -merge -useContext +onlyGivenNames x2
    have h3 : Inv x2 := by
      unfold x2
      refine Inv.set_lat (fun h => ?_) ?_
      · assumption
      · exact hs
    try clear_value x2
    refine drain_inv ?_
    refine result_inv ?_
    exact h3
  · exact hs

theorem emergRecord_inv {b0 b1 b2 b3 s} (hs : Inv s) : Inv (emergRecord b0 b1 b2 b3 s) := by
  unfold emergRecord
  refine emit_inv ?_
  exact hs

theorem engineFindings_inv {b0 s} (hs : Inv s) : Inv (engineFindings b0 s) := by
  induction b0 generalizing s with
  | nil =>
    rw [engineFindings.eq_1]
    exact hs
  | cons z zs ih =>
    rw [engineFindings.eq_2]
    refine ih ?_
    refine Inv.ite ?_ ?_
    · refine checkWord_inv ?_
      refine applyFinding_inv ?_
      exact hs
    · exact hs

theorem engineStep_inv {b0 b1 s} (hf1 : ∀ t, Inv t → Inv (b1 t)) (hs : Inv s) : Inv (engineStep b0 b1 s) := by
  unfold engineStep
  refine Inv.ite ?_ ?_
  · extract_lets -merge -useContext +onlyGivenNames x0
    have h1 : Inv x0 := by
      unfold x0
      refine engineFindings_inv ?_
      exact hs
    try clear_value x0
    refine Inv.ite ?_ ?_
    · exact h1
    · refine Inv.ite ?_ ?_
      · refine unitDisagrees_inv ?_
        exact h1
      · refine hf1 _ ?_
        exact h1
  · exact hs

theorem requestRow_inv {b0 b1 b2 s} (hf2 : ∀ c0 t, Inv t → Inv (b2 c0 t)) (hs : Inv s) : Inv (requestRow b0 b1 b2 s) := by
  unfold requestRow
  extract_lets -merge -useContext +onlyGivenNames x0
  have h1 : Inv x0 := by
    unfold x0
    refine drain_inv ?_
    exact hs
  try clear_value x0
  split
  · refine Inv.ite ?_ ?_
    · refine engineStep_inv ?_ ?_
      · intro s hs
        refine hf2 _ _ ?_
        exact hs
      · exact h1
    · exact h1
  · exact h1

theorem execSet_inv {b0 b1 s} (hs : Inv s) : InvA (execSet b0 b1 s) := by
  unfold execSet
  refine InvA.next ?_
  refine requestRow_inv ?_ ?_
  · intro a0 s hs
    refine decideReq_inv ?_
    exact hs
  · refine begin'_inv ?_
    exact hs

theorem execCancel_inv {b0 b1 s} (hs : Inv s) : InvA (execCancel b0 b1 s) := by
  unfold execCancel
  refine InvA.next ?_
  refine requestRow_inv ?_ ?_
  · intro a0 s hs
    refine decideReq_inv ?_
    exact hs
  · refine begin'_inv ?_
    exact hs

theorem execElementBlock_inv {b0 b1 s} (hs : Inv s) : InvA (execElementBlock b0 b1 s) := by
  unfold execElementBlock
  refine InvA.next ?_
  refine requestRow_inv ?_ ?_
  · intro a0 s hs
    refine decideReq_inv ?_
    exact hs
  · refine begin'_inv ?_
    exact hs

theorem execElementUnblock_inv {b0 b1 s} (hs : Inv s) : InvA (execElementUnblock b0 b1 s) := by
  unfold execElementUnblock
  refine InvA.next ?_
  refine requestRow_inv ?_ ?_
  · intro a0 s hs
    refine decideReq_inv ?_
    exact hs
  · refine begin'_inv ?_
    exact hs

theorem execPointLock_inv {b0 b1 s} (hs : Inv s) : InvA (execPointLock b0 b1 s) := by
  unfold execPointLock
  refine InvA.next ?_
  refine requestRow_inv ?_ ?_
  · intro a0 s hs
    refine decideReq_inv ?_
    exact hs
  · refine begin'_inv ?_
    exact hs

theorem execPointFree_inv {b0 b1 s} (hs : Inv s) : InvA (execPointFree b0 b1 s) := by
  unfold execPointFree
  refine InvA.next ?_
  refine requestRow_inv ?_ ?_
  · intro a0 s hs
    refine decideReq_inv ?_
    exact hs
  · refine begin'_inv ?_
    exact hs

theorem decideEmergency_inv {q s t} (hs : Inv t) : Inv ((decideEmergency q s).2 t) := by
  unfold decideEmergency
  repeat' (first | extract_lets | split)
  all_goals first
    | exact hs
    | exact emergRecord_inv hs
    | exact emergRecord_inv (Inv.set_lat (fun h => h.lat) hs)

theorem emergencyDone_inv {b0 s} (hs : Inv s) : Inv (emergencyDone b0 s) := by
  unfold emergencyDone
  extract_lets d n s1
  have h : Inv s1 := decideReq_inv hs
  refine Inv.ite (decideEmergency_inv h) h

theorem execEmergencyRelease_inv {b0 b1 s} (hs : Inv s) : InvA (execEmergencyRelease b0 b1 s) := by
  unfold execEmergencyRelease
  refine InvA.next ?_
  refine requestRow_inv ?_ ?_
  · intro a0 s hs
    refine emergencyDone_inv ?_
    exact hs
  · refine begin'_inv ?_
    exact hs

theorem execUndefinedRequest_inv {b0 b1 s} (hs : Inv s) : InvA (execUndefinedRequest b0 b1 s) := by
  unfold execUndefinedRequest
  refine InvA.next ?_
  refine requestRow_inv ?_ ?_
  · intro a0 s hs
    refine decideReq_inv ?_
    exact hs
  · refine begin'_inv ?_
    exact hs

theorem updateRefused_inv {b0 s} (hs : Inv s) : Inv (updateRefused b0 s) := by
  unfold updateRefused
  refine emitAt_inv ?_
  refine Inv.keep cnt_keeps rfl ?_
  exact hs

theorem latUpdate_inv {b0 s} (hs : Inv s) : Inv (latUpdate b0 s) := by
  unfold latUpdate
  extract_lets -merge -useContext +onlyGivenNames x0
  have h1 : ∀ s, Inv (s) → Inv (x0 s) := by
    intro s hs
    unfold x0
    refine admitUpdates_inv ?_
    refine Inv.set_lat (fun h => ?_) ?_
    · exact Nat.le_trans (Nat.le_of_eq (List.length_drop (i := 1) (l := s.lat.updQ))) (Nat.le_trans (Nat.sub_le _ _) h.lat)
    · exact hs
  try clear_value x0
  refine Inv.ite ?_ ?_
  · refine drain_inv ?_
    refine h1 _ ?_
    refine updateRefused_inv ?_
    exact hs
  · refine latCommit_inv ?_ ?_
    · intro s hs
      refine drain_inv ?_
      refine h1 _ ?_
      exact hs
    · exact hs

theorem execUpdate_inv {b0 b1 s} (hs : Inv s) : InvA (execUpdate b0 b1 s) := by
  unfold execUpdate
  extract_lets -merge -useContext +onlyGivenNames x0
  have h1 : Inv x0 := by
    unfold x0
    refine drain_inv ?_
    refine begin'_inv ?_
    exact hs
  try clear_value x0
  refine InvA.next ?_
  split
  · refine engineStep_inv ?_ ?_
    · intro s hs
      refine latUpdate_inv ?_
      exact hs
    · exact h1
  · exact h1

theorem execResultWriteResume_inv {b0 s} (hs : Inv s) : InvA (execResultWriteResume b0 s) := by
  unfold execResultWriteResume
  extract_lets -merge -useContext +onlyGivenNames x0
  have h1 : Inv x0 := by
    unfold x0
    refine begin'_inv ?_
    exact hs
  try clear_value x0
  refine InvA.next ?_
  split
  · refine Inv.ite ?_ ?_
    · refine drain_inv ?_
      refine putResult_inv ?_
      exact h1
    · exact h1
  · exact h1

theorem execResultPause_inv {b0 s} (hs : Inv s) : InvA (execResultPause b0 s) := by
  unfold execResultPause
  extract_lets -merge -useContext +onlyGivenNames x0
  have h1 : Inv x0 := by
    unfold x0
    refine begin'_inv ?_
    exact hs
  try clear_value x0
  extract_lets -merge -useContext +onlyGivenNames x2
  try clear_value x2
  refine InvA.next ?_
  refine Inv.ite ?_ ?_
  · refine nvEvent_inv ?_
    refine Inv.set_lat (fun h => ?_) ?_
    · exact h.lat
    · exact h1
  · exact h1

theorem timerCommit_inv {b0 s b2} (hf2 : ∀ t, Inv t → Inv (b2 t)) (hs : Inv s) : Inv (timerCommit b0 s b2) := by
  unfold timerCommit
  refine latCommit_inv ?_ ?_
  · intro s hs
    refine hf2 _ ?_
    exact hs
  · exact hs

theorem cancelExpiry_inv {b0 s} (hs : Inv s) : Inv (cancelExpiry b0 s) := by
  unfold cancelExpiry
  refine Inv.ite ?_ ?_
  · refine timerCommit_inv ?_ ?_
    · intro s hs
      exact hs
    · exact hs
  · exact hs

theorem execCancelTimeExpiry_inv {b0 b1 s} (hs : Inv s) : InvA (execCancelTimeExpiry b0 b1 s) := by
  unfold execCancelTimeExpiry
  refine InvA.next ?_
  refine engineStep_inv ?_ ?_
  · intro s hs
    refine cancelExpiry_inv ?_
    exact hs
  · refine begin'_inv ?_
    exact hs

theorem approachExpiry_inv {b0 s} (hs : Inv s) : Inv (approachExpiry b0 s) := by
  unfold approachExpiry
  refine Inv.ite ?_ ?_
  · refine timerCommit_inv ?_ ?_
    · intro s hs
      exact hs
    · exact hs
  · exact hs

theorem execApproachTimeExpiry_inv {b0 b1 s} (hs : Inv s) : InvA (execApproachTimeExpiry b0 b1 s) := by
  unfold execApproachTimeExpiry
  refine InvA.next ?_
  refine engineStep_inv ?_ ?_
  · intro s hs
    refine approachExpiry_inv ?_
    exact hs
  · refine begin'_inv ?_
    exact hs

theorem overlapExpiry_inv {b0 s} (hs : Inv s) : Inv (overlapExpiry b0 s) := by
  unfold overlapExpiry
  extract_lets -merge -useContext +onlyGivenNames x0
  try clear_value x0
  refine Inv.ite ?_ ?_
  · refine timerCommit_inv ?_ ?_
    · intro s hs
      exact hs
    · exact hs
  · exact hs

theorem execOverlapTimeExpiry_inv {b0 b1 s} (hs : Inv s) : InvA (execOverlapTimeExpiry b0 b1 s) := by
  unfold execOverlapTimeExpiry
  refine InvA.next ?_
  refine engineStep_inv ?_ ?_
  · intro s hs
    refine overlapExpiry_inv ?_
    exact hs
  · refine begin'_inv ?_
    exact hs

theorem zoneLapse_inv {b0 s} (hs : Inv s) : Inv (zoneLapse b0 s) := by
  unfold zoneLapse
  extract_lets -merge -useContext +onlyGivenNames x0
  try clear_value x0
  refine Inv.ite ?_ ?_
  · refine timerCommit_inv ?_ ?_
    · intro s hs
      refine emergRecord_inv ?_
      exact hs
    · exact hs
  · exact hs

theorem execZoneLapse_inv {b0 b1 s} (hs : Inv s) : InvA (execZoneLapse b0 b1 s) := by
  unfold execZoneLapse
  refine InvA.next ?_
  refine engineStep_inv ?_ ?_
  · intro s hs
    refine zoneLapse_inv ?_
    exact hs
  · refine begin'_inv ?_
    exact hs

theorem borderTimeout_inv {b0 s} (hs : Inv s) : Inv (borderTimeout b0 s) := by
  unfold borderTimeout
  extract_lets -merge -useContext +onlyGivenNames x0
  try clear_value x0
  refine Inv.ite ?_ ?_
  · refine timerCommit_inv ?_ ?_
    · intro s hs
      refine nvEvent_inv ?_
      refine Inv.keep cnt_keeps rfl ?_
      exact hs
    · exact hs
  · exact hs

theorem execBorderTimeout_inv {b0 b1 s} (hs : Inv s) : InvA (execBorderTimeout b0 b1 s) := by
  unfold execBorderTimeout
  refine InvA.next ?_
  refine engineStep_inv ?_ ?_
  · intro s hs
    refine borderTimeout_inv ?_
    exact hs
  · refine begin'_inv ?_
    exact hs

theorem timerFold_inv {b0 b1 s} (hf0 : ∀ c0 t, Inv t → Inv (b0 c0 t)) (hs : Inv s) : Inv (timerFold b0 b1 s) := by
  induction b1 generalizing s with
  | nil =>
    rw [timerFold.eq_1]
    exact hs
  | cons z zs ih =>
    rw [timerFold.eq_2]
    refine ih ?_
    refine Inv.ite ?_ ?_
    · refine hf0 _ _ ?_
      exact hs
    · exact hs

theorem timerSteps_inv {s} (hs : Inv s) : Inv (timerSteps s) := by
  unfold timerSteps
  extract_lets -merge -useContext +onlyGivenNames x0
  have h1 : Inv x0 := by
    unfold x0
    refine latCommit_inv ?_ ?_
    · intro s hs
      exact hs
    · exact hs
  try clear_value x0
  extract_lets -merge -useContext +onlyGivenNames x2
  have h3 : Inv x2 := by
    unfold x2
    refine timerFold_inv ?_ ?_
    · intro a4 s hs
      refine borderTimeout_inv ?_
      exact hs
    · exact h1
  try clear_value x2
  extract_lets -merge -useContext +onlyGivenNames x5
  have h6 : Inv x5 := by
    unfold x5
    refine timerFold_inv ?_ ?_
    · intro a7 s hs
      refine cancelExpiry_inv ?_
      exact hs
    · exact h3
  try clear_value x5
  extract_lets -merge -useContext +onlyGivenNames x8
  have h9 : Inv x8 := by
    unfold x8
    refine timerFold_inv ?_ ?_
    · intro a10 s hs
      refine approachExpiry_inv ?_
      exact hs
    · exact h6
  try clear_value x8
  extract_lets -merge -useContext +onlyGivenNames x11
  have h12 : Inv x11 := by
    unfold x11
    refine timerFold_inv ?_ ?_
    · intro a13 s hs
      refine overlapExpiry_inv ?_
      exact hs
    · exact h9
  try clear_value x11
  refine timerFold_inv ?_ ?_
  · intro a14 s hs
    refine zoneLapse_inv ?_
    exact hs
  · exact h12

theorem timerStep_inv {b0 s} (hs : Inv s) : Inv (timerStep b0 s) := by
  unfold timerStep
  extract_lets -merge -useContext +onlyGivenNames x0
  have h1 : x0 = s.lat := rfl
  replace h1 : x0.updQ.length ≤ 64 := by
    rw [h1]
    exact hs.lat
  try clear_value x0
  extract_lets -merge -useContext +onlyGivenNames x2
  have h3 : Inv x2 := by
    unfold x2
    refine engineFindings_inv ?_
    refine Inv.set_lat (fun h => ?_) ?_
    · exact by assumption
    · exact hs
  try clear_value x2
  refine Inv.ite ?_ ?_
  · exact h3
  · refine Inv.ite ?_ ?_
    · refine Inv.set_lat (fun h => ?_) ?_
      · exact h.lat
      · exact h3
    · refine Inv.ite ?_ ?_
      · refine unitDisagrees_inv ?_
        refine Inv.set_lat (fun h => ?_) ?_
        · exact h.lat
        · exact h3
      · extract_lets -merge -useContext +onlyGivenNames x4
        have h5 : Inv x4 := by
          unfold x4
          refine timerSteps_inv ?_
          exact h3
        try clear_value x4
        refine Inv.ite ?_ ?_
        · refine unitDisagrees_inv ?_
          refine Inv.set_lat (fun h => ?_) ?_
          · exact h.lat
          · exact h3
        · refine drain_inv ?_
          exact h5

end Sys2Proof.Machine
end

