-- ==== Sys2Proof/Laws/KeepsTelegram.lean ====
section
/-! SUPPORT. Frames of the functions of Machine/Telegram.lean: what each leaves alone, said once. The docstrings name the parts of `State` a function may write; the mask marks all others. -/

namespace Sys2Proof.Machine

/-- Writes at most: tel. -/
theorem setChan_keeps {b0 s} : Keeps 67043327 s (setChan b0 s) := by
  unfold setChan
  refine Keeps.app (wr_tel rfl) ?_
  exact Keeps.refl

/-- Writes at most: sent lnk. -/
theorem mirrorChan_keeps {b0 b1 s} : Keeps 50331645 s (mirrorChan b0 b1 s) := by
  unfold mirrorChan
  refine Keeps.step mirror_keeps rfl ?_
  exact Keeps.refl

/-- Writes at most: regs. -/
theorem chResult_keeps {b0 s} : Keeps 67092479 s (chResult b0 s) := by
  unfold chResult
  refine Keeps.step setRf_keeps rfl ?_
  exact Keeps.refl

/-- Writes at most: regs evr. -/
theorem staleHandle_keeps {b0 b1 s} : Keeps 64995327 s (staleHandle b0 b1 s) := by
  unfold staleHandle
  refine Keeps.step emit_keeps rfl ?_
  refine Keeps.step cnt_keeps rfl ?_
  exact Keeps.refl

/-- Writes at most: tel. -/
theorem setKey_keeps {b0 s} : Keeps 67043327 s (setKey b0 s) := by
  unfold setKey
  refine Keeps.app (wr_tel rfl) ?_
  exact Keeps.refl

/-- Writes at most: sent regs tel lnk. -/
theorem openChan_keeps {b0 b1 s} : Keeps 50249725 s (openChan b0 b1 s) := by
  unfold openChan
  extract_lets -merge -useContext +onlyGivenNames x0
  try clear_value x0
  extract_lets -merge -useContext +onlyGivenNames x1
  try clear_value x1
  refine Keeps.step mirrorChan_keeps rfl ?_
  refine Keeps.step chResult_keeps rfl ?_
  refine Keeps.step setRv_keeps rfl ?_
  refine Keeps.step setChan_keeps rfl ?_
  exact Keeps.refl

/-- Writes at most: sent regs tel evr lnk. -/
theorem chCreate_keeps {b0 s} : Keeps 48152573 s (chCreate b0 s) := by
  unfold chCreate
  refine Keeps.ite ?_ ?_
  · refine Keeps.step nvEvent_keeps rfl ?_
    exact Keeps.refl
  · split
    · refine Keeps.step chResult_keeps rfl ?_
      exact Keeps.refl
    · refine Keeps.step chResult_keeps rfl ?_
      exact Keeps.refl
    · refine Keeps.step chResult_keeps rfl ?_
      exact Keeps.refl
    · split
      · refine Keeps.step chResult_keeps rfl ?_
        exact Keeps.refl
      · refine Keeps.ite ?_ ?_
        · refine Keeps.ite ?_ ?_
          · refine Keeps.step chResult_keeps rfl ?_
            exact Keeps.refl
          · refine Keeps.ite ?_ ?_
            · refine Keeps.step openChan_keeps rfl ?_
              exact Keeps.refl
            · refine Keeps.ite ?_ ?_
              · refine Keeps.step chResult_keeps rfl ?_
                refine Keeps.app (wr_tel rfl) ?_
                exact Keeps.refl
              · refine Keeps.app (wr_tel rfl) ?_
                exact Keeps.refl
        · refine Keeps.step openChan_keeps rfl ?_
          exact Keeps.refl

/-- Writes at most: cand. -/
theorem sessionWrite_keeps {b0 s} : Keeps 67108831 s (sessionWrite b0 s) := by
  unfold sessionWrite
  split
  · refine Keeps.app (wr_cand rfl) ?_
    exact Keeps.refl
  · refine Keeps.app (wr_cand rfl) ?_
    exact Keeps.refl
  · refine Keeps.ite ?_ ?_
    · refine Keeps.app (wr_cand rfl) ?_
      exact Keeps.refl
    · refine Keeps.app (wr_cand rfl) ?_
      exact Keeps.refl

/-- Writes at most: sent cand regs tel lnk. -/
theorem chCreateDone_keeps {b0 s} : Keeps 50249693 s (chCreateDone b0 s) := by
  unfold chCreateDone
  refine Keeps.ite ?_ ?_
  · split
    · refine Keeps.step openChan_keeps rfl ?_
      extract_lets -merge -useContext +onlyGivenNames x1
      have h2 : Keeps 50249693 s x1 := by
        unfold x1
        refine Keeps.step sessionWrite_keeps rfl ?_
        exact Keeps.refl
      try clear_value x1
      refine Keeps.app (wr_tel rfl) ?_
      exact h2
    · refine Keeps.step chResult_keeps rfl ?_
      refine Keeps.app (wr_tel rfl) ?_
      exact Keeps.refl
  · exact Keeps.refl

/-- Writes at most: sent regs tel evr lnk. -/
theorem chDestroy_keeps {b0 s} : Keeps 48152573 s (chDestroy b0 s) := by
  unfold chDestroy
  refine Keeps.ite ?_ ?_
  · refine Keeps.step nvEvent_keeps rfl ?_
    exact Keeps.refl
  · extract_lets -merge -useContext +onlyGivenNames x0
    try clear_value x0
    refine Keeps.ite ?_ ?_
    · extract_lets -merge -useContext +onlyGivenNames x1
      try clear_value x1
      refine Keeps.step mirrorChan_keeps rfl ?_
      refine Keeps.step chResult_keeps rfl ?_
      refine Keeps.step setChan_keeps rfl ?_
      exact Keeps.refl
    · refine Keeps.step chResult_keeps rfl ?_
      refine Keeps.step staleHandle_keeps rfl ?_
      exact Keeps.refl

/-- Writes at most: sent clk civ cand pwr tri prg frc vm xch regs bus tel rings fio snu evr upd lnk. -/
theorem execCreate_keeps {b0 b1 s} : Answers 38013189 s (execCreate b0 b1 s) := by
  unfold execCreate
  refine Answers.next ?_
  refine Keeps.app (blockCommand_keeps ?_ rfl) ?_
  · intro s
    refine Keeps.step chCreate_keeps rfl ?_
    exact Keeps.refl
  · refine Keeps.step begin'_keeps rfl ?_
    exact Keeps.refl

/-- Writes at most: sent clk civ cand pwr tri prg frc vm xch regs bus tel rings fio snu evr upd lnk. -/
theorem execDestroy_keeps {b0 b1 s} : Answers 38013189 s (execDestroy b0 b1 s) := by
  unfold execDestroy
  refine Answers.next ?_
  refine Keeps.app (blockCommand_keeps ?_ rfl) ?_
  · intro s
    refine Keeps.step chDestroy_keeps rfl ?_
    exact Keeps.refl
  · refine Keeps.step begin'_keeps rfl ?_
    exact Keeps.refl

/-- Writes at most: sent clk civ cand prg regs bus tel lnk. -/
theorem execCreateComplete_keeps {b0 b1 s} : Answers 50216389 s (execCreateComplete b0 b1 s) := by
  unfold execCreateComplete
  extract_lets -merge -useContext +onlyGivenNames x0
  have h1 : Keeps 50216389 s x0 := by
    unfold x0
    refine Keeps.step begin'_keeps rfl ?_
    exact Keeps.refl
  try clear_value x0
  refine Answers.next ?_
  refine Keeps.ite ?_ ?_
  · refine Keeps.step chCreateDone_keeps rfl ?_
    exact h1
  · exact h1

/-- Writes at most: regs tel evr. -/
theorem keyCommit_keeps {b0 s} : Keeps 64929791 s (keyCommit b0 s) := by
  unfold keyCommit
  refine Keeps.ite ?_ ?_
  · exact Keeps.refl
  · extract_lets -merge -useContext +onlyGivenNames x0
    try clear_value x0
    refine Keeps.ite ?_ ?_
    · refine Keeps.step setKey_keeps rfl ?_
      exact Keeps.refl
    · refine Keeps.step emit_keeps rfl ?_
      refine Keeps.step setKey_keeps rfl ?_
      exact Keeps.refl

/-- Writes at most: tel. -/
theorem keyLock_keeps {b0 s} : Keeps 67043327 s (keyLock b0 s) := by
  unfold keyLock
  refine Keeps.ite ?_ ?_
  · exact Keeps.refl
  · refine Keeps.step setKey_keeps rfl ?_
    exact Keeps.refl

/-- Writes at most: sent clk civ cand pwr tri prg frc vm xch regs bus tel rings fio snu evr upd lnk. -/
theorem execKeyCommit_keeps {b0 b1 s} : Answers 38013189 s (execKeyCommit b0 b1 s) := by
  unfold execKeyCommit
  refine Answers.next ?_
  refine Keeps.app (blockCommand_keeps ?_ rfl) ?_
  · intro s
    refine Keeps.step keyCommit_keeps rfl ?_
    exact Keeps.refl
  · refine Keeps.step begin'_keeps rfl ?_
    exact Keeps.refl

/-- Writes at most: sent clk civ cand pwr tri prg frc vm xch regs bus tel rings fio snu evr upd lnk. -/
theorem execKeyLock_keeps {b0 b1 s} : Answers 38013189 s (execKeyLock b0 b1 s) := by
  unfold execKeyLock
  refine Answers.next ?_
  refine Keeps.app (blockCommand_keeps ?_ rfl) ?_
  · intro s
    refine Keeps.step keyLock_keeps rfl ?_
    exact Keeps.refl
  · refine Keeps.step begin'_keeps rfl ?_
    exact Keeps.refl

/-- Writes at most: regs. -/
theorem cvuFeed_keeps {b0 s} : Keeps 67092479 s (cvuFeed b0 s) := by
  unfold cvuFeed
  extract_lets -merge -useContext +onlyGivenNames x0
  try clear_value x0
  extract_lets -merge -useContext +onlyGivenNames x1
  try clear_value x1
  refine Keeps.step setRv_keeps rfl ?_
  refine Keeps.step setRv_keeps rfl ?_
  exact Keeps.refl

/-- Writes at most: sent clk civ cand pwr tri prg frc vm xch regs bus rings fio snu evr upd lnk. -/
theorem execCvuFeed_keeps {b0 b1 s} : Answers 38078725 s (execCvuFeed b0 b1 s) := by
  unfold execCvuFeed
  refine Answers.next ?_
  refine Keeps.app (blockCommand_keeps ?_ rfl) ?_
  · intro s
    refine Keeps.step cvuFeed_keeps rfl ?_
    exact Keeps.refl
  · refine Keeps.step begin'_keeps rfl ?_
    exact Keeps.refl

/-- Writes at most: sent regs tel evr lnk. -/
theorem sealTake_keeps {b0 b1 b2 s} : Keeps 48152573 s (sealTake b0 b1 b2 s).2 := by
  unfold sealTake
  extract_lets -merge -useContext +onlyGivenNames x0
  try clear_value x0
  split
  · refine Keeps.mkSnd ?_
    refine Keeps.step staleHandle_keeps rfl ?_
    exact Keeps.refl
  · refine Keeps.ite2 ?_ ?_
    · refine Keeps.mkSnd ?_
      refine Keeps.step staleHandle_keeps rfl ?_
      exact Keeps.refl
    · split
      · refine Keeps.mkSnd ?_
        refine Keeps.step emit_keeps rfl ?_
        refine Keeps.step cnt_keeps rfl ?_
        exact Keeps.refl
      · extract_lets -merge -useContext +onlyGivenNames x5
        try clear_value x5
        extract_lets -merge -useContext +onlyGivenNames x6
        try clear_value x6
        extract_lets -merge -useContext +onlyGivenNames x7
        try clear_value x7
        extract_lets -merge -useContext +onlyGivenNames x8
        have h9 : Keeps 48152573 s x8 := by
          unfold x8
          refine Keeps.step mirrorChan_keeps rfl ?_
          refine Keeps.step setChan_keeps rfl ?_
          exact Keeps.refl
        try clear_value x8
        extract_lets -merge -useContext +onlyGivenNames x10
        have h11 : Keeps 48152573 s x10 := by
          unfold x10
          refine Keeps.ite ?_ ?_
          · refine Keeps.step emit_keeps rfl ?_
            exact h9
          · exact h9
        try clear_value x10
        refine Keeps.mkSnd ?_
        exact h11

/-- Writes at most: sent tel lnk. -/
theorem egress_keeps {b0 b1 s} : Keeps 50266109 s (egress b0 b1 s) := by
  unfold egress
  refine Keeps.ite ?_ ?_
  · refine Keeps.app (wr_tel rfl) ?_
    exact Keeps.refl
  · split
    · refine Keeps.step sendItem_keeps rfl ?_
      exact Keeps.refl
    · refine Keeps.step send_keeps rfl ?_
      exact Keeps.refl

/-- Writes at most: sent tel lnk. -/
theorem releaseFenced_keeps {s} : Keeps 50266109 s (releaseFenced s) := by
  unfold releaseFenced
  extract_lets -merge -useContext +onlyGivenNames x0
  try clear_value x0
  extract_lets -merge -useContext +onlyGivenNames x1
  try clear_value x1
  refine Keeps.foldl ?_ _ ?_
  · intro s a2
    refine Keeps.step egress_keeps rfl ?_
    exact Keeps.refl
  · refine Keeps.app (wr_tel rfl) ?_
    exact Keeps.refl

/-- Writes at most: sent regs tel evr lnk. -/
theorem sealItem_keeps {b0 b1 b2 s} : Keeps 48152573 s (sealItem b0 b1 b2 s) := by
  unfold sealItem
  extract_lets -merge -useContext +onlyGivenNames x0
  try clear_value x0
  refine Keeps.ite ?_ ?_
  · refine Keeps.ite ?_ ?_
    · refine Keeps.step send_keeps rfl ?_
      exact Keeps.refl
    · exact Keeps.refl
  · extract_lets -merge -useContext +onlyGivenNames x1
    try clear_value x1
    split
    · rename_i y2 q3
      have h4 : Keeps 48152573 s y2 := by
        refine Keeps.snd ?_ q3
        refine Keeps.step sealTake_keeps rfl ?_
        exact Keeps.refl
      exact h4
    · rename_i y5 y6 y7 q8
      have h9 : Keeps 48152573 s y7 := by
        refine Keeps.snd ?_ q8
        refine Keeps.step sealTake_keeps rfl ?_
        exact Keeps.refl
      extract_lets -merge -useContext +onlyGivenNames x10
      try clear_value x10
      refine Keeps.ite ?_ ?_
      · extract_lets -merge -useContext +onlyGivenNames x11
        try clear_value x11
        refine Keeps.ite ?_ ?_
        · refine Keeps.step egress_keeps rfl ?_
          exact h9
        · exact h9
      · refine Keeps.ite ?_ ?_
        · refine Keeps.step egress_keeps rfl ?_
          exact h9
        · exact h9

/-- Writes at most: sent clk civ cand prg regs bus tel rings evr lnk. -/
theorem execTelegramSealing_keeps {b0 b1 s} : Answers 47988165 s (execTelegramSealing b0 b1 s) := by
  unfold execTelegramSealing
  extract_lets -merge -useContext +onlyGivenNames x0
  have h1 : Keeps 47988165 s x0 := by
    unfold x0
    refine Keeps.step begin'_keeps rfl ?_
    exact Keeps.refl
  try clear_value x0
  refine Answers.next ?_
  refine Keeps.ite ?_ ?_
  · split
    · rename_i y2 y3 y4 q5
      have h6 : Keeps 47988165 s y4 := by
        refine KeepsS3.elim ?_ q5
        refine KeepsS3.step ringTakeItem_keeps rfl ?_
        exact h1
      refine Keeps.ite ?_ ?_
      · exact h1
      · refine Keeps.step sealItem_keeps rfl ?_
        exact h6
    · exact h1
  · exact h1

/-- Writes at most: sent regs tel evr lnk. -/
theorem borderSend_keeps {b0 b1 b2 b3 s} : Keeps 48152573 s (borderSend b0 b1 b2 b3 s) := by
  induction b3 generalizing b0 b1 b2 s with
  | nil =>
    rw [borderSend.eq_1]
    exact Keeps.refl
  | cons z zs ih =>
    rw [borderSend.eq_2]
    refine Keeps.app ih ?_
    refine Keeps.ite ?_ ?_
    · split
      · rename_i y0 q1
        have h2 : Keeps 48152573 s y0 := by
          refine Keeps.snd ?_ q1
          refine Keeps.step sealTake_keeps rfl ?_
          exact Keeps.refl
        exact h2
      · rename_i y3 y4 y5 q6
        have h7 : Keeps 48152573 s y5 := by
          refine Keeps.snd ?_ q6
          refine Keeps.step sealTake_keeps rfl ?_
          exact Keeps.refl
        refine Keeps.step egress_keeps rfl ?_
        exact h7
    · exact Keeps.refl

/-- Writes at most: sent regs tel evr lnk. -/
theorem borderFrames_keeps {s} : Keeps 48152573 s (borderFrames s) := by
  unfold borderFrames
  extract_lets -merge -useContext +onlyGivenNames x0
  try clear_value x0
  refine Keeps.ite ?_ ?_
  · refine Keeps.foldl ?_ _ ?_
    · intro s a1
      refine Keeps.ite ?_ ?_
      · extract_lets -merge -useContext +onlyGivenNames x2
        try clear_value x2
        refine Keeps.step borderSend_keeps rfl ?_
        exact Keeps.refl
      · exact Keeps.refl
    · exact Keeps.refl
  · exact Keeps.refl

/-- Writes at most: sent cand pwr tri prg frc vm xch regs rings lat fio snu evr upd lnk. -/
theorem borderIngest_keeps {b0 b1 s} : Keeps 37849373 s (borderIngest b0 b1 s) := by
  induction b1 generalizing b0 s with
  | nil =>
    rw [borderIngest.eq_1]
    exact Keeps.refl
  | cons z zs ih =>
    rw [borderIngest.eq_2]
    refine Keeps.app ih ?_
    split
    · refine Keeps.ite ?_ ?_
      · refine Keeps.step postUpdate_keeps rfl ?_
        exact Keeps.refl
      · refine Keeps.step updateRefused_keeps rfl ?_
        exact Keeps.refl
    · refine Keeps.step updateRefused_keeps rfl ?_
      exact Keeps.refl

/-- Writes at most: regs tel. -/
theorem telFail_keeps {b0 b1 s} : Keeps 67026943 s (telFail b0 b1 s) := by
  unfold telFail
  refine Keeps.step cnt_keeps rfl ?_
  refine Keeps.step setChan_keeps rfl ?_
  exact Keeps.refl

/-- Writes at most: prg. -/
theorem bindInputs_keeps {b0 b1 s} : Keeps 67108351 s (bindInputs b0 b1 s) := by
  unfold bindInputs
  refine Keeps.foldl ?_ _ ?_
  · intro s a0
    refine Keeps.ite ?_ ?_
    · extract_lets -merge -useContext +onlyGivenNames x1
      try clear_value x1
      extract_lets -merge -useContext +onlyGivenNames x2
      try clear_value x2
      refine Keeps.app (wr_prg rfl) ?_
      exact Keeps.refl
    · exact Keeps.refl
  · exact Keeps.refl

/-- Writes at most: prg xch regs rings lat evr. -/
theorem latIngest_keeps {b0 b1 s} : Keeps 64593407 s (latIngest b0 b1 s) := by
  induction b1 generalizing b0 s with
  | nil =>
    rw [latIngest.eq_1]
    exact Keeps.refl
  | cons z zs ih =>
    rw [latIngest.eq_2]
    refine Keeps.ite ?_ ?_
    · exact Keeps.refl
    · refine Keeps.app ih ?_
      refine Keeps.step postRequest_keeps rfl ?_
      exact Keeps.refl

/-- Writes at most: sent cand pwr tri prg frc vm xch regs rings lat fio snu evr upd lnk. -/
theorem telDeliver_keeps {b0 b1 b2 b3 b4 b5 b6 s} : Keeps 37849373 s (telDeliver b0 b1 b2 b3 b4 b5 b6 s) := by
  unfold telDeliver
  extract_lets -merge -useContext +onlyGivenNames x0
  try clear_value x0
  extract_lets -merge -useContext +onlyGivenNames x1
  try clear_value x1
  refine Keeps.ite ?_ ?_
  · refine Keeps.ite ?_ ?_
    · exact Keeps.refl
    · refine Keeps.step borderIngest_keeps rfl ?_
      exact Keeps.refl
  · extract_lets -merge -useContext +onlyGivenNames x2
    try clear_value x2
    extract_lets -merge -useContext +onlyGivenNames x3
    have h4 : Keeps 37849373 s x3 := by
      unfold x3
      refine Keeps.step bindInputs_keeps rfl ?_
      exact Keeps.refl
    try clear_value x3
    extract_lets -merge -useContext +onlyGivenNames x5
    have h6 : Keeps 37849373 s x5 := by
      unfold x5
      refine Keeps.ite ?_ ?_
      · refine Keeps.step deliverItem_keeps rfl ?_
        exact h4
      · exact h4
    try clear_value x5
    refine Keeps.ite ?_ ?_
    · refine Keeps.ite ?_ ?_
      · refine Keeps.step cnt_keeps rfl ?_
        exact h6
      · refine Keeps.ite ?_ ?_
        · exact h6
        · refine Keeps.step latIngest_keeps rfl ?_
          exact h6
    · exact h6

/-- Writes at most: sent cand pwr tri prg frc vm xch regs tel rings lat fio snu evr upd lnk. -/
theorem telAccept_keeps {b0 b1 b2 b3 b4 b5 b6 s} : Keeps 37783837 s (telAccept b0 b1 b2 b3 b4 b5 b6 s) := by
  unfold telAccept
  extract_lets -merge -useContext +onlyGivenNames x0
  try clear_value x0
  extract_lets -merge -useContext +onlyGivenNames x1
  try clear_value x1
  extract_lets -merge -useContext +onlyGivenNames x2
  have h3 : Keeps 37783837 s x2 := by
    unfold x2
    refine Keeps.step setChan_keeps rfl ?_
    exact Keeps.refl
  try clear_value x2
  split
  · refine Keeps.step telFail_keeps rfl ?_
    exact h3
  · extract_lets -merge -useContext +onlyGivenNames x6
    try clear_value x6
    extract_lets -merge -useContext +onlyGivenNames x7
    have h8 : Keeps 37783837 s x7 := by
      unfold x7
      refine Keeps.step setChan_keeps rfl ?_
      exact h3
    try clear_value x7
    split
    · refine Keeps.step telDeliver_keeps rfl ?_
      exact h8
    · extract_lets -merge -useContext +onlyGivenNames x12
      try clear_value x12
      refine Keeps.ite ?_ ?_
      · refine Keeps.step telDeliver_keeps rfl ?_
        refine Keeps.step setChan_keeps rfl ?_
        exact h8
      · refine Keeps.step telFail_keeps rfl ?_
        exact h8

/-- Writes at most: sent cand pwr tri prg frc vm xch regs tel rings lat fio snu evr sta upd lnk. -/
theorem telReceive_keeps {b0 b1 s} : Keeps 33589533 s (telReceive b0 b1 s) := by
  unfold telReceive
  extract_lets -merge -useContext +onlyGivenNames x0
  try clear_value x0
  refine Keeps.ite ?_ ?_
  · refine Keeps.step cnt_keeps rfl ?_
    exact Keeps.refl
  · extract_lets -merge -useContext +onlyGivenNames x1
    try clear_value x1
    extract_lets -merge -useContext +onlyGivenNames x2
    try clear_value x2
    extract_lets -merge -useContext +onlyGivenNames x3
    try clear_value x3
    split
    · extract_lets -merge -useContext +onlyGivenNames x5
      try clear_value x5
      extract_lets -merge -useContext +onlyGivenNames x6
      try clear_value x6
      extract_lets -merge -useContext +onlyGivenNames x7
      try clear_value x7
      extract_lets -merge -useContext +onlyGivenNames x8
      try clear_value x8
      refine Keeps.step telAccept_keeps rfl ?_
      exact Keeps.refl
    · refine Keeps.ite ?_ ?_
      · refine Keeps.step stat_keeps rfl ?_
        refine Keeps.step telFail_keeps rfl ?_
        exact Keeps.refl
      · refine Keeps.step telFail_keeps rfl ?_
        exact Keeps.refl

/-- Writes at most: regs lnk. -/
theorem linkIn_keeps {b0 b1 b2 s} : Keeps 50315263 s (linkIn b0 b1 b2 s).2 := by
  unfold linkIn
  refine Keeps.ite2 ?_ ?_
  · refine Keeps.mkSnd ?_
    exact Keeps.refl
  · extract_lets -merge -useContext +onlyGivenNames x0
    try clear_value x0
    extract_lets -merge -useContext +onlyGivenNames x1
    have h2 : Keeps 50315263 s x1 := by
      unfold x1
      refine Keeps.ite ?_ ?_
      · refine Keeps.step modLink_keeps rfl ?_
        exact Keeps.refl
      · refine Keeps.step cnt_keeps rfl ?_
        exact Keeps.refl
    try clear_value x1
    refine Keeps.mkSnd ?_
    exact h2

/-- Writes at most: sent clk civ cand pwr tri prg frc vm xch regs bus tel rings lat fio snu evr sta upd lnk. -/
theorem execTelegram_keeps {b0 b1 s} : Answers 33556741 s (execTelegram b0 b1 s) := by
  unfold execTelegram
  extract_lets -merge -useContext +onlyGivenNames x0
  have h1 : Keeps 33556741 s x0 := by
    unfold x0
    refine Keeps.step begin'_keeps rfl ?_
    exact Keeps.refl
  try clear_value x0
  refine Answers.next ?_
  refine Keeps.ite ?_ ?_
  · exact h1
  · refine Keeps.ite ?_ ?_
    · exact h1
    · refine Keeps.ite ?_ ?_
      · split
        · refine Keeps.step telReceive_keeps rfl ?_
          exact h1
        · refine Keeps.step cnt_keeps rfl ?_
          exact h1
      · split
        · rename_i y4 q5
          have h6 : Keeps 33556741 s y4 := by
            refine Keeps.snd ?_ q5
            refine Keeps.step linkIn_keeps rfl ?_
            exact h1
          exact h6
        · rename_i y7 q8
          have h9 : Keeps 33556741 s y7 := by
            refine Keeps.snd ?_ q8
            refine Keeps.step linkIn_keeps rfl ?_
            exact h1
          split
          · refine Keeps.step telReceive_keeps rfl ?_
            exact h9
          · refine Keeps.step cnt_keeps rfl ?_
            exact h9

/-- Writes at most: sent regs. -/
theorem ethForward_keeps {b0 b1 b2 s} : Keeps 67092477 s (ethForward b0 b1 b2 s) := by
  unfold ethForward
  refine Keeps.ite ?_ ?_
  · refine Keeps.ite ?_ ?_
    · refine Keeps.step cnt_keeps rfl ?_
      exact Keeps.refl
    · extract_lets -merge -useContext +onlyGivenNames x0
      have h1 : Keeps 67092477 s x0 := by
        unfold x0
        refine Keeps.step setRf_keeps rfl ?_
        refine Keeps.step cnt_keeps rfl ?_
        exact Keeps.refl
      try clear_value x0
      refine Keeps.step send_keeps rfl ?_
      exact h1
  · refine Keeps.step send_keeps rfl ?_
    refine Keeps.ite ?_ ?_
    · refine Keeps.step cnt_keeps rfl ?_
      exact Keeps.refl
    · exact Keeps.refl

/-- Writes at most: prg xch regs rings evr. -/
theorem ethDeliver_keeps {b0 b1 s} : Keeps 64855551 s (ethDeliver b0 b1 s) := by
  unfold ethDeliver
  extract_lets -merge -useContext +onlyGivenNames x0
  try clear_value x0
  extract_lets -merge -useContext +onlyGivenNames x1
  have h2 : Keeps 64855551 s x1 := by
    unfold x1
    refine Keeps.ite ?_ ?_
    · refine Keeps.step cnt_keeps rfl ?_
      exact Keeps.refl
    · exact Keeps.refl
  try clear_value x1
  extract_lets -merge -useContext +onlyGivenNames x3
  try clear_value x3
  refine Keeps.ite ?_ ?_
  · refine Keeps.step deliverItem_keeps rfl ?_
    exact h2
  · exact h2

/-- Writes at most: sent clk civ cand prg xch regs bus rings evr lnk. -/
theorem execEthernetFrame_keeps {b0 b1 s} : Answers 48045509 s (execEthernetFrame b0 b1 s) := by
  unfold execEthernetFrame
  extract_lets -merge -useContext +onlyGivenNames x0
  have h1 : Keeps 48045509 s x0 := by
    unfold x0
    refine Keeps.step begin'_keeps rfl ?_
    exact Keeps.refl
  try clear_value x0
  refine Answers.next ?_
  refine Keeps.ite ?_ ?_
  · exact h1
  · split
    · refine Keeps.ite ?_ ?_
      · refine Keeps.step ethForward_keeps rfl ?_
        exact h1
      · exact h1
    · refine Keeps.ite ?_ ?_
      · refine Keeps.step ethDeliver_keeps rfl ?_
        exact h1
      · exact h1
    · refine Keeps.ite ?_ ?_
      · extract_lets -merge -useContext +onlyGivenNames x6
        have h7 : Keeps 48045509 s x6 := by
          unfold x6
          refine Keeps.step cnt_keeps rfl ?_
          exact h1
        try clear_value x6
        extract_lets -merge -useContext +onlyGivenNames x8
        try clear_value x8
        refine Keeps.ite ?_ ?_
        · refine Keeps.step deliverItem_keeps rfl ?_
          exact h7
        · exact h7
      · exact h1
    · exact h1

/-- Writes at most: sent clk civ cand prg regs bus lnk. -/
theorem execEthernetPortLink_keeps {b0 b1 b2 s} : Answers 50281925 s (execEthernetPortLink b0 b1 b2 s) := by
  unfold execEthernetPortLink
  extract_lets -merge -useContext +onlyGivenNames x0
  have h1 : Keeps 50281925 s x0 := by
    unfold x0
    refine Keeps.step begin'_keeps rfl ?_
    exact Keeps.refl
  try clear_value x0
  refine Answers.next ?_
  refine Keeps.ite ?_ ?_
  · refine Keeps.step setRf_keeps rfl ?_
    exact h1
  · exact h1

end Sys2Proof.Machine
end

