-- ==== Sys2Proof/Laws/InvTelegram.lean ====
section
/-! SUPPORT. The functions of Machine/Telegram.lean keep the invariant `Inv`. -/

namespace Sys2Proof.Machine

theorem staleHandle_inv {b0 b1 s} (hs : Inv s) : Inv (staleHandle b0 b1 s) := by
  unfold staleHandle
  refine emit_inv ?_
  refine Inv.keep cnt_keeps rfl ?_
  exact hs

theorem chCreate_inv {b0 s} (hs : Inv s) : Inv (chCreate b0 s) := by
  unfold chCreate
  refine Inv.ite ?_ ?_
  · refine nvEvent_inv ?_
    exact hs
  · split
    · refine Inv.keep chResult_keeps rfl ?_
      exact hs
    · refine Inv.keep chResult_keeps rfl ?_
      exact hs
    · refine Inv.keep chResult_keeps rfl ?_
      exact hs
    · split
      · refine Inv.keep chResult_keeps rfl ?_
        exact hs
      · refine Inv.ite ?_ ?_
        · refine Inv.ite ?_ ?_
          · refine Inv.keep chResult_keeps rfl ?_
            exact hs
          · refine Inv.ite ?_ ?_
            · refine Inv.keep openChan_keeps rfl ?_
              exact hs
            · refine Inv.ite ?_ ?_
              · refine Inv.keep chResult_keeps rfl ?_
                refine Inv.keep (wr_tel (m := 67043327) rfl) rfl ?_
                exact hs
              · refine Inv.keep (wr_tel (m := 67043327) rfl) rfl ?_
                exact hs
        · refine Inv.keep openChan_keeps rfl ?_
          exact hs

theorem sessionWrite_inv {b0 s} (hs : Inv s) : Inv (sessionWrite b0 s) := by
  unfold sessionWrite
  split
  · refine Inv.set_cand (fun h => ?_) ?_
    · exact h.cand
    · exact hs
  · refine Inv.set_cand (fun h => ?_) ?_
    · exact h.cand
    · exact hs
  · refine Inv.ite ?_ ?_
    · refine Inv.set_cand (fun h => ?_) ?_
      · exact h.cand
      · exact hs
    · refine Inv.set_cand (fun h => ?_) ?_
      · exact h.cand
      · exact hs

theorem chCreateDone_inv {b0 s} (hs : Inv s) : Inv (chCreateDone b0 s) := by
  unfold chCreateDone
  refine Inv.ite ?_ ?_
  · split
    · refine Inv.keep openChan_keeps rfl ?_
      extract_lets -merge -useContext +onlyGivenNames x1
      have h2 : Inv x1 := by
        unfold x1
        refine sessionWrite_inv ?_
        exact hs
      try clear_value x1
      refine Inv.keep (wr_tel (m := 67043327) rfl) rfl ?_
      exact h2
    · refine Inv.keep chResult_keeps rfl ?_
      refine Inv.keep (wr_tel (m := 67043327) rfl) rfl ?_
      exact hs
  · exact hs

theorem chDestroy_inv {b0 s} (hs : Inv s) : Inv (chDestroy b0 s) := by
  unfold chDestroy
  refine Inv.ite ?_ ?_
  · refine nvEvent_inv ?_
    exact hs
  · extract_lets -merge -useContext +onlyGivenNames x0
    try clear_value x0
    refine Inv.ite ?_ ?_
    · extract_lets -merge -useContext +onlyGivenNames x1
      try clear_value x1
      refine Inv.keep mirrorChan_keeps rfl ?_
      refine Inv.keep chResult_keeps rfl ?_
      refine Inv.keep setChan_keeps rfl ?_
      exact hs
    · refine Inv.keep chResult_keeps rfl ?_
      refine staleHandle_inv ?_
      exact hs

theorem execCreate_inv {b0 b1 s} (hs : Inv s) : InvA (execCreate b0 b1 s) := by
  unfold execCreate
  refine InvA.next ?_
  refine blockCommand_inv ?_ ?_
  · intro s hs
    refine chCreate_inv ?_
    exact hs
  · refine begin'_inv ?_
    exact hs

theorem execDestroy_inv {b0 b1 s} (hs : Inv s) : InvA (execDestroy b0 b1 s) := by
  unfold execDestroy
  refine InvA.next ?_
  refine blockCommand_inv ?_ ?_
  · intro s hs
    refine chDestroy_inv ?_
    exact hs
  · refine begin'_inv ?_
    exact hs

theorem execCreateComplete_inv {b0 b1 s} (hs : Inv s) : InvA (execCreateComplete b0 b1 s) := by
  unfold execCreateComplete
  extract_lets -merge -useContext +onlyGivenNames x0
  have h1 : Inv x0 := by
    unfold x0
    refine begin'_inv ?_
    exact hs
  try clear_value x0
  refine InvA.next ?_
  refine Inv.ite ?_ ?_
  · refine chCreateDone_inv ?_
    exact h1
  · exact h1

theorem keyCommit_inv {b0 s} (hs : Inv s) : Inv (keyCommit b0 s) := by
  unfold keyCommit
  refine Inv.ite ?_ ?_
  · exact hs
  · extract_lets -merge -useContext +onlyGivenNames x0
    try clear_value x0
    refine Inv.ite ?_ ?_
    · refine Inv.keep setKey_keeps rfl ?_
      exact hs
    · refine emit_inv ?_
      refine Inv.keep setKey_keeps rfl ?_
      exact hs

theorem execKeyCommit_inv {b0 b1 s} (hs : Inv s) : InvA (execKeyCommit b0 b1 s) := by
  unfold execKeyCommit
  refine InvA.next ?_
  refine blockCommand_inv ?_ ?_
  · intro s hs
    refine keyCommit_inv ?_
    exact hs
  · refine begin'_inv ?_
    exact hs

theorem execKeyLock_inv {b0 b1 s} (hs : Inv s) : InvA (execKeyLock b0 b1 s) := by
  unfold execKeyLock
  refine InvA.next ?_
  refine blockCommand_inv ?_ ?_
  · intro s hs
    refine Inv.keep keyLock_keeps rfl ?_
    exact hs
  · refine begin'_inv ?_
    exact hs

theorem execCvuFeed_inv {b0 b1 s} (hs : Inv s) : InvA (execCvuFeed b0 b1 s) := by
  unfold execCvuFeed
  refine InvA.next ?_
  refine blockCommand_inv ?_ ?_
  · intro s hs
    refine Inv.keep cvuFeed_keeps rfl ?_
    exact hs
  · refine begin'_inv ?_
    exact hs

theorem sealTake_inv {b0 b1 b2 s} (hs : Inv s) : Inv (sealTake b0 b1 b2 s).2 := by
  unfold sealTake
  extract_lets -merge -useContext +onlyGivenNames x0
  try clear_value x0
  split
  · refine Inv.mkSnd ?_
    refine staleHandle_inv ?_
    exact hs
  · refine Inv.ite2 ?_ ?_
    · refine Inv.mkSnd ?_
      refine staleHandle_inv ?_
      exact hs
    · split
      · refine Inv.mkSnd ?_
        refine emit_inv ?_
        refine Inv.keep cnt_keeps rfl ?_
        exact hs
      · extract_lets -merge -useContext +onlyGivenNames x5
        try clear_value x5
        extract_lets -merge -useContext +onlyGivenNames x6
        try clear_value x6
        extract_lets -merge -useContext +onlyGivenNames x7
        try clear_value x7
        extract_lets -merge -useContext +onlyGivenNames x8
        have h9 : Inv x8 := by
          unfold x8
          refine Inv.keep mirrorChan_keeps rfl ?_
          refine Inv.keep setChan_keeps rfl ?_
          exact hs
        try clear_value x8
        extract_lets -merge -useContext +onlyGivenNames x10
        have h11 : Inv x10 := by
          unfold x10
          refine Inv.ite ?_ ?_
          · refine emit_inv ?_
            exact h9
          · exact h9
        try clear_value x10
        refine Inv.mkSnd ?_
        exact h11

theorem sealItem_inv {b0 b1 b2 s} (hs : Inv s) : Inv (sealItem b0 b1 b2 s) := by
  unfold sealItem
  extract_lets -merge -useContext +onlyGivenNames x0
  try clear_value x0
  refine Inv.ite ?_ ?_
  · refine Inv.ite ?_ ?_
    · refine Inv.keep send_keeps rfl ?_
      exact hs
    · exact hs
  · extract_lets -merge -useContext +onlyGivenNames x1
    try clear_value x1
    split
    · rename_i y2 q3
      have h4 : Inv y2 := by
        refine Inv.snd ?_ q3
        refine sealTake_inv ?_
        exact hs
      exact h4
    · rename_i y5 y6 y7 q8
      have h9 : Inv y7 := by
        refine Inv.snd ?_ q8
        refine sealTake_inv ?_
        exact hs
      extract_lets -merge -useContext +onlyGivenNames x10
      try clear_value x10
      refine Inv.ite ?_ ?_
      · extract_lets -merge -useContext +onlyGivenNames x11
        try clear_value x11
        refine Inv.ite ?_ ?_
        · refine Inv.keep egress_keeps rfl ?_
          exact h9
        · exact h9
      · refine Inv.ite ?_ ?_
        · refine Inv.keep egress_keeps rfl ?_
          exact h9
        · exact h9

theorem execTelegramSealing_inv {b0 b1 s} (hs : Inv s) : InvA (execTelegramSealing b0 b1 s) := by
  unfold execTelegramSealing
  extract_lets -merge -useContext +onlyGivenNames x0
  have h1 : Inv x0 := by
    unfold x0
    refine begin'_inv ?_
    exact hs
  try clear_value x0
  refine InvA.next ?_
  refine Inv.ite ?_ ?_
  · split
    · rename_i y2 y3 y4 q5
      have h6 : Inv y4 := by
        refine InvS3.elim ?_ q5
        refine InvS3.keep ringTakeItem_keeps rfl ?_
        exact h1
      refine Inv.ite ?_ ?_
      · exact h1
      · refine sealItem_inv ?_
        exact h6
    · exact h1
  · exact h1

theorem borderSend_inv {b0 b1 b2 b3 s} (hs : Inv s) : Inv (borderSend b0 b1 b2 b3 s) := by
  induction b3 generalizing b0 b1 b2 s with
  | nil =>
    rw [borderSend.eq_1]
    exact hs
  | cons z zs ih =>
    rw [borderSend.eq_2]
    refine ih ?_
    refine Inv.ite ?_ ?_
    · split
      · rename_i y0 q1
        have h2 : Inv y0 := by
          refine Inv.snd ?_ q1
          refine sealTake_inv ?_
          exact hs
        exact h2
      · rename_i y3 y4 y5 q6
        have h7 : Inv y5 := by
          refine Inv.snd ?_ q6
          refine sealTake_inv ?_
          exact hs
        refine Inv.keep egress_keeps rfl ?_
        exact h7
    · exact hs

theorem borderFrames_inv {s} (hs : Inv s) : Inv (borderFrames s) := by
  unfold borderFrames
  extract_lets -merge -useContext +onlyGivenNames x0
  try clear_value x0
  refine Inv.ite ?_ ?_
  · refine Inv.foldl ?_ _ ?_
    · intro s a1 hs
      refine Inv.ite ?_ ?_
      · extract_lets -merge -useContext +onlyGivenNames x2
        try clear_value x2
        refine borderSend_inv ?_
        exact hs
      · exact hs
    · exact hs
  · exact hs

theorem borderIngest_inv {b0 b1 s} (hs : Inv s) : Inv (borderIngest b0 b1 s) := by
  induction b1 generalizing b0 s with
  | nil =>
    rw [borderIngest.eq_1]
    exact hs
  | cons z zs ih =>
    rw [borderIngest.eq_2]
    refine ih ?_
    split
    · refine Inv.ite ?_ ?_
      · refine postUpdate_inv ?_
        exact hs
      · refine updateRefused_inv ?_
        exact hs
    · refine updateRefused_inv ?_
      exact hs

theorem latIngest_inv {b0 b1 s} (hs : Inv s) : Inv (latIngest b0 b1 s) := by
  induction b1 generalizing b0 s with
  | nil =>
    rw [latIngest.eq_1]
    exact hs
  | cons z zs ih =>
    rw [latIngest.eq_2]
    refine Inv.ite ?_ ?_
    · exact hs
    · refine ih ?_
      refine postRequest_inv ?_
      exact hs

theorem telDeliver_inv {b0 b1 b2 b3 b4 b5 b6 s} (hs : Inv s) : Inv (telDeliver b0 b1 b2 b3 b4 b5 b6 s) := by
  unfold telDeliver
  extract_lets -merge -useContext +onlyGivenNames x0
  try clear_value x0
  extract_lets -merge -useContext +onlyGivenNames x1
  try clear_value x1
  refine Inv.ite ?_ ?_
  · refine Inv.ite ?_ ?_
    · exact hs
    · refine borderIngest_inv ?_
      exact hs
  · extract_lets -merge -useContext +onlyGivenNames x2
    try clear_value x2
    extract_lets -merge -useContext +onlyGivenNames x3
    have h4 : Inv x3 := by
      unfold x3
      refine Inv.keep bindInputs_keeps rfl ?_
      exact hs
    try clear_value x3
    extract_lets -merge -useContext +onlyGivenNames x5
    have h6 : Inv x5 := by
      unfold x5
      refine Inv.ite ?_ ?_
      · refine deliverItem_inv ?_
        exact h4
      · exact h4
    try clear_value x5
    refine Inv.ite ?_ ?_
    · refine Inv.ite ?_ ?_
      · refine Inv.keep cnt_keeps rfl ?_
        exact h6
      · refine Inv.ite ?_ ?_
        · exact h6
        · refine latIngest_inv ?_
          exact h6
    · exact h6

theorem telAccept_inv {b0 b1 b2 b3 b4 b5 b6 s} (hs : Inv s) : Inv (telAccept b0 b1 b2 b3 b4 b5 b6 s) := by
  unfold telAccept
  extract_lets -merge -useContext +onlyGivenNames x0
  try clear_value x0
  extract_lets -merge -useContext +onlyGivenNames x1
  try clear_value x1
  extract_lets -merge -useContext +onlyGivenNames x2
  have h3 : Inv x2 := by
    unfold x2
    refine Inv.keep setChan_keeps rfl ?_
    exact hs
  try clear_value x2
  split
  · refine Inv.keep telFail_keeps rfl ?_
    exact h3
  · extract_lets -merge -useContext +onlyGivenNames x6
    try clear_value x6
    extract_lets -merge -useContext +onlyGivenNames x7
    have h8 : Inv x7 := by
      unfold x7
      refine Inv.keep setChan_keeps rfl ?_
      exact h3
    try clear_value x7
    split
    · refine telDeliver_inv ?_
      exact h8
    · extract_lets -merge -useContext +onlyGivenNames x12
      try clear_value x12
      refine Inv.ite ?_ ?_
      · refine telDeliver_inv ?_
        refine Inv.keep setChan_keeps rfl ?_
        exact h8
      · refine Inv.keep telFail_keeps rfl ?_
        exact h8

theorem telReceive_inv {b0 b1 s} (hs : Inv s) : Inv (telReceive b0 b1 s) := by
  unfold telReceive
  extract_lets -merge -useContext +onlyGivenNames x0
  try clear_value x0
  refine Inv.ite ?_ ?_
  · refine Inv.keep cnt_keeps rfl ?_
    exact hs
  · extract_lets -merge -useContext +onlyGivenNames x1
    try clear_value x1
    extract_lets -merge -useContext +onlyGivenNames x2
    try clear_value x2
    extract_lets -merge -useContext +onlyGivenNames x3
    try clear_value x3
    split
    · extract_lets -merge -useContext +onlyGivenNames x5
      try clear_value x5
      extract_lets -merge -useContext +onlyGivenNames x6
      try clear_value x6
      extract_lets -merge -useContext +onlyGivenNames x7
      try clear_value x7
      extract_lets -merge -useContext +onlyGivenNames x8
      try clear_value x8
      refine telAccept_inv ?_
      exact hs
    · refine Inv.ite ?_ ?_
      · refine Inv.keep stat_keeps rfl ?_
        refine Inv.keep telFail_keeps rfl ?_
        exact hs
      · refine Inv.keep telFail_keeps rfl ?_
        exact hs

theorem execTelegram_inv {b0 b1 s} (hs : Inv s) : InvA (execTelegram b0 b1 s) := by
  unfold execTelegram
  extract_lets -merge -useContext +onlyGivenNames x0
  have h1 : Inv x0 := by
    unfold x0
    refine begin'_inv ?_
    exact hs
  try clear_value x0
  refine InvA.next ?_
  refine Inv.ite ?_ ?_
  · exact h1
  · refine Inv.ite ?_ ?_
    · exact h1
    · refine Inv.ite ?_ ?_
      · split
        · refine telReceive_inv ?_
          exact h1
        · refine Inv.keep cnt_keeps rfl ?_
          exact h1
      · split
        · rename_i y4 q5
          have h6 : Inv y4 := by
            refine Inv.snd ?_ q5
            refine Inv.keep linkIn_keeps rfl ?_
            exact h1
          exact h6
        · rename_i y7 q8
          have h9 : Inv y7 := by
            refine Inv.snd ?_ q8
            refine Inv.keep linkIn_keeps rfl ?_
            exact h1
          split
          · refine telReceive_inv ?_
            exact h9
          · refine Inv.keep cnt_keeps rfl ?_
            exact h9

theorem ethDeliver_inv {b0 b1 s} (hs : Inv s) : Inv (ethDeliver b0 b1 s) := by
  unfold ethDeliver
  extract_lets -merge -useContext +onlyGivenNames x0
  try clear_value x0
  extract_lets -merge -useContext +onlyGivenNames x1
  have h2 : Inv x1 := by
    unfold x1
    refine Inv.ite ?_ ?_
    · refine Inv.keep cnt_keeps rfl ?_
      exact hs
    · exact hs
  try clear_value x1
  extract_lets -merge -useContext +onlyGivenNames x3
  try clear_value x3
  refine Inv.ite ?_ ?_
  · refine deliverItem_inv ?_
    exact h2
  · exact h2

theorem execEthernetFrame_inv {b0 b1 s} (hs : Inv s) : InvA (execEthernetFrame b0 b1 s) := by
  unfold execEthernetFrame
  extract_lets -merge -useContext +onlyGivenNames x0
  have h1 : Inv x0 := by
    unfold x0
    refine begin'_inv ?_
    exact hs
  try clear_value x0
  refine InvA.next ?_
  refine Inv.ite ?_ ?_
  · exact h1
  · split
    · refine Inv.ite ?_ ?_
      · refine Inv.keep ethForward_keeps rfl ?_
        exact h1
      · exact h1
    · refine Inv.ite ?_ ?_
      · refine ethDeliver_inv ?_
        exact h1
      · exact h1
    · refine Inv.ite ?_ ?_
      · extract_lets -merge -useContext +onlyGivenNames x6
        have h7 : Inv x6 := by
          unfold x6
          refine Inv.keep cnt_keeps rfl ?_
          exact h1
        try clear_value x6
        extract_lets -merge -useContext +onlyGivenNames x8
        try clear_value x8
        refine Inv.ite ?_ ?_
        · refine deliverItem_inv ?_
          exact h7
        · exact h7
      · exact h1
    · exact h1

theorem execEthernetPortLink_inv {b0 b1 b2 s} (hs : Inv s) : InvA (execEthernetPortLink b0 b1 b2 s) := by
  unfold execEthernetPortLink
  extract_lets -merge -useContext +onlyGivenNames x0
  have h1 : Inv x0 := by
    unfold x0
    refine begin'_inv ?_
    exact hs
  try clear_value x0
  refine InvA.next ?_
  refine Inv.ite ?_ ?_
  · refine Inv.keep setRf_keeps rfl ?_
    exact h1
  · exact h1

end Sys2Proof.Machine
end

