-- ==== Sys2Proof/Laws/KeepsBus.lean ====
section
/-! SUPPORT. Frames of the functions of Machine/Bus.lean: what each leaves alone, said once. The docstrings name the parts of `State` a function may write; the mask marks all others. -/

namespace Sys2Proof.Machine

/-- Writes at most: bus. -/
theorem modHear_keeps {b0 b1 s} : Keeps 67076095 s (modHear b0 b1 s) := by
  unfold modHear
  refine Keeps.ite ?_ ?_
  · refine Keeps.app (wr_bus rfl) ?_
    exact Keeps.refl
  · refine Keeps.app (wr_bus rfl) ?_
    exact Keeps.refl

/-- Writes at most: bus. -/
theorem guardClose_keeps {b0 s} : Keeps 67076095 s (guardClose b0 s) := by
  unfold guardClose
  refine Keeps.app (wr_bus rfl) ?_
  exact Keeps.refl

/-- Writes at most: bus. -/
theorem toListen_keeps {s} : Keeps 67076095 s (toListen s) := by
  unfold toListen
  refine Keeps.step guardClose_keeps rfl ?_
  refine Keeps.app (wr_bus rfl) ?_
  exact Keeps.refl

/-- Writes at most: regs bus. -/
theorem toSilent_keeps {b0 s} : Keeps 67059711 s (toSilent b0 s) := by
  unfold toSilent
  refine Keeps.step cnt_keeps rfl ?_
  refine Keeps.step guardClose_keeps rfl ?_
  refine Keeps.app (wr_bus rfl) ?_
  exact Keeps.refl

/-- Writes at most: bus. -/
theorem toSynced_keeps {s} : Keeps 67076095 s (toSynced s) := by
  unfold toSynced
  refine Keeps.app (wr_bus rfl) ?_
  exact Keeps.refl

/-- Writes at most: bus. -/
theorem offToListen_keeps {s} : Keeps 67076095 s (offToListen s) := by
  unfold offToListen
  refine Keeps.ite ?_ ?_
  · refine Keeps.step toListen_keeps rfl ?_
    exact Keeps.refl
  · exact Keeps.refl

/-- Writes at most: clk regs bus evr. -/
theorem adoptTime_keeps {b0 b1 s} : Keeps 64962551 s (adoptTime b0 b1 s) := by
  unfold adoptTime
  extract_lets -merge -useContext +onlyGivenNames x0
  try clear_value x0
  extract_lets -merge -useContext +onlyGivenNames x1
  try clear_value x1
  extract_lets -merge -useContext +onlyGivenNames x2
  try clear_value x2
  extract_lets -merge -useContext +onlyGivenNames x3
  try clear_value x3
  extract_lets -merge -useContext +onlyGivenNames x4
  have h5 : Keeps 64962551 s x4 := by
    unfold x4
    exact Keeps.app (show Keeps 64962551 s _ from ⟨fun _ => rfl, fun _ => rfl, fun _ => rfl, fun h => noBit h rfl, fun _ => rfl, fun _ => rfl, fun _ => rfl, fun _ => rfl, fun _ => rfl, fun _ => rfl, fun _ => rfl, fun _ => rfl, fun _ => rfl, fun _ => rfl, fun _ => rfl, fun h => noBit h rfl, fun _ => rfl, fun _ => rfl, fun _ => rfl, fun _ => rfl, fun _ => rfl, fun _ => rfl, fun _ => rfl, fun _ => rfl, fun _ => rfl, fun _ => rfl⟩) Keeps.refl
  try clear_value x4
  refine Keeps.ite ?_ ?_
  · extract_lets -merge -useContext +onlyGivenNames x6
    have h7 : Keeps 64962551 s x6 := by
      unfold x6
      refine Keeps.step emit_keeps rfl ?_
      exact h5
    try clear_value x6
    split
    · refine Keeps.ite ?_ ?_
      · refine Keeps.step emit_keeps rfl ?_
        exact h7
      · exact h7
    · exact h7
  · exact h5

/-- Writes at most: clk regs bus evr. -/
theorem coldStart_keeps {b0 s} : Keeps 64962551 s (coldStart b0 s) := by
  unfold coldStart
  split
  · exact Keeps.refl
  · extract_lets -merge -useContext +onlyGivenNames x2
    try clear_value x2
    extract_lets -merge -useContext +onlyGivenNames x3
    try clear_value x3
    extract_lets -merge -useContext +onlyGivenNames x4
    have h5 : Keeps 64962551 s x4 := by
      unfold x4
      refine Keeps.step adoptTime_keeps rfl ?_
      exact Keeps.refl
    try clear_value x4
    refine Keeps.step addRf_keeps rfl ?_
    refine Keeps.app (wr_bus rfl) ?_
    exact h5

/-- Writes at most: regs bus evr. -/
theorem vbusCtlWrite_keeps {b0 s} : Keeps 64962559 s (vbusCtlWrite b0 s) := by
  unfold vbusCtlWrite
  refine Keeps.ite ?_ ?_
  · refine Keeps.step lockViolation_keeps rfl ?_
    exact Keeps.refl
  · extract_lets -merge -useContext +onlyGivenNames x0
    have h1 : Keeps 64962559 s x0 := by
      unfold x0
      refine Keeps.step setRv_keeps rfl ?_
      exact Keeps.refl
    try clear_value x0
    refine Keeps.ite ?_ ?_
    · refine Keeps.step offToListen_keeps rfl ?_
      exact h1
    · refine Keeps.step guardClose_keeps rfl ?_
      refine Keeps.app (wr_bus rfl) ?_
      exact h1

/-- Writes at most: sent clk civ cand pwr tri prg frc vm xch regs bus rings fio snu evr upd lnk. -/
theorem execVbusEnable_keeps {b0 b1 s} : Answers 38078725 s (execVbusEnable b0 b1 s) := by
  unfold execVbusEnable
  refine Answers.next ?_
  refine Keeps.app (blockCommand_keeps ?_ rfl) ?_
  · intro s
    refine Keeps.step vbusCtlWrite_keeps rfl ?_
    exact Keeps.refl
  · refine Keeps.step begin'_keeps rfl ?_
    exact Keeps.refl

/-- Writes at most: sent clk civ cand prg regs bus evr lnk. -/
theorem execListenTimeout_keeps {b0 s} : Answers 48184773 s (execListenTimeout b0 s) := by
  unfold execListenTimeout
  extract_lets -merge -useContext +onlyGivenNames x0
  have h1 : Keeps 48184773 s x0 := by
    unfold x0
    refine Keeps.step begin'_keeps rfl ?_
    exact Keeps.refl
  try clear_value x0
  extract_lets -merge -useContext +onlyGivenNames x2
  try clear_value x2
  refine Answers.next ?_
  refine Keeps.ite ?_ ?_
  · refine Keeps.ite ?_ ?_
    · refine Keeps.step coldStart_keeps rfl ?_
      exact h1
    · refine Keeps.app (wr_bus rfl) ?_
      exact h1
  · exact h1

/-- Writes at most: sent clk civ cand prg regs bus evr lnk. -/
theorem execBackoffExpiry_keeps {b0 s} : Answers 48184773 s (execBackoffExpiry b0 s) := by
  unfold execBackoffExpiry
  extract_lets -merge -useContext +onlyGivenNames x0
  have h1 : Keeps 48184773 s x0 := by
    unfold x0
    refine Keeps.step begin'_keeps rfl ?_
    exact Keeps.refl
  try clear_value x0
  extract_lets -merge -useContext +onlyGivenNames x2
  try clear_value x2
  refine Answers.next ?_
  refine Keeps.ite ?_ ?_
  · refine Keeps.ite ?_ ?_
    · refine Keeps.step coldStart_keeps rfl ?_
      exact h1
    · refine Keeps.step toListen_keeps rfl ?_
      refine Keeps.step emit_keeps rfl ?_
      refine Keeps.app (wr_bus rfl) ?_
      exact h1
  · exact h1

/-- Writes at most: sent clk civ cand prg regs bus evr lnk. -/
theorem execBusLost_keeps {b0 s} : Answers 48184773 s (execBusLost b0 s) := by
  unfold execBusLost
  extract_lets -merge -useContext +onlyGivenNames x0
  have h1 : Keeps 48184773 s x0 := by
    unfold x0
    refine Keeps.step begin'_keeps rfl ?_
    exact Keeps.refl
  try clear_value x0
  refine Answers.next ?_
  refine Keeps.ite ?_ ?_
  · refine Keeps.step emit_keeps rfl ?_
    refine Keeps.app (wr_bus rfl) ?_
    exact h1
  · exact h1

/-- Writes at most: sent clk civ cand pwr tri prg frc vm xch regs bus rings fio snu evr upd lnk. -/
theorem execBusSilence_keeps {b0 s} : Answers 38078725 s (execBusSilence b0 s) := by
  unfold execBusSilence
  extract_lets -merge -useContext +onlyGivenNames x0
  have h1 : Keeps 38078725 s x0 := by
    unfold x0
    refine Keeps.step begin'_keeps rfl ?_
    exact Keeps.refl
  try clear_value x0
  refine Answers.next ?_
  refine Keeps.ite ?_ ?_
  · refine Keeps.step vitalFault_keeps rfl ?_
    exact h1
  · exact h1

/-- Writes at most: bus. -/
theorem takeLamp_keeps {s} : Keeps 67076095 s (takeLamp s) := by
  unfold takeLamp
  extract_lets -merge -useContext +onlyGivenNames x0
  try clear_value x0
  split
  · refine Keeps.ite ?_ ?_
    · refine Keeps.step toListen_keeps rfl ?_
      exact Keeps.refl
    · exact Keeps.refl
  · extract_lets -merge -useContext +onlyGivenNames x4
    try clear_value x4
    refine Keeps.app (wr_bus rfl) ?_
    exact Keeps.refl

/-- Writes at most: sent clk civ cand prg bus lnk. -/
theorem execLamplighterTakeover_keeps {b0 s} : Answers 50298309 s (execLamplighterTakeover b0 s) := by
  unfold execLamplighterTakeover
  extract_lets -merge -useContext +onlyGivenNames x0
  have h1 : Keeps 50298309 s x0 := by
    unfold x0
    refine Keeps.step begin'_keeps rfl ?_
    exact Keeps.refl
  try clear_value x0
  refine Answers.next ?_
  refine Keeps.ite ?_ ?_
  · refine Keeps.step takeLamp_keeps rfl ?_
    exact h1
  · exact h1

/-- Writes at most: sent bus. -/
theorem sendPort_keeps {b0 b1 b2 s} : Keeps 67076093 s (sendPort b0 b1 b2 s) := by
  unfold sendPort
  extract_lets -merge -useContext +onlyGivenNames x0
  try clear_value x0
  refine Keeps.ite ?_ ?_
  · exact Keeps.refl
  · refine Keeps.ite ?_ ?_
    · refine Keeps.step busClash_keeps rfl ?_
      exact Keeps.refl
    · refine Keeps.step send_keeps rfl ?_
      refine Keeps.step modPort_keeps rfl ?_
      exact Keeps.refl

/-- Writes at most: sent bus. -/
theorem sendFrame_keeps {b0 b1 b2 b3 b4 b5 s} : Keeps 67076093 s (sendFrame b0 b1 b2 b3 b4 b5 s) := by
  unfold sendFrame
  refine Keeps.foldl ?_ _ ?_
  · intro s a0
    refine Keeps.ite ?_ ?_
    · extract_lets -merge -useContext +onlyGivenNames x1
      try clear_value x1
      extract_lets -merge -useContext +onlyGivenNames x2
      try clear_value x2
      extract_lets -merge -useContext +onlyGivenNames x3
      try clear_value x3
      refine Keeps.step sendPort_keeps rfl ?_
      refine Keeps.step sendPort_keeps rfl ?_
      exact Keeps.refl
    · exact Keeps.refl
  · exact Keeps.refl

/-- Writes at most: sent regs bus tel evr lnk. -/
theorem prepVital_keeps {b0 b1 b2 b3 s} : Keeps 48119805 s (prepVital b0 b1 b2 b3 s).2 := by
  unfold prepVital
  extract_lets -merge -useContext +onlyGivenNames x0
  try clear_value x0
  extract_lets -merge -useContext +onlyGivenNames x1
  try clear_value x1
  extract_lets -merge -useContext +onlyGivenNames x2
  have h3 : Keeps 48119805 s x2 := by
    unfold x2
    refine Keeps.app (wr_bus rfl) ?_
    exact Keeps.refl
  try clear_value x2
  extract_lets -merge -useContext +onlyGivenNames x4
  try clear_value x4
  refine Keeps.ite2 ?_ ?_
  · refine Keeps.mkSnd ?_
    exact h3
  · extract_lets -merge -useContext +onlyGivenNames x5
    try clear_value x5
    split
    · rename_i y6 q7
      have h8 : Keeps 48119805 s y6 := by
        refine Keeps.snd ?_ q7
        refine Keeps.step sealTake_keeps rfl ?_
        exact h3
      refine Keeps.mkSnd ?_
      exact h8
    · rename_i y9 y10 y11 q12
      have h13 : Keeps 48119805 s y11 := by
        refine Keeps.snd ?_ q12
        refine Keeps.step sealTake_keeps rfl ?_
        exact h3
      extract_lets -merge -useContext +onlyGivenNames x14
      try clear_value x14
      extract_lets -merge -useContext +onlyGivenNames x15
      try clear_value x15
      refine Keeps.mkSnd ?_
      exact h13

/-- Writes at most: sent regs bus tel rings evr upd lnk. -/
theorem prepSlot_keeps {b0 s} : Keeps 39600125 s (prepSlot b0 s).2 := by
  unfold prepSlot
  extract_lets -merge -useContext +onlyGivenNames x0
  try clear_value x0
  extract_lets -merge -useContext +onlyGivenNames x1
  try clear_value x1
  extract_lets -merge -useContext +onlyGivenNames x2
  try clear_value x2
  refine Keeps.ite2 ?_ ?_
  · refine Keeps.ite2 ?_ ?_
    · refine Keeps.mkSnd ?_
      exact Keeps.refl
    · split
      · rename_i y3 y4 y5 q6
        have h7 : Keeps 39600125 s y5 := by
          refine KeepsS3.elim ?_ q6
          refine KeepsS3.step ringTakeItem_keeps rfl ?_
          exact Keeps.refl
        refine Keeps.step prepVital_keeps rfl ?_
        exact h7
      · split
        · refine Keeps.ite2 ?_ ?_
          · refine Keeps.step prepVital_keeps rfl ?_
            exact Keeps.refl
          · refine Keeps.mkSnd ?_
            exact Keeps.refl
        · refine Keeps.mkSnd ?_
          exact Keeps.refl
  · refine Keeps.ite2 ?_ ?_
    · split
      · refine Keeps.mkSnd ?_
        refine Keeps.app (wr_upd rfl) ?_
        exact Keeps.refl
      · refine Keeps.mkSnd ?_
        exact Keeps.refl
    · refine Keeps.ite2 ?_ ?_
      · split
        · rename_i y15 y16 y17 q18
          have h19 : Keeps 39600125 s y17 := by
            refine KeepsS3.elim ?_ q18
            refine KeepsS3.step ringTakeItem_keeps rfl ?_
            exact Keeps.refl
          refine Keeps.mkSnd ?_
          exact h19
        · refine Keeps.mkSnd ?_
          exact Keeps.refl
      · refine Keeps.mkSnd ?_
        exact Keeps.refl

/-- Writes at most: sent clk civ cand prg regs bus tel rings evr upd lnk. -/
theorem execTxringTake_keeps {b0 b1 s} : Answers 39599557 s (execTxringTake b0 b1 s) := by
  unfold execTxringTake
  extract_lets -merge -useContext +onlyGivenNames x0
  have h1 : Keeps 39599557 s x0 := by
    unfold x0
    refine Keeps.step begin'_keeps rfl ?_
    exact Keeps.refl
  try clear_value x0
  extract_lets -merge -useContext +onlyGivenNames x2
  try clear_value x2
  refine Answers.next ?_
  refine Keeps.ite ?_ ?_
  · split
    · rename_i y3 y4 q5
      have h6 : Keeps 39599557 s y4 := by
        refine Keeps.snd ?_ q5
        refine Keeps.step prepSlot_keeps rfl ?_
        exact h1
      refine Keeps.app (wr_bus rfl) ?_
      exact h6
  · exact h1

/-- Writes at most: regs bus. -/
theorem babble_keeps {s} : Keeps 67059711 s (babble s) := by
  unfold babble
  extract_lets -merge -useContext +onlyGivenNames x0
  try clear_value x0
  extract_lets -merge -useContext +onlyGivenNames x1
  have h2 : Keeps 67059711 s x1 := by
    unfold x1
    refine Keeps.step cnt_keeps rfl ?_
    refine Keeps.app (wr_bus rfl) ?_
    exact Keeps.refl
  try clear_value x1
  refine Keeps.ite ?_ ?_
  · refine Keeps.step toSilent_keeps rfl ?_
    exact h2
  · exact h2

/-- Writes at most: sent regs bus. -/
theorem slotGo_keeps {b0 s} : Keeps 67059709 s (slotGo b0 s) := by
  unfold slotGo
  extract_lets -merge -useContext +onlyGivenNames x0
  try clear_value x0
  extract_lets -merge -useContext +onlyGivenNames x1
  try clear_value x1
  extract_lets -merge -useContext +onlyGivenNames x2
  try clear_value x2
  extract_lets -merge -useContext +onlyGivenNames x3
  try clear_value x3
  extract_lets -merge -useContext +onlyGivenNames x4
  have h5 : Keeps 67059709 s x4 := by
    unfold x4
    refine Keeps.app (wr_bus rfl) ?_
    exact Keeps.refl
  try clear_value x4
  refine Keeps.ite ?_ ?_
  · refine Keeps.ite ?_ ?_
    · refine Keeps.ite ?_ ?_
      · exact Keeps.refl
      · refine Keeps.ite ?_ ?_
        · refine Keeps.step babble_keeps rfl ?_
          exact Keeps.refl
        · refine Keeps.step sendFrame_keeps rfl ?_
          refine Keeps.app (wr_bus rfl) ?_
          exact h5
    · refine Keeps.ite ?_ ?_
      · refine Keeps.ite ?_ ?_
        · refine Keeps.step babble_keeps rfl ?_
          exact Keeps.refl
        · refine Keeps.step sendFrame_keeps rfl ?_
          refine Keeps.app (wr_bus rfl) ?_
          exact h5
      · exact Keeps.refl
  · refine Keeps.ite ?_ ?_
    · exact Keeps.refl
    · refine Keeps.ite ?_ ?_
      · refine Keeps.step babble_keeps rfl ?_
        exact Keeps.refl
      · extract_lets -merge -useContext +onlyGivenNames x6
        try clear_value x6
        extract_lets -merge -useContext +onlyGivenNames x7
        try clear_value x7
        extract_lets -merge -useContext +onlyGivenNames x8
        try clear_value x8
        extract_lets -merge -useContext +onlyGivenNames x9
        try clear_value x9
        extract_lets -merge -useContext +onlyGivenNames x10
        have h11 : Keeps 67059709 s x10 := by
          unfold x10
          refine Keeps.app (wr_bus rfl) ?_
          exact h5
        try clear_value x10
        extract_lets -merge -useContext +onlyGivenNames x12
        have h13 : Keeps 67059709 s x12 := by
          unfold x12
          refine Keeps.ite ?_ ?_
          · refine Keeps.step cnt_keeps rfl ?_
            exact h11
          · exact h11
        try clear_value x12
        refine Keeps.step sendFrame_keeps rfl ?_
        exact h13

/-- Writes at most: sent clk civ cand prg regs bus lnk. -/
theorem execSlotStart_keeps {b0 b1 s} : Answers 50281925 s (execSlotStart b0 b1 s) := by
  unfold execSlotStart
  extract_lets -merge -useContext +onlyGivenNames x0
  have h1 : Keeps 50281925 s x0 := by
    unfold x0
    refine Keeps.step begin'_keeps rfl ?_
    exact Keeps.refl
  try clear_value x0
  refine Answers.next ?_
  refine Keeps.ite ?_ ?_
  · refine Keeps.step slotGo_keeps rfl ?_
    exact h1
  · exact h1

/-- Writes at most: regs bus. -/
theorem forward_keeps {b0 s} : Keeps 67059711 s (forward b0 s) := by
  unfold forward
  extract_lets -merge -useContext +onlyGivenNames x0
  try clear_value x0
  extract_lets -merge -useContext +onlyGivenNames x1
  try clear_value x1
  refine Keeps.ite ?_ ?_
  · refine Keeps.step cnt_keeps rfl ?_
    exact Keeps.refl
  · refine Keeps.ite ?_ ?_
    · exact Keeps.refl
    · extract_lets -merge -useContext +onlyGivenNames x2
      try clear_value x2
      refine Keeps.step modPort_keeps rfl ?_
      exact Keeps.refl

/-- Writes at most: bus. -/
theorem learnDelay_keeps {b0 s} : Keeps 67076095 s (learnDelay b0 s) := by
  unfold learnDelay
  refine Keeps.ite ?_ ?_
  · exact Keeps.refl
  · refine Keeps.app (wr_bus rfl) ?_
    exact Keeps.refl

/-- Writes at most: bus. -/
theorem learnFirst_keeps {b0 b1 s} : Keeps 67076095 s (learnFirst b0 b1 s) := by
  unfold learnFirst
  extract_lets -merge -useContext +onlyGivenNames x0
  try clear_value x0
  refine Keeps.ite ?_ ?_
  · refine Keeps.step learnDelay_keeps rfl ?_
    exact Keeps.refl
  · exact Keeps.refl

/-- Writes at most: regs sta. -/
theorem countEdge_keeps {b0 s} : Keeps 62898175 s (countEdge b0 s) := by
  unfold countEdge
  refine Keeps.step stat_keeps rfl ?_
  refine Keeps.step cnt_keeps rfl ?_
  exact Keeps.refl

/-- Writes at most: regs. -/
theorem countCrc_keeps {b0 s} : Keeps 67092479 s (countCrc b0 s) := by
  unfold countCrc
  refine Keeps.step cnt_keeps rfl ?_
  exact Keeps.refl

/-- Writes at most: regs bus. -/
theorem busHear_keeps {b0 s} : Keeps 67059711 s (busHear b0 s) := by
  unfold busHear
  refine Keeps.step forward_keeps rfl ?_
  refine Keeps.app (wr_bus rfl) ?_
  exact Keeps.refl

/-- Writes at most: clk regs bus evr. -/
theorem integrate_keeps {b0 s} : Keeps 64962551 s (integrate b0 s) := by
  unfold integrate
  split
  · exact Keeps.refl
  · extract_lets -merge -useContext +onlyGivenNames x2
    try clear_value x2
    extract_lets -merge -useContext +onlyGivenNames x3
    try clear_value x3
    extract_lets -merge -useContext +onlyGivenNames x4
    have h5 : Keeps 64962551 s x4 := by
      unfold x4
      refine Keeps.ite ?_ ?_
      · exact Keeps.refl
      · refine Keeps.step adoptTime_keeps rfl ?_
        refine Keeps.app (wr_bus rfl) ?_
        exact Keeps.refl
    try clear_value x4
    refine Keeps.step modHear_keeps rfl ?_
    refine Keeps.app (wr_bus rfl) ?_
    exact h5

/-- Writes at most: clk regs bus evr. -/
theorem listenRx_keeps {b0 b1 s} : Keeps 64962551 s (listenRx b0 b1 s) := by
  unfold listenRx
  refine Keeps.ite ?_ ?_
  · exact Keeps.refl
  · refine Keeps.ite ?_ ?_
    · refine Keeps.app (wr_bus rfl) ?_
      exact Keeps.refl
    · refine Keeps.ite ?_ ?_
      · refine Keeps.app (wr_bus rfl) ?_
        exact Keeps.refl
      · refine Keeps.step integrate_keeps rfl ?_
        exact Keeps.refl

/-- Writes at most: bus. -/
theorem integratingRx_keeps {b0 b1 b2 s} : Keeps 67076095 s (integratingRx b0 b1 b2 s) := by
  unfold integratingRx
  extract_lets -merge -useContext +onlyGivenNames x0
  try clear_value x0
  refine Keeps.ite ?_ ?_
  · exact Keeps.refl
  · refine Keeps.ite ?_ ?_
    · extract_lets -merge -useContext +onlyGivenNames x1
      try clear_value x1
      extract_lets -merge -useContext +onlyGivenNames x2
      have h3 : Keeps 67076095 s x2 := by
        unfold x2
        refine Keeps.step modHear_keeps rfl ?_
        refine Keeps.app (wr_bus rfl) ?_
        exact Keeps.refl
      try clear_value x2
      refine Keeps.ite ?_ ?_
      · refine Keeps.step toSynced_keeps rfl ?_
        exact h3
      · exact h3
    · refine Keeps.step toListen_keeps rfl ?_
      exact Keeps.refl

/-- Writes at most: regs bus sta. -/
theorem alignedRx_keeps {b0 b1 s} : Keeps 62865407 s (alignedRx b0 b1 s) := by
  unfold alignedRx
  split
  · refine Keeps.step cnt_keeps rfl ?_
    exact Keeps.refl
  · extract_lets -merge -useContext +onlyGivenNames x4
    have h5 : Keeps 62865407 s x4 := by
      unfold x4
      refine Keeps.ite ?_ ?_
      · refine Keeps.step countEdge_keeps rfl ?_
        exact Keeps.refl
      · exact Keeps.refl
    try clear_value x4
    refine Keeps.ite ?_ ?_
    · refine Keeps.step countCrc_keeps rfl ?_
      exact h5
    · refine Keeps.ite ?_ ?_
      · extract_lets -merge -useContext +onlyGivenNames x6
        have h7 : Keeps 62865407 s x6 := by
          unfold x6
          refine Keeps.step cnt_keeps rfl ?_
          exact h5
        try clear_value x6
        refine Keeps.ite ?_ ?_
        · refine Keeps.step toListen_keeps rfl ?_
          exact h7
        · exact h7
      · extract_lets -merge -useContext +onlyGivenNames x8
        have h9 : Keeps 62865407 s x8 := by
          unfold x8
          refine Keeps.step learnDelay_keeps rfl ?_
          exact h5
        try clear_value x8
        extract_lets -merge -useContext +onlyGivenNames x10
        try clear_value x10
        extract_lets -merge -useContext +onlyGivenNames x11
        have h12 : Keeps 62865407 s x11 := by
          unfold x11
          refine Keeps.ite ?_ ?_
          · exact h9
          · refine Keeps.step modHear_keeps rfl ?_
            exact h9
        try clear_value x11
        refine Keeps.ite ?_ ?_
        · extract_lets -merge -useContext +onlyGivenNames x13
          have h14 : Keeps 62865407 s x13 := by
            unfold x13
            refine Keeps.step modHear_keeps rfl ?_
            exact h12
          try clear_value x13
          refine Keeps.ite ?_ ?_
          · refine Keeps.step integratingRx_keeps rfl ?_
            exact h14
          · extract_lets -merge -useContext +onlyGivenNames x15
            have h16 : Keeps 62865407 s x15 := by
              unfold x15
              refine Keeps.step modHear_keeps rfl ?_
              exact h14
            try clear_value x15
            refine Keeps.app (wr_bus rfl) ?_
            exact h16
        · refine Keeps.ite ?_ ?_
          · refine Keeps.app (wr_bus rfl) ?_
            exact h12
          · exact h12

/-- Writes at most: clk regs bus evr sta. -/
theorem syncRx_keeps {b0 b1 s} : Keeps 60768247 s (syncRx b0 b1 s) := by
  unfold syncRx
  extract_lets -merge -useContext +onlyGivenNames x0
  have h1 : Keeps 60768247 s x0 := by
    unfold x0
    refine Keeps.step learnFirst_keeps rfl ?_
    refine Keeps.step busHear_keeps rfl ?_
    exact Keeps.refl
  try clear_value x0
  extract_lets -merge -useContext +onlyGivenNames x2
  try clear_value x2
  split
  · exact h1
  · refine Keeps.ite ?_ ?_
    · refine Keeps.step countCrc_keeps rfl ?_
      exact h1
    · refine Keeps.ite ?_ ?_
      · refine Keeps.step listenRx_keeps rfl ?_
        exact h1
      · exact h1
  · refine Keeps.ite ?_ ?_
    · refine Keeps.step countCrc_keeps rfl ?_
      exact h1
    · refine Keeps.ite ?_ ?_
      · refine Keeps.app (wr_bus rfl) ?_
        exact h1
      · exact h1
  · refine Keeps.ite ?_ ?_
    · refine Keeps.step countCrc_keeps rfl ?_
      exact h1
    · refine Keeps.ite ?_ ?_
      · refine Keeps.step integrate_keeps rfl ?_
        exact h1
      · exact h1
  · refine Keeps.step alignedRx_keeps rfl ?_
    exact h1
  · refine Keeps.step alignedRx_keeps rfl ?_
    exact h1
  · refine Keeps.step alignedRx_keeps rfl ?_
    exact h1

/-- Writes at most: sent clk civ cand prg regs bus evr sta lnk. -/
theorem execSync_keeps {b0 b1 s} : Answers 43990469 s (execSync b0 b1 s) := by
  unfold execSync
  extract_lets -merge -useContext +onlyGivenNames x0
  have h1 : Keeps 43990469 s x0 := by
    unfold x0
    refine Keeps.step begin'_keeps rfl ?_
    exact Keeps.refl
  try clear_value x0
  refine Answers.next ?_
  refine Keeps.ite ?_ ?_
  · refine Keeps.step syncRx_keeps rfl ?_
    exact h1
  · exact h1

/-- Writes at most: sent clk civ cand prg regs bus evr sta lnk. -/
theorem execColdstart_keeps {b0 b1 s} : Answers 43990469 s (execColdstart b0 b1 s) := by
  unfold execColdstart
  extract_lets -merge -useContext +onlyGivenNames x0
  have h1 : Keeps 43990469 s x0 := by
    unfold x0
    refine Keeps.step begin'_keeps rfl ?_
    exact Keeps.refl
  try clear_value x0
  refine Answers.next ?_
  refine Keeps.ite ?_ ?_
  · refine Keeps.step syncRx_keeps rfl ?_
    exact h1
  · exact h1

/-- Writes at most: sent prg lnk. -/
theorem pairHeard_keeps {b0 s} : Keeps 50331133 s (pairHeard b0 s) := by
  unfold pairHeard
  refine Keeps.ite ?_ ?_
  · extract_lets -merge -useContext +onlyGivenNames x0
    try clear_value x0
    extract_lets -merge -useContext +onlyGivenNames x1
    have h2 : Keeps 50331133 s x1 := by
      unfold x1
      refine Keeps.app (wr_lnk rfl) ?_
      exact Keeps.refl
    try clear_value x1
    refine Keeps.ite ?_ ?_
    · refine Keeps.step toUnsynced_keeps rfl ?_
      exact Keeps.app (show Keeps 50331133 x1 _ from ⟨fun _ => rfl, fun _ => rfl, fun _ => rfl, fun _ => rfl, fun _ => rfl, fun _ => rfl, fun _ => rfl, fun _ => rfl, fun _ => rfl, fun h => noBit h rfl, fun _ => rfl, fun _ => rfl, fun _ => rfl, fun _ => rfl, fun _ => rfl, fun _ => rfl, fun _ => rfl, fun _ => rfl, fun _ => rfl, fun _ => rfl, fun _ => rfl, fun _ => rfl, fun _ => rfl, fun _ => rfl, fun h => noBit h rfl, fun _ => rfl⟩) h2
    · exact h2
  · exact Keeps.refl

/-- Writes at most: regs. -/
theorem secondCopy_keeps {b0 b1 b2 s} : Keeps 67092479 s (secondCopy b0 b1 b2 s) := by
  unfold secondCopy
  refine Keeps.ite ?_ ?_
  · refine Keeps.step countCrc_keeps rfl ?_
    exact Keeps.refl
  · refine Keeps.ite ?_ ?_
    · refine Keeps.step cnt_keeps rfl ?_
      exact Keeps.refl
    · exact Keeps.refl

/-- Writes at most: sent cand pwr tri prg frc vm xch regs bus tel rings lat fio snu evr sta upd lnk. -/
theorem vitalRx_keeps {b0 s} : Keeps 33556765 s (vitalRx b0 s) := by
  unfold vitalRx
  split
  · refine Keeps.step cnt_keeps rfl ?_
    exact Keeps.refl
  · extract_lets -merge -useContext +onlyGivenNames x4
    have h5 : Keeps 33556765 s x4 := by
      unfold x4
      refine Keeps.ite ?_ ?_
      · refine Keeps.step countEdge_keeps rfl ?_
        exact Keeps.refl
      · exact Keeps.refl
    try clear_value x4
    extract_lets -merge -useContext +onlyGivenNames x6
    try clear_value x6
    extract_lets -merge -useContext +onlyGivenNames x7
    try clear_value x7
    extract_lets -merge -useContext +onlyGivenNames x8
    try clear_value x8
    extract_lets -merge -useContext +onlyGivenNames x9
    try clear_value x9
    extract_lets -merge -useContext +onlyGivenNames x10
    try clear_value x10
    split
    · refine Keeps.ite ?_ ?_
      · refine Keeps.step pairHeard_keeps rfl ?_
        refine Keeps.step learnDelay_keeps rfl ?_
        exact h5
      · refine Keeps.step cnt_keeps rfl ?_
        exact h5
    · refine Keeps.ite ?_ ?_
      · refine Keeps.ite ?_ ?_
        · refine Keeps.step cnt_keeps rfl ?_
          exact h5
        · extract_lets -merge -useContext +onlyGivenNames x13
          have h14 : Keeps 33556765 s x13 := by
            unfold x13
            refine Keeps.step pairHeard_keeps rfl ?_
            refine Keeps.step learnDelay_keeps rfl ?_
            exact h5
          try clear_value x13
          refine Keeps.ite ?_ ?_
          · exact h14
          · refine Keeps.step cnt_keeps rfl ?_
            refine Keeps.app (wr_bus rfl) ?_
            exact h14
      · split
        · extract_lets -merge -useContext +onlyGivenNames x17
          try clear_value x17
          refine Keeps.ite ?_ ?_
          · refine Keeps.step cnt_keeps rfl ?_
            exact h5
          · refine Keeps.step secondCopy_keeps rfl ?_
            exact h5
        · split
          · refine Keeps.ite ?_ ?_
            · refine Keeps.step cnt_keeps rfl ?_
              exact h5
            · extract_lets -merge -useContext +onlyGivenNames x20
              have h21 : Keeps 33556765 s x20 := by
                unfold x20
                refine Keeps.step pairHeard_keeps rfl ?_
                refine Keeps.step learnDelay_keeps rfl ?_
                exact h5
              try clear_value x20
              refine Keeps.ite ?_ ?_
              · exact h21
              · extract_lets -merge -useContext +onlyGivenNames x22
                try clear_value x22
                extract_lets -merge -useContext +onlyGivenNames x23
                have h24 : Keeps 33556765 s x23 := by
                  unfold x23
                  refine Keeps.app (wr_bus rfl) ?_
                  exact h21
                try clear_value x23
                extract_lets -merge -useContext +onlyGivenNames x25
                try clear_value x25
                refine Keeps.step telAccept_keeps rfl ?_
                exact h24
          · extract_lets -merge -useContext +onlyGivenNames x27
            have h28 : Keeps 33556765 s x27 := by
              unfold x27
              refine Keeps.step telFail_keeps rfl ?_
              refine Keeps.step countCrc_keeps rfl ?_
              exact h5
            try clear_value x27
            refine Keeps.ite ?_ ?_
            · refine Keeps.step stat_keeps rfl ?_
              exact h28
            · exact h28

/-- Writes at most: sent prg xch regs bus rings evr sta lnk. -/
theorem backgroundRx_keeps {b0 b1 s} : Keeps 43851261 s (backgroundRx b0 b1 s) := by
  unfold backgroundRx
  split
  · refine Keeps.step cnt_keeps rfl ?_
    exact Keeps.refl
  · extract_lets -merge -useContext +onlyGivenNames x4
    have h5 : Keeps 43851261 s x4 := by
      unfold x4
      refine Keeps.ite ?_ ?_
      · refine Keeps.step countEdge_keeps rfl ?_
        exact Keeps.refl
      · exact Keeps.refl
    try clear_value x4
    refine Keeps.ite ?_ ?_
    · refine Keeps.step countCrc_keeps rfl ?_
      exact h5
    · refine Keeps.ite ?_ ?_
      · refine Keeps.step cnt_keeps rfl ?_
        exact h5
      · extract_lets -merge -useContext +onlyGivenNames x6
        have h7 : Keeps 43851261 s x6 := by
          unfold x6
          refine Keeps.step pairHeard_keeps rfl ?_
          refine Keeps.step learnDelay_keeps rfl ?_
          exact h5
        try clear_value x6
        split
        · refine Keeps.step secondCopy_keeps rfl ?_
          exact h7
        · extract_lets -merge -useContext +onlyGivenNames x11
          try clear_value x11
          extract_lets -merge -useContext +onlyGivenNames x12
          have h13 : Keeps 43851261 s x12 := by
            unfold x12
            refine Keeps.app (wr_bus rfl) ?_
            exact h7
          try clear_value x12
          extract_lets -merge -useContext +onlyGivenNames x14
          try clear_value x14
          refine Keeps.ite ?_ ?_
          · exact h13
          · extract_lets -merge -useContext +onlyGivenNames x15
            try clear_value x15
            refine Keeps.step deliverItem_keeps rfl ?_
            exact h13

/-- Writes at most: regs bus. -/
theorem dataRx_keeps {m : Nat} {b0 b1 b2 s} (hf1 : ∀ c0 t, Keeps m t (b1 c0 t)) (hm : m &&& 67059711 = m) : Keeps m s (dataRx b0 b1 b2 s) := by
  unfold dataRx
  extract_lets -merge -useContext +onlyGivenNames x0
  have h1 : Keeps m s x0 := by
    unfold x0
    refine Keeps.step learnFirst_keeps (land_le hm rfl) ?_
    refine Keeps.step busHear_keeps (land_le hm rfl) ?_
    exact Keeps.refl
  try clear_value x0
  refine Keeps.ite ?_ ?_
  · refine Keeps.app (hf1 _ _) ?_
    exact h1
  · exact h1

/-- Writes at most: sent clk civ cand pwr tri prg frc vm xch regs bus tel rings lat fio snu evr sta upd lnk. -/
theorem execVital_keeps {b0 b1 s} : Answers 33556741 s (execVital b0 b1 s) := by
  unfold execVital
  extract_lets -merge -useContext +onlyGivenNames x0
  have h1 : Keeps 33556741 s x0 := by
    unfold x0
    refine Keeps.step begin'_keeps rfl ?_
    exact Keeps.refl
  try clear_value x0
  refine Answers.next ?_
  refine Keeps.ite ?_ ?_
  · refine Keeps.app (dataRx_keeps ?_ rfl) ?_
    · intro a2 s
      refine Keeps.step vitalRx_keeps rfl ?_
      exact Keeps.refl
    · exact h1
  · exact h1

/-- Writes at most: sent clk civ cand prg xch regs bus rings evr sta lnk. -/
theorem execBackground_keeps {b0 b1 s} : Answers 43851205 s (execBackground b0 b1 s) := by
  unfold execBackground
  extract_lets -merge -useContext +onlyGivenNames x0
  have h1 : Keeps 43851205 s x0 := by
    unfold x0
    refine Keeps.step begin'_keeps rfl ?_
    exact Keeps.refl
  try clear_value x0
  refine Answers.next ?_
  refine Keeps.ite ?_ ?_
  · refine Keeps.app (dataRx_keeps ?_ rfl) ?_
    · intro a2 s
      refine Keeps.step backgroundRx_keeps rfl ?_
      exact Keeps.refl
    · exact h1
  · exact h1

/-- Writes at most: sent clk civ cand prg xch regs bus rings evr sta lnk. -/
theorem execNull_keeps {b0 b1 s} : Answers 43851205 s (execNull b0 b1 s) := by
  unfold execNull
  extract_lets -merge -useContext +onlyGivenNames x0
  have h1 : Keeps 43851205 s x0 := by
    unfold x0
    refine Keeps.step begin'_keeps rfl ?_
    exact Keeps.refl
  try clear_value x0
  refine Answers.next ?_
  refine Keeps.ite ?_ ?_
  · refine Keeps.app (dataRx_keeps ?_ rfl) ?_
    · intro a2 s
      refine Keeps.step backgroundRx_keeps rfl ?_
      exact Keeps.refl
    · exact h1
  · exact h1

/-- Writes at most: sent bus. -/
theorem sendDelay_keeps {b0 b1 b2 b3 s} : Keeps 67076093 s (sendDelay b0 b1 b2 b3 s) := by
  unfold sendDelay
  extract_lets -merge -useContext +onlyGivenNames x0
  try clear_value x0
  refine Keeps.step pumpPort_keeps rfl ?_
  refine Keeps.step modPort_keeps rfl ?_
  exact Keeps.refl

/-- Writes at most: sent bus lnk. -/
theorem measureStart_keeps {b0 s} : Keeps 50298877 s (measureStart b0 s) := by
  unfold measureStart
  refine Keeps.ite ?_ ?_
  · extract_lets -merge -useContext +onlyGivenNames x0
    try clear_value x0
    refine Keeps.ite ?_ ?_
    · refine Keeps.step sendDelay_keeps rfl ?_
      refine Keeps.step modPort_keeps rfl ?_
      exact Keeps.refl
    · exact Keeps.refl
  · extract_lets -merge -useContext +onlyGivenNames x1
    try clear_value x1
    extract_lets -merge -useContext +onlyGivenNames x2
    try clear_value x2
    refine Keeps.ite ?_ ?_
    · refine Keeps.step sendLink_keeps rfl ?_
      refine Keeps.step modLink_keeps rfl ?_
      exact Keeps.refl
    · exact Keeps.refl

/-- Writes at most: sent clk civ cand prg bus lnk. -/
theorem execLinkDelayMeasure_keeps {b0 b1 s} : Answers 50298309 s (execLinkDelayMeasure b0 b1 s) := by
  unfold execLinkDelayMeasure
  extract_lets -merge -useContext +onlyGivenNames x0
  have h1 : Keeps 50298309 s x0 := by
    unfold x0
    refine Keeps.step begin'_keeps rfl ?_
    exact Keeps.refl
  try clear_value x0
  refine Answers.next ?_
  refine Keeps.ite ?_ ?_
  · refine Keeps.step measureStart_keeps rfl ?_
    exact h1
  · exact h1

/-- Writes at most: regs lnk. -/
theorem linkArrive_keeps {b0 s} : Keeps 50315263 s (linkArrive b0 s).2 := by
  unfold linkArrive
  refine Keeps.step linkIn_keeps rfl ?_
  exact Keeps.refl

/-- Writes at most: clk regs bus evr. -/
theorem followTime_keeps {b0 b1 s} : Keeps 64962551 s (followTime b0 b1 s) := by
  unfold followTime
  refine Keeps.ite ?_ ?_
  · refine Keeps.step adoptTime_keeps rfl ?_
    exact Keeps.refl
  · refine Keeps.ite ?_ ?_
    · refine Keeps.app (wr_clk rfl) ?_
      exact Keeps.refl
    · refine Keeps.ite ?_ ?_
      · refine Keeps.app (wr_clk rfl) ?_
        exact Keeps.refl
      · refine Keeps.ite ?_ ?_
        · refine Keeps.app (wr_clk rfl) ?_
          exact Keeps.refl
        · refine Keeps.step adoptTime_keeps rfl ?_
          exact Keeps.refl

/-- Writes at most: clk regs bus evr lnk. -/
theorem linkTime_keeps {b0 s} : Keeps 48185335 s (linkTime b0 s) := by
  unfold linkTime
  extract_lets -merge -useContext +onlyGivenNames x0
  try clear_value x0
  extract_lets -merge -useContext +onlyGivenNames x1
  have h2 : Keeps 48185335 s x1 := by
    unfold x1
    refine Keeps.step modLink_keeps rfl ?_
    exact Keeps.refl
  try clear_value x1
  split
  · extract_lets -merge -useContext +onlyGivenNames x4
    try clear_value x4
    refine Keeps.ite ?_ ?_
    · extract_lets -merge -useContext +onlyGivenNames x5
      try clear_value x5
      extract_lets -merge -useContext +onlyGivenNames x6
      have h7 : Keeps 48185335 s x6 := by
        unfold x6
        refine Keeps.step followTime_keeps rfl ?_
        exact h2
      try clear_value x6
      refine Keeps.app (wr_lnk rfl) ?_
      exact h7
    · exact h2
  · exact h2

/-- Writes at most: sent free clk regs bus evr lnk. -/
theorem delayReqRx_keeps {b0 s} : Keeps 48185329 s (delayReqRx b0 s) := by
  unfold delayReqRx
  refine Keeps.ite ?_ ?_
  · extract_lets -merge -useContext +onlyGivenNames x0
    try clear_value x0
    extract_lets -merge -useContext +onlyGivenNames x1
    have h2 : Keeps 48185329 s x1 := by
      unfold x1
      refine Keeps.app (wr_bus rfl) ?_
      exact Keeps.refl
    try clear_value x1
    refine Keeps.ite ?_ ?_
    · split
      · rename_i y3 y4 q5
        have h6 : Keeps 48185329 s y4 := by
          refine Keeps.snd ?_ q5
          refine Keeps.step takeFree_keeps rfl ?_
          exact h2
        refine Keeps.step sendDelay_keeps rfl ?_
        exact h6
    · exact h2
  · refine Keeps.ite ?_ ?_
    · exact Keeps.refl
    · split
      · rename_i y7 q8
        have h9 : Keeps 48185329 s y7 := by
          refine Keeps.snd ?_ q8
          refine Keeps.step linkArrive_keeps rfl ?_
          exact Keeps.refl
        split
        · rename_i y10 y11 q12
          have h13 : Keeps 48185329 s y11 := by
            refine Keeps.snd ?_ q12
            refine Keeps.step takeFree_keeps rfl ?_
            refine Keeps.step linkTime_keeps rfl ?_
            exact h9
          refine Keeps.step sendLink_keeps rfl ?_
          exact h13
      · rename_i y14 q15
        have h16 : Keeps 48185329 s y14 := by
          refine Keeps.snd ?_ q15
          refine Keeps.step linkArrive_keeps rfl ?_
          exact Keeps.refl
        exact h16

/-- Writes at most: sent free clk civ cand prg regs bus evr lnk. -/
theorem execDelayReq_keeps {b0 b1 s} : Answers 48184769 s (execDelayReq b0 b1 s) := by
  unfold execDelayReq
  extract_lets -merge -useContext +onlyGivenNames x0
  have h1 : Keeps 48184769 s x0 := by
    unfold x0
    refine Keeps.step begin'_keeps rfl ?_
    exact Keeps.refl
  try clear_value x0
  refine Answers.next ?_
  refine Keeps.ite ?_ ?_
  · refine Keeps.step delayReqRx_keeps rfl ?_
    exact h1
  · exact h1

/-- Writes at most: regs evr. -/
theorem checkLong_keeps {b0 b1 s} : Keeps 64995327 s (checkLong b0 b1 s) := by
  unfold checkLong
  extract_lets -merge -useContext +onlyGivenNames x0
  try clear_value x0
  extract_lets -merge -useContext +onlyGivenNames x1
  try clear_value x1
  extract_lets -merge -useContext +onlyGivenNames x2
  try clear_value x2
  extract_lets -merge -useContext +onlyGivenNames x3
  try clear_value x3
  refine Keeps.ite ?_ ?_
  · refine Keeps.step nvEvent_keeps rfl ?_
    refine Keeps.step setRf_keeps rfl ?_
    exact Keeps.refl
  · exact Keeps.refl

/-- Writes at most: clk regs bus evr lnk. -/
theorem delayRespRx_keeps {b0 s} : Keeps 48185335 s (delayRespRx b0 s) := by
  unfold delayRespRx
  refine Keeps.ite ?_ ?_
  · extract_lets -merge -useContext +onlyGivenNames x0
    try clear_value x0
    extract_lets -merge -useContext +onlyGivenNames x1
    try clear_value x1
    extract_lets -merge -useContext +onlyGivenNames x2
    have h3 : Keeps 48185335 s x2 := by
      unfold x2
      refine Keeps.app (wr_bus rfl) ?_
      exact Keeps.refl
    try clear_value x2
    split
    · extract_lets -merge -useContext +onlyGivenNames x6
      try clear_value x6
      refine Keeps.ite ?_ ?_
      · extract_lets -merge -useContext +onlyGivenNames x7
        try clear_value x7
        extract_lets -merge -useContext +onlyGivenNames x8
        have h9 : Keeps 48185335 s x8 := by
          unfold x8
          refine Keeps.step checkLong_keeps rfl ?_
          refine Keeps.step modPort_keeps rfl ?_
          exact h3
        try clear_value x8
        refine Keeps.step offToListen_keeps rfl ?_
        exact h9
      · exact h3
    · exact h3
  · refine Keeps.ite ?_ ?_
    · exact Keeps.refl
    · split
      · rename_i y11 q12
        have h13 : Keeps 48185335 s y11 := by
          refine Keeps.snd ?_ q12
          refine Keeps.step linkArrive_keeps rfl ?_
          exact Keeps.refl
        extract_lets -merge -useContext +onlyGivenNames x14
        try clear_value x14
        split
        · refine Keeps.step linkTime_keeps rfl ?_
          refine Keeps.step modLink_keeps rfl ?_
          exact h13
        · exact h13
      · rename_i y17 q18
        have h19 : Keeps 48185335 s y17 := by
          refine Keeps.snd ?_ q18
          refine Keeps.step linkArrive_keeps rfl ?_
          exact Keeps.refl
        exact h19

/-- Writes at most: sent clk civ cand prg regs bus evr lnk. -/
theorem execDelayResp_keeps {b0 b1 s} : Answers 48184773 s (execDelayResp b0 b1 s) := by
  unfold execDelayResp
  extract_lets -merge -useContext +onlyGivenNames x0
  have h1 : Keeps 48184773 s x0 := by
    unfold x0
    refine Keeps.step begin'_keeps rfl ?_
    exact Keeps.refl
  try clear_value x0
  refine Answers.next ?_
  refine Keeps.ite ?_ ?_
  · refine Keeps.step delayRespRx_keeps rfl ?_
    exact h1
  · exact h1

/-- Writes at most: sent clk civ cand prg bus lnk. -/
theorem execPortLinkUp_keeps {b0 b1 s} : Answers 50298309 s (execPortLinkUp b0 b1 s) := by
  unfold execPortLinkUp
  extract_lets -merge -useContext +onlyGivenNames x0
  have h1 : Keeps 50298309 s x0 := by
    unfold x0
    refine Keeps.step begin'_keeps rfl ?_
    exact Keeps.refl
  try clear_value x0
  refine Answers.next ?_
  refine Keeps.ite ?_ ?_
  · refine Keeps.step offToListen_keeps rfl ?_
    refine Keeps.step modPort_keeps rfl ?_
    exact h1
  · exact h1

/-- Writes at most: sent clk civ cand prg bus lnk. -/
theorem execPortLinkDown_keeps {b0 b1 s} : Answers 50298309 s (execPortLinkDown b0 b1 s) := by
  unfold execPortLinkDown
  extract_lets -merge -useContext +onlyGivenNames x0
  have h1 : Keeps 50298309 s x0 := by
    unfold x0
    refine Keeps.step begin'_keeps rfl ?_
    exact Keeps.refl
  try clear_value x0
  refine Answers.next ?_
  refine Keeps.ite ?_ ?_
  · refine Keeps.step offToListen_keeps rfl ?_
    refine Keeps.step modPort_keeps rfl ?_
    exact h1
  · exact h1

/-- Writes at most: regs bus evr. -/
theorem applyDelays_keeps {b0 s} : Keeps 64962559 s (applyDelays b0 s) := by
  induction b0 generalizing s with
  | nil =>
    rw [applyDelays.eq_1]
    exact Keeps.refl
  | cons z zs ih =>
    rw [applyDelays.eq_2]
    refine Keeps.app ih ?_
    refine Keeps.ite ?_ ?_
    · refine Keeps.step emit_keeps rfl ?_
      refine Keeps.ite ?_ ?_
      · refine Keeps.app (wr_bus rfl) ?_
        exact Keeps.refl
      · refine Keeps.app (wr_bus rfl) ?_
        exact Keeps.refl
    · refine Keeps.ite ?_ ?_
      · refine Keeps.app (wr_bus rfl) ?_
        exact Keeps.refl
      · refine Keeps.app (wr_bus rfl) ?_
        exact Keeps.refl

/-- Writes at most: clk. -/
theorem applyCorr_keeps {b0 s} : Keeps 67108855 s (applyCorr b0 s) := by
  unfold applyCorr
  extract_lets -merge -useContext +onlyGivenNames x0
  try clear_value x0
  extract_lets -merge -useContext +onlyGivenNames x1
  try clear_value x1
  extract_lets -merge -useContext +onlyGivenNames x2
  try clear_value x2
  refine Keeps.app (wr_clk rfl) ?_
  exact Keeps.refl

/-- Writes at most: regs. -/
theorem meanDev_keeps {s} : Keeps 67092479 s (meanDev s).2 := by
  unfold meanDev
  split
  · refine Keeps.ite2 ?_ ?_
    · refine Keeps.mkSnd ?_
      refine Keeps.step cnt_keeps rfl ?_
      exact Keeps.refl
    · refine Keeps.mkSnd ?_
      exact Keeps.refl
  · refine Keeps.mkSnd ?_
    exact Keeps.refl
  · refine Keeps.mkSnd ?_
    exact Keeps.refl
  · refine Keeps.mkSnd ?_
    exact Keeps.refl

/-- Writes at most: clk regs bus. -/
theorem alignClock_keeps {s} : Keeps 67059703 s (alignClock s) := by
  unfold alignClock
  split
  · rename_i y0 y1 q2
    have h3 : Keeps 67059703 s y1 := by
      refine Keeps.snd ?_ q2
      refine Keeps.step meanDev_keeps rfl ?_
      exact Keeps.refl
    split
    · refine Keeps.step applyCorr_keeps rfl ?_
      refine Keeps.app (wr_bus rfl) ?_
      exact h3
    · extract_lets -merge -useContext +onlyGivenNames x6
      have h7 : Keeps 67059703 s x6 := by
        unfold x6
        refine Keeps.step setRf_keeps rfl ?_
        exact h3
      try clear_value x6
      refine Keeps.ite ?_ ?_
      · refine Keeps.step applyCorr_keeps rfl ?_
        refine Keeps.app (wr_bus rfl) ?_
        exact h7
      · extract_lets -merge -useContext +onlyGivenNames x8
        try clear_value x8
        extract_lets -merge -useContext +onlyGivenNames x9
        try clear_value x9
        extract_lets -merge -useContext +onlyGivenNames x10
        have h11 : Keeps 67059703 s x10 := by
          unfold x10
          refine Keeps.app (wr_bus rfl) ?_
          exact h7
        try clear_value x10
        extract_lets -merge -useContext +onlyGivenNames x12
        have h13 : Keeps 67059703 s x12 := by
          unfold x12
          refine Keeps.ite ?_ ?_
          · refine Keeps.step toSilent_keeps rfl ?_
            exact h11
          · exact h11
        try clear_value x12
        extract_lets -merge -useContext +onlyGivenNames x14
        have h15 : Keeps 67059703 s x14 := by
          unfold x14
          refine Keeps.step applyCorr_keeps rfl ?_
          exact h13
        try clear_value x14
        refine Keeps.ite ?_ ?_
        · refine Keeps.ite ?_ ?_
          · refine Keeps.step toSynced_keeps rfl ?_
            exact h15
          · refine Keeps.app (wr_bus rfl) ?_
            exact h15
        · refine Keeps.app (wr_bus rfl) ?_
          exact h15

/-- Writes at most: clk regs bus. -/
theorem busClock_keeps {s} : Keeps 67059703 s (busClock s) := by
  unfold busClock
  split
  · refine Keeps.ite ?_ ?_
    · refine Keeps.step applyCorr_keeps rfl ?_
      exact Keeps.refl
    · refine Keeps.step alignClock_keeps rfl ?_
      exact Keeps.refl
  · refine Keeps.step alignClock_keeps rfl ?_
    exact Keeps.refl
  · refine Keeps.step applyCorr_keeps rfl ?_
    exact Keeps.refl

/-- Writes at most: bus. -/
theorem busStates_keeps {s} : Keeps 67076095 s (busStates s) := by
  unfold busStates
  split
  · refine Keeps.ite ?_ ?_
    · refine Keeps.app (wr_bus rfl) ?_
      exact Keeps.refl
    · refine Keeps.ite ?_ ?_
      · extract_lets -merge -useContext +onlyGivenNames x1
        have h2 : Keeps 67076095 s x1 := by
          unfold x1
          refine Keeps.step toSynced_keeps rfl ?_
          exact Keeps.refl
        try clear_value x1
        refine Keeps.app (wr_bus rfl) ?_
        exact h2
      · exact Keeps.refl
  · refine Keeps.ite ?_ ?_
    · exact Keeps.refl
    · refine Keeps.step toListen_keeps rfl ?_
      exact Keeps.refl
  · refine Keeps.ite ?_ ?_
    · exact Keeps.refl
    · refine Keeps.app (wr_bus rfl) ?_
      exact Keeps.refl
  · refine Keeps.app (wr_bus rfl) ?_
    exact Keeps.refl
  · exact Keeps.refl

/-- Writes at most: bus. -/
theorem guardSync_keeps {b0 s} : Keeps 67076095 s (guardSync b0 s) := by
  unfold guardSync
  extract_lets -merge -useContext +onlyGivenNames x0
  try clear_value x0
  extract_lets -merge -useContext +onlyGivenNames x1
  have h2 : Keeps 67076095 s x1 := by
    unfold x1
    refine Keeps.app (wr_bus rfl) ?_
    exact Keeps.refl
  try clear_value x1
  refine Keeps.ite ?_ ?_
  · exact h2
  · refine Keeps.app (wr_bus rfl) ?_
    exact h2

/-- Writes at most: clk regs bus evr. -/
theorem busBoundary_keeps {b0 s} : Keeps 64962551 s (busBoundary b0 s) := by
  unfold busBoundary
  extract_lets -merge -useContext +onlyGivenNames x0
  have h1 : Keeps 64962551 s x0 := by
    unfold x0
    refine Keeps.step guardSync_keeps rfl ?_
    exact Keeps.refl
  try clear_value x0
  extract_lets -merge -useContext +onlyGivenNames x2
  try clear_value x2
  extract_lets -merge -useContext +onlyGivenNames x3
  have h4 : Keeps 64962551 s x3 := by
    unfold x3
    refine Keeps.step applyDelays_keeps rfl ?_
    refine Keeps.app (wr_bus rfl) ?_
    exact h1
  try clear_value x3
  extract_lets -merge -useContext +onlyGivenNames x5
  try clear_value x5
  extract_lets -merge -useContext +onlyGivenNames x6
  have h7 : Keeps 64962551 s x6 := by
    unfold x6
    refine Keeps.ite ?_ ?_
    · refine Keeps.app (wr_bus rfl) ?_
      exact h4
    · exact h4
  try clear_value x6
  extract_lets -merge -useContext +onlyGivenNames x8
  have h9 : Keeps 64962551 s x8 := by
    unfold x8
    refine Keeps.step busStates_keeps rfl ?_
    exact h7
  try clear_value x8
  extract_lets -merge -useContext +onlyGivenNames x10
  try clear_value x10
  extract_lets -merge -useContext +onlyGivenNames x11
  have h12 : Keeps 64962551 s x11 := by
    unfold x11
    refine Keeps.ite ?_ ?_
    · refine Keeps.app (wr_bus rfl) ?_
      exact h9
    · exact h9
  try clear_value x11
  extract_lets -merge -useContext +onlyGivenNames x13
  have h14 : Keeps 64962551 s x13 := by
    unfold x13
    refine Keeps.step busClock_keeps rfl ?_
    exact h12
  try clear_value x13
  refine Keeps.app (wr_bus rfl) ?_
  exact h14

end Sys2Proof.Machine
end

