-- ==== Sys2Proof/Laws/InvBus.lean ====
section
/-! SUPPORT. The functions of Machine/Bus.lean keep the invariant `Inv`. -/

namespace Sys2Proof.Machine

theorem adoptTime_inv {b0 b1 s} (hs : Inv s) : Inv (adoptTime b0 b1 s) := by
  unfold adoptTime
  extract_lets -merge -useContext +onlyGivenNames x0
  try clear_value x0
  extract_lets -merge -useContext +onlyGivenNames x1
  try clear_value x1
  extract_lets -merge -useContext +onlyGivenNames x2
  try clear_value x2
  extract_lets -merge -useContext +onlyGivenNames x3
  try clear_value x3
  extract_lets -merge -useContext +onlyGivenNames x4
  have h5 : Inv x4 := by
    unfold x4
    exact Inv.keep (show Keeps 67076087 s _ from ⟨fun _ => rfl, fun _ => rfl, fun _ => rfl, fun h => noBit h rfl, fun _ => rfl, fun _ => rfl, fun _ => rfl, fun _ => rfl, fun _ => rfl, fun _ => rfl, fun _ => rfl, fun _ => rfl, fun _ => rfl, fun _ => rfl, fun _ => rfl, fun h => noBit h rfl, fun _ => rfl, fun _ => rfl, fun _ => rfl, fun _ => rfl, fun _ => rfl, fun _ => rfl, fun _ => rfl, fun _ => rfl, fun _ => rfl, fun _ => rfl⟩) rfl hs
  try clear_value x4
  refine Inv.ite ?_ ?_
  · extract_lets -merge -useContext +onlyGivenNames x6
    have h7 : Inv x6 := by
      unfold x6
      refine emit_inv ?_
      exact h5
    try clear_value x6
    split
    · refine Inv.ite ?_ ?_
      · refine emit_inv ?_
        exact h7
      · exact h7
    · exact h7
  · exact h5

theorem coldStart_inv {b0 s} (hs : Inv s) : Inv (coldStart b0 s) := by
  unfold coldStart
  split
  · exact hs
  · extract_lets -merge -useContext +onlyGivenNames x2
    try clear_value x2
    extract_lets -merge -useContext +onlyGivenNames x3
    try clear_value x3
    extract_lets -merge -useContext +onlyGivenNames x4
    have h5 : Inv x4 := by
      unfold x4
      refine adoptTime_inv ?_
      exact hs
    try clear_value x4
    refine Inv.keep addRf_keeps rfl ?_
    refine Inv.keep (wr_bus (m := 67076095) rfl) rfl ?_
    exact h5

theorem vbusCtlWrite_inv {b0 s} (hs : Inv s) : Inv (vbusCtlWrite b0 s) := by
  unfold vbusCtlWrite
  refine Inv.ite ?_ ?_
  · refine lockViolation_inv ?_
    exact hs
  · extract_lets -merge -useContext +onlyGivenNames x0
    have h1 : Inv x0 := by
      unfold x0
      refine Inv.keep setRv_keeps rfl ?_
      exact hs
    try clear_value x0
    refine Inv.ite ?_ ?_
    · refine Inv.keep offToListen_keeps rfl ?_
      exact h1
    · refine Inv.keep guardClose_keeps rfl ?_
      refine Inv.keep (wr_bus (m := 67076095) rfl) rfl ?_
      exact h1

theorem execVbusEnable_inv {b0 b1 s} (hs : Inv s) : InvA (execVbusEnable b0 b1 s) := by
  unfold execVbusEnable
  refine InvA.next ?_
  refine blockCommand_inv ?_ ?_
  · intro s hs
    refine vbusCtlWrite_inv ?_
    exact hs
  · refine begin'_inv ?_
    exact hs

theorem execListenTimeout_inv {b0 s} (hs : Inv s) : InvA (execListenTimeout b0 s) := by
  unfold execListenTimeout
  extract_lets -merge -useContext +onlyGivenNames x0
  have h1 : Inv x0 := by
    unfold x0
    refine begin'_inv ?_
    exact hs
  try clear_value x0
  extract_lets -merge -useContext +onlyGivenNames x2
  try clear_value x2
  refine InvA.next ?_
  refine Inv.ite ?_ ?_
  · refine Inv.ite ?_ ?_
    · refine coldStart_inv ?_
      exact h1
    · refine Inv.keep (wr_bus (m := 67076095) rfl) rfl ?_
      exact h1
  · exact h1

theorem execBackoffExpiry_inv {b0 s} (hs : Inv s) : InvA (execBackoffExpiry b0 s) := by
  unfold execBackoffExpiry
  extract_lets -merge -useContext +onlyGivenNames x0
  have h1 : Inv x0 := by
    unfold x0
    refine begin'_inv ?_
    exact hs
  try clear_value x0
  extract_lets -merge -useContext +onlyGivenNames x2
  try clear_value x2
  refine InvA.next ?_
  refine Inv.ite ?_ ?_
  · refine Inv.ite ?_ ?_
    · refine coldStart_inv ?_
      exact h1
    · refine Inv.keep toListen_keeps rfl ?_
      refine emit_inv ?_
      refine Inv.keep (wr_bus (m := 67076095) rfl) rfl ?_
      exact h1
  · exact h1

theorem execBusLost_inv {b0 s} (hs : Inv s) : InvA (execBusLost b0 s) := by
  unfold execBusLost
  extract_lets -merge -useContext +onlyGivenNames x0
  have h1 : Inv x0 := by
    unfold x0
    refine begin'_inv ?_
    exact hs
  try clear_value x0
  refine InvA.next ?_
  refine Inv.ite ?_ ?_
  · refine emit_inv ?_
    refine Inv.keep (wr_bus (m := 67076095) rfl) rfl ?_
    exact h1
  · exact h1

theorem execBusSilence_inv {b0 s} (hs : Inv s) : InvA (execBusSilence b0 s) := by
  unfold execBusSilence
  extract_lets -merge -useContext +onlyGivenNames x0
  have h1 : Inv x0 := by
    unfold x0
    refine begin'_inv ?_
    exact hs
  try clear_value x0
  refine InvA.next ?_
  refine Inv.ite ?_ ?_
  · refine vitalFault_inv ?_
    exact h1
  · exact h1

theorem execLamplighterTakeover_inv {b0 s} (hs : Inv s) : InvA (execLamplighterTakeover b0 s) := by
  unfold execLamplighterTakeover
  extract_lets -merge -useContext +onlyGivenNames x0
  have h1 : Inv x0 := by
    unfold x0
    refine begin'_inv ?_
    exact hs
  try clear_value x0
  refine InvA.next ?_
  refine Inv.ite ?_ ?_
  · refine Inv.keep takeLamp_keeps rfl ?_
    exact h1
  · exact h1

theorem prepVital_inv {b0 b1 b2 b3 s} (hs : Inv s) : Inv (prepVital b0 b1 b2 b3 s).2 := by
  unfold prepVital
  extract_lets -merge -useContext +onlyGivenNames x0
  try clear_value x0
  extract_lets -merge -useContext +onlyGivenNames x1
  try clear_value x1
  extract_lets -merge -useContext +onlyGivenNames x2
  have h3 : Inv x2 := by
    unfold x2
    refine Inv.keep (wr_bus (m := 67076095) rfl) rfl ?_
    exact hs
  try clear_value x2
  extract_lets -merge -useContext +onlyGivenNames x4
  try clear_value x4
  refine Inv.ite2 ?_ ?_
  · refine Inv.mkSnd ?_
    exact h3
  · extract_lets -merge -useContext +onlyGivenNames x5
    try clear_value x5
    split
    · rename_i y6 q7
      have h8 : Inv y6 := by
        refine Inv.snd ?_ q7
        refine sealTake_inv ?_
        exact h3
      refine Inv.mkSnd ?_
      exact h8
    · rename_i y9 y10 y11 q12
      have h13 : Inv y11 := by
        refine Inv.snd ?_ q12
        refine sealTake_inv ?_
        exact h3
      extract_lets -merge -useContext +onlyGivenNames x14
      try clear_value x14
      extract_lets -merge -useContext +onlyGivenNames x15
      try clear_value x15
      refine Inv.mkSnd ?_
      exact h13

theorem prepSlot_inv {b0 s} (hs : Inv s) : Inv (prepSlot b0 s).2 := by
  unfold prepSlot
  extract_lets -merge -useContext +onlyGivenNames x0
  try clear_value x0
  extract_lets -merge -useContext +onlyGivenNames x1
  try clear_value x1
  extract_lets -merge -useContext +onlyGivenNames x2
  try clear_value x2
  refine Inv.ite2 ?_ ?_
  · refine Inv.ite2 ?_ ?_
    · refine Inv.mkSnd ?_
      exact hs
    · split
      · rename_i y3 y4 y5 q6
        have h7 : Inv y5 := by
          refine InvS3.elim ?_ q6
          refine InvS3.keep ringTakeItem_keeps rfl ?_
          exact hs
        refine prepVital_inv ?_
        exact h7
      · split
        · refine Inv.ite2 ?_ ?_
          · refine prepVital_inv ?_
            exact hs
          · refine Inv.mkSnd ?_
            exact hs
        · refine Inv.mkSnd ?_
          exact hs
  · refine Inv.ite2 ?_ ?_
    · split
      · refine Inv.mkSnd ?_
        refine Inv.keep (wr_upd (m := 58720255) rfl) rfl ?_
        exact hs
      · refine Inv.mkSnd ?_
        exact hs
    · refine Inv.ite2 ?_ ?_
      · split
        · rename_i y15 y16 y17 q18
          have h19 : Inv y17 := by
            refine InvS3.elim ?_ q18
            refine InvS3.keep ringTakeItem_keeps rfl ?_
            exact hs
          refine Inv.mkSnd ?_
          exact h19
        · refine Inv.mkSnd ?_
          exact hs
      · refine Inv.mkSnd ?_
        exact hs

theorem execTxringTake_inv {b0 b1 s} (hs : Inv s) : InvA (execTxringTake b0 b1 s) := by
  unfold execTxringTake
  extract_lets -merge -useContext +onlyGivenNames x0
  have h1 : Inv x0 := by
    unfold x0
    refine begin'_inv ?_
    exact hs
  try clear_value x0
  extract_lets -merge -useContext +onlyGivenNames x2
  try clear_value x2
  refine InvA.next ?_
  refine Inv.ite ?_ ?_
  · split
    · rename_i y3 y4 q5
      have h6 : Inv y4 := by
        refine Inv.snd ?_ q5
        refine prepSlot_inv ?_
        exact h1
      refine Inv.keep (wr_bus (m := 67076095) rfl) rfl ?_
      exact h6
  · exact h1

theorem execSlotStart_inv {b0 b1 s} (hs : Inv s) : InvA (execSlotStart b0 b1 s) := by
  unfold execSlotStart
  extract_lets -merge -useContext +onlyGivenNames x0
  have h1 : Inv x0 := by
    unfold x0
    refine begin'_inv ?_
    exact hs
  try clear_value x0
  refine InvA.next ?_
  refine Inv.ite ?_ ?_
  · refine Inv.keep slotGo_keeps rfl ?_
    exact h1
  · exact h1

theorem integrate_inv {b0 s} (hs : Inv s) : Inv (integrate b0 s) := by
  unfold integrate
  split
  · exact hs
  · extract_lets -merge -useContext +onlyGivenNames x2
    try clear_value x2
    extract_lets -merge -useContext +onlyGivenNames x3
    try clear_value x3
    extract_lets -merge -useContext +onlyGivenNames x4
    have h5 : Inv x4 := by
      unfold x4
      refine Inv.ite ?_ ?_
      · exact hs
      · refine adoptTime_inv ?_
        refine Inv.keep (wr_bus (m := 67076095) rfl) rfl ?_
        exact hs
    try clear_value x4
    refine Inv.keep modHear_keeps rfl ?_
    refine Inv.keep (wr_bus (m := 67076095) rfl) rfl ?_
    exact h5

theorem listenRx_inv {b0 b1 s} (hs : Inv s) : Inv (listenRx b0 b1 s) := by
  unfold listenRx
  refine Inv.ite ?_ ?_
  · exact hs
  · refine Inv.ite ?_ ?_
    · refine Inv.keep (wr_bus (m := 67076095) rfl) rfl ?_
      exact hs
    · refine Inv.ite ?_ ?_
      · refine Inv.keep (wr_bus (m := 67076095) rfl) rfl ?_
        exact hs
      · refine integrate_inv ?_
        exact hs

theorem syncRx_inv {b0 b1 s} (hs : Inv s) : Inv (syncRx b0 b1 s) := by
  unfold syncRx
  extract_lets -merge -useContext +onlyGivenNames x0
  have h1 : Inv x0 := by
    unfold x0
    refine Inv.keep learnFirst_keeps rfl ?_
    refine Inv.keep busHear_keeps rfl ?_
    exact hs
  try clear_value x0
  extract_lets -merge -useContext +onlyGivenNames x2
  try clear_value x2
  split
  · exact h1
  · refine Inv.ite ?_ ?_
    · refine Inv.keep countCrc_keeps rfl ?_
      exact h1
    · refine Inv.ite ?_ ?_
      · refine listenRx_inv ?_
        exact h1
      · exact h1
  · refine Inv.ite ?_ ?_
    · refine Inv.keep countCrc_keeps rfl ?_
      exact h1
    · refine Inv.ite ?_ ?_
      · refine Inv.keep (wr_bus (m := 67076095) rfl) rfl ?_
        exact h1
      · exact h1
  · refine Inv.ite ?_ ?_
    · refine Inv.keep countCrc_keeps rfl ?_
      exact h1
    · refine Inv.ite ?_ ?_
      · refine integrate_inv ?_
        exact h1
      · exact h1
  · refine Inv.keep alignedRx_keeps rfl ?_
    exact h1
  · refine Inv.keep alignedRx_keeps rfl ?_
    exact h1
  · refine Inv.keep alignedRx_keeps rfl ?_
    exact h1

theorem execSync_inv {b0 b1 s} (hs : Inv s) : InvA (execSync b0 b1 s) := by
  unfold execSync
  extract_lets -merge -useContext +onlyGivenNames x0
  have h1 : Inv x0 := by
    unfold x0
    refine begin'_inv ?_
    exact hs
  try clear_value x0
  refine InvA.next ?_
  refine Inv.ite ?_ ?_
  · refine syncRx_inv ?_
    exact h1
  · exact h1

theorem execColdstart_inv {b0 b1 s} (hs : Inv s) : InvA (execColdstart b0 b1 s) := by
  unfold execColdstart
  extract_lets -merge -useContext +onlyGivenNames x0
  have h1 : Inv x0 := by
    unfold x0
    refine begin'_inv ?_
    exact hs
  try clear_value x0
  refine InvA.next ?_
  refine Inv.ite ?_ ?_
  · refine syncRx_inv ?_
    exact h1
  · exact h1

theorem vitalRx_inv {b0 s} (hs : Inv s) : Inv (vitalRx b0 s) := by
  unfold vitalRx
  split
  · refine Inv.keep cnt_keeps rfl ?_
    exact hs
  · extract_lets -merge -useContext +onlyGivenNames x4
    have h5 : Inv x4 := by
      unfold x4
      refine Inv.ite ?_ ?_
      · refine Inv.keep countEdge_keeps rfl ?_
        exact hs
      · exact hs
    try clear_value x4
    extract_lets -merge -useContext +onlyGivenNames x6
    try clear_value x6
    extract_lets -merge -useContext +onlyGivenNames x7
    try clear_value x7
    extract_lets -merge -useContext +onlyGivenNames x8
    try clear_value x8
    extract_lets -merge -useContext +onlyGivenNames x9
    try clear_value x9
    extract_lets -merge -useContext +onlyGivenNames x10
    try clear_value x10
    split
    · refine Inv.ite ?_ ?_
      · refine Inv.keep pairHeard_keeps rfl ?_
        refine Inv.keep learnDelay_keeps rfl ?_
        exact h5
      · refine Inv.keep cnt_keeps rfl ?_
        exact h5
    · refine Inv.ite ?_ ?_
      · refine Inv.ite ?_ ?_
        · refine Inv.keep cnt_keeps rfl ?_
          exact h5
        · extract_lets -merge -useContext +onlyGivenNames x13
          have h14 : Inv x13 := by
            unfold x13
            refine Inv.keep pairHeard_keeps rfl ?_
            refine Inv.keep learnDelay_keeps rfl ?_
            exact h5
          try clear_value x13
          refine Inv.ite ?_ ?_
          · exact h14
          · refine Inv.keep cnt_keeps rfl ?_
            refine Inv.keep (wr_bus (m := 67076095) rfl) rfl ?_
            exact h14
      · split
        · extract_lets -merge -useContext +onlyGivenNames x17
          try clear_value x17
          refine Inv.ite ?_ ?_
          · refine Inv.keep cnt_keeps rfl ?_
            exact h5
          · refine Inv.keep secondCopy_keeps rfl ?_
            exact h5
        · split
          · refine Inv.ite ?_ ?_
            · refine Inv.keep cnt_keeps rfl ?_
              exact h5
            · extract_lets -merge -useContext +onlyGivenNames x20
              have h21 : Inv x20 := by
                unfold x20
                refine Inv.keep pairHeard_keeps rfl ?_
                refine Inv.keep learnDelay_keeps rfl ?_
                exact h5
              try clear_value x20
              refine Inv.ite ?_ ?_
              · exact h21
              · extract_lets -merge -useContext +onlyGivenNames x22
                try clear_value x22
                extract_lets -merge -useContext +onlyGivenNames x23
                have h24 : Inv x23 := by
                  unfold x23
                  refine Inv.keep (wr_bus (m := 67076095) rfl) rfl ?_
                  exact h21
                try clear_value x23
                extract_lets -merge -useContext +onlyGivenNames x25
                try clear_value x25
                refine telAccept_inv ?_
                exact h24
          · extract_lets -merge -useContext +onlyGivenNames x27
            have h28 : Inv x27 := by
              unfold x27
              refine Inv.keep telFail_keeps rfl ?_
              refine Inv.keep countCrc_keeps rfl ?_
              exact h5
            try clear_value x27
            refine Inv.ite ?_ ?_
            · refine Inv.keep stat_keeps rfl ?_
              exact h28
            · exact h28

theorem backgroundRx_inv {b0 b1 s} (hs : Inv s) : Inv (backgroundRx b0 b1 s) := by
  unfold backgroundRx
  split
  · refine Inv.keep cnt_keeps rfl ?_
    exact hs
  · extract_lets -merge -useContext +onlyGivenNames x4
    have h5 : Inv x4 := by
      unfold x4
      refine Inv.ite ?_ ?_
      · refine Inv.keep countEdge_keeps rfl ?_
        exact hs
      · exact hs
    try clear_value x4
    refine Inv.ite ?_ ?_
    · refine Inv.keep countCrc_keeps rfl ?_
      exact h5
    · refine Inv.ite ?_ ?_
      · refine Inv.keep cnt_keeps rfl ?_
        exact h5
      · extract_lets -merge -useContext +onlyGivenNames x6
        have h7 : Inv x6 := by
          unfold x6
          refine Inv.keep pairHeard_keeps rfl ?_
          refine Inv.keep learnDelay_keeps rfl ?_
          exact h5
        try clear_value x6
        split
        · refine Inv.keep secondCopy_keeps rfl ?_
          exact h7
        · extract_lets -merge -useContext +onlyGivenNames x11
          try clear_value x11
          extract_lets -merge -useContext +onlyGivenNames x12
          have h13 : Inv x12 := by
            unfold x12
            refine Inv.keep (wr_bus (m := 67076095) rfl) rfl ?_
            exact h7
          try clear_value x12
          extract_lets -merge -useContext +onlyGivenNames x14
          try clear_value x14
          refine Inv.ite ?_ ?_
          · exact h13
          · extract_lets -merge -useContext +onlyGivenNames x15
            try clear_value x15
            refine deliverItem_inv ?_
            exact h13

theorem dataRx_inv {b0 b1 b2 s} (hf1 : ∀ c0 t, Inv t → Inv (b1 c0 t)) (hs : Inv s) : Inv (dataRx b0 b1 b2 s) := by
  unfold dataRx
  extract_lets -merge -useContext +onlyGivenNames x0
  have h1 : Inv x0 := by
    unfold x0
    refine Inv.keep learnFirst_keeps rfl ?_
    refine Inv.keep busHear_keeps rfl ?_
    exact hs
  try clear_value x0
  refine Inv.ite ?_ ?_
  · refine hf1 _ _ ?_
    exact h1
  · exact h1

theorem execVital_inv {b0 b1 s} (hs : Inv s) : InvA (execVital b0 b1 s) := by
  unfold execVital
  extract_lets -merge -useContext +onlyGivenNames x0
  have h1 : Inv x0 := by
    unfold x0
    refine begin'_inv ?_
    exact hs
  try clear_value x0
  refine InvA.next ?_
  refine Inv.ite ?_ ?_
  · refine dataRx_inv ?_ ?_
    · intro a2 s hs
      refine vitalRx_inv ?_
      exact hs
    · exact h1
  · exact h1

theorem execBackground_inv {b0 b1 s} (hs : Inv s) : InvA (execBackground b0 b1 s) := by
  unfold execBackground
  extract_lets -merge -useContext +onlyGivenNames x0
  have h1 : Inv x0 := by
    unfold x0
    refine begin'_inv ?_
    exact hs
  try clear_value x0
  refine InvA.next ?_
  refine Inv.ite ?_ ?_
  · refine dataRx_inv ?_ ?_
    · intro a2 s hs
      refine backgroundRx_inv ?_
      exact hs
    · exact h1
  · exact h1

theorem execNull_inv {b0 b1 s} (hs : Inv s) : InvA (execNull b0 b1 s) := by
  unfold execNull
  extract_lets -merge -useContext +onlyGivenNames x0
  have h1 : Inv x0 := by
    unfold x0
    refine begin'_inv ?_
    exact hs
  try clear_value x0
  refine InvA.next ?_
  refine Inv.ite ?_ ?_
  · refine dataRx_inv ?_ ?_
    · intro a2 s hs
      refine backgroundRx_inv ?_
      exact hs
    · exact h1
  · exact h1

theorem execLinkDelayMeasure_inv {b0 b1 s} (hs : Inv s) : InvA (execLinkDelayMeasure b0 b1 s) := by
  unfold execLinkDelayMeasure
  extract_lets -merge -useContext +onlyGivenNames x0
  have h1 : Inv x0 := by
    unfold x0
    refine begin'_inv ?_
    exact hs
  try clear_value x0
  refine InvA.next ?_
  refine Inv.ite ?_ ?_
  · refine Inv.keep measureStart_keeps rfl ?_
    exact h1
  · exact h1

theorem followTime_inv {b0 b1 s} (hs : Inv s) : Inv (followTime b0 b1 s) := by
  unfold followTime
  refine Inv.ite ?_ ?_
  · refine adoptTime_inv ?_
    exact hs
  · refine Inv.ite ?_ ?_
    · refine Inv.keep (wr_clk (m := 67108855) rfl) rfl ?_
      exact hs
    · refine Inv.ite ?_ ?_
      · refine Inv.keep (wr_clk (m := 67108855) rfl) rfl ?_
        exact hs
      · refine Inv.ite ?_ ?_
        · refine Inv.keep (wr_clk (m := 67108855) rfl) rfl ?_
          exact hs
        · refine adoptTime_inv ?_
          exact hs

theorem linkTime_inv {b0 s} (hs : Inv s) : Inv (linkTime b0 s) := by
  unfold linkTime
  extract_lets -merge -useContext +onlyGivenNames x0
  try clear_value x0
  extract_lets -merge -useContext +onlyGivenNames x1
  have h2 : Inv x1 := by
    unfold x1
    refine Inv.keep modLink_keeps rfl ?_
    exact hs
  try clear_value x1
  split
  · extract_lets -merge -useContext +onlyGivenNames x4
    try clear_value x4
    refine Inv.ite ?_ ?_
    · extract_lets -merge -useContext +onlyGivenNames x5
      try clear_value x5
      extract_lets -merge -useContext +onlyGivenNames x6
      have h7 : Inv x6 := by
        unfold x6
        refine followTime_inv ?_
        exact h2
      try clear_value x6
      refine Inv.keep (wr_lnk (m := 50331647) rfl) rfl ?_
      exact h7
    · exact h2
  · exact h2

theorem delayReqRx_inv {b0 s} (hs : Inv s) : Inv (delayReqRx b0 s) := by
  unfold delayReqRx
  refine Inv.ite ?_ ?_
  · extract_lets -merge -useContext +onlyGivenNames x0
    try clear_value x0
    extract_lets -merge -useContext +onlyGivenNames x1
    have h2 : Inv x1 := by
      unfold x1
      refine Inv.keep (wr_bus (m := 67076095) rfl) rfl ?_
      exact hs
    try clear_value x1
    refine Inv.ite ?_ ?_
    · split
      · rename_i y3 y4 q5
        have h6 : Inv y4 := by
          refine Inv.snd ?_ q5
          refine Inv.keep takeFree_keeps rfl ?_
          exact h2
        refine Inv.keep sendDelay_keeps rfl ?_
        exact h6
    · exact h2
  · refine Inv.ite ?_ ?_
    · exact hs
    · split
      · rename_i y7 q8
        have h9 : Inv y7 := by
          refine Inv.snd ?_ q8
          refine Inv.keep linkArrive_keeps rfl ?_
          exact hs
        split
        · rename_i y10 y11 q12
          have h13 : Inv y11 := by
            refine Inv.snd ?_ q12
            refine Inv.keep takeFree_keeps rfl ?_
            refine linkTime_inv ?_
            exact h9
          refine Inv.keep sendLink_keeps rfl ?_
          exact h13
      · rename_i y14 q15
        have h16 : Inv y14 := by
          refine Inv.snd ?_ q15
          refine Inv.keep linkArrive_keeps rfl ?_
          exact hs
        exact h16

theorem execDelayReq_inv {b0 b1 s} (hs : Inv s) : InvA (execDelayReq b0 b1 s) := by
  unfold execDelayReq
  extract_lets -merge -useContext +onlyGivenNames x0
  have h1 : Inv x0 := by
    unfold x0
    refine begin'_inv ?_
    exact hs
  try clear_value x0
  refine InvA.next ?_
  refine Inv.ite ?_ ?_
  · refine delayReqRx_inv ?_
    exact h1
  · exact h1

theorem checkLong_inv {b0 b1 s} (hs : Inv s) : Inv (checkLong b0 b1 s) := by
  unfold checkLong
  extract_lets -merge -useContext +onlyGivenNames x0
  try clear_value x0
  extract_lets -merge -useContext +onlyGivenNames x1
  try clear_value x1
  extract_lets -merge -useContext +onlyGivenNames x2
  try clear_value x2
  extract_lets -merge -useContext +onlyGivenNames x3
  try clear_value x3
  refine Inv.ite ?_ ?_
  · refine nvEvent_inv ?_
    refine Inv.keep setRf_keeps rfl ?_
    exact hs
  · exact hs

theorem delayRespRx_inv {b0 s} (hs : Inv s) : Inv (delayRespRx b0 s) := by
  unfold delayRespRx
  refine Inv.ite ?_ ?_
  · extract_lets -merge -useContext +onlyGivenNames x0
    try clear_value x0
    extract_lets -merge -useContext +onlyGivenNames x1
    try clear_value x1
    extract_lets -merge -useContext +onlyGivenNames x2
    have h3 : Inv x2 := by
      unfold x2
      refine Inv.keep (wr_bus (m := 67076095) rfl) rfl ?_
      exact hs
    try clear_value x2
    split
    · extract_lets -merge -useContext +onlyGivenNames x6
      try clear_value x6
      refine Inv.ite ?_ ?_
      · extract_lets -merge -useContext +onlyGivenNames x7
        try clear_value x7
        extract_lets -merge -useContext +onlyGivenNames x8
        have h9 : Inv x8 := by
          unfold x8
          refine checkLong_inv ?_
          refine Inv.keep modPort_keeps rfl ?_
          exact h3
        try clear_value x8
        refine Inv.keep offToListen_keeps rfl ?_
        exact h9
      · exact h3
    · exact h3
  · refine Inv.ite ?_ ?_
    · exact hs
    · split
      · rename_i y11 q12
        have h13 : Inv y11 := by
          refine Inv.snd ?_ q12
          refine Inv.keep linkArrive_keeps rfl ?_
          exact hs
        extract_lets -merge -useContext +onlyGivenNames x14
        try clear_value x14
        split
        · refine linkTime_inv ?_
          refine Inv.keep modLink_keeps rfl ?_
          exact h13
        · exact h13
      · rename_i y17 q18
        have h19 : Inv y17 := by
          refine Inv.snd ?_ q18
          refine Inv.keep linkArrive_keeps rfl ?_
          exact hs
        exact h19

theorem execDelayResp_inv {b0 b1 s} (hs : Inv s) : InvA (execDelayResp b0 b1 s) := by
  unfold execDelayResp
  extract_lets -merge -useContext +onlyGivenNames x0
  have h1 : Inv x0 := by
    unfold x0
    refine begin'_inv ?_
    exact hs
  try clear_value x0
  refine InvA.next ?_
  refine Inv.ite ?_ ?_
  · refine delayRespRx_inv ?_
    exact h1
  · exact h1

theorem execPortLinkUp_inv {b0 b1 s} (hs : Inv s) : InvA (execPortLinkUp b0 b1 s) := by
  unfold execPortLinkUp
  extract_lets -merge -useContext +onlyGivenNames x0
  have h1 : Inv x0 := by
    unfold x0
    refine begin'_inv ?_
    exact hs
  try clear_value x0
  refine InvA.next ?_
  refine Inv.ite ?_ ?_
  · refine Inv.keep offToListen_keeps rfl ?_
    refine Inv.keep modPort_keeps rfl ?_
    exact h1
  · exact h1

theorem execPortLinkDown_inv {b0 b1 s} (hs : Inv s) : InvA (execPortLinkDown b0 b1 s) := by
  unfold execPortLinkDown
  extract_lets -merge -useContext +onlyGivenNames x0
  have h1 : Inv x0 := by
    unfold x0
    refine begin'_inv ?_
    exact hs
  try clear_value x0
  refine InvA.next ?_
  refine Inv.ite ?_ ?_
  · refine Inv.keep offToListen_keeps rfl ?_
    refine Inv.keep modPort_keeps rfl ?_
    exact h1
  · exact h1

theorem applyDelays_inv {b0 s} (hs : Inv s) : Inv (applyDelays b0 s) := by
  induction b0 generalizing s with
  | nil =>
    rw [applyDelays.eq_1]
    exact hs
  | cons z zs ih =>
    rw [applyDelays.eq_2]
    refine ih ?_
    refine Inv.ite ?_ ?_
    · refine emit_inv ?_
      refine Inv.ite ?_ ?_
      · refine Inv.keep (wr_bus (m := 67076095) rfl) rfl ?_
        exact hs
      · refine Inv.keep (wr_bus (m := 67076095) rfl) rfl ?_
        exact hs
    · refine Inv.ite ?_ ?_
      · refine Inv.keep (wr_bus (m := 67076095) rfl) rfl ?_
        exact hs
      · refine Inv.keep (wr_bus (m := 67076095) rfl) rfl ?_
        exact hs

theorem busBoundary_inv {b0 s} (hs : Inv s) : Inv (busBoundary b0 s) := by
  unfold busBoundary
  extract_lets -merge -useContext +onlyGivenNames x0
  have h1 : Inv x0 := by
    unfold x0
    refine Inv.keep guardSync_keeps rfl ?_
    exact hs
  try clear_value x0
  extract_lets -merge -useContext +onlyGivenNames x2
  try clear_value x2
  extract_lets -merge -useContext +onlyGivenNames x3
  have h4 : Inv x3 := by
    unfold x3
    refine applyDelays_inv ?_
    refine Inv.keep (wr_bus (m := 67076095) rfl) rfl ?_
    exact h1
  try clear_value x3
  extract_lets -merge -useContext +onlyGivenNames x5
  try clear_value x5
  extract_lets -merge -useContext +onlyGivenNames x6
  have h7 : Inv x6 := by
    unfold x6
    refine Inv.ite ?_ ?_
    · refine Inv.keep (wr_bus (m := 67076095) rfl) rfl ?_
      exact h4
    · exact h4
  try clear_value x6
  extract_lets -merge -useContext +onlyGivenNames x8
  have h9 : Inv x8 := by
    unfold x8
    refine Inv.keep busStates_keeps rfl ?_
    exact h7
  try clear_value x8
  extract_lets -merge -useContext +onlyGivenNames x10
  try clear_value x10
  extract_lets -merge -useContext +onlyGivenNames x11
  have h12 : Inv x11 := by
    unfold x11
    refine Inv.ite ?_ ?_
    · refine Inv.keep (wr_bus (m := 67076095) rfl) rfl ?_
      exact h9
    · exact h9
  try clear_value x11
  extract_lets -merge -useContext +onlyGivenNames x13
  have h14 : Inv x13 := by
    unfold x13
    refine Inv.keep busClock_keeps rfl ?_
    exact h12
  try clear_value x13
  refine Inv.keep (wr_bus (m := 67076095) rfl) rfl ?_
  exact h14

end Sys2Proof.Machine
end

