-- ==== Sys2Proof/Laws/KeepsFlags.lean ====
section
/-! SUPPORT. Frames of the functions of Machine/Flags.lean: what each leaves alone, said once. The docstrings name the parts of `State` a function may write; the mask marks all others. -/

namespace Sys2Proof.Machine

/-- Writes at most: prg. -/
theorem modCtx_keeps {b0 b1 s} : Keeps 67108351 s (modCtx b0 b1 s) := by
  unfold modCtx
  split
  · refine Keeps.app (wr_prg rfl) ?_
    exact Keeps.refl
  · refine Keeps.app (wr_prg rfl) ?_
    exact Keeps.refl

/-- Writes at most: prg. -/
theorem setOvf_keeps {b0 b1 s} : Keeps 67108351 s (setOvf b0 b1 s) := by
  unfold setOvf
  refine Keeps.ite ?_ ?_
  · refine Keeps.step modCtx_keeps rfl ?_
    exact Keeps.refl
  · exact Keeps.refl

/-- Writes at most: prg. -/
theorem setDivz_keeps {b0 b1 s} : Keeps 67108351 s (setDivz b0 b1 s) := by
  unfold setDivz
  refine Keeps.ite ?_ ?_
  · refine Keeps.step modCtx_keeps rfl ?_
    exact Keeps.refl
  · exact Keeps.refl

end Sys2Proof.Machine
end

