-- ==== Sys2Proof/Laws/KeepsOperands.lean ====
section
/-! SUPPORT. Frames of the functions of Machine/Operands.lean: what each leaves alone, said once. The docstrings name the parts of `State` a function may write; the mask marks all others. -/

namespace Sys2Proof.Machine

/-- Writes at most: nothing. -/
theorem tyRead_keeps {b0 b1 s} : KeepsE 67108863 s (tyRead b0 b1 s) := by
  unfold tyRead
  refine KeepsE.ite ?_ ?_
  · refine KeepsE.ite ?_ ?_
    · refine KeepsE.ok ?_
      exact Keeps.refl
    · refine KeepsE.trap ?_
      exact Keeps.refl
  · refine KeepsE.ok ?_
    exact Keeps.refl

/-- Writes at most: prg. -/
theorem scrSet_keeps {b0 b1 b2 s} : Keeps 67108351 s (scrSet b0 b1 b2 s) := by
  unfold scrSet
  refine Keeps.step modCtx_keeps rfl ?_
  exact Keeps.refl

/-- Writes at most: sent free cand pwr tri prg frc mem vm xch regs rings fio snu evr sta upd lnk. -/
theorem ptrRead_keeps {b0 b1 b2 s} : KeepsE 33915161 s (ptrRead b0 b1 b2 s) := by
  unfold ptrRead
  refine KeepsE.ite ?_ ?_
  · refine KeepsE.ok ?_
    exact Keeps.refl
  · refine KeepsE.ite ?_ ?_
    · split
      · rename_i y0 y1 q2
        have h3 : Keeps 33915161 s y0 := by
          refine Keeps.fst ?_ q2
          refine Keeps.step laneReadBy_keeps rfl ?_
          exact Keeps.refl
        refine KeepsE.ok ?_
        exact h3
    · refine KeepsE.trap ?_
      exact Keeps.refl

/-- Writes at most: sent free cand pwr tri prg frc mem vm xch regs rings fio snu evr sta upd lnk. -/
theorem slotRead_keeps {b0 b1 b2 s} : KeepsE 33915161 s (slotRead b0 b1 b2 s) := by
  unfold slotRead
  split
  · refine KeepsE.step ptrRead_keeps rfl ?_
    exact Keeps.refl
  · refine KeepsE.trap ?_
    exact Keeps.refl
  · refine KeepsE.trap ?_
    exact Keeps.refl
  · refine KeepsE.ite ?_ ?_
    · split
      · rename_i y4 y5 q6
        have h7 : Keeps 33915161 s y4 := by
          refine Keeps.fst ?_ q6
          refine Keeps.step laneRead_keeps rfl ?_
          exact Keeps.refl
        refine KeepsE.ok ?_
        exact h7
    · refine KeepsE.trap ?_
      exact Keeps.refl
  · refine KeepsE.ite ?_ ?_
    · refine KeepsE.ok ?_
      exact Keeps.refl
    · refine KeepsE.trap ?_
      exact Keeps.refl
  · refine KeepsE.ite ?_ ?_
    · refine KeepsE.ok ?_
      exact Keeps.refl
    · refine KeepsE.trap ?_
      exact Keeps.refl
  · refine KeepsE.ite ?_ ?_
    · split
      · rename_i y11 y12 q13
        have h14 : Keeps 33915161 s y11 := by
          refine Keeps.fst ?_ q13
          refine Keeps.step laneRead_keeps rfl ?_
          exact Keeps.refl
        refine KeepsE.ok ?_
        exact h14
    · refine KeepsE.trap ?_
      exact Keeps.refl
  · split
    · split
      · refine KeepsE.ok ?_
        exact Keeps.refl
      · refine KeepsE.trap ?_
        exact Keeps.refl
    · refine KeepsE.trap ?_
      exact Keeps.refl
  · refine KeepsE.ite ?_ ?_
    · split
      · rename_i y22 y23 q24
        have h25 : Keeps 33915161 s y22 := by
          refine Keeps.fst ?_ q24
          refine Keeps.step laneRead_keeps rfl ?_
          exact Keeps.refl
        refine KeepsE.ok ?_
        exact h25
    · refine KeepsE.trap ?_
      exact Keeps.refl

/-- Writes at most: sent free cand pwr tri prg frc mem vm xch regs rings fio snu evr sta upd lnk. -/
theorem opRead_keeps {b0 b1 b2 b3 s} : KeepsE 33915161 s (opRead b0 b1 b2 b3 s) := by
  unfold opRead
  refine KeepsE.bind ?_ ?_
  · refine KeepsE.step slotRead_keeps rfl ?_
    exact Keeps.refl
  · intro s a0
    refine KeepsE.step tyRead_keeps rfl ?_
    exact Keeps.refl

/-- Writes at most: sent mem vm xch regs evr lnk. -/
theorem memWrite_keeps {b0 b1 s} : KeepsE 48203773 s (memWrite b0 b1 s) := by
  unfold memWrite
  refine KeepsE.ite ?_ ?_
  · refine KeepsE.ok ?_
    refine Keeps.step laneStore_keeps rfl ?_
    exact Keeps.refl
  · refine KeepsE.ite ?_ ?_
    · refine KeepsE.ok ?_
      refine Keeps.step nvEvent_keeps rfl ?_
      exact Keeps.refl
    · refine KeepsE.trap ?_
      exact Keeps.refl

/-- Writes at most: sent tri mem vm xch regs lnk. -/
theorem cellWrite_keeps {b0 b1 b2 s} : KeepsE 50300797 s (cellWrite b0 b1 b2 s) := by
  unfold cellWrite
  refine KeepsE.ite ?_ ?_
  · refine KeepsE.ok ?_
    refine Keeps.step cacheStore_keeps rfl ?_
    refine Keeps.step laneStore_keeps rfl ?_
    exact Keeps.refl
  · refine KeepsE.trap ?_
    exact Keeps.refl

/-- Writes at most: sent tri mem vm xch regs lnk. -/
theorem convWrite_keeps {b0 b1 b2 b3 b4 s} : KeepsE 50300797 s (convWrite b0 b1 b2 b3 b4 s) := by
  unfold convWrite
  split
  · extract_lets -merge -useContext +onlyGivenNames x1
    try clear_value x1
    refine KeepsE.ite ?_ ?_
    · refine KeepsE.step cellWrite_keeps rfl ?_
      exact Keeps.refl
    · refine KeepsE.trap ?_
      exact Keeps.refl
  · refine KeepsE.trap ?_
    exact Keeps.refl

/-- Writes at most: sent tri prg mem vm xch regs evr lnk. -/
theorem taskWrite_keeps {b0 b1 b2 b3 s} : KeepsE 48203133 s (taskWrite b0 b1 b2 b3 s) := by
  unfold taskWrite
  split
  · extract_lets -merge -useContext +onlyGivenNames x1
    try clear_value x1
    refine KeepsE.ite ?_ ?_
    · refine KeepsE.step cellWrite_keeps rfl ?_
      exact Keeps.refl
    · refine KeepsE.step memWrite_keeps rfl ?_
      exact Keeps.refl
  · refine KeepsE.trap ?_
    exact Keeps.refl
  · refine KeepsE.trap ?_
    exact Keeps.refl
  · refine KeepsE.trap ?_
    exact Keeps.refl
  · refine KeepsE.trap ?_
    exact Keeps.refl
  · refine KeepsE.ite ?_ ?_
    · refine KeepsE.step cellWrite_keeps rfl ?_
      exact Keeps.refl
    · refine KeepsE.trap ?_
      exact Keeps.refl
  · refine KeepsE.ite ?_ ?_
    · refine KeepsE.trap ?_
      exact Keeps.refl
    · refine KeepsE.ite ?_ ?_
      · refine KeepsE.trap ?_
        exact Keeps.refl
      · refine KeepsE.ok ?_
        refine Keeps.step scrSet_keeps rfl ?_
        exact Keeps.refl
  · refine KeepsE.ite ?_ ?_
    · refine KeepsE.ok ?_
      refine Keeps.step modCtx_keeps rfl ?_
      exact Keeps.refl
    · refine KeepsE.trap ?_
      exact Keeps.refl
  · refine KeepsE.ite ?_ ?_
    · refine KeepsE.step cellWrite_keeps rfl ?_
      exact Keeps.refl
    · refine KeepsE.trap ?_
      exact Keeps.refl

/-- Writes at most: sent tri prg mem vm xch regs evr lnk. -/
theorem slotWrite_keeps {b0 b1 b2 b3 s} : KeepsE 48203133 s (slotWrite b0 b1 b2 b3 s) := by
  unfold slotWrite
  split
  · refine KeepsE.step convWrite_keeps rfl ?_
    exact Keeps.refl
  · refine KeepsE.step taskWrite_keeps rfl ?_
    exact Keeps.refl

/-- Writes at most: sent free tri prg mem vm xch regs evr lnk. -/
theorem opWrite_keeps {b0 b1 b2 b3 b4 s} : KeepsE 48203129 s (opWrite b0 b1 b2 b3 b4 s) := by
  unfold opWrite
  refine KeepsE.ite ?_ ?_
  · split
    · rename_i y0 y1 q2
      have h3 : Keeps 48203129 s y1 := by
        refine Keeps.snd ?_ q2
        refine Keeps.step takeFree_keeps rfl ?_
        exact Keeps.refl
      refine KeepsE.step slotWrite_keeps rfl ?_
      exact h3
  · refine KeepsE.step slotWrite_keeps rfl ?_
    exact Keeps.refl

end Sys2Proof.Machine
end

