-- ==== Sys2Proof/Laws/InvOperands.lean ====
section
/-! SUPPORT. The functions of Machine/Operands.lean keep the invariant `Inv`. -/

namespace Sys2Proof.Machine

theorem ptrRead_inv {b0 b1 b2 s} (hs : Inv s) : InvE (ptrRead b0 b1 b2 s) := by
  unfold ptrRead
  refine InvE.ite ?_ ?_
  · refine InvE.ok ?_
    exact hs
  · refine InvE.ite ?_ ?_
    · split
      · rename_i y0 y1 q2
        have h3 : Inv y0 := by
          refine Inv.fst ?_ q2
          refine laneReadBy_inv ?_
          exact hs
        refine InvE.ok ?_
        exact h3
    · refine InvE.trap ?_
      exact hs

theorem slotRead_inv {b0 b1 b2 s} (hs : Inv s) : InvE (slotRead b0 b1 b2 s) := by
  unfold slotRead
  split
  · refine ptrRead_inv ?_
    exact hs
  · refine InvE.trap ?_
    exact hs
  · refine InvE.trap ?_
    exact hs
  · refine InvE.ite ?_ ?_
    · split
      · rename_i y4 y5 q6
        have h7 : Inv y4 := by
          refine Inv.fst ?_ q6
          refine laneRead_inv ?_
          exact hs
        refine InvE.ok ?_
        exact h7
    · refine InvE.trap ?_
      exact hs
  · refine InvE.ite ?_ ?_
    · refine InvE.ok ?_
      exact hs
    · refine InvE.trap ?_
      exact hs
  · refine InvE.ite ?_ ?_
    · refine InvE.ok ?_
      exact hs
    · refine InvE.trap ?_
      exact hs
  · refine InvE.ite ?_ ?_
    · split
      · rename_i y11 y12 q13
        have h14 : Inv y11 := by
          refine Inv.fst ?_ q13
          refine laneRead_inv ?_
          exact hs
        refine InvE.ok ?_
        exact h14
    · refine InvE.trap ?_
      exact hs
  · split
    · split
      · refine InvE.ok ?_
        exact hs
      · refine InvE.trap ?_
        exact hs
    · refine InvE.trap ?_
      exact hs
  · refine InvE.ite ?_ ?_
    · split
      · rename_i y22 y23 q24
        have h25 : Inv y22 := by
          refine Inv.fst ?_ q24
          refine laneRead_inv ?_
          exact hs
        refine InvE.ok ?_
        exact h25
    · refine InvE.trap ?_
      exact hs

theorem opRead_inv {b0 b1 b2 b3 s} (hs : Inv s) : InvE (opRead b0 b1 b2 b3 s) := by
  unfold opRead
  refine InvE.bind ?_ ?_
  · refine slotRead_inv ?_
    exact hs
  · intro s a0 hs
    refine InvE.keep tyRead_keeps rfl ?_
    exact hs

theorem memWrite_inv {b0 b1 s} (hs : Inv s) : InvE (memWrite b0 b1 s) := by
  unfold memWrite
  refine InvE.ite ?_ ?_
  · refine InvE.ok ?_
    refine laneStore_inv ?_
    exact hs
  · refine InvE.ite ?_ ?_
    · refine InvE.ok ?_
      refine nvEvent_inv ?_
      exact hs
    · refine InvE.trap ?_
      exact hs

theorem cellWrite_inv {b0 b1 b2 s} (hs : Inv s) : InvE (cellWrite b0 b1 b2 s) := by
  unfold cellWrite
  refine InvE.ite ?_ ?_
  · refine InvE.ok ?_
    refine Inv.keep cacheStore_keeps rfl ?_
    refine laneStore_inv ?_
    exact hs
  · refine InvE.trap ?_
    exact hs

theorem convWrite_inv {b0 b1 b2 b3 b4 s} (hs : Inv s) : InvE (convWrite b0 b1 b2 b3 b4 s) := by
  unfold convWrite
  split
  · extract_lets -merge -useContext +onlyGivenNames x1
    try clear_value x1
    refine InvE.ite ?_ ?_
    · refine cellWrite_inv ?_
      exact hs
    · refine InvE.trap ?_
      exact hs
  · refine InvE.trap ?_
    exact hs

theorem taskWrite_inv {b0 b1 b2 b3 s} (hs : Inv s) : InvE (taskWrite b0 b1 b2 b3 s) := by
  unfold taskWrite
  split
  · extract_lets -merge -useContext +onlyGivenNames x1
    try clear_value x1
    refine InvE.ite ?_ ?_
    · refine cellWrite_inv ?_
      exact hs
    · refine memWrite_inv ?_
      exact hs
  · refine InvE.trap ?_
    exact hs
  · refine InvE.trap ?_
    exact hs
  · refine InvE.trap ?_
    exact hs
  · refine InvE.trap ?_
    exact hs
  · refine InvE.ite ?_ ?_
    · refine cellWrite_inv ?_
      exact hs
    · refine InvE.trap ?_
      exact hs
  · refine InvE.ite ?_ ?_
    · refine InvE.trap ?_
      exact hs
    · refine InvE.ite ?_ ?_
      · refine InvE.trap ?_
        exact hs
      · refine InvE.ok ?_
        refine Inv.keep scrSet_keeps rfl ?_
        exact hs
  · refine InvE.ite ?_ ?_
    · refine InvE.ok ?_
      refine Inv.keep modCtx_keeps rfl ?_
      exact hs
    · refine InvE.trap ?_
      exact hs
  · refine InvE.ite ?_ ?_
    · refine cellWrite_inv ?_
      exact hs
    · refine InvE.trap ?_
      exact hs

theorem slotWrite_inv {b0 b1 b2 b3 s} (hs : Inv s) : InvE (slotWrite b0 b1 b2 b3 s) := by
  unfold slotWrite
  split
  · refine convWrite_inv ?_
    exact hs
  · refine taskWrite_inv ?_
    exact hs

theorem opWrite_inv {b0 b1 b2 b3 b4 s} (hs : Inv s) : InvE (opWrite b0 b1 b2 b3 b4 s) := by
  unfold opWrite
  refine InvE.ite ?_ ?_
  · split
    · rename_i y0 y1 q2
      have h3 : Inv y1 := by
        refine Inv.snd ?_ q2
        refine Inv.keep takeFree_keeps rfl ?_
        exact hs
      refine slotWrite_inv ?_
      exact h3
  · refine slotWrite_inv ?_
    exact hs

end Sys2Proof.Machine
end

