-- ==== Sys2Proof/Laws/KeepsVbc.lean ====
section
/-! SUPPORT. Frames of the functions of Machine/Vbc.lean: what each leaves alone, said once. The docstrings name the parts of `State` a function may write; the mask marks all others. -/

namespace Sys2Proof.Machine

/-- Writes at most: prg. -/
theorem advance_keeps {b0 s} : Keeps 67108351 s (advance b0 s) := by
  unfold advance
  refine Keeps.step modCtx_keeps rfl ?_
  exact Keeps.refl

/-- An instruction's end: a trap may stop the lanes or put a task out of service. -/
theorem vEnd_keeps {m : Nat} {b0 e s} (h : KeepsE m s e) (hm : m &&& 38111517 = m) : Keeps m s (vEnd b0 e) := by
  cases e with
  | ok t v => exact h
  | trap c t => exact Keeps.step trapFault_keeps (land_le hm rfl) h

/-- Writes at most: sent free cand pwr tri prg frc mem vm xch regs rings fio snu evr sta upd lnk. -/
theorem shape1_keeps {m : Nat} {b0 b1 b2 b3 s} (hf1 : ∀ c0 c1 c2 t, Keeps m t (b1 c0 c1 c2 t).2) (hm : m &&& 33915161 = m) : KeepsE m s (shape1 b0 b1 b2 b3 s) := by
  unfold shape1
  refine KeepsE.bind ?_ ?_
  · refine KeepsE.step opRead_keeps (land_le hm rfl) ?_
    exact Keeps.refl
  · intro s a0
    split
    · rename_i y1 y2 q3
      have h4 : Keeps m s y2 := by
        refine Keeps.snd ?_ q3
        refine Keeps.app (hf1 _ _ _ _) ?_
        exact Keeps.refl
      refine KeepsE.step opWrite_keeps (land_le hm rfl) ?_
      exact h4

/-- Writes at most: sent free cand pwr tri prg frc mem vm xch regs rings fio snu evr sta upd lnk. -/
theorem shape2_keeps {m : Nat} {b0 b1 b2 b3 s} (hf1 : ∀ c0 c1 c2 c3 t, Keeps m t (b1 c0 c1 c2 c3 t).2) (hm : m &&& 33915161 = m) : KeepsE m s (shape2 b0 b1 b2 b3 s) := by
  unfold shape2
  refine KeepsE.bind ?_ ?_
  · refine KeepsE.step opRead_keeps (land_le hm rfl) ?_
    exact Keeps.refl
  · intro s a0
    refine KeepsE.bind ?_ ?_
    · refine KeepsE.step opRead_keeps (land_le hm rfl) ?_
      exact Keeps.refl
    · intro s a1
      split
      · rename_i y2 y3 q4
        have h5 : Keeps m s y3 := by
          refine Keeps.snd ?_ q4
          refine Keeps.app (hf1 _ _ _ _ _) ?_
          exact Keeps.refl
        refine KeepsE.step opWrite_keeps (land_le hm rfl) ?_
        exact h5

/-- Writes at most: sent free cand pwr tri prg frc mem vm xch regs rings fio snu evr sta upd lnk. -/
theorem shapeCmp_keeps {b0 b1 b2 b3 s} : KeepsE 33915161 s (shapeCmp b0 b1 b2 b3 s) := by
  unfold shapeCmp
  refine KeepsE.bind ?_ ?_
  · refine KeepsE.step opRead_keeps rfl ?_
    exact Keeps.refl
  · intro s a0
    refine KeepsE.bind ?_ ?_
    · refine KeepsE.step opRead_keeps rfl ?_
      exact Keeps.refl
    · intro s a1
      refine KeepsE.step opWrite_keeps rfl ?_
      exact Keeps.refl

/-- Writes at most: prg. -/
theorem wrapped_keeps {b0 b1 b2 s} : Keeps 67108351 s (wrapped b0 b1 b2 s).2 := by
  unfold wrapped
  refine Keeps.mkSnd ?_
  refine Keeps.step setOvf_keeps rfl ?_
  exact Keeps.refl

/-- Writes at most: prg. -/
theorem aluAdd_keeps {b0 b1 b2 b3 s} : Keeps 67108351 s (aluAdd b0 b1 b2 b3 s).2 := by
  unfold aluAdd
  refine Keeps.ite2 ?_ ?_
  · refine Keeps.mkSnd ?_
    exact Keeps.refl
  · refine Keeps.ite2 ?_ ?_
    · refine Keeps.mkSnd ?_
      exact Keeps.refl
    · refine Keeps.step wrapped_keeps rfl ?_
      exact Keeps.refl

/-- Writes at most: prg. -/
theorem aluSub_keeps {b0 b1 b2 b3 s} : Keeps 67108351 s (aluSub b0 b1 b2 b3 s).2 := by
  unfold aluSub
  refine Keeps.ite2 ?_ ?_
  · refine Keeps.mkSnd ?_
    exact Keeps.refl
  · refine Keeps.ite2 ?_ ?_
    · refine Keeps.mkSnd ?_
      exact Keeps.refl
    · refine Keeps.ite2 ?_ ?_
      · refine Keeps.mkSnd ?_
        exact Keeps.refl
      · refine Keeps.step wrapped_keeps rfl ?_
        exact Keeps.refl

/-- Writes at most: prg. -/
theorem aluMul_keeps {b0 b1 b2 b3 s} : Keeps 67108351 s (aluMul b0 b1 b2 b3 s).2 := by
  unfold aluMul
  refine Keeps.ite2 ?_ ?_
  · refine Keeps.mkSnd ?_
    exact Keeps.refl
  · refine Keeps.ite2 ?_ ?_
    · refine Keeps.mkSnd ?_
      exact Keeps.refl
    · refine Keeps.step wrapped_keeps rfl ?_
      exact Keeps.refl

/-- Writes at most: prg. -/
theorem aluDiv_keeps {b0 b1 b2 b3 s} : Keeps 67108351 s (aluDiv b0 b1 b2 b3 s).2 := by
  unfold aluDiv
  refine Keeps.ite2 ?_ ?_
  · refine Keeps.mkSnd ?_
    exact Keeps.refl
  · refine Keeps.ite2 ?_ ?_
    · refine Keeps.mkSnd ?_
      exact Keeps.refl
    · refine Keeps.ite2 ?_ ?_
      · refine Keeps.mkSnd ?_
        refine Keeps.step setDivz_keeps rfl ?_
        exact Keeps.refl
      · extract_lets -merge -useContext +onlyGivenNames x0
        try clear_value x0
        refine Keeps.ite2 ?_ ?_
        · refine Keeps.mkSnd ?_
          exact Keeps.refl
        · refine Keeps.mkSnd ?_
          exact Keeps.refl

/-- Writes at most: prg. -/
theorem aluMod_keeps {b0 b1 b2 b3 s} : Keeps 67108351 s (aluMod b0 b1 b2 b3 s).2 := by
  unfold aluMod
  refine Keeps.ite2 ?_ ?_
  · refine Keeps.mkSnd ?_
    exact Keeps.refl
  · refine Keeps.ite2 ?_ ?_
    · refine Keeps.mkSnd ?_
      exact Keeps.refl
    · refine Keeps.ite2 ?_ ?_
      · refine Keeps.mkSnd ?_
        refine Keeps.step setDivz_keeps rfl ?_
        exact Keeps.refl
      · refine Keeps.mkSnd ?_
        exact Keeps.refl

/-- Writes at most: prg. -/
theorem aluNeg_keeps {b0 b1 b2 s} : Keeps 67108351 s (aluNeg b0 b1 b2 s).2 := by
  unfold aluNeg
  refine Keeps.ite2 ?_ ?_
  · refine Keeps.mkSnd ?_
    exact Keeps.refl
  · refine Keeps.ite2 ?_ ?_
    · refine Keeps.mkSnd ?_
      exact Keeps.refl
    · refine Keeps.step wrapped_keeps rfl ?_
      exact Keeps.refl

/-- Writes at most: prg. -/
theorem aluAbs_keeps {b0 b1 b2 s} : Keeps 67108351 s (aluAbs b0 b1 b2 s).2 := by
  unfold aluAbs
  refine Keeps.ite2 ?_ ?_
  · refine Keeps.mkSnd ?_
    exact Keeps.refl
  · refine Keeps.ite2 ?_ ?_
    · refine Keeps.mkSnd ?_
      exact Keeps.refl
    · refine Keeps.step wrapped_keeps rfl ?_
      exact Keeps.refl

/-- Writes at most: nothing. -/
theorem aluMin_keeps {b0 b1 b2 b3 s} : Keeps 67108863 s (aluMin b0 b1 b2 b3 s).2 := by
  unfold aluMin
  refine Keeps.mkSnd ?_
  exact Keeps.refl

/-- Writes at most: nothing. -/
theorem aluMax_keeps {b0 b1 b2 b3 s} : Keeps 67108863 s (aluMax b0 b1 b2 b3 s).2 := by
  unfold aluMax
  refine Keeps.mkSnd ?_
  exact Keeps.refl

/-- Writes at most: nothing. -/
theorem aluNot_keeps {b0 b1 b2 s} : Keeps 67108863 s (aluNot b0 b1 b2 s).2 := by
  unfold aluNot
  refine Keeps.mkSnd ?_
  exact Keeps.refl

/-- Writes at most: nothing. -/
theorem aluBit_keeps {b0 b1 b2 b3 b4 s} : Keeps 67108863 s (aluBit b0 b1 b2 b3 b4 s).2 := by
  unfold aluBit
  refine Keeps.mkSnd ?_
  exact Keeps.refl

/-- Writes at most: nothing. -/
theorem aluShift_keeps {b0 b1 b2 b3 b4 b5 s} : Keeps 67108863 s (aluShift b0 b1 b2 b3 b4 b5 s).2 := by
  unfold aluShift
  refine Keeps.ite2 ?_ ?_
  · refine Keeps.mkSnd ?_
    exact Keeps.refl
  · refine Keeps.mkSnd ?_
    exact Keeps.refl

/-- Writes at most: nothing. -/
theorem bitPut_keeps {b0 b1 b2 b3 b4 b5 s} : Keeps 67108863 s (bitPut b0 b1 b2 b3 b4 b5 s).2 := by
  unfold bitPut
  refine Keeps.ite2 ?_ ?_
  · refine Keeps.mkSnd ?_
    exact Keeps.refl
  · refine Keeps.mkSnd ?_
    exact Keeps.refl

/-- Writes at most: prg. -/
theorem jumpTo_keeps {b0 b1 s} : KeepsE 67108351 s (jumpTo b0 b1 s) := by
  unfold jumpTo
  extract_lets -merge -useContext +onlyGivenNames x0
  try clear_value x0
  split
  · refine KeepsE.ite ?_ ?_
    · refine KeepsE.ok ?_
      refine Keeps.step modCtx_keeps rfl ?_
      exact Keeps.refl
    · refine KeepsE.trap ?_
      exact Keeps.refl
  · refine KeepsE.trap ?_
    exact Keeps.refl

/-- Writes at most: sent free cand pwr tri prg frc mem vm xch regs rings fio snu evr sta upd lnk. -/
theorem callBlock_keeps {b0 b1 s} : KeepsE 33915161 s (callBlock b0 b1 s) := by
  unfold callBlock
  refine KeepsE.ite ?_ ?_
  · refine KeepsE.bind ?_ ?_
    · refine KeepsE.step opRead_keeps rfl ?_
      exact Keeps.refl
    · intro s a0
      refine KeepsE.ite ?_ ?_
      · refine KeepsE.trap ?_
        exact Keeps.refl
      · refine KeepsE.ite ?_ ?_
        · refine KeepsE.trap ?_
          exact Keeps.refl
        · extract_lets -merge -useContext +onlyGivenNames x1
          try clear_value x1
          refine KeepsE.ok ?_
          refine Keeps.step modCtx_keeps rfl ?_
          exact Keeps.refl
  · refine KeepsE.trap ?_
    exact Keeps.refl

/-- Writes at most: sent mem vm xch regs lnk. -/
theorem clearFirst_keeps {b0 s} : Keeps 50300925 s (clearFirst b0 s) := by
  induction b0 generalizing s with
  | nil =>
    rw [clearFirst.eq_1]
    exact Keeps.refl
  | cons z zs ih =>
    rw [clearFirst.eq_2]
    refine Keeps.app ih ?_
    refine Keeps.ite ?_ ?_
    · refine Keeps.step laneStore_keeps rfl ?_
      exact Keeps.refl
    · exact Keeps.refl

/-- Writes at most: sent mem vm xch regs lnk. -/
theorem applyOuts_keeps {b0 s} : Keeps 50300925 s (applyOuts b0 s) := by
  induction b0 generalizing s with
  | nil =>
    rw [applyOuts.eq_1]
    exact Keeps.refl
  | cons z zs ih =>
    rw [applyOuts.eq_2]
    refine Keeps.app ih ?_
    refine Keeps.step laneStore_keeps rfl ?_
    exact Keeps.refl

/-- Writes at most: regs evr sta. -/
theorem execDone_keeps {b0 s} : Keeps 60801023 s (execDone b0 s) := by
  unfold execDone
  extract_lets -merge -useContext +onlyGivenNames x0
  try clear_value x0
  extract_lets -merge -useContext +onlyGivenNames x1
  try clear_value x1
  extract_lets -merge -useContext +onlyGivenNames x2
  have h3 : Keeps 60801023 s x2 := by
    unfold x2
    refine Keeps.step setRv_keeps rfl ?_
    exact Keeps.refl
  try clear_value x2
  extract_lets -merge -useContext +onlyGivenNames x4
  try clear_value x4
  extract_lets -merge -useContext +onlyGivenNames x5
  have h6 : Keeps 60801023 s x5 := by
    unfold x5
    refine Keeps.step statMax_keeps rfl ?_
    refine Keeps.step stat_keeps rfl ?_
    exact h3
  try clear_value x5
  refine Keeps.ite ?_ ?_
  · refine Keeps.step emit_keeps rfl ?_
    refine Keeps.step cnt_keeps rfl ?_
    exact h6
  · exact h6

/-- Writes at most: prg. -/
theorem releaseHeld_keeps {b0 b1 s} : Keeps 67108351 s (releaseHeld b0 b1 s) := by
  unfold releaseHeld
  extract_lets -merge -useContext +onlyGivenNames x0
  try clear_value x0
  split
  · refine Keeps.step release_keeps rfl ?_
    refine Keeps.step setTask_keeps rfl ?_
    exact Keeps.refl
  · exact Keeps.refl

/-- Writes at most: sent prg mem vm xch regs rings evr sta lnk. -/
theorem endRelease_keeps {b0 s} : Keeps 43877885 s (endRelease b0 s) := by
  unfold endRelease
  extract_lets -merge -useContext +onlyGivenNames x0
  have h1 : Keeps 43877885 s x0 := by
    unfold x0
    refine Keeps.ite ?_ ?_
    · exact Keeps.refl
    · refine Keeps.step applyOuts_keeps rfl ?_
      exact Keeps.refl
  try clear_value x0
  extract_lets -merge -useContext +onlyGivenNames x2
  try clear_value x2
  extract_lets -merge -useContext +onlyGivenNames x3
  have h4 : Keeps 43877885 s x3 := by
    unfold x3
    refine Keeps.step clearFirst_keeps rfl ?_
    exact h1
  try clear_value x3
  extract_lets -merge -useContext +onlyGivenNames x5
  have h6 : Keeps 43877885 s x5 := by
    unfold x5
    refine Keeps.step execDone_keeps rfl ?_
    refine Keeps.step endPosts_keeps rfl ?_
    exact h4
  try clear_value x5
  extract_lets -merge -useContext +onlyGivenNames x7
  try clear_value x7
  extract_lets -merge -useContext +onlyGivenNames x8
  have h9 : Keeps 43877885 s x8 := by
    unfold x8
    refine Keeps.app (wr_prg rfl) ?_
    exact h6
  try clear_value x8
  refine Keeps.ite ?_ ?_
  · refine Keeps.ite ?_ ?_
    · refine Keeps.step releaseFree_keeps rfl ?_
      exact h9
    · exact h9
  · refine Keeps.step releaseHeld_keeps rfl ?_
    exact h9

/-- Writes at most: sent prg mem vm xch regs rings evr sta lnk. -/
theorem doReturn_keeps {b0 s} : KeepsE 43877885 s (doReturn b0 s) := by
  unfold doReturn
  split
  · refine KeepsE.ok ?_
    refine Keeps.step modCtx_keeps rfl ?_
    exact Keeps.refl
  · split
    · refine KeepsE.ok ?_
      refine Keeps.step modCtx_keeps rfl ?_
      exact Keeps.refl
    · refine KeepsE.ok ?_
      refine Keeps.step endRelease_keeps rfl ?_
      exact Keeps.refl

/-- Writes at most: sent free cand pwr tri prg frc mem vm xch regs rings fio snu evr sta upd lnk. -/
theorem readSlots_keeps {b0 b1 b2 b3 b4 s} : KeepsX 33915161 s (readSlots b0 b1 b2 b3 b4 s) := by
  induction b3 generalizing b0 b1 b2 b4 s with
  | zero =>
    rw [readSlots.eq_1]
    refine KeepsX.ok ?_
    refine Keeps.mkSnd ?_
    exact Keeps.refl
  | succ z ih =>
    rw [readSlots.eq_2]
    split
    · rename_i y0 y1 q2
      have h3 : Keeps 33915161 s y0 := by
        refine KeepsE.ofOk ?_ q2
        refine KeepsE.step slotRead_keeps rfl ?_
        exact Keeps.refl
      refine KeepsX.app ih ?_
      exact h3
    · rename_i y4 y5 q6
      have h7 : Keeps 33915161 s y5 := by
        refine KeepsE.ofTrap ?_ q6
        refine KeepsE.step slotRead_keeps rfl ?_
        exact Keeps.refl
      refine KeepsX.error ?_
      refine Keeps.mkSnd ?_
      exact h7

/-- Writes at most: sent tri prg mem vm xch regs evr lnk. -/
theorem writeSlots_keeps {b0 b1 b2 b3 s} : KeepsE 48203133 s (writeSlots b0 b1 b2 b3 s) := by
  induction b3 generalizing b0 b1 b2 s with
  | nil =>
    rw [writeSlots.eq_1]
    refine KeepsE.ok ?_
    exact Keeps.refl
  | cons z zs ih =>
    rw [writeSlots.eq_2]
    refine KeepsE.bind ?_ ?_
    · refine KeepsE.step slotWrite_keeps rfl ?_
      exact Keeps.refl
    · intro s a0
      refine KeepsE.app ih ?_
      exact Keeps.refl

/-- Writes at most: sent cand pwr tri prg frc vm xch regs rings lat fio snu evr upd lnk. -/
theorem postTo_keeps {b0 b1 b2 s} : Keeps 37849373 s (postTo b0 b1 b2 s) := by
  unfold postTo
  refine Keeps.ite ?_ ?_
  · exact Keeps.refl
  · refine Keeps.ite ?_ ?_
    · refine Keeps.step postRequest_keeps rfl ?_
      exact Keeps.refl
    · refine Keeps.ite ?_ ?_
      · refine Keeps.ite ?_ ?_
        · refine Keeps.step vitalFault_keeps rfl ?_
          exact Keeps.refl
        · refine Keeps.step fireRing_keeps rfl ?_
          refine Keeps.step admitUpdates_keeps rfl ?_
          refine Keeps.step ringPush_keeps rfl ?_
          exact Keeps.refl
      · refine Keeps.ite ?_ ?_
        · refine Keeps.ite ?_ ?_
          · refine Keeps.step lostNotice_keeps rfl ?_
            refine Keeps.step recordLoss_keeps rfl ?_
            extract_lets -merge -useContext +onlyGivenNames x0
            have h1 : Keeps 37849373 s x0 := by
              unfold x0
              refine Keeps.step ringOverflow_keeps rfl ?_
              exact Keeps.refl
            try clear_value x0
            refine Keeps.app (wr_evr rfl) ?_
            exact h1
          · refine Keeps.step fireRing_keeps rfl ?_
            refine Keeps.step post55_keeps rfl ?_
            exact Keeps.refl
        · refine Keeps.ite ?_ ?_
          · refine Keeps.step postTx_keeps rfl ?_
            exact Keeps.refl
          · refine Keeps.step postRecord_keeps rfl ?_
            exact Keeps.refl

/-- Writes at most: sent free cand pwr tri prg frc mem vm xch regs rings lat fio snu evr sta upd lnk. -/
theorem doPost_keeps {b0 b1 b2 s} : KeepsE 33653017 s (doPost b0 b1 b2 s) := by
  unfold doPost
  refine KeepsE.bind ?_ ?_
  · refine KeepsE.step opRead_keeps rfl ?_
    exact Keeps.refl
  · intro s a0
    refine KeepsE.ite ?_ ?_
    · refine KeepsE.trap ?_
      exact Keeps.refl
    · refine KeepsE.ite ?_ ?_
      · split
        · rename_i y1 y2 q3
          have h4 : Keeps 33653017 s y2 := by
            refine KeepsX.ofOk ?_ q3
            refine KeepsX.step readSlots_keeps rfl ?_
            exact Keeps.refl
          refine KeepsE.ite ?_ ?_
          · refine KeepsE.ok ?_
            exact h4
          · refine KeepsE.ite ?_ ?_
            · refine KeepsE.ok ?_
              refine Keeps.step postTo_keeps rfl ?_
              refine Keeps.step seqVoted_keeps rfl ?_
              exact h4
            · refine KeepsE.ok ?_
              refine Keeps.step writeVerify_keeps rfl ?_
              refine Keeps.step seqVoted_keeps rfl ?_
              exact h4
        · rename_i y5 y6 q7
          have h8 : Keeps 33653017 s y6 := by
            refine KeepsX.ofError ?_ q7
            refine KeepsX.step readSlots_keeps rfl ?_
            exact Keeps.refl
          refine KeepsE.trap ?_
          exact h8
      · refine KeepsE.trap ?_
        exact Keeps.refl

/-- Writes at most: sent free cand pwr tri prg frc mem vm xch regs rings fio snu evr sta upd lnk. -/
theorem doFetch_keeps {b0 b1 b2 s} : KeepsE 33915161 s (doFetch b0 b1 b2 s) := by
  unfold doFetch
  refine KeepsE.bind ?_ ?_
  · refine KeepsE.step opRead_keeps rfl ?_
    exact Keeps.refl
  · intro s a0
    refine KeepsE.ite ?_ ?_
    · extract_lets -merge -useContext +onlyGivenNames x1
      have h2 : Keeps 33915161 s x1 := by
        unfold x1
        refine Keeps.step ringFinding_keeps rfl ?_
        refine Keeps.step seqVoted_keeps rfl ?_
        exact Keeps.refl
      try clear_value x1
      refine KeepsE.ite ?_ ?_
      · refine KeepsE.ok ?_
        exact h2
      · split
        · rename_i y3 y4 q5
          have h6 : Keeps 33915161 s y4 := by
            refine KeepsS.elim ?_ q5
            refine KeepsS.ite ?_ ?_
            · refine KeepsS.step ringTake_keeps rfl ?_
              exact h2
            · exact trivial
          refine KeepsE.bind ?_ ?_
          · refine KeepsE.step writeSlots_keeps rfl ?_
            exact h6
          · intro s a7
            refine KeepsE.step opWrite_keeps rfl ?_
            exact Keeps.refl
        · refine KeepsE.step opWrite_keeps rfl ?_
          exact h2
    · refine KeepsE.trap ?_
      exact Keeps.refl

/-- Writes at most: sent free cand pwr tri prg frc mem vm xch regs rings fio snu evr sta upd lnk. -/
theorem doTimer_keeps {b0 b1 s} : KeepsE 33915161 s (doTimer b0 b1 s) := by
  unfold doTimer
  refine KeepsE.ite ?_ ?_
  · refine KeepsE.trap ?_
    exact Keeps.refl
  · refine KeepsE.bind ?_ ?_
    · refine KeepsE.step opRead_keeps rfl ?_
      exact Keeps.refl
    · intro s a0
      refine KeepsE.bind ?_ ?_
      · refine KeepsE.step opRead_keeps rfl ?_
        exact Keeps.refl
      · intro s a1
        refine KeepsE.bind ?_ ?_
        · refine KeepsE.step slotRead_keeps rfl ?_
          exact Keeps.refl
        · intro s a2
          refine KeepsE.bind ?_ ?_
          · refine KeepsE.step slotRead_keeps rfl ?_
            exact Keeps.refl
          · intro s a3
            refine KeepsE.bind ?_ ?_
            · refine KeepsE.step slotRead_keeps rfl ?_
              exact Keeps.refl
            · intro s a4
              extract_lets -merge -useContext +onlyGivenNames x5
              try clear_value x5
              extract_lets -merge -useContext +onlyGivenNames x6
              try clear_value x6
              refine KeepsE.step writeSlots_keeps rfl ?_
              exact Keeps.refl

/-- Writes at most: sent free cand pwr tri prg frc mem vm xch regs rings fio snu evr sta upd lnk. -/
theorem doEdge_keeps {b0 b1 s} : KeepsE 33915161 s (doEdge b0 b1 s) := by
  unfold doEdge
  refine KeepsE.ite ?_ ?_
  · refine KeepsE.trap ?_
    exact Keeps.refl
  · refine KeepsE.bind ?_ ?_
    · refine KeepsE.step opRead_keeps rfl ?_
      exact Keeps.refl
    · intro s a0
      refine KeepsE.bind ?_ ?_
      · refine KeepsE.step slotRead_keeps rfl ?_
        exact Keeps.refl
      · intro s a1
        extract_lets -merge -useContext +onlyGivenNames x2
        try clear_value x2
        extract_lets -merge -useContext +onlyGivenNames x3
        try clear_value x3
        refine KeepsE.step slotWrite_keeps rfl ?_
        exact Keeps.refl

/-- Writes at most: sent free cand pwr tri prg frc mem vm xch regs rings fio snu evr sta upd lnk. -/
theorem doFilter_keeps {b0 b1 s} : KeepsE 33915161 s (doFilter b0 b1 s) := by
  unfold doFilter
  refine KeepsE.ite ?_ ?_
  · refine KeepsE.trap ?_
    exact Keeps.refl
  · refine KeepsE.bind ?_ ?_
    · refine KeepsE.step opRead_keeps rfl ?_
      exact Keeps.refl
    · intro s a0
      refine KeepsE.bind ?_ ?_
      · refine KeepsE.step opRead_keeps rfl ?_
        exact Keeps.refl
      · intro s a1
        refine KeepsE.bind ?_ ?_
        · refine KeepsE.step slotRead_keeps rfl ?_
          exact Keeps.refl
        · intro s a2
          refine KeepsE.bind ?_ ?_
          · refine KeepsE.step slotRead_keeps rfl ?_
            exact Keeps.refl
          · intro s a3
            refine KeepsE.bind ?_ ?_
            · refine KeepsE.step slotRead_keeps rfl ?_
              exact Keeps.refl
            · intro s a4
              extract_lets -merge -useContext +onlyGivenNames x5
              extract_lets -merge -useContext +onlyGivenNames x6
              extract_lets -merge -useContext +onlyGivenNames x7
              extract_lets -merge -useContext +onlyGivenNames x8
              extract_lets -merge -useContext +onlyGivenNames x9
              refine KeepsE.step writeSlots_keeps rfl ?_
              exact Keeps.refl

/-- Writes at most: sent free cand pwr tri prg frc mem vm xch regs rings fio snu evr sta upd lnk. -/
theorem doToken_keeps {b0 b1 b2 s} : KeepsE 33915161 s (doToken b0 b1 b2 s) := by
  unfold doToken
  refine KeepsE.bind ?_ ?_
  · refine KeepsE.step opRead_keeps rfl ?_
    exact Keeps.refl
  · intro s a0
    split
    · rename_i y1 y2 q3
      have h4 : Keeps 33915161 s y2 := by
        refine KeepsX.ofOk ?_ q3
        refine KeepsX.step readSlots_keeps rfl ?_
        exact Keeps.refl
      refine KeepsE.ite ?_ ?_
      · refine KeepsE.ok ?_
        exact h4
      · extract_lets -merge -useContext +onlyGivenNames x5
        try clear_value x5
        extract_lets -merge -useContext +onlyGivenNames x6
        try clear_value x6
        extract_lets -merge -useContext +onlyGivenNames x7
        try clear_value x7
        extract_lets -merge -useContext +onlyGivenNames x8
        try clear_value x8
        extract_lets -merge -useContext +onlyGivenNames x9
        have h10 : Keeps 33915161 s x9 := by
          unfold x9
          refine Keeps.ite ?_ ?_
          · refine Keeps.app (wr_prg rfl) ?_
            exact h4
          · exact h4
        try clear_value x9
        refine KeepsE.step opWrite_keeps rfl ?_
        refine Keeps.step emit_keeps rfl ?_
        exact h10
    · rename_i y11 y12 q13
      have h14 : Keeps 33915161 s y12 := by
        refine KeepsX.ofError ?_ q13
        refine KeepsX.step readSlots_keeps rfl ?_
        exact Keeps.refl
      refine KeepsE.trap ?_
      exact h14

/-- Writes at most: sent free cand pwr tri prg frc mem vm xch regs rings lat fio snu evr sta upd lnk. -/
theorem vOp_keeps {b0 b1 b2 b3 b4 s} : KeepsE 33653017 s (vOp b0 b1 b2 b3 b4 s) := by
  unfold vOp
  split
  · refine KeepsE.ok ?_
    exact Keeps.refl
  · refine KeepsE.app (shape1_keeps ?_ rfl) ?_
    · intro a2 a3 a4 s
      refine Keeps.mkSnd ?_
      exact Keeps.refl
    · exact Keeps.refl
  · refine KeepsE.ite ?_ ?_
    · refine KeepsE.trap ?_
      exact Keeps.refl
    · refine KeepsE.step opWrite_keeps rfl ?_
      exact Keeps.refl
  · refine KeepsE.bind ?_ ?_
    · refine KeepsE.step opRead_keeps rfl ?_
      exact Keeps.refl
    · intro s a7
      refine KeepsE.bind ?_ ?_
      · refine KeepsE.step opRead_keeps rfl ?_
        exact Keeps.refl
      · intro s a8
        refine KeepsE.step opWrite_keeps rfl ?_
        exact Keeps.refl
  · refine KeepsE.bind ?_ ?_
    · refine KeepsE.step opRead_keeps rfl ?_
      exact Keeps.refl
    · intro s a10
      refine KeepsE.bind ?_ ?_
      · refine KeepsE.step opRead_keeps rfl ?_
        exact Keeps.refl
      · intro s a11
        refine KeepsE.step opWrite_keeps rfl ?_
        exact Keeps.refl
  · refine KeepsE.bind ?_ ?_
    · refine KeepsE.step opRead_keeps rfl ?_
      exact Keeps.refl
    · intro s a13
      refine KeepsE.step opWrite_keeps rfl ?_
      exact Keeps.refl
  · refine KeepsE.app (shape2_keeps ?_ rfl) ?_
    · intro a15 a16 a17 a18 s
      refine Keeps.step aluAdd_keeps rfl ?_
      exact Keeps.refl
    · exact Keeps.refl
  · refine KeepsE.app (shape2_keeps ?_ rfl) ?_
    · intro a20 a21 a22 a23 s
      refine Keeps.step aluSub_keeps rfl ?_
      exact Keeps.refl
    · exact Keeps.refl
  · refine KeepsE.app (shape2_keeps ?_ rfl) ?_
    · intro a25 a26 a27 a28 s
      refine Keeps.step aluMul_keeps rfl ?_
      exact Keeps.refl
    · exact Keeps.refl
  · refine KeepsE.app (shape2_keeps ?_ rfl) ?_
    · intro a30 a31 a32 a33 s
      refine Keeps.step aluDiv_keeps rfl ?_
      exact Keeps.refl
    · exact Keeps.refl
  · refine KeepsE.app (shape2_keeps ?_ rfl) ?_
    · intro a35 a36 a37 a38 s
      refine Keeps.step aluMod_keeps rfl ?_
      exact Keeps.refl
    · exact Keeps.refl
  · refine KeepsE.app (shape1_keeps ?_ rfl) ?_
    · intro a40 a41 a42 s
      refine Keeps.step aluNeg_keeps rfl ?_
      exact Keeps.refl
    · exact Keeps.refl
  · refine KeepsE.app (shape1_keeps ?_ rfl) ?_
    · intro a44 a45 a46 s
      refine Keeps.step aluAbs_keeps rfl ?_
      exact Keeps.refl
    · exact Keeps.refl
  · refine KeepsE.app (shape2_keeps ?_ rfl) ?_
    · intro a48 a49 a50 a51 s
      refine Keeps.step aluMin_keeps rfl ?_
      exact Keeps.refl
    · exact Keeps.refl
  · refine KeepsE.app (shape2_keeps ?_ rfl) ?_
    · intro a53 a54 a55 a56 s
      refine Keeps.step aluMax_keeps rfl ?_
      exact Keeps.refl
    · exact Keeps.refl
  · refine KeepsE.bind ?_ ?_
    · refine KeepsE.step opRead_keeps rfl ?_
      exact Keeps.refl
    · intro s a58
      refine KeepsE.bind ?_ ?_
      · refine KeepsE.step opRead_keeps rfl ?_
        exact Keeps.refl
      · intro s a59
        refine KeepsE.bind ?_ ?_
        · refine KeepsE.step opRead_keeps rfl ?_
          exact Keeps.refl
        · intro s a60
          refine KeepsE.step opWrite_keeps rfl ?_
          exact Keeps.refl
  · refine KeepsE.app (shape2_keeps ?_ rfl) ?_
    · intro a62 a63 a64 a65 s
      refine Keeps.step aluBit_keeps rfl ?_
      exact Keeps.refl
    · exact Keeps.refl
  · refine KeepsE.app (shape2_keeps ?_ rfl) ?_
    · intro a67 a68 a69 a70 s
      refine Keeps.step aluBit_keeps rfl ?_
      exact Keeps.refl
    · exact Keeps.refl
  · refine KeepsE.app (shape2_keeps ?_ rfl) ?_
    · intro a72 a73 a74 a75 s
      refine Keeps.step aluBit_keeps rfl ?_
      exact Keeps.refl
    · exact Keeps.refl
  · refine KeepsE.app (shape1_keeps ?_ rfl) ?_
    · intro a77 a78 a79 s
      refine Keeps.step aluNot_keeps rfl ?_
      exact Keeps.refl
    · exact Keeps.refl
  · refine KeepsE.app (shape2_keeps ?_ rfl) ?_
    · intro a81 a82 a83 a84 s
      refine Keeps.step aluShift_keeps rfl ?_
      exact Keeps.refl
    · exact Keeps.refl
  · refine KeepsE.app (shape2_keeps ?_ rfl) ?_
    · intro a86 a87 a88 a89 s
      refine Keeps.step aluShift_keeps rfl ?_
      exact Keeps.refl
    · exact Keeps.refl
  · refine KeepsE.app (shape2_keeps ?_ rfl) ?_
    · intro a91 a92 a93 a94 s
      refine Keeps.step aluShift_keeps rfl ?_
      exact Keeps.refl
    · exact Keeps.refl
  · refine KeepsE.app (shape2_keeps ?_ rfl) ?_
    · intro a96 a97 a98 a99 s
      refine Keeps.step aluShift_keeps rfl ?_
      exact Keeps.refl
    · exact Keeps.refl
  · refine KeepsE.step shapeCmp_keeps rfl ?_
    exact Keeps.refl
  · refine KeepsE.step shapeCmp_keeps rfl ?_
    exact Keeps.refl
  · refine KeepsE.step shapeCmp_keeps rfl ?_
    exact Keeps.refl
  · refine KeepsE.step shapeCmp_keeps rfl ?_
    exact Keeps.refl
  · refine KeepsE.step shapeCmp_keeps rfl ?_
    exact Keeps.refl
  · refine KeepsE.step shapeCmp_keeps rfl ?_
    exact Keeps.refl
  · refine KeepsE.step shapeCmp_keeps rfl ?_
    exact Keeps.refl
  · refine KeepsE.app (shape2_keeps ?_ rfl) ?_
    · intro a108 a109 a110 a111 s
      refine Keeps.step bitPut_keeps rfl ?_
      exact Keeps.refl
    · exact Keeps.refl
  · refine KeepsE.app (shape2_keeps ?_ rfl) ?_
    · intro a113 a114 a115 a116 s
      refine Keeps.step bitPut_keeps rfl ?_
      exact Keeps.refl
    · exact Keeps.refl
  · refine KeepsE.step jumpTo_keeps rfl ?_
    exact Keeps.refl
  · refine KeepsE.bind ?_ ?_
    · refine KeepsE.step opRead_keeps rfl ?_
      exact Keeps.refl
    · intro s a119
      refine KeepsE.ite ?_ ?_
      · refine KeepsE.step jumpTo_keeps rfl ?_
        exact Keeps.refl
      · refine KeepsE.ok ?_
        exact Keeps.refl
  · refine KeepsE.bind ?_ ?_
    · refine KeepsE.step opRead_keeps rfl ?_
      exact Keeps.refl
    · intro s a121
      refine KeepsE.ite ?_ ?_
      · refine KeepsE.step jumpTo_keeps rfl ?_
        exact Keeps.refl
      · refine KeepsE.ok ?_
        exact Keeps.refl
  · refine KeepsE.step callBlock_keeps rfl ?_
    exact Keeps.refl
  · refine KeepsE.step doReturn_keeps rfl ?_
    exact Keeps.refl
  · refine KeepsE.step opWrite_keeps rfl ?_
    exact Keeps.refl
  · refine KeepsE.step doPost_keeps rfl ?_
    exact Keeps.refl
  · refine KeepsE.step doFetch_keeps rfl ?_
    exact Keeps.refl
  · refine KeepsE.step doTimer_keeps rfl ?_
    exact Keeps.refl
  · refine KeepsE.step doEdge_keeps rfl ?_
    exact Keeps.refl
  · refine KeepsE.step doFilter_keeps rfl ?_
    exact Keeps.refl
  · refine KeepsE.step doToken_keeps rfl ?_
    exact Keeps.refl
  · refine KeepsE.bind ?_ ?_
    · refine KeepsE.step opRead_keeps rfl ?_
      exact Keeps.refl
    · intro s a132
      refine KeepsE.ok ?_
      refine Keeps.step vitalFault_keeps rfl ?_
      refine Keeps.step trapRecord_keeps rfl ?_
      refine Keeps.step seqVoted_keeps rfl ?_
      exact Keeps.refl
  · refine KeepsE.trap ?_
    exact Keeps.refl

/-- Writes at most: sent clk civ cand pwr tri prg frc vm xch regs bus rings fio snu evr upd lnk. -/
theorem vExecBy_keeps {m : Nat} {b0 b1 b2 b3 s} (hf3 : ∀ c0 c1 t, KeepsE m t (b3 c0 c1 t)) (hm : m &&& 38078725 = m) : Keeps m s (vExecBy b0 b1 b2 b3 s) := by
  unfold vExecBy
  extract_lets -merge -useContext +onlyGivenNames x0
  have h1 : Keeps m s x0 := by
    unfold x0
    refine Keeps.step begin'_keeps (land_le hm rfl) ?_
    exact Keeps.refl
  try clear_value x0
  extract_lets -merge -useContext +onlyGivenNames x2
  try clear_value x2
  refine Keeps.ite ?_ ?_
  · refine vEnd_keeps ?_ (land_le hm rfl)
    refine KeepsE.ite ?_ ?_
    · refine KeepsE.app (hf3 _ _ _) ?_
      refine Keeps.step advance_keeps (land_le hm rfl) ?_
      exact h1
    · refine KeepsE.trap ?_
      exact h1
  · exact h1

/-- Writes at most: sent free clk civ cand pwr tri prg frc mem vm xch regs bus rings lat fio snu evr sta upd lnk. -/
theorem vExec_keeps {b0 b1 b2 b3 s} : Keeps 33620225 s (vExec b0 b1 b2 b3 s) := by
  unfold vExec
  refine Keeps.app (vExecBy_keeps ?_ rfl) ?_
  · intro a0 a1 s
    refine KeepsE.step vOp_keeps rfl ?_
    exact Keeps.refl
  · exact Keeps.refl

/-- Writes at most: sent free clk civ cand pwr tri prg frc mem vm xch regs bus rings lat fio snu evr sta upd lnk. -/
theorem execVNop_keeps {b0 b1 s} : Answers 33620225 s (execVNop b0 b1 s) := by
  unfold execVNop
  refine Answers.next ?_
  refine Keeps.step vExec_keeps rfl ?_
  exact Keeps.refl

/-- Writes at most: sent free clk civ cand pwr tri prg frc mem vm xch regs bus rings lat fio snu evr sta upd lnk. -/
theorem execVMov_keeps {b0 b1 s} : Answers 33620225 s (execVMov b0 b1 s) := by
  unfold execVMov
  refine Answers.next ?_
  refine Keeps.step vExec_keeps rfl ?_
  exact Keeps.refl

/-- Writes at most: sent free clk civ cand pwr tri prg frc mem vm xch regs bus rings lat fio snu evr sta upd lnk. -/
theorem execVLdi_keeps {b0 b1 s} : Answers 33620225 s (execVLdi b0 b1 s) := by
  unfold execVLdi
  refine Answers.next ?_
  refine Keeps.step vExec_keeps rfl ?_
  exact Keeps.refl

/-- Writes at most: sent free clk civ cand pwr tri prg frc mem vm xch regs bus rings lat fio snu evr sta upd lnk. -/
theorem execVLdx_keeps {b0 b1 s} : Answers 33620225 s (execVLdx b0 b1 s) := by
  unfold execVLdx
  refine Answers.next ?_
  refine Keeps.step vExec_keeps rfl ?_
  exact Keeps.refl

/-- Writes at most: sent free clk civ cand pwr tri prg frc mem vm xch regs bus rings lat fio snu evr sta upd lnk. -/
theorem execVStx_keeps {b0 b1 s} : Answers 33620225 s (execVStx b0 b1 s) := by
  unfold execVStx
  refine Answers.next ?_
  refine Keeps.step vExec_keeps rfl ?_
  exact Keeps.refl

/-- Writes at most: sent free clk civ cand pwr tri prg frc mem vm xch regs bus rings lat fio snu evr sta upd lnk. -/
theorem execVCast_keeps {b0 b1 s} : Answers 33620225 s (execVCast b0 b1 s) := by
  unfold execVCast
  refine Answers.next ?_
  refine Keeps.step vExec_keeps rfl ?_
  exact Keeps.refl

/-- Writes at most: sent free clk civ cand pwr tri prg frc mem vm xch regs bus rings lat fio snu evr sta upd lnk. -/
theorem execVAdd_keeps {b0 b1 s} : Answers 33620225 s (execVAdd b0 b1 s) := by
  unfold execVAdd
  refine Answers.next ?_
  refine Keeps.step vExec_keeps rfl ?_
  exact Keeps.refl

/-- Writes at most: sent free clk civ cand pwr tri prg frc mem vm xch regs bus rings lat fio snu evr sta upd lnk. -/
theorem execVSub_keeps {b0 b1 s} : Answers 33620225 s (execVSub b0 b1 s) := by
  unfold execVSub
  refine Answers.next ?_
  refine Keeps.step vExec_keeps rfl ?_
  exact Keeps.refl

/-- Writes at most: sent free clk civ cand pwr tri prg frc mem vm xch regs bus rings lat fio snu evr sta upd lnk. -/
theorem execVMul_keeps {b0 b1 s} : Answers 33620225 s (execVMul b0 b1 s) := by
  unfold execVMul
  refine Answers.next ?_
  refine Keeps.step vExec_keeps rfl ?_
  exact Keeps.refl

/-- Writes at most: sent free clk civ cand pwr tri prg frc mem vm xch regs bus rings lat fio snu evr sta upd lnk. -/
theorem execVDiv_keeps {b0 b1 s} : Answers 33620225 s (execVDiv b0 b1 s) := by
  unfold execVDiv
  refine Answers.next ?_
  refine Keeps.step vExec_keeps rfl ?_
  exact Keeps.refl

/-- Writes at most: sent free clk civ cand pwr tri prg frc mem vm xch regs bus rings lat fio snu evr sta upd lnk. -/
theorem execVMod_keeps {b0 b1 s} : Answers 33620225 s (execVMod b0 b1 s) := by
  unfold execVMod
  refine Answers.next ?_
  refine Keeps.step vExec_keeps rfl ?_
  exact Keeps.refl

/-- Writes at most: sent free clk civ cand pwr tri prg frc mem vm xch regs bus rings lat fio snu evr sta upd lnk. -/
theorem execVNeg_keeps {b0 b1 s} : Answers 33620225 s (execVNeg b0 b1 s) := by
  unfold execVNeg
  refine Answers.next ?_
  refine Keeps.step vExec_keeps rfl ?_
  exact Keeps.refl

/-- Writes at most: sent free clk civ cand pwr tri prg frc mem vm xch regs bus rings lat fio snu evr sta upd lnk. -/
theorem execVAbs_keeps {b0 b1 s} : Answers 33620225 s (execVAbs b0 b1 s) := by
  unfold execVAbs
  refine Answers.next ?_
  refine Keeps.step vExec_keeps rfl ?_
  exact Keeps.refl

/-- Writes at most: sent free clk civ cand pwr tri prg frc mem vm xch regs bus rings lat fio snu evr sta upd lnk. -/
theorem execVMin_keeps {b0 b1 s} : Answers 33620225 s (execVMin b0 b1 s) := by
  unfold execVMin
  refine Answers.next ?_
  refine Keeps.step vExec_keeps rfl ?_
  exact Keeps.refl

/-- Writes at most: sent free clk civ cand pwr tri prg frc mem vm xch regs bus rings lat fio snu evr sta upd lnk. -/
theorem execVMax_keeps {b0 b1 s} : Answers 33620225 s (execVMax b0 b1 s) := by
  unfold execVMax
  refine Answers.next ?_
  refine Keeps.step vExec_keeps rfl ?_
  exact Keeps.refl

/-- Writes at most: sent free clk civ cand pwr tri prg frc mem vm xch regs bus rings lat fio snu evr sta upd lnk. -/
theorem execVLim_keeps {b0 b1 s} : Answers 33620225 s (execVLim b0 b1 s) := by
  unfold execVLim
  refine Answers.next ?_
  refine Keeps.step vExec_keeps rfl ?_
  exact Keeps.refl

/-- Writes at most: sent free clk civ cand pwr tri prg frc mem vm xch regs bus rings lat fio snu evr sta upd lnk. -/
theorem execVAnd_keeps {b0 b1 s} : Answers 33620225 s (execVAnd b0 b1 s) := by
  unfold execVAnd
  refine Answers.next ?_
  refine Keeps.step vExec_keeps rfl ?_
  exact Keeps.refl

/-- Writes at most: sent free clk civ cand pwr tri prg frc mem vm xch regs bus rings lat fio snu evr sta upd lnk. -/
theorem execVOr_keeps {b0 b1 s} : Answers 33620225 s (execVOr b0 b1 s) := by
  unfold execVOr
  refine Answers.next ?_
  refine Keeps.step vExec_keeps rfl ?_
  exact Keeps.refl

/-- Writes at most: sent free clk civ cand pwr tri prg frc mem vm xch regs bus rings lat fio snu evr sta upd lnk. -/
theorem execVXor_keeps {b0 b1 s} : Answers 33620225 s (execVXor b0 b1 s) := by
  unfold execVXor
  refine Answers.next ?_
  refine Keeps.step vExec_keeps rfl ?_
  exact Keeps.refl

/-- Writes at most: sent free clk civ cand pwr tri prg frc mem vm xch regs bus rings lat fio snu evr sta upd lnk. -/
theorem execVNot_keeps {b0 b1 s} : Answers 33620225 s (execVNot b0 b1 s) := by
  unfold execVNot
  refine Answers.next ?_
  refine Keeps.step vExec_keeps rfl ?_
  exact Keeps.refl

/-- Writes at most: sent free clk civ cand pwr tri prg frc mem vm xch regs bus rings lat fio snu evr sta upd lnk. -/
theorem execVShl_keeps {b0 b1 s} : Answers 33620225 s (execVShl b0 b1 s) := by
  unfold execVShl
  refine Answers.next ?_
  refine Keeps.step vExec_keeps rfl ?_
  exact Keeps.refl

/-- Writes at most: sent free clk civ cand pwr tri prg frc mem vm xch regs bus rings lat fio snu evr sta upd lnk. -/
theorem execVShr_keeps {b0 b1 s} : Answers 33620225 s (execVShr b0 b1 s) := by
  unfold execVShr
  refine Answers.next ?_
  refine Keeps.step vExec_keeps rfl ?_
  exact Keeps.refl

/-- Writes at most: sent free clk civ cand pwr tri prg frc mem vm xch regs bus rings lat fio snu evr sta upd lnk. -/
theorem execVRol_keeps {b0 b1 s} : Answers 33620225 s (execVRol b0 b1 s) := by
  unfold execVRol
  refine Answers.next ?_
  refine Keeps.step vExec_keeps rfl ?_
  exact Keeps.refl

/-- Writes at most: sent free clk civ cand pwr tri prg frc mem vm xch regs bus rings lat fio snu evr sta upd lnk. -/
theorem execVRor_keeps {b0 b1 s} : Answers 33620225 s (execVRor b0 b1 s) := by
  unfold execVRor
  refine Answers.next ?_
  refine Keeps.step vExec_keeps rfl ?_
  exact Keeps.refl

/-- Writes at most: sent free clk civ cand pwr tri prg frc mem vm xch regs bus rings lat fio snu evr sta upd lnk. -/
theorem execVCeq_keeps {b0 b1 s} : Answers 33620225 s (execVCeq b0 b1 s) := by
  unfold execVCeq
  refine Answers.next ?_
  refine Keeps.step vExec_keeps rfl ?_
  exact Keeps.refl

/-- Writes at most: sent free clk civ cand pwr tri prg frc mem vm xch regs bus rings lat fio snu evr sta upd lnk. -/
theorem execVCne_keeps {b0 b1 s} : Answers 33620225 s (execVCne b0 b1 s) := by
  unfold execVCne
  refine Answers.next ?_
  refine Keeps.step vExec_keeps rfl ?_
  exact Keeps.refl

/-- Writes at most: sent free clk civ cand pwr tri prg frc mem vm xch regs bus rings lat fio snu evr sta upd lnk. -/
theorem execVClt_keeps {b0 b1 s} : Answers 33620225 s (execVClt b0 b1 s) := by
  unfold execVClt
  refine Answers.next ?_
  refine Keeps.step vExec_keeps rfl ?_
  exact Keeps.refl

/-- Writes at most: sent free clk civ cand pwr tri prg frc mem vm xch regs bus rings lat fio snu evr sta upd lnk. -/
theorem execVCle_keeps {b0 b1 s} : Answers 33620225 s (execVCle b0 b1 s) := by
  unfold execVCle
  refine Answers.next ?_
  refine Keeps.step vExec_keeps rfl ?_
  exact Keeps.refl

/-- Writes at most: sent free clk civ cand pwr tri prg frc mem vm xch regs bus rings lat fio snu evr sta upd lnk. -/
theorem execVCgt_keeps {b0 b1 s} : Answers 33620225 s (execVCgt b0 b1 s) := by
  unfold execVCgt
  refine Answers.next ?_
  refine Keeps.step vExec_keeps rfl ?_
  exact Keeps.refl

/-- Writes at most: sent free clk civ cand pwr tri prg frc mem vm xch regs bus rings lat fio snu evr sta upd lnk. -/
theorem execVCge_keeps {b0 b1 s} : Answers 33620225 s (execVCge b0 b1 s) := by
  unfold execVCge
  refine Answers.next ?_
  refine Keeps.step vExec_keeps rfl ?_
  exact Keeps.refl

/-- Writes at most: sent free clk civ cand pwr tri prg frc mem vm xch regs bus rings lat fio snu evr sta upd lnk. -/
theorem execVBtst_keeps {b0 b1 s} : Answers 33620225 s (execVBtst b0 b1 s) := by
  unfold execVBtst
  refine Answers.next ?_
  refine Keeps.step vExec_keeps rfl ?_
  exact Keeps.refl

/-- Writes at most: sent free clk civ cand pwr tri prg frc mem vm xch regs bus rings lat fio snu evr sta upd lnk. -/
theorem execVBset_keeps {b0 b1 s} : Answers 33620225 s (execVBset b0 b1 s) := by
  unfold execVBset
  refine Answers.next ?_
  refine Keeps.step vExec_keeps rfl ?_
  exact Keeps.refl

/-- Writes at most: sent free clk civ cand pwr tri prg frc mem vm xch regs bus rings lat fio snu evr sta upd lnk. -/
theorem execVBclr_keeps {b0 b1 s} : Answers 33620225 s (execVBclr b0 b1 s) := by
  unfold execVBclr
  refine Answers.next ?_
  refine Keeps.step vExec_keeps rfl ?_
  exact Keeps.refl

/-- Writes at most: sent free clk civ cand pwr tri prg frc mem vm xch regs bus rings lat fio snu evr sta upd lnk. -/
theorem execVJmp_keeps {b0 b1 s} : Answers 33620225 s (execVJmp b0 b1 s) := by
  unfold execVJmp
  refine Answers.next ?_
  refine Keeps.step vExec_keeps rfl ?_
  exact Keeps.refl

/-- Writes at most: sent free clk civ cand pwr tri prg frc mem vm xch regs bus rings lat fio snu evr sta upd lnk. -/
theorem execVJt_keeps {b0 b1 s} : Answers 33620225 s (execVJt b0 b1 s) := by
  unfold execVJt
  refine Answers.next ?_
  refine Keeps.step vExec_keeps rfl ?_
  exact Keeps.refl

/-- Writes at most: sent free clk civ cand pwr tri prg frc mem vm xch regs bus rings lat fio snu evr sta upd lnk. -/
theorem execVJf_keeps {b0 b1 s} : Answers 33620225 s (execVJf b0 b1 s) := by
  unfold execVJf
  refine Answers.next ?_
  refine Keeps.step vExec_keeps rfl ?_
  exact Keeps.refl

/-- Writes at most: sent free clk civ cand pwr tri prg frc mem vm xch regs bus rings lat fio snu evr sta upd lnk. -/
theorem execVCall_keeps {b0 b1 s} : Answers 33620225 s (execVCall b0 b1 s) := by
  unfold execVCall
  refine Answers.next ?_
  refine Keeps.step vExec_keeps rfl ?_
  exact Keeps.refl

/-- Writes at most: sent free clk civ cand pwr tri prg frc mem vm xch regs bus rings lat fio snu evr sta upd lnk. -/
theorem execVRet_keeps {b0 b1 s} : Answers 33620225 s (execVRet b0 b1 s) := by
  unfold execVRet
  refine Answers.next ?_
  refine Keeps.step vExec_keeps rfl ?_
  exact Keeps.refl

/-- Writes at most: sent free clk civ cand pwr tri prg frc mem vm xch regs bus rings lat fio snu evr sta upd lnk. -/
theorem execVTstamp_keeps {b0 b1 s} : Answers 33620225 s (execVTstamp b0 b1 s) := by
  unfold execVTstamp
  refine Answers.next ?_
  refine Keeps.step vExec_keeps rfl ?_
  exact Keeps.refl

/-- Writes at most: sent free clk civ cand pwr tri prg frc mem vm xch regs bus rings lat fio snu evr sta upd lnk. -/
theorem execVPost_keeps {b0 b1 s} : Answers 33620225 s (execVPost b0 b1 s) := by
  unfold execVPost
  refine Answers.next ?_
  refine Keeps.step vExec_keeps rfl ?_
  exact Keeps.refl

/-- Writes at most: sent free clk civ cand pwr tri prg frc mem vm xch regs bus rings lat fio snu evr sta upd lnk. -/
theorem execVFetch_keeps {b0 b1 s} : Answers 33620225 s (execVFetch b0 b1 s) := by
  unfold execVFetch
  refine Answers.next ?_
  refine Keeps.step vExec_keeps rfl ?_
  exact Keeps.refl

/-- Writes at most: sent free clk civ cand pwr tri prg frc mem vm xch regs bus rings lat fio snu evr sta upd lnk. -/
theorem execVTmr_keeps {b0 b1 s} : Answers 33620225 s (execVTmr b0 b1 s) := by
  unfold execVTmr
  refine Answers.next ?_
  refine Keeps.step vExec_keeps rfl ?_
  exact Keeps.refl

/-- Writes at most: sent free clk civ cand pwr tri prg frc mem vm xch regs bus rings lat fio snu evr sta upd lnk. -/
theorem execVEdg_keeps {b0 b1 s} : Answers 33620225 s (execVEdg b0 b1 s) := by
  unfold execVEdg
  refine Answers.next ?_
  refine Keeps.step vExec_keeps rfl ?_
  exact Keeps.refl

/-- Writes at most: sent free clk civ cand pwr tri prg frc mem vm xch regs bus rings lat fio snu evr sta upd lnk. -/
theorem execVFlt_keeps {b0 b1 s} : Answers 33620225 s (execVFlt b0 b1 s) := by
  unfold execVFlt
  refine Answers.next ?_
  refine Keeps.step vExec_keeps rfl ?_
  exact Keeps.refl

/-- Writes at most: sent free clk civ cand pwr tri prg frc mem vm xch regs bus rings lat fio snu evr sta upd lnk. -/
theorem execVTokv_keeps {b0 b1 s} : Answers 33620225 s (execVTokv b0 b1 s) := by
  unfold execVTokv
  refine Answers.next ?_
  refine Keeps.step vExec_keeps rfl ?_
  exact Keeps.refl

/-- Writes at most: sent free clk civ cand pwr tri prg frc mem vm xch regs bus rings lat fio snu evr sta upd lnk. -/
theorem execVTrap_keeps {b0 b1 s} : Answers 33620225 s (execVTrap b0 b1 s) := by
  unfold execVTrap
  refine Answers.next ?_
  refine Keeps.step vExec_keeps rfl ?_
  exact Keeps.refl

end Sys2Proof.Machine
end

