-- ==== Sys2Proof/Laws/InvVbc.lean ====
section
/-! SUPPORT. The functions of Machine/Vbc.lean keep the invariant `Inv`. -/

namespace Sys2Proof.Machine

theorem vEnd_inv {b0 e} (h : InvE e) : Inv (vEnd b0 e) := by
  cases e with
  | ok t v => exact h
  | trap c t => exact trapFault_inv h

theorem shape1_inv {b0 b1 b2 b3 s} (hf1 : ∀ c0 c1 c2 t, Inv t → Inv (b1 c0 c1 c2 t).2) (hs : Inv s) : InvE (shape1 b0 b1 b2 b3 s) := by
  unfold shape1
  refine InvE.bind ?_ ?_
  · refine opRead_inv ?_
    exact hs
  · intro s a0 hs
    split
    · rename_i y1 y2 q3
      have h4 : Inv y2 := by
        refine Inv.snd ?_ q3
        refine hf1 _ _ _ _ ?_
        exact hs
      refine opWrite_inv ?_
      exact h4

theorem shape2_inv {b0 b1 b2 b3 s} (hf1 : ∀ c0 c1 c2 c3 t, Inv t → Inv (b1 c0 c1 c2 c3 t).2) (hs : Inv s) : InvE (shape2 b0 b1 b2 b3 s) := by
  unfold shape2
  refine InvE.bind ?_ ?_
  · refine opRead_inv ?_
    exact hs
  · intro s a0 hs
    refine InvE.bind ?_ ?_
    · refine opRead_inv ?_
      exact hs
    · intro s a1 hs
      split
      · rename_i y2 y3 q4
        have h5 : Inv y3 := by
          refine Inv.snd ?_ q4
          refine hf1 _ _ _ _ _ ?_
          exact hs
        refine opWrite_inv ?_
        exact h5

theorem shapeCmp_inv {b0 b1 b2 b3 s} (hs : Inv s) : InvE (shapeCmp b0 b1 b2 b3 s) := by
  unfold shapeCmp
  refine InvE.bind ?_ ?_
  · refine opRead_inv ?_
    exact hs
  · intro s a0 hs
    refine InvE.bind ?_ ?_
    · refine opRead_inv ?_
      exact hs
    · intro s a1 hs
      refine opWrite_inv ?_
      exact hs

theorem callBlock_inv {b0 b1 s} (hs : Inv s) : InvE (callBlock b0 b1 s) := by
  unfold callBlock
  refine InvE.ite ?_ ?_
  · refine InvE.bind ?_ ?_
    · refine opRead_inv ?_
      exact hs
    · intro s a0 hs
      refine InvE.ite ?_ ?_
      · refine InvE.trap ?_
        exact hs
      · refine InvE.ite ?_ ?_
        · refine InvE.trap ?_
          exact hs
        · extract_lets -merge -useContext +onlyGivenNames x1
          try clear_value x1
          refine InvE.ok ?_
          refine Inv.keep modCtx_keeps rfl ?_
          exact hs
  · refine InvE.trap ?_
    exact hs

theorem clearFirst_inv {b0 s} (hs : Inv s) : Inv (clearFirst b0 s) := by
  induction b0 generalizing s with
  | nil =>
    rw [clearFirst.eq_1]
    exact hs
  | cons z zs ih =>
    rw [clearFirst.eq_2]
    refine ih ?_
    refine Inv.ite ?_ ?_
    · refine laneStore_inv ?_
      exact hs
    · exact hs

theorem applyOuts_inv {b0 s} (hs : Inv s) : Inv (applyOuts b0 s) := by
  induction b0 generalizing s with
  | nil =>
    rw [applyOuts.eq_1]
    exact hs
  | cons z zs ih =>
    rw [applyOuts.eq_2]
    refine ih ?_
    refine laneStore_inv ?_
    exact hs

theorem execDone_inv {b0 s} (hs : Inv s) : Inv (execDone b0 s) := by
  unfold execDone
  extract_lets -merge -useContext +onlyGivenNames x0
  try clear_value x0
  extract_lets -merge -useContext +onlyGivenNames x1
  try clear_value x1
  extract_lets -merge -useContext +onlyGivenNames x2
  have h3 : Inv x2 := by
    unfold x2
    refine Inv.keep setRv_keeps rfl ?_
    exact hs
  try clear_value x2
  extract_lets -merge -useContext +onlyGivenNames x4
  try clear_value x4
  extract_lets -merge -useContext +onlyGivenNames x5
  have h6 : Inv x5 := by
    unfold x5
    refine Inv.keep statMax_keeps rfl ?_
    refine Inv.keep stat_keeps rfl ?_
    exact h3
  try clear_value x5
  refine Inv.ite ?_ ?_
  · refine emit_inv ?_
    refine Inv.keep cnt_keeps rfl ?_
    exact h6
  · exact h6

theorem endRelease_inv {b0 s} (hs : Inv s) : Inv (endRelease b0 s) := by
  unfold endRelease
  extract_lets -merge -useContext +onlyGivenNames x0
  have h1 : Inv x0 := by
    unfold x0
    refine Inv.ite ?_ ?_
    · exact hs
    · refine applyOuts_inv ?_
      exact hs
  try clear_value x0
  extract_lets -merge -useContext +onlyGivenNames x2
  try clear_value x2
  extract_lets -merge -useContext +onlyGivenNames x3
  have h4 : Inv x3 := by
    unfold x3
    refine clearFirst_inv ?_
    exact h1
  try clear_value x3
  extract_lets -merge -useContext +onlyGivenNames x5
  have h6 : Inv x5 := by
    unfold x5
    refine execDone_inv ?_
    refine endPosts_inv ?_
    exact h4
  try clear_value x5
  extract_lets -merge -useContext +onlyGivenNames x7
  try clear_value x7
  extract_lets -merge -useContext +onlyGivenNames x8
  have h9 : Inv x8 := by
    unfold x8
    refine Inv.keep (wr_prg (m := 67108351) rfl) rfl ?_
    exact h6
  try clear_value x8
  refine Inv.ite ?_ ?_
  · refine Inv.ite ?_ ?_
    · refine releaseFree_inv ?_
      exact h9
    · exact h9
  · refine Inv.keep releaseHeld_keeps rfl ?_
    exact h9

theorem doReturn_inv {b0 s} (hs : Inv s) : InvE (doReturn b0 s) := by
  unfold doReturn
  split
  · refine InvE.ok ?_
    refine Inv.keep modCtx_keeps rfl ?_
    exact hs
  · split
    · refine InvE.ok ?_
      refine Inv.keep modCtx_keeps rfl ?_
      exact hs
    · refine InvE.ok ?_
      refine endRelease_inv ?_
      exact hs

theorem readSlots_inv {b0 b1 b2 b3 b4 s} (hs : Inv s) : InvX (readSlots b0 b1 b2 b3 b4 s) := by
  induction b3 generalizing b0 b1 b2 b4 s with
  | zero =>
    rw [readSlots.eq_1]
    refine InvX.ok ?_
    refine Inv.mkSnd ?_
    exact hs
  | succ z ih =>
    rw [readSlots.eq_2]
    split
    · rename_i y0 y1 q2
      have h3 : Inv y0 := by
        refine InvE.ofOk ?_ q2
        refine slotRead_inv ?_
        exact hs
      refine ih ?_
      exact h3
    · rename_i y4 y5 q6
      have h7 : Inv y5 := by
        refine InvE.ofTrap ?_ q6
        refine slotRead_inv ?_
        exact hs
      refine InvX.error ?_
      refine Inv.mkSnd ?_
      exact h7

theorem writeSlots_inv {b0 b1 b2 b3 s} (hs : Inv s) : InvE (writeSlots b0 b1 b2 b3 s) := by
  induction b3 generalizing b0 b1 b2 s with
  | nil =>
    rw [writeSlots.eq_1]
    refine InvE.ok ?_
    exact hs
  | cons z zs ih =>
    rw [writeSlots.eq_2]
    refine InvE.bind ?_ ?_
    · refine slotWrite_inv ?_
      exact hs
    · intro s a0 hs
      refine ih ?_
      exact hs

theorem postTo_inv {b0 b1 b2 s} (hs : Inv s) : Inv (postTo b0 b1 b2 s) := by
  unfold postTo
  refine Inv.ite ?_ ?_
  · exact hs
  · refine Inv.ite ?_ ?_
    · refine postRequest_inv ?_
      exact hs
    · refine Inv.ite ?_ ?_
      · refine Inv.ite ?_ ?_
        · refine vitalFault_inv ?_
          exact hs
        · refine Inv.keep fireRing_keeps rfl ?_
          refine admitUpdates_inv ?_
          refine Inv.keep ringPush_keeps rfl ?_
          exact hs
      · refine Inv.ite ?_ ?_
        · refine Inv.ite ?_ ?_
          · refine lostNotice_inv ?_
            refine recordLoss_inv ?_
            extract_lets -merge -useContext +onlyGivenNames x0
            have h1 : Inv x0 := by
              unfold x0
              refine ringOverflow_inv ?_
              exact hs
            try clear_value x0
            refine Inv.set_evr (fun h => ?_) ?_
            · exact h.evr
            · exact h1
          · refine Inv.keep fireRing_keeps rfl ?_
            refine post55_inv ?_
            exact hs
        · refine Inv.ite ?_ ?_
          · refine postTx_inv ?_
            exact hs
          · refine postRecord_inv ?_
            exact hs

theorem doPost_inv {b0 b1 b2 s} (hs : Inv s) : InvE (doPost b0 b1 b2 s) := by
  unfold doPost
  refine InvE.bind ?_ ?_
  · refine opRead_inv ?_
    exact hs
  · intro s a0 hs
    refine InvE.ite ?_ ?_
    · refine InvE.trap ?_
      exact hs
    · refine InvE.ite ?_ ?_
      · split
        · rename_i y1 y2 q3
          have h4 : Inv y2 := by
            refine InvX.ofOk ?_ q3
            refine readSlots_inv ?_
            exact hs
          refine InvE.ite ?_ ?_
          · refine InvE.ok ?_
            exact h4
          · refine InvE.ite ?_ ?_
            · refine InvE.ok ?_
              refine postTo_inv ?_
              refine Inv.keep seqVoted_keeps rfl ?_
              exact h4
            · refine InvE.ok ?_
              refine writeVerify_inv ?_
              refine Inv.keep seqVoted_keeps rfl ?_
              exact h4
        · rename_i y5 y6 q7
          have h8 : Inv y6 := by
            refine InvX.ofError ?_ q7
            refine readSlots_inv ?_
            exact hs
          refine InvE.trap ?_
          exact h8
      · refine InvE.trap ?_
        exact hs

theorem doFetch_inv {b0 b1 b2 s} (hs : Inv s) : InvE (doFetch b0 b1 b2 s) := by
  unfold doFetch
  refine InvE.bind ?_ ?_
  · refine opRead_inv ?_
    exact hs
  · intro s a0 hs
    refine InvE.ite ?_ ?_
    · extract_lets -merge -useContext +onlyGivenNames x1
      have h2 : Inv x1 := by
        unfold x1
        refine ringFinding_inv ?_
        refine Inv.keep seqVoted_keeps rfl ?_
        exact hs
      try clear_value x1
      refine InvE.ite ?_ ?_
      · refine InvE.ok ?_
        exact h2
      · split
        · rename_i y3 y4 q5
          have h6 : Inv y4 := by
            refine InvS.elim ?_ q5
            refine InvS.ite ?_ ?_
            · refine InvS.keep ringTake_keeps rfl ?_
              exact h2
            · exact trivial
          refine InvE.bind ?_ ?_
          · refine writeSlots_inv ?_
            exact h6
          · intro s a7 hs
            refine opWrite_inv ?_
            exact hs
        · refine opWrite_inv ?_
          exact h2
    · refine InvE.trap ?_
      exact hs

theorem doTimer_inv {b0 b1 s} (hs : Inv s) : InvE (doTimer b0 b1 s) := by
  unfold doTimer
  refine InvE.ite ?_ ?_
  · refine InvE.trap ?_
    exact hs
  · refine InvE.bind ?_ ?_
    · refine opRead_inv ?_
      exact hs
    · intro s a0 hs
      refine InvE.bind ?_ ?_
      · refine opRead_inv ?_
        exact hs
      · intro s a1 hs
        refine InvE.bind ?_ ?_
        · refine slotRead_inv ?_
          exact hs
        · intro s a2 hs
          refine InvE.bind ?_ ?_
          · refine slotRead_inv ?_
            exact hs
          · intro s a3 hs
            refine InvE.bind ?_ ?_
            · refine slotRead_inv ?_
              exact hs
            · intro s a4 hs
              extract_lets -merge -useContext +onlyGivenNames x5
              try clear_value x5
              extract_lets -merge -useContext +onlyGivenNames x6
              try clear_value x6
              refine writeSlots_inv ?_
              exact hs

theorem doEdge_inv {b0 b1 s} (hs : Inv s) : InvE (doEdge b0 b1 s) := by
  unfold doEdge
  refine InvE.ite ?_ ?_
  · refine InvE.trap ?_
    exact hs
  · refine InvE.bind ?_ ?_
    · refine opRead_inv ?_
      exact hs
    · intro s a0 hs
      refine InvE.bind ?_ ?_
      · refine slotRead_inv ?_
        exact hs
      · intro s a1 hs
        extract_lets -merge -useContext +onlyGivenNames x2
        try clear_value x2
        extract_lets -merge -useContext +onlyGivenNames x3
        try clear_value x3
        refine slotWrite_inv ?_
        exact hs

theorem doFilter_inv {b0 b1 s} (hs : Inv s) : InvE (doFilter b0 b1 s) := by
  unfold doFilter
  refine InvE.ite ?_ ?_
  · refine InvE.trap ?_
    exact hs
  · refine InvE.bind ?_ ?_
    · refine opRead_inv ?_
      exact hs
    · intro s a0 hs
      refine InvE.bind ?_ ?_
      · refine opRead_inv ?_
        exact hs
      · intro s a1 hs
        refine InvE.bind ?_ ?_
        · refine slotRead_inv ?_
          exact hs
        · intro s a2 hs
          refine InvE.bind ?_ ?_
          · refine slotRead_inv ?_
            exact hs
          · intro s a3 hs
            refine InvE.bind ?_ ?_
            · refine slotRead_inv ?_
              exact hs
            · intro s a4 hs
              extract_lets -merge -useContext +onlyGivenNames x5
              extract_lets -merge -useContext +onlyGivenNames x6
              extract_lets -merge -useContext +onlyGivenNames x7
              extract_lets -merge -useContext +onlyGivenNames x8
              extract_lets -merge -useContext +onlyGivenNames x9
              refine writeSlots_inv ?_
              exact hs

theorem doToken_inv {b0 b1 b2 s} (hs : Inv s) : InvE (doToken b0 b1 b2 s) := by
  unfold doToken
  refine InvE.bind ?_ ?_
  · refine opRead_inv ?_
    exact hs
  · intro s a0 hs
    split
    · rename_i y1 y2 q3
      have h4 : Inv y2 := by
        refine InvX.ofOk ?_ q3
        refine readSlots_inv ?_
        exact hs
      refine InvE.ite ?_ ?_
      · refine InvE.ok ?_
        exact h4
      · extract_lets -merge -useContext +onlyGivenNames x5
        try clear_value x5
        extract_lets -merge -useContext +onlyGivenNames x6
        try clear_value x6
        extract_lets -merge -useContext +onlyGivenNames x7
        try clear_value x7
        extract_lets -merge -useContext +onlyGivenNames x8
        try clear_value x8
        extract_lets -merge -useContext +onlyGivenNames x9
        have h10 : Inv x9 := by
          unfold x9
          refine Inv.ite ?_ ?_
          · refine Inv.keep (wr_prg (m := 67108351) rfl) rfl ?_
            exact h4
          · exact h4
        try clear_value x9
        refine opWrite_inv ?_
        refine emit_inv ?_
        exact h10
    · rename_i y11 y12 q13
      have h14 : Inv y12 := by
        refine InvX.ofError ?_ q13
        refine readSlots_inv ?_
        exact hs
      refine InvE.trap ?_
      exact h14

theorem vOp_inv {b0 b1 b2 b3 b4 s} (hs : Inv s) : InvE (vOp b0 b1 b2 b3 b4 s) := by
  unfold vOp
  split
  · refine InvE.ok ?_
    exact hs
  · refine shape1_inv ?_ ?_
    · intro a2 a3 a4 s hs
      refine Inv.mkSnd ?_
      exact hs
    · exact hs
  · refine InvE.ite ?_ ?_
    · refine InvE.trap ?_
      exact hs
    · refine opWrite_inv ?_
      exact hs
  · refine InvE.bind ?_ ?_
    · refine opRead_inv ?_
      exact hs
    · intro s a7 hs
      refine InvE.bind ?_ ?_
      · refine opRead_inv ?_
        exact hs
      · intro s a8 hs
        refine opWrite_inv ?_
        exact hs
  · refine InvE.bind ?_ ?_
    · refine opRead_inv ?_
      exact hs
    · intro s a10 hs
      refine InvE.bind ?_ ?_
      · refine opRead_inv ?_
        exact hs
      · intro s a11 hs
        refine opWrite_inv ?_
        exact hs
  · refine InvE.bind ?_ ?_
    · refine opRead_inv ?_
      exact hs
    · intro s a13 hs
      refine opWrite_inv ?_
      exact hs
  · refine shape2_inv ?_ ?_
    · intro a15 a16 a17 a18 s hs
      refine Inv.keep aluAdd_keeps rfl ?_
      exact hs
    · exact hs
  · refine shape2_inv ?_ ?_
    · intro a20 a21 a22 a23 s hs
      refine Inv.keep aluSub_keeps rfl ?_
      exact hs
    · exact hs
  · refine shape2_inv ?_ ?_
    · intro a25 a26 a27 a28 s hs
      refine Inv.keep aluMul_keeps rfl ?_
      exact hs
    · exact hs
  · refine shape2_inv ?_ ?_
    · intro a30 a31 a32 a33 s hs
      refine Inv.keep aluDiv_keeps rfl ?_
      exact hs
    · exact hs
  · refine shape2_inv ?_ ?_
    · intro a35 a36 a37 a38 s hs
      refine Inv.keep aluMod_keeps rfl ?_
      exact hs
    · exact hs
  · refine shape1_inv ?_ ?_
    · intro a40 a41 a42 s hs
      refine Inv.keep aluNeg_keeps rfl ?_
      exact hs
    · exact hs
  · refine shape1_inv ?_ ?_
    · intro a44 a45 a46 s hs
      refine Inv.keep aluAbs_keeps rfl ?_
      exact hs
    · exact hs
  · refine shape2_inv ?_ ?_
    · intro a48 a49 a50 a51 s hs
      refine Inv.keep aluMin_keeps rfl ?_
      exact hs
    · exact hs
  · refine shape2_inv ?_ ?_
    · intro a53 a54 a55 a56 s hs
      refine Inv.keep aluMax_keeps rfl ?_
      exact hs
    · exact hs
  · refine InvE.bind ?_ ?_
    · refine opRead_inv ?_
      exact hs
    · intro s a58 hs
      refine InvE.bind ?_ ?_
      · refine opRead_inv ?_
        exact hs
      · intro s a59 hs
        refine InvE.bind ?_ ?_
        · refine opRead_inv ?_
          exact hs
        · intro s a60 hs
          refine opWrite_inv ?_
          exact hs
  · refine shape2_inv ?_ ?_
    · intro a62 a63 a64 a65 s hs
      refine Inv.keep aluBit_keeps rfl ?_
      exact hs
    · exact hs
  · refine shape2_inv ?_ ?_
    · intro a67 a68 a69 a70 s hs
      refine Inv.keep aluBit_keeps rfl ?_
      exact hs
    · exact hs
  · refine shape2_inv ?_ ?_
    · intro a72 a73 a74 a75 s hs
      refine Inv.keep aluBit_keeps rfl ?_
      exact hs
    · exact hs
  · refine shape1_inv ?_ ?_
    · intro a77 a78 a79 s hs
      refine Inv.keep aluNot_keeps rfl ?_
      exact hs
    · exact hs
  · refine shape2_inv ?_ ?_
    · intro a81 a82 a83 a84 s hs
      refine Inv.keep aluShift_keeps rfl ?_
      exact hs
    · exact hs
  · refine shape2_inv ?_ ?_
    · intro a86 a87 a88 a89 s hs
      refine Inv.keep aluShift_keeps rfl ?_
      exact hs
    · exact hs
  · refine shape2_inv ?_ ?_
    · intro a91 a92 a93 a94 s hs
      refine Inv.keep aluShift_keeps rfl ?_
      exact hs
    · exact hs
  · refine shape2_inv ?_ ?_
    · intro a96 a97 a98 a99 s hs
      refine Inv.keep aluShift_keeps rfl ?_
      exact hs
    · exact hs
  · refine shapeCmp_inv ?_
    exact hs
  · refine shapeCmp_inv ?_
    exact hs
  · refine shapeCmp_inv ?_
    exact hs
  · refine shapeCmp_inv ?_
    exact hs
  · refine shapeCmp_inv ?_
    exact hs
  · refine shapeCmp_inv ?_
    exact hs
  · refine shapeCmp_inv ?_
    exact hs
  · refine shape2_inv ?_ ?_
    · intro a108 a109 a110 a111 s hs
      refine Inv.keep bitPut_keeps rfl ?_
      exact hs
    · exact hs
  · refine shape2_inv ?_ ?_
    · intro a113 a114 a115 a116 s hs
      refine Inv.keep bitPut_keeps rfl ?_
      exact hs
    · exact hs
  · refine InvE.keep jumpTo_keeps rfl ?_
    exact hs
  · refine InvE.bind ?_ ?_
    · refine opRead_inv ?_
      exact hs
    · intro s a119 hs
      refine InvE.ite ?_ ?_
      · refine InvE.keep jumpTo_keeps rfl ?_
        exact hs
      · refine InvE.ok ?_
        exact hs
  · refine InvE.bind ?_ ?_
    · refine opRead_inv ?_
      exact hs
    · intro s a121 hs
      refine InvE.ite ?_ ?_
      · refine InvE.keep jumpTo_keeps rfl ?_
        exact hs
      · refine InvE.ok ?_
        exact hs
  · refine callBlock_inv ?_
    exact hs
  · refine doReturn_inv ?_
    exact hs
  · refine opWrite_inv ?_
    exact hs
  · refine doPost_inv ?_
    exact hs
  · refine doFetch_inv ?_
    exact hs
  · refine doTimer_inv ?_
    exact hs
  · refine doEdge_inv ?_
    exact hs
  · refine doFilter_inv ?_
    exact hs
  · refine doToken_inv ?_
    exact hs
  · refine InvE.bind ?_ ?_
    · refine opRead_inv ?_
      exact hs
    · intro s a132 hs
      refine InvE.ok ?_
      refine vitalFault_inv ?_
      refine trapRecord_inv ?_
      refine Inv.keep seqVoted_keeps rfl ?_
      exact hs
  · refine InvE.trap ?_
    exact hs

theorem vExecBy_inv {b0 b1 b2 b3 s} (hf3 : ∀ c0 c1 t, Inv t → InvE (b3 c0 c1 t)) (hs : Inv s) : Inv (vExecBy b0 b1 b2 b3 s) := by
  unfold vExecBy
  extract_lets -merge -useContext +onlyGivenNames x0
  have h1 : Inv x0 := by
    unfold x0
    refine begin'_inv ?_
    exact hs
  try clear_value x0
  extract_lets -merge -useContext +onlyGivenNames x2
  try clear_value x2
  refine Inv.ite ?_ ?_
  · refine vEnd_inv ?_
    refine InvE.ite ?_ ?_
    · refine hf3 _ _ _ ?_
      refine Inv.keep advance_keeps rfl ?_
      exact h1
    · refine InvE.trap ?_
      exact h1
  · exact h1

theorem vExec_inv {b0 b1 b2 b3 s} (hs : Inv s) : Inv (vExec b0 b1 b2 b3 s) := by
  unfold vExec
  refine vExecBy_inv ?_ ?_
  · intro a0 a1 s hs
    refine vOp_inv ?_
    exact hs
  · exact hs

theorem execVNop_inv {b0 b1 s} (hs : Inv s) : InvA (execVNop b0 b1 s) := by
  unfold execVNop
  refine InvA.next ?_
  refine vExec_inv ?_
  exact hs

theorem execVMov_inv {b0 b1 s} (hs : Inv s) : InvA (execVMov b0 b1 s) := by
  unfold execVMov
  refine InvA.next ?_
  refine vExec_inv ?_
  exact hs

theorem execVLdi_inv {b0 b1 s} (hs : Inv s) : InvA (execVLdi b0 b1 s) := by
  unfold execVLdi
  refine InvA.next ?_
  refine vExec_inv ?_
  exact hs

theorem execVLdx_inv {b0 b1 s} (hs : Inv s) : InvA (execVLdx b0 b1 s) := by
  unfold execVLdx
  refine InvA.next ?_
  refine vExec_inv ?_
  exact hs

theorem execVStx_inv {b0 b1 s} (hs : Inv s) : InvA (execVStx b0 b1 s) := by
  unfold execVStx
  refine InvA.next ?_
  refine vExec_inv ?_
  exact hs

theorem execVCast_inv {b0 b1 s} (hs : Inv s) : InvA (execVCast b0 b1 s) := by
  unfold execVCast
  refine InvA.next ?_
  refine vExec_inv ?_
  exact hs

theorem execVAdd_inv {b0 b1 s} (hs : Inv s) : InvA (execVAdd b0 b1 s) := by
  unfold execVAdd
  refine InvA.next ?_
  refine vExec_inv ?_
  exact hs

theorem execVSub_inv {b0 b1 s} (hs : Inv s) : InvA (execVSub b0 b1 s) := by
  unfold execVSub
  refine InvA.next ?_
  refine vExec_inv ?_
  exact hs

theorem execVMul_inv {b0 b1 s} (hs : Inv s) : InvA (execVMul b0 b1 s) := by
  unfold execVMul
  refine InvA.next ?_
  refine vExec_inv ?_
  exact hs

theorem execVDiv_inv {b0 b1 s} (hs : Inv s) : InvA (execVDiv b0 b1 s) := by
  unfold execVDiv
  refine InvA.next ?_
  refine vExec_inv ?_
  exact hs

theorem execVMod_inv {b0 b1 s} (hs : Inv s) : InvA (execVMod b0 b1 s) := by
  unfold execVMod
  refine InvA.next ?_
  refine vExec_inv ?_
  exact hs

theorem execVNeg_inv {b0 b1 s} (hs : Inv s) : InvA (execVNeg b0 b1 s) := by
  unfold execVNeg
  refine InvA.next ?_
  refine vExec_inv ?_
  exact hs

theorem execVAbs_inv {b0 b1 s} (hs : Inv s) : InvA (execVAbs b0 b1 s) := by
  unfold execVAbs
  refine InvA.next ?_
  refine vExec_inv ?_
  exact hs

theorem execVMin_inv {b0 b1 s} (hs : Inv s) : InvA (execVMin b0 b1 s) := by
  unfold execVMin
  refine InvA.next ?_
  refine vExec_inv ?_
  exact hs

theorem execVMax_inv {b0 b1 s} (hs : Inv s) : InvA (execVMax b0 b1 s) := by
  unfold execVMax
  refine InvA.next ?_
  refine vExec_inv ?_
  exact hs

theorem execVLim_inv {b0 b1 s} (hs : Inv s) : InvA (execVLim b0 b1 s) := by
  unfold execVLim
  refine InvA.next ?_
  refine vExec_inv ?_
  exact hs

theorem execVAnd_inv {b0 b1 s} (hs : Inv s) : InvA (execVAnd b0 b1 s) := by
  unfold execVAnd
  refine InvA.next ?_
  refine vExec_inv ?_
  exact hs

theorem execVOr_inv {b0 b1 s} (hs : Inv s) : InvA (execVOr b0 b1 s) := by
  unfold execVOr
  refine InvA.next ?_
  refine vExec_inv ?_
  exact hs

theorem execVXor_inv {b0 b1 s} (hs : Inv s) : InvA (execVXor b0 b1 s) := by
  unfold execVXor
  refine InvA.next ?_
  refine vExec_inv ?_
  exact hs

theorem execVNot_inv {b0 b1 s} (hs : Inv s) : InvA (execVNot b0 b1 s) := by
  unfold execVNot
  refine InvA.next ?_
  refine vExec_inv ?_
  exact hs

theorem execVShl_inv {b0 b1 s} (hs : Inv s) : InvA (execVShl b0 b1 s) := by
  unfold execVShl
  refine InvA.next ?_
  refine vExec_inv ?_
  exact hs

theorem execVShr_inv {b0 b1 s} (hs : Inv s) : InvA (execVShr b0 b1 s) := by
  unfold execVShr
  refine InvA.next ?_
  refine vExec_inv ?_
  exact hs

theorem execVRol_inv {b0 b1 s} (hs : Inv s) : InvA (execVRol b0 b1 s) := by
  unfold execVRol
  refine InvA.next ?_
  refine vExec_inv ?_
  exact hs

theorem execVRor_inv {b0 b1 s} (hs : Inv s) : InvA (execVRor b0 b1 s) := by
  unfold execVRor
  refine InvA.next ?_
  refine vExec_inv ?_
  exact hs

theorem execVCeq_inv {b0 b1 s} (hs : Inv s) : InvA (execVCeq b0 b1 s) := by
  unfold execVCeq
  refine InvA.next ?_
  refine vExec_inv ?_
  exact hs

theorem execVCne_inv {b0 b1 s} (hs : Inv s) : InvA (execVCne b0 b1 s) := by
  unfold execVCne
  refine InvA.next ?_
  refine vExec_inv ?_
  exact hs

theorem execVClt_inv {b0 b1 s} (hs : Inv s) : InvA (execVClt b0 b1 s) := by
  unfold execVClt
  refine InvA.next ?_
  refine vExec_inv ?_
  exact hs

theorem execVCle_inv {b0 b1 s} (hs : Inv s) : InvA (execVCle b0 b1 s) := by
  unfold execVCle
  refine InvA.next ?_
  refine vExec_inv ?_
  exact hs

theorem execVCgt_inv {b0 b1 s} (hs : Inv s) : InvA (execVCgt b0 b1 s) := by
  unfold execVCgt
  refine InvA.next ?_
  refine vExec_inv ?_
  exact hs

theorem execVCge_inv {b0 b1 s} (hs : Inv s) : InvA (execVCge b0 b1 s) := by
  unfold execVCge
  refine InvA.next ?_
  refine vExec_inv ?_
  exact hs

theorem execVBtst_inv {b0 b1 s} (hs : Inv s) : InvA (execVBtst b0 b1 s) := by
  unfold execVBtst
  refine InvA.next ?_
  refine vExec_inv ?_
  exact hs

theorem execVBset_inv {b0 b1 s} (hs : Inv s) : InvA (execVBset b0 b1 s) := by
  unfold execVBset
  refine InvA.next ?_
  refine vExec_inv ?_
  exact hs

theorem execVBclr_inv {b0 b1 s} (hs : Inv s) : InvA (execVBclr b0 b1 s) := by
  unfold execVBclr
  refine InvA.next ?_
  refine vExec_inv ?_
  exact hs

theorem execVJmp_inv {b0 b1 s} (hs : Inv s) : InvA (execVJmp b0 b1 s) := by
  unfold execVJmp
  refine InvA.next ?_
  refine vExec_inv ?_
  exact hs

theorem execVJt_inv {b0 b1 s} (hs : Inv s) : InvA (execVJt b0 b1 s) := by
  unfold execVJt
  refine InvA.next ?_
  refine vExec_inv ?_
  exact hs

theorem execVJf_inv {b0 b1 s} (hs : Inv s) : InvA (execVJf b0 b1 s) := by
  unfold execVJf
  refine InvA.next ?_
  refine vExec_inv ?_
  exact hs

theorem execVCall_inv {b0 b1 s} (hs : Inv s) : InvA (execVCall b0 b1 s) := by
  unfold execVCall
  refine InvA.next ?_
  refine vExec_inv ?_
  exact hs

theorem execVRet_inv {b0 b1 s} (hs : Inv s) : InvA (execVRet b0 b1 s) := by
  unfold execVRet
  refine InvA.next ?_
  refine vExec_inv ?_
  exact hs

theorem execVTstamp_inv {b0 b1 s} (hs : Inv s) : InvA (execVTstamp b0 b1 s) := by
  unfold execVTstamp
  refine InvA.next ?_
  refine vExec_inv ?_
  exact hs

theorem execVPost_inv {b0 b1 s} (hs : Inv s) : InvA (execVPost b0 b1 s) := by
  unfold execVPost
  refine InvA.next ?_
  refine vExec_inv ?_
  exact hs

theorem execVFetch_inv {b0 b1 s} (hs : Inv s) : InvA (execVFetch b0 b1 s) := by
  unfold execVFetch
  refine InvA.next ?_
  refine vExec_inv ?_
  exact hs

theorem execVTmr_inv {b0 b1 s} (hs : Inv s) : InvA (execVTmr b0 b1 s) := by
  unfold execVTmr
  refine InvA.next ?_
  refine vExec_inv ?_
  exact hs

theorem execVEdg_inv {b0 b1 s} (hs : Inv s) : InvA (execVEdg b0 b1 s) := by
  unfold execVEdg
  refine InvA.next ?_
  refine vExec_inv ?_
  exact hs

theorem execVFlt_inv {b0 b1 s} (hs : Inv s) : InvA (execVFlt b0 b1 s) := by
  unfold execVFlt
  refine InvA.next ?_
  refine vExec_inv ?_
  exact hs

theorem execVTokv_inv {b0 b1 s} (hs : Inv s) : InvA (execVTokv b0 b1 s) := by
  unfold execVTokv
  refine InvA.next ?_
  refine vExec_inv ?_
  exact hs

theorem execVTrap_inv {b0 b1 s} (hs : Inv s) : InvA (execVTrap b0 b1 s) := by
  unfold execVTrap
  refine InvA.next ?_
  refine vExec_inv ?_
  exact hs

end Sys2Proof.Machine
end

