-- ==== Sys2Proof/Laws/KeepsForce.lean ====
section
/-! SUPPORT. Frames of the functions of Machine/Force.lean: what each leaves alone, said once. The docstrings name the parts of `State` a function may write; the mask marks all others. -/

namespace Sys2Proof.Machine

/-- Writes at most: sent prg xch regs rings evr lnk. -/
theorem fcResult_keeps {b0 b1 b2 s} : Keeps 48078333 s (fcResult b0 b1 b2 s) := by
  unfold fcResult
  extract_lets -merge -useContext +onlyGivenNames x0
  try clear_value x0
  extract_lets -merge -useContext +onlyGivenNames x1
  try clear_value x1
  extract_lets -merge -useContext +onlyGivenNames x2
  have h3 : Keeps 48078333 s x2 := by
    unfold x2
    refine Keeps.ite ?_ ?_
    · refine Keeps.step cnt_keeps rfl ?_
      exact Keeps.refl
    · refine Keeps.ite ?_ ?_
      · refine Keeps.step cnt_keeps rfl ?_
        exact Keeps.refl
      · exact Keeps.refl
  try clear_value x2
  refine Keeps.step postRecord_keeps rfl ?_
  refine Keeps.step mirror_keeps rfl ?_
  exact h3

/-- Writes at most: frc. -/
theorem forceAdd_keeps {b0 s} : Keeps 67107839 s (forceAdd b0 s) := by
  unfold forceAdd
  refine Keeps.ite ?_ ?_
  · refine Keeps.app (wr_frc rfl) ?_
    exact Keeps.refl
  · exact Keeps.refl

/-- Writes at most: sent prg frc xch regs rings evr lnk. -/
theorem forceSet_keeps {b0 s} : Keeps 48077309 s (forceSet b0 s) := by
  unfold forceSet
  split
  · exact Keeps.refl
  · extract_lets -merge -useContext +onlyGivenNames x2
    try clear_value x2
    extract_lets -merge -useContext +onlyGivenNames x3
    try clear_value x3
    extract_lets -merge -useContext +onlyGivenNames x4
    try clear_value x4
    extract_lets -merge -useContext +onlyGivenNames x5
    have h6 : Keeps 48077309 s x5 := by
      unfold x5
      split
      · refine Keeps.app (wr_frc rfl) ?_
        exact Keeps.refl
      · refine Keeps.step forceAdd_keeps rfl ?_
        exact Keeps.refl
    try clear_value x5
    extract_lets -merge -useContext +onlyGivenNames x9
    try clear_value x9
    extract_lets -merge -useContext +onlyGivenNames x10
    have h11 : Keeps 48077309 s x10 := by
      unfold x10
      refine Keeps.step consumeToken_keeps rfl ?_
      refine Keeps.app (wr_frc rfl) ?_
      exact h6
    try clear_value x10
    refine Keeps.step fcResult_keeps rfl ?_
    refine Keeps.step emit_keeps rfl ?_
    exact h11

/-- Writes at most: regs evr. -/
theorem forceDrop_keeps {b0 b1 s} : Keeps 64995327 s (forceDrop b0 b1 s) := by
  unfold forceDrop
  refine Keeps.step forceClearRecs_keeps rfl ?_
  exact Keeps.refl

/-- Writes at most: sent prg frc xch regs rings evr lnk. -/
theorem forceClear_keeps {b0 s} : Keeps 48077309 s (forceClear b0 s) := by
  unfold forceClear
  split
  · exact Keeps.refl
  · extract_lets -merge -useContext +onlyGivenNames x2
    try clear_value x2
    extract_lets -merge -useContext +onlyGivenNames x3
    have h4 : Keeps 48077309 s x3 := by
      unfold x3
      refine Keeps.step forceDrop_keeps rfl ?_
      refine Keeps.app (wr_frc rfl) ?_
      exact Keeps.refl
    try clear_value x3
    refine Keeps.step fcResult_keeps rfl ?_
    exact h4

/-- Writes at most: sent prg frc xch regs rings evr lnk. -/
theorem forceClearAll_keeps {b0 s} : Keeps 48077309 s (forceClearAll b0 s) := by
  unfold forceClearAll
  refine Keeps.step fcResult_keeps rfl ?_
  refine Keeps.step forceDrop_keeps rfl ?_
  refine Keeps.app (wr_frc rfl) ?_
  exact Keeps.refl

/-- Writes at most: sent prg xch regs rings evr lnk. -/
theorem forceCommand_keeps {m : Nat} {b0 b1 s} (hf1 : ∀ c0 t, Keeps m t (b1 c0 t)) (hm : m &&& 48078333 = m) : Keeps m s (forceCommand b0 b1 s) := by
  unfold forceCommand
  split
  · refine Keeps.ite ?_ ?_
    · extract_lets -merge -useContext +onlyGivenNames x2
      have h3 : Keeps m s x2 := by
        unfold x2
        refine Keeps.step modRing_keeps (land_le hm rfl) ?_
        exact Keeps.refl
      try clear_value x2
      extract_lets -merge -useContext +onlyGivenNames x4
      try clear_value x4
      refine Keeps.ite ?_ ?_
      · refine Keeps.app (hf1 _ _) ?_
        exact h3
      · refine Keeps.step fcResult_keeps (land_le hm rfl) ?_
        exact h3
    · exact Keeps.refl
  · exact Keeps.refl

/-- Writes at most: sent clk civ cand prg frc xch regs bus rings evr lnk. -/
theorem execForceSet_keeps {b0 s} : Answers 48044485 s (execForceSet b0 s) := by
  unfold execForceSet
  refine Answers.next ?_
  refine Keeps.app (forceCommand_keeps ?_ rfl) ?_
  · intro a0 s
    refine Keeps.step forceSet_keeps rfl ?_
    exact Keeps.refl
  · refine Keeps.step begin'_keeps rfl ?_
    exact Keeps.refl

/-- Writes at most: sent clk civ cand prg frc xch regs bus rings evr lnk. -/
theorem execForceClear_keeps {b0 s} : Answers 48044485 s (execForceClear b0 s) := by
  unfold execForceClear
  refine Answers.next ?_
  refine Keeps.app (forceCommand_keeps ?_ rfl) ?_
  · intro a0 s
    refine Keeps.step forceClear_keeps rfl ?_
    exact Keeps.refl
  · refine Keeps.step begin'_keeps rfl ?_
    exact Keeps.refl

/-- Writes at most: sent clk civ cand prg frc xch regs bus rings evr lnk. -/
theorem execForceClearAll_keeps {b0 s} : Answers 48044485 s (execForceClearAll b0 s) := by
  unfold execForceClearAll
  refine Answers.next ?_
  refine Keeps.app (forceCommand_keeps ?_ rfl) ?_
  · intro a0 s
    refine Keeps.step forceClearAll_keeps rfl ?_
    exact Keeps.refl
  · refine Keeps.step begin'_keeps rfl ?_
    exact Keeps.refl

/-- Writes at most: frc regs evr. -/
theorem forceExpire_keeps {b0 b1 s} : Keeps 64994303 s (forceExpire b0 b1 s) := by
  unfold forceExpire
  split
  · refine Keeps.ite ?_ ?_
    · extract_lets -merge -useContext +onlyGivenNames x1
      try clear_value x1
      refine Keeps.step emit_keeps rfl ?_
      refine Keeps.step cnt_keeps rfl ?_
      refine Keeps.app (wr_frc rfl) ?_
      exact Keeps.refl
    · exact Keeps.refl
  · exact Keeps.refl

/-- Writes at most: sent clk civ cand prg frc regs bus evr lnk. -/
theorem execForceExpiry_keeps {b0 b1 b2 s} : Answers 48183749 s (execForceExpiry b0 b1 b2 s) := by
  unfold execForceExpiry
  extract_lets -merge -useContext +onlyGivenNames x0
  have h1 : Keeps 48183749 s x0 := by
    unfold x0
    refine Keeps.step begin'_keeps rfl ?_
    exact Keeps.refl
  try clear_value x0
  refine Answers.next ?_
  refine Keeps.ite ?_ ?_
  · refine Keeps.step forceExpire_keeps rfl ?_
    exact h1
  · exact h1

end Sys2Proof.Machine
end

