-- ==== Sys2Proof/Laws/InvForce.lean ====
section
/-! SUPPORT. The functions of Machine/Force.lean keep the invariant `Inv`. -/

namespace Sys2Proof.Machine

theorem fcResult_inv {b0 b1 b2 s} (hs : Inv s) : Inv (fcResult b0 b1 b2 s) := by
  unfold fcResult
  extract_lets -merge -useContext +onlyGivenNames x0
  try clear_value x0
  extract_lets -merge -useContext +onlyGivenNames x1
  try clear_value x1
  extract_lets -merge -useContext +onlyGivenNames x2
  have h3 : Inv x2 := by
    unfold x2
    refine Inv.ite ?_ ?_
    · refine Inv.keep cnt_keeps rfl ?_
      exact hs
    · refine Inv.ite ?_ ?_
      · refine Inv.keep cnt_keeps rfl ?_
        exact hs
      · exact hs
  try clear_value x2
  refine postRecord_inv ?_
  refine Inv.keep mirror_keeps rfl ?_
  exact h3

theorem forceAdd_inv {b0 s} (hs : Inv s) : Inv (forceAdd b0 s) := by
  unfold forceAdd
  split
  · rename_i q
    refine Inv.set_frc (fun h => ?_) hs
    simp only [List.length_append, List.length_cons, List.length_nil]
    omega
  · exact hs

theorem forceSet_inv {b0 s} (hs : Inv s) : Inv (forceSet b0 s) := by
  unfold forceSet
  split
  · exact hs
  · extract_lets -merge -useContext +onlyGivenNames x2
    try clear_value x2
    extract_lets -merge -useContext +onlyGivenNames x3
    try clear_value x3
    extract_lets -merge -useContext +onlyGivenNames x4
    have h5 : x4 = s.frc := rfl
    replace h5 : x4.table.length ≤ 256 := by
      rw [h5]
      exact hs.frc
    try clear_value x4
    extract_lets -merge -useContext +onlyGivenNames x6
    have h7 : Inv x6 := by
      unfold x6
      split
      · refine Inv.set_frc (fun h => ?_) ?_
        · exact Nat.le_trans (Nat.le_of_eq (List.length_map _)) h.frc
        · exact hs
      · refine forceAdd_inv ?_
        exact hs
    try clear_value x6
    extract_lets -merge -useContext +onlyGivenNames x10
    have h11 : x10 = x6.frc := rfl
    replace h11 : x10.table.length ≤ 256 := by
      rw [h11]
      exact h7.frc
    try clear_value x10
    extract_lets -merge -useContext +onlyGivenNames x12
    have h13 : Inv x12 := by
      unfold x12
      refine Inv.keep consumeToken_keeps rfl ?_
      refine Inv.set_frc (fun h => ?_) ?_
      · assumption
      · exact h7
    try clear_value x12
    refine fcResult_inv ?_
    refine emit_inv ?_
    exact h13

theorem forceDrop_inv {b0 b1 s} (hs : Inv s) : Inv (forceDrop b0 b1 s) := by
  unfold forceDrop
  refine forceClearRecs_inv ?_
  exact hs

theorem forceClear_inv {b0 s} (hs : Inv s) : Inv (forceClear b0 s) := by
  unfold forceClear
  split
  · exact hs
  · extract_lets -merge -useContext +onlyGivenNames x2
    have h3 : x2 = s.frc := rfl
    replace h3 : x2.table.length ≤ 256 := by
      rw [h3]
      exact hs.frc
    try clear_value x2
    extract_lets -merge -useContext +onlyGivenNames x4
    have h5 : Inv x4 := by
      unfold x4
      refine forceDrop_inv ?_
      refine Inv.set_frc (fun h => ?_) ?_
      · exact Nat.le_trans (List.length_filter_le _ _) h.frc
      · exact hs
    try clear_value x4
    refine fcResult_inv ?_
    exact h5

theorem forceClearAll_inv {b0 s} (hs : Inv s) : Inv (forceClearAll b0 s) := by
  unfold forceClearAll
  refine fcResult_inv ?_
  refine forceDrop_inv ?_
  refine Inv.set_frc (fun h => ?_) ?_
  · exact Nat.zero_le _
  · exact hs

theorem forceCommand_inv {b0 b1 s} (hf1 : ∀ c0 t, Inv t → Inv (b1 c0 t)) (hs : Inv s) : Inv (forceCommand b0 b1 s) := by
  unfold forceCommand
  split
  · refine Inv.ite ?_ ?_
    · extract_lets -merge -useContext +onlyGivenNames x2
      have h3 : Inv x2 := by
        unfold x2
        refine Inv.keep modRing_keeps rfl ?_
        exact hs
      try clear_value x2
      extract_lets -merge -useContext +onlyGivenNames x4
      try clear_value x4
      refine Inv.ite ?_ ?_
      · refine hf1 _ _ ?_
        exact h3
      · refine fcResult_inv ?_
        exact h3
    · exact hs
  · exact hs

theorem execForceSet_inv {b0 s} (hs : Inv s) : InvA (execForceSet b0 s) := by
  unfold execForceSet
  refine InvA.next ?_
  refine forceCommand_inv ?_ ?_
  · intro a0 s hs
    refine forceSet_inv ?_
    exact hs
  · refine begin'_inv ?_
    exact hs

theorem execForceClear_inv {b0 s} (hs : Inv s) : InvA (execForceClear b0 s) := by
  unfold execForceClear
  refine InvA.next ?_
  refine forceCommand_inv ?_ ?_
  · intro a0 s hs
    refine forceClear_inv ?_
    exact hs
  · refine begin'_inv ?_
    exact hs

theorem execForceClearAll_inv {b0 s} (hs : Inv s) : InvA (execForceClearAll b0 s) := by
  unfold execForceClearAll
  refine InvA.next ?_
  refine forceCommand_inv ?_ ?_
  · intro a0 s hs
    refine forceClearAll_inv ?_
    exact hs
  · refine begin'_inv ?_
    exact hs

theorem forceExpire_inv {b0 b1 s} (hs : Inv s) : Inv (forceExpire b0 b1 s) := by
  unfold forceExpire
  split
  · refine Inv.ite ?_ ?_
    · extract_lets -merge -useContext +onlyGivenNames x1
      refine emit_inv ?_
      refine Inv.keep cnt_keeps rfl ?_
      refine Inv.set_frc (fun h => ?_) ?_
      · exact Nat.le_trans (List.length_filter_le _ _) h.frc
      · exact hs
    · exact hs
  · exact hs

theorem execForceExpiry_inv {b0 b1 b2 s} (hs : Inv s) : InvA (execForceExpiry b0 b1 b2 s) := by
  unfold execForceExpiry
  extract_lets -merge -useContext +onlyGivenNames x0
  have h1 : Inv x0 := by
    unfold x0
    refine begin'_inv ?_
    exact hs
  try clear_value x0
  refine InvA.next ?_
  refine Inv.ite ?_ ?_
  · refine forceExpire_inv ?_
    exact h1
  · exact h1

end Sys2Proof.Machine
end

