-- ==== Sys2Proof/Laws/KeepsImage.lean ====
section
/-! SUPPORT. Frames of the functions of Machine/Image.lean: what each leaves alone, said once. The docstrings name the parts of `State` a function may write; the mask marks all others. -/

namespace Sys2Proof.Machine

/-- Writes at most: mem vm. -/
theorem loadCode_keeps {b0 b1 s} : Keeps 67102719 s (loadCode b0 b1 s) := by
  unfold loadCode
  extract_lets -merge -useContext +onlyGivenNames x0
  try clear_value x0
  extract_lets -merge -useContext +onlyGivenNames x1
  try clear_value x1
  extract_lets -merge -useContext +onlyGivenNames x2
  try clear_value x2
  extract_lets -merge -useContext +onlyGivenNames x3
  try clear_value x3
  extract_lets -merge -useContext +onlyGivenNames x4
  try clear_value x4
  extract_lets -merge -useContext +onlyGivenNames x5
  have h6 : Keeps 67102719 s x5 := by
    unfold x5
    exact Keeps.app (show Keeps 67102719 s _ from ⟨fun _ => rfl, fun _ => rfl, fun _ => rfl, fun _ => rfl, fun _ => rfl, fun _ => rfl, fun _ => rfl, fun _ => rfl, fun _ => rfl, fun _ => rfl, fun _ => rfl, fun h => noBit h rfl, fun h => noBit h rfl, fun _ => rfl, fun _ => rfl, fun _ => rfl, fun _ => rfl, fun _ => rfl, fun _ => rfl, fun _ => rfl, fun _ => rfl, fun _ => rfl, fun _ => rfl, fun _ => rfl, fun _ => rfl, fun _ => rfl⟩) Keeps.refl
  try clear_value x5
  extract_lets -merge -useContext +onlyGivenNames x7
  try clear_value x7
  refine Keeps.ite ?_ ?_
  · refine Keeps.app (wr_vm rfl) ?_
    exact h6
  · refine Keeps.app (wr_vm rfl) ?_
    exact h6

/-- Writes at most: sent mem vm lnk. -/
theorem putMapped_keeps {b0 b1 b2 s} : Keeps 50325501 s (putMapped b0 b1 b2 s) := by
  unfold putMapped
  refine Keeps.foldl ?_ _ ?_
  · intro s a0
    refine Keeps.step freshStore_keeps rfl ?_
    exact Keeps.refl
  · exact Keeps.refl

/-- Writes at most: sent mem vm lnk. -/
theorem initInstances_keeps {b0 s} : Keeps 50325501 s (initInstances b0 s) := by
  unfold initInstances
  extract_lets -merge -useContext +onlyGivenNames x0
  try clear_value x0
  extract_lets -merge -useContext +onlyGivenNames x1
  have h2 : Keeps 50325501 s x1 := by
    unfold x1
    refine Keeps.foldl ?_ _ ?_
    · intro s a3
      refine Keeps.step putMapped_keeps rfl ?_
      exact Keeps.refl
    · refine Keeps.app (wr_vm rfl) ?_
      exact Keeps.refl
  try clear_value x1
  refine Keeps.foldl ?_ _ ?_
  · intro s a4
    refine Keeps.app (wr_mem rfl) ?_
    exact Keeps.refl
  · exact h2

end Sys2Proof.Machine
end

