-- ==== Sys2Proof/Laws/InvImage.lean ====
section
/-! SUPPORT. The functions of Machine/Image.lean keep the invariant `Inv`. -/

namespace Sys2Proof.Machine

theorem loadCode_inv {b0 b1 s} (hs : Inv s) : Inv (loadCode b0 b1 s) := by
  unfold loadCode
  extract_lets -merge -useContext +onlyGivenNames x0
  try clear_value x0
  extract_lets -merge -useContext +onlyGivenNames x1
  try clear_value x1
  extract_lets -merge -useContext +onlyGivenNames x2
  try clear_value x2
  extract_lets -merge -useContext +onlyGivenNames x3
  try clear_value x3
  extract_lets -merge -useContext +onlyGivenNames x4
  try clear_value x4
  extract_lets -merge -useContext +onlyGivenNames x5
  have h6 : Inv x5 := by
    unfold x5
    have h := hs
    refine ⟨?_, h.cand, h.evr, h.frc, h.lat⟩
    · exact memSetList_wf (memErase_wf h.mem)
  try clear_value x5
  extract_lets -merge -useContext +onlyGivenNames x7
  try clear_value x7
  refine Inv.ite ?_ ?_
  · refine Inv.keep (wr_vm (m := 67104767) rfl) rfl ?_
    exact h6
  · refine Inv.keep (wr_vm (m := 67104767) rfl) rfl ?_
    exact h6

theorem putMapped_inv {b0 b1 b2 s} (hs : Inv s) : Inv (putMapped b0 b1 b2 s) := by
  unfold putMapped
  refine Inv.foldl ?_ _ ?_
  · intro s a0 hs
    refine freshStore_inv ?_
    exact hs
  · exact hs

theorem initInstances_inv {b0 s} (hs : Inv s) : Inv (initInstances b0 s) := by
  unfold initInstances
  extract_lets -merge -useContext +onlyGivenNames x0
  try clear_value x0
  extract_lets -merge -useContext +onlyGivenNames x1
  have h2 : Inv x1 := by
    unfold x1
    refine Inv.foldl ?_ _ ?_
    · intro s a3 hs
      refine putMapped_inv ?_
      exact hs
    · refine Inv.keep (wr_vm (m := 67104767) rfl) rfl ?_
      exact hs
  try clear_value x1
  refine Inv.foldl ?_ _ ?_
  · intro s a4 hs
    refine Inv.set_mem (fun h => ?_) ?_
    · exact storeBytes_wf h.mem
    · exact hs
  · exact h2

end Sys2Proof.Machine
end

