-- ==== Sys2Proof/Laws/KeepsXchg.lean ====
section
/-! SUPPORT. Frames of the functions of Machine/Xchg.lean: what each leaves alone, said once. The docstrings name the parts of `State` a function may write; the mask marks all others. -/

namespace Sys2Proof.Machine

/-- Writes at most: regs evr. -/
theorem xchRefuse_keeps {b0 b1 s} : Keeps 64995327 s (xchRefuse b0 b1 s) := by
  unfold xchRefuse
  refine Keeps.step xchRecord_keeps rfl ?_
  refine Keeps.step xchReason_keeps rfl ?_
  exact Keeps.refl

/-- Writes at most: vm xch regs evr upd. -/
theorem xchReject_keeps {b0 b1 s} : Keeps 56594431 s (xchReject b0 b1 s) := by
  unfold xchReject
  refine Keeps.step xchDiscard_keeps rfl ?_
  refine Keeps.step xchRefuse_keeps rfl ?_
  exact Keeps.refl

/-- Writes at most: regs evr. -/
theorem eventPerKind_keeps {b0 b1 b2 s} : Keeps 64995327 s (eventPerKind b0 b1 b2 s) := by
  unfold eventPerKind
  refine Keeps.foldl ?_ _ ?_
  · intro s a0
    refine Keeps.ite ?_ ?_
    · split
      · refine Keeps.step imageEvent_keeps rfl ?_
        exact Keeps.refl
      · exact Keeps.refl
    · exact Keeps.refl
  · exact Keeps.refl

/-- Writes at most: cand regs evr upd. -/
theorem trialSelect_keeps {b0 b1 b2 s} : Keeps 56606687 s (trialSelect b0 b1 b2 s) := by
  unfold trialSelect
  split
  · extract_lets -merge -useContext +onlyGivenNames x1
    have h2 : Keeps 56606687 s x1 := by
      unfold x1
      refine Keeps.step writeSelector_keeps rfl ?_
      exact Keeps.refl
    try clear_value x1
    refine Keeps.step eventPerKind_keeps rfl ?_
    refine Keeps.app (wr_upd rfl) ?_
    exact h2
  · exact Keeps.refl

/-- Writes at most: cand regs evr upd. -/
theorem rollbackSelect_keeps {s} : Keeps 56606687 s (rollbackSelect s) := by
  unfold rollbackSelect
  split
  · extract_lets -merge -useContext +onlyGivenNames x1
    have h2 : Keeps 56606687 s x1 := by
      unfold x1
      refine Keeps.step writeSelector_keeps rfl ?_
      exact Keeps.refl
    try clear_value x1
    refine Keeps.step eventPerKind_keeps rfl ?_
    refine Keeps.app (wr_upd rfl) ?_
    exact h2
  · exact Keeps.refl

/-- Writes at most: vm xch. -/
theorem startLoading_keeps {b0 s} : Keeps 67096575 s (startLoading b0 s) := by
  unfold startLoading
  extract_lets -merge -useContext +onlyGivenNames x0
  try clear_value x0
  extract_lets -merge -useContext +onlyGivenNames x1
  try clear_value x1
  extract_lets -merge -useContext +onlyGivenNames x2
  have h3 : Keeps 67096575 s x2 := by
    unfold x2
    refine Keeps.app (wr_xch rfl) ?_
    exact Keeps.refl
  try clear_value x2
  refine Keeps.ite ?_ ?_
  · refine Keeps.app (wr_vm rfl) ?_
    exact h3
  · refine Keeps.app (wr_vm rfl) ?_
    exact h3

/-- Writes at most: vm xch regs evr. -/
theorem xchLoad_keeps {b0 s} : Keeps 64983039 s (xchLoad b0 s) := by
  unfold xchLoad
  refine Keeps.ite ?_ ?_
  · refine Keeps.step startLoading_keeps rfl ?_
    exact Keeps.refl
  · refine Keeps.step xchRefuse_keeps rfl ?_
    exact Keeps.refl

/-- Writes at most: sent lnk. -/
theorem xchMirror_keeps {b0 s} : Keeps 50331645 s (xchMirror b0 s) := by
  unfold xchMirror
  refine Keeps.step mirror_keeps rfl ?_
  exact Keeps.refl

/-- Writes at most: sent clk civ cand pwr tri prg frc vm xch regs bus rings fio snu evr upd lnk. -/
theorem execXchgLoad_keeps {b0 b1 s} : Answers 38078725 s (execXchgLoad b0 b1 s) := by
  unfold execXchgLoad
  refine Answers.next ?_
  refine Keeps.app (blockCommand_keeps ?_ rfl) ?_
  · intro s
    refine Keeps.step xchLoad_keeps rfl ?_
    refine Keeps.step xchMirror_keeps rfl ?_
    exact Keeps.refl
  · refine Keeps.step begin'_keeps rfl ?_
    exact Keeps.refl

/-- Writes at most: sent clk civ cand prg mem vm xch regs bus evr upd lnk. -/
theorem execXchgLoadDone_keeps {b0 b1 s} : Answers 39781829 s (execXchgLoadDone b0 b1 s) := by
  unfold execXchgLoadDone
  extract_lets -merge -useContext +onlyGivenNames x0
  have h1 : Keeps 39781829 s x0 := by
    unfold x0
    refine Keeps.step begin'_keeps rfl ?_
    exact Keeps.refl
  try clear_value x0
  refine Answers.next ?_
  refine Keeps.ite ?_ ?_
  · refine Keeps.ite ?_ ?_
    · refine Keeps.step setRv_keeps rfl ?_
      refine Keeps.step loadCode_keeps rfl ?_
      refine Keeps.app (wr_xch rfl) ?_
      exact h1
    · refine Keeps.step xchReject_keeps rfl ?_
      exact h1
  · exact h1

/-- Writes at most: xch regs. -/
theorem startPreparing_keeps {s} : Keeps 67084287 s (startPreparing s) := by
  unfold startPreparing
  extract_lets -merge -useContext +onlyGivenNames x0
  try clear_value x0
  extract_lets -merge -useContext +onlyGivenNames x1
  have h2 : Keeps 67084287 s x1 := by
    unfold x1
    refine Keeps.step setRf_keeps rfl ?_
    refine Keeps.app (wr_xch rfl) ?_
    exact Keeps.refl
  try clear_value x1
  split
  · refine Keeps.app (wr_xch rfl) ?_
    exact h2
  · exact h2

/-- Writes at most: sent clk civ cand prg vm xch regs bus evr upd lnk cfg. -/
theorem execXchgCheckDone_keeps {b0 s} : Answers 6229445 s (execXchgCheckDone b0 s) := by
  unfold execXchgCheckDone
  extract_lets -merge -useContext +onlyGivenNames x0
  have h1 : Keeps 6229445 s x0 := by
    unfold x0
    refine Keeps.step begin'_keeps rfl ?_
    exact Keeps.refl
  try clear_value x0
  refine Answers.next ?_
  refine Keeps.ite ?_ ?_
  · extract_lets -merge -useContext +onlyGivenNames x2
    try clear_value x2
    refine Keeps.ite ?_ ?_
    · refine Keeps.step startPreparing_keeps rfl ?_
      exact h1
    · refine Keeps.step xchReject_keeps rfl ?_
      exact h1
  · exact h1

/-- Writes at most: xch regs evr. -/
theorem xchArm_keeps {b0 b1 s} : Keeps 64987135 s (xchArm b0 b1 s) := by
  unfold xchArm
  extract_lets -merge -useContext +onlyGivenNames x0
  try clear_value x0
  refine Keeps.ite ?_ ?_
  · refine Keeps.step setRf_keeps rfl ?_
    refine Keeps.app (wr_xch rfl) ?_
    exact Keeps.refl
  · refine Keeps.step xchRefuse_keeps rfl ?_
    exact Keeps.refl

/-- Writes at most: sent clk civ cand pwr tri prg frc vm xch regs bus rings fio snu evr upd lnk. -/
theorem execXchgArm_keeps {b0 s} : Answers 38078725 s (execXchgArm b0 s) := by
  unfold execXchgArm
  refine Answers.next ?_
  refine Keeps.app (blockCommand_keeps ?_ rfl) ?_
  · intro s
    extract_lets -merge -useContext +onlyGivenNames x0
    have h1 : Keeps 38078725 s x0 := by
      unfold x0
      refine Keeps.step xchMirror_keeps rfl ?_
      exact Keeps.refl
    try clear_value x0
    refine Keeps.step xchArm_keeps rfl ?_
    exact h1
  · refine Keeps.step begin'_keeps rfl ?_
    exact Keeps.refl

/-- Writes at most: vm xch regs evr upd. -/
theorem xchStop_keeps {b0 b1 s} : Keeps 56594431 s (xchStop b0 b1 s) := by
  unfold xchStop
  extract_lets -merge -useContext +onlyGivenNames x0
  have h1 : Keeps 56594431 s x0 := by
    unfold x0
    refine Keeps.step xchAbort_keeps rfl ?_
    exact Keeps.refl
  try clear_value x0
  refine Keeps.ite ?_ ?_
  · refine Keeps.app (wr_xch rfl) ?_
    exact h1
  · exact h1

/-- Writes at most: vm xch regs evr upd. -/
theorem xchDisarm_keeps {s} : Keeps 56594431 s (xchDisarm s) := by
  unfold xchDisarm
  split
  · refine Keeps.step xchStop_keeps rfl ?_
    exact Keeps.refl
  · refine Keeps.step xchStop_keeps rfl ?_
    exact Keeps.refl
  · refine Keeps.step xchStop_keeps rfl ?_
    exact Keeps.refl
  · refine Keeps.step xchStop_keeps rfl ?_
    exact Keeps.refl
  · refine Keeps.step xchStop_keeps rfl ?_
    exact Keeps.refl
  · refine Keeps.step xchStop_keeps rfl ?_
    exact Keeps.refl
  · exact Keeps.refl

/-- Writes at most: sent clk civ cand pwr tri prg frc vm xch regs bus rings fio snu evr upd lnk. -/
theorem execXchgDisarm_keeps {b0 s} : Answers 38078725 s (execXchgDisarm b0 s) := by
  unfold execXchgDisarm
  refine Answers.next ?_
  refine Keeps.app (blockCommand_keeps ?_ rfl) ?_
  · intro s
    refine Keeps.step xchDisarm_keeps rfl ?_
    refine Keeps.step xchMirror_keeps rfl ?_
    exact Keeps.refl
  · refine Keeps.step begin'_keeps rfl ?_
    exact Keeps.refl

/-- Writes at most: sent xch lnk. -/
theorem openWindow_keeps {s} : Keeps 50323453 s (openWindow s) := by
  unfold openWindow
  extract_lets -merge -useContext +onlyGivenNames x0
  have h1 : Keeps 50323453 s x0 := by
    unfold x0
    refine Keeps.step mirror_keeps rfl ?_
    exact Keeps.refl
  try clear_value x0
  refine Keeps.app (wr_xch rfl) ?_
  exact h1

/-- Writes at most: sent clk civ cand prg xch bus lnk. -/
theorem execXchgWindow_keeps {b0 s} : Answers 50290117 s (execXchgWindow b0 s) := by
  unfold execXchgWindow
  extract_lets -merge -useContext +onlyGivenNames x0
  have h1 : Keeps 50290117 s x0 := by
    unfold x0
    refine Keeps.step begin'_keeps rfl ?_
    exact Keeps.refl
  try clear_value x0
  refine Answers.next ?_
  refine Keeps.ite ?_ ?_
  · refine Keeps.step openWindow_keeps rfl ?_
    exact h1
  · exact h1

/-- Writes at most: prg xch. -/
theorem resumeTrigger_keeps {s b1} : Keeps 67100159 s (resumeTrigger s b1) := by
  unfold resumeTrigger
  split
  · extract_lets -merge -useContext +onlyGivenNames x1
    have h2 : Keeps 67100159 s x1 := by
      unfold x1
      refine Keeps.step trigger_keeps rfl ?_
      exact Keeps.refl
    try clear_value x1
    extract_lets -merge -useContext +onlyGivenNames x3
    try clear_value x3
    extract_lets -merge -useContext +onlyGivenNames x4
    try clear_value x4
    extract_lets -merge -useContext +onlyGivenNames x5
    try clear_value x5
    refine Keeps.ite ?_ ?_
    · extract_lets -merge -useContext +onlyGivenNames x6
      try clear_value x6
      refine Keeps.step release_keeps rfl ?_
      exact h2
    · exact h2
  · exact Keeps.refl

/-- Writes at most: prg. -/
theorem followRelease_keeps {s b1} : Keeps 67108351 s (followRelease s b1) := by
  unfold followRelease
  split
  · refine Keeps.ite ?_ ?_
    · exact Keeps.refl
    · refine Keeps.step release_keeps rfl ?_
      exact Keeps.refl
  · exact Keeps.refl

/-- Writes at most: prg xch. -/
theorem followAbort_keeps {s} : Keeps 67100159 s (followAbort s) := by
  unfold followAbort
  extract_lets -merge -useContext +onlyGivenNames x0
  have h1 : Keeps 67100159 s x0 := by
    unfold x0
    refine Keeps.ite ?_ ?_
    · refine Keeps.foldl ?_ _ ?_
      · intro s a2
        refine Keeps.step resumeTrigger_keeps rfl ?_
        exact Keeps.refl
      · refine Keeps.foldl ?_ _ ?_
        · intro s a3
          refine Keeps.step followRelease_keeps rfl ?_
          exact Keeps.refl
        · exact Keeps.refl
    · exact Keeps.refl
  try clear_value x0
  refine Keeps.app (wr_xch rfl) ?_
  exact h1

end Sys2Proof.Machine
end

