-- ==== Sys2Proof/Laws/InvXchg.lean ====
section
/-! SUPPORT. The functions of Machine/Xchg.lean keep the invariant `Inv`. -/

namespace Sys2Proof.Machine

theorem xchRefuse_inv {b0 b1 s} (hs : Inv s) : Inv (xchRefuse b0 b1 s) := by
  unfold xchRefuse
  refine xchRecord_inv ?_
  refine Inv.keep xchReason_keeps rfl ?_
  exact hs

theorem xchReject_inv {b0 b1 s} (hs : Inv s) : Inv (xchReject b0 b1 s) := by
  unfold xchReject
  refine Inv.keep xchDiscard_keeps rfl ?_
  refine xchRefuse_inv ?_
  exact hs

theorem eventPerKind_inv {b0 b1 b2 s} (hs : Inv s) : Inv (eventPerKind b0 b1 b2 s) := by
  unfold eventPerKind
  refine Inv.foldl ?_ _ ?_
  · intro s a0 hs
    refine Inv.ite ?_ ?_
    · split
      · refine imageEvent_inv ?_
        exact hs
      · exact hs
    · exact hs
  · exact hs

theorem trialSelect_inv {b0 b1 b2 s} (hs : Inv s) : Inv (trialSelect b0 b1 b2 s) := by
  unfold trialSelect
  split
  · extract_lets -merge -useContext +onlyGivenNames x1
    have h2 : Inv x1 := by
      unfold x1
      refine writeSelector_inv ?_
      exact hs
    try clear_value x1
    refine eventPerKind_inv ?_
    refine Inv.keep (wr_upd (m := 58720255) rfl) rfl ?_
    exact h2
  · exact hs

theorem rollbackSelect_inv {s} (hs : Inv s) : Inv (rollbackSelect s) := by
  unfold rollbackSelect
  split
  · extract_lets -merge -useContext +onlyGivenNames x1
    have h2 : Inv x1 := by
      unfold x1
      refine writeSelector_inv ?_
      exact hs
    try clear_value x1
    refine eventPerKind_inv ?_
    refine Inv.keep (wr_upd (m := 58720255) rfl) rfl ?_
    exact h2
  · exact hs

theorem xchLoad_inv {b0 s} (hs : Inv s) : Inv (xchLoad b0 s) := by
  unfold xchLoad
  refine Inv.ite ?_ ?_
  · refine Inv.keep startLoading_keeps rfl ?_
    exact hs
  · refine xchRefuse_inv ?_
    exact hs

theorem execXchgLoad_inv {b0 b1 s} (hs : Inv s) : InvA (execXchgLoad b0 b1 s) := by
  unfold execXchgLoad
  refine InvA.next ?_
  refine blockCommand_inv ?_ ?_
  · intro s hs
    refine xchLoad_inv ?_
    refine Inv.keep xchMirror_keeps rfl ?_
    exact hs
  · refine begin'_inv ?_
    exact hs

theorem execXchgLoadDone_inv {b0 b1 s} (hs : Inv s) : InvA (execXchgLoadDone b0 b1 s) := by
  unfold execXchgLoadDone
  extract_lets -merge -useContext +onlyGivenNames x0
  have h1 : Inv x0 := by
    unfold x0
    refine begin'_inv ?_
    exact hs
  try clear_value x0
  refine InvA.next ?_
  refine Inv.ite ?_ ?_
  · refine Inv.ite ?_ ?_
    · refine Inv.keep setRv_keeps rfl ?_
      refine loadCode_inv ?_
      refine Inv.keep (wr_xch (m := 67100671) rfl) rfl ?_
      exact h1
    · refine xchReject_inv ?_
      exact h1
  · exact h1

theorem execXchgCheckDone_inv {b0 s} (hs : Inv s) : InvA (execXchgCheckDone b0 s) := by
  unfold execXchgCheckDone
  extract_lets -merge -useContext +onlyGivenNames x0
  have h1 : Inv x0 := by
    unfold x0
    refine begin'_inv ?_
    exact hs
  try clear_value x0
  refine InvA.next ?_
  refine Inv.ite ?_ ?_
  · extract_lets -merge -useContext +onlyGivenNames x2
    try clear_value x2
    refine Inv.ite ?_ ?_
    · refine Inv.keep startPreparing_keeps rfl ?_
      exact h1
    · refine xchReject_inv ?_
      exact h1
  · exact h1

theorem xchArm_inv {b0 b1 s} (hs : Inv s) : Inv (xchArm b0 b1 s) := by
  unfold xchArm
  extract_lets -merge -useContext +onlyGivenNames x0
  try clear_value x0
  refine Inv.ite ?_ ?_
  · refine Inv.keep setRf_keeps rfl ?_
    refine Inv.keep (wr_xch (m := 67100671) rfl) rfl ?_
    exact hs
  · refine xchRefuse_inv ?_
    exact hs

theorem execXchgArm_inv {b0 s} (hs : Inv s) : InvA (execXchgArm b0 s) := by
  unfold execXchgArm
  refine InvA.next ?_
  refine blockCommand_inv ?_ ?_
  · intro s hs
    extract_lets -merge -useContext +onlyGivenNames x0
    have h1 : Inv x0 := by
      unfold x0
      refine Inv.keep xchMirror_keeps rfl ?_
      exact hs
    try clear_value x0
    refine xchArm_inv ?_
    exact h1
  · refine begin'_inv ?_
    exact hs

theorem xchStop_inv {b0 b1 s} (hs : Inv s) : Inv (xchStop b0 b1 s) := by
  unfold xchStop
  extract_lets -merge -useContext +onlyGivenNames x0
  have h1 : Inv x0 := by
    unfold x0
    refine xchAbort_inv ?_
    exact hs
  try clear_value x0
  refine Inv.ite ?_ ?_
  · refine Inv.keep (wr_xch (m := 67100671) rfl) rfl ?_
    exact h1
  · exact h1

theorem xchDisarm_inv {s} (hs : Inv s) : Inv (xchDisarm s) := by
  unfold xchDisarm
  split
  · refine xchStop_inv ?_
    exact hs
  · refine xchStop_inv ?_
    exact hs
  · refine xchStop_inv ?_
    exact hs
  · refine xchStop_inv ?_
    exact hs
  · refine xchStop_inv ?_
    exact hs
  · refine xchStop_inv ?_
    exact hs
  · exact hs

theorem execXchgDisarm_inv {b0 s} (hs : Inv s) : InvA (execXchgDisarm b0 s) := by
  unfold execXchgDisarm
  refine InvA.next ?_
  refine blockCommand_inv ?_ ?_
  · intro s hs
    refine xchDisarm_inv ?_
    refine Inv.keep xchMirror_keeps rfl ?_
    exact hs
  · refine begin'_inv ?_
    exact hs

theorem execXchgWindow_inv {b0 s} (hs : Inv s) : InvA (execXchgWindow b0 s) := by
  unfold execXchgWindow
  extract_lets -merge -useContext +onlyGivenNames x0
  have h1 : Inv x0 := by
    unfold x0
    refine begin'_inv ?_
    exact hs
  try clear_value x0
  refine InvA.next ?_
  refine Inv.ite ?_ ?_
  · refine Inv.keep openWindow_keeps rfl ?_
    exact h1
  · exact h1

end Sys2Proof.Machine
end

