-- ==== Sys2Proof/Laws/KeepsPower.lean ====
section
/-! SUPPORT. Frames of the functions of Machine/Power.lean: what each leaves alone, said once. The docstrings name the parts of `State` a function may write; the mask marks all others. -/

namespace Sys2Proof.Machine

/-- Writes at most: clk civ cand pwr tri dbg prg frc mem vm xch regs bus tel rings lat fio snu evr sta upd lnk cfg. -/
theorem hardReset_keeps {s} : Keeps 7 s (hardReset s) := by
  unfold hardReset
  exact Keeps.app (show Keeps 7 s _ from ⟨fun _ => rfl, fun _ => rfl, fun _ => rfl, fun h => noBit h rfl, fun h => noBit h rfl, fun h => noBit h rfl, fun h => noBit h rfl, fun h => noBit h rfl, fun h => noBit h rfl, fun h => noBit h rfl, fun h => noBit h rfl, fun h => noBit h rfl, fun h => noBit h rfl, fun h => noBit h rfl, fun h => noBit h rfl, fun h => noBit h rfl, fun h => noBit h rfl, fun h => noBit h rfl, fun h => noBit h rfl, fun h => noBit h rfl, fun h => noBit h rfl, fun h => noBit h rfl, fun h => noBit h rfl, fun h => noBit h rfl, fun h => noBit h rfl, fun h => noBit h rfl⟩) Keeps.refl

/-- Writes at most: sent clk civ cand pwr tri dbg prg frc mem vm xch regs bus tel rings lat fio snu evr sta upd lnk cfg. -/
theorem execNrstLow_keeps {b0 b1 s} : Answers 5 s (execNrstLow b0 b1 s) := by
  unfold execNrstLow
  extract_lets -merge -useContext +onlyGivenNames x0
  have h1 : Keeps 5 s x0 := by
    unfold x0
    refine Keeps.step begin'_keeps rfl ?_
    exact Keeps.refl
  try clear_value x0
  refine Answers.next ?_
  refine Keeps.ite ?_ ?_
  · exact h1
  · extract_lets -merge -useContext +onlyGivenNames x2
    have h3 : Keeps 5 s x2 := by
      unfold x2
      refine Keeps.step hardReset_keeps rfl ?_
      exact h1
    try clear_value x2
    refine Keeps.app (wr_pwr rfl) ?_
    exact h3

/-- Writes at most: clk civ cand pwr tri dbg prg frc mem vm xch regs bus tel rings lat fio snu evr sta upd lnk cfg. -/
theorem powerOff_keeps {s} : Keeps 7 s (powerOff s) := by
  unfold powerOff
  extract_lets -merge -useContext +onlyGivenNames x0
  have h1 : Keeps 7 s x0 := by
    unfold x0
    refine Keeps.step hardReset_keeps rfl ?_
    exact Keeps.refl
  try clear_value x0
  exact Keeps.app (show Keeps 7 x0 _ from ⟨fun _ => rfl, fun _ => rfl, fun _ => rfl, fun _ => rfl, fun _ => rfl, fun _ => rfl, fun h => noBit h rfl, fun h => noBit h rfl, fun h => noBit h rfl, fun _ => rfl, fun _ => rfl, fun _ => rfl, fun _ => rfl, fun _ => rfl, fun _ => rfl, fun _ => rfl, fun _ => rfl, fun _ => rfl, fun _ => rfl, fun _ => rfl, fun _ => rfl, fun _ => rfl, fun _ => rfl, fun _ => rfl, fun _ => rfl, fun _ => rfl⟩) h1

/-- Writes at most: sent clk civ cand pwr tri dbg prg frc mem vm xch regs bus tel rings lat fio snu evr sta upd lnk cfg. -/
theorem execVinLoss_keeps {b0 s} : Answers 5 s (execVinLoss b0 s) := by
  unfold execVinLoss
  refine Answers.next ?_
  refine Keeps.step powerOff_keeps rfl ?_
  refine Keeps.step begin'_keeps rfl ?_
  exact Keeps.refl

/-- Writes at most: cand. -/
theorem writeSd_keeps {b0 s} : Keeps 67108831 s (writeSd b0 s) := by
  unfold writeSd
  refine Keeps.ite ?_ ?_
  · exact Keeps.refl
  · extract_lets -merge -useContext +onlyGivenNames x0
    try clear_value x0
    split
    · refine Keeps.app (wr_cand rfl) ?_
      exact Keeps.refl
    · refine Keeps.app (wr_cand rfl) ?_
      exact Keeps.refl
    · refine Keeps.ite ?_ ?_
      · refine Keeps.app (wr_cand rfl) ?_
        exact Keeps.refl
      · refine Keeps.app (wr_cand rfl) ?_
        exact Keeps.refl

/-- Writes at most: cand. -/
theorem writeAnchor_keeps {b0 s} : Keeps 67108831 s (writeAnchor b0 s) := by
  unfold writeAnchor
  refine Keeps.ite ?_ ?_
  · exact Keeps.refl
  · extract_lets -merge -useContext +onlyGivenNames x0
    try clear_value x0
    split
    · refine Keeps.app (wr_cand rfl) ?_
      exact Keeps.refl
    · refine Keeps.app (wr_cand rfl) ?_
      exact Keeps.refl
    · refine Keeps.ite ?_ ?_
      · refine Keeps.app (wr_cand rfl) ?_
        exact Keeps.refl
      · refine Keeps.app (wr_cand rfl) ?_
        exact Keeps.refl

/-- Writes at most: regs evr. -/
theorem candleRecords_keeps {b0 s} : Keeps 64995327 s (candleRecords b0 s) := by
  unfold candleRecords
  refine Keeps.foldl ?_ _ ?_
  · intro s a0
    refine Keeps.step nvEvent_keeps rfl ?_
    exact Keeps.refl
  · exact Keeps.refl

/-- Writes at most: civ cand regs tel sta. -/
theorem candleState_keeps {b0 s} : Keeps 62832591 s (candleState b0 s) := by
  unfold candleState
  extract_lets -merge -useContext +onlyGivenNames x0
  try clear_value x0
  extract_lets -merge -useContext +onlyGivenNames x1
  have h2 : Keeps 62832591 s x1 := by
    unfold x1
    refine Keeps.step vbakTake_keeps rfl ?_
    refine Keeps.app (wr_cand rfl) ?_
    exact Keeps.refl
  try clear_value x1
  extract_lets -merge -useContext +onlyGivenNames x3
  try clear_value x3
  extract_lets -merge -useContext +onlyGivenNames x4
  try clear_value x4
  extract_lets -merge -useContext +onlyGivenNames x5
  have h6 : Keeps 62832591 s x5 := by
    unfold x5
    refine Keeps.ite ?_ ?_
    · refine Keeps.step setRf_keeps rfl ?_
      exact h2
    · exact h2
  try clear_value x5
  exact Keeps.app (show Keeps 62832591 x5 _ from ⟨fun _ => rfl, fun _ => rfl, fun _ => rfl, fun _ => rfl, fun h => noBit h rfl, fun _ => rfl, fun _ => rfl, fun _ => rfl, fun _ => rfl, fun _ => rfl, fun _ => rfl, fun _ => rfl, fun _ => rfl, fun _ => rfl, fun _ => rfl, fun _ => rfl, fun h => noBit h rfl, fun _ => rfl, fun _ => rfl, fun _ => rfl, fun _ => rfl, fun _ => rfl, fun h => noBit h rfl, fun _ => rfl, fun _ => rfl, fun _ => rfl⟩) h6

/-- Writes at most: cand. -/
theorem consumeSd_keeps {s} : Keeps 67108831 s (consumeSd s) := by
  unfold consumeSd
  split
  · refine Keeps.step writeSd_keeps rfl ?_
    refine Keeps.app (wr_cand rfl) ?_
    exact Keeps.refl
  · refine Keeps.app (wr_cand rfl) ?_
    exact Keeps.refl

/-- Writes at most: cand regs evr. -/
theorem recorderStart_keeps {b0 s} : Keeps 64995295 s (recorderStart b0 s) := by
  unfold recorderStart
  extract_lets -merge -useContext +onlyGivenNames x0
  try clear_value x0
  extract_lets -merge -useContext +onlyGivenNames x1
  try clear_value x1
  extract_lets -merge -useContext +onlyGivenNames x2
  try clear_value x2
  extract_lets -merge -useContext +onlyGivenNames x3
  try clear_value x3
  extract_lets -merge -useContext +onlyGivenNames x4
  try clear_value x4
  extract_lets -merge -useContext +onlyGivenNames x5
  have h6 : Keeps 64995295 s x5 := by
    unfold x5
    refine Keeps.app (wr_evr rfl) ?_
    exact Keeps.refl
  try clear_value x5
  extract_lets -merge -useContext +onlyGivenNames x7
  have h8 : Keeps 64995295 s x7 := by
    unfold x7
    refine Keeps.step writeLight_keeps rfl ?_
    exact h6
  try clear_value x7
  extract_lets -merge -useContext +onlyGivenNames x9
  try clear_value x9
  extract_lets -merge -useContext +onlyGivenNames x10
  have h11 : Keeps 64995295 s x10 := by
    unfold x10
    refine Keeps.app (wr_evr rfl) ?_
    exact h8
  try clear_value x10
  refine Keeps.step emit_keeps rfl ?_
  exact h11

/-- Writes at most: cand regs evr. -/
theorem trialCount_keeps {s} : Keeps 64995295 s (trialCount s) := by
  unfold trialCount
  split
  · refine Keeps.ite ?_ ?_
    · refine Keeps.ite ?_ ?_
      · refine Keeps.step imageEvent_keeps rfl ?_
        refine Keeps.step writeSelector_keeps rfl ?_
        exact Keeps.refl
      · refine Keeps.step writeSelector_keeps rfl ?_
        exact Keeps.refl
    · exact Keeps.refl
  · exact Keeps.refl

/-- Writes at most: mem vm. -/
theorem loadSlot_keeps {b0 s} : Keeps 67102719 s (loadSlot b0 s) := by
  unfold loadSlot
  split
  · refine Keeps.ite ?_ ?_
    · refine Keeps.step loadCode_keeps rfl ?_
      refine Keeps.app (wr_vm rfl) ?_
      exact Keeps.refl
    · exact Keeps.refl
  · exact Keeps.refl

/-- Writes at most: cand mem vm regs evr. -/
theorem bankSelection_keeps {b0 s} : Keeps 64989151 s (bankSelection b0 s).2 := by
  unfold bankSelection
  split
  · refine Keeps.ite2 ?_ ?_
    · refine Keeps.mkSnd ?_
      exact Keeps.refl
    · refine Keeps.ite2 ?_ ?_
      · extract_lets -merge -useContext +onlyGivenNames x1
        have h2 : Keeps 64989151 s x1 := by
          unfold x1
          refine Keeps.step loadSlot_keeps rfl ?_
          refine Keeps.step imageEvent_keeps rfl ?_
          refine Keeps.step writeSelector_keeps rfl ?_
          exact Keeps.refl
        try clear_value x1
        refine Keeps.mkSnd ?_
        exact h2
      · refine Keeps.mkSnd ?_
        exact Keeps.refl
  · refine Keeps.mkSnd ?_
    exact Keeps.refl

/-- Writes at most: cand pwr tri. -/
theorem bootStop_keeps {b0 b1 s} : Keeps 67108639 s (bootStop b0 b1 s) := by
  unfold bootStop
  exact Keeps.app (show Keeps 67108639 s _ from ⟨fun _ => rfl, fun _ => rfl, fun _ => rfl, fun _ => rfl, fun _ => rfl, fun h => noBit h rfl, fun h => noBit h rfl, fun h => noBit h rfl, fun _ => rfl, fun _ => rfl, fun _ => rfl, fun _ => rfl, fun _ => rfl, fun _ => rfl, fun _ => rfl, fun _ => rfl, fun _ => rfl, fun _ => rfl, fun _ => rfl, fun _ => rfl, fun _ => rfl, fun _ => rfl, fun _ => rfl, fun _ => rfl, fun _ => rfl, fun _ => rfl⟩) Keeps.refl

/-- Writes at most: cand pwr. -/
theorem bootNoConfig_keeps {s} : Keeps 67108767 s (bootNoConfig s) := by
  unfold bootNoConfig
  exact Keeps.app (show Keeps 67108767 s _ from ⟨fun _ => rfl, fun _ => rfl, fun _ => rfl, fun _ => rfl, fun _ => rfl, fun h => noBit h rfl, fun h => noBit h rfl, fun _ => rfl, fun _ => rfl, fun _ => rfl, fun _ => rfl, fun _ => rfl, fun _ => rfl, fun _ => rfl, fun _ => rfl, fun _ => rfl, fun _ => rfl, fun _ => rfl, fun _ => rfl, fun _ => rfl, fun _ => rfl, fun _ => rfl, fun _ => rfl, fun _ => rfl, fun _ => rfl, fun _ => rfl⟩) Keeps.refl

/-- Writes at most: tri. -/
theorem lightLane_keeps {b0 s} : Keeps 67108735 s (lightLane b0 s) := by
  unfold lightLane
  refine Keeps.step loadDelays_keeps rfl ?_
  refine Keeps.step laneTo_keeps rfl ?_
  exact Keeps.refl

/-- Writes at most: cand tel. -/
theorem newSessions_keeps {b0 s} : Keeps 67043295 s (newSessions b0 s) := by
  unfold newSessions
  split
  · extract_lets -merge -useContext +onlyGivenNames x1
    try clear_value x1
    refine Keeps.ite ?_ ?_
    · exact Keeps.app (show Keeps 67043295 s _ from ⟨fun _ => rfl, fun _ => rfl, fun _ => rfl, fun _ => rfl, fun _ => rfl, fun h => noBit h rfl, fun _ => rfl, fun _ => rfl, fun _ => rfl, fun _ => rfl, fun _ => rfl, fun _ => rfl, fun _ => rfl, fun _ => rfl, fun _ => rfl, fun _ => rfl, fun h => noBit h rfl, fun _ => rfl, fun _ => rfl, fun _ => rfl, fun _ => rfl, fun _ => rfl, fun _ => rfl, fun _ => rfl, fun _ => rfl, fun _ => rfl⟩) Keeps.refl
    · exact Keeps.refl
  · exact Keeps.refl

/-- Writes at most: civ cand prg mem regs tel lnk cfg. -/
theorem takeCfg_keeps {b0 b1 s} : Keeps 16692687 s (takeCfg b0 b1 s) := by
  unfold takeCfg
  extract_lets -merge -useContext +onlyGivenNames x0
  have h1 : Keeps 16692687 s x0 := by
    unfold x0
    refine Keeps.app (wr_mem rfl) ?_
    exact Keeps.refl
  try clear_value x0
  extract_lets -merge -useContext +onlyGivenNames x2
  try clear_value x2
  extract_lets -merge -useContext +onlyGivenNames x3
  try clear_value x3
  extract_lets -merge -useContext +onlyGivenNames x4
  have h5 : Keeps 16692687 s x4 := by
    unfold x4
    exact Keeps.app (show Keeps 16692687 x0 _ from ⟨fun _ => rfl, fun _ => rfl, fun _ => rfl, fun _ => rfl, fun _ => rfl, fun _ => rfl, fun _ => rfl, fun _ => rfl, fun _ => rfl, fun h => noBit h rfl, fun _ => rfl, fun _ => rfl, fun _ => rfl, fun _ => rfl, fun _ => rfl, fun _ => rfl, fun _ => rfl, fun _ => rfl, fun _ => rfl, fun _ => rfl, fun _ => rfl, fun _ => rfl, fun _ => rfl, fun _ => rfl, fun h => noBit h rfl, fun h => noBit h rfl⟩) h1
  try clear_value x4
  extract_lets -merge -useContext +onlyGivenNames x6
  have h7 : Keeps 16692687 s x6 := by
    unfold x6
    refine Keeps.step setRf_keeps rfl ?_
    exact h5
  try clear_value x6
  extract_lets -merge -useContext +onlyGivenNames x8
  try clear_value x8
  extract_lets -merge -useContext +onlyGivenNames x9
  have h10 : Keeps 16692687 s x9 := by
    unfold x9
    refine Keeps.app (wr_civ rfl) ?_
    exact h7
  try clear_value x9
  refine Keeps.step newSessions_keeps rfl ?_
  exact h10

/-- Writes at most: sent mem vm regs lnk. -/
theorem takeProg_keeps {b0 s} : Keeps 50309117 s (takeProg b0 s) := by
  unfold takeProg
  refine Keeps.ite ?_ ?_
  · split
    · refine Keeps.step initInstances_keeps rfl ?_
      refine Keeps.step setRv_keeps rfl ?_
      exact Keeps.refl
    · exact Keeps.refl
  · exact Keeps.refl

/-- Writes at most: upd. -/
theorem trialState_keeps {b0 s} : Keeps 58720255 s (trialState b0 s) := by
  unfold trialState
  refine Keeps.ite ?_ ?_
  · refine Keeps.app (wr_upd rfl) ?_
    exact Keeps.refl
  · exact Keeps.refl

/-- Writes at most: sent cand pwr tri prg mem vm xch regs rings lat fio snu evr upd. -/
theorem startFree_keeps {b0 s} : Keeps 54625565 s (startFree b0 s) := by
  unfold startFree
  extract_lets -merge -useContext +onlyGivenNames x0
  have h1 : Keeps 54625565 s x0 := by
    unfold x0
    refine Keeps.step freezeInputs_keeps rfl ?_
    exact Keeps.refl
  try clear_value x0
  extract_lets -merge -useContext +onlyGivenNames x2
  try clear_value x2
  extract_lets -merge -useContext +onlyGivenNames x3
  try clear_value x3
  extract_lets -merge -useContext +onlyGivenNames x4
  have h5 : Keeps 54625565 s x4 := by
    unfold x4
    refine Keeps.step embers_keeps rfl ?_
    exact Keeps.app (show Keeps 54625565 x0 _ from ⟨fun _ => rfl, fun _ => rfl, fun _ => rfl, fun _ => rfl, fun _ => rfl, fun h => noBit h rfl, fun h => noBit h rfl, fun _ => rfl, fun _ => rfl, fun _ => rfl, fun _ => rfl, fun _ => rfl, fun _ => rfl, fun _ => rfl, fun _ => rfl, fun _ => rfl, fun _ => rfl, fun _ => rfl, fun _ => rfl, fun _ => rfl, fun _ => rfl, fun _ => rfl, fun _ => rfl, fun _ => rfl, fun _ => rfl, fun _ => rfl⟩) h1
  try clear_value x4
  extract_lets -merge -useContext +onlyGivenNames x6
  have h7 : Keeps 54625565 s x6 := by
    unfold x6
    refine Keeps.step enterFree_keeps rfl ?_
    exact h5
  try clear_value x6
  refine Keeps.ite ?_ ?_
  · exact h7
  · refine Keeps.app (wr_prg rfl) ?_
    exact h7

/-- Writes at most: sent civ cand prg mem vm regs tel evr upd lnk cfg. -/
theorem loadStage_keeps {b0 b1 b2 s} : Keeps 6202829 s (loadStage b0 b1 b2 s).2 := by
  unfold loadStage
  extract_lets -merge -useContext +onlyGivenNames x0
  try clear_value x0
  extract_lets -merge -useContext +onlyGivenNames x1
  try clear_value x1
  extract_lets -merge -useContext +onlyGivenNames x2
  try clear_value x2
  extract_lets -merge -useContext +onlyGivenNames x3
  try clear_value x3
  refine Keeps.ite2 ?_ ?_
  · refine Keeps.mkSnd ?_
    exact Keeps.refl
  · split
    · refine Keeps.mkSnd ?_
      refine Keeps.step emit_keeps rfl ?_
      exact Keeps.refl
    · refine Keeps.ite2 ?_ ?_
      · refine Keeps.mkSnd ?_
        exact Keeps.refl
      · extract_lets -merge -useContext +onlyGivenNames x6
        have h7 : Keeps 6202829 s x6 := by
          unfold x6
          refine Keeps.step takeProg_keeps rfl ?_
          refine Keeps.step takeCfg_keeps rfl ?_
          exact Keeps.refl
        try clear_value x6
        refine Keeps.mkSnd ?_
        extract_lets -merge -useContext +onlyGivenNames x8
        have h9 : Keeps 6202829 s x8 := by
          unfold x8
          refine Keeps.step trialState_keeps rfl ?_
          exact h7
        try clear_value x8
        refine Keeps.app (wr_cand rfl) ?_
        exact h9

/-- Writes at most: sent civ cand pwr tri prg mem vm xch regs tel rings lat fio snu evr upd lnk cfg. -/
theorem bootSteps_keeps {b0 b1 b2 s} : Keeps 4228365 s (bootSteps b0 b1 b2 s).1 := by
  unfold bootSteps
  extract_lets -merge -useContext +onlyGivenNames x0
  try clear_value x0
  refine Keeps.ite1 ?_ ?_
  · refine Keeps.mkFst ?_
    exact Keeps.refl
  · refine Keeps.ite1 ?_ ?_
    · refine Keeps.mkFst ?_
      exact Keeps.refl
    · extract_lets -merge -useContext +onlyGivenNames x1
      have h2 : Keeps 4228365 s x1 := by
        unfold x1
        refine Keeps.step loadSlot_keeps rfl ?_
        refine Keeps.step trialCount_keeps rfl ?_
        exact Keeps.refl
      try clear_value x1
      extract_lets -merge -useContext +onlyGivenNames x3
      try clear_value x3
      extract_lets -merge -useContext +onlyGivenNames x4
      have h5 : Keeps 4228365 s x4 := by
        unfold x4
        refine Keeps.ite ?_ ?_
        · exact h2
        · refine Keeps.step injResult_keeps rfl ?_
          exact h2
      try clear_value x4
      refine Keeps.ite1 ?_ ?_
      · refine Keeps.mkFst ?_
        refine Keeps.step faultRecord_keeps rfl ?_
        exact h5
      · split
        · rename_i y6 y7 q8
          have h9 : Keeps 4228365 s y7 := by
            refine Keeps.snd ?_ q8
            refine Keeps.step bankSelection_keeps rfl ?_
            exact h5
          extract_lets -merge -useContext +onlyGivenNames x10
          try clear_value x10
          refine Keeps.ite1 ?_ ?_
          · refine Keeps.mkFst ?_
            exact h9
          · extract_lets -merge -useContext +onlyGivenNames x11
            have h12 : Keeps 4228365 s x11 := by
              unfold x11
              refine Keeps.ite ?_ ?_
              · refine Keeps.step injResult_keeps rfl ?_
                exact h9
              · exact h9
            try clear_value x11
            refine Keeps.ite1 ?_ ?_
            · refine Keeps.mkFst ?_
              refine Keeps.step faultRecord_keeps rfl ?_
              exact h12
            · extract_lets -merge -useContext +onlyGivenNames x13
              have h14 : Keeps 4228365 s x13 := by
                unfold x13
                refine Keeps.step lightLane_keeps rfl ?_
                refine Keeps.step lightLane_keeps rfl ?_
                exact h12
              try clear_value x13
              extract_lets -merge -useContext +onlyGivenNames x15
              have h16 : Keeps 4228365 s x15 := by
                unfold x15
                refine Keeps.ite ?_ ?_
                · refine Keeps.step laneTo_keeps rfl ?_
                  exact h14
                · refine Keeps.step lightLane_keeps rfl ?_
                  exact h14
              try clear_value x15
              split
              · refine Keeps.mkFst ?_
                refine Keeps.step bootNoConfig_keeps rfl ?_
                exact h16
              · refine Keeps.ite1 ?_ ?_
                · refine Keeps.mkFst ?_
                  refine Keeps.step bootNoConfig_keeps rfl ?_
                  exact h16
                · split
                  · rename_i y19 q20
                    have h21 : Keeps 4228365 s y19 := by
                      refine Keeps.snd ?_ q20
                      refine Keeps.step loadStage_keeps rfl ?_
                      exact h16
                    refine Keeps.mkFst ?_
                    refine Keeps.step startFree_keeps rfl ?_
                    exact h21
                  · rename_i y22 q23
                    have h24 : Keeps 4228365 s y22 := by
                      refine Keeps.snd ?_ q23
                      refine Keeps.step loadStage_keeps rfl ?_
                      exact h16
                    refine Keeps.mkFst ?_
                    exact h24

/-- Writes at most: sent civ cand pwr tri prg mem vm xch regs tel rings lat fio snu evr upd lnk cfg. -/
theorem bootSequence_keeps {b0 b1 b2 s} : Keeps 4228365 s (bootSequence b0 b1 b2 s) := by
  unfold bootSequence
  split
  · rename_i y0 q1
    have h2 : Keeps 4228365 s y0 := by
      refine Keeps.fst ?_ q1
      refine Keeps.step bootSteps_keeps rfl ?_
      exact Keeps.refl
    exact h2
  · rename_i y3 y4 q5
    have h6 : Keeps 4228365 s y3 := by
      refine Keeps.fst ?_ q5
      refine Keeps.step bootSteps_keeps rfl ?_
      exact Keeps.refl
    split
    · refine Keeps.ite ?_ ?_
      · extract_lets -merge -useContext +onlyGivenNames x8
        have h9 : Keeps 4228365 s x8 := by
          unfold x8
          refine Keeps.step imageEvent_keeps rfl ?_
          refine Keeps.step writeSelector_keeps rfl ?_
          exact h6
        try clear_value x8
        split
        · rename_i y10 q11
          have h12 : Keeps 4228365 s y10 := by
            refine Keeps.fst ?_ q11
            refine Keeps.step bootSteps_keeps rfl ?_
            refine Keeps.app (wr_cand rfl) ?_
            exact h9
          exact h12
        · rename_i y13 y14 q15
          have h16 : Keeps 4228365 s y13 := by
            refine Keeps.fst ?_ q15
            refine Keeps.step bootSteps_keeps rfl ?_
            refine Keeps.app (wr_cand rfl) ?_
            exact h9
          refine Keeps.step bootStop_keeps rfl ?_
          exact h16
      · refine Keeps.step bootStop_keeps rfl ?_
        exact h6
    · refine Keeps.step bootStop_keeps rfl ?_
      exact h6

/-- Writes at most: sent clk civ cand pwr tri dbg prg frc mem vm xch regs bus tel rings lat fio snu evr sta upd lnk cfg. -/
theorem powerUp_keeps {b0 s} : Keeps 5 s (powerUp b0 s) := by
  unfold powerUp
  extract_lets -merge -useContext +onlyGivenNames x0
  try clear_value x0
  extract_lets -merge -useContext +onlyGivenNames x1
  have h2 : Keeps 5 s x1 := by
    unfold x1
    refine Keeps.step hardReset_keeps rfl ?_
    exact Keeps.refl
  try clear_value x1
  extract_lets -merge -useContext +onlyGivenNames x3
  try clear_value x3
  extract_lets -merge -useContext +onlyGivenNames x4
  try clear_value x4
  extract_lets -merge -useContext +onlyGivenNames x5
  try clear_value x5
  extract_lets -merge -useContext +onlyGivenNames x6
  try clear_value x6
  extract_lets -merge -useContext +onlyGivenNames x7
  try clear_value x7
  extract_lets -merge -useContext +onlyGivenNames x8
  have h9 : Keeps 5 s x8 := by
    unfold x8
    exact Keeps.app (show Keeps 5 x1 _ from ⟨fun _ => rfl, fun _ => rfl, fun _ => rfl, fun h => noBit h rfl, fun _ => rfl, fun h => noBit h rfl, fun h => noBit h rfl, fun _ => rfl, fun h => noBit h rfl, fun _ => rfl, fun _ => rfl, fun _ => rfl, fun _ => rfl, fun _ => rfl, fun _ => rfl, fun _ => rfl, fun _ => rfl, fun _ => rfl, fun _ => rfl, fun _ => rfl, fun _ => rfl, fun _ => rfl, fun h => noBit h rfl, fun _ => rfl, fun _ => rfl, fun _ => rfl⟩) h2
  try clear_value x8
  extract_lets -merge -useContext +onlyGivenNames x10
  try clear_value x10
  extract_lets -merge -useContext +onlyGivenNames x11
  have h12 : Keeps 5 s x11 := by
    unfold x11
    refine Keeps.step candleState_keeps rfl ?_
    exact h9
  try clear_value x11
  extract_lets -merge -useContext +onlyGivenNames x13
  try clear_value x13
  extract_lets -merge -useContext +onlyGivenNames x14
  have h15 : Keeps 5 s x14 := by
    unfold x14
    refine Keeps.step consumeSd_keeps rfl ?_
    exact h12
  try clear_value x14
  extract_lets -merge -useContext +onlyGivenNames x16
  have h17 : Keeps 5 s x16 := by
    unfold x16
    refine Keeps.step setRf_keeps rfl ?_
    exact h15
  try clear_value x16
  extract_lets -merge -useContext +onlyGivenNames x18
  have h19 : Keeps 5 s x18 := by
    unfold x18
    refine Keeps.step recorderStart_keeps rfl ?_
    exact h17
  try clear_value x18
  extract_lets -merge -useContext +onlyGivenNames x20
  have h21 : Keeps 5 s x20 := by
    unfold x20
    refine Keeps.step candleRecords_keeps rfl ?_
    exact h19
  try clear_value x20
  extract_lets -merge -useContext +onlyGivenNames x22
  have h23 : Keeps 5 s x22 := by
    unfold x22
    refine Keeps.ite ?_ ?_
    · refine Keeps.step emit_keeps rfl ?_
      exact h21
    · exact h21
  try clear_value x22
  refine Keeps.step bootSequence_keeps rfl ?_
  exact h23

/-- Writes at most: sent clk civ cand pwr tri dbg prg frc mem vm xch regs bus tel rings lat fio snu evr sta upd lnk cfg. -/
theorem execPowerUp_keeps {b0 b1 s} : Answers 5 s (execPowerUp b0 b1 s) := by
  unfold execPowerUp
  extract_lets -merge -useContext +onlyGivenNames x0
  have h1 : Keeps 5 s x0 := by
    unfold x0
    refine Keeps.step begin'_keeps rfl ?_
    exact Keeps.refl
  try clear_value x0
  refine Answers.next ?_
  split
  · refine Keeps.step powerUp_keeps rfl ?_
    exact h1
  · refine Keeps.step powerUp_keeps rfl ?_
    exact h1
  · refine Keeps.step powerUp_keeps rfl ?_
    exact h1
  · exact h1

/-- Writes at most: sent prg vm xch regs rings fio evr upd lnk. -/
theorem shutdownStart_keeps {b0 s} : Keeps 39161341 s (shutdownStart b0 s) := by
  unfold shutdownStart
  extract_lets -merge -useContext +onlyGivenNames x0
  have h1 : Keeps 39161341 s x0 := by
    unfold x0
    refine Keeps.ite ?_ ?_
    · refine Keeps.step mirror_keeps rfl ?_
      exact Keeps.refl
    · exact Keeps.refl
  try clear_value x0
  extract_lets -merge -useContext +onlyGivenNames x2
  have h3 : Keeps 39161341 s x2 := by
    unfold x2
    refine Keeps.step endAllPosts_keeps rfl ?_
    refine Keeps.step pinsOff_keeps rfl ?_
    exact h1
  try clear_value x2
  extract_lets -merge -useContext +onlyGivenNames x4
  have h5 : Keeps 39161341 s x4 := by
    unfold x4
    refine Keeps.ite ?_ ?_
    · exact h3
    · refine Keeps.step xchDiscard_keeps rfl ?_
      exact h3
  try clear_value x4
  exact Keeps.app (show Keeps 39161341 x4 _ from ⟨fun _ => rfl, fun _ => rfl, fun _ => rfl, fun _ => rfl, fun _ => rfl, fun _ => rfl, fun _ => rfl, fun _ => rfl, fun _ => rfl, fun h => noBit h rfl, fun _ => rfl, fun _ => rfl, fun _ => rfl, fun _ => rfl, fun _ => rfl, fun _ => rfl, fun _ => rfl, fun _ => rfl, fun _ => rfl, fun _ => rfl, fun _ => rfl, fun _ => rfl, fun _ => rfl, fun h => noBit h rfl, fun _ => rfl, fun _ => rfl⟩) h5

/-- Writes at most: cand regs evr. -/
theorem ingestAll_keeps {b0 s} : Keeps 64995295 s (ingestAll b0 s) := by
  induction b0 generalizing s with
  | zero =>
    rw [ingestAll.eq_1]
    exact Keeps.refl
  | succ z ih =>
    rw [ingestAll.eq_2]
    refine Keeps.ite ?_ ?_
    · exact Keeps.refl
    · refine Keeps.app ih ?_
      refine Keeps.step ingest_keeps rfl ?_
      exact Keeps.refl

/-- Writes at most: cand regs evr. -/
theorem shutdownRecord_keeps {b0 b1 s} : Keeps 64995295 s (shutdownRecord b0 b1 s) := by
  unfold shutdownRecord
  extract_lets -merge -useContext +onlyGivenNames x0
  have h1 : Keeps 64995295 s x0 := by
    unfold x0
    refine Keeps.ite ?_ ?_
    · refine Keeps.step freezeEnd_keeps rfl ?_
      exact Keeps.refl
    · exact Keeps.refl
  try clear_value x0
  extract_lets -merge -useContext +onlyGivenNames x2
  have h3 : Keeps 64995295 s x2 := by
    unfold x2
    refine Keeps.step emit_keeps rfl ?_
    exact h1
  try clear_value x2
  refine Keeps.step closeOpen_keeps rfl ?_
  refine Keeps.step ingestAll_keeps rfl ?_
  refine Keeps.step closeOpen_keeps rfl ?_
  exact h3

/-- Writes at most: regs snu evr. -/
theorem shutdownCut_keeps {s} : Keeps 63946751 s (shutdownCut s) := by
  unfold shutdownCut
  refine Keeps.step openAll_keeps rfl ?_
  refine Keeps.step recordCut_keeps rfl ?_
  exact Keeps.refl

/-- Writes at most: regs evr. -/
theorem shutdownCommit_keeps {s} : Keeps 64995327 s (shutdownCommit s) := by
  unfold shutdownCommit
  refine Keeps.ite ?_ ?_
  · refine Keeps.step commitAll_keeps rfl ?_
    exact Keeps.refl
  · exact Keeps.refl

/-- Writes at most: nothing. -/
theorem sdStep_keeps {m : Nat} {b0 b1 b2 s} (hf2 : ∀ t, Keeps m t (b2 t)) (_hm : m &&& 67108863 = m) : Keeps m s (sdStep b0 b1 b2 s) := by
  unfold sdStep
  refine Keeps.ite ?_ ?_
  · refine Keeps.app (hf2 _) ?_
    exact Keeps.refl
  · exact Keeps.refl

/-- Writes at most: sent civ cand prg vm xch regs rings fio snu evr sta upd lnk. -/
theorem shutdownSteps_keeps {b0 b1 s} : Keeps 33918413 s (shutdownSteps b0 b1 s) := by
  unfold shutdownSteps
  extract_lets -merge -useContext +onlyGivenNames x0
  try clear_value x0
  extract_lets -merge -useContext +onlyGivenNames x1
  have h2 : Keeps 33918413 s x1 := by
    unfold x1
    refine Keeps.step shutdownStart_keeps rfl ?_
    exact Keeps.refl
  try clear_value x1
  extract_lets -merge -useContext +onlyGivenNames x3
  have h4 : Keeps 33918413 s x3 := by
    unfold x3
    refine Keeps.app (sdStep_keeps ?_ rfl) ?_
    · intro s
      refine Keeps.step writeSd_keeps rfl ?_
      exact Keeps.refl
    · exact h2
  try clear_value x3
  extract_lets -merge -useContext +onlyGivenNames x5
  have h6 : Keeps 33918413 s x5 := by
    unfold x5
    refine Keeps.app (sdStep_keeps ?_ rfl) ?_
    · intro s
      refine Keeps.step writeAnchor_keeps rfl ?_
      exact Keeps.refl
    · exact h4
  try clear_value x5
  extract_lets -merge -useContext +onlyGivenNames x7
  have h8 : Keeps 33918413 s x7 := by
    unfold x7
    refine Keeps.app (sdStep_keeps ?_ rfl) ?_
    · intro s
      refine Keeps.step shutdownRecord_keeps rfl ?_
      exact Keeps.refl
    · exact h6
  try clear_value x7
  extract_lets -merge -useContext +onlyGivenNames x9
  have h10 : Keeps 33918413 s x9 := by
    unfold x9
    refine Keeps.app (sdStep_keeps ?_ rfl) ?_
    · intro s
      refine Keeps.ite ?_ ?_
      · refine Keeps.step rtcWrite_keeps rfl ?_
        exact Keeps.refl
      · exact Keeps.refl
    · exact h8
  try clear_value x9
  extract_lets -merge -useContext +onlyGivenNames x11
  have h12 : Keeps 33918413 s x11 := by
    unfold x11
    refine Keeps.app (sdStep_keeps ?_ rfl) ?_
    · intro s
      refine Keeps.step shutdownCut_keeps rfl ?_
      exact Keeps.refl
    · exact h10
  try clear_value x11
  extract_lets -merge -useContext +onlyGivenNames x13
  have h14 : Keeps 33918413 s x13 := by
    unfold x13
    refine Keeps.app (sdStep_keeps ?_ rfl) ?_
    · intro s
      refine Keeps.step shutdownCommit_keeps rfl ?_
      exact Keeps.refl
    · exact h12
  try clear_value x13
  extract_lets -merge -useContext +onlyGivenNames x15
  have h16 : Keeps 33918413 s x15 := by
    unfold x15
    refine Keeps.app (sdStep_keeps ?_ rfl) ?_
    · intro s
      refine Keeps.step writeLight_keeps rfl ?_
      exact Keeps.refl
    · exact h14
  try clear_value x15
  extract_lets -merge -useContext +onlyGivenNames x17
  have h18 : Keeps 33918413 s x17 := by
    unfold x17
    refine Keeps.app (sdStep_keeps ?_ rfl) ?_
    · intro s
      refine Keeps.step writeStat_keeps rfl ?_
      exact Keeps.refl
    · exact h16
  try clear_value x17
  refine Keeps.app (sdStep_keeps ?_ rfl) ?_
  · intro s
    refine Keeps.step writeSd_keeps rfl ?_
    exact Keeps.refl
  · exact h18

/-- Writes at most: sent clk civ cand pwr prg vm xch regs bus rings fio snu evr sta upd lnk. -/
theorem execPowerFailWarning_keeps {b0 b1 b2 b3 s} : Answers 33885573 s (execPowerFailWarning b0 b1 b2 b3 s) := by
  unfold execPowerFailWarning
  extract_lets -merge -useContext +onlyGivenNames x0
  have h1 : Keeps 33885573 s x0 := by
    unfold x0
    refine Keeps.step begin'_keeps rfl ?_
    exact Keeps.refl
  try clear_value x0
  refine Answers.next ?_
  refine Keeps.ite ?_ ?_
  · extract_lets -merge -useContext +onlyGivenNames x2
    have h3 : Keeps 33885573 s x2 := by
      unfold x2
      refine Keeps.step shutdownSteps_keeps rfl ?_
      refine Keeps.step stat_keeps rfl ?_
      exact h1
    try clear_value x2
    refine Keeps.ite ?_ ?_
    · exact Keeps.app (show Keeps 33885573 x2 _ from ⟨fun _ => rfl, fun _ => rfl, fun _ => rfl, fun _ => rfl, fun _ => rfl, fun h => noBit h rfl, fun h => noBit h rfl, fun _ => rfl, fun _ => rfl, fun _ => rfl, fun _ => rfl, fun _ => rfl, fun _ => rfl, fun _ => rfl, fun _ => rfl, fun _ => rfl, fun _ => rfl, fun _ => rfl, fun _ => rfl, fun _ => rfl, fun _ => rfl, fun _ => rfl, fun _ => rfl, fun _ => rfl, fun _ => rfl, fun _ => rfl⟩) h3
    · refine Keeps.app (wr_pwr rfl) ?_
      exact h3
  · exact h1

/-- Writes at most: sent civ cand pwr prg frc vm xch regs rings fio snu evr sta upd lnk. -/
theorem expire_keeps {b0 s} : Keeps 33917325 s (expire b0 s) := by
  unfold expire
  extract_lets -merge -useContext +onlyGivenNames x0
  have h1 : Keeps 33917325 s x0 := by
    unfold x0
    refine Keeps.step shutdownSteps_keeps rfl ?_
    refine Keeps.step forcesHalt_keeps rfl ?_
    refine Keeps.step xchAbort_keeps rfl ?_
    exact Keeps.refl
  try clear_value x0
  extract_lets -merge -useContext +onlyGivenNames x2
  have h3 : Keeps 33917325 s x2 := by
    unfold x2
    refine Keeps.step setMode_keeps rfl ?_
    exact h1
  try clear_value x2
  exact Keeps.app (show Keeps 33917325 x2 _ from ⟨fun _ => rfl, fun _ => rfl, fun _ => rfl, fun _ => rfl, fun _ => rfl, fun _ => rfl, fun h => noBit h rfl, fun _ => rfl, fun _ => rfl, fun h => noBit h rfl, fun _ => rfl, fun _ => rfl, fun _ => rfl, fun _ => rfl, fun _ => rfl, fun _ => rfl, fun _ => rfl, fun _ => rfl, fun _ => rfl, fun _ => rfl, fun h => noBit h rfl, fun _ => rfl, fun _ => rfl, fun _ => rfl, fun h => noBit h rfl, fun _ => rfl⟩) h3

/-- Writes at most: sent clk civ cand pwr prg frc vm xch regs bus rings fio snu evr sta upd lnk. -/
theorem execDegradedExpired_keeps {b0 s} : Answers 33884549 s (execDegradedExpired b0 s) := by
  unfold execDegradedExpired
  extract_lets -merge -useContext +onlyGivenNames x0
  have h1 : Keeps 33884549 s x0 := by
    unfold x0
    refine Keeps.step begin'_keeps rfl ?_
    exact Keeps.refl
  try clear_value x0
  refine Answers.next ?_
  refine Keeps.ite ?_ ?_
  · refine Keeps.step expire_keeps rfl ?_
    refine Keeps.step degradedRecord_keeps rfl ?_
    exact h1
  · exact h1

/-- Writes at most: sent clk civ cand pwr prg frc vm xch regs bus rings fio snu evr sta upd lnk. -/
theorem execRecorderExpired_keeps {b0 s} : Answers 33884549 s (execRecorderExpired b0 s) := by
  unfold execRecorderExpired
  extract_lets -merge -useContext +onlyGivenNames x0
  have h1 : Keeps 33884549 s x0 := by
    unfold x0
    refine Keeps.step begin'_keeps rfl ?_
    exact Keeps.refl
  try clear_value x0
  refine Answers.next ?_
  refine Keeps.ite ?_ ?_
  · refine Keeps.step expire_keeps rfl ?_
    refine Keeps.step emit_keeps rfl ?_
    exact h1
  · exact h1

end Sys2Proof.Machine
end

