-- ==== Sys2Proof/Laws/InvPower.lean ====
section
/-! SUPPORT. The functions of Machine/Power.lean keep the invariant `Inv`. -/

namespace Sys2Proof.Machine

theorem putPN_wf {a off v n : Nat} {m : List Host.Cell} (h : Memory.wf m = true) : Memory.wf (putPN a off v n m) = true := memSetList_wf (memSetList_wf h)

theorem loadLattice_wf {p : Nat} {nor m : List Host.Cell} (h : Memory.wf m = true) : Memory.wf (loadLattice p nor m) = true :=
  foldl_wf (fun _ _ k => putPN_wf k) _ (foldl_wf (fun _ _ k => putPN_wf k) _ (foldl_wf (fun _ _ k => putPN_wf (putPN_wf k)) _
    (memErase_wf (memSetList_wf (memSetList_wf (memSetList_wf (memErase_wf h)))))))

theorem hardReset_inv {s} (hs : Inv s) : Inv (hardReset s) := by
  unfold hardReset
  have h := hs
  refine ⟨?_, ?_, ?_, ?_, ?_⟩
  · exact memSlice_wf h.mem
  · exact h.cand
  · exact Nat.zero_le _
  · exact Nat.zero_le _
  · exact Nat.zero_le _

theorem execNrstLow_inv {b0 b1 s} (hs : Inv s) : InvA (execNrstLow b0 b1 s) := by
  unfold execNrstLow
  extract_lets -merge -useContext +onlyGivenNames x0
  have h1 : Inv x0 := by
    unfold x0
    refine begin'_inv ?_
    exact hs
  try clear_value x0
  refine InvA.next ?_
  refine Inv.ite ?_ ?_
  · exact h1
  · extract_lets -merge -useContext +onlyGivenNames x2
    have h3 : Inv x2 := by
      unfold x2
      refine hardReset_inv ?_
      exact h1
    try clear_value x2
    refine Inv.keep (wr_pwr (m := 67108799) rfl) rfl ?_
    exact h3

theorem powerOff_inv {s} (hs : Inv s) : Inv (powerOff s) := by
  unfold powerOff
  extract_lets -merge -useContext +onlyGivenNames x0
  have h1 : Inv x0 := by
    unfold x0
    refine hardReset_inv ?_
    exact hs
  try clear_value x0
  exact Inv.keep (show Keeps 67108415 x0 _ from ⟨fun _ => rfl, fun _ => rfl, fun _ => rfl, fun _ => rfl, fun _ => rfl, fun _ => rfl, fun h => noBit h rfl, fun h => noBit h rfl, fun h => noBit h rfl, fun _ => rfl, fun _ => rfl, fun _ => rfl, fun _ => rfl, fun _ => rfl, fun _ => rfl, fun _ => rfl, fun _ => rfl, fun _ => rfl, fun _ => rfl, fun _ => rfl, fun _ => rfl, fun _ => rfl, fun _ => rfl, fun _ => rfl, fun _ => rfl, fun _ => rfl⟩) rfl h1

theorem execVinLoss_inv {b0 s} (hs : Inv s) : InvA (execVinLoss b0 s) := by
  unfold execVinLoss
  refine InvA.next ?_
  refine powerOff_inv ?_
  refine begin'_inv ?_
  exact hs

theorem writeSd_inv {b0 s} (hs : Inv s) : Inv (writeSd b0 s) := by
  unfold writeSd
  refine Inv.ite ?_ ?_
  · exact hs
  · extract_lets -merge -useContext +onlyGivenNames x0
    try clear_value x0
    split
    · refine Inv.set_cand (fun h => ?_) ?_
      · exact h.cand
      · exact hs
    · refine Inv.set_cand (fun h => ?_) ?_
      · exact h.cand
      · exact hs
    · refine Inv.ite ?_ ?_
      · refine Inv.set_cand (fun h => ?_) ?_
        · exact h.cand
        · exact hs
      · refine Inv.set_cand (fun h => ?_) ?_
        · exact h.cand
        · exact hs

theorem writeAnchor_inv {b0 s} (hs : Inv s) : Inv (writeAnchor b0 s) := by
  unfold writeAnchor
  refine Inv.ite ?_ ?_
  · exact hs
  · extract_lets -merge -useContext +onlyGivenNames x0
    try clear_value x0
    split
    · refine Inv.set_cand (fun h => ?_) ?_
      · exact h.cand
      · exact hs
    · refine Inv.set_cand (fun h => ?_) ?_
      · exact h.cand
      · exact hs
    · refine Inv.ite ?_ ?_
      · refine Inv.set_cand (fun h => ?_) ?_
        · exact h.cand
        · exact hs
      · refine Inv.set_cand (fun h => ?_) ?_
        · exact h.cand
        · exact hs

theorem candleRecords_inv {b0 s} (hs : Inv s) : Inv (candleRecords b0 s) := by
  unfold candleRecords
  refine Inv.foldl ?_ _ ?_
  · intro s a0 hs
    refine nvEvent_inv ?_
    exact hs
  · exact hs

theorem candleState_inv {b0 s} (hs : Inv s) : Inv (candleState b0 s) := by
  unfold candleState
  extract_lets -merge -useContext +onlyGivenNames x0
  have h1 : x0 = s.cand := rfl
  replace h1 : x0.light.length ≤ 64 := by
    rw [h1]
    exact hs.cand
  try clear_value x0
  extract_lets -merge -useContext +onlyGivenNames x2
  have h3 : Inv x2 := by
    unfold x2
    refine Inv.keep vbakTake_keeps rfl ?_
    refine Inv.set_cand (fun h => ?_) ?_
    · assumption
    · exact hs
  try clear_value x2
  extract_lets -merge -useContext +onlyGivenNames x4
  try clear_value x4
  extract_lets -merge -useContext +onlyGivenNames x5
  try clear_value x5
  extract_lets -merge -useContext +onlyGivenNames x6
  have h7 : Inv x6 := by
    unfold x6
    refine Inv.ite ?_ ?_
    · refine Inv.keep setRf_keeps rfl ?_
      exact h3
    · exact h3
  try clear_value x6
  exact Inv.keep (show Keeps 62849007 x6 _ from ⟨fun _ => rfl, fun _ => rfl, fun _ => rfl, fun _ => rfl, fun h => noBit h rfl, fun _ => rfl, fun _ => rfl, fun _ => rfl, fun _ => rfl, fun _ => rfl, fun _ => rfl, fun _ => rfl, fun _ => rfl, fun _ => rfl, fun _ => rfl, fun _ => rfl, fun h => noBit h rfl, fun _ => rfl, fun _ => rfl, fun _ => rfl, fun _ => rfl, fun _ => rfl, fun h => noBit h rfl, fun _ => rfl, fun _ => rfl, fun _ => rfl⟩) rfl h7

theorem consumeSd_inv {s} (hs : Inv s) : Inv (consumeSd s) := by
  unfold consumeSd
  split
  · refine writeSd_inv ?_
    refine Inv.set_cand (fun h => ?_) ?_
    · exact h.cand
    · exact hs
  · refine Inv.set_cand (fun h => ?_) ?_
    · exact h.cand
    · exact hs

theorem recorderStart_inv {b0 s} (hs : Inv s) : Inv (recorderStart b0 s) := by
  unfold recorderStart
  extract_lets -merge -useContext +onlyGivenNames x0
  try clear_value x0
  extract_lets -merge -useContext +onlyGivenNames x1
  try clear_value x1
  extract_lets -merge -useContext +onlyGivenNames x2
  try clear_value x2
  extract_lets -merge -useContext +onlyGivenNames x3
  try clear_value x3
  extract_lets -merge -useContext +onlyGivenNames x4
  have h5 : x4 = s.evr := rfl
  replace h5 : x4.queue.length ≤ 1024 := by
    rw [h5]
    exact hs.evr
  try clear_value x4
  extract_lets -merge -useContext +onlyGivenNames x6
  have h7 : Inv x6 := by
    unfold x6
    refine Inv.set_evr (fun h => ?_) ?_
    · assumption
    · exact hs
  try clear_value x6
  extract_lets -merge -useContext +onlyGivenNames x8
  have h9 : Inv x8 := by
    unfold x8
    refine writeLight_inv ?_
    exact h7
  try clear_value x8
  extract_lets -merge -useContext +onlyGivenNames x10
  have h11 : x10 = x8.evr := rfl
  replace h11 : x10.queue.length ≤ 1024 := by
    rw [h11]
    exact h9.evr
  try clear_value x10
  extract_lets -merge -useContext +onlyGivenNames x12
  have h13 : Inv x12 := by
    unfold x12
    refine Inv.set_evr (fun h => ?_) ?_
    · assumption
    · exact h9
  try clear_value x12
  refine emit_inv ?_
  exact h13

theorem trialCount_inv {s} (hs : Inv s) : Inv (trialCount s) := by
  unfold trialCount
  split
  · refine Inv.ite ?_ ?_
    · refine Inv.ite ?_ ?_
      · refine imageEvent_inv ?_
        refine writeSelector_inv ?_
        exact hs
      · refine writeSelector_inv ?_
        exact hs
    · exact hs
  · exact hs

theorem loadSlot_inv {b0 s} (hs : Inv s) : Inv (loadSlot b0 s) := by
  unfold loadSlot
  split
  · refine Inv.ite ?_ ?_
    · refine loadCode_inv ?_
      refine Inv.keep (wr_vm (m := 67104767) rfl) rfl ?_
      exact hs
    · exact hs
  · exact hs

theorem bankSelection_inv {b0 s} (hs : Inv s) : Inv (bankSelection b0 s).2 := by
  unfold bankSelection
  split
  · refine Inv.ite2 ?_ ?_
    · refine Inv.mkSnd ?_
      exact hs
    · refine Inv.ite2 ?_ ?_
      · extract_lets -merge -useContext +onlyGivenNames x1
        have h2 : Inv x1 := by
          unfold x1
          refine loadSlot_inv ?_
          refine imageEvent_inv ?_
          refine writeSelector_inv ?_
          exact hs
        try clear_value x1
        refine Inv.mkSnd ?_
        exact h2
      · refine Inv.mkSnd ?_
        exact hs
  · refine Inv.mkSnd ?_
    exact hs

theorem bootStop_inv {b0 b1 s} (hs : Inv s) : Inv (bootStop b0 b1 s) := by
  unfold bootStop
  have h := hs
  refine ⟨h.mem, ?_, h.evr, h.frc, h.lat⟩
  · exact h.cand

theorem bootNoConfig_inv {s} (hs : Inv s) : Inv (bootNoConfig s) := by
  unfold bootNoConfig
  have h := hs
  refine ⟨h.mem, ?_, h.evr, h.frc, h.lat⟩
  · exact h.cand

theorem newSessions_inv {b0 s} (hs : Inv s) : Inv (newSessions b0 s) := by
  unfold newSessions
  split
  · extract_lets -merge -useContext +onlyGivenNames x1
    try clear_value x1
    refine Inv.ite ?_ ?_
    · have h := hs
      refine ⟨h.mem, ?_, h.evr, h.frc, h.lat⟩
      · exact h.cand
    · exact hs
  · exact hs

theorem takeCfg_inv {b0 b1 s} (hs : Inv s) : Inv (takeCfg b0 b1 s) := by
  unfold takeCfg
  extract_lets -merge -useContext +onlyGivenNames x0
  have h1 : Inv x0 := by
    unfold x0
    refine Inv.set_mem (fun h => ?_) ?_
    · exact loadLattice_wf h.mem
    · exact hs
  try clear_value x0
  extract_lets -merge -useContext +onlyGivenNames x2
  try clear_value x2
  extract_lets -merge -useContext +onlyGivenNames x3
  try clear_value x3
  extract_lets -merge -useContext +onlyGivenNames x4
  have h5 : Inv x4 := by
    unfold x4
    exact Inv.keep (show Keeps 16776703 x0 _ from ⟨fun _ => rfl, fun _ => rfl, fun _ => rfl, fun _ => rfl, fun _ => rfl, fun _ => rfl, fun _ => rfl, fun _ => rfl, fun _ => rfl, fun h => noBit h rfl, fun _ => rfl, fun _ => rfl, fun _ => rfl, fun _ => rfl, fun _ => rfl, fun _ => rfl, fun _ => rfl, fun _ => rfl, fun _ => rfl, fun _ => rfl, fun _ => rfl, fun _ => rfl, fun _ => rfl, fun _ => rfl, fun h => noBit h rfl, fun h => noBit h rfl⟩) rfl h1
  try clear_value x4
  extract_lets -merge -useContext +onlyGivenNames x6
  have h7 : Inv x6 := by
    unfold x6
    refine Inv.keep setRf_keeps rfl ?_
    exact h5
  try clear_value x6
  extract_lets -merge -useContext +onlyGivenNames x8
  try clear_value x8
  extract_lets -merge -useContext +onlyGivenNames x9
  have h10 : Inv x9 := by
    unfold x9
    refine Inv.keep (wr_civ (m := 67108847) rfl) rfl ?_
    exact h7
  try clear_value x9
  refine newSessions_inv ?_
  exact h10

theorem takeProg_inv {b0 s} (hs : Inv s) : Inv (takeProg b0 s) := by
  unfold takeProg
  refine Inv.ite ?_ ?_
  · split
    · refine initInstances_inv ?_
      refine Inv.keep setRv_keeps rfl ?_
      exact hs
    · exact hs
  · exact hs

theorem startFree_inv {b0 s} (hs : Inv s) : Inv (startFree b0 s) := by
  unfold startFree
  extract_lets -merge -useContext +onlyGivenNames x0
  have h1 : Inv x0 := by
    unfold x0
    refine freezeInputs_inv ?_
    exact hs
  try clear_value x0
  extract_lets -merge -useContext +onlyGivenNames x2
  have h3 : x2 = x0.cand := rfl
  replace h3 : x2.light.length ≤ 64 := by
    rw [h3]
    exact h1.cand
  try clear_value x2
  extract_lets -merge -useContext +onlyGivenNames x4
  try clear_value x4
  extract_lets -merge -useContext +onlyGivenNames x5
  have h6 : Inv x5 := by
    unfold x5
    refine embers_inv ?_
    have h := h1
    refine ⟨h.mem, ?_, h.evr, h.frc, h.lat⟩
    · assumption
  try clear_value x5
  extract_lets -merge -useContext +onlyGivenNames x7
  have h8 : Inv x7 := by
    unfold x7
    refine enterFree_inv ?_
    exact h6
  try clear_value x7
  refine Inv.ite ?_ ?_
  · exact h8
  · refine Inv.keep (wr_prg (m := 67108351) rfl) rfl ?_
    exact h8

theorem loadStage_inv {b0 b1 b2 s} (hs : Inv s) : Inv (loadStage b0 b1 b2 s).2 := by
  unfold loadStage
  extract_lets -merge -useContext +onlyGivenNames x0
  try clear_value x0
  extract_lets -merge -useContext +onlyGivenNames x1
  try clear_value x1
  extract_lets -merge -useContext +onlyGivenNames x2
  try clear_value x2
  extract_lets -merge -useContext +onlyGivenNames x3
  try clear_value x3
  refine Inv.ite2 ?_ ?_
  · refine Inv.mkSnd ?_
    exact hs
  · split
    · refine Inv.mkSnd ?_
      refine emit_inv ?_
      exact hs
    · refine Inv.ite2 ?_ ?_
      · refine Inv.mkSnd ?_
        exact hs
      · extract_lets -merge -useContext +onlyGivenNames x6
        have h7 : Inv x6 := by
          unfold x6
          refine takeProg_inv ?_
          refine takeCfg_inv ?_
          exact hs
        try clear_value x6
        refine Inv.mkSnd ?_
        extract_lets -merge -useContext +onlyGivenNames x8
        have h9 : Inv x8 := by
          unfold x8
          refine Inv.keep trialState_keeps rfl ?_
          exact h7
        try clear_value x8
        refine Inv.set_cand (fun h => ?_) ?_
        · exact h.cand
        · exact h9

theorem bootSteps_inv {b0 b1 b2 s} (hs : Inv s) : Inv (bootSteps b0 b1 b2 s).1 := by
  unfold bootSteps
  extract_lets -merge -useContext +onlyGivenNames x0
  try clear_value x0
  refine Inv.ite1 ?_ ?_
  · refine Inv.mkFst ?_
    exact hs
  · refine Inv.ite1 ?_ ?_
    · refine Inv.mkFst ?_
      exact hs
    · extract_lets -merge -useContext +onlyGivenNames x1
      have h2 : Inv x1 := by
        unfold x1
        refine loadSlot_inv ?_
        refine trialCount_inv ?_
        exact hs
      try clear_value x1
      extract_lets -merge -useContext +onlyGivenNames x3
      try clear_value x3
      extract_lets -merge -useContext +onlyGivenNames x4
      have h5 : Inv x4 := by
        unfold x4
        refine Inv.ite ?_ ?_
        · exact h2
        · refine Inv.keep injResult_keeps rfl ?_
          exact h2
      try clear_value x4
      refine Inv.ite1 ?_ ?_
      · refine Inv.mkFst ?_
        refine faultRecord_inv ?_
        exact h5
      · split
        · rename_i y6 y7 q8
          have h9 : Inv y7 := by
            refine Inv.snd ?_ q8
            refine bankSelection_inv ?_
            exact h5
          extract_lets -merge -useContext +onlyGivenNames x10
          try clear_value x10
          refine Inv.ite1 ?_ ?_
          · refine Inv.mkFst ?_
            exact h9
          · extract_lets -merge -useContext +onlyGivenNames x11
            have h12 : Inv x11 := by
              unfold x11
              refine Inv.ite ?_ ?_
              · refine Inv.keep injResult_keeps rfl ?_
                exact h9
              · exact h9
            try clear_value x11
            refine Inv.ite1 ?_ ?_
            · refine Inv.mkFst ?_
              refine faultRecord_inv ?_
              exact h12
            · extract_lets -merge -useContext +onlyGivenNames x13
              have h14 : Inv x13 := by
                unfold x13
                refine Inv.keep lightLane_keeps rfl ?_
                refine Inv.keep lightLane_keeps rfl ?_
                exact h12
              try clear_value x13
              extract_lets -merge -useContext +onlyGivenNames x15
              have h16 : Inv x15 := by
                unfold x15
                refine Inv.ite ?_ ?_
                · refine Inv.keep laneTo_keeps rfl ?_
                  exact h14
                · refine Inv.keep lightLane_keeps rfl ?_
                  exact h14
              try clear_value x15
              split
              · refine Inv.mkFst ?_
                refine bootNoConfig_inv ?_
                exact h16
              · refine Inv.ite1 ?_ ?_
                · refine Inv.mkFst ?_
                  refine bootNoConfig_inv ?_
                  exact h16
                · split
                  · rename_i y19 q20
                    have h21 : Inv y19 := by
                      refine Inv.snd ?_ q20
                      refine loadStage_inv ?_
                      exact h16
                    refine Inv.mkFst ?_
                    refine startFree_inv ?_
                    exact h21
                  · rename_i y22 q23
                    have h24 : Inv y22 := by
                      refine Inv.snd ?_ q23
                      refine loadStage_inv ?_
                      exact h16
                    refine Inv.mkFst ?_
                    exact h24

theorem bootSequence_inv {b0 b1 b2 s} (hs : Inv s) : Inv (bootSequence b0 b1 b2 s) := by
  unfold bootSequence
  split
  · rename_i y0 q1
    have h2 : Inv y0 := by
      refine Inv.fst ?_ q1
      refine bootSteps_inv ?_
      exact hs
    exact h2
  · rename_i y3 y4 q5
    have h6 : Inv y3 := by
      refine Inv.fst ?_ q5
      refine bootSteps_inv ?_
      exact hs
    split
    · refine Inv.ite ?_ ?_
      · extract_lets -merge -useContext +onlyGivenNames x8
        have h9 : Inv x8 := by
          unfold x8
          refine imageEvent_inv ?_
          refine writeSelector_inv ?_
          exact h6
        try clear_value x8
        split
        · rename_i y10 q11
          have h12 : Inv y10 := by
            refine Inv.fst ?_ q11
            refine bootSteps_inv ?_
            refine Inv.set_cand (fun h => ?_) ?_
            · exact h.cand
            · exact h9
          exact h12
        · rename_i y13 y14 q15
          have h16 : Inv y13 := by
            refine Inv.fst ?_ q15
            refine bootSteps_inv ?_
            refine Inv.set_cand (fun h => ?_) ?_
            · exact h.cand
            · exact h9
          refine bootStop_inv ?_
          exact h16
      · refine bootStop_inv ?_
        exact h6
    · refine bootStop_inv ?_
      exact h6

theorem powerUp_inv {b0 s} (hs : Inv s) : Inv (powerUp b0 s) := by
  unfold powerUp
  extract_lets -merge -useContext +onlyGivenNames x0
  try clear_value x0
  extract_lets -merge -useContext +onlyGivenNames x1
  have h2 : Inv x1 := by
    unfold x1
    refine hardReset_inv ?_
    exact hs
  try clear_value x1
  extract_lets -merge -useContext +onlyGivenNames x3
  try clear_value x3
  extract_lets -merge -useContext +onlyGivenNames x4
  have h5 : x4 = x1.cand := rfl
  replace h5 : x4.light.length ≤ 64 := by
    rw [h5]
    exact h2.cand
  try clear_value x4
  extract_lets -merge -useContext +onlyGivenNames x6
  try clear_value x6
  extract_lets -merge -useContext +onlyGivenNames x7
  try clear_value x7
  extract_lets -merge -useContext +onlyGivenNames x8
  try clear_value x8
  extract_lets -merge -useContext +onlyGivenNames x9
  have h10 : Inv x9 := by
    unfold x9
    have h := h2
    refine ⟨h.mem, ?_, h.evr, h.frc, h.lat⟩
    · assumption
  try clear_value x9
  extract_lets -merge -useContext +onlyGivenNames x11
  try clear_value x11
  extract_lets -merge -useContext +onlyGivenNames x12
  have h13 : Inv x12 := by
    unfold x12
    refine candleState_inv ?_
    exact h10
  try clear_value x12
  extract_lets -merge -useContext +onlyGivenNames x14
  try clear_value x14
  extract_lets -merge -useContext +onlyGivenNames x15
  have h16 : Inv x15 := by
    unfold x15
    refine consumeSd_inv ?_
    exact h13
  try clear_value x15
  extract_lets -merge -useContext +onlyGivenNames x17
  have h18 : Inv x17 := by
    unfold x17
    refine Inv.keep setRf_keeps rfl ?_
    exact h16
  try clear_value x17
  extract_lets -merge -useContext +onlyGivenNames x19
  have h20 : Inv x19 := by
    unfold x19
    refine recorderStart_inv ?_
    exact h18
  try clear_value x19
  extract_lets -merge -useContext +onlyGivenNames x21
  have h22 : Inv x21 := by
    unfold x21
    refine candleRecords_inv ?_
    exact h20
  try clear_value x21
  extract_lets -merge -useContext +onlyGivenNames x23
  have h24 : Inv x23 := by
    unfold x23
    refine Inv.ite ?_ ?_
    · refine emit_inv ?_
      exact h22
    · exact h22
  try clear_value x23
  refine bootSequence_inv ?_
  exact h24

theorem execPowerUp_inv {b0 b1 s} (hs : Inv s) : InvA (execPowerUp b0 b1 s) := by
  unfold execPowerUp
  extract_lets -merge -useContext +onlyGivenNames x0
  have h1 : Inv x0 := by
    unfold x0
    refine begin'_inv ?_
    exact hs
  try clear_value x0
  refine InvA.next ?_
  split
  · refine powerUp_inv ?_
    exact h1
  · refine powerUp_inv ?_
    exact h1
  · refine powerUp_inv ?_
    exact h1
  · exact h1

theorem shutdownStart_inv {b0 s} (hs : Inv s) : Inv (shutdownStart b0 s) := by
  unfold shutdownStart
  extract_lets -merge -useContext +onlyGivenNames x0
  have h1 : Inv x0 := by
    unfold x0
    refine Inv.ite ?_ ?_
    · refine Inv.keep mirror_keeps rfl ?_
      exact hs
    · exact hs
  try clear_value x0
  extract_lets -merge -useContext +onlyGivenNames x2
  have h3 : Inv x2 := by
    unfold x2
    refine endAllPosts_inv ?_
    refine Inv.keep pinsOff_keeps rfl ?_
    exact h1
  try clear_value x2
  extract_lets -merge -useContext +onlyGivenNames x4
  have h5 : Inv x4 := by
    unfold x4
    refine Inv.ite ?_ ?_
    · exact h3
    · refine Inv.keep xchDiscard_keeps rfl ?_
      exact h3
  try clear_value x4
  exact Inv.keep (show Keeps 58719743 x4 _ from ⟨fun _ => rfl, fun _ => rfl, fun _ => rfl, fun _ => rfl, fun _ => rfl, fun _ => rfl, fun _ => rfl, fun _ => rfl, fun _ => rfl, fun h => noBit h rfl, fun _ => rfl, fun _ => rfl, fun _ => rfl, fun _ => rfl, fun _ => rfl, fun _ => rfl, fun _ => rfl, fun _ => rfl, fun _ => rfl, fun _ => rfl, fun _ => rfl, fun _ => rfl, fun _ => rfl, fun h => noBit h rfl, fun _ => rfl, fun _ => rfl⟩) rfl h5

theorem ingestAll_inv {b0 s} (hs : Inv s) : Inv (ingestAll b0 s) := by
  induction b0 generalizing s with
  | zero =>
    rw [ingestAll.eq_1]
    exact hs
  | succ z ih =>
    rw [ingestAll.eq_2]
    refine Inv.ite ?_ ?_
    · exact hs
    · refine ih ?_
      refine ingest_inv ?_
      exact hs

theorem shutdownRecord_inv {b0 b1 s} (hs : Inv s) : Inv (shutdownRecord b0 b1 s) := by
  unfold shutdownRecord
  extract_lets -merge -useContext +onlyGivenNames x0
  have h1 : Inv x0 := by
    unfold x0
    refine Inv.ite ?_ ?_
    · refine freezeEnd_inv ?_
      exact hs
    · exact hs
  try clear_value x0
  extract_lets -merge -useContext +onlyGivenNames x2
  have h3 : Inv x2 := by
    unfold x2
    refine emit_inv ?_
    exact h1
  try clear_value x2
  refine closeOpen_inv ?_
  refine ingestAll_inv ?_
  refine closeOpen_inv ?_
  exact h3

theorem shutdownCut_inv {s} (hs : Inv s) : Inv (shutdownCut s) := by
  unfold shutdownCut
  refine Inv.keep openAll_keeps rfl ?_
  refine recordCut_inv ?_
  exact hs

theorem shutdownCommit_inv {s} (hs : Inv s) : Inv (shutdownCommit s) := by
  unfold shutdownCommit
  refine Inv.ite ?_ ?_
  · refine commitAll_inv ?_
    exact hs
  · exact hs

theorem sdStep_inv {b0 b1 b2 s} (hf2 : ∀ t, Inv t → Inv (b2 t)) (hs : Inv s) : Inv (sdStep b0 b1 b2 s) := by
  unfold sdStep
  refine Inv.ite ?_ ?_
  · refine hf2 _ ?_
    exact hs
  · exact hs

theorem shutdownSteps_inv {b0 b1 s} (hs : Inv s) : Inv (shutdownSteps b0 b1 s) := by
  unfold shutdownSteps
  extract_lets -merge -useContext +onlyGivenNames x0
  try clear_value x0
  extract_lets -merge -useContext +onlyGivenNames x1
  have h2 : Inv x1 := by
    unfold x1
    refine shutdownStart_inv ?_
    exact hs
  try clear_value x1
  extract_lets -merge -useContext +onlyGivenNames x3
  have h4 : Inv x3 := by
    unfold x3
    refine sdStep_inv ?_ ?_
    · intro s hs
      refine writeSd_inv ?_
      exact hs
    · exact h2
  try clear_value x3
  extract_lets -merge -useContext +onlyGivenNames x5
  have h6 : Inv x5 := by
    unfold x5
    refine sdStep_inv ?_ ?_
    · intro s hs
      refine writeAnchor_inv ?_
      exact hs
    · exact h4
  try clear_value x5
  extract_lets -merge -useContext +onlyGivenNames x7
  have h8 : Inv x7 := by
    unfold x7
    refine sdStep_inv ?_ ?_
    · intro s hs
      refine shutdownRecord_inv ?_
      exact hs
    · exact h6
  try clear_value x7
  extract_lets -merge -useContext +onlyGivenNames x9
  have h10 : Inv x9 := by
    unfold x9
    refine sdStep_inv ?_ ?_
    · intro s hs
      refine Inv.ite ?_ ?_
      · refine rtcWrite_inv ?_
        exact hs
      · exact hs
    · exact h8
  try clear_value x9
  extract_lets -merge -useContext +onlyGivenNames x11
  have h12 : Inv x11 := by
    unfold x11
    refine sdStep_inv ?_ ?_
    · intro s hs
      refine shutdownCut_inv ?_
      exact hs
    · exact h10
  try clear_value x11
  extract_lets -merge -useContext +onlyGivenNames x13
  have h14 : Inv x13 := by
    unfold x13
    refine sdStep_inv ?_ ?_
    · intro s hs
      refine shutdownCommit_inv ?_
      exact hs
    · exact h12
  try clear_value x13
  extract_lets -merge -useContext +onlyGivenNames x15
  have h16 : Inv x15 := by
    unfold x15
    refine sdStep_inv ?_ ?_
    · intro s hs
      refine writeLight_inv ?_
      exact hs
    · exact h14
  try clear_value x15
  extract_lets -merge -useContext +onlyGivenNames x17
  have h18 : Inv x17 := by
    unfold x17
    refine sdStep_inv ?_ ?_
    · intro s hs
      refine writeStat_inv ?_
      exact hs
    · exact h16
  try clear_value x17
  refine sdStep_inv ?_ ?_
  · intro s hs
    refine writeSd_inv ?_
    exact hs
  · exact h18

theorem execPowerFailWarning_inv {b0 b1 b2 b3 s} (hs : Inv s) : InvA (execPowerFailWarning b0 b1 b2 b3 s) := by
  unfold execPowerFailWarning
  extract_lets -merge -useContext +onlyGivenNames x0
  have h1 : Inv x0 := by
    unfold x0
    refine begin'_inv ?_
    exact hs
  try clear_value x0
  refine InvA.next ?_
  refine Inv.ite ?_ ?_
  · extract_lets -merge -useContext +onlyGivenNames x2
    have h3 : Inv x2 := by
      unfold x2
      refine shutdownSteps_inv ?_
      refine Inv.keep stat_keeps rfl ?_
      exact h1
    try clear_value x2
    refine Inv.ite ?_ ?_
    · have h := h3
      refine ⟨h.mem, ?_, h.evr, h.frc, h.lat⟩
      · exact h.cand
    · refine Inv.keep (wr_pwr (m := 67108799) rfl) rfl ?_
      exact h3
  · exact h1

theorem expire_inv {b0 s} (hs : Inv s) : Inv (expire b0 s) := by
  unfold expire
  extract_lets -merge -useContext +onlyGivenNames x0
  have h1 : Inv x0 := by
    unfold x0
    refine shutdownSteps_inv ?_
    refine forcesHalt_inv ?_
    refine xchAbort_inv ?_
    exact hs
  try clear_value x0
  extract_lets -merge -useContext +onlyGivenNames x2
  have h3 : Inv x2 := by
    unfold x2
    refine setMode_inv ?_
    exact h1
  try clear_value x2
  exact Inv.keep (show Keeps 49282495 x2 _ from ⟨fun _ => rfl, fun _ => rfl, fun _ => rfl, fun _ => rfl, fun _ => rfl, fun _ => rfl, fun h => noBit h rfl, fun _ => rfl, fun _ => rfl, fun h => noBit h rfl, fun _ => rfl, fun _ => rfl, fun _ => rfl, fun _ => rfl, fun _ => rfl, fun _ => rfl, fun _ => rfl, fun _ => rfl, fun _ => rfl, fun _ => rfl, fun h => noBit h rfl, fun _ => rfl, fun _ => rfl, fun _ => rfl, fun h => noBit h rfl, fun _ => rfl⟩) rfl h3

theorem execDegradedExpired_inv {b0 s} (hs : Inv s) : InvA (execDegradedExpired b0 s) := by
  unfold execDegradedExpired
  extract_lets -merge -useContext +onlyGivenNames x0
  have h1 : Inv x0 := by
    unfold x0
    refine begin'_inv ?_
    exact hs
  try clear_value x0
  refine InvA.next ?_
  refine Inv.ite ?_ ?_
  · refine expire_inv ?_
    refine degradedRecord_inv ?_
    exact h1
  · exact h1

theorem execRecorderExpired_inv {b0 s} (hs : Inv s) : InvA (execRecorderExpired b0 s) := by
  unfold execRecorderExpired
  extract_lets -merge -useContext +onlyGivenNames x0
  have h1 : Inv x0 := by
    unfold x0
    refine begin'_inv ?_
    exact hs
  try clear_value x0
  refine InvA.next ?_
  refine Inv.ite ?_ ?_
  · refine expire_inv ?_
    refine emit_inv ?_
    exact h1
  · exact h1

end Sys2Proof.Machine
end

