-- ==== Sys2Proof/Laws/KeepsUpdate.lean ====
section
/-! SUPPORT. Frames of the functions of Machine/Update.lean: what each leaves alone, said once. The docstrings name the parts of `State` a function may write; the mask marks all others. -/

namespace Sys2Proof.Machine

/-- Writes at most: sent upd lnk. -/
theorem sendSeg_keeps {b0 b1 b2 b3 b4 s} : Keeps 41943037 s (sendSeg b0 b1 b2 b3 b4 s) := by
  unfold sendSeg
  refine Keeps.ite ?_ ?_
  · refine Keeps.app (wr_upd rfl) ?_
    exact Keeps.refl
  · extract_lets -merge -useContext +onlyGivenNames x0
    try clear_value x0
    refine Keeps.ite ?_ ?_
    · refine Keeps.step send_keeps rfl ?_
      exact Keeps.refl
    · refine Keeps.step sendLink_keeps rfl ?_
      exact Keeps.refl

/-- Writes at most: sent upd lnk. -/
theorem sendMsg_keeps {b0 b1 b2 b3 b4 b5 b6 s} : Keeps 41943037 s (sendMsg b0 b1 b2 b3 b4 b5 b6 s) := by
  unfold sendMsg
  extract_lets -merge -useContext +onlyGivenNames x0
  try clear_value x0
  extract_lets -merge -useContext +onlyGivenNames x1
  try clear_value x1
  refine Keeps.foldl ?_ _ ?_
  · intro s a2
    refine Keeps.step sendSeg_keeps rfl ?_
    exact Keeps.refl
  · exact Keeps.refl

/-- Writes at most: cand. -/
theorem modSlot_keeps {b0 b1 b2 s} : Keeps 67108831 s (modSlot b0 b1 b2 s) := by
  unfold modSlot
  extract_lets -merge -useContext +onlyGivenNames x0
  try clear_value x0
  refine Keeps.step writeSelector_keeps rfl ?_
  exact Keeps.refl

/-- Writes at most: regs. -/
theorem updReason_keeps {b0 s} : Keeps 67092479 s (updReason b0 s) := by
  unfold updReason
  refine Keeps.step setRf_keeps rfl ?_
  refine Keeps.step setRf_keeps rfl ?_
  exact Keeps.refl

/-- Writes at most: sent upd lnk. -/
theorem sendOffer_keeps {b0 b1 s} : Keeps 41943037 s (sendOffer b0 b1 s) := by
  unfold sendOffer
  refine Keeps.step sendMsg_keeps rfl ?_
  exact Keeps.refl

/-- Writes at most: sent cand regs evr upd lnk. -/
theorem acceptOffer_keeps {b0 b1 b2 b3 s} : Keeps 39829469 s (acceptOffer b0 b1 b2 b3 s) := by
  unfold acceptOffer
  extract_lets -merge -useContext +onlyGivenNames x0
  try clear_value x0
  extract_lets -merge -useContext +onlyGivenNames x1
  try clear_value x1
  extract_lets -merge -useContext +onlyGivenNames x2
  try clear_value x2
  extract_lets -merge -useContext +onlyGivenNames x3
  try clear_value x3
  extract_lets -merge -useContext +onlyGivenNames x4
  try clear_value x4
  extract_lets -merge -useContext +onlyGivenNames x5
  try clear_value x5
  extract_lets -merge -useContext +onlyGivenNames x6
  try clear_value x6
  extract_lets -merge -useContext +onlyGivenNames x7
  try clear_value x7
  extract_lets -merge -useContext +onlyGivenNames x8
  try clear_value x8
  extract_lets -merge -useContext +onlyGivenNames x9
  have h10 : Keeps 39829469 s x9 := by
    unfold x9
    refine Keeps.ite ?_ ?_
    · refine Keeps.step writeSelector_keeps rfl ?_
      exact Keeps.refl
    · exact Keeps.refl
  try clear_value x9
  extract_lets -merge -useContext +onlyGivenNames x11
  have h12 : Keeps 39829469 s x11 := by
    unfold x11
    refine Keeps.ite ?_ ?_
    · refine Keeps.step modSlot_keeps rfl ?_
      exact h10
    · exact Keeps.refl
  try clear_value x11
  extract_lets -merge -useContext +onlyGivenNames x13
  try clear_value x13
  extract_lets -merge -useContext +onlyGivenNames x14
  have h15 : Keeps 39829469 s x14 := by
    unfold x14
    refine Keeps.app (wr_upd rfl) ?_
    exact h12
  try clear_value x14
  extract_lets -merge -useContext +onlyGivenNames x16
  have h17 : Keeps 39829469 s x16 := by
    unfold x16
    refine Keeps.step imageEvent_keeps rfl ?_
    exact h15
  try clear_value x16
  extract_lets -merge -useContext +onlyGivenNames x18
  have h19 : Keeps 39829469 s x18 := by
    unfold x18
    refine Keeps.step sendMsg_keeps rfl ?_
    exact h17
  try clear_value x18
  refine Keeps.foldl ?_ _ ?_
  · intro s a20
    refine Keeps.step sendOffer_keeps rfl ?_
    exact Keeps.refl
  · exact h19

/-- Writes at most: sent regs evr upd lnk. -/
theorem refuseOffer_keeps {b0 b1 b2 b3 b4 s} : Keeps 39829501 s (refuseOffer b0 b1 b2 b3 b4 s) := by
  unfold refuseOffer
  extract_lets -merge -useContext +onlyGivenNames x0
  try clear_value x0
  extract_lets -merge -useContext +onlyGivenNames x1
  try clear_value x1
  extract_lets -merge -useContext +onlyGivenNames x2
  have h3 : Keeps 39829501 s x2 := by
    unfold x2
    refine Keeps.step imageEvent_keeps rfl ?_
    refine Keeps.step cnt_keeps rfl ?_
    refine Keeps.step updReason_keeps rfl ?_
    exact Keeps.refl
  try clear_value x2
  refine Keeps.step sendMsg_keeps rfl ?_
  exact h3

/-- Writes at most: sent upd lnk. -/
theorem answerAgain_keeps {b0 s} : Keeps 41943037 s (answerAgain b0 s) := by
  unfold answerAgain
  refine Keeps.step sendMsg_keeps rfl ?_
  exact Keeps.refl

/-- Writes at most: sent cand regs evr upd lnk. -/
theorem takeOffer_keeps {b0 b1 b2 b3 s} : Keeps 39829469 s (takeOffer b0 b1 b2 b3 s) := by
  unfold takeOffer
  extract_lets -merge -useContext +onlyGivenNames x0
  have h1 : Keeps 39829469 s x0 := by
    unfold x0
    refine Keeps.step cnt_keeps rfl ?_
    exact Keeps.refl
  try clear_value x0
  extract_lets -merge -useContext +onlyGivenNames x2
  try clear_value x2
  refine Keeps.ite ?_ ?_
  · refine Keeps.step refuseOffer_keeps rfl ?_
    exact h1
  · split
    · refine Keeps.step answerAgain_keeps rfl ?_
      exact h1
    · refine Keeps.step acceptOffer_keeps rfl ?_
      exact h1

/-- Writes at most: regs lnk. -/
theorem relayRow_keeps {m : Nat} {b0 b1 s} (hf1 : ∀ t, Keeps m t (b1 t)) (hm : m &&& 50315263 = m) : Keeps m s (relayRow b0 b1 s) := by
  unfold relayRow
  refine Keeps.ite ?_ ?_
  · exact Keeps.refl
  · refine Keeps.ite ?_ ?_
    · refine Keeps.app (hf1 _) ?_
      exact Keeps.refl
    · split
      · rename_i y0 q1
        have h2 : Keeps m s y0 := by
          refine Keeps.snd ?_ q1
          refine Keeps.step linkIn_keeps (land_le hm rfl) ?_
          exact Keeps.refl
        refine Keeps.app (hf1 _) ?_
        exact h2
      · rename_i y3 q4
        have h5 : Keeps m s y3 := by
          refine Keeps.snd ?_ q4
          refine Keeps.step linkIn_keeps (land_le hm rfl) ?_
          exact Keeps.refl
        exact h5

/-- Writes at most: sent cand regs evr upd lnk. -/
theorem offerSeg_keeps {b0 s} : Keeps 39829469 s (offerSeg b0 s) := by
  unfold offerSeg
  extract_lets -merge -useContext +onlyGivenNames x0
  try clear_value x0
  extract_lets -merge -useContext +onlyGivenNames x1
  try clear_value x1
  extract_lets -merge -useContext +onlyGivenNames x2
  try clear_value x2
  extract_lets -merge -useContext +onlyGivenNames x3
  try clear_value x3
  extract_lets -merge -useContext +onlyGivenNames x4
  try clear_value x4
  extract_lets -merge -useContext +onlyGivenNames x5
  try clear_value x5
  extract_lets -merge -useContext +onlyGivenNames x6
  try clear_value x6
  split
  · refine Keeps.step takeOffer_keeps rfl ?_
    refine Keeps.app (wr_upd rfl) ?_
    exact Keeps.refl
  · refine Keeps.app (wr_upd rfl) ?_
    exact Keeps.refl

/-- Writes at most: sent clk civ cand prg regs bus evr upd lnk. -/
theorem execOffer_keeps {b0 b1 s} : Answers 39796165 s (execOffer b0 b1 s) := by
  unfold execOffer
  refine Answers.next ?_
  refine Keeps.app (relayRow_keeps ?_ rfl) ?_
  · intro s
    refine Keeps.step offerSeg_keeps rfl ?_
    exact Keeps.refl
  · refine Keeps.step begin'_keeps rfl ?_
    exact Keeps.refl

/-- Writes at most: upd. -/
theorem setDl_keeps {b0 s} : Keeps 58720255 s (setDl b0 s) := by
  unfold setDl
  refine Keeps.app (wr_upd rfl) ?_
  exact Keeps.refl

/-- Writes at most: upd. -/
theorem endDl_keeps {b0 s} : Keeps 58720255 s (endDl b0 s) := by
  unfold endDl
  refine Keeps.app (wr_upd rfl) ?_
  exact Keeps.refl

/-- Writes at most: sent regs upd lnk. -/
theorem pumpOne_keeps {b0 b1 b2 s} : Keeps 41926653 s (pumpOne b0 b1 b2 s).2 := by
  induction b1 generalizing b0 b2 s with
  | zero =>
    rw [pumpOne.eq_1]
    refine Keeps.mkSnd ?_
    exact Keeps.refl
  | succ z ih =>
    rw [pumpOne.eq_2]
    split
    · refine Keeps.ite2 ?_ ?_
      · refine Keeps.app ih ?_
        refine Keeps.step cnt_keeps rfl ?_
        refine Keeps.step sendMsg_keeps rfl ?_
        exact Keeps.refl
      · refine Keeps.mkSnd ?_
        exact Keeps.refl
    · refine Keeps.mkSnd ?_
      exact Keeps.refl

/-- Writes at most: sent regs upd lnk. -/
theorem pumpAll_keeps {b0 b1 s} : Keeps 41926653 s (pumpAll b0 b1 s).2 := by
  induction b1 generalizing b0 s with
  | nil =>
    rw [pumpAll.eq_1]
    refine Keeps.mkSnd ?_
    exact Keeps.refl
  | cons z zs ih =>
    rw [pumpAll.eq_2]
    split
    · rename_i y0 y1 q2
      have h3 : Keeps 41926653 s y1 := by
        refine Keeps.snd ?_ q2
        refine Keeps.step pumpOne_keeps rfl ?_
        exact Keeps.refl
      split
      · rename_i y4 y5 q6
        have h7 : Keeps 41926653 s y5 := by
          refine Keeps.snd ?_ q6
          refine Keeps.app ih ?_
          exact h3
        refine Keeps.mkSnd ?_
        exact h7

/-- Writes at most: sent regs evr upd lnk. -/
theorem settleDl_keeps {b0 s} : Keeps 39829501 s (settleDl b0 s) := by
  unfold settleDl
  extract_lets -merge -useContext +onlyGivenNames x0
  try clear_value x0
  extract_lets -merge -useContext +onlyGivenNames x1
  try clear_value x1
  split
  · rename_i y2 y3 q4
    have h5 : Keeps 39829501 s y3 := by
      refine Keeps.snd ?_ q4
      refine Keeps.ite2 ?_ ?_
      · refine Keeps.mkSnd ?_
        exact Keeps.refl
      · refine Keeps.mkSnd ?_
        refine Keeps.foldl ?_ _ ?_
        · intro s a6
          refine Keeps.step sendMsg_keeps rfl ?_
          exact Keeps.refl
        · exact Keeps.refl
    extract_lets -merge -useContext +onlyGivenNames x7
    try clear_value x7
    refine Keeps.ite ?_ ?_
    · refine Keeps.step endDl_keeps rfl ?_
      refine Keeps.ite ?_ ?_
      · exact h5
      · refine Keeps.step imageEvent_keeps rfl ?_
        exact h5
    · refine Keeps.step setDl_keeps rfl ?_
      exact h5

/-- Writes at most: sent regs evr upd lnk. -/
theorem runDl_keeps {b0 s} : Keeps 39829501 s (runDl b0 s) := by
  unfold runDl
  split
  · rename_i y0 y1 q2
    have h3 : Keeps 39829501 s y1 := by
      refine Keeps.snd ?_ q2
      refine Keeps.step pumpAll_keeps rfl ?_
      exact Keeps.refl
    refine Keeps.step settleDl_keeps rfl ?_
    exact h3

/-- Writes at most: sent regs evr upd lnk. -/
theorem takeChunk_keeps {b0 b1 b2 s} : Keeps 39829501 s (takeChunk b0 b1 b2 s) := by
  unfold takeChunk
  extract_lets -merge -useContext +onlyGivenNames x0
  try clear_value x0
  refine Keeps.ite ?_ ?_
  · extract_lets -merge -useContext +onlyGivenNames x1
    try clear_value x1
    refine Keeps.step runDl_keeps rfl ?_
    exact Keeps.refl
  · extract_lets -merge -useContext +onlyGivenNames x2
    have h3 : Keeps 39829501 s x2 := by
      unfold x2
      refine Keeps.step sendMsg_keeps rfl ?_
      refine Keeps.step cnt_keeps rfl ?_
      exact Keeps.refl
    try clear_value x2
    extract_lets -merge -useContext +onlyGivenNames x4
    try clear_value x4
    refine Keeps.ite ?_ ?_
    · refine Keeps.step imageEvent_keeps rfl ?_
      refine Keeps.step updReason_keeps rfl ?_
      refine Keeps.step endDl_keeps rfl ?_
      exact h3
    · refine Keeps.step setDl_keeps rfl ?_
      exact h3

/-- Writes at most: sent regs evr upd lnk. -/
theorem dataSeg_keeps {b0 s} : Keeps 39829501 s (dataSeg b0 s) := by
  unfold dataSeg
  split
  · exact Keeps.refl
  · extract_lets -merge -useContext +onlyGivenNames x2
    try clear_value x2
    extract_lets -merge -useContext +onlyGivenNames x3
    try clear_value x3
    extract_lets -merge -useContext +onlyGivenNames x4
    try clear_value x4
    refine Keeps.ite ?_ ?_
    · exact Keeps.refl
    · extract_lets -merge -useContext +onlyGivenNames x5
      try clear_value x5
      extract_lets -merge -useContext +onlyGivenNames x6
      try clear_value x6
      split
      · refine Keeps.step takeChunk_keeps rfl ?_
        exact Keeps.refl
      · refine Keeps.step setDl_keeps rfl ?_
        exact Keeps.refl

/-- Writes at most: sent clk civ cand prg regs bus evr upd lnk. -/
theorem execData_keeps {b0 b1 s} : Answers 39796165 s (execData b0 b1 s) := by
  unfold execData
  refine Answers.next ?_
  refine Keeps.app (relayRow_keeps ?_ rfl) ?_
  · intro s
    refine Keeps.step dataSeg_keeps rfl ?_
    exact Keeps.refl
  · refine Keeps.step begin'_keeps rfl ?_
    exact Keeps.refl

/-- Writes at most: sent regs evr upd lnk. -/
theorem onNeighbour_keeps {m : Nat} {b0 b1 s} (hf1 : ∀ c0 c1 t, Keeps m t (b1 c0 c1 t).2) (hm : m &&& 39829501 = m) : Keeps m s (onNeighbour b0 b1 s) := by
  unfold onNeighbour
  split
  · exact Keeps.refl
  · split
    · exact Keeps.refl
    · split
      · rename_i y4 y5 q6
        have h7 : Keeps m s y5 := by
          refine Keeps.snd ?_ q6
          refine Keeps.app (hf1 _ _ _) ?_
          exact Keeps.refl
        refine Keeps.ite ?_ ?_
        · exact h7
        · refine Keeps.step runDl_keeps (land_le hm rfl) ?_
          exact h7

/-- Writes at most: sent clk civ cand prg regs bus evr upd lnk. -/
theorem execGood_keeps {b0 b1 s} : Answers 39796165 s (execGood b0 b1 s) := by
  unfold execGood
  refine Answers.next ?_
  refine Keeps.app (relayRow_keeps ?_ rfl) ?_
  · intro s
    refine Keeps.app (onNeighbour_keeps ?_ rfl) ?_
    · intro a0 a1 s
      extract_lets -merge -useContext +onlyGivenNames x2
      try clear_value x2
      refine Keeps.ite2 ?_ ?_
      · refine Keeps.mkSnd ?_
        exact Keeps.refl
      · refine Keeps.mkSnd ?_
        exact Keeps.refl
    · exact Keeps.refl
  · refine Keeps.step begin'_keeps rfl ?_
    exact Keeps.refl

/-- Writes at most: sent regs evr upd lnk. -/
theorem dropNeighbour_keeps {b0 b1 b2 b3 s} : Keeps 39829501 s (dropNeighbour b0 b1 b2 b3 s).2 := by
  unfold dropNeighbour
  extract_lets -merge -useContext +onlyGivenNames x0
  have h1 : Keeps 39829501 s x0 := by
    unfold x0
    refine Keeps.step imageEvent_keeps rfl ?_
    exact Keeps.refl
  try clear_value x0
  extract_lets -merge -useContext +onlyGivenNames x2
  try clear_value x2
  extract_lets -merge -useContext +onlyGivenNames x3
  have h4 : Keeps 39829501 s x3 := by
    unfold x3
    refine Keeps.ite ?_ ?_
    · refine Keeps.step endDl_keeps rfl ?_
      refine Keeps.step sendMsg_keeps rfl ?_
      exact h1
    · exact h1
  try clear_value x3
  refine Keeps.mkSnd ?_
  exact h4

/-- Writes at most: sent clk civ cand prg regs bus evr upd lnk. -/
theorem execBad_keeps {b0 b1 s} : Answers 39796165 s (execBad b0 b1 s) := by
  unfold execBad
  refine Answers.next ?_
  refine Keeps.app (relayRow_keeps ?_ rfl) ?_
  · intro s
    refine Keeps.app (onNeighbour_keeps ?_ rfl) ?_
    · intro a0 a1 s
      extract_lets -merge -useContext +onlyGivenNames x2
      try clear_value x2
      refine Keeps.ite2 ?_ ?_
      · extract_lets -merge -useContext +onlyGivenNames x3
        try clear_value x3
        refine Keeps.ite2 ?_ ?_
        · refine Keeps.step dropNeighbour_keeps rfl ?_
          exact Keeps.refl
        · split
          · refine Keeps.mkSnd ?_
            refine Keeps.step sendMsg_keeps rfl ?_
            exact Keeps.refl
          · refine Keeps.mkSnd ?_
            exact Keeps.refl
      · refine Keeps.mkSnd ?_
        exact Keeps.refl
    · exact Keeps.refl
  · refine Keeps.step begin'_keeps rfl ?_
    exact Keeps.refl

/-- Writes at most: sent clk civ cand prg regs bus evr upd lnk. -/
theorem execResume_keeps {b0 b1 s} : Answers 39796165 s (execResume b0 b1 s) := by
  unfold execResume
  refine Answers.next ?_
  refine Keeps.app (relayRow_keeps ?_ rfl) ?_
  · intro s
    refine Keeps.app (onNeighbour_keeps ?_ rfl) ?_
    · intro a0 a1 s
      extract_lets -merge -useContext +onlyGivenNames x2
      try clear_value x2
      refine Keeps.ite2 ?_ ?_
      · refine Keeps.mkSnd ?_
        exact Keeps.refl
      · refine Keeps.mkSnd ?_
        exact Keeps.refl
    · exact Keeps.refl
  · refine Keeps.step begin'_keeps rfl ?_
    exact Keeps.refl

/-- Writes at most: sent clk civ cand prg regs bus evr upd lnk. -/
theorem execRefuse_keeps {b0 b1 s} : Answers 39796165 s (execRefuse b0 b1 s) := by
  unfold execRefuse
  refine Answers.next ?_
  refine Keeps.app (relayRow_keeps ?_ rfl) ?_
  · intro s
    refine Keeps.app (onNeighbour_keeps ?_ rfl) ?_
    · intro a0 a1 s
      refine Keeps.ite2 ?_ ?_
      · refine Keeps.step dropNeighbour_keeps rfl ?_
        exact Keeps.refl
      · refine Keeps.mkSnd ?_
        exact Keeps.refl
    · exact Keeps.refl
  · refine Keeps.step begin'_keeps rfl ?_
    exact Keeps.refl

/-- Writes at most: sent regs evr upd lnk. -/
theorem norFailed_keeps {b0 s} : Keeps 39829501 s (norFailed b0 s) := by
  unfold norFailed
  extract_lets -merge -useContext +onlyGivenNames x0
  have h1 : Keeps 39829501 s x0 := by
    unfold x0
    refine Keeps.step updReason_keeps rfl ?_
    exact Keeps.refl
  try clear_value x0
  extract_lets -merge -useContext +onlyGivenNames x2
  have h3 : Keeps 39829501 s x2 := by
    unfold x2
    refine Keeps.step imageEvent_keeps rfl ?_
    exact h1
  try clear_value x2
  refine Keeps.step endDl_keeps rfl ?_
  refine Keeps.step sendMsg_keeps rfl ?_
  exact h3

/-- Writes at most: sent cand mem regs evr upd lnk. -/
theorem storeChunk_keeps {b0 s} : Keeps 39827421 s (storeChunk b0 s) := by
  unfold storeChunk
  split
  · exact Keeps.refl
  · extract_lets -merge -useContext +onlyGivenNames x3
    try clear_value x3
    extract_lets -merge -useContext +onlyGivenNames x4
    have h5 : Keeps 39827421 s x4 := by
      unfold x4
      refine Keeps.app (wr_mem rfl) ?_
      exact Keeps.refl
    try clear_value x4
    extract_lets -merge -useContext +onlyGivenNames x6
    try clear_value x6
    extract_lets -merge -useContext +onlyGivenNames x7
    have h8 : Keeps 39827421 s x7 := by
      unfold x7
      refine Keeps.step modSlot_keeps rfl ?_
      exact h5
    try clear_value x7
    extract_lets -merge -useContext +onlyGivenNames x9
    have h10 : Keeps 39827421 s x9 := by
      unfold x9
      refine Keeps.step sendMsg_keeps rfl ?_
      exact h8
    try clear_value x9
    refine Keeps.step runDl_keeps rfl ?_
    exact h10

/-- Writes at most: sent clk civ cand prg mem regs bus evr upd lnk. -/
theorem execChunkStored_keeps {b0 b1 b2 s} : Answers 39794117 s (execChunkStored b0 b1 b2 s) := by
  unfold execChunkStored
  extract_lets -merge -useContext +onlyGivenNames x0
  have h1 : Keeps 39794117 s x0 := by
    unfold x0
    refine Keeps.step begin'_keeps rfl ?_
    exact Keeps.refl
  try clear_value x0
  refine Answers.next ?_
  split
  · refine Keeps.ite ?_ ?_
    · refine Keeps.ite ?_ ?_
      · refine Keeps.step storeChunk_keeps rfl ?_
        exact h1
      · refine Keeps.step norFailed_keeps rfl ?_
        exact h1
    · exact h1
  · exact h1

/-- Writes at most: sent clk civ cand prg bus upd lnk. -/
theorem execOfferRepeat_keeps {b0 b1 s} : Answers 41909701 s (execOfferRepeat b0 b1 s) := by
  unfold execOfferRepeat
  extract_lets -merge -useContext +onlyGivenNames x0
  have h1 : Keeps 41909701 s x0 := by
    unfold x0
    refine Keeps.step begin'_keeps rfl ?_
    exact Keeps.refl
  try clear_value x0
  refine Answers.next ?_
  split
  · refine Keeps.ite ?_ ?_
    · extract_lets -merge -useContext +onlyGivenNames x3
      try clear_value x3
      extract_lets -merge -useContext +onlyGivenNames x4
      have h5 : Keeps 41909701 s x4 := by
        unfold x4
        refine Keeps.foldl ?_ _ ?_
        · intro s a6
          refine Keeps.ite ?_ ?_
          · refine Keeps.step sendOffer_keeps rfl ?_
            exact Keeps.refl
          · exact Keeps.refl
        · exact h1
      try clear_value x4
      refine Keeps.step setDl_keeps rfl ?_
      exact h5
    · exact h1
  · exact h1

/-- Writes at most: sent clk civ cand prg bus upd lnk. -/
theorem execChunkTimeout_keeps {b0 b1 s} : Answers 41909701 s (execChunkTimeout b0 b1 s) := by
  unfold execChunkTimeout
  extract_lets -merge -useContext +onlyGivenNames x0
  have h1 : Keeps 41909701 s x0 := by
    unfold x0
    refine Keeps.step begin'_keeps rfl ?_
    exact Keeps.refl
  try clear_value x0
  refine Answers.next ?_
  split
  · refine Keeps.ite ?_ ?_
    · extract_lets -merge -useContext +onlyGivenNames x3
      try clear_value x3
      extract_lets -merge -useContext +onlyGivenNames x4
      have h5 : Keeps 41909701 s x4 := by
        unfold x4
        refine Keeps.foldl ?_ _ ?_
        · intro s a6
          refine Keeps.ite ?_ ?_
          · refine Keeps.step sendOffer_keeps rfl ?_
            exact Keeps.refl
          · exact Keeps.refl
        · exact h1
      try clear_value x4
      refine Keeps.step setDl_keeps rfl ?_
      exact h5
    · exact h1
  · exact h1

/-- Writes at most: sent clk civ cand prg regs bus evr upd lnk. -/
theorem execTransferTimeout_keeps {b0 b1 s} : Answers 39796165 s (execTransferTimeout b0 b1 s) := by
  unfold execTransferTimeout
  extract_lets -merge -useContext +onlyGivenNames x0
  have h1 : Keeps 39796165 s x0 := by
    unfold x0
    refine Keeps.step begin'_keeps rfl ?_
    exact Keeps.refl
  try clear_value x0
  refine Answers.next ?_
  split
  · extract_lets -merge -useContext +onlyGivenNames x3
    try clear_value x3
    split
    · refine Keeps.ite ?_ ?_
      · split
        · rename_i y5 y6 q7
          have h8 : Keeps 39796165 s y6 := by
            refine Keeps.snd ?_ q7
            refine Keeps.step dropNeighbour_keeps rfl ?_
            exact h1
          refine Keeps.ite ?_ ?_
          · exact h8
          · refine Keeps.step runDl_keeps rfl ?_
            exact h8
      · exact h1
    · exact h1
  · exact h1

/-- Writes at most: upd. -/
theorem abortOwn_keeps {s} : Keeps 58720255 s (abortOwn s) := by
  unfold abortOwn
  refine Keeps.app (wr_upd rfl) ?_
  exact Keeps.refl

/-- Writes at most: sent clk civ cand pwr tri prg frc vm xch regs bus rings fio snu evr upd lnk. -/
theorem execAbortDl_keeps {b0 s} : Answers 38078725 s (execAbortDl b0 s) := by
  unfold execAbortDl
  refine Answers.next ?_
  refine Keeps.app (blockCommand_keeps ?_ rfl) ?_
  · intro s
    refine Keeps.step abortOwn_keeps rfl ?_
    exact Keeps.refl
  · refine Keeps.step begin'_keeps rfl ?_
    exact Keeps.refl

/-- Writes at most: cand regs evr. -/
theorem verifyEnd_keeps {b0 b1 s} : Keeps 64995295 s (verifyEnd b0 b1 s) := by
  unfold verifyEnd
  extract_lets -merge -useContext +onlyGivenNames x0
  try clear_value x0
  extract_lets -merge -useContext +onlyGivenNames x1
  try clear_value x1
  refine Keeps.ite ?_ ?_
  · refine Keeps.step imageEvent_keeps rfl ?_
    refine Keeps.step modSlot_keeps rfl ?_
    exact Keeps.refl
  · refine Keeps.step imageEvent_keeps rfl ?_
    refine Keeps.step cnt_keeps rfl ?_
    refine Keeps.step updReason_keeps rfl ?_
    refine Keeps.step modSlot_keeps rfl ?_
    exact Keeps.refl

/-- Writes at most: sent clk civ cand prg regs bus evr lnk. -/
theorem execVerifyDone_keeps {b0 b1 s} : Answers 48184773 s (execVerifyDone b0 b1 s) := by
  unfold execVerifyDone
  extract_lets -merge -useContext +onlyGivenNames x0
  have h1 : Keeps 48184773 s x0 := by
    unfold x0
    refine Keeps.step begin'_keeps rfl ?_
    exact Keeps.refl
  try clear_value x0
  refine Answers.next ?_
  refine Keeps.ite ?_ ?_
  · split
    · refine Keeps.step verifyEnd_keeps rfl ?_
      exact h1
    · exact h1
  · exact h1

/-- Writes at most: regs. -/
theorem updRefuse_keeps {b0 s} : Keeps 67092479 s (updRefuse b0 s) := by
  unfold updRefuse
  refine Keeps.step updReason_keeps rfl ?_
  exact Keeps.refl

/-- Writes at most: vm xch upd. -/
theorem startPrepare_keeps {b0 s} : Keeps 58707967 s (startPrepare b0 s) := by
  unfold startPrepare
  extract_lets -merge -useContext +onlyGivenNames x0
  try clear_value x0
  extract_lets -merge -useContext +onlyGivenNames x1
  try clear_value x1
  extract_lets -merge -useContext +onlyGivenNames x2
  have h3 : Keeps 58707967 s x2 := by
    unfold x2
    refine Keeps.app (wr_upd rfl) ?_
    exact Keeps.refl
  try clear_value x2
  refine Keeps.ite ?_ ?_
  · exact h3
  · extract_lets -merge -useContext +onlyGivenNames x4
    have h5 : Keeps 58707967 s x4 := by
      unfold x4
      refine Keeps.step startLoading_keeps rfl ?_
      exact h3
    try clear_value x4
    refine Keeps.app (wr_xch rfl) ?_
    exact h5

/-- Writes at most: vm xch regs upd. -/
theorem updPrepare_keeps {b0 s} : Keeps 58691583 s (updPrepare b0 s) := by
  unfold updPrepare
  extract_lets -merge -useContext +onlyGivenNames x0
  try clear_value x0
  refine Keeps.ite ?_ ?_
  · refine Keeps.step startPrepare_keeps rfl ?_
    exact Keeps.refl
  · refine Keeps.step updRefuse_keeps rfl ?_
    exact Keeps.refl

/-- Writes at most: sent lnk. -/
theorem updMirror_keeps {b0 s} : Keeps 50331645 s (updMirror b0 s) := by
  unfold updMirror
  refine Keeps.step mirror_keeps rfl ?_
  exact Keeps.refl

/-- Writes at most: sent clk civ cand pwr tri prg frc vm xch regs bus rings fio snu evr upd lnk. -/
theorem execPrepare_keeps {b0 b1 s} : Answers 38078725 s (execPrepare b0 b1 s) := by
  unfold execPrepare
  refine Answers.next ?_
  refine Keeps.app (blockCommand_keeps ?_ rfl) ?_
  · intro s
    refine Keeps.step updPrepare_keeps rfl ?_
    refine Keeps.step updMirror_keeps rfl ?_
    exact Keeps.refl
  · refine Keeps.step begin'_keeps rfl ?_
    exact Keeps.refl

/-- Writes at most: xch regs evr upd. -/
theorem updArm_keeps {s} : Keeps 56598527 s (updArm s) := by
  unfold updArm
  extract_lets -merge -useContext +onlyGivenNames x0
  try clear_value x0
  refine Keeps.ite ?_ ?_
  · refine Keeps.step updRefuse_keeps rfl ?_
    exact Keeps.refl
  · extract_lets -merge -useContext +onlyGivenNames x1
    try clear_value x1
    extract_lets -merge -useContext +onlyGivenNames x2
    have h3 : Keeps 56598527 s x2 := by
      unfold x2
      refine Keeps.app (wr_upd rfl) ?_
      exact Keeps.refl
    try clear_value x2
    refine Keeps.ite ?_ ?_
    · exact h3
    · refine Keeps.step xchArm_keeps rfl ?_
      exact h3

/-- Writes at most: sent clk civ cand pwr tri prg frc vm xch regs bus rings fio snu evr upd lnk. -/
theorem execUpdArm_keeps {b0 s} : Answers 38078725 s (execUpdArm b0 s) := by
  unfold execUpdArm
  refine Answers.next ?_
  refine Keeps.app (blockCommand_keeps ?_ rfl) ?_
  · intro s
    refine Keeps.step updArm_keeps rfl ?_
    refine Keeps.step updMirror_keeps rfl ?_
    exact Keeps.refl
  · refine Keeps.step begin'_keeps rfl ?_
    exact Keeps.refl

/-- Writes at most: vm xch regs evr upd. -/
theorem updCancel_keeps {s} : Keeps 56594431 s (updCancel s) := by
  unfold updCancel
  refine Keeps.ite ?_ ?_
  · refine Keeps.ite ?_ ?_
    · refine Keeps.app (wr_upd rfl) ?_
      exact Keeps.refl
    · refine Keeps.ite ?_ ?_
      · exact Keeps.refl
      · extract_lets -merge -useContext +onlyGivenNames x0
        have h1 : Keeps 56594431 s x0 := by
          unfold x0
          refine Keeps.step xchDisarm_keeps rfl ?_
          exact Keeps.refl
        try clear_value x0
        refine Keeps.app (wr_upd rfl) ?_
        exact h1
  · refine Keeps.step updRefuse_keeps rfl ?_
    exact Keeps.refl

/-- Writes at most: sent clk civ cand pwr tri prg frc vm xch regs bus rings fio snu evr upd lnk. -/
theorem execActivationCancel_keeps {b0 s} : Answers 38078725 s (execActivationCancel b0 s) := by
  unfold execActivationCancel
  refine Answers.next ?_
  refine Keeps.app (blockCommand_keeps ?_ rfl) ?_
  · intro s
    refine Keeps.step updCancel_keeps rfl ?_
    refine Keeps.step updMirror_keeps rfl ?_
    exact Keeps.refl
  · refine Keeps.step begin'_keeps rfl ?_
    exact Keeps.refl

/-- Writes at most: sent civ cand pwr tri prg vm xch regs rings fio snu evr sta upd lnk. -/
theorem restartActivation_keeps {s} : Keeps 33918221 s (restartActivation s) := by
  unfold restartActivation
  extract_lets -merge -useContext +onlyGivenNames x0
  try clear_value x0
  extract_lets -merge -useContext +onlyGivenNames x1
  have h2 : Keeps 33918221 s x1 := by
    unfold x1
    refine Keeps.ite ?_ ?_
    · refine Keeps.step mirror_keeps rfl ?_
      exact Keeps.refl
    · exact Keeps.refl
  try clear_value x1
  extract_lets -merge -useContext +onlyGivenNames x3
  have h4 : Keeps 33918221 s x3 := by
    unfold x3
    refine Keeps.step shutdownSteps_keeps rfl ?_
    exact h2
  try clear_value x3
  extract_lets -merge -useContext +onlyGivenNames x5
  have h6 : Keeps 33918221 s x5 := by
    unfold x5
    refine Keeps.step trialSelect_keeps rfl ?_
    exact h4
  try clear_value x5
  exact Keeps.app (show Keeps 33918221 x5 _ from ⟨fun _ => rfl, fun _ => rfl, fun _ => rfl, fun _ => rfl, fun _ => rfl, fun _ => rfl, fun h => noBit h rfl, fun h => noBit h rfl, fun _ => rfl, fun _ => rfl, fun _ => rfl, fun _ => rfl, fun _ => rfl, fun _ => rfl, fun _ => rfl, fun _ => rfl, fun _ => rfl, fun _ => rfl, fun _ => rfl, fun _ => rfl, fun _ => rfl, fun _ => rfl, fun _ => rfl, fun _ => rfl, fun _ => rfl, fun _ => rfl⟩) h6

/-- Writes at most: cand regs evr upd. -/
theorem updConfirm_keeps {s} : Keeps 56606687 s (updConfirm s) := by
  unfold updConfirm
  split
  · refine Keeps.ite ?_ ?_
    · refine Keeps.step updRefuse_keeps rfl ?_
      exact Keeps.refl
    · extract_lets -merge -useContext +onlyGivenNames x1
      have h2 : Keeps 56606687 s x1 := by
        unfold x1
        refine Keeps.step writeSelector_keeps rfl ?_
        exact Keeps.refl
      try clear_value x1
      extract_lets -merge -useContext +onlyGivenNames x3
      try clear_value x3
      extract_lets -merge -useContext +onlyGivenNames x4
      have h5 : Keeps 56606687 s x4 := by
        unfold x4
        refine Keeps.ite ?_ ?_
        · refine Keeps.app (wr_cand rfl) ?_
          exact h2
        · exact h2
      try clear_value x4
      refine Keeps.step eventPerKind_keeps rfl ?_
      refine Keeps.app (wr_upd rfl) ?_
      exact h5
  · refine Keeps.step updRefuse_keeps rfl ?_
    exact Keeps.refl

/-- Writes at most: sent clk civ cand pwr tri prg frc vm xch regs bus rings fio snu evr upd lnk. -/
theorem execConfirm_keeps {b0 s} : Answers 38078725 s (execConfirm b0 s) := by
  unfold execConfirm
  refine Answers.next ?_
  refine Keeps.app (blockCommand_keeps ?_ rfl) ?_
  · intro s
    refine Keeps.step updConfirm_keeps rfl ?_
    refine Keeps.step updMirror_keeps rfl ?_
    exact Keeps.refl
  · refine Keeps.step begin'_keeps rfl ?_
    exact Keeps.refl

end Sys2Proof.Machine
end

