-- ==== Sys2Proof/Laws/InvUpdate.lean ====
section
/-! SUPPORT. The functions of Machine/Update.lean keep the invariant `Inv`. -/

namespace Sys2Proof.Machine

theorem modSlot_inv {b0 b1 b2 s} (hs : Inv s) : Inv (modSlot b0 b1 b2 s) := by
  unfold modSlot
  extract_lets -merge -useContext +onlyGivenNames x0
  try clear_value x0
  refine writeSelector_inv ?_
  exact hs

theorem acceptOffer_inv {b0 b1 b2 b3 s} (hs : Inv s) : Inv (acceptOffer b0 b1 b2 b3 s) := by
  unfold acceptOffer
  extract_lets -merge -useContext +onlyGivenNames x0
  try clear_value x0
  extract_lets -merge -useContext +onlyGivenNames x1
  try clear_value x1
  extract_lets -merge -useContext +onlyGivenNames x2
  try clear_value x2
  extract_lets -merge -useContext +onlyGivenNames x3
  try clear_value x3
  extract_lets -merge -useContext +onlyGivenNames x4
  try clear_value x4
  extract_lets -merge -useContext +onlyGivenNames x5
  try clear_value x5
  extract_lets -merge -useContext +onlyGivenNames x6
  try clear_value x6
  extract_lets -merge -useContext +onlyGivenNames x7
  try clear_value x7
  extract_lets -merge -useContext +onlyGivenNames x8
  try clear_value x8
  extract_lets -merge -useContext +onlyGivenNames x9
  have h10 : Inv x9 := by
    unfold x9
    refine Inv.ite ?_ ?_
    · refine writeSelector_inv ?_
      exact hs
    · exact hs
  try clear_value x9
  extract_lets -merge -useContext +onlyGivenNames x11
  have h12 : Inv x11 := by
    unfold x11
    refine Inv.ite ?_ ?_
    · refine modSlot_inv ?_
      exact h10
    · exact hs
  try clear_value x11
  extract_lets -merge -useContext +onlyGivenNames x13
  try clear_value x13
  extract_lets -merge -useContext +onlyGivenNames x14
  have h15 : Inv x14 := by
    unfold x14
    refine Inv.keep (wr_upd (m := 58720255) rfl) rfl ?_
    exact h12
  try clear_value x14
  extract_lets -merge -useContext +onlyGivenNames x16
  have h17 : Inv x16 := by
    unfold x16
    refine imageEvent_inv ?_
    exact h15
  try clear_value x16
  extract_lets -merge -useContext +onlyGivenNames x18
  have h19 : Inv x18 := by
    unfold x18
    refine Inv.keep sendMsg_keeps rfl ?_
    exact h17
  try clear_value x18
  refine Inv.foldl ?_ _ ?_
  · intro s a20 hs
    refine Inv.keep sendOffer_keeps rfl ?_
    exact hs
  · exact h19

theorem refuseOffer_inv {b0 b1 b2 b3 b4 s} (hs : Inv s) : Inv (refuseOffer b0 b1 b2 b3 b4 s) := by
  unfold refuseOffer
  extract_lets -merge -useContext +onlyGivenNames x0
  try clear_value x0
  extract_lets -merge -useContext +onlyGivenNames x1
  try clear_value x1
  extract_lets -merge -useContext +onlyGivenNames x2
  have h3 : Inv x2 := by
    unfold x2
    refine imageEvent_inv ?_
    refine Inv.keep cnt_keeps rfl ?_
    refine Inv.keep updReason_keeps rfl ?_
    exact hs
  try clear_value x2
  refine Inv.keep sendMsg_keeps rfl ?_
  exact h3

theorem takeOffer_inv {b0 b1 b2 b3 s} (hs : Inv s) : Inv (takeOffer b0 b1 b2 b3 s) := by
  unfold takeOffer
  extract_lets -merge -useContext +onlyGivenNames x0
  have h1 : Inv x0 := by
    unfold x0
    refine Inv.keep cnt_keeps rfl ?_
    exact hs
  try clear_value x0
  extract_lets -merge -useContext +onlyGivenNames x2
  try clear_value x2
  refine Inv.ite ?_ ?_
  · refine refuseOffer_inv ?_
    exact h1
  · split
    · refine Inv.keep answerAgain_keeps rfl ?_
      exact h1
    · refine acceptOffer_inv ?_
      exact h1

theorem relayRow_inv {b0 b1 s} (hf1 : ∀ t, Inv t → Inv (b1 t)) (hs : Inv s) : Inv (relayRow b0 b1 s) := by
  unfold relayRow
  refine Inv.ite ?_ ?_
  · exact hs
  · refine Inv.ite ?_ ?_
    · refine hf1 _ ?_
      exact hs
    · split
      · rename_i y0 q1
        have h2 : Inv y0 := by
          refine Inv.snd ?_ q1
          refine Inv.keep linkIn_keeps rfl ?_
          exact hs
        refine hf1 _ ?_
        exact h2
      · rename_i y3 q4
        have h5 : Inv y3 := by
          refine Inv.snd ?_ q4
          refine Inv.keep linkIn_keeps rfl ?_
          exact hs
        exact h5

theorem offerSeg_inv {b0 s} (hs : Inv s) : Inv (offerSeg b0 s) := by
  unfold offerSeg
  extract_lets -merge -useContext +onlyGivenNames x0
  try clear_value x0
  extract_lets -merge -useContext +onlyGivenNames x1
  try clear_value x1
  extract_lets -merge -useContext +onlyGivenNames x2
  try clear_value x2
  extract_lets -merge -useContext +onlyGivenNames x3
  try clear_value x3
  extract_lets -merge -useContext +onlyGivenNames x4
  try clear_value x4
  extract_lets -merge -useContext +onlyGivenNames x5
  try clear_value x5
  extract_lets -merge -useContext +onlyGivenNames x6
  try clear_value x6
  split
  · refine takeOffer_inv ?_
    refine Inv.keep (wr_upd (m := 58720255) rfl) rfl ?_
    exact hs
  · refine Inv.keep (wr_upd (m := 58720255) rfl) rfl ?_
    exact hs

theorem execOffer_inv {b0 b1 s} (hs : Inv s) : InvA (execOffer b0 b1 s) := by
  unfold execOffer
  refine InvA.next ?_
  refine relayRow_inv ?_ ?_
  · intro s hs
    refine offerSeg_inv ?_
    exact hs
  · refine begin'_inv ?_
    exact hs

theorem settleDl_inv {b0 s} (hs : Inv s) : Inv (settleDl b0 s) := by
  unfold settleDl
  extract_lets -merge -useContext +onlyGivenNames x0
  try clear_value x0
  extract_lets -merge -useContext +onlyGivenNames x1
  try clear_value x1
  split
  · rename_i y2 y3 q4
    have h5 : Inv y3 := by
      refine Inv.snd ?_ q4
      refine Inv.ite2 ?_ ?_
      · refine Inv.mkSnd ?_
        exact hs
      · refine Inv.mkSnd ?_
        refine Inv.foldl ?_ _ ?_
        · intro s a6 hs
          refine Inv.keep sendMsg_keeps rfl ?_
          exact hs
        · exact hs
    extract_lets -merge -useContext +onlyGivenNames x7
    try clear_value x7
    refine Inv.ite ?_ ?_
    · refine Inv.keep endDl_keeps rfl ?_
      refine Inv.ite ?_ ?_
      · exact h5
      · refine imageEvent_inv ?_
        exact h5
    · refine Inv.keep setDl_keeps rfl ?_
      exact h5

theorem runDl_inv {b0 s} (hs : Inv s) : Inv (runDl b0 s) := by
  unfold runDl
  split
  · rename_i y0 y1 q2
    have h3 : Inv y1 := by
      refine Inv.snd ?_ q2
      refine Inv.keep pumpAll_keeps rfl ?_
      exact hs
    refine settleDl_inv ?_
    exact h3

theorem takeChunk_inv {b0 b1 b2 s} (hs : Inv s) : Inv (takeChunk b0 b1 b2 s) := by
  unfold takeChunk
  extract_lets -merge -useContext +onlyGivenNames x0
  try clear_value x0
  refine Inv.ite ?_ ?_
  · extract_lets -merge -useContext +onlyGivenNames x1
    try clear_value x1
    refine runDl_inv ?_
    exact hs
  · extract_lets -merge -useContext +onlyGivenNames x2
    have h3 : Inv x2 := by
      unfold x2
      refine Inv.keep sendMsg_keeps rfl ?_
      refine Inv.keep cnt_keeps rfl ?_
      exact hs
    try clear_value x2
    extract_lets -merge -useContext +onlyGivenNames x4
    try clear_value x4
    refine Inv.ite ?_ ?_
    · refine imageEvent_inv ?_
      refine Inv.keep updReason_keeps rfl ?_
      refine Inv.keep endDl_keeps rfl ?_
      exact h3
    · refine Inv.keep setDl_keeps rfl ?_
      exact h3

theorem dataSeg_inv {b0 s} (hs : Inv s) : Inv (dataSeg b0 s) := by
  unfold dataSeg
  split
  · exact hs
  · extract_lets -merge -useContext +onlyGivenNames x2
    try clear_value x2
    extract_lets -merge -useContext +onlyGivenNames x3
    try clear_value x3
    extract_lets -merge -useContext +onlyGivenNames x4
    try clear_value x4
    refine Inv.ite ?_ ?_
    · exact hs
    · extract_lets -merge -useContext +onlyGivenNames x5
      try clear_value x5
      extract_lets -merge -useContext +onlyGivenNames x6
      try clear_value x6
      split
      · refine takeChunk_inv ?_
        exact hs
      · refine Inv.keep setDl_keeps rfl ?_
        exact hs

theorem execData_inv {b0 b1 s} (hs : Inv s) : InvA (execData b0 b1 s) := by
  unfold execData
  refine InvA.next ?_
  refine relayRow_inv ?_ ?_
  · intro s hs
    refine dataSeg_inv ?_
    exact hs
  · refine begin'_inv ?_
    exact hs

theorem onNeighbour_inv {b0 b1 s} (hf1 : ∀ c0 c1 t, Inv t → Inv (b1 c0 c1 t).2) (hs : Inv s) : Inv (onNeighbour b0 b1 s) := by
  unfold onNeighbour
  split
  · exact hs
  · split
    · exact hs
    · split
      · rename_i y4 y5 q6
        have h7 : Inv y5 := by
          refine Inv.snd ?_ q6
          refine hf1 _ _ _ ?_
          exact hs
        refine Inv.ite ?_ ?_
        · exact h7
        · refine runDl_inv ?_
          exact h7

theorem execGood_inv {b0 b1 s} (hs : Inv s) : InvA (execGood b0 b1 s) := by
  unfold execGood
  refine InvA.next ?_
  refine relayRow_inv ?_ ?_
  · intro s hs
    refine onNeighbour_inv ?_ ?_
    · intro a0 a1 s hs
      extract_lets -merge -useContext +onlyGivenNames x2
      try clear_value x2
      refine Inv.ite2 ?_ ?_
      · refine Inv.mkSnd ?_
        exact hs
      · refine Inv.mkSnd ?_
        exact hs
    · exact hs
  · refine begin'_inv ?_
    exact hs

theorem dropNeighbour_inv {b0 b1 b2 b3 s} (hs : Inv s) : Inv (dropNeighbour b0 b1 b2 b3 s).2 := by
  unfold dropNeighbour
  extract_lets -merge -useContext +onlyGivenNames x0
  have h1 : Inv x0 := by
    unfold x0
    refine imageEvent_inv ?_
    exact hs
  try clear_value x0
  extract_lets -merge -useContext +onlyGivenNames x2
  try clear_value x2
  extract_lets -merge -useContext +onlyGivenNames x3
  have h4 : Inv x3 := by
    unfold x3
    refine Inv.ite ?_ ?_
    · refine Inv.keep endDl_keeps rfl ?_
      refine Inv.keep sendMsg_keeps rfl ?_
      exact h1
    · exact h1
  try clear_value x3
  refine Inv.mkSnd ?_
  exact h4

theorem execBad_inv {b0 b1 s} (hs : Inv s) : InvA (execBad b0 b1 s) := by
  unfold execBad
  refine InvA.next ?_
  refine relayRow_inv ?_ ?_
  · intro s hs
    refine onNeighbour_inv ?_ ?_
    · intro a0 a1 s hs
      extract_lets -merge -useContext +onlyGivenNames x2
      try clear_value x2
      refine Inv.ite2 ?_ ?_
      · extract_lets -merge -useContext +onlyGivenNames x3
        try clear_value x3
        refine Inv.ite2 ?_ ?_
        · refine dropNeighbour_inv ?_
          exact hs
        · split
          · refine Inv.mkSnd ?_
            refine Inv.keep sendMsg_keeps rfl ?_
            exact hs
          · refine Inv.mkSnd ?_
            exact hs
      · refine Inv.mkSnd ?_
        exact hs
    · exact hs
  · refine begin'_inv ?_
    exact hs

theorem execResume_inv {b0 b1 s} (hs : Inv s) : InvA (execResume b0 b1 s) := by
  unfold execResume
  refine InvA.next ?_
  refine relayRow_inv ?_ ?_
  · intro s hs
    refine onNeighbour_inv ?_ ?_
    · intro a0 a1 s hs
      extract_lets -merge -useContext +onlyGivenNames x2
      try clear_value x2
      refine Inv.ite2 ?_ ?_
      · refine Inv.mkSnd ?_
        exact hs
      · refine Inv.mkSnd ?_
        exact hs
    · exact hs
  · refine begin'_inv ?_
    exact hs

theorem execRefuse_inv {b0 b1 s} (hs : Inv s) : InvA (execRefuse b0 b1 s) := by
  unfold execRefuse
  refine InvA.next ?_
  refine relayRow_inv ?_ ?_
  · intro s hs
    refine onNeighbour_inv ?_ ?_
    · intro a0 a1 s hs
      refine Inv.ite2 ?_ ?_
      · refine dropNeighbour_inv ?_
        exact hs
      · refine Inv.mkSnd ?_
        exact hs
    · exact hs
  · refine begin'_inv ?_
    exact hs

theorem norFailed_inv {b0 s} (hs : Inv s) : Inv (norFailed b0 s) := by
  unfold norFailed
  extract_lets -merge -useContext +onlyGivenNames x0
  have h1 : Inv x0 := by
    unfold x0
    refine Inv.keep updReason_keeps rfl ?_
    exact hs
  try clear_value x0
  extract_lets -merge -useContext +onlyGivenNames x2
  have h3 : Inv x2 := by
    unfold x2
    refine imageEvent_inv ?_
    exact h1
  try clear_value x2
  refine Inv.keep endDl_keeps rfl ?_
  refine Inv.keep sendMsg_keeps rfl ?_
  exact h3

theorem storeChunk_inv {b0 s} (hs : Inv s) : Inv (storeChunk b0 s) := by
  unfold storeChunk
  split
  · exact hs
  · extract_lets -merge -useContext +onlyGivenNames x3
    try clear_value x3
    extract_lets -merge -useContext +onlyGivenNames x4
    have h5 : Inv x4 := by
      unfold x4
      refine Inv.set_mem (fun h => ?_) ?_
      · exact memSetList_wf h.mem
      · exact hs
    try clear_value x4
    extract_lets -merge -useContext +onlyGivenNames x6
    try clear_value x6
    extract_lets -merge -useContext +onlyGivenNames x7
    have h8 : Inv x7 := by
      unfold x7
      refine modSlot_inv ?_
      exact h5
    try clear_value x7
    extract_lets -merge -useContext +onlyGivenNames x9
    have h10 : Inv x9 := by
      unfold x9
      refine Inv.keep sendMsg_keeps rfl ?_
      exact h8
    try clear_value x9
    refine runDl_inv ?_
    exact h10

theorem execChunkStored_inv {b0 b1 b2 s} (hs : Inv s) : InvA (execChunkStored b0 b1 b2 s) := by
  unfold execChunkStored
  extract_lets -merge -useContext +onlyGivenNames x0
  have h1 : Inv x0 := by
    unfold x0
    refine begin'_inv ?_
    exact hs
  try clear_value x0
  refine InvA.next ?_
  split
  · refine Inv.ite ?_ ?_
    · refine Inv.ite ?_ ?_
      · refine storeChunk_inv ?_
        exact h1
      · refine norFailed_inv ?_
        exact h1
    · exact h1
  · exact h1

theorem execOfferRepeat_inv {b0 b1 s} (hs : Inv s) : InvA (execOfferRepeat b0 b1 s) := by
  unfold execOfferRepeat
  extract_lets -merge -useContext +onlyGivenNames x0
  have h1 : Inv x0 := by
    unfold x0
    refine begin'_inv ?_
    exact hs
  try clear_value x0
  refine InvA.next ?_
  split
  · refine Inv.ite ?_ ?_
    · extract_lets -merge -useContext +onlyGivenNames x3
      try clear_value x3
      extract_lets -merge -useContext +onlyGivenNames x4
      have h5 : Inv x4 := by
        unfold x4
        refine Inv.foldl ?_ _ ?_
        · intro s a6 hs
          refine Inv.ite ?_ ?_
          · refine Inv.keep sendOffer_keeps rfl ?_
            exact hs
          · exact hs
        · exact h1
      try clear_value x4
      refine Inv.keep setDl_keeps rfl ?_
      exact h5
    · exact h1
  · exact h1

theorem execChunkTimeout_inv {b0 b1 s} (hs : Inv s) : InvA (execChunkTimeout b0 b1 s) := by
  unfold execChunkTimeout
  extract_lets -merge -useContext +onlyGivenNames x0
  have h1 : Inv x0 := by
    unfold x0
    refine begin'_inv ?_
    exact hs
  try clear_value x0
  refine InvA.next ?_
  split
  · refine Inv.ite ?_ ?_
    · extract_lets -merge -useContext +onlyGivenNames x3
      try clear_value x3
      extract_lets -merge -useContext +onlyGivenNames x4
      have h5 : Inv x4 := by
        unfold x4
        refine Inv.foldl ?_ _ ?_
        · intro s a6 hs
          refine Inv.ite ?_ ?_
          · refine Inv.keep sendOffer_keeps rfl ?_
            exact hs
          · exact hs
        · exact h1
      try clear_value x4
      refine Inv.keep setDl_keeps rfl ?_
      exact h5
    · exact h1
  · exact h1

theorem execTransferTimeout_inv {b0 b1 s} (hs : Inv s) : InvA (execTransferTimeout b0 b1 s) := by
  unfold execTransferTimeout
  extract_lets -merge -useContext +onlyGivenNames x0
  have h1 : Inv x0 := by
    unfold x0
    refine begin'_inv ?_
    exact hs
  try clear_value x0
  refine InvA.next ?_
  split
  · extract_lets -merge -useContext +onlyGivenNames x3
    try clear_value x3
    split
    · refine Inv.ite ?_ ?_
      · split
        · rename_i y5 y6 q7
          have h8 : Inv y6 := by
            refine Inv.snd ?_ q7
            refine dropNeighbour_inv ?_
            exact h1
          refine Inv.ite ?_ ?_
          · exact h8
          · refine runDl_inv ?_
            exact h8
      · exact h1
    · exact h1
  · exact h1

theorem execAbortDl_inv {b0 s} (hs : Inv s) : InvA (execAbortDl b0 s) := by
  unfold execAbortDl
  refine InvA.next ?_
  refine blockCommand_inv ?_ ?_
  · intro s hs
    refine Inv.keep abortOwn_keeps rfl ?_
    exact hs
  · refine begin'_inv ?_
    exact hs

theorem verifyEnd_inv {b0 b1 s} (hs : Inv s) : Inv (verifyEnd b0 b1 s) := by
  unfold verifyEnd
  extract_lets -merge -useContext +onlyGivenNames x0
  try clear_value x0
  extract_lets -merge -useContext +onlyGivenNames x1
  try clear_value x1
  refine Inv.ite ?_ ?_
  · refine imageEvent_inv ?_
    refine modSlot_inv ?_
    exact hs
  · refine imageEvent_inv ?_
    refine Inv.keep cnt_keeps rfl ?_
    refine Inv.keep updReason_keeps rfl ?_
    refine modSlot_inv ?_
    exact hs

theorem execVerifyDone_inv {b0 b1 s} (hs : Inv s) : InvA (execVerifyDone b0 b1 s) := by
  unfold execVerifyDone
  extract_lets -merge -useContext +onlyGivenNames x0
  have h1 : Inv x0 := by
    unfold x0
    refine begin'_inv ?_
    exact hs
  try clear_value x0
  refine InvA.next ?_
  refine Inv.ite ?_ ?_
  · split
    · refine verifyEnd_inv ?_
      exact h1
    · exact h1
  · exact h1

theorem execPrepare_inv {b0 b1 s} (hs : Inv s) : InvA (execPrepare b0 b1 s) := by
  unfold execPrepare
  refine InvA.next ?_
  refine blockCommand_inv ?_ ?_
  · intro s hs
    refine Inv.keep updPrepare_keeps rfl ?_
    refine Inv.keep updMirror_keeps rfl ?_
    exact hs
  · refine begin'_inv ?_
    exact hs

theorem updArm_inv {s} (hs : Inv s) : Inv (updArm s) := by
  unfold updArm
  extract_lets -merge -useContext +onlyGivenNames x0
  try clear_value x0
  refine Inv.ite ?_ ?_
  · refine Inv.keep updRefuse_keeps rfl ?_
    exact hs
  · extract_lets -merge -useContext +onlyGivenNames x1
    try clear_value x1
    extract_lets -merge -useContext +onlyGivenNames x2
    have h3 : Inv x2 := by
      unfold x2
      refine Inv.keep (wr_upd (m := 58720255) rfl) rfl ?_
      exact hs
    try clear_value x2
    refine Inv.ite ?_ ?_
    · exact h3
    · refine xchArm_inv ?_
      exact h3

theorem execUpdArm_inv {b0 s} (hs : Inv s) : InvA (execUpdArm b0 s) := by
  unfold execUpdArm
  refine InvA.next ?_
  refine blockCommand_inv ?_ ?_
  · intro s hs
    refine updArm_inv ?_
    refine Inv.keep updMirror_keeps rfl ?_
    exact hs
  · refine begin'_inv ?_
    exact hs

theorem updCancel_inv {s} (hs : Inv s) : Inv (updCancel s) := by
  unfold updCancel
  refine Inv.ite ?_ ?_
  · refine Inv.ite ?_ ?_
    · refine Inv.keep (wr_upd (m := 58720255) rfl) rfl ?_
      exact hs
    · refine Inv.ite ?_ ?_
      · exact hs
      · extract_lets -merge -useContext +onlyGivenNames x0
        have h1 : Inv x0 := by
          unfold x0
          refine xchDisarm_inv ?_
          exact hs
        try clear_value x0
        refine Inv.keep (wr_upd (m := 58720255) rfl) rfl ?_
        exact h1
  · refine Inv.keep updRefuse_keeps rfl ?_
    exact hs

theorem execActivationCancel_inv {b0 s} (hs : Inv s) : InvA (execActivationCancel b0 s) := by
  unfold execActivationCancel
  refine InvA.next ?_
  refine blockCommand_inv ?_ ?_
  · intro s hs
    refine updCancel_inv ?_
    refine Inv.keep updMirror_keeps rfl ?_
    exact hs
  · refine begin'_inv ?_
    exact hs

theorem restartActivation_inv {s} (hs : Inv s) : Inv (restartActivation s) := by
  unfold restartActivation
  extract_lets -merge -useContext +onlyGivenNames x0
  try clear_value x0
  extract_lets -merge -useContext +onlyGivenNames x1
  have h2 : Inv x1 := by
    unfold x1
    refine Inv.ite ?_ ?_
    · refine Inv.keep mirror_keeps rfl ?_
      exact hs
    · exact hs
  try clear_value x1
  extract_lets -merge -useContext +onlyGivenNames x3
  have h4 : Inv x3 := by
    unfold x3
    refine shutdownSteps_inv ?_
    exact h2
  try clear_value x3
  extract_lets -merge -useContext +onlyGivenNames x5
  have h6 : Inv x5 := by
    unfold x5
    refine trialSelect_inv ?_
    exact h4
  try clear_value x5
  exact Inv.keep (show Keeps 67108671 x5 _ from ⟨fun _ => rfl, fun _ => rfl, fun _ => rfl, fun _ => rfl, fun _ => rfl, fun _ => rfl, fun h => noBit h rfl, fun h => noBit h rfl, fun _ => rfl, fun _ => rfl, fun _ => rfl, fun _ => rfl, fun _ => rfl, fun _ => rfl, fun _ => rfl, fun _ => rfl, fun _ => rfl, fun _ => rfl, fun _ => rfl, fun _ => rfl, fun _ => rfl, fun _ => rfl, fun _ => rfl, fun _ => rfl, fun _ => rfl, fun _ => rfl⟩) rfl h6

theorem updConfirm_inv {s} (hs : Inv s) : Inv (updConfirm s) := by
  unfold updConfirm
  split
  · refine Inv.ite ?_ ?_
    · refine Inv.keep updRefuse_keeps rfl ?_
      exact hs
    · extract_lets -merge -useContext +onlyGivenNames x1
      have h2 : Inv x1 := by
        unfold x1
        refine writeSelector_inv ?_
        exact hs
      try clear_value x1
      extract_lets -merge -useContext +onlyGivenNames x3
      have h4 : x3 = x1.cand := rfl
      replace h4 : x3.light.length ≤ 64 := by
        rw [h4]
        exact h2.cand
      try clear_value x3
      extract_lets -merge -useContext +onlyGivenNames x5
      have h6 : Inv x5 := by
        unfold x5
        refine Inv.ite ?_ ?_
        · refine Inv.set_cand (fun h => ?_) ?_
          · assumption
          · exact h2
        · exact h2
      try clear_value x5
      refine eventPerKind_inv ?_
      refine Inv.keep (wr_upd (m := 58720255) rfl) rfl ?_
      exact h6
  · refine Inv.keep updRefuse_keeps rfl ?_
    exact hs

theorem execConfirm_inv {b0 s} (hs : Inv s) : InvA (execConfirm b0 s) := by
  unfold execConfirm
  refine InvA.next ?_
  refine blockCommand_inv ?_ ?_
  · intro s hs
    refine updConfirm_inv ?_
    refine Inv.keep updMirror_keeps rfl ?_
    exact hs
  · refine begin'_inv ?_
    exact hs

end Sys2Proof.Machine
end

