-- ==== Sys2Proof/Laws/KeepsLinks.lean ====
section
/-! SUPPORT. Frames of the functions of Machine/Links.lean: what each leaves alone, said once. The docstrings name the parts of `State` a function may write; the mask marks all others. -/

namespace Sys2Proof.Machine

/-- Writes at most: sent tel lnk. -/
theorem fenceOff_keeps {s} : Keeps 50266109 s (fenceOff s) := by
  unfold fenceOff
  refine Keeps.step releaseFenced_keeps rfl ?_
  refine Keeps.app (wr_lnk rfl) ?_
  exact Keeps.refl

/-- Writes at most: sent tel lnk. -/
theorem pairLinkDown_keeps {b0 s} : Keeps 50266109 s (pairLinkDown b0 s) := by
  unfold pairLinkDown
  refine Keeps.ite ?_ ?_
  · refine Keeps.ite ?_ ?_
    · refine Keeps.step mirrorReset_keeps rfl ?_
      refine Keeps.app (wr_lnk rfl) ?_
      exact Keeps.refl
    · refine Keeps.ite ?_ ?_
      · refine Keeps.step mirrorReset_keeps rfl ?_
        exact Keeps.refl
      · refine Keeps.ite ?_ ?_
        · refine Keeps.step fenceOff_keeps rfl ?_
          refine Keeps.app (wr_lnk rfl) ?_
          exact Keeps.refl
        · exact Keeps.refl
  · exact Keeps.refl

/-- Writes at most: sent regs bus tel evr lnk. -/
theorem linkRetrainTo_keeps {b0 b1 s} : Keeps 48119805 s (linkRetrainTo b0 b1 s) := by
  unfold linkRetrainTo
  extract_lets -merge -useContext +onlyGivenNames x0
  try clear_value x0
  refine Keeps.ite ?_ ?_
  · extract_lets -merge -useContext +onlyGivenNames x1
    have h2 : Keeps 48119805 s x1 := by
      unfold x1
      refine Keeps.step modLink_keeps rfl ?_
      exact Keeps.refl
    try clear_value x1
    extract_lets -merge -useContext +onlyGivenNames x3
    have h4 : Keeps 48119805 s x3 := by
      unfold x3
      refine Keeps.step emit_keeps rfl ?_
      refine Keeps.step cnt_keeps rfl ?_
      exact h2
    try clear_value x3
    refine Keeps.ite ?_ ?_
    · refine Keeps.step pairLinkDown_keeps rfl ?_
      exact h4
    · refine Keeps.step measureStart_keeps rfl ?_
      exact h4
  · exact Keeps.refl

/-- Writes at most: sent clk civ cand prg regs bus tel evr lnk. -/
theorem execLinkRetrain_keeps {b0 b1 b2 s} : Answers 48119237 s (execLinkRetrain b0 b1 b2 s) := by
  unfold execLinkRetrain
  extract_lets -merge -useContext +onlyGivenNames x0
  have h1 : Keeps 48119237 s x0 := by
    unfold x0
    refine Keeps.step begin'_keeps rfl ?_
    exact Keeps.refl
  try clear_value x0
  refine Answers.next ?_
  refine Keeps.ite ?_ ?_
  · refine Keeps.step linkRetrainTo_keeps rfl ?_
    exact h1
  · exact h1

/-- Writes at most: sent bus lnk. -/
theorem linkTrained_keeps {b0 b1 s} : Keeps 50298877 s (linkTrained b0 b1 s) := by
  unfold linkTrained
  extract_lets -merge -useContext +onlyGivenNames x0
  try clear_value x0
  refine Keeps.ite ?_ ?_
  · extract_lets -merge -useContext +onlyGivenNames x1
    have h2 : Keeps 50298877 s x1 := by
      unfold x1
      refine Keeps.step measureStart_keeps rfl ?_
      refine Keeps.step modLink_keeps rfl ?_
      exact Keeps.refl
    try clear_value x1
    refine Keeps.ite ?_ ?_
    · refine Keeps.step toUnsynced_keeps rfl ?_
      exact h2
    · exact h2
  · exact Keeps.refl

/-- Writes at most: sent clk civ cand prg bus lnk. -/
theorem execLinkTraining_keeps {b0 b1 b2 s} : Answers 50298309 s (execLinkTraining b0 b1 b2 s) := by
  unfold execLinkTraining
  extract_lets -merge -useContext +onlyGivenNames x0
  have h1 : Keeps 50298309 s x0 := by
    unfold x0
    refine Keeps.step begin'_keeps rfl ?_
    exact Keeps.refl
  try clear_value x0
  refine Answers.next ?_
  refine Keeps.ite ?_ ?_
  · refine Keeps.step linkTrained_keeps rfl ?_
    exact h1
  · exact h1

/-- Writes at most: regs lnk. -/
theorem mirrorIn_keeps {m : Nat} {b0 b1 b2 s} (hf2 : ∀ t, Keeps m t (b2 t)) (hm : m &&& 50315263 = m) : Keeps m s (mirrorIn b0 b1 b2 s) := by
  unfold mirrorIn
  split
  · rename_i y0 q1
    have h2 : Keeps m s y0 := by
      refine Keeps.snd ?_ q1
      refine Keeps.step linkIn_keeps (land_le hm rfl) ?_
      exact Keeps.refl
    refine Keeps.app (hf2 _) ?_
    exact h2
  · rename_i y3 q4
    have h5 : Keeps m s y3 := by
      refine Keeps.snd ?_ q4
      refine Keeps.step linkIn_keeps (land_le hm rfl) ?_
      exact Keeps.refl
    exact h5

/-- Writes at most: sent regs lnk. -/
theorem standbyGap_keeps {s} : Keeps 50315261 s (standbyGap s) := by
  unfold standbyGap
  extract_lets -merge -useContext +onlyGivenNames x0
  have h1 : Keeps 50315261 s x0 := by
    unfold x0
    refine Keeps.step cnt_keeps rfl ?_
    exact Keeps.refl
  try clear_value x0
  refine Keeps.ite ?_ ?_
  · extract_lets -merge -useContext +onlyGivenNames x2
    have h3 : Keeps 50315261 s x2 := by
      unfold x2
      refine Keeps.step mirrorReset_keeps rfl ?_
      exact h1
    try clear_value x2
    refine Keeps.app (wr_lnk rfl) ?_
    exact h3
  · refine Keeps.step toUnsynced_keeps rfl ?_
    exact h1

/-- Writes at most: sent lnk. -/
theorem sendAck_keeps {b0 s} : Keeps 50331645 s (sendAck b0 s) := by
  unfold sendAck
  refine Keeps.step mirrorSend_keeps rfl ?_
  exact Keeps.refl

/-- Writes at most: lnk. -/
theorem gapStart_keeps {s} : Keeps 50331647 s (gapStart s) := by
  unfold gapStart
  refine Keeps.app (wr_lnk rfl) ?_
  exact Keeps.refl

/-- Writes at most: sent regs lnk. -/
theorem immediateMsg_keeps {m : Nat} {b0 b1 b2 s} (hf2 : ∀ t, Keeps m t (b2 t)) (hm : m &&& 50315261 = m) : Keeps m s (immediateMsg b0 b1 b2 s) := by
  unfold immediateMsg
  refine Keeps.ite ?_ ?_
  · refine Keeps.app (mirrorIn_keeps ?_ (land_le hm rfl)) ?_
    · intro s
      refine Keeps.ite ?_ ?_
      · refine Keeps.app (hf2 _) ?_
        refine Keeps.step sendAck_keeps (land_le hm rfl) ?_
        refine Keeps.step gapStart_keeps (land_le hm rfl) ?_
        refine Keeps.app (wr_lnk (bit_false hm rfl)) ?_
        exact Keeps.refl
      · refine Keeps.step standbyGap_keeps (land_le hm rfl) ?_
        exact Keeps.refl
    · exact Keeps.refl
  · exact Keeps.refl

/-- Writes at most: sent regs lnk. -/
theorem ramStream_keeps {m : Nat} {b0 b1 b2 s} (hf2 : ∀ t, Keeps m t (b2 t)) (hm : m &&& 50315261 = m) : Keeps m s (ramStream b0 b1 b2 s) := by
  unfold ramStream
  refine Keeps.ite ?_ ?_
  · refine Keeps.app (mirrorIn_keeps ?_ (land_le hm rfl)) ?_
    · intro s
      refine Keeps.ite ?_ ?_
      · refine Keeps.app (hf2 _) ?_
        refine Keeps.step gapStart_keeps (land_le hm rfl) ?_
        refine Keeps.app (wr_lnk (bit_false hm rfl)) ?_
        exact Keeps.refl
      · refine Keeps.step standbyGap_keeps (land_le hm rfl) ?_
        exact Keeps.refl
    · exact Keeps.refl
  · exact Keeps.refl

/-- Writes at most: regs lnk. -/
theorem toActive_keeps {m : Nat} {b0 b1 b2 b3 s} (hf3 : ∀ t, Keeps m t (b3 t)) (hm : m &&& 50315263 = m) : Keeps m s (toActive b0 b1 b2 b3 s) := by
  unfold toActive
  refine Keeps.ite ?_ ?_
  · refine Keeps.app (mirrorIn_keeps ?_ (land_le hm rfl)) ?_
    · intro s
      extract_lets -merge -useContext +onlyGivenNames x0
      try clear_value x0
      refine Keeps.ite ?_ ?_
      · refine Keeps.app (hf3 _) ?_
        refine Keeps.app (wr_lnk (bit_false hm rfl)) ?_
        exact Keeps.refl
      · refine Keeps.step cnt_keeps (land_le hm rfl) ?_
        refine Keeps.app (wr_lnk (bit_false hm rfl)) ?_
        exact Keeps.refl
    · exact Keeps.refl
  · exact Keeps.refl

/-- Writes at most: mem lat. -/
theorem applyJournalWord_keeps {b0 b1 s} : Keeps 66844671 s (applyJournalWord b0 b1 s) := by
  unfold applyJournalWord
  extract_lets -merge -useContext +onlyGivenNames x0
  try clear_value x0
  refine Keeps.ite ?_ ?_
  · extract_lets -merge -useContext +onlyGivenNames x1
    try clear_value x1
    extract_lets -merge -useContext +onlyGivenNames x2
    try clear_value x2
    exact Keeps.app (show Keeps 66844671 s _ from ⟨fun _ => rfl, fun _ => rfl, fun _ => rfl, fun _ => rfl, fun _ => rfl, fun _ => rfl, fun _ => rfl, fun _ => rfl, fun _ => rfl, fun _ => rfl, fun _ => rfl, fun h => noBit h rfl, fun _ => rfl, fun _ => rfl, fun _ => rfl, fun _ => rfl, fun _ => rfl, fun _ => rfl, fun h => noBit h rfl, fun _ => rfl, fun _ => rfl, fun _ => rfl, fun _ => rfl, fun _ => rfl, fun _ => rfl, fun _ => rfl⟩) Keeps.refl
  · exact Keeps.refl

/-- Writes at most: mem lat lnk. -/
theorem applyJournal_keeps {b0 s} : Keeps 50067455 s (applyJournal b0 s) := by
  unfold applyJournal
  extract_lets -merge -useContext +onlyGivenNames x0
  try clear_value x0
  extract_lets -merge -useContext +onlyGivenNames x1
  have h2 : Keeps 50067455 s x1 := by
    unfold x1
    refine Keeps.app (wr_lat rfl) ?_
    exact Keeps.refl
  try clear_value x1
  extract_lets -merge -useContext +onlyGivenNames x3
  try clear_value x3
  extract_lets -merge -useContext +onlyGivenNames x4
  try clear_value x4
  extract_lets -merge -useContext +onlyGivenNames x5
  try clear_value x5
  extract_lets -merge -useContext +onlyGivenNames x6
  try clear_value x6
  extract_lets -merge -useContext +onlyGivenNames x7
  try clear_value x7
  extract_lets -merge -useContext +onlyGivenNames x8
  have h9 : Keeps 50067455 s x8 := by
    unfold x8
    refine Keeps.ite ?_ ?_
    · exact Keeps.app (show Keeps 50067455 x1 _ from ⟨fun _ => rfl, fun _ => rfl, fun _ => rfl, fun _ => rfl, fun _ => rfl, fun _ => rfl, fun _ => rfl, fun _ => rfl, fun _ => rfl, fun _ => rfl, fun _ => rfl, fun h => noBit h rfl, fun _ => rfl, fun _ => rfl, fun _ => rfl, fun _ => rfl, fun _ => rfl, fun _ => rfl, fun h => noBit h rfl, fun _ => rfl, fun _ => rfl, fun _ => rfl, fun _ => rfl, fun _ => rfl, fun h => noBit h rfl, fun _ => rfl⟩) h2
    · exact h2
  try clear_value x8
  extract_lets -merge -useContext +onlyGivenNames x10
  have h11 : Keeps 50067455 s x10 := by
    unfold x10
    refine Keeps.foldl ?_ _ ?_
    · intro s a12
      refine Keeps.ite ?_ ?_
      · refine Keeps.step applyJournalWord_keeps rfl ?_
        exact Keeps.refl
      · exact Keeps.refl
    · exact h9
  try clear_value x10
  refine Keeps.ite ?_ ?_
  · exact h11
  · refine Keeps.app (wr_lat rfl) ?_
    exact h11

/-- Writes at most: mem lat lnk. -/
theorem takeLatCommit_keeps {b0 s} : Keeps 50067455 s (takeLatCommit b0 s) := by
  unfold takeLatCommit
  extract_lets -merge -useContext +onlyGivenNames x0
  try clear_value x0
  refine Keeps.ite ?_ ?_
  · refine Keeps.step applyJournal_keeps rfl ?_
    refine Keeps.app (wr_lnk rfl) ?_
    exact Keeps.refl
  · refine Keeps.app (wr_lnk rfl) ?_
    exact Keeps.refl

/-- Writes at most: sent clk civ cand prg mem regs bus lat lnk. -/
theorem execLatCommit_keeps {b0 b1 s} : Answers 50017733 s (execLatCommit b0 b1 s) := by
  unfold execLatCommit
  refine Answers.next ?_
  refine Keeps.app (immediateMsg_keeps ?_ rfl) ?_
  · intro s
    refine Keeps.step takeLatCommit_keeps rfl ?_
    exact Keeps.refl
  · refine Keeps.step begin'_keeps rfl ?_
    exact Keeps.refl

/-- Writes at most: tel. -/
theorem takeChannel_keeps {b0 s} : Keeps 67043327 s (takeChannel b0 s) := by
  unfold takeChannel
  extract_lets -merge -useContext +onlyGivenNames x0
  try clear_value x0
  extract_lets -merge -useContext +onlyGivenNames x1
  try clear_value x1
  extract_lets -merge -useContext +onlyGivenNames x2
  try clear_value x2
  extract_lets -merge -useContext +onlyGivenNames x3
  try clear_value x3
  extract_lets -merge -useContext +onlyGivenNames x4
  try clear_value x4
  extract_lets -merge -useContext +onlyGivenNames x5
  try clear_value x5
  extract_lets -merge -useContext +onlyGivenNames x6
  try clear_value x6
  refine Keeps.ite ?_ ?_
  · refine Keeps.step setChan_keeps rfl ?_
    exact Keeps.refl
  · refine Keeps.ite ?_ ?_
    · extract_lets -merge -useContext +onlyGivenNames x7
      try clear_value x7
      refine Keeps.step setChan_keeps rfl ?_
      exact Keeps.refl
    · refine Keeps.ite ?_ ?_
      · extract_lets -merge -useContext +onlyGivenNames x8
        try clear_value x8
        extract_lets -merge -useContext +onlyGivenNames x9
        try clear_value x9
        refine Keeps.step setChan_keeps rfl ?_
        exact Keeps.refl
      · exact Keeps.refl

/-- Writes at most: sent clk civ cand prg regs bus tel lnk. -/
theorem execChannel_keeps {b0 b1 s} : Answers 50216389 s (execChannel b0 b1 s) := by
  unfold execChannel
  refine Answers.next ?_
  refine Keeps.app (immediateMsg_keeps ?_ rfl) ?_
  · intro s
    refine Keeps.step takeChannel_keeps rfl ?_
    exact Keeps.refl
  · refine Keeps.step begin'_keeps rfl ?_
    exact Keeps.refl

/-- Writes at most: prg frc. -/
theorem takeForce_keeps {b0 s} : Keeps 67107327 s (takeForce b0 s) := by
  unfold takeForce
  extract_lets -merge -useContext +onlyGivenNames x0
  try clear_value x0
  extract_lets -merge -useContext +onlyGivenNames x1
  try clear_value x1
  refine Keeps.ite ?_ ?_
  · exact Keeps.refl
  · refine Keeps.ite ?_ ?_
    · extract_lets -merge -useContext +onlyGivenNames x2
      try clear_value x2
      extract_lets -merge -useContext +onlyGivenNames x3
      try clear_value x3
      extract_lets -merge -useContext +onlyGivenNames x4
      try clear_value x4
      extract_lets -merge -useContext +onlyGivenNames x5
      try clear_value x5
      extract_lets -merge -useContext +onlyGivenNames x6
      try clear_value x6
      extract_lets -merge -useContext +onlyGivenNames x7
      have h8 : Keeps 67107327 s x7 := by
        unfold x7
        refine Keeps.step forceAdd_keeps rfl ?_
        refine Keeps.app (wr_frc rfl) ?_
        exact Keeps.refl
      try clear_value x7
      refine Keeps.step consumeToken_keeps rfl ?_
      refine Keeps.app (wr_frc rfl) ?_
      exact h8
    · refine Keeps.ite ?_ ?_
      · refine Keeps.app (wr_frc rfl) ?_
        exact Keeps.refl
      · refine Keeps.ite ?_ ?_
        · refine Keeps.app (wr_frc rfl) ?_
          exact Keeps.refl
        · exact Keeps.refl

/-- Writes at most: sent clk civ cand prg frc regs bus lnk. -/
theorem execForce_keeps {b0 b1 s} : Answers 50280901 s (execForce b0 b1 s) := by
  unfold execForce
  refine Answers.next ?_
  refine Keeps.app (immediateMsg_keeps ?_ rfl) ?_
  · intro s
    refine Keeps.step takeForce_keeps rfl ?_
    exact Keeps.refl
  · refine Keeps.step begin'_keeps rfl ?_
    exact Keeps.refl

/-- Writes at most: cand vm xch regs evr upd. -/
theorem takeCommand_keeps {b0 b1 s} : Keeps 56594399 s (takeCommand b0 b1 s) := by
  unfold takeCommand
  refine Keeps.ite ?_ ?_
  · split
    · refine Keeps.step xchLoad_keeps rfl ?_
      exact Keeps.refl
    · refine Keeps.step xchArm_keeps rfl ?_
      exact Keeps.refl
    · refine Keeps.step xchDisarm_keeps rfl ?_
      exact Keeps.refl
    · exact Keeps.refl
  · refine Keeps.ite ?_ ?_
    · refine Keeps.step setRv_keeps rfl ?_
      exact Keeps.refl
    · refine Keeps.ite ?_ ?_
      · split
        · refine Keeps.step updPrepare_keeps rfl ?_
          exact Keeps.refl
        · refine Keeps.step updArm_keeps rfl ?_
          exact Keeps.refl
        · refine Keeps.step updCancel_keeps rfl ?_
          exact Keeps.refl
        · refine Keeps.step updConfirm_keeps rfl ?_
          exact Keeps.refl
        · exact Keeps.refl
      · refine Keeps.ite ?_ ?_
        · refine Keeps.step setRv_keeps rfl ?_
          exact Keeps.refl
        · exact Keeps.refl

/-- Writes at most: sent clk civ cand prg vm xch regs bus evr upd lnk. -/
theorem execCommand_keeps {b0 b1 s} : Answers 39783877 s (execCommand b0 b1 s) := by
  unfold execCommand
  refine Answers.next ?_
  refine Keeps.app (immediateMsg_keeps ?_ rfl) ?_
  · intro s
    refine Keeps.step takeCommand_keeps rfl ?_
    exact Keeps.refl
  · refine Keeps.step begin'_keeps rfl ?_
    exact Keeps.refl

/-- Writes at most: lnk. -/
theorem takeRamWrite_keeps {b0 s} : Keeps 50331647 s (takeRamWrite b0 s) := by
  unfold takeRamWrite
  extract_lets -merge -useContext +onlyGivenNames x0
  try clear_value x0
  extract_lets -merge -useContext +onlyGivenNames x1
  try clear_value x1
  extract_lets -merge -useContext +onlyGivenNames x2
  try clear_value x2
  extract_lets -merge -useContext +onlyGivenNames x3
  have h4 : Keeps 50331647 s x3 := by
    unfold x3
    refine Keeps.app (wr_lnk rfl) ?_
    exact Keeps.refl
  try clear_value x3
  refine Keeps.ite ?_ ?_
  · refine Keeps.app (wr_lnk rfl) ?_
    exact h4
  · exact h4

/-- Writes at most: sent clk civ cand prg regs bus lnk. -/
theorem execRamWrite_keeps {b0 b1 s} : Answers 50281925 s (execRamWrite b0 b1 s) := by
  unfold execRamWrite
  refine Answers.next ?_
  refine Keeps.app (ramStream_keeps ?_ rfl) ?_
  · intro s
    refine Keeps.step takeRamWrite_keeps rfl ?_
    exact Keeps.refl
  · refine Keeps.step begin'_keeps rfl ?_
    exact Keeps.refl

/-- Writes at most: mem vm xch. -/
theorem applyRam_keeps {b0 s} : Keeps 67094527 s (applyRam b0 s) := by
  induction b0 generalizing s with
  | nil =>
    rw [applyRam.eq_1]
    exact Keeps.refl
  | cons z zs ih =>
    rw [applyRam.eq_2]
    refine Keeps.app ih ?_
    refine Keeps.ite ?_ ?_
    · refine Keeps.step storeGood_keeps rfl ?_
      refine Keeps.step trackWrite_keeps rfl ?_
      exact Keeps.refl
    · exact Keeps.refl

/-- Writes at most: prg frc vm. -/
theorem reservedLoad_keeps {s} : Keeps 67103231 s (reservedLoad s) := by
  unfold reservedLoad
  refine Keeps.step reservedInto_keeps rfl ?_
  exact Keeps.refl

/-- Writes at most: prg frc mem vm xch lnk. -/
theorem takeBoundary_keeps {s} : Keeps 50315775 s (takeBoundary s) := by
  unfold takeBoundary
  extract_lets -merge -useContext +onlyGivenNames x0
  try clear_value x0
  extract_lets -merge -useContext +onlyGivenNames x1
  have h2 : Keeps 50315775 s x1 := by
    unfold x1
    refine Keeps.step applyRam_keeps rfl ?_
    exact Keeps.refl
  try clear_value x1
  extract_lets -merge -useContext +onlyGivenNames x3
  have h4 : Keeps 50315775 s x3 := by
    unfold x3
    refine Keeps.ite ?_ ?_
    · refine Keeps.step reservedLoad_keeps rfl ?_
      exact h2
    · exact h2
  try clear_value x3
  refine Keeps.app (wr_lnk rfl) ?_
  exact h4

/-- Writes at most: sent clk civ cand prg frc mem vm xch regs bus lnk. -/
theorem execBoundary_keeps {b0 b1 s} : Answers 50266565 s (execBoundary b0 b1 s) := by
  unfold execBoundary
  refine Answers.next ?_
  refine Keeps.app (ramStream_keeps ?_ rfl) ?_
  · intro s
    refine Keeps.step takeBoundary_keeps rfl ?_
    exact Keeps.refl
  · refine Keeps.step begin'_keeps rfl ?_
    exact Keeps.refl

/-- Writes at most: sent clk civ cand prg regs bus lnk. -/
theorem execSolo_keeps {b0 b1 s} : Answers 50281925 s (execSolo b0 b1 s) := by
  unfold execSolo
  refine Answers.next ?_
  refine Keeps.app (immediateMsg_keeps ?_ rfl) ?_
  · intro s
    refine Keeps.step toUnsynced_keeps rfl ?_
    exact Keeps.refl
  · refine Keeps.step begin'_keeps rfl ?_
    exact Keeps.refl

/-- Writes at most: sent clk civ cand prg regs bus lnk. -/
theorem execSafeStateMark_keeps {b0 b1 s} : Answers 50281925 s (execSafeStateMark b0 b1 s) := by
  unfold execSafeStateMark
  refine Answers.next ?_
  refine Keeps.app (immediateMsg_keeps ?_ rfl) ?_
  · intro s
    refine Keeps.ite ?_ ?_
    · refine Keeps.app (wr_lnk rfl) ?_
      exact Keeps.refl
    · exact Keeps.refl
  · refine Keeps.step begin'_keeps rfl ?_
    exact Keeps.refl

/-- Writes at most: sent clk civ cand prg regs bus lnk. -/
theorem execHandover_keeps {b0 b1 s} : Answers 50281925 s (execHandover b0 b1 s) := by
  unfold execHandover
  refine Answers.next ?_
  refine Keeps.app (immediateMsg_keeps ?_ rfl) ?_
  · intro s
    refine Keeps.ite ?_ ?_
    · refine Keeps.app (wr_lnk rfl) ?_
      exact Keeps.refl
    · exact Keeps.refl
  · refine Keeps.step begin'_keeps rfl ?_
    exact Keeps.refl

/-- Writes at most: sent tel lnk. -/
theorem takeAck_keeps {b0 s} : Keeps 50266109 s (takeAck b0 s) := by
  unfold takeAck
  refine Keeps.step releaseFenced_keeps rfl ?_
  refine Keeps.app (wr_lnk rfl) ?_
  exact Keeps.refl

/-- Writes at most: sent clk civ cand prg regs bus tel lnk. -/
theorem execAck_keeps {b0 b1 s} : Answers 50216389 s (execAck b0 b1 s) := by
  unfold execAck
  refine Answers.next ?_
  refine Keeps.app (toActive_keeps ?_ rfl) ?_
  · intro s
    refine Keeps.step takeAck_keeps rfl ?_
    exact Keeps.refl
  · refine Keeps.step begin'_keeps rfl ?_
    exact Keeps.refl

/-- Writes at most: sent tel lnk. -/
theorem takeSync_keeps {s} : Keeps 50266109 s (takeSync s) := by
  unfold takeSync
  extract_lets -merge -useContext +onlyGivenNames x0
  try clear_value x0
  extract_lets -merge -useContext +onlyGivenNames x1
  have h2 : Keeps 50266109 s x1 := by
    unfold x1
    refine Keeps.step releaseFenced_keeps rfl ?_
    refine Keeps.app (wr_lnk rfl) ?_
    exact Keeps.refl
  try clear_value x1
  refine Keeps.step modLink_keeps rfl ?_
  exact h2

/-- Writes at most: sent clk civ cand prg regs bus tel lnk. -/
theorem execSyncReq_keeps {b0 b1 s} : Answers 50216389 s (execSyncReq b0 b1 s) := by
  unfold execSyncReq
  refine Answers.next ?_
  refine Keeps.app (toActive_keeps ?_ rfl) ?_
  · intro s
    refine Keeps.step takeSync_keeps rfl ?_
    exact Keeps.refl
  · refine Keeps.step begin'_keeps rfl ?_
    exact Keeps.refl

/-- Writes at most: sent tel lnk. -/
theorem goSolo_keeps {s} : Keeps 50266109 s (goSolo s) := by
  unfold goSolo
  refine Keeps.step fenceOff_keeps rfl ?_
  extract_lets -merge -useContext +onlyGivenNames x0
  have h1 : Keeps 50266109 s x0 := by
    unfold x0
    refine Keeps.step mirror_keeps rfl ?_
    exact Keeps.refl
  try clear_value x0
  refine Keeps.app (wr_lnk rfl) ?_
  exact h1

/-- Writes at most: sent clk civ cand prg bus tel lnk. -/
theorem execMirrorFenceTimeout_keeps {b0 s} : Answers 50232773 s (execMirrorFenceTimeout b0 s) := by
  unfold execMirrorFenceTimeout
  extract_lets -merge -useContext +onlyGivenNames x0
  have h1 : Keeps 50232773 s x0 := by
    unfold x0
    refine Keeps.step begin'_keeps rfl ?_
    exact Keeps.refl
  try clear_value x0
  refine Answers.next ?_
  refine Keeps.ite ?_ ?_
  · refine Keeps.step goSolo_keeps rfl ?_
    exact h1
  · exact h1

/-- Writes at most: sent lnk. -/
theorem mirrorPieces_keeps {b0 b1 b2 s} : Keeps 50331645 s (mirrorPieces b0 b1 b2 s) := by
  induction b1 generalizing b0 b2 s with
  | nil =>
    rw [mirrorPieces.eq_1]
    exact Keeps.refl
  | cons z zs ih =>
    rw [mirrorPieces.eq_2]
    refine Keeps.app ih ?_
    refine Keeps.ite ?_ ?_
    · exact Keeps.refl
    · refine Keeps.step mirror_keeps rfl ?_
      exact Keeps.refl

/-- Writes at most: sent lnk. -/
theorem mirrorReserved_keeps {s} : Keeps 50331645 s (mirrorReserved s) := by
  unfold mirrorReserved
  refine Keeps.ite ?_ ?_
  · extract_lets -merge -useContext +onlyGivenNames x0
    try clear_value x0
    extract_lets -merge -useContext +onlyGivenNames x1
    have h2 : Keeps 50331645 s x1 := by
      unfold x1
      refine Keeps.step mirrorPieces_keeps rfl ?_
      exact Keeps.refl
    try clear_value x1
    refine Keeps.app (wr_lnk rfl) ?_
    exact h2
  · exact Keeps.refl

/-- Writes at most: lnk. -/
theorem pairSynced_keeps {s} : Keeps 50331647 s (pairSynced s) := by
  unfold pairSynced
  refine Keeps.ite ?_ ?_
  · exact Keeps.refl
  · refine Keeps.ite ?_ ?_
    · refine Keeps.app (wr_lnk rfl) ?_
      exact Keeps.refl
    · refine Keeps.ite ?_ ?_
      · refine Keeps.app (wr_lnk rfl) ?_
        exact Keeps.refl
      · exact Keeps.refl

/-- Writes at most: sent clk civ cand prg bus lnk. -/
theorem execStandbySynced_keeps {b0 s} : Answers 50298309 s (execStandbySynced b0 s) := by
  unfold execStandbySynced
  extract_lets -merge -useContext +onlyGivenNames x0
  have h1 : Keeps 50298309 s x0 := by
    unfold x0
    refine Keeps.step begin'_keeps rfl ?_
    exact Keeps.refl
  try clear_value x0
  refine Answers.next ?_
  refine Keeps.ite ?_ ?_
  · refine Keeps.step pairSynced_keeps rfl ?_
    exact h1
  · exact h1

/-- Writes at most: regs upd. -/
theorem takeoverUpdate_keeps {s} : Keeps 58703871 s (takeoverUpdate s) := by
  unfold takeoverUpdate
  refine Keeps.ite ?_ ?_
  · refine Keeps.step updReason_keeps rfl ?_
    refine Keeps.app (wr_upd rfl) ?_
    exact Keeps.refl
  · exact Keeps.refl

/-- Writes at most: prg mem vm xch regs evr upd lnk. -/
theorem takeOver_keeps {s} : Keeps 39814655 s (takeOver s) := by
  unfold takeOver
  extract_lets -merge -useContext +onlyGivenNames x0
  try clear_value x0
  extract_lets -merge -useContext +onlyGivenNames x1
  have h2 : Keeps 39814655 s x1 := by
    unfold x1
    refine Keeps.step addRf_keeps rfl ?_
    refine Keeps.app (wr_lnk rfl) ?_
    exact Keeps.refl
  try clear_value x1
  extract_lets -merge -useContext +onlyGivenNames x3
  have h4 : Keeps 39814655 s x3 := by
    unfold x3
    split
    · refine Keeps.step xchStop_keeps rfl ?_
      exact h2
    · refine Keeps.step xchStop_keeps rfl ?_
      exact h2
    · refine Keeps.step xchStop_keeps rfl ?_
      exact h2
    · exact h2
  try clear_value x3
  extract_lets -merge -useContext +onlyGivenNames x9
  have h10 : Keeps 39814655 s x9 := by
    unfold x9
    refine Keeps.step takeoverUpdate_keeps rfl ?_
    exact h4
  try clear_value x9
  split
  · refine Keeps.step releaseCyclic_keeps rfl ?_
    exact h10
  · refine Keeps.ite ?_ ?_
    · exact h10
    · refine Keeps.step releaseFree_keeps rfl ?_
      exact h10
  · exact h10

/-- Writes at most: sent clk civ cand prg mem vm xch regs bus evr upd lnk. -/
theorem execTakeover_keeps {b0 s} : Answers 39781829 s (execTakeover b0 s) := by
  unfold execTakeover
  extract_lets -merge -useContext +onlyGivenNames x0
  have h1 : Keeps 39781829 s x0 := by
    unfold x0
    refine Keeps.step begin'_keeps rfl ?_
    exact Keeps.refl
  try clear_value x0
  refine Answers.next ?_
  refine Keeps.ite ?_ ?_
  · refine Keeps.step takeOver_keeps rfl ?_
    exact h1
  · exact h1

end Sys2Proof.Machine
end

