-- ==== Sys2Proof/Laws/InvLinks.lean ====
section
/-! SUPPORT. The functions of Machine/Links.lean keep the invariant `Inv`. -/

namespace Sys2Proof.Machine

theorem linkRetrainTo_inv {b0 b1 s} (hs : Inv s) : Inv (linkRetrainTo b0 b1 s) := by
  unfold linkRetrainTo
  extract_lets -merge -useContext +onlyGivenNames x0
  try clear_value x0
  refine Inv.ite ?_ ?_
  · extract_lets -merge -useContext +onlyGivenNames x1
    have h2 : Inv x1 := by
      unfold x1
      refine Inv.keep modLink_keeps rfl ?_
      exact hs
    try clear_value x1
    extract_lets -merge -useContext +onlyGivenNames x3
    have h4 : Inv x3 := by
      unfold x3
      refine emit_inv ?_
      refine Inv.keep cnt_keeps rfl ?_
      exact h2
    try clear_value x3
    refine Inv.ite ?_ ?_
    · refine Inv.keep pairLinkDown_keeps rfl ?_
      exact h4
    · refine Inv.keep measureStart_keeps rfl ?_
      exact h4
  · exact hs

theorem execLinkRetrain_inv {b0 b1 b2 s} (hs : Inv s) : InvA (execLinkRetrain b0 b1 b2 s) := by
  unfold execLinkRetrain
  extract_lets -merge -useContext +onlyGivenNames x0
  have h1 : Inv x0 := by
    unfold x0
    refine begin'_inv ?_
    exact hs
  try clear_value x0
  refine InvA.next ?_
  refine Inv.ite ?_ ?_
  · refine linkRetrainTo_inv ?_
    exact h1
  · exact h1

theorem execLinkTraining_inv {b0 b1 b2 s} (hs : Inv s) : InvA (execLinkTraining b0 b1 b2 s) := by
  unfold execLinkTraining
  extract_lets -merge -useContext +onlyGivenNames x0
  have h1 : Inv x0 := by
    unfold x0
    refine begin'_inv ?_
    exact hs
  try clear_value x0
  refine InvA.next ?_
  refine Inv.ite ?_ ?_
  · refine Inv.keep linkTrained_keeps rfl ?_
    exact h1
  · exact h1

theorem mirrorIn_inv {b0 b1 b2 s} (hf2 : ∀ t, Inv t → Inv (b2 t)) (hs : Inv s) : Inv (mirrorIn b0 b1 b2 s) := by
  unfold mirrorIn
  split
  · rename_i y0 q1
    have h2 : Inv y0 := by
      refine Inv.snd ?_ q1
      refine Inv.keep linkIn_keeps rfl ?_
      exact hs
    refine hf2 _ ?_
    exact h2
  · rename_i y3 q4
    have h5 : Inv y3 := by
      refine Inv.snd ?_ q4
      refine Inv.keep linkIn_keeps rfl ?_
      exact hs
    exact h5

theorem immediateMsg_inv {b0 b1 b2 s} (hf2 : ∀ t, Inv t → Inv (b2 t)) (hs : Inv s) : Inv (immediateMsg b0 b1 b2 s) := by
  unfold immediateMsg
  refine Inv.ite ?_ ?_
  · refine mirrorIn_inv ?_ ?_
    · intro s hs
      refine Inv.ite ?_ ?_
      · refine hf2 _ ?_
        refine Inv.keep sendAck_keeps rfl ?_
        refine Inv.keep gapStart_keeps rfl ?_
        refine Inv.keep (wr_lnk (m := 50331647) rfl) rfl ?_
        exact hs
      · refine Inv.keep standbyGap_keeps rfl ?_
        exact hs
    · exact hs
  · exact hs

theorem ramStream_inv {b0 b1 b2 s} (hf2 : ∀ t, Inv t → Inv (b2 t)) (hs : Inv s) : Inv (ramStream b0 b1 b2 s) := by
  unfold ramStream
  refine Inv.ite ?_ ?_
  · refine mirrorIn_inv ?_ ?_
    · intro s hs
      refine Inv.ite ?_ ?_
      · refine hf2 _ ?_
        refine Inv.keep gapStart_keeps rfl ?_
        refine Inv.keep (wr_lnk (m := 50331647) rfl) rfl ?_
        exact hs
      · refine Inv.keep standbyGap_keeps rfl ?_
        exact hs
    · exact hs
  · exact hs

theorem toActive_inv {b0 b1 b2 b3 s} (hf3 : ∀ t, Inv t → Inv (b3 t)) (hs : Inv s) : Inv (toActive b0 b1 b2 b3 s) := by
  unfold toActive
  refine Inv.ite ?_ ?_
  · refine mirrorIn_inv ?_ ?_
    · intro s hs
      extract_lets -merge -useContext +onlyGivenNames x0
      try clear_value x0
      refine Inv.ite ?_ ?_
      · refine hf3 _ ?_
        refine Inv.keep (wr_lnk (m := 50331647) rfl) rfl ?_
        exact hs
      · refine Inv.keep cnt_keeps rfl ?_
        refine Inv.keep (wr_lnk (m := 50331647) rfl) rfl ?_
        exact hs
    · exact hs
  · exact hs

theorem applyJournalWord_inv {b0 b1 s} (hs : Inv s) : Inv (applyJournalWord b0 b1 s) := by
  unfold applyJournalWord
  extract_lets -merge -useContext +onlyGivenNames x0
  try clear_value x0
  refine Inv.ite ?_ ?_
  · extract_lets -merge -useContext +onlyGivenNames x1
    try clear_value x1
    extract_lets -merge -useContext +onlyGivenNames x2
    try clear_value x2
    have h := hs
    refine ⟨?_, h.cand, h.evr, h.frc, ?_⟩
    · dsimp only; exact memSetList_wf (memSetList_wf h.mem)
    · exact h.lat
  · exact hs

theorem applyJournal_inv {b0 s} (hs : Inv s) : Inv (applyJournal b0 s) := by
  unfold applyJournal
  extract_lets -merge -useContext +onlyGivenNames x0
  have h1 : x0 = s.lat := rfl
  replace h1 : x0.updQ.length ≤ 64 := by
    rw [h1]
    exact hs.lat
  try clear_value x0
  extract_lets -merge -useContext +onlyGivenNames x2
  have h3 : Inv x2 := by
    unfold x2
    refine Inv.set_lat (fun h => ?_) ?_
    · exact by assumption
    · exact hs
  try clear_value x2
  extract_lets -merge -useContext +onlyGivenNames x4
  try clear_value x4
  extract_lets -merge -useContext +onlyGivenNames x5
  try clear_value x5
  extract_lets -merge -useContext +onlyGivenNames x6
  try clear_value x6
  extract_lets -merge -useContext +onlyGivenNames x7
  have h8 : x7 = x2.lat := rfl
  replace h8 : x7.updQ.length ≤ 64 := by
    rw [h8]
    exact h3.lat
  try clear_value x7
  extract_lets -merge -useContext +onlyGivenNames x9
  try clear_value x9
  extract_lets -merge -useContext +onlyGivenNames x10
  have h11 : Inv x10 := by
    unfold x10
    refine Inv.ite ?_ ?_
    · have h := h3
      refine ⟨?_, h.cand, h.evr, h.frc, ?_⟩
      · exact ageAll_wf h.mem
      · exact by assumption
    · exact h3
  try clear_value x10
  extract_lets -merge -useContext +onlyGivenNames x12
  have h13 : Inv x12 := by
    unfold x12
    refine Inv.foldl ?_ _ ?_
    · intro s a14 hs
      refine Inv.ite ?_ ?_
      · refine applyJournalWord_inv ?_
        exact hs
      · exact hs
    · exact h11
  try clear_value x12
  refine Inv.ite ?_ ?_
  · exact h13
  · refine Inv.set_lat (fun h => ?_) ?_
    · exact h.lat
    · exact h13

theorem takeLatCommit_inv {b0 s} (hs : Inv s) : Inv (takeLatCommit b0 s) := by
  unfold takeLatCommit
  extract_lets -merge -useContext +onlyGivenNames x0
  try clear_value x0
  refine Inv.ite ?_ ?_
  · refine applyJournal_inv ?_
    refine Inv.keep (wr_lnk (m := 50331647) rfl) rfl ?_
    exact hs
  · refine Inv.keep (wr_lnk (m := 50331647) rfl) rfl ?_
    exact hs

theorem execLatCommit_inv {b0 b1 s} (hs : Inv s) : InvA (execLatCommit b0 b1 s) := by
  unfold execLatCommit
  refine InvA.next ?_
  refine immediateMsg_inv ?_ ?_
  · intro s hs
    refine takeLatCommit_inv ?_
    exact hs
  · refine begin'_inv ?_
    exact hs

theorem execChannel_inv {b0 b1 s} (hs : Inv s) : InvA (execChannel b0 b1 s) := by
  unfold execChannel
  refine InvA.next ?_
  refine immediateMsg_inv ?_ ?_
  · intro s hs
    refine Inv.keep takeChannel_keeps rfl ?_
    exact hs
  · refine begin'_inv ?_
    exact hs

theorem takeForce_inv {b0 s} (hs : Inv s) : Inv (takeForce b0 s) := by
  unfold takeForce
  extract_lets -merge -useContext +onlyGivenNames x0
  extract_lets -merge -useContext +onlyGivenNames x1
  refine Inv.ite ?_ ?_
  · exact hs
  · refine Inv.ite ?_ ?_
    · extract_lets -merge -useContext +onlyGivenNames x2
      extract_lets -merge -useContext +onlyGivenNames x3
      extract_lets -merge -useContext +onlyGivenNames x4
      extract_lets -merge -useContext +onlyGivenNames x5
      extract_lets -merge -useContext +onlyGivenNames x6
      have h7 : x6 = s.frc := rfl
      replace h7 : x6.table.length ≤ 256 := by
        rw [h7]
        exact hs.frc
      extract_lets -merge -useContext +onlyGivenNames x8
      have h9 : Inv x8 := by
        unfold x8
        refine forceAdd_inv ?_
        refine Inv.set_frc (fun h => ?_) ?_
        · exact Nat.le_trans (List.length_filter_le _ _) h.frc
        · exact hs
      refine Inv.keep consumeToken_keeps rfl ?_
      refine Inv.set_frc (fun h => ?_) ?_
      · exact h.frc
      · exact h9
    · refine Inv.ite ?_ ?_
      · refine Inv.set_frc (fun h => ?_) ?_
        · exact Nat.le_trans (List.length_filter_le _ _) h.frc
        · exact hs
      · refine Inv.ite ?_ ?_
        · refine Inv.set_frc (fun h => ?_) ?_
          · exact Nat.zero_le _
          · exact hs
        · exact hs

theorem execForce_inv {b0 b1 s} (hs : Inv s) : InvA (execForce b0 b1 s) := by
  unfold execForce
  refine InvA.next ?_
  refine immediateMsg_inv ?_ ?_
  · intro s hs
    refine takeForce_inv ?_
    exact hs
  · refine begin'_inv ?_
    exact hs

theorem takeCommand_inv {b0 b1 s} (hs : Inv s) : Inv (takeCommand b0 b1 s) := by
  unfold takeCommand
  refine Inv.ite ?_ ?_
  · split
    · refine xchLoad_inv ?_
      exact hs
    · refine xchArm_inv ?_
      exact hs
    · refine xchDisarm_inv ?_
      exact hs
    · exact hs
  · refine Inv.ite ?_ ?_
    · refine Inv.keep setRv_keeps rfl ?_
      exact hs
    · refine Inv.ite ?_ ?_
      · split
        · refine Inv.keep updPrepare_keeps rfl ?_
          exact hs
        · refine updArm_inv ?_
          exact hs
        · refine updCancel_inv ?_
          exact hs
        · refine updConfirm_inv ?_
          exact hs
        · exact hs
      · refine Inv.ite ?_ ?_
        · refine Inv.keep setRv_keeps rfl ?_
          exact hs
        · exact hs

theorem execCommand_inv {b0 b1 s} (hs : Inv s) : InvA (execCommand b0 b1 s) := by
  unfold execCommand
  refine InvA.next ?_
  refine immediateMsg_inv ?_ ?_
  · intro s hs
    refine takeCommand_inv ?_
    exact hs
  · refine begin'_inv ?_
    exact hs

theorem execRamWrite_inv {b0 b1 s} (hs : Inv s) : InvA (execRamWrite b0 b1 s) := by
  unfold execRamWrite
  refine InvA.next ?_
  refine ramStream_inv ?_ ?_
  · intro s hs
    refine Inv.keep takeRamWrite_keeps rfl ?_
    exact hs
  · refine begin'_inv ?_
    exact hs

theorem applyRam_inv {b0 s} (hs : Inv s) : Inv (applyRam b0 s) := by
  induction b0 generalizing s with
  | nil =>
    rw [applyRam.eq_1]
    exact hs
  | cons z zs ih =>
    rw [applyRam.eq_2]
    refine ih ?_
    refine Inv.ite ?_ ?_
    · refine storeGood_inv ?_
      refine Inv.keep trackWrite_keeps rfl ?_
      exact hs
    · exact hs

theorem reservedLoad_inv {s} (hs : Inv s) : Inv (reservedLoad s) := by
  unfold reservedLoad
  refine reservedInto_inv ?_
  exact hs

theorem takeBoundary_inv {s} (hs : Inv s) : Inv (takeBoundary s) := by
  unfold takeBoundary
  extract_lets -merge -useContext +onlyGivenNames x0
  try clear_value x0
  extract_lets -merge -useContext +onlyGivenNames x1
  have h2 : Inv x1 := by
    unfold x1
    refine applyRam_inv ?_
    exact hs
  try clear_value x1
  extract_lets -merge -useContext +onlyGivenNames x3
  have h4 : Inv x3 := by
    unfold x3
    refine Inv.ite ?_ ?_
    · refine reservedLoad_inv ?_
      exact h2
    · exact h2
  try clear_value x3
  refine Inv.keep (wr_lnk (m := 50331647) rfl) rfl ?_
  exact h4

theorem execBoundary_inv {b0 b1 s} (hs : Inv s) : InvA (execBoundary b0 b1 s) := by
  unfold execBoundary
  refine InvA.next ?_
  refine ramStream_inv ?_ ?_
  · intro s hs
    refine takeBoundary_inv ?_
    exact hs
  · refine begin'_inv ?_
    exact hs

theorem execSolo_inv {b0 b1 s} (hs : Inv s) : InvA (execSolo b0 b1 s) := by
  unfold execSolo
  refine InvA.next ?_
  refine immediateMsg_inv ?_ ?_
  · intro s hs
    refine Inv.keep toUnsynced_keeps rfl ?_
    exact hs
  · refine begin'_inv ?_
    exact hs

theorem execSafeStateMark_inv {b0 b1 s} (hs : Inv s) : InvA (execSafeStateMark b0 b1 s) := by
  unfold execSafeStateMark
  refine InvA.next ?_
  refine immediateMsg_inv ?_ ?_
  · intro s hs
    refine Inv.ite ?_ ?_
    · refine Inv.keep (wr_lnk (m := 50331647) rfl) rfl ?_
      exact hs
    · exact hs
  · refine begin'_inv ?_
    exact hs

theorem execHandover_inv {b0 b1 s} (hs : Inv s) : InvA (execHandover b0 b1 s) := by
  unfold execHandover
  refine InvA.next ?_
  refine immediateMsg_inv ?_ ?_
  · intro s hs
    refine Inv.ite ?_ ?_
    · refine Inv.keep (wr_lnk (m := 50331647) rfl) rfl ?_
      exact hs
    · exact hs
  · refine begin'_inv ?_
    exact hs

theorem execAck_inv {b0 b1 s} (hs : Inv s) : InvA (execAck b0 b1 s) := by
  unfold execAck
  refine InvA.next ?_
  refine toActive_inv ?_ ?_
  · intro s hs
    refine Inv.keep takeAck_keeps rfl ?_
    exact hs
  · refine begin'_inv ?_
    exact hs

theorem execSyncReq_inv {b0 b1 s} (hs : Inv s) : InvA (execSyncReq b0 b1 s) := by
  unfold execSyncReq
  refine InvA.next ?_
  refine toActive_inv ?_ ?_
  · intro s hs
    refine Inv.keep takeSync_keeps rfl ?_
    exact hs
  · refine begin'_inv ?_
    exact hs

theorem execMirrorFenceTimeout_inv {b0 s} (hs : Inv s) : InvA (execMirrorFenceTimeout b0 s) := by
  unfold execMirrorFenceTimeout
  extract_lets -merge -useContext +onlyGivenNames x0
  have h1 : Inv x0 := by
    unfold x0
    refine begin'_inv ?_
    exact hs
  try clear_value x0
  refine InvA.next ?_
  refine Inv.ite ?_ ?_
  · refine Inv.keep goSolo_keeps rfl ?_
    exact h1
  · exact h1

theorem execStandbySynced_inv {b0 s} (hs : Inv s) : InvA (execStandbySynced b0 s) := by
  unfold execStandbySynced
  extract_lets -merge -useContext +onlyGivenNames x0
  have h1 : Inv x0 := by
    unfold x0
    refine begin'_inv ?_
    exact hs
  try clear_value x0
  refine InvA.next ?_
  refine Inv.ite ?_ ?_
  · refine Inv.keep pairSynced_keeps rfl ?_
    exact h1
  · exact h1

theorem takeOver_inv {s} (hs : Inv s) : Inv (takeOver s) := by
  unfold takeOver
  extract_lets -merge -useContext +onlyGivenNames x0
  try clear_value x0
  extract_lets -merge -useContext +onlyGivenNames x1
  have h2 : Inv x1 := by
    unfold x1
    refine Inv.keep addRf_keeps rfl ?_
    refine Inv.keep (wr_lnk (m := 50331647) rfl) rfl ?_
    exact hs
  try clear_value x1
  extract_lets -merge -useContext +onlyGivenNames x3
  have h4 : Inv x3 := by
    unfold x3
    split
    · refine xchStop_inv ?_
      exact h2
    · refine xchStop_inv ?_
      exact h2
    · refine xchStop_inv ?_
      exact h2
    · exact h2
  try clear_value x3
  extract_lets -merge -useContext +onlyGivenNames x9
  have h10 : Inv x9 := by
    unfold x9
    refine Inv.keep takeoverUpdate_keeps rfl ?_
    exact h4
  try clear_value x9
  split
  · refine Inv.keep releaseCyclic_keeps rfl ?_
    exact h10
  · refine Inv.ite ?_ ?_
    · exact h10
    · refine releaseFree_inv ?_
      exact h10
  · exact h10

theorem execTakeover_inv {b0 s} (hs : Inv s) : InvA (execTakeover b0 s) := by
  unfold execTakeover
  extract_lets -merge -useContext +onlyGivenNames x0
  have h1 : Inv x0 := by
    unfold x0
    refine begin'_inv ?_
    exact hs
  try clear_value x0
  refine InvA.next ?_
  refine Inv.ite ?_ ?_
  · refine takeOver_inv ?_
    exact h1
  · exact h1

end Sys2Proof.Machine
end

