-- ==== Sys2Proof/Laws/KeepsRegs.lean ====
section
/-! SUPPORT. Frames of the functions of Machine/Regs.lean: what each leaves alone, said once. The docstrings name the parts of `State` a function may write; the mask marks all others. -/

namespace Sys2Proof.Machine

/-- Writes at most: regs evr. -/
theorem unmapped_keeps {b0 b1 s} : Keeps 64995327 s (unmapped b0 b1 s) := by
  unfold unmapped
  refine Keeps.step nvEvent_keeps rfl ?_
  refine Keeps.step setRf_keeps rfl ?_
  exact Keeps.refl

/-- Writes at most: civ cand regs evr. -/
theorem regRead_keeps {b0 s} : Keeps 64995279 s (regRead b0 s).1 := by
  unfold regRead
  refine Keeps.ite1 ?_ ?_
  · extract_lets -merge -useContext +onlyGivenNames x0
    try clear_value x0
    extract_lets -merge -useContext +onlyGivenNames x1
    try clear_value x1
    refine Keeps.mkFst ?_
    refine Keeps.ite ?_ ?_
    · refine Keeps.step snapshot_keeps rfl ?_
      exact Keeps.refl
    · refine Keeps.ite ?_ ?_
      · refine Keeps.step rtcCapture_keeps rfl ?_
        exact Keeps.refl
      · exact Keeps.refl
  · refine Keeps.mkFst ?_
    refine Keeps.step unmapped_keeps rfl ?_
    exact Keeps.refl

/-- Writes at most: regs evr. -/
theorem badCommand_keeps {b0 b1 s} : Keeps 64995327 s (badCommand b0 b1 s) := by
  unfold badCommand
  refine Keeps.step nvEvent_keeps rfl ?_
  exact Keeps.refl

/-- Writes at most: sent lnk. -/
theorem mirrorOperand_keeps {b0 b1 s} : Keeps 50331645 s (mirrorOperand b0 b1 s) := by
  unfold mirrorOperand
  refine Keeps.step mirror_keeps rfl ?_
  exact Keeps.refl

/-- Writes at most: sent tel lnk. -/
theorem linksOff_keeps {b0 s} : Keeps 50266109 s (linksOff b0 s) := by
  unfold linksOff
  refine Keeps.foldl ?_ _ ?_
  · intro s a0
    refine Keeps.ite ?_ ?_
    · exact Keeps.refl
    · refine Keeps.step pairLinkDown_keeps rfl ?_
      refine Keeps.step modLink_keeps rfl ?_
      exact Keeps.refl
  · exact Keeps.refl

/-- Writes at most: sent prg regs bus tel fio evr lnk. -/
theorem storeRw_keeps {b0 b1 s} : Keeps 47595005 s (storeRw b0 b1 s) := by
  unfold storeRw
  extract_lets -merge -useContext +onlyGivenNames x0
  have h1 : ∀ s, Keeps 47595005 s (x0 s) := by
    intro s
    unfold x0
    refine Keeps.step setRv_keeps rfl ?_
    exact Keeps.refl
  try clear_value x0
  refine Keeps.ite ?_ ?_
  · refine Keeps.ite ?_ ?_
    · refine Keeps.app (wr_prg rfl) ?_
      exact Keeps.refl
    · exact Keeps.refl
  · split
    · refine Keeps.app (h1 _) ?_
      exact Keeps.refl
    · refine Keeps.step mirrorOperand_keeps rfl ?_
      refine Keeps.app (h1 _) ?_
      exact Keeps.refl
    · refine Keeps.step mirrorOperand_keeps rfl ?_
      refine Keeps.app (h1 _) ?_
      exact Keeps.refl
    · refine Keeps.step vbusCtlWrite_keeps rfl ?_
      exact Keeps.refl
    · refine Keeps.ite ?_ ?_
      · refine Keeps.app (h1 _) ?_
        exact Keeps.refl
      · refine Keeps.step badCommand_keeps rfl ?_
        exact Keeps.refl
    · refine Keeps.ite ?_ ?_
      · refine Keeps.app (h1 _) ?_
        exact Keeps.refl
      · refine Keeps.step badCommand_keeps rfl ?_
        exact Keeps.refl
    · refine Keeps.step incrWrite_keeps rfl ?_
      exact Keeps.refl
    · extract_lets -merge -useContext +onlyGivenNames x10
      have h11 : Keeps 47595005 s x10 := by
        unfold x10
        refine Keeps.app (h1 _) ?_
        exact Keeps.refl
      try clear_value x10
      refine Keeps.step setRv_keeps rfl ?_
      exact h11
    · refine Keeps.ite ?_ ?_
      · refine Keeps.app (h1 _) ?_
        exact Keeps.refl
      · refine Keeps.step pinsOff_keeps rfl ?_
        refine Keeps.app (h1 _) ?_
        exact Keeps.refl
    · refine Keeps.step mirrorOperand_keeps rfl ?_
      refine Keeps.app (h1 _) ?_
      exact Keeps.refl
    · refine Keeps.step mirrorOperand_keeps rfl ?_
      refine Keeps.app (h1 _) ?_
      exact Keeps.refl
    · refine Keeps.step linksOff_keeps rfl ?_
      refine Keeps.app (h1 _) ?_
      exact Keeps.refl
    · refine Keeps.app (h1 _) ?_
      exact Keeps.refl

/-- Writes at most: sent civ cand prg vm xch regs tel rings fio snu evr upd lnk. -/
theorem regCommand_keeps {b0 b1 s} : Keeps 38047181 s (regCommand b0 b1 s) := by
  unfold regCommand
  split
  · extract_lets -merge -useContext +onlyGivenNames x1
    have h2 : Keeps 38047181 s x1 := by
      unfold x1
      refine Keeps.ite ?_ ?_
      · refine Keeps.step requestNormal_keeps rfl ?_
        exact Keeps.refl
      · exact Keeps.refl
    try clear_value x1
    refine Keeps.ite ?_ ?_
    · refine Keeps.step requestTest_keeps rfl ?_
      exact h2
    · exact h2
  · split
    · refine Keeps.step xchLoad_keeps rfl ?_
      refine Keeps.step xchMirror_keeps rfl ?_
      exact Keeps.refl
    · extract_lets -merge -useContext +onlyGivenNames x6
      have h7 : Keeps 38047181 s x6 := by
        unfold x6
        refine Keeps.step xchMirror_keeps rfl ?_
        exact Keeps.refl
      try clear_value x6
      refine Keeps.step xchArm_keeps rfl ?_
      exact h7
    · refine Keeps.step xchDisarm_keeps rfl ?_
      refine Keeps.step xchMirror_keeps rfl ?_
      exact Keeps.refl
    · refine Keeps.step badCommand_keeps rfl ?_
      exact Keeps.refl
  · split
    · refine Keeps.step civStep_keeps rfl ?_
      exact Keeps.refl
    · refine Keeps.step civAccept_keeps rfl ?_
      exact Keeps.refl
    · refine Keeps.step civKick_keeps rfl ?_
      exact Keeps.refl
    · refine Keeps.step civDiscard_keeps rfl ?_
      exact Keeps.refl
    · refine Keeps.step badCommand_keeps rfl ?_
      exact Keeps.refl
  · refine Keeps.step cvuFeed_keeps rfl ?_
    exact Keeps.refl
  · split
    · refine Keeps.step chCreate_keeps rfl ?_
      exact Keeps.refl
    · refine Keeps.step chDestroy_keeps rfl ?_
      exact Keeps.refl
    · refine Keeps.step badCommand_keeps rfl ?_
      exact Keeps.refl
  · refine Keeps.app (wr_tel rfl) ?_
    exact Keeps.refl
  · refine Keeps.app (wr_tel rfl) ?_
    exact Keeps.refl
  · refine Keeps.app (wr_tel rfl) ?_
    exact Keeps.refl
  · refine Keeps.app (wr_tel rfl) ?_
    exact Keeps.refl
  · split
    · refine Keeps.step keyCommit_keeps rfl ?_
      exact Keeps.refl
    · refine Keeps.step keyLock_keeps rfl ?_
      exact Keeps.refl
    · refine Keeps.step badCommand_keeps rfl ?_
      exact Keeps.refl
  · refine Keeps.step unlatchWrite_keeps rfl ?_
    exact Keeps.refl
  · split
    · refine Keeps.app (wr_snu rfl) ?_
      exact Keeps.refl
    · refine Keeps.step kdropDo_keeps rfl ?_
      exact Keeps.refl
    · refine Keeps.step badCommand_keeps rfl ?_
      exact Keeps.refl
  · split
    · refine Keeps.step evrFreeze_keeps rfl ?_
      exact Keeps.refl
    · refine Keeps.step evrThaw_keeps rfl ?_
      exact Keeps.refl
    · refine Keeps.step evrClear_keeps rfl ?_
      exact Keeps.refl
    · refine Keeps.step evrRead_keeps rfl ?_
      exact Keeps.refl
    · refine Keeps.step evrReadStop_keeps rfl ?_
      exact Keeps.refl
    · refine Keeps.step badCommand_keeps rfl ?_
      exact Keeps.refl
  · split
    · refine Keeps.step updPrepare_keeps rfl ?_
      refine Keeps.step updMirror_keeps rfl ?_
      exact Keeps.refl
    · refine Keeps.step updArm_keeps rfl ?_
      refine Keeps.step updMirror_keeps rfl ?_
      exact Keeps.refl
    · refine Keeps.step updCancel_keeps rfl ?_
      refine Keeps.step updMirror_keeps rfl ?_
      exact Keeps.refl
    · refine Keeps.step updConfirm_keeps rfl ?_
      refine Keeps.step updMirror_keeps rfl ?_
      exact Keeps.refl
    · refine Keeps.step abortOwn_keeps rfl ?_
      exact Keeps.refl
    · refine Keeps.step badCommand_keeps rfl ?_
      exact Keeps.refl
  · exact Keeps.refl

/-- Writes at most: regs. -/
theorem stickyWrite_keeps {b0 b1 s} : Keeps 67092479 s (stickyWrite b0 b1 s) := by
  unfold stickyWrite
  extract_lets -merge -useContext +onlyGivenNames x0
  have h1 : Keeps 67092479 s x0 := by
    unfold x0
    refine Keeps.ite ?_ ?_
    · exact Keeps.refl
    · refine Keeps.step setRv_keeps rfl ?_
      exact Keeps.refl
  try clear_value x0
  refine Keeps.ite ?_ ?_
  · refine Keeps.step setRf_keeps rfl ?_
    exact h1
  · exact h1

/-- Writes at most: sent civ cand prg vm xch regs bus tel rings fio snu evr upd lnk. -/
theorem regWriteOpen_keeps {b0 b1 b2 s} : Keeps 38014413 s (regWriteOpen b0 b1 b2 s) := by
  unfold regWriteOpen
  extract_lets -merge -useContext +onlyGivenNames x0
  try clear_value x0
  refine Keeps.ite ?_ ?_
  · refine Keeps.step nvEvent_keeps rfl ?_
    exact Keeps.refl
  · extract_lets -merge -useContext +onlyGivenNames x1
    have h2 : Keeps 38014413 s x1 := by
      unfold x1
      refine Keeps.ite ?_ ?_
      · exact Keeps.refl
      · refine Keeps.step storeRw_keeps rfl ?_
        exact Keeps.refl
    try clear_value x1
    refine Keeps.ite ?_ ?_
    · refine Keeps.step stickyWrite_keeps rfl ?_
      refine Keeps.step regCommand_keeps rfl ?_
      exact h2
    · exact h2

/-- Writes at most: regs evr. -/
theorem w1Write_keeps {b0 b1 b2 s} : Keeps 64995327 s (w1Write b0 b1 b2 s) := by
  unfold w1Write
  refine Keeps.ite ?_ ?_
  · refine Keeps.step lockViolation_keeps rfl ?_
    exact Keeps.refl
  · refine Keeps.ite ?_ ?_
    · refine Keeps.step setRv_keeps rfl ?_
      refine Keeps.step setRv_keeps rfl ?_
      exact Keeps.refl
    · exact Keeps.refl

/-- Writes at most: sent civ cand pwr tri prg frc vm xch regs bus tel rings fio snu evr upd lnk. -/
theorem regWrite_keeps {b0 b1 s} : Keeps 38013197 s (regWrite b0 b1 s) := by
  unfold regWrite
  refine Keeps.ite ?_ ?_
  · extract_lets -merge -useContext +onlyGivenNames x0
    try clear_value x0
    refine Keeps.ite ?_ ?_
    · refine Keeps.step sysTripWrite_keeps rfl ?_
      exact Keeps.refl
    · refine Keeps.ite ?_ ?_
      · refine Keeps.step lockViolation_keeps rfl ?_
        exact Keeps.refl
      · refine Keeps.ite ?_ ?_
        · refine Keeps.step w1Write_keeps rfl ?_
          exact Keeps.refl
        · refine Keeps.step regWriteOpen_keeps rfl ?_
          exact Keeps.refl
  · refine Keeps.step unmapped_keeps rfl ?_
    exact Keeps.refl

/-- Writes at most: sent free civ cand pwr tri prg frc mem vm xch regs rings fio snu evr sta upd lnk. -/
theorem doRdreg_keeps {b0 b1 s} : KeepsE 33915145 s (doRdreg b0 b1 s) := by
  unfold doRdreg
  refine KeepsE.bind ?_ ?_
  · refine KeepsE.step slotRead_keeps rfl ?_
    exact Keeps.refl
  · intro s a0
    refine KeepsE.ite ?_ ?_
    · split
      · rename_i y1 y2 q3
        have h4 : Keeps 33915145 s y1 := by
          refine Keeps.fst ?_ q3
          refine Keeps.step regRead_keeps rfl ?_
          refine Keeps.step seqVoted_keeps rfl ?_
          exact Keeps.refl
        refine KeepsE.step slotWrite_keeps rfl ?_
        exact h4
    · refine KeepsE.trap ?_
      exact Keeps.refl

/-- Writes at most: sent free clk civ cand pwr tri prg frc mem vm xch regs bus rings fio snu evr sta upd lnk. -/
theorem execVRdreg_keeps {b0 b1 s} : Answers 33882369 s (execVRdreg b0 b1 s) := by
  unfold execVRdreg
  refine Answers.next ?_
  refine Keeps.app (vExecBy_keeps ?_ rfl) ?_
  · intro a0 a1 s
    refine KeepsE.step doRdreg_keeps rfl ?_
    exact Keeps.refl
  · exact Keeps.refl

/-- Writes at most: sent free civ cand pwr tri prg frc mem vm xch regs bus tel rings fio snu evr sta upd lnk. -/
theorem doWrreg_keeps {b0 b1 s} : KeepsE 33816841 s (doWrreg b0 b1 s) := by
  unfold doWrreg
  refine KeepsE.bind ?_ ?_
  · refine KeepsE.step slotRead_keeps rfl ?_
    exact Keeps.refl
  · intro s a0
    refine KeepsE.ite ?_ ?_
    · refine KeepsE.trap ?_
      exact Keeps.refl
    · refine KeepsE.ite ?_ ?_
      · refine KeepsE.trap ?_
        exact Keeps.refl
      · refine KeepsE.ite ?_ ?_
        · refine KeepsE.trap ?_
          exact Keeps.refl
        · refine KeepsE.bind ?_ ?_
          · refine KeepsE.step slotRead_keeps rfl ?_
            exact Keeps.refl
          · intro s a1
            refine KeepsE.ok ?_
            refine Keeps.step regWrite_keeps rfl ?_
            refine Keeps.step seqVoted_keeps rfl ?_
            exact Keeps.refl

/-- Writes at most: sent free clk civ cand pwr tri prg frc mem vm xch regs bus tel rings fio snu evr sta upd lnk. -/
theorem execVWrreg_keeps {b0 b1 s} : Answers 33816833 s (execVWrreg b0 b1 s) := by
  unfold execVWrreg
  refine Answers.next ?_
  refine Keeps.app (vExecBy_keeps ?_ rfl) ?_
  · intro a0 a1 s
    refine KeepsE.step doWrreg_keeps rfl ?_
    exact Keeps.refl
  · exact Keeps.refl

/-- Writes at most: sent clk civ cand pwr tri prg frc vm xch regs bus tel rings fio snu evr upd lnk. -/
theorem execInjArm_keeps {b0 b1 s} : Answers 38013189 s (execInjArm b0 b1 s) := by
  unfold execInjArm
  refine Answers.next ?_
  refine Keeps.app (blockCommand_keeps ?_ rfl) ?_
  · intro s
    refine Keeps.step regWrite_keeps rfl ?_
    exact Keeps.refl
  · refine Keeps.step begin'_keeps rfl ?_
    exact Keeps.refl

end Sys2Proof.Machine
end

