-- ==== Sys2Proof/Laws/InvRegs.lean ====
section
/-! SUPPORT. The functions of Machine/Regs.lean keep the invariant `Inv`. -/

namespace Sys2Proof.Machine

theorem unmapped_inv {b0 b1 s} (hs : Inv s) : Inv (unmapped b0 b1 s) := by
  unfold unmapped
  refine nvEvent_inv ?_
  refine Inv.keep setRf_keeps rfl ?_
  exact hs

theorem regRead_inv {b0 s} (hs : Inv s) : Inv (regRead b0 s).1 := by
  unfold regRead
  refine Inv.ite1 ?_ ?_
  · extract_lets -merge -useContext +onlyGivenNames x0
    try clear_value x0
    extract_lets -merge -useContext +onlyGivenNames x1
    try clear_value x1
    refine Inv.mkFst ?_
    refine Inv.ite ?_ ?_
    · refine Inv.keep snapshot_keeps rfl ?_
      exact hs
    · refine Inv.ite ?_ ?_
      · refine rtcCapture_inv ?_
        exact hs
      · exact hs
  · refine Inv.mkFst ?_
    refine unmapped_inv ?_
    exact hs

theorem badCommand_inv {b0 b1 s} (hs : Inv s) : Inv (badCommand b0 b1 s) := by
  unfold badCommand
  refine nvEvent_inv ?_
  exact hs

theorem storeRw_inv {b0 b1 s} (hs : Inv s) : Inv (storeRw b0 b1 s) := by
  unfold storeRw
  extract_lets -merge -useContext +onlyGivenNames x0
  have h1 : ∀ s, Inv (s) → Inv (x0 s) := by
    intro s hs
    unfold x0
    refine Inv.keep setRv_keeps rfl ?_
    exact hs
  try clear_value x0
  refine Inv.ite ?_ ?_
  · refine Inv.ite ?_ ?_
    · refine Inv.keep (wr_prg (m := 67108351) rfl) rfl ?_
      exact hs
    · exact hs
  · split
    · refine h1 _ ?_
      exact hs
    · refine Inv.keep mirrorOperand_keeps rfl ?_
      refine h1 _ ?_
      exact hs
    · refine Inv.keep mirrorOperand_keeps rfl ?_
      refine h1 _ ?_
      exact hs
    · refine vbusCtlWrite_inv ?_
      exact hs
    · refine Inv.ite ?_ ?_
      · refine h1 _ ?_
        exact hs
      · refine badCommand_inv ?_
        exact hs
    · refine Inv.ite ?_ ?_
      · refine h1 _ ?_
        exact hs
      · refine badCommand_inv ?_
        exact hs
    · refine incrWrite_inv ?_
      exact hs
    · extract_lets -merge -useContext +onlyGivenNames x10
      have h11 : Inv x10 := by
        unfold x10
        refine h1 _ ?_
        exact hs
      try clear_value x10
      refine Inv.keep setRv_keeps rfl ?_
      exact h11
    · refine Inv.ite ?_ ?_
      · refine h1 _ ?_
        exact hs
      · refine Inv.keep pinsOff_keeps rfl ?_
        refine h1 _ ?_
        exact hs
    · refine Inv.keep mirrorOperand_keeps rfl ?_
      refine h1 _ ?_
      exact hs
    · refine Inv.keep mirrorOperand_keeps rfl ?_
      refine h1 _ ?_
      exact hs
    · refine Inv.keep linksOff_keeps rfl ?_
      refine h1 _ ?_
      exact hs
    · refine h1 _ ?_
      exact hs

theorem regCommand_inv {b0 b1 s} (hs : Inv s) : Inv (regCommand b0 b1 s) := by
  unfold regCommand
  split
  · extract_lets -merge -useContext +onlyGivenNames x1
    have h2 : Inv x1 := by
      unfold x1
      refine Inv.ite ?_ ?_
      · refine Inv.keep requestNormal_keeps rfl ?_
        exact hs
      · exact hs
    try clear_value x1
    refine Inv.ite ?_ ?_
    · refine requestTest_inv ?_
      exact h2
    · exact h2
  · split
    · refine xchLoad_inv ?_
      refine Inv.keep xchMirror_keeps rfl ?_
      exact hs
    · extract_lets -merge -useContext +onlyGivenNames x6
      have h7 : Inv x6 := by
        unfold x6
        refine Inv.keep xchMirror_keeps rfl ?_
        exact hs
      try clear_value x6
      refine xchArm_inv ?_
      exact h7
    · refine xchDisarm_inv ?_
      refine Inv.keep xchMirror_keeps rfl ?_
      exact hs
    · refine badCommand_inv ?_
      exact hs
  · split
    · refine civStep_inv ?_
      exact hs
    · refine civAccept_inv ?_
      exact hs
    · refine Inv.keep civKick_keeps rfl ?_
      exact hs
    · refine civDiscard_inv ?_
      exact hs
    · refine badCommand_inv ?_
      exact hs
  · refine Inv.keep cvuFeed_keeps rfl ?_
    exact hs
  · split
    · refine chCreate_inv ?_
      exact hs
    · refine chDestroy_inv ?_
      exact hs
    · refine badCommand_inv ?_
      exact hs
  · refine Inv.keep (wr_tel (m := 67043327) rfl) rfl ?_
    exact hs
  · refine Inv.keep (wr_tel (m := 67043327) rfl) rfl ?_
    exact hs
  · refine Inv.keep (wr_tel (m := 67043327) rfl) rfl ?_
    exact hs
  · refine Inv.keep (wr_tel (m := 67043327) rfl) rfl ?_
    exact hs
  · split
    · refine keyCommit_inv ?_
      exact hs
    · refine Inv.keep keyLock_keeps rfl ?_
      exact hs
    · refine badCommand_inv ?_
      exact hs
  · refine Inv.keep unlatchWrite_keeps rfl ?_
    exact hs
  · split
    · refine Inv.keep (wr_snu (m := 66060287) rfl) rfl ?_
      exact hs
    · refine kdropDo_inv ?_
      exact hs
    · refine badCommand_inv ?_
      exact hs
  · split
    · refine evrFreeze_inv ?_
      exact hs
    · refine evrThaw_inv ?_
      exact hs
    · refine evrClear_inv ?_
      exact hs
    · refine evrRead_inv ?_
      exact hs
    · refine evrReadStop_inv ?_
      exact hs
    · refine badCommand_inv ?_
      exact hs
  · split
    · refine Inv.keep updPrepare_keeps rfl ?_
      refine Inv.keep updMirror_keeps rfl ?_
      exact hs
    · refine updArm_inv ?_
      refine Inv.keep updMirror_keeps rfl ?_
      exact hs
    · refine updCancel_inv ?_
      refine Inv.keep updMirror_keeps rfl ?_
      exact hs
    · refine updConfirm_inv ?_
      refine Inv.keep updMirror_keeps rfl ?_
      exact hs
    · refine Inv.keep abortOwn_keeps rfl ?_
      exact hs
    · refine badCommand_inv ?_
      exact hs
  · exact hs

theorem regWriteOpen_inv {b0 b1 b2 s} (hs : Inv s) : Inv (regWriteOpen b0 b1 b2 s) := by
  unfold regWriteOpen
  extract_lets -merge -useContext +onlyGivenNames x0
  try clear_value x0
  refine Inv.ite ?_ ?_
  · refine nvEvent_inv ?_
    exact hs
  · extract_lets -merge -useContext +onlyGivenNames x1
    have h2 : Inv x1 := by
      unfold x1
      refine Inv.ite ?_ ?_
      · exact hs
      · refine storeRw_inv ?_
        exact hs
    try clear_value x1
    refine Inv.ite ?_ ?_
    · refine Inv.keep stickyWrite_keeps rfl ?_
      refine regCommand_inv ?_
      exact h2
    · exact h2

theorem w1Write_inv {b0 b1 b2 s} (hs : Inv s) : Inv (w1Write b0 b1 b2 s) := by
  unfold w1Write
  refine Inv.ite ?_ ?_
  · refine lockViolation_inv ?_
    exact hs
  · refine Inv.ite ?_ ?_
    · refine Inv.keep setRv_keeps rfl ?_
      refine Inv.keep setRv_keeps rfl ?_
      exact hs
    · exact hs

theorem regWrite_inv {b0 b1 s} (hs : Inv s) : Inv (regWrite b0 b1 s) := by
  unfold regWrite
  refine Inv.ite ?_ ?_
  · extract_lets -merge -useContext +onlyGivenNames x0
    try clear_value x0
    refine Inv.ite ?_ ?_
    · refine sysTripWrite_inv ?_
      exact hs
    · refine Inv.ite ?_ ?_
      · refine lockViolation_inv ?_
        exact hs
      · refine Inv.ite ?_ ?_
        · refine w1Write_inv ?_
          exact hs
        · refine regWriteOpen_inv ?_
          exact hs
  · refine unmapped_inv ?_
    exact hs

theorem doRdreg_inv {b0 b1 s} (hs : Inv s) : InvE (doRdreg b0 b1 s) := by
  unfold doRdreg
  refine InvE.bind ?_ ?_
  · refine slotRead_inv ?_
    exact hs
  · intro s a0 hs
    refine InvE.ite ?_ ?_
    · split
      · rename_i y1 y2 q3
        have h4 : Inv y1 := by
          refine Inv.fst ?_ q3
          refine regRead_inv ?_
          refine Inv.keep seqVoted_keeps rfl ?_
          exact hs
        refine slotWrite_inv ?_
        exact h4
    · refine InvE.trap ?_
      exact hs

theorem execVRdreg_inv {b0 b1 s} (hs : Inv s) : InvA (execVRdreg b0 b1 s) := by
  unfold execVRdreg
  refine InvA.next ?_
  refine vExecBy_inv ?_ ?_
  · intro a0 a1 s hs
    refine doRdreg_inv ?_
    exact hs
  · exact hs

theorem doWrreg_inv {b0 b1 s} (hs : Inv s) : InvE (doWrreg b0 b1 s) := by
  unfold doWrreg
  refine InvE.bind ?_ ?_
  · refine slotRead_inv ?_
    exact hs
  · intro s a0 hs
    refine InvE.ite ?_ ?_
    · refine InvE.trap ?_
      exact hs
    · refine InvE.ite ?_ ?_
      · refine InvE.trap ?_
        exact hs
      · refine InvE.ite ?_ ?_
        · refine InvE.trap ?_
          exact hs
        · refine InvE.bind ?_ ?_
          · refine slotRead_inv ?_
            exact hs
          · intro s a1 hs
            refine InvE.ok ?_
            refine regWrite_inv ?_
            refine Inv.keep seqVoted_keeps rfl ?_
            exact hs

theorem execVWrreg_inv {b0 b1 s} (hs : Inv s) : InvA (execVWrreg b0 b1 s) := by
  unfold execVWrreg
  refine InvA.next ?_
  refine vExecBy_inv ?_ ?_
  · intro a0 a1 s hs
    refine doWrreg_inv ?_
    exact hs
  · exact hs

theorem execInjArm_inv {b0 b1 s} (hs : Inv s) : InvA (execInjArm b0 b1 s) := by
  unfold execInjArm
  refine InvA.next ?_
  refine blockCommand_inv ?_ ?_
  · intro s hs
    refine regWrite_inv ?_
    exact hs
  · refine begin'_inv ?_
    exact hs

end Sys2Proof.Machine
end

