-- ==== Sys2Proof/Laws/KeepsCommit.lean ====
section
/-! SUPPORT. Frames of the functions of Machine/Commit.lean: what each leaves alone, said once. The docstrings name the parts of `State` a function may write; the mask marks all others. -/

namespace Sys2Proof.Machine

/-- Writes at most: sent free cand pwr tri prg frc mem vm xch regs rings fio snu evr sta upd lnk. -/
theorem readWords_keeps {b0 b1 s b3} : Keeps 33915161 s (readWords b0 b1 s b3).1 := by
  induction b1 generalizing b0 s b3 with
  | nil =>
    rw [readWords.eq_1]
    refine Keeps.mkFst ?_
    exact Keeps.refl
  | cons z zs ih =>
    rw [readWords.eq_2]
    split
    · rename_i y0 y1 q2
      have h3 : Keeps 33915161 s y0 := by
        refine Keeps.fst ?_ q2
        refine Keeps.step laneReadOf_keeps rfl ?_
        exact Keeps.refl
      refine Keeps.app ih ?_
      exact h3

/-- Writes at most: sent free cand pwr tri prg frc mem vm xch regs rings fio snu evr sta upd lnk. -/
theorem commitRead_keeps {b0 b1 b2 s} : Keeps 33915161 s (commitRead b0 b1 b2 s) := by
  unfold commitRead
  extract_lets -merge -useContext +onlyGivenNames x0
  try clear_value x0
  refine Keeps.ite ?_ ?_
  · split
    · rename_i y1 y2 q3
      have h4 : Keeps 33915161 s y1 := by
        refine Keeps.fst ?_ q3
        refine Keeps.step readWords_keeps rfl ?_
        refine Keeps.step applyFinding_keeps rfl ?_
        exact Keeps.refl
      refine Keeps.ite ?_ ?_
      · exact h4
      · refine Keeps.step send_keeps rfl ?_
        exact h4
  · refine Keeps.step trapFault_keeps rfl ?_
    exact Keeps.refl

/-- Writes at most: sent cand pwr tri prg frc mem vm xch regs rings fio snu evr upd lnk. -/
theorem writeWords_keeps {b0 b1 b2 b3 s} : Keeps 38109469 s (writeWords b0 b1 b2 b3 s) := by
  induction b2 generalizing b0 b1 b3 s with
  | nil =>
    rw [writeWords.eq_1]
    exact Keeps.refl
  | cons z zs ih =>
    rw [writeWords.eq_2]
    refine Keeps.ite ?_ ?_
    · split
      · rename_i y0 y1 q2
        have h3 : Keeps 38109469 s y0 := by
          refine KeepsE.ofOk ?_ q2
          refine KeepsE.step memWrite_keeps rfl ?_
          exact Keeps.refl
        refine Keeps.app ih ?_
        refine Keeps.step cacheClean_keeps rfl ?_
        exact h3
      · rename_i y4 y5 q6
        have h7 : Keeps 38109469 s y5 := by
          refine KeepsE.ofTrap ?_ q6
          refine KeepsE.step memWrite_keeps rfl ?_
          exact Keeps.refl
        refine Keeps.step trapFault_keeps rfl ?_
        exact h7
    · refine Keeps.app ih ?_
      exact Keeps.refl

/-- Writes at most: sent mem vm xch regs lnk. -/
theorem writeImageWords_keeps {b0 b1 b2 s} : Keeps 50300925 s (writeImageWords b0 b1 b2 s) := by
  induction b1 generalizing b0 b2 s with
  | nil =>
    rw [writeImageWords.eq_1]
    exact Keeps.refl
  | cons z zs ih =>
    rw [writeImageWords.eq_2]
    refine Keeps.app ih ?_
    refine Keeps.ite ?_ ?_
    · refine Keeps.step laneStore_keeps rfl ?_
      exact Keeps.refl
    · exact Keeps.refl

/-- Writes at most: tri. -/
theorem takeBeat_keeps {b0 s} : Keeps 67108735 s (takeBeat b0 s) := by
  unfold takeBeat
  refine Keeps.app (wr_tri rfl) ?_
  exact Keeps.refl

/-- Writes at most: sent free civ cand pwr tri prg frc mem vm xch regs bus tel rings lat fio snu evr sta upd lnk. -/
theorem commitTx_keeps {b0 b1 b2 s} : Keeps 33554697 s (commitTx b0 b1 b2 s) := by
  unfold commitTx
  extract_lets -merge -useContext +onlyGivenNames x0
  try clear_value x0
  split
  · refine Keeps.step commitRead_keeps rfl ?_
    exact Keeps.refl
  · refine Keeps.step writeWords_keeps rfl ?_
    exact Keeps.refl
  · refine Keeps.ite ?_ ?_
    · split
      · rename_i y4 y5 q6
        have h7 : Keeps 33554697 s y4 := by
          refine Keeps.fst ?_ q6
          refine Keeps.step regRead_keeps rfl ?_
          exact Keeps.refl
        refine Keeps.step send_keeps rfl ?_
        exact h7
    · refine Keeps.step trapFault_keeps rfl ?_
      exact Keeps.refl
  · refine Keeps.ite ?_ ?_
    · refine Keeps.step trapFault_keeps rfl ?_
      exact Keeps.refl
    · refine Keeps.ite ?_ ?_
      · refine Keeps.step regWrite_keeps rfl ?_
        exact Keeps.refl
      · refine Keeps.step trapFault_keeps rfl ?_
        exact Keeps.refl
  · refine Keeps.ite ?_ ?_
    · refine Keeps.ite ?_ ?_
      · refine Keeps.step postTo_keeps rfl ?_
        exact Keeps.refl
      · refine Keeps.step writeVerify_keeps rfl ?_
        exact Keeps.refl
    · refine Keeps.step trapFault_keeps rfl ?_
      exact Keeps.refl
  · refine Keeps.ite ?_ ?_
    · extract_lets -merge -useContext +onlyGivenNames x11
      have h12 : Keeps 33554697 s x11 := by
        unfold x11
        refine Keeps.step ringFinding_keeps rfl ?_
        exact Keeps.refl
      try clear_value x11
      refine Keeps.ite ?_ ?_
      · exact h12
      · split
        · rename_i y13 y14 q15
          have h16 : Keeps 33554697 s y14 := by
            refine KeepsS.elim ?_ q15
            refine KeepsS.ite ?_ ?_
            · refine KeepsS.step ringTake_keeps rfl ?_
              exact h12
            · exact trivial
          refine Keeps.step send_keeps rfl ?_
          exact h16
        · refine Keeps.step send_keeps rfl ?_
          exact h12
    · refine Keeps.step trapFault_keeps rfl ?_
      exact Keeps.refl
  · refine Keeps.step postTo_keeps rfl ?_
    exact Keeps.refl
  · refine Keeps.step writeImageWords_keeps rfl ?_
    exact Keeps.refl
  · refine Keeps.ite ?_ ?_
    · refine Keeps.step feedAll_keeps rfl ?_
      exact Keeps.refl
    · exact Keeps.refl
  · refine Keeps.step takeBeat_keeps rfl ?_
    exact Keeps.refl

/-- Writes at most: sent free civ cand pwr tri prg frc mem vm xch regs bus tel rings lat fio snu evr sta upd lnk. -/
theorem votedTx_keeps {b0 s} : Keeps 33554697 s (votedTx b0 s) := by
  unfold votedTx
  split
  · rename_i y0 y1 q2
    have h3 : Keeps 33554697 s y0 := by
      refine Keeps.fst ?_ q2
      refine Keeps.step vote_keeps rfl ?_
      exact Keeps.refl
    refine Keeps.step commitTx_keeps rfl ?_
    refine Keeps.step seqNext_keeps rfl ?_
    exact h3
  · rename_i y4 q5
    have h6 : Keeps 33554697 s y4 := by
      refine Keeps.fst ?_ q5
      refine Keeps.step vote_keeps rfl ?_
      exact Keeps.refl
    exact h6

/-- Writes at most: sent free civ cand pwr tri prg frc mem vm xch regs bus tel rings lat fio snu evr sta upd lnk. -/
theorem splitTx_keeps {b0 s} : Keeps 33554697 s (splitTx b0 s) := by
  unfold splitTx
  extract_lets -merge -useContext +onlyGivenNames x0
  have h1 : Keeps 33554697 s x0 := by
    unfold x0
    split
    · refine Keeps.ite ?_ ?_
      · exact Keeps.refl
      · refine Keeps.step commitTx_keeps rfl ?_
        exact Keeps.refl
    · exact Keeps.refl
  try clear_value x0
  split
  · refine Keeps.ite ?_ ?_
    · exact h1
    · refine Keeps.step commitTx_keeps rfl ?_
      exact h1
  · exact h1

/-- Writes at most: sent free clk civ cand pwr tri prg frc mem vm xch regs bus tel rings lat fio snu evr sta upd lnk. -/
theorem execVotedTransaction_keeps {b0 b1 s} : Answers 33554689 s (execVotedTransaction b0 b1 s) := by
  unfold execVotedTransaction
  extract_lets -merge -useContext +onlyGivenNames x0
  have h1 : Keeps 33554689 s x0 := by
    unfold x0
    refine Keeps.step begin'_keeps rfl ?_
    exact Keeps.refl
  try clear_value x0
  refine Answers.next ?_
  refine Keeps.ite ?_ ?_
  · refine Keeps.ite ?_ ?_
    · refine Keeps.step splitTx_keeps rfl ?_
      exact h1
    · refine Keeps.step votedTx_keeps rfl ?_
      exact h1
  · exact h1

/-- Writes at most: sent cand pwr tri prg frc vm xch regs rings fio snu evr sta upd lnk. -/
theorem beatTx_keeps {b0 s} : Keeps 33917213 s (beatTx b0 s) := by
  unfold beatTx
  split
  · rename_i y0 y1 q2
    have h3 : Keeps 33917213 s y0 := by
      refine Keeps.fst ?_ q2
      refine Keeps.step vote_keeps rfl ?_
      exact Keeps.refl
    refine Keeps.step takeBeat_keeps rfl ?_
    refine Keeps.step seqNext_keeps rfl ?_
    exact h3
  · rename_i y4 q5
    have h6 : Keeps 33917213 s y4 := by
      refine Keeps.fst ?_ q5
      refine Keeps.step vote_keeps rfl ?_
      exact Keeps.refl
    exact h6

/-- Writes at most: sent clk civ cand pwr tri prg frc vm xch regs bus rings fio snu evr sta upd lnk. -/
theorem execSignatureBeat_keeps {b0 b1 s} : Answers 33884421 s (execSignatureBeat b0 b1 s) := by
  unfold execSignatureBeat
  extract_lets -merge -useContext +onlyGivenNames x0
  have h1 : Keeps 33884421 s x0 := by
    unfold x0
    refine Keeps.step begin'_keeps rfl ?_
    exact Keeps.refl
  try clear_value x0
  refine Answers.next ?_
  refine Keeps.ite ?_ ?_
  · refine Keeps.step beatTx_keeps rfl ?_
    exact h1
  · exact h1

/-- Writes at most: sent free clk civ cand pwr tri prg frc mem vm xch regs bus tel rings lat fio snu evr sta upd lnk. -/
theorem execLaneTimeout_keeps {b0 b1 s} : Answers 33554689 s (execLaneTimeout b0 b1 s) := by
  unfold execLaneTimeout
  extract_lets -merge -useContext +onlyGivenNames x0
  have h1 : Keeps 33554689 s x0 := by
    unfold x0
    refine Keeps.step begin'_keeps rfl ?_
    exact Keeps.refl
  try clear_value x0
  refine Answers.next ?_
  refine Keeps.ite ?_ ?_
  · refine Keeps.step votedTx_keeps rfl ?_
    exact h1
  · exact h1

/-- Writes at most: sent cand pwr tri prg frc vm xch regs rings fio snu evr sta upd lnk. -/
theorem monitorDecide_keeps {b0 b1 s} : Keeps 33917213 s (monitorDecide b0 b1 s) := by
  unfold monitorDecide
  extract_lets -merge -useContext +onlyGivenNames x0
  try clear_value x0
  extract_lets -merge -useContext +onlyGivenNames x1
  try clear_value x1
  refine Keeps.ite ?_ ?_
  · refine Keeps.step unitDisagrees_keeps rfl ?_
    exact Keeps.refl
  · split
    · exact Keeps.refl
    · refine Keeps.step tripLane_keeps rfl ?_
      refine Keeps.step stat_keeps rfl ?_
      exact Keeps.refl
    · refine Keeps.step vitalFault_keeps rfl ?_
      exact Keeps.refl

/-- Writes at most: sent clk civ cand pwr tri prg frc vm xch regs bus rings fio snu evr sta upd lnk. -/
theorem execLaneMonitorTrip_keeps {b0 b1 b2 s} : Answers 33884421 s (execLaneMonitorTrip b0 b1 b2 s) := by
  unfold execLaneMonitorTrip
  extract_lets -merge -useContext +onlyGivenNames x0
  have h1 : Keeps 33884421 s x0 := by
    unfold x0
    refine Keeps.step begin'_keeps rfl ?_
    exact Keeps.refl
  try clear_value x0
  refine Answers.next ?_
  refine Keeps.ite ?_ ?_
  · refine Keeps.step monitorDecide_keeps rfl ?_
    exact h1
  · exact h1

/-- Writes at most: nothing. -/
theorem releaseTables_keeps {m : Nat} {b0 s} (hf0 : ∀ c0 c1 t, Keeps m t (b0 c0 c1 t)) (_hm : m &&& 67108863 = m) : Keeps m s (releaseTables b0 s) := by
  unfold releaseTables
  extract_lets -merge -useContext +onlyGivenNames x0
  have h1 : Keeps m s x0 := by
    unfold x0
    refine Keeps.app (hf0 _ _ _) ?_
    exact Keeps.refl
  try clear_value x0
  split
  · refine Keeps.ite ?_ ?_
    · refine Keeps.app (hf0 _ _ _) ?_
      exact h1
    · exact h1
  · exact h1

/-- Writes at most: prg mem. -/
theorem freeLoop_keeps {s} : Keeps 67106303 s (freeLoop s) := by
  unfold freeLoop
  extract_lets -merge -useContext +onlyGivenNames x0
  have h1 : Keeps 67106303 s x0 := by
    unfold x0
    refine Keeps.ite ?_ ?_
    · exact Keeps.refl
    · refine Keeps.step releaseFree_keeps rfl ?_
      exact Keeps.refl
  try clear_value x0
  refine Keeps.ite ?_ ?_
  · refine Keeps.step releaseFree_keeps rfl ?_
    exact h1
  · exact h1

/-- Writes at most: prg mem xch. -/
theorem dueReleases_keeps {s} : Keeps 67098111 s (dueReleases s) := by
  unfold dueReleases
  extract_lets -merge -useContext +onlyGivenNames x0
  try clear_value x0
  split
  · refine Keeps.ite ?_ ?_
    · refine Keeps.app (releaseTables_keeps ?_ rfl) ?_
      · intro a2 a3 s
        refine Keeps.step skipCyclic_keeps rfl ?_
        exact Keeps.refl
      · exact Keeps.refl
    · refine Keeps.step followAbort_keeps rfl ?_
      refine Keeps.app (releaseTables_keeps ?_ rfl) ?_
      · intro a4 a5 s
        refine Keeps.step releaseCyclic_keeps rfl ?_
        exact Keeps.refl
      · exact Keeps.refl
  · refine Keeps.ite ?_ ?_
    · exact Keeps.refl
    · refine Keeps.step followAbort_keeps rfl ?_
      refine Keeps.step freeLoop_keeps rfl ?_
      exact Keeps.refl
  · exact Keeps.refl

/-- Writes at most: prg mem xch. -/
theorem relightEnd_keeps {s} : Keeps 67098111 s (relightEnd s) := by
  unfold relightEnd
  refine Keeps.ite ?_ ?_
  · refine Keeps.step dueReleases_keeps rfl ?_
    refine Keeps.app (wr_prg rfl) ?_
    exact Keeps.refl
  · exact Keeps.refl

/-- Writes at most: sent free civ cand pwr tri prg frc mem vm xch regs bus tel rings lat fio snu evr sta upd lnk. -/
theorem voteAgain_keeps {b0 b1 s} : Keeps 33554697 s (voteAgain b0 b1 s) := by
  induction b0 generalizing b1 s with
  | nil =>
    rw [voteAgain.eq_1]
    exact Keeps.refl
  | cons z zs ih =>
    rw [voteAgain.eq_2]
    refine Keeps.ite ?_ ?_
    · refine Keeps.step vitalFault_keeps rfl ?_
      exact Keeps.refl
    · extract_lets -merge -useContext +onlyGivenNames x0
      have h1 : Keeps 33554697 s x0 := by
        unfold x0
        refine Keeps.step votedTx_keeps rfl ?_
        exact Keeps.refl
      try clear_value x0
      refine Keeps.ite ?_ ?_
      · exact h1
      · refine Keeps.app ih ?_
        exact h1

/-- Writes at most: sent free civ cand pwr tri dbg prg frc mem vm xch regs bus tel rings lat fio snu evr sta upd lnk. -/
theorem voterRestored_keeps {b0 s} : Keeps 33554441 s (voterRestored b0 s) := by
  unfold voterRestored
  extract_lets -merge -useContext +onlyGivenNames x0
  have h1 : Keeps 33554441 s x0 := by
    unfold x0
    refine Keeps.step voterRestore_keeps rfl ?_
    exact Keeps.refl
  try clear_value x0
  extract_lets -merge -useContext +onlyGivenNames x2
  try clear_value x2
  extract_lets -merge -useContext +onlyGivenNames x3
  try clear_value x3
  extract_lets -merge -useContext +onlyGivenNames x4
  have h5 : Keeps 33554441 s x4 := by
    unfold x4
    refine Keeps.step injResult_keeps rfl ?_
    exact h1
  try clear_value x4
  refine Keeps.ite ?_ ?_
  · refine Keeps.step vitalFault_keeps rfl ?_
    exact h5
  · refine Keeps.ite ?_ ?_
    · exact h5
    · refine Keeps.step voteAgain_keeps rfl ?_
      refine Keeps.app (wr_tri rfl) ?_
      exact h5

/-- Writes at most: sent free cand pwr tri prg frc mem vm xch regs rings lat fio snu evr sta upd lnk. -/
theorem latticeRestored_keeps {s} : Keeps 33653017 s (latticeRestored s) := by
  unfold latticeRestored
  extract_lets -merge -useContext +onlyGivenNames x0
  try clear_value x0
  extract_lets -merge -useContext +onlyGivenNames x1
  try clear_value x1
  extract_lets -merge -useContext +onlyGivenNames x2
  have h3 : Keeps 33653017 s x2 := by
    unfold x2
    exact Keeps.app (show Keeps 33653017 s _ from ⟨fun _ => rfl, fun _ => rfl, fun _ => rfl, fun _ => rfl, fun _ => rfl, fun _ => rfl, fun _ => rfl, fun _ => rfl, fun _ => rfl, fun _ => rfl, fun _ => rfl, fun h => noBit h rfl, fun h => noBit h rfl, fun _ => rfl, fun _ => rfl, fun _ => rfl, fun _ => rfl, fun _ => rfl, fun _ => rfl, fun _ => rfl, fun _ => rfl, fun _ => rfl, fun _ => rfl, fun _ => rfl, fun _ => rfl, fun _ => rfl⟩) Keeps.refl
  try clear_value x2
  refine Keeps.ite ?_ ?_
  · refine Keeps.step timerStep_keeps rfl ?_
    refine Keeps.app (wr_lat rfl) ?_
    exact h3
  · exact h3

/-- Writes at most: regs fio. -/
theorem crossingsLost_keeps {b0 s} : Keeps 66568191 s (crossingsLost b0 s) := by
  induction b0 generalizing s with
  | nil =>
    rw [crossingsLost.eq_1]
    exact Keeps.refl
  | cons z zs ih =>
    rw [crossingsLost.eq_2]
    refine Keeps.app ih ?_
    refine Keeps.ite ?_ ?_
    · exact Keeps.refl
    · refine Keeps.step addRf_keeps rfl ?_
      refine Keeps.step modPin_keeps rfl ?_
      exact Keeps.refl

/-- Writes at most: prg xch regs rings fio evr. -/
theorem crossingsKept_keeps {b0 s} : Keeps 64331263 s (crossingsKept b0 s) := by
  induction b0 generalizing s with
  | nil =>
    rw [crossingsKept.eq_1]
    exact Keeps.refl
  | cons z zs ih =>
    rw [crossingsKept.eq_2]
    refine Keeps.app ih ?_
    refine Keeps.step inputRecord_keeps rfl ?_
    refine Keeps.step modPin_keeps rfl ?_
    exact Keeps.refl

/-- Writes at most: sent fio. -/
theorem swallowedTests_keeps {s} : Keeps 66584573 s (swallowedTests s) := by
  unfold swallowedTests
  refine Keeps.foldl ?_ _ ?_
  · intro s a0
    refine Keeps.ite ?_ ?_
    · refine Keeps.ite ?_ ?_
      · refine Keeps.step startTest_keeps rfl ?_
        exact Keeps.refl
      · refine Keeps.step modPin_keeps rfl ?_
        exact Keeps.refl
    · exact Keeps.refl
  · exact Keeps.refl

/-- Writes at most: sent prg xch regs rings fio evr. -/
theorem fieldRestored_keeps {b0 s} : Keeps 64331261 s (fieldRestored b0 s) := by
  unfold fieldRestored
  extract_lets -merge -useContext +onlyGivenNames x0
  have h1 : Keeps 64331261 s x0 := by
    unfold x0
    refine Keeps.step fieldRestore_keeps rfl ?_
    exact Keeps.refl
  try clear_value x0
  extract_lets -merge -useContext +onlyGivenNames x2
  try clear_value x2
  extract_lets -merge -useContext +onlyGivenNames x3
  have h4 : Keeps 64331261 s x3 := by
    unfold x3
    refine Keeps.app (wr_fio rfl) ?_
    exact h1
  try clear_value x3
  extract_lets -merge -useContext +onlyGivenNames x5
  have h6 : Keeps 64331261 s x5 := by
    unfold x5
    refine Keeps.step crossingsKept_keeps rfl ?_
    refine Keeps.step crossingsLost_keeps rfl ?_
    exact h4
  try clear_value x5
  extract_lets -merge -useContext +onlyGivenNames x7
  try clear_value x7
  extract_lets -merge -useContext +onlyGivenNames x8
  try clear_value x8
  extract_lets -merge -useContext +onlyGivenNames x9
  have h10 : Keeps 64331261 s x9 := by
    unfold x9
    refine Keeps.app (wr_fio rfl) ?_
    exact h6
  try clear_value x9
  extract_lets -merge -useContext +onlyGivenNames x11
  have h12 : Keeps 64331261 s x11 := by
    unfold x11
    refine Keeps.ite ?_ ?_
    · refine Keeps.step permitFollow_keeps rfl ?_
      exact h10
    · exact h10
  try clear_value x11
  refine Keeps.step swallowedTests_keeps rfl ?_
  exact h12

/-- Writes at most: tri. -/
theorem clearRestart_keeps {b0 s} : Keeps 67108735 s (clearRestart b0 s) := by
  unfold clearRestart
  split
  · refine Keeps.app (wr_tri rfl) ?_
    exact Keeps.refl
  · refine Keeps.app (wr_tri rfl) ?_
    exact Keeps.refl
  · refine Keeps.app (wr_tri rfl) ?_
    exact Keeps.refl

/-- Writes at most: sent regs fio evr. -/
theorem heldApply_keeps {s} : Keeps 64471037 s (heldApply s) := by
  unfold heldApply
  refine Keeps.ite ?_ ?_
  · refine Keeps.step sequencerApply_keeps rfl ?_
    refine Keeps.app (wr_fio rfl) ?_
    exact Keeps.refl
  · exact Keeps.refl

/-- Writes at most: sent tri prg mem xch regs fio evr. -/
theorem releaseLanes_keeps {s} : Keeps 64460157 s (releaseLanes s) := by
  unfold releaseLanes
  refine Keeps.ite ?_ ?_
  · exact Keeps.refl
  · extract_lets -merge -useContext +onlyGivenNames x0
    have h1 : Keeps 64460157 s x0 := by
      unfold x0
      refine Keeps.step heldApply_keeps rfl ?_
      exact Keeps.refl
    try clear_value x0
    extract_lets -merge -useContext +onlyGivenNames x2
    try clear_value x2
    extract_lets -merge -useContext +onlyGivenNames x3
    try clear_value x3
    extract_lets -merge -useContext +onlyGivenNames x4
    try clear_value x4
    extract_lets -merge -useContext +onlyGivenNames x5
    have h6 : Keeps 64460157 s x5 := by
      unfold x5
      exact Keeps.app (show Keeps 64460157 x0 _ from ⟨fun _ => rfl, fun _ => rfl, fun _ => rfl, fun _ => rfl, fun _ => rfl, fun _ => rfl, fun _ => rfl, fun h => noBit h rfl, fun _ => rfl, fun h => noBit h rfl, fun _ => rfl, fun _ => rfl, fun _ => rfl, fun _ => rfl, fun _ => rfl, fun _ => rfl, fun _ => rfl, fun _ => rfl, fun _ => rfl, fun _ => rfl, fun _ => rfl, fun _ => rfl, fun _ => rfl, fun _ => rfl, fun _ => rfl, fun _ => rfl⟩) h1
    try clear_value x5
    refine Keeps.ite ?_ ?_
    · exact h6
    · refine Keeps.step relightEnd_keeps rfl ?_
      exact h6

/-- Writes at most: sent free civ cand pwr tri dbg prg frc mem vm xch regs bus tel rings lat fio snu evr sta upd lnk. -/
theorem restartDone_keeps {b0 s} : Keeps 33554441 s (restartDone b0 s) := by
  unfold restartDone
  refine Keeps.ite ?_ ?_
  · exact Keeps.refl
  · refine Keeps.ite ?_ ?_
    · refine Keeps.step vitalFault_keeps rfl ?_
      exact Keeps.refl
    · refine Keeps.ite ?_ ?_
      · refine Keeps.step vitalFault_keeps rfl ?_
        exact Keeps.refl
      · extract_lets -merge -useContext +onlyGivenNames x0
        have h1 : Keeps 33554441 s x0 := by
          unfold x0
          refine Keeps.step clearRestart_keeps rfl ?_
          exact Keeps.refl
        try clear_value x0
        extract_lets -merge -useContext +onlyGivenNames x2
        have h3 : Keeps 33554441 s x2 := by
          unfold x2
          split
          · refine Keeps.step voterRestored_keeps rfl ?_
            exact h1
          · refine Keeps.step latticeRestored_keeps rfl ?_
            exact h1
          · refine Keeps.step fieldRestored_keeps rfl ?_
            exact h1
        try clear_value x2
        refine Keeps.step releaseLanes_keeps rfl ?_
        exact h3

/-- Writes at most: sent free clk civ cand pwr tri dbg prg frc mem vm xch regs bus tel rings lat fio snu evr sta upd lnk. -/
theorem execRestartComplete_keeps {b0 b1 s} : Answers 33554433 s (execRestartComplete b0 b1 s) := by
  unfold execRestartComplete
  extract_lets -merge -useContext +onlyGivenNames x0
  have h1 : Keeps 33554433 s x0 := by
    unfold x0
    refine Keeps.step begin'_keeps rfl ?_
    exact Keeps.refl
  try clear_value x0
  refine Answers.next ?_
  refine Keeps.ite ?_ ?_
  · refine Keeps.step restartDone_keeps rfl ?_
    exact h1
  · exact h1

/-- Writes at most: sent clk civ cand pwr tri prg frc vm xch regs bus rings fio snu evr upd lnk. -/
theorem execHoldWindowExpiry_keeps {b0 s} : Answers 38078725 s (execHoldWindowExpiry b0 s) := by
  unfold execHoldWindowExpiry
  extract_lets -merge -useContext +onlyGivenNames x0
  have h1 : Keeps 38078725 s x0 := by
    unfold x0
    refine Keeps.step begin'_keeps rfl ?_
    exact Keeps.refl
  try clear_value x0
  refine Answers.next ?_
  split
  · refine Keeps.ite ?_ ?_
    · extract_lets -merge -useContext +onlyGivenNames x3
      have h4 : Keeps 38078725 s x3 := by
        unfold x3
        refine Keeps.step vitalFault_keeps rfl ?_
        exact h1
      try clear_value x3
      refine Keeps.app (wr_tri rfl) ?_
      exact h4
    · exact h1
  · exact h1

end Sys2Proof.Machine
end

