-- ==== Sys2Proof/Laws/InvCommit.lean ====
section
/-! SUPPORT. The functions of Machine/Commit.lean keep the invariant `Inv`. -/

namespace Sys2Proof.Machine

theorem memInvert_wf {off : Nat} : ∀ {l m : List Host.Cell}, Memory.wf m = true → Memory.wf (memInvert off l m) = true
  | [], _, h => h
  | (_, _) :: _, _, h => by
    rw [memInvert]
    exact memInvert_wf (memSet_wf h)

theorem restoreN_wf {lo off : Nat} {m : List Host.Cell} (h : Memory.wf m = true) : Memory.wf (restoreN lo off m) = true := memInvert_wf (memErase_wf h)

theorem readWords_inv {b0 b1 s b3} (hs : Inv s) : Inv (readWords b0 b1 s b3).1 := by
  induction b1 generalizing b0 s b3 with
  | nil =>
    rw [readWords.eq_1]
    refine Inv.mkFst ?_
    exact hs
  | cons z zs ih =>
    rw [readWords.eq_2]
    split
    · rename_i y0 y1 q2
      have h3 : Inv y0 := by
        refine Inv.fst ?_ q2
        refine laneReadOf_inv ?_
        exact hs
      refine ih ?_
      exact h3

theorem commitRead_inv {b0 b1 b2 s} (hs : Inv s) : Inv (commitRead b0 b1 b2 s) := by
  unfold commitRead
  extract_lets -merge -useContext +onlyGivenNames x0
  try clear_value x0
  refine Inv.ite ?_ ?_
  · split
    · rename_i y1 y2 q3
      have h4 : Inv y1 := by
        refine Inv.fst ?_ q3
        refine readWords_inv ?_
        refine applyFinding_inv ?_
        exact hs
      refine Inv.ite ?_ ?_
      · exact h4
      · refine Inv.keep send_keeps rfl ?_
        exact h4
  · refine trapFault_inv ?_
    exact hs

theorem writeWords_inv {b0 b1 b2 b3 s} (hs : Inv s) : Inv (writeWords b0 b1 b2 b3 s) := by
  induction b2 generalizing b0 b1 b3 s with
  | nil =>
    rw [writeWords.eq_1]
    exact hs
  | cons z zs ih =>
    rw [writeWords.eq_2]
    refine Inv.ite ?_ ?_
    · split
      · rename_i y0 y1 q2
        have h3 : Inv y0 := by
          refine InvE.ofOk ?_ q2
          refine memWrite_inv ?_
          exact hs
        refine ih ?_
        refine Inv.keep cacheClean_keeps rfl ?_
        exact h3
      · rename_i y4 y5 q6
        have h7 : Inv y5 := by
          refine InvE.ofTrap ?_ q6
          refine memWrite_inv ?_
          exact hs
        refine trapFault_inv ?_
        exact h7
    · refine ih ?_
      exact hs

theorem writeImageWords_inv {b0 b1 b2 s} (hs : Inv s) : Inv (writeImageWords b0 b1 b2 s) := by
  induction b1 generalizing b0 b2 s with
  | nil =>
    rw [writeImageWords.eq_1]
    exact hs
  | cons z zs ih =>
    rw [writeImageWords.eq_2]
    refine ih ?_
    refine Inv.ite ?_ ?_
    · refine laneStore_inv ?_
      exact hs
    · exact hs

theorem commitTx_inv {b0 b1 b2 s} (hs : Inv s) : Inv (commitTx b0 b1 b2 s) := by
  unfold commitTx
  extract_lets -merge -useContext +onlyGivenNames x0
  try clear_value x0
  split
  · refine commitRead_inv ?_
    exact hs
  · refine writeWords_inv ?_
    exact hs
  · refine Inv.ite ?_ ?_
    · split
      · rename_i y4 y5 q6
        have h7 : Inv y4 := by
          refine Inv.fst ?_ q6
          refine regRead_inv ?_
          exact hs
        refine Inv.keep send_keeps rfl ?_
        exact h7
    · refine trapFault_inv ?_
      exact hs
  · refine Inv.ite ?_ ?_
    · refine trapFault_inv ?_
      exact hs
    · refine Inv.ite ?_ ?_
      · refine regWrite_inv ?_
        exact hs
      · refine trapFault_inv ?_
        exact hs
  · refine Inv.ite ?_ ?_
    · refine Inv.ite ?_ ?_
      · refine postTo_inv ?_
        exact hs
      · refine writeVerify_inv ?_
        exact hs
    · refine trapFault_inv ?_
      exact hs
  · refine Inv.ite ?_ ?_
    · extract_lets -merge -useContext +onlyGivenNames x11
      have h12 : Inv x11 := by
        unfold x11
        refine ringFinding_inv ?_
        exact hs
      try clear_value x11
      refine Inv.ite ?_ ?_
      · exact h12
      · split
        · rename_i y13 y14 q15
          have h16 : Inv y14 := by
            refine InvS.elim ?_ q15
            refine InvS.ite ?_ ?_
            · refine InvS.keep ringTake_keeps rfl ?_
              exact h12
            · exact trivial
          refine Inv.keep send_keeps rfl ?_
          exact h16
        · refine Inv.keep send_keeps rfl ?_
          exact h12
    · refine trapFault_inv ?_
      exact hs
  · refine postTo_inv ?_
    exact hs
  · refine writeImageWords_inv ?_
    exact hs
  · refine Inv.ite ?_ ?_
    · refine feedAll_inv ?_
      exact hs
    · exact hs
  · refine Inv.keep takeBeat_keeps rfl ?_
    exact hs

theorem votedTx_inv {b0 s} (hs : Inv s) : Inv (votedTx b0 s) := by
  unfold votedTx
  split
  · rename_i y0 y1 q2
    have h3 : Inv y0 := by
      refine Inv.fst ?_ q2
      refine vote_inv ?_
      exact hs
    refine commitTx_inv ?_
    refine Inv.keep seqNext_keeps rfl ?_
    exact h3
  · rename_i y4 q5
    have h6 : Inv y4 := by
      refine Inv.fst ?_ q5
      refine vote_inv ?_
      exact hs
    exact h6

theorem splitTx_inv {b0 s} (hs : Inv s) : Inv (splitTx b0 s) := by
  unfold splitTx
  extract_lets -merge -useContext +onlyGivenNames x0
  have h1 : Inv x0 := by
    unfold x0
    split
    · refine Inv.ite ?_ ?_
      · exact hs
      · refine commitTx_inv ?_
        exact hs
    · exact hs
  try clear_value x0
  split
  · refine Inv.ite ?_ ?_
    · exact h1
    · refine commitTx_inv ?_
      exact h1
  · exact h1

theorem execVotedTransaction_inv {b0 b1 s} (hs : Inv s) : InvA (execVotedTransaction b0 b1 s) := by
  unfold execVotedTransaction
  extract_lets -merge -useContext +onlyGivenNames x0
  have h1 : Inv x0 := by
    unfold x0
    refine begin'_inv ?_
    exact hs
  try clear_value x0
  refine InvA.next ?_
  refine Inv.ite ?_ ?_
  · refine Inv.ite ?_ ?_
    · refine splitTx_inv ?_
      exact h1
    · refine votedTx_inv ?_
      exact h1
  · exact h1

theorem beatTx_inv {b0 s} (hs : Inv s) : Inv (beatTx b0 s) := by
  unfold beatTx
  split
  · rename_i y0 y1 q2
    have h3 : Inv y0 := by
      refine Inv.fst ?_ q2
      refine vote_inv ?_
      exact hs
    refine Inv.keep takeBeat_keeps rfl ?_
    refine Inv.keep seqNext_keeps rfl ?_
    exact h3
  · rename_i y4 q5
    have h6 : Inv y4 := by
      refine Inv.fst ?_ q5
      refine vote_inv ?_
      exact hs
    exact h6

theorem execSignatureBeat_inv {b0 b1 s} (hs : Inv s) : InvA (execSignatureBeat b0 b1 s) := by
  unfold execSignatureBeat
  extract_lets -merge -useContext +onlyGivenNames x0
  have h1 : Inv x0 := by
    unfold x0
    refine begin'_inv ?_
    exact hs
  try clear_value x0
  refine InvA.next ?_
  refine Inv.ite ?_ ?_
  · refine beatTx_inv ?_
    exact h1
  · exact h1

theorem execLaneTimeout_inv {b0 b1 s} (hs : Inv s) : InvA (execLaneTimeout b0 b1 s) := by
  unfold execLaneTimeout
  extract_lets -merge -useContext +onlyGivenNames x0
  have h1 : Inv x0 := by
    unfold x0
    refine begin'_inv ?_
    exact hs
  try clear_value x0
  refine InvA.next ?_
  refine Inv.ite ?_ ?_
  · refine votedTx_inv ?_
    exact h1
  · exact h1

theorem monitorDecide_inv {b0 b1 s} (hs : Inv s) : Inv (monitorDecide b0 b1 s) := by
  unfold monitorDecide
  extract_lets -merge -useContext +onlyGivenNames x0
  try clear_value x0
  extract_lets -merge -useContext +onlyGivenNames x1
  try clear_value x1
  refine Inv.ite ?_ ?_
  · refine unitDisagrees_inv ?_
    exact hs
  · split
    · exact hs
    · refine tripLane_inv ?_
      refine Inv.keep stat_keeps rfl ?_
      exact hs
    · refine vitalFault_inv ?_
      exact hs

theorem execLaneMonitorTrip_inv {b0 b1 b2 s} (hs : Inv s) : InvA (execLaneMonitorTrip b0 b1 b2 s) := by
  unfold execLaneMonitorTrip
  extract_lets -merge -useContext +onlyGivenNames x0
  have h1 : Inv x0 := by
    unfold x0
    refine begin'_inv ?_
    exact hs
  try clear_value x0
  refine InvA.next ?_
  refine Inv.ite ?_ ?_
  · refine monitorDecide_inv ?_
    exact h1
  · exact h1

theorem releaseTables_inv {b0 s} (hf0 : ∀ c0 c1 t, Inv t → Inv (b0 c0 c1 t)) (hs : Inv s) : Inv (releaseTables b0 s) := by
  unfold releaseTables
  extract_lets -merge -useContext +onlyGivenNames x0
  have h1 : Inv x0 := by
    unfold x0
    refine hf0 _ _ _ ?_
    exact hs
  try clear_value x0
  split
  · refine Inv.ite ?_ ?_
    · refine hf0 _ _ _ ?_
      exact h1
    · exact h1
  · exact h1

theorem freeLoop_inv {s} (hs : Inv s) : Inv (freeLoop s) := by
  unfold freeLoop
  extract_lets -merge -useContext +onlyGivenNames x0
  have h1 : Inv x0 := by
    unfold x0
    refine Inv.ite ?_ ?_
    · exact hs
    · refine releaseFree_inv ?_
      exact hs
  try clear_value x0
  refine Inv.ite ?_ ?_
  · refine releaseFree_inv ?_
    exact h1
  · exact h1

theorem dueReleases_inv {s} (hs : Inv s) : Inv (dueReleases s) := by
  unfold dueReleases
  extract_lets -merge -useContext +onlyGivenNames x0
  try clear_value x0
  split
  · refine Inv.ite ?_ ?_
    · refine releaseTables_inv ?_ ?_
      · intro a2 a3 s hs
        refine Inv.keep skipCyclic_keeps rfl ?_
        exact hs
      · exact hs
    · refine Inv.keep followAbort_keeps rfl ?_
      refine releaseTables_inv ?_ ?_
      · intro a4 a5 s hs
        refine Inv.keep releaseCyclic_keeps rfl ?_
        exact hs
      · exact hs
  · refine Inv.ite ?_ ?_
    · exact hs
    · refine Inv.keep followAbort_keeps rfl ?_
      refine freeLoop_inv ?_
      exact hs
  · exact hs

theorem relightEnd_inv {s} (hs : Inv s) : Inv (relightEnd s) := by
  unfold relightEnd
  refine Inv.ite ?_ ?_
  · refine dueReleases_inv ?_
    refine Inv.keep (wr_prg (m := 67108351) rfl) rfl ?_
    exact hs
  · exact hs

theorem voteAgain_inv {b0 b1 s} (hs : Inv s) : Inv (voteAgain b0 b1 s) := by
  induction b0 generalizing b1 s with
  | nil =>
    rw [voteAgain.eq_1]
    exact hs
  | cons z zs ih =>
    rw [voteAgain.eq_2]
    refine Inv.ite ?_ ?_
    · refine vitalFault_inv ?_
      exact hs
    · extract_lets -merge -useContext +onlyGivenNames x0
      have h1 : Inv x0 := by
        unfold x0
        refine votedTx_inv ?_
        exact hs
      try clear_value x0
      refine Inv.ite ?_ ?_
      · exact h1
      · refine ih ?_
        exact h1

theorem voterRestored_inv {b0 s} (hs : Inv s) : Inv (voterRestored b0 s) := by
  unfold voterRestored
  extract_lets -merge -useContext +onlyGivenNames x0
  have h1 : Inv x0 := by
    unfold x0
    refine Inv.keep voterRestore_keeps rfl ?_
    exact hs
  try clear_value x0
  extract_lets -merge -useContext +onlyGivenNames x2
  try clear_value x2
  extract_lets -merge -useContext +onlyGivenNames x3
  try clear_value x3
  extract_lets -merge -useContext +onlyGivenNames x4
  have h5 : Inv x4 := by
    unfold x4
    refine Inv.keep injResult_keeps rfl ?_
    exact h1
  try clear_value x4
  refine Inv.ite ?_ ?_
  · refine vitalFault_inv ?_
    exact h5
  · refine Inv.ite ?_ ?_
    · exact h5
    · refine voteAgain_inv ?_
      refine Inv.keep (wr_tri (m := 67108735) rfl) rfl ?_
      exact h5

theorem latticeRestored_inv {s} (hs : Inv s) : Inv (latticeRestored s) := by
  unfold latticeRestored
  extract_lets p v t
  have hp : Memory.wf p = true := by
    unfold p
    split
    · exact restoreTables_wf hs.mem
    · exact hs.mem
  have ht : Inv t := ⟨restoreN_wf (restoreN_wf (restoreN_wf hp)), hs.cand, hs.evr, hs.frc, hs.lat⟩
  refine Inv.ite ?_ ht
  exact timerStep_inv (Inv.set_lat (fun h => h.lat) ht)

theorem crossingsKept_inv {b0 s} (hs : Inv s) : Inv (crossingsKept b0 s) := by
  induction b0 generalizing s with
  | nil =>
    rw [crossingsKept.eq_1]
    exact hs
  | cons z zs ih =>
    rw [crossingsKept.eq_2]
    refine ih ?_
    refine inputRecord_inv ?_
    refine Inv.keep modPin_keeps rfl ?_
    exact hs

theorem fieldRestored_inv {b0 s} (hs : Inv s) : Inv (fieldRestored b0 s) := by
  unfold fieldRestored
  extract_lets -merge -useContext +onlyGivenNames x0
  have h1 : Inv x0 := by
    unfold x0
    refine Inv.keep fieldRestore_keeps rfl ?_
    exact hs
  try clear_value x0
  extract_lets -merge -useContext +onlyGivenNames x2
  try clear_value x2
  extract_lets -merge -useContext +onlyGivenNames x3
  have h4 : Inv x3 := by
    unfold x3
    refine Inv.keep (wr_fio (m := 66584575) rfl) rfl ?_
    exact h1
  try clear_value x3
  extract_lets -merge -useContext +onlyGivenNames x5
  have h6 : Inv x5 := by
    unfold x5
    refine crossingsKept_inv ?_
    refine Inv.keep crossingsLost_keeps rfl ?_
    exact h4
  try clear_value x5
  extract_lets -merge -useContext +onlyGivenNames x7
  try clear_value x7
  extract_lets -merge -useContext +onlyGivenNames x8
  try clear_value x8
  extract_lets -merge -useContext +onlyGivenNames x9
  have h10 : Inv x9 := by
    unfold x9
    refine Inv.keep (wr_fio (m := 66584575) rfl) rfl ?_
    exact h6
  try clear_value x9
  extract_lets -merge -useContext +onlyGivenNames x11
  have h12 : Inv x11 := by
    unfold x11
    refine Inv.ite ?_ ?_
    · refine Inv.keep permitFollow_keeps rfl ?_
      exact h10
    · exact h10
  try clear_value x11
  refine Inv.keep swallowedTests_keeps rfl ?_
  exact h12

theorem heldApply_inv {s} (hs : Inv s) : Inv (heldApply s) := by
  unfold heldApply
  refine Inv.ite ?_ ?_
  · refine sequencerApply_inv ?_
    refine Inv.keep (wr_fio (m := 66584575) rfl) rfl ?_
    exact hs
  · exact hs

theorem releaseLanes_inv {s} (hs : Inv s) : Inv (releaseLanes s) := by
  unfold releaseLanes
  refine Inv.ite ?_ ?_
  · exact hs
  · extract_lets -merge -useContext +onlyGivenNames x0
    have h1 : Inv x0 := by
      unfold x0
      refine heldApply_inv ?_
      exact hs
    try clear_value x0
    extract_lets -merge -useContext +onlyGivenNames x2
    try clear_value x2
    extract_lets -merge -useContext +onlyGivenNames x3
    try clear_value x3
    extract_lets -merge -useContext +onlyGivenNames x4
    try clear_value x4
    extract_lets -merge -useContext +onlyGivenNames x5
    have h6 : Inv x5 := by
      unfold x5
      exact Inv.keep (show Keeps 67108223 x0 _ from ⟨fun _ => rfl, fun _ => rfl, fun _ => rfl, fun _ => rfl, fun _ => rfl, fun _ => rfl, fun _ => rfl, fun h => noBit h rfl, fun _ => rfl, fun h => noBit h rfl, fun _ => rfl, fun _ => rfl, fun _ => rfl, fun _ => rfl, fun _ => rfl, fun _ => rfl, fun _ => rfl, fun _ => rfl, fun _ => rfl, fun _ => rfl, fun _ => rfl, fun _ => rfl, fun _ => rfl, fun _ => rfl, fun _ => rfl, fun _ => rfl⟩) rfl h1
    try clear_value x5
    refine Inv.ite ?_ ?_
    · exact h6
    · refine relightEnd_inv ?_
      exact h6

theorem restartDone_inv {b0 s} (hs : Inv s) : Inv (restartDone b0 s) := by
  unfold restartDone
  refine Inv.ite ?_ ?_
  · exact hs
  · refine Inv.ite ?_ ?_
    · refine vitalFault_inv ?_
      exact hs
    · refine Inv.ite ?_ ?_
      · refine vitalFault_inv ?_
        exact hs
      · extract_lets -merge -useContext +onlyGivenNames x0
        have h1 : Inv x0 := by
          unfold x0
          refine Inv.keep clearRestart_keeps rfl ?_
          exact hs
        try clear_value x0
        extract_lets -merge -useContext +onlyGivenNames x2
        have h3 : Inv x2 := by
          unfold x2
          split
          · refine voterRestored_inv ?_
            exact h1
          · refine latticeRestored_inv ?_
            exact h1
          · refine fieldRestored_inv ?_
            exact h1
        try clear_value x2
        refine releaseLanes_inv ?_
        exact h3

theorem execRestartComplete_inv {b0 b1 s} (hs : Inv s) : InvA (execRestartComplete b0 b1 s) := by
  unfold execRestartComplete
  extract_lets -merge -useContext +onlyGivenNames x0
  have h1 : Inv x0 := by
    unfold x0
    refine begin'_inv ?_
    exact hs
  try clear_value x0
  refine InvA.next ?_
  refine Inv.ite ?_ ?_
  · refine restartDone_inv ?_
    exact h1
  · exact h1

theorem execHoldWindowExpiry_inv {b0 s} (hs : Inv s) : InvA (execHoldWindowExpiry b0 s) := by
  unfold execHoldWindowExpiry
  extract_lets -merge -useContext +onlyGivenNames x0
  have h1 : Inv x0 := by
    unfold x0
    refine begin'_inv ?_
    exact hs
  try clear_value x0
  refine InvA.next ?_
  split
  · refine Inv.ite ?_ ?_
    · extract_lets -merge -useContext +onlyGivenNames x3
      have h4 : Inv x3 := by
        unfold x3
        refine vitalFault_inv ?_
        exact h1
      try clear_value x3
      refine Inv.keep (wr_tri (m := 67108735) rfl) rfl ?_
      exact h4
    · exact h1
  · exact h1

end Sys2Proof.Machine
end

