-- ==== Sys2Proof/Laws/KeepsConvert.lean ====
section
/-! SUPPORT. Frames of the functions of Machine/Convert.lean: what each leaves alone, said once. The docstrings name the parts of `State` a function may write; the mask marks all others. -/

namespace Sys2Proof.Machine

/-- Writes at most: sent free civ cand pwr tri prg frc mem vm xch regs bus tel rings lat fio snu evr sta upd lnk. -/
theorem wordMeaning_keeps {b0 s} : KeepsE 33554697 s (wordMeaning b0 s) := by
  unfold wordMeaning
  extract_lets -merge -useContext +onlyGivenNames x0
  try clear_value x0
  extract_lets -merge -useContext +onlyGivenNames x1
  try clear_value x1
  extract_lets -merge -useContext +onlyGivenNames x2
  try clear_value x2
  extract_lets -merge -useContext +onlyGivenNames x3
  have h4 : Keeps 33554697 s x3 := by
    unfold x3
    refine Keeps.step advance_keeps rfl ?_
    exact Keeps.refl
  try clear_value x3
  refine KeepsE.ite ?_ ?_
  · refine KeepsE.trap ?_
    exact h4
  · refine KeepsE.ite ?_ ?_
    · refine KeepsE.step doRdreg_keeps rfl ?_
      exact h4
    · refine KeepsE.ite ?_ ?_
      · refine KeepsE.step doWrreg_keeps rfl ?_
        exact h4
      · refine KeepsE.step vOp_keeps rfl ?_
        exact h4

/-- Writes at most: sent free civ cand pwr tri prg frc mem vm xch regs bus tel rings lat fio snu evr sta upd lnk. -/
theorem convRun_keeps {b0 s} : Keeps 33554697 s (convRun b0 s).2 := by
  induction b0 generalizing s with
  | zero =>
    rw [convRun.eq_1]
    refine Keeps.mkSnd ?_
    exact Keeps.refl
  | succ z ih =>
    rw [convRun.eq_2]
    split
    · rename_i y0 y1 q2
      have h3 : Keeps 33554697 s y0 := by
        refine Keeps.fst ?_ q2
        refine Keeps.step laneRead_keeps rfl ?_
        exact Keeps.refl
      extract_lets -merge -useContext +onlyGivenNames x4
      try clear_value x4
      refine Keeps.ite2 ?_ ?_
      · refine Keeps.mkSnd ?_
        exact h3
      · refine Keeps.ite2 ?_ ?_
        · split
          · rename_i y5 y6 q7
            have h8 : Keeps 33554697 s y5 := by
              refine KeepsE.ofOk ?_ q7
              refine KeepsE.step opRead_keeps rfl ?_
              exact h3
            refine Keeps.mkSnd ?_
            exact h8
          · rename_i y9 y10 q11
            have h12 : Keeps 33554697 s y10 := by
              refine KeepsE.ofTrap ?_ q11
              refine KeepsE.step opRead_keeps rfl ?_
              exact h3
            refine Keeps.mkSnd ?_
            exact h12
        · split
          · rename_i y13 y14 q15
            have h16 : Keeps 33554697 s y13 := by
              refine KeepsE.ofOk ?_ q15
              refine KeepsE.step wordMeaning_keeps rfl ?_
              exact h3
            refine Keeps.ite2 ?_ ?_
            · refine Keeps.mkSnd ?_
              exact h16
            · refine Keeps.app ih ?_
              exact h16
          · rename_i y17 y18 q19
            have h20 : Keeps 33554697 s y18 := by
              refine KeepsE.ofTrap ?_ q19
              refine KeepsE.step wordMeaning_keeps rfl ?_
              exact h3
            refine Keeps.mkSnd ?_
            exact h20

/-- Writes at most: prg vm. -/
theorem convEnter_keeps {b0 s} : Keeps 67104255 s (convEnter b0 s) := by
  unfold convEnter
  exact Keeps.app (show Keeps 67104255 s _ from ⟨fun _ => rfl, fun _ => rfl, fun _ => rfl, fun _ => rfl, fun _ => rfl, fun _ => rfl, fun _ => rfl, fun _ => rfl, fun _ => rfl, fun h => noBit h rfl, fun _ => rfl, fun _ => rfl, fun h => noBit h rfl, fun _ => rfl, fun _ => rfl, fun _ => rfl, fun _ => rfl, fun _ => rfl, fun _ => rfl, fun _ => rfl, fun _ => rfl, fun _ => rfl, fun _ => rfl, fun _ => rfl, fun _ => rfl, fun _ => rfl⟩) Keeps.refl

/-- Writes at most: prg vm. -/
theorem convLeave_keeps {b0 s} : Keeps 67104255 s (convLeave b0 s) := by
  unfold convLeave
  exact Keeps.app (show Keeps 67104255 s _ from ⟨fun _ => rfl, fun _ => rfl, fun _ => rfl, fun _ => rfl, fun _ => rfl, fun _ => rfl, fun _ => rfl, fun _ => rfl, fun _ => rfl, fun h => noBit h rfl, fun _ => rfl, fun _ => rfl, fun h => noBit h rfl, fun _ => rfl, fun _ => rfl, fun _ => rfl, fun _ => rfl, fun _ => rfl, fun _ => rfl, fun _ => rfl, fun _ => rfl, fun _ => rfl, fun _ => rfl, fun _ => rfl, fun _ => rfl, fun _ => rfl⟩) Keeps.refl

/-- Writes at most: sent free civ cand pwr tri prg frc mem vm xch regs bus tel rings lat fio snu evr sta upd lnk. -/
theorem convertOne_keeps {b0 b1 s} : Keeps 33554697 s (convertOne b0 b1 s).2 := by
  unfold convertOne
  extract_lets -merge -useContext +onlyGivenNames x0
  have h1 : Keeps 33554697 s x0 := by
    unfold x0
    split
    · refine Keeps.step putMapped_keeps rfl ?_
      exact Keeps.refl
    · exact Keeps.refl
  try clear_value x0
  extract_lets -merge -useContext +onlyGivenNames x4
  have h5 : Keeps 33554697 s x4 := by
    unfold x4
    refine Keeps.foldl ?_ _ ?_
    · intro s a6
      refine Keeps.step freshStore_keeps rfl ?_
      exact Keeps.refl
    · exact h1
  try clear_value x4
  extract_lets -merge -useContext +onlyGivenNames x7
  have h8 : Keeps 33554697 s (x7).2 := by
    unfold x7
    refine Keeps.step convRun_keeps rfl ?_
    refine Keeps.step convEnter_keeps rfl ?_
    exact h5
  try clear_value x7
  refine Keeps.mkSnd ?_
  refine Keeps.step convLeave_keeps rfl ?_
  exact h8

/-- Writes at most: sent free civ cand pwr tri prg frc mem vm xch regs bus tel rings lat fio snu evr sta upd lnk. -/
theorem convertList_keeps {b0 b1 s} : Keeps 33554697 s (convertList b0 b1 s).2 := by
  induction b1 generalizing b0 s with
  | nil =>
    rw [convertList.eq_1]
    refine Keeps.mkSnd ?_
    exact Keeps.refl
  | cons z zs ih =>
    rw [convertList.eq_2]
    split
    · rename_i y0 q1
      have h2 : Keeps 33554697 s y0 := by
        refine Keeps.snd ?_ q1
        refine Keeps.step convertOne_keeps rfl ?_
        exact Keeps.refl
      refine Keeps.ite2 ?_ ?_
      · refine Keeps.mkSnd ?_
        exact h2
      · refine Keeps.app ih ?_
        exact h2
    · rename_i y3 y4 q5
      have h6 : Keeps 33554697 s y4 := by
        refine Keeps.snd ?_ q5
        refine Keeps.step convertOne_keeps rfl ?_
        exact Keeps.refl
      refine Keeps.mkSnd ?_
      exact h6
    · rename_i y7 q8
      have h9 : Keeps 33554697 s y7 := by
        refine Keeps.snd ?_ q8
        refine Keeps.step convertOne_keeps rfl ?_
        exact Keeps.refl
      refine Keeps.mkSnd ?_
      exact h9

/-- Writes at most: vm xch regs evr upd. -/
theorem convTrap_keeps {b0 b1 s} : Keeps 56594431 s (convTrap b0 b1 s) := by
  unfold convTrap
  refine Keeps.step xchStop_keeps rfl ?_
  refine Keeps.step trapRecord_keeps rfl ?_
  exact Keeps.refl

/-- Writes at most: sent mem vm lnk. -/
theorem writeFresh_keeps {b0 b1 s} : Keeps 50325501 s (writeFresh b0 b1 s) := by
  unfold writeFresh
  refine Keeps.foldl ?_ _ ?_
  · intro s a0
    split
    · refine Keeps.step putMapped_keeps rfl ?_
      exact Keeps.refl
    · refine Keeps.step putMapped_keeps rfl ?_
      exact Keeps.refl
    · exact Keeps.refl
  · exact Keeps.refl

/-- Writes at most: sent free civ cand pwr tri prg frc mem vm xch regs bus tel rings lat fio snu evr sta upd lnk. -/
theorem prepare_keeps {b0 s} : Keeps 33554697 s (prepare b0 s) := by
  unfold prepare
  extract_lets -merge -useContext +onlyGivenNames x0
  try clear_value x0
  extract_lets -merge -useContext +onlyGivenNames x1
  try clear_value x1
  extract_lets -merge -useContext +onlyGivenNames x2
  try clear_value x2
  refine Keeps.ite ?_ ?_
  · refine Keeps.step xchReject_keeps rfl ?_
    exact Keeps.refl
  · extract_lets -merge -useContext +onlyGivenNames x3
    try clear_value x3
    extract_lets -merge -useContext +onlyGivenNames x4
    try clear_value x4
    extract_lets -merge -useContext +onlyGivenNames x5
    have h6 : Keeps 33554697 s x5 := by
      unfold x5
      refine Keeps.step writeFresh_keeps rfl ?_
      exact Keeps.app (show Keeps 33554697 s _ from ⟨fun _ => rfl, fun _ => rfl, fun _ => rfl, fun _ => rfl, fun _ => rfl, fun _ => rfl, fun _ => rfl, fun _ => rfl, fun _ => rfl, fun _ => rfl, fun _ => rfl, fun _ => rfl, fun h => noBit h rfl, fun h => noBit h rfl, fun _ => rfl, fun _ => rfl, fun _ => rfl, fun _ => rfl, fun _ => rfl, fun _ => rfl, fun _ => rfl, fun _ => rfl, fun _ => rfl, fun _ => rfl, fun _ => rfl, fun _ => rfl⟩) Keeps.refl
    try clear_value x5
    split
    · rename_i y7 y8 y9 q10
      have h11 : Keeps 33554697 s y9 := by
        refine Keeps.snd ?_ q10
        refine Keeps.step convertList_keeps rfl ?_
        exact h6
      refine Keeps.step convTrap_keeps rfl ?_
      exact h11
    · rename_i y12 y13 q14
      have h15 : Keeps 33554697 s y13 := by
        refine Keeps.snd ?_ q14
        refine Keeps.step convertList_keeps rfl ?_
        exact h6
      exact Keeps.refl
    · rename_i y16 y17 q18
      have h19 : Keeps 33554697 s y17 := by
        refine Keeps.snd ?_ q18
        refine Keeps.step convertList_keeps rfl ?_
        exact h6
      refine Keeps.ite ?_ ?_
      · exact h19
      · extract_lets -merge -useContext +onlyGivenNames x20
        try clear_value x20
        extract_lets -merge -useContext +onlyGivenNames x21
        have h22 : Keeps 33554697 s x21 := by
          unfold x21
          refine Keeps.step setRv_keeps rfl ?_
          refine Keeps.step setRv_keeps rfl ?_
          refine Keeps.step setRv_keeps rfl ?_
          refine Keeps.step setRv_keeps rfl ?_
          refine Keeps.step setRv_keeps rfl ?_
          refine Keeps.app (wr_xch rfl) ?_
          exact h19
        try clear_value x21
        refine Keeps.step setRf_keeps rfl ?_
        refine Keeps.step setRv_keeps rfl ?_
        refine Keeps.step setRv_keeps rfl ?_
        exact h22

/-- Writes at most: sent free clk civ cand pwr tri prg frc mem vm xch regs bus tel rings lat fio snu evr sta upd lnk. -/
theorem execPreparationComplete_keeps {b0 s} : Answers 33554689 s (execPreparationComplete b0 s) := by
  unfold execPreparationComplete
  extract_lets -merge -useContext +onlyGivenNames x0
  have h1 : Keeps 33554689 s x0 := by
    unfold x0
    refine Keeps.step begin'_keeps rfl ?_
    exact Keeps.refl
  try clear_value x0
  refine Answers.next ?_
  refine Keeps.ite ?_ ?_
  · split
    · refine Keeps.step prepare_keeps rfl ?_
      exact h1
    · exact h1
  · exact h1

/-- Writes at most: mem. -/
theorem clearNew_keeps {b0 s} : Keeps 67106815 s (clearNew b0 s) := by
  unfold clearNew
  refine Keeps.foldl ?_ _ ?_
  · intro s a0
    split
    · extract_lets -merge -useContext +onlyGivenNames x2
      try clear_value x2
      refine Keeps.app (wr_mem rfl) ?_
      exact Keeps.refl
    · exact Keeps.refl
  · exact Keeps.refl

/-- Writes at most: mem. -/
theorem resetGlobals_keeps {b0 s} : Keeps 67106815 s (resetGlobals b0 s) := by
  unfold resetGlobals
  refine Keeps.foldl ?_ _ ?_
  · intro s a0
    refine Keeps.app (wr_mem rfl) ?_
    exact Keeps.refl
  · exact Keeps.refl

/-- Writes at most: regs evr. -/
theorem doneRecords_keeps {b0 b1 b2 s} : Keeps 64995327 s (doneRecords b0 b1 b2 s) := by
  unfold doneRecords
  extract_lets -merge -useContext +onlyGivenNames x0
  try clear_value x0
  extract_lets -merge -useContext +onlyGivenNames x1
  try clear_value x1
  extract_lets -merge -useContext +onlyGivenNames x2
  have h3 : Keeps 64995327 s x2 := by
    unfold x2
    refine Keeps.step emitAt_keeps rfl ?_
    exact Keeps.refl
  try clear_value x2
  refine Keeps.foldl ?_ _ ?_
  · intro s a4
    refine Keeps.step emitAt_keeps rfl ?_
    exact Keeps.refl
  · exact h3

/-- Writes at most: prg cfg. -/
theorem takeHot_keeps {s} : Keeps 33553919 s (takeHot s) := by
  unfold takeHot
  refine Keeps.ite ?_ ?_
  · extract_lets -merge -useContext +onlyGivenNames x0
    try clear_value x0
    exact Keeps.app (show Keeps 33553919 s _ from ⟨fun _ => rfl, fun _ => rfl, fun _ => rfl, fun _ => rfl, fun _ => rfl, fun _ => rfl, fun _ => rfl, fun _ => rfl, fun _ => rfl, fun h => noBit h rfl, fun _ => rfl, fun _ => rfl, fun _ => rfl, fun _ => rfl, fun _ => rfl, fun _ => rfl, fun _ => rfl, fun _ => rfl, fun _ => rfl, fun _ => rfl, fun _ => rfl, fun _ => rfl, fun _ => rfl, fun _ => rfl, fun _ => rfl, fun h => noBit h rfl⟩) Keeps.refl
  · exact Keeps.refl

/-- Writes at most: sent free cand pwr tri dbg prg frc mem vm xch regs rings lat fio snu evr sta upd lnk. -/
theorem unitsRestart_keeps {s} : Keeps 33652761 s (unitsRestart s) := by
  unfold unitsRestart
  extract_lets -merge -useContext +onlyGivenNames x0
  try clear_value x0
  extract_lets -merge -useContext +onlyGivenNames x1
  try clear_value x1
  extract_lets -merge -useContext +onlyGivenNames x2
  try clear_value x2
  extract_lets -merge -useContext +onlyGivenNames x3
  try clear_value x3
  extract_lets -merge -useContext +onlyGivenNames x4
  have h5 : Keeps 33652761 s x4 := by
    unfold x4
    refine Keeps.step addRf_keeps rfl ?_
    refine Keeps.step cnt_keeps rfl ?_
    refine Keeps.step cnt_keeps rfl ?_
    refine Keeps.app (wr_tri rfl) ?_
    exact Keeps.refl
  try clear_value x4
  refine Keeps.step fieldRestore_keeps rfl ?_
  refine Keeps.step latticeRestored_keeps rfl ?_
  refine Keeps.step voterRestore_keeps rfl ?_
  exact h5

/-- Writes at most: sent free cand pwr tri dbg prg frc mem vm xch regs rings lat fio snu evr sta upd lnk cfg. -/
theorem xchCommit_keeps {b0 s} : Keeps 98329 s (xchCommit b0 s) := by
  unfold xchCommit
  extract_lets -merge -useContext +onlyGivenNames x0
  have h1 : Keeps 98329 s x0 := by
    unfold x0
    refine Keeps.step resetGlobals_keeps rfl ?_
    refine Keeps.step clearNew_keeps rfl ?_
    exact Keeps.refl
  try clear_value x0
  extract_lets -merge -useContext +onlyGivenNames x2
  try clear_value x2
  extract_lets -merge -useContext +onlyGivenNames x3
  try clear_value x3
  extract_lets -merge -useContext +onlyGivenNames x4
  try clear_value x4
  extract_lets -merge -useContext +onlyGivenNames x5
  have h6 : Keeps 98329 s x5 := by
    unfold x5
    refine Keeps.step takeHot_keeps rfl ?_
    exact h1
  try clear_value x5
  extract_lets -merge -useContext +onlyGivenNames x7
  have h8 : Keeps 98329 s x7 := by
    unfold x7
    refine Keeps.ite ?_ ?_
    · refine Keeps.step unitsRestart_keeps rfl ?_
      exact h6
    · exact h6
  try clear_value x7
  extract_lets -merge -useContext +onlyGivenNames x9
  have h10 : Keeps 98329 s x9 := by
    unfold x9
    refine Keeps.ite ?_ ?_
    · refine Keeps.step rollbackSelect_keeps rfl ?_
      exact h8
    · refine Keeps.step trialSelect_keeps rfl ?_
      exact h8
  try clear_value x9
  exact Keeps.app (show Keeps 98329 x9 _ from ⟨fun _ => rfl, fun _ => rfl, fun _ => rfl, fun _ => rfl, fun _ => rfl, fun _ => rfl, fun _ => rfl, fun _ => rfl, fun _ => rfl, fun _ => rfl, fun _ => rfl, fun _ => rfl, fun h => noBit h rfl, fun h => noBit h rfl, fun _ => rfl, fun _ => rfl, fun _ => rfl, fun _ => rfl, fun _ => rfl, fun _ => rfl, fun _ => rfl, fun _ => rfl, fun _ => rfl, fun _ => rfl, fun _ => rfl, fun _ => rfl⟩) h10

/-- Writes at most: prg. -/
theorem restamp_keeps {b0 s} : Keeps 67108351 s (restamp b0 s) := by
  unfold restamp
  refine Keeps.app (wr_prg rfl) ?_
  exact Keeps.refl

/-- Writes at most: prg mem vm xch regs evr upd. -/
theorem xchResume_keeps {s} : Keeps 56591871 s (xchResume s) := by
  unfold xchResume
  extract_lets -merge -useContext +onlyGivenNames x0
  try clear_value x0
  extract_lets -merge -useContext +onlyGivenNames x1
  try clear_value x1
  extract_lets -merge -useContext +onlyGivenNames x2
  try clear_value x2
  extract_lets -merge -useContext +onlyGivenNames x3
  try clear_value x3
  extract_lets -merge -useContext +onlyGivenNames x4
  have h5 : Keeps 56591871 s x4 := by
    unfold x4
    refine Keeps.step doneRecords_keeps rfl ?_
    exact Keeps.refl
  try clear_value x4
  extract_lets -merge -useContext +onlyGivenNames x6
  have h7 : Keeps 56591871 s x6 := by
    unfold x6
    refine Keeps.step setRf_keeps rfl ?_
    refine Keeps.step setRf_keeps rfl ?_
    refine Keeps.step setRv_keeps rfl ?_
    exact h5
  try clear_value x6
  extract_lets -merge -useContext +onlyGivenNames x8
  try clear_value x8
  extract_lets -merge -useContext +onlyGivenNames x9
  have h10 : Keeps 56591871 s x9 := by
    unfold x9
    refine Keeps.step xchDiscard_keeps rfl ?_
    refine Keeps.app (wr_xch rfl) ?_
    exact h7
  try clear_value x9
  extract_lets -merge -useContext +onlyGivenNames x11
  have h12 : Keeps 56591871 s x11 := by
    unfold x11
    refine Keeps.foldl ?_ _ ?_
    · intro s a13
      refine Keeps.step resumeTrigger_keeps rfl ?_
      exact Keeps.refl
    · exact h10
  try clear_value x11
  refine Keeps.step restamp_keeps rfl ?_
  refine Keeps.ite ?_ ?_
  · refine Keeps.step releaseFree_keeps rfl ?_
    exact h12
  · exact h12

/-- Writes at most: prg mem vm xch regs evr upd. -/
theorem resumeIfDue_keeps {s} : Keeps 56591871 s (resumeIfDue s) := by
  unfold resumeIfDue
  refine Keeps.ite ?_ ?_
  · refine Keeps.step xchResume_keeps rfl ?_
    exact Keeps.refl
  · exact Keeps.refl

/-- Writes at most: sent free civ cand pwr tri dbg prg frc mem vm xch regs bus tel rings lat fio snu evr sta upd lnk cfg. -/
theorem exchangeCycle_keeps {b0 b1 s} : Keeps 9 s (exchangeCycle b0 b1 s) := by
  unfold exchangeCycle
  extract_lets -merge -useContext +onlyGivenNames x0
  try clear_value x0
  extract_lets -merge -useContext +onlyGivenNames x1
  have h2 : Keeps 9 s x1 := by
    unfold x1
    refine Keeps.step setRf_keeps rfl ?_
    refine Keeps.app (wr_xch rfl) ?_
    exact Keeps.refl
  try clear_value x1
  extract_lets -merge -useContext +onlyGivenNames x3
  try clear_value x3
  refine Keeps.ite ?_ ?_
  · refine Keeps.step xchStop_keeps rfl ?_
    exact h2
  · split
    · rename_i y4 y5 y6 q7
      have h8 : Keeps 9 s y6 := by
        refine Keeps.snd ?_ q7
        refine Keeps.step convertList_keeps rfl ?_
        exact h2
      refine Keeps.step convTrap_keeps rfl ?_
      exact h8
    · rename_i y9 y10 q11
      have h12 : Keeps 9 s y10 := by
        refine Keeps.snd ?_ q11
        refine Keeps.step convertList_keeps rfl ?_
        exact h2
      refine Keeps.step xchStop_keeps rfl ?_
      exact h12
    · rename_i y13 y14 q15
      have h16 : Keeps 9 s y14 := by
        refine Keeps.snd ?_ q15
        refine Keeps.step convertList_keeps rfl ?_
        exact h2
      refine Keeps.ite ?_ ?_
      · exact h16
      · refine Keeps.ite ?_ ?_
        · refine Keeps.step xchStop_keeps rfl ?_
          exact h16
        · split
          · refine Keeps.step xchStop_keeps rfl ?_
            exact h16
          · refine Keeps.ite ?_ ?_
            · refine Keeps.step vitalFault_keeps rfl ?_
              exact h16
            · split
              · rename_i y19 y20 q21
                have h22 : Keeps 9 s y20 := by
                  refine Keeps.snd ?_ q21
                  refine Keeps.step takeFree_keeps rfl ?_
                  exact h16
                extract_lets -merge -useContext +onlyGivenNames x23
                try clear_value x23
                extract_lets -merge -useContext +onlyGivenNames x24
                have h25 : Keeps 9 s x24 := by
                  unfold x24
                  refine Keeps.step setRf_keeps rfl ?_
                  refine Keeps.step xchCommit_keeps rfl ?_
                  exact h22
                try clear_value x24
                refine Keeps.step resumeIfDue_keeps rfl ?_
                refine Keeps.app (wr_xch rfl) ?_
                exact h25

/-- Writes at most: sent free clk civ cand pwr tri dbg prg frc mem vm xch regs bus tel rings lat fio snu evr sta upd lnk cfg. -/
theorem execQuietPoint_keeps {b0 b1 s} : Answers 1 s (execQuietPoint b0 b1 s) := by
  unfold execQuietPoint
  extract_lets -merge -useContext +onlyGivenNames x0
  have h1 : Keeps 1 s x0 := by
    unfold x0
    refine Keeps.step begin'_keeps rfl ?_
    exact Keeps.refl
  try clear_value x0
  refine Answers.next ?_
  refine Keeps.ite ?_ ?_
  · split
    · refine Keeps.step exchangeCycle_keeps rfl ?_
      exact h1
    · exact h1
  · exact h1

/-- Writes at most: sent free civ cand pwr tri prg frc mem vm xch regs bus tel rings lat fio snu evr sta upd lnk cfg. -/
theorem finishStages_keeps {s} : Keeps 265 s (finishStages s) := by
  unfold finishStages
  extract_lets -merge -useContext +onlyGivenNames x0
  try clear_value x0
  extract_lets -merge -useContext +onlyGivenNames x1
  have h2 : Keeps 265 s x1 := by
    unfold x1
    refine Keeps.ite ?_ ?_
    · refine Keeps.step setRv_keeps rfl ?_
      refine Keeps.step loadCode_keeps rfl ?_
      refine Keeps.app (wr_xch rfl) ?_
      exact Keeps.refl
    · exact Keeps.refl
  try clear_value x1
  extract_lets -merge -useContext +onlyGivenNames x3
  try clear_value x3
  extract_lets -merge -useContext +onlyGivenNames x4
  have h5 : Keeps 265 s x4 := by
    unfold x4
    refine Keeps.ite ?_ ?_
    · refine Keeps.ite ?_ ?_
      · refine Keeps.step startPreparing_keeps rfl ?_
        exact h2
      · refine Keeps.step xchReject_keeps rfl ?_
        exact h2
    · exact h2
  try clear_value x4
  refine Keeps.ite ?_ ?_
  · split
    · refine Keeps.step prepare_keeps rfl ?_
      exact h5
    · exact h5
  · exact h5

/-- Writes at most: sent free civ cand pwr tri prg frc mem vm xch regs bus tel rings lat fio snu evr sta upd lnk cfg. -/
theorem prepareDone_keeps {s} : Keeps 265 s (prepareDone s) := by
  unfold prepareDone
  refine Keeps.ite ?_ ?_
  · refine Keeps.app (wr_upd rfl) ?_
    exact Keeps.refl
  · extract_lets -merge -useContext +onlyGivenNames x0
    have h1 : Keeps 265 s x0 := by
      unfold x0
      refine Keeps.step finishStages_keeps rfl ?_
      exact Keeps.refl
    try clear_value x0
    refine Keeps.ite ?_ ?_
    · refine Keeps.app (wr_upd rfl) ?_
      exact h1
    · refine Keeps.step updRefuse_keeps rfl ?_
      refine Keeps.app (wr_upd rfl) ?_
      exact h1

/-- Writes at most: sent free clk civ cand pwr tri prg frc mem vm xch regs bus tel rings lat fio snu evr sta upd lnk cfg. -/
theorem execPrepareDone_keeps {b0 s} : Answers 257 s (execPrepareDone b0 s) := by
  unfold execPrepareDone
  extract_lets -merge -useContext +onlyGivenNames x0
  have h1 : Keeps 257 s x0 := by
    unfold x0
    refine Keeps.step begin'_keeps rfl ?_
    exact Keeps.refl
  try clear_value x0
  refine Answers.next ?_
  refine Keeps.ite ?_ ?_
  · refine Keeps.step prepareDone_keeps rfl ?_
    exact h1
  · exact h1

/-- Writes at most: sent free civ cand pwr tri dbg prg frc mem vm xch regs bus tel rings lat fio snu evr sta upd lnk cfg. -/
theorem activate_keeps {b0 s} : Keeps 9 s (activate b0 s) := by
  unfold activate
  refine Keeps.ite ?_ ?_
  · refine Keeps.step restartActivation_keeps rfl ?_
    exact Keeps.refl
  · extract_lets -merge -useContext +onlyGivenNames x0
    have h1 : Keeps 9 s x0 := by
      unfold x0
      refine Keeps.ite ?_ ?_
      · refine Keeps.step openWindow_keeps rfl ?_
        exact Keeps.refl
      · exact Keeps.refl
    try clear_value x0
    refine Keeps.ite ?_ ?_
    · split
      · refine Keeps.step exchangeCycle_keeps rfl ?_
        exact h1
      · exact h1
    · exact h1

/-- Writes at most: sent free clk civ cand pwr tri dbg prg frc mem vm xch regs bus tel rings lat fio snu evr sta upd lnk cfg. -/
theorem execActivation_keeps {b0 b1 s} : Answers 1 s (execActivation b0 b1 s) := by
  unfold execActivation
  extract_lets -merge -useContext +onlyGivenNames x0
  have h1 : Keeps 1 s x0 := by
    unfold x0
    refine Keeps.step begin'_keeps rfl ?_
    exact Keeps.refl
  try clear_value x0
  refine Answers.next ?_
  refine Keeps.ite ?_ ?_
  · refine Keeps.step activate_keeps rfl ?_
    exact h1
  · exact h1

/-- Writes at most: vm xch regs evr upd. -/
theorem armRollback_keeps {s} : Keeps 56594431 s (armRollback s) := by
  unfold armRollback
  extract_lets -merge -useContext +onlyGivenNames x0
  try clear_value x0
  refine Keeps.ite ?_ ?_
  · refine Keeps.step xchArm_keeps rfl ?_
    exact Keeps.refl
  · refine Keeps.step xchDiscard_keeps rfl ?_
    refine Keeps.step xchRefuse_keeps rfl ?_
    exact Keeps.refl

/-- Writes at most: sent free civ cand pwr tri prg frc mem vm xch regs bus tel rings lat fio snu evr sta upd lnk cfg. -/
theorem startRollback_keeps {s} : Keeps 265 s (startRollback s) := by
  unfold startRollback
  extract_lets -merge -useContext +onlyGivenNames x0
  have h1 : Keeps 265 s x0 := by
    unfold x0
    refine Keeps.ite ?_ ?_
    · exact Keeps.refl
    · refine Keeps.step xchDisarm_keeps rfl ?_
      exact Keeps.refl
  try clear_value x0
  extract_lets -merge -useContext +onlyGivenNames x2
  try clear_value x2
  extract_lets -merge -useContext +onlyGivenNames x3
  try clear_value x3
  extract_lets -merge -useContext +onlyGivenNames x4
  try clear_value x4
  extract_lets -merge -useContext +onlyGivenNames x5
  try clear_value x5
  extract_lets -merge -useContext +onlyGivenNames x6
  try clear_value x6
  extract_lets -merge -useContext +onlyGivenNames x7
  have h8 : Keeps 265 s x7 := by
    unfold x7
    refine Keeps.app (wr_upd rfl) ?_
    exact h1
  try clear_value x7
  extract_lets -merge -useContext +onlyGivenNames x9
  try clear_value x9
  extract_lets -merge -useContext +onlyGivenNames x10
  have h11 : Keeps 265 s x10 := by
    unfold x10
    refine Keeps.app (wr_xch rfl) ?_
    exact h8
  try clear_value x10
  extract_lets -merge -useContext +onlyGivenNames x12
  have h13 : Keeps 265 s x12 := by
    unfold x12
    refine Keeps.ite ?_ ?_
    · refine Keeps.step startPreparing_keeps rfl ?_
      refine Keeps.step setRv_keeps rfl ?_
      exact h11
    · exact h11
  try clear_value x12
  extract_lets -merge -useContext +onlyGivenNames x14
  have h15 : Keeps 265 s x14 := by
    unfold x14
    refine Keeps.step finishStages_keeps rfl ?_
    exact h13
  try clear_value x14
  refine Keeps.ite ?_ ?_
  · refine Keeps.step armRollback_keeps rfl ?_
    exact h15
  · refine Keeps.step trialFallback_keeps rfl ?_
    exact h15

/-- Writes at most: sent free civ cand pwr tri prg frc mem vm xch regs bus tel rings lat fio snu evr sta upd lnk cfg. -/
theorem confirmTimeout_keeps {s} : Keeps 265 s (confirmTimeout s) := by
  unfold confirmTimeout
  refine Keeps.ite ?_ ?_
  · refine Keeps.step startRollback_keeps rfl ?_
    exact Keeps.refl
  · refine Keeps.step trialFallback_keeps rfl ?_
    exact Keeps.refl

/-- Writes at most: sent free clk civ cand pwr tri prg frc mem vm xch regs bus tel rings lat fio snu evr sta upd lnk cfg. -/
theorem execConfirmTimeout_keeps {b0 s} : Answers 257 s (execConfirmTimeout b0 s) := by
  unfold execConfirmTimeout
  extract_lets -merge -useContext +onlyGivenNames x0
  have h1 : Keeps 257 s x0 := by
    unfold x0
    refine Keeps.step begin'_keeps rfl ?_
    exact Keeps.refl
  try clear_value x0
  refine Answers.next ?_
  refine Keeps.ite ?_ ?_
  · refine Keeps.step confirmTimeout_keeps rfl ?_
    exact h1
  · exact h1

/-- Writes at most: sent free civ cand pwr tri dbg prg frc mem vm xch regs bus tel rings lat fio snu evr sta upd lnk cfg. -/
theorem standbyCommit_keeps {b0 s} : Keeps 9 s (standbyCommit b0 s) := by
  unfold standbyCommit
  split
  · split
    · rename_i y1 y2 q3
      have h4 : Keeps 9 s y2 := by
        refine Keeps.snd ?_ q3
        refine Keeps.step convertList_keeps rfl ?_
        refine Keeps.app (wr_xch rfl) ?_
        exact Keeps.refl
      refine Keeps.ite ?_ ?_
      · exact h4
      · refine Keeps.step xchResume_keeps rfl ?_
        refine Keeps.step xchCommit_keeps rfl ?_
        exact h4
    · rename_i y5 y6 y7 q8
      have h9 : Keeps 9 s y7 := by
        refine Keeps.snd ?_ q8
        refine Keeps.step convertList_keeps rfl ?_
        refine Keeps.app (wr_xch rfl) ?_
        exact Keeps.refl
      refine Keeps.step toUnsynced_keeps rfl ?_
      refine Keeps.step xchAbort_keeps rfl ?_
      exact h9
    · rename_i y10 y11 q12
      have h13 : Keeps 9 s y11 := by
        refine Keeps.snd ?_ q12
        refine Keeps.step convertList_keeps rfl ?_
        refine Keeps.app (wr_xch rfl) ?_
        exact Keeps.refl
      refine Keeps.step toUnsynced_keeps rfl ?_
      refine Keeps.step xchAbort_keeps rfl ?_
      exact h13
  · refine Keeps.step toUnsynced_keeps rfl ?_
    exact Keeps.refl

/-- Writes at most: sent free clk civ cand pwr tri dbg prg frc mem vm xch regs bus tel rings lat fio snu evr sta upd lnk cfg. -/
theorem execCommitMark_keeps {b0 b1 s} : Answers 1 s (execCommitMark b0 b1 s) := by
  unfold execCommitMark
  refine Answers.next ?_
  refine Keeps.app (immediateMsg_keeps ?_ rfl) ?_
  · intro s
    refine Keeps.step standbyCommit_keeps rfl ?_
    exact Keeps.refl
  · refine Keeps.step begin'_keeps rfl ?_
    exact Keeps.refl

end Sys2Proof.Machine
end

