-- ==== Sys2Proof/Laws/InvConvert.lean ====
section
/-! SUPPORT. The functions of Machine/Convert.lean keep the invariant `Inv`. -/

namespace Sys2Proof.Machine

theorem wordMeaning_inv {b0 s} (hs : Inv s) : InvE (wordMeaning b0 s) := by
  unfold wordMeaning
  extract_lets -merge -useContext +onlyGivenNames x0
  try clear_value x0
  extract_lets -merge -useContext +onlyGivenNames x1
  try clear_value x1
  extract_lets -merge -useContext +onlyGivenNames x2
  try clear_value x2
  extract_lets -merge -useContext +onlyGivenNames x3
  have h4 : Inv x3 := by
    unfold x3
    refine Inv.keep advance_keeps rfl ?_
    exact hs
  try clear_value x3
  refine InvE.ite ?_ ?_
  · refine InvE.trap ?_
    exact h4
  · refine InvE.ite ?_ ?_
    · refine doRdreg_inv ?_
      exact h4
    · refine InvE.ite ?_ ?_
      · refine doWrreg_inv ?_
        exact h4
      · refine vOp_inv ?_
        exact h4

theorem convRun_inv {b0 s} (hs : Inv s) : Inv (convRun b0 s).2 := by
  induction b0 generalizing s with
  | zero =>
    rw [convRun.eq_1]
    refine Inv.mkSnd ?_
    exact hs
  | succ z ih =>
    rw [convRun.eq_2]
    split
    · rename_i y0 y1 q2
      have h3 : Inv y0 := by
        refine Inv.fst ?_ q2
        refine laneRead_inv ?_
        exact hs
      extract_lets -merge -useContext +onlyGivenNames x4
      try clear_value x4
      refine Inv.ite2 ?_ ?_
      · refine Inv.mkSnd ?_
        exact h3
      · refine Inv.ite2 ?_ ?_
        · split
          · rename_i y5 y6 q7
            have h8 : Inv y5 := by
              refine InvE.ofOk ?_ q7
              refine opRead_inv ?_
              exact h3
            refine Inv.mkSnd ?_
            exact h8
          · rename_i y9 y10 q11
            have h12 : Inv y10 := by
              refine InvE.ofTrap ?_ q11
              refine opRead_inv ?_
              exact h3
            refine Inv.mkSnd ?_
            exact h12
        · split
          · rename_i y13 y14 q15
            have h16 : Inv y13 := by
              refine InvE.ofOk ?_ q15
              refine wordMeaning_inv ?_
              exact h3
            refine Inv.ite2 ?_ ?_
            · refine Inv.mkSnd ?_
              exact h16
            · refine ih ?_
              exact h16
          · rename_i y17 y18 q19
            have h20 : Inv y18 := by
              refine InvE.ofTrap ?_ q19
              refine wordMeaning_inv ?_
              exact h3
            refine Inv.mkSnd ?_
            exact h20

theorem convertOne_inv {b0 b1 s} (hs : Inv s) : Inv (convertOne b0 b1 s).2 := by
  unfold convertOne
  extract_lets -merge -useContext +onlyGivenNames x0
  have h1 : Inv x0 := by
    unfold x0
    split
    · refine putMapped_inv ?_
      exact hs
    · exact hs
  try clear_value x0
  extract_lets -merge -useContext +onlyGivenNames x4
  have h5 : Inv x4 := by
    unfold x4
    refine Inv.foldl ?_ _ ?_
    · intro s a6 hs
      refine freshStore_inv ?_
      exact hs
    · exact h1
  try clear_value x4
  extract_lets -merge -useContext +onlyGivenNames x7
  have h8 : Inv (x7).2 := by
    unfold x7
    refine convRun_inv ?_
    refine Inv.keep convEnter_keeps rfl ?_
    exact h5
  try clear_value x7
  refine Inv.mkSnd ?_
  refine Inv.keep convLeave_keeps rfl ?_
  exact h8

theorem convertList_inv {b0 b1 s} (hs : Inv s) : Inv (convertList b0 b1 s).2 := by
  induction b1 generalizing b0 s with
  | nil =>
    rw [convertList.eq_1]
    refine Inv.mkSnd ?_
    exact hs
  | cons z zs ih =>
    rw [convertList.eq_2]
    split
    · rename_i y0 q1
      have h2 : Inv y0 := by
        refine Inv.snd ?_ q1
        refine convertOne_inv ?_
        exact hs
      refine Inv.ite2 ?_ ?_
      · refine Inv.mkSnd ?_
        exact h2
      · refine ih ?_
        exact h2
    · rename_i y3 y4 q5
      have h6 : Inv y4 := by
        refine Inv.snd ?_ q5
        refine convertOne_inv ?_
        exact hs
      refine Inv.mkSnd ?_
      exact h6
    · rename_i y7 q8
      have h9 : Inv y7 := by
        refine Inv.snd ?_ q8
        refine convertOne_inv ?_
        exact hs
      refine Inv.mkSnd ?_
      exact h9

theorem convTrap_inv {b0 b1 s} (hs : Inv s) : Inv (convTrap b0 b1 s) := by
  unfold convTrap
  refine xchStop_inv ?_
  refine trapRecord_inv ?_
  exact hs

theorem writeFresh_inv {b0 b1 s} (hs : Inv s) : Inv (writeFresh b0 b1 s) := by
  unfold writeFresh
  refine Inv.foldl ?_ _ ?_
  · intro s a0 hs
    split
    · refine putMapped_inv ?_
      exact hs
    · refine putMapped_inv ?_
      exact hs
    · exact hs
  · exact hs

theorem prepare_inv {b0 s} (hs : Inv s) : Inv (prepare b0 s) := by
  unfold prepare
  extract_lets -merge -useContext +onlyGivenNames x0
  try clear_value x0
  extract_lets -merge -useContext +onlyGivenNames x1
  try clear_value x1
  extract_lets -merge -useContext +onlyGivenNames x2
  try clear_value x2
  refine Inv.ite ?_ ?_
  · refine xchReject_inv ?_
    exact hs
  · extract_lets -merge -useContext +onlyGivenNames x3
    try clear_value x3
    extract_lets -merge -useContext +onlyGivenNames x4
    try clear_value x4
    extract_lets -merge -useContext +onlyGivenNames x5
    have h6 : Inv x5 := by
      unfold x5
      refine writeFresh_inv ?_
      exact Inv.keep (show Keeps 67096575 s _ from ⟨fun _ => rfl, fun _ => rfl, fun _ => rfl, fun _ => rfl, fun _ => rfl, fun _ => rfl, fun _ => rfl, fun _ => rfl, fun _ => rfl, fun _ => rfl, fun _ => rfl, fun _ => rfl, fun h => noBit h rfl, fun h => noBit h rfl, fun _ => rfl, fun _ => rfl, fun _ => rfl, fun _ => rfl, fun _ => rfl, fun _ => rfl, fun _ => rfl, fun _ => rfl, fun _ => rfl, fun _ => rfl, fun _ => rfl, fun _ => rfl⟩) rfl hs
    try clear_value x5
    split
    · rename_i y7 y8 y9 q10
      have h11 : Inv y9 := by
        refine Inv.snd ?_ q10
        refine convertList_inv ?_
        exact h6
      refine convTrap_inv ?_
      exact h11
    · rename_i y12 y13 q14
      have h15 : Inv y13 := by
        refine Inv.snd ?_ q14
        refine convertList_inv ?_
        exact h6
      exact hs
    · rename_i y16 y17 q18
      have h19 : Inv y17 := by
        refine Inv.snd ?_ q18
        refine convertList_inv ?_
        exact h6
      refine Inv.ite ?_ ?_
      · exact h19
      · extract_lets -merge -useContext +onlyGivenNames x20
        try clear_value x20
        extract_lets -merge -useContext +onlyGivenNames x21
        have h22 : Inv x21 := by
          unfold x21
          refine Inv.keep setRv_keeps rfl ?_
          refine Inv.keep setRv_keeps rfl ?_
          refine Inv.keep setRv_keeps rfl ?_
          refine Inv.keep setRv_keeps rfl ?_
          refine Inv.keep setRv_keeps rfl ?_
          refine Inv.keep (wr_xch (m := 67100671) rfl) rfl ?_
          exact h19
        try clear_value x21
        refine Inv.keep setRf_keeps rfl ?_
        refine Inv.keep setRv_keeps rfl ?_
        refine Inv.keep setRv_keeps rfl ?_
        exact h22

theorem execPreparationComplete_inv {b0 s} (hs : Inv s) : InvA (execPreparationComplete b0 s) := by
  unfold execPreparationComplete
  extract_lets -merge -useContext +onlyGivenNames x0
  have h1 : Inv x0 := by
    unfold x0
    refine begin'_inv ?_
    exact hs
  try clear_value x0
  refine InvA.next ?_
  refine Inv.ite ?_ ?_
  · split
    · refine prepare_inv ?_
      exact h1
    · exact h1
  · exact h1

theorem clearNew_inv {b0 s} (hs : Inv s) : Inv (clearNew b0 s) := by
  unfold clearNew
  refine Inv.foldl ?_ _ ?_
  · intro s a0 hs
    split
    · extract_lets -merge -useContext +onlyGivenNames x2
      try clear_value x2
      refine Inv.set_mem (fun h => ?_) ?_
      · exact storeBytes_wf h.mem
      · exact hs
    · exact hs
  · exact hs

theorem resetGlobals_inv {b0 s} (hs : Inv s) : Inv (resetGlobals b0 s) := by
  unfold resetGlobals
  refine Inv.foldl ?_ _ ?_
  · intro s a0 hs
    refine Inv.set_mem (fun h => ?_) ?_
    · exact storeBytes_wf h.mem
    · exact hs
  · exact hs

theorem doneRecords_inv {b0 b1 b2 s} (hs : Inv s) : Inv (doneRecords b0 b1 b2 s) := by
  unfold doneRecords
  extract_lets -merge -useContext +onlyGivenNames x0
  try clear_value x0
  extract_lets -merge -useContext +onlyGivenNames x1
  try clear_value x1
  extract_lets -merge -useContext +onlyGivenNames x2
  have h3 : Inv x2 := by
    unfold x2
    refine emitAt_inv ?_
    exact hs
  try clear_value x2
  refine Inv.foldl ?_ _ ?_
  · intro s a4 hs
    refine emitAt_inv ?_
    exact hs
  · exact h3

theorem unitsRestart_inv {s} (hs : Inv s) : Inv (unitsRestart s) := by
  unfold unitsRestart
  extract_lets -merge -useContext +onlyGivenNames x0
  try clear_value x0
  extract_lets -merge -useContext +onlyGivenNames x1
  try clear_value x1
  extract_lets -merge -useContext +onlyGivenNames x2
  try clear_value x2
  extract_lets -merge -useContext +onlyGivenNames x3
  try clear_value x3
  extract_lets -merge -useContext +onlyGivenNames x4
  have h5 : Inv x4 := by
    unfold x4
    refine Inv.keep addRf_keeps rfl ?_
    refine Inv.keep cnt_keeps rfl ?_
    refine Inv.keep cnt_keeps rfl ?_
    refine Inv.keep (wr_tri (m := 67108735) rfl) rfl ?_
    exact hs
  try clear_value x4
  refine Inv.keep fieldRestore_keeps rfl ?_
  refine latticeRestored_inv ?_
  refine Inv.keep voterRestore_keeps rfl ?_
  exact h5

theorem xchCommit_inv {b0 s} (hs : Inv s) : Inv (xchCommit b0 s) := by
  unfold xchCommit
  extract_lets -merge -useContext +onlyGivenNames x0
  have h1 : Inv x0 := by
    unfold x0
    refine resetGlobals_inv ?_
    refine clearNew_inv ?_
    exact hs
  try clear_value x0
  extract_lets -merge -useContext +onlyGivenNames x2
  try clear_value x2
  extract_lets -merge -useContext +onlyGivenNames x3
  try clear_value x3
  extract_lets -merge -useContext +onlyGivenNames x4
  try clear_value x4
  extract_lets -merge -useContext +onlyGivenNames x5
  have h6 : Inv x5 := by
    unfold x5
    refine Inv.keep takeHot_keeps rfl ?_
    exact h1
  try clear_value x5
  extract_lets -merge -useContext +onlyGivenNames x7
  have h8 : Inv x7 := by
    unfold x7
    refine Inv.ite ?_ ?_
    · refine unitsRestart_inv ?_
      exact h6
    · exact h6
  try clear_value x7
  extract_lets -merge -useContext +onlyGivenNames x9
  have h10 : Inv x9 := by
    unfold x9
    refine Inv.ite ?_ ?_
    · refine rollbackSelect_inv ?_
      exact h8
    · refine trialSelect_inv ?_
      exact h8
  try clear_value x9
  exact Inv.keep (show Keeps 67096575 x9 _ from ⟨fun _ => rfl, fun _ => rfl, fun _ => rfl, fun _ => rfl, fun _ => rfl, fun _ => rfl, fun _ => rfl, fun _ => rfl, fun _ => rfl, fun _ => rfl, fun _ => rfl, fun _ => rfl, fun h => noBit h rfl, fun h => noBit h rfl, fun _ => rfl, fun _ => rfl, fun _ => rfl, fun _ => rfl, fun _ => rfl, fun _ => rfl, fun _ => rfl, fun _ => rfl, fun _ => rfl, fun _ => rfl, fun _ => rfl, fun _ => rfl⟩) rfl h10

theorem xchResume_inv {s} (hs : Inv s) : Inv (xchResume s) := by
  unfold xchResume
  extract_lets -merge -useContext +onlyGivenNames x0
  try clear_value x0
  extract_lets -merge -useContext +onlyGivenNames x1
  try clear_value x1
  extract_lets -merge -useContext +onlyGivenNames x2
  try clear_value x2
  extract_lets -merge -useContext +onlyGivenNames x3
  try clear_value x3
  extract_lets -merge -useContext +onlyGivenNames x4
  have h5 : Inv x4 := by
    unfold x4
    refine doneRecords_inv ?_
    exact hs
  try clear_value x4
  extract_lets -merge -useContext +onlyGivenNames x6
  have h7 : Inv x6 := by
    unfold x6
    refine Inv.keep setRf_keeps rfl ?_
    refine Inv.keep setRf_keeps rfl ?_
    refine Inv.keep setRv_keeps rfl ?_
    exact h5
  try clear_value x6
  extract_lets -merge -useContext +onlyGivenNames x8
  try clear_value x8
  extract_lets -merge -useContext +onlyGivenNames x9
  have h10 : Inv x9 := by
    unfold x9
    refine Inv.keep xchDiscard_keeps rfl ?_
    refine Inv.keep (wr_xch (m := 67100671) rfl) rfl ?_
    exact h7
  try clear_value x9
  extract_lets -merge -useContext +onlyGivenNames x11
  have h12 : Inv x11 := by
    unfold x11
    refine Inv.foldl ?_ _ ?_
    · intro s a13 hs
      refine Inv.keep resumeTrigger_keeps rfl ?_
      exact hs
    · exact h10
  try clear_value x11
  refine Inv.keep restamp_keeps rfl ?_
  refine Inv.ite ?_ ?_
  · refine releaseFree_inv ?_
    exact h12
  · exact h12

theorem resumeIfDue_inv {s} (hs : Inv s) : Inv (resumeIfDue s) := by
  unfold resumeIfDue
  refine Inv.ite ?_ ?_
  · refine xchResume_inv ?_
    exact hs
  · exact hs

theorem exchangeCycle_inv {b0 b1 s} (hs : Inv s) : Inv (exchangeCycle b0 b1 s) := by
  unfold exchangeCycle
  extract_lets -merge -useContext +onlyGivenNames x0
  try clear_value x0
  extract_lets -merge -useContext +onlyGivenNames x1
  have h2 : Inv x1 := by
    unfold x1
    refine Inv.keep setRf_keeps rfl ?_
    refine Inv.keep (wr_xch (m := 67100671) rfl) rfl ?_
    exact hs
  try clear_value x1
  extract_lets -merge -useContext +onlyGivenNames x3
  try clear_value x3
  refine Inv.ite ?_ ?_
  · refine xchStop_inv ?_
    exact h2
  · split
    · rename_i y4 y5 y6 q7
      have h8 : Inv y6 := by
        refine Inv.snd ?_ q7
        refine convertList_inv ?_
        exact h2
      refine convTrap_inv ?_
      exact h8
    · rename_i y9 y10 q11
      have h12 : Inv y10 := by
        refine Inv.snd ?_ q11
        refine convertList_inv ?_
        exact h2
      refine xchStop_inv ?_
      exact h12
    · rename_i y13 y14 q15
      have h16 : Inv y14 := by
        refine Inv.snd ?_ q15
        refine convertList_inv ?_
        exact h2
      refine Inv.ite ?_ ?_
      · exact h16
      · refine Inv.ite ?_ ?_
        · refine xchStop_inv ?_
          exact h16
        · split
          · refine xchStop_inv ?_
            exact h16
          · refine Inv.ite ?_ ?_
            · refine vitalFault_inv ?_
              exact h16
            · split
              · rename_i y19 y20 q21
                have h22 : Inv y20 := by
                  refine Inv.snd ?_ q21
                  refine Inv.keep takeFree_keeps rfl ?_
                  exact h16
                extract_lets -merge -useContext +onlyGivenNames x23
                try clear_value x23
                extract_lets -merge -useContext +onlyGivenNames x24
                have h25 : Inv x24 := by
                  unfold x24
                  refine Inv.keep setRf_keeps rfl ?_
                  refine xchCommit_inv ?_
                  exact h22
                try clear_value x24
                refine resumeIfDue_inv ?_
                refine Inv.keep (wr_xch (m := 67100671) rfl) rfl ?_
                exact h25

theorem execQuietPoint_inv {b0 b1 s} (hs : Inv s) : InvA (execQuietPoint b0 b1 s) := by
  unfold execQuietPoint
  extract_lets -merge -useContext +onlyGivenNames x0
  have h1 : Inv x0 := by
    unfold x0
    refine begin'_inv ?_
    exact hs
  try clear_value x0
  refine InvA.next ?_
  refine Inv.ite ?_ ?_
  · split
    · refine exchangeCycle_inv ?_
      exact h1
    · exact h1
  · exact h1

theorem finishStages_inv {s} (hs : Inv s) : Inv (finishStages s) := by
  unfold finishStages
  extract_lets -merge -useContext +onlyGivenNames x0
  try clear_value x0
  extract_lets -merge -useContext +onlyGivenNames x1
  have h2 : Inv x1 := by
    unfold x1
    refine Inv.ite ?_ ?_
    · refine Inv.keep setRv_keeps rfl ?_
      refine loadCode_inv ?_
      refine Inv.keep (wr_xch (m := 67100671) rfl) rfl ?_
      exact hs
    · exact hs
  try clear_value x1
  extract_lets -merge -useContext +onlyGivenNames x3
  try clear_value x3
  extract_lets -merge -useContext +onlyGivenNames x4
  have h5 : Inv x4 := by
    unfold x4
    refine Inv.ite ?_ ?_
    · refine Inv.ite ?_ ?_
      · refine Inv.keep startPreparing_keeps rfl ?_
        exact h2
      · refine xchReject_inv ?_
        exact h2
    · exact h2
  try clear_value x4
  refine Inv.ite ?_ ?_
  · split
    · refine prepare_inv ?_
      exact h5
    · exact h5
  · exact h5

theorem prepareDone_inv {s} (hs : Inv s) : Inv (prepareDone s) := by
  unfold prepareDone
  refine Inv.ite ?_ ?_
  · refine Inv.keep (wr_upd (m := 58720255) rfl) rfl ?_
    exact hs
  · extract_lets -merge -useContext +onlyGivenNames x0
    have h1 : Inv x0 := by
      unfold x0
      refine finishStages_inv ?_
      exact hs
    try clear_value x0
    refine Inv.ite ?_ ?_
    · refine Inv.keep (wr_upd (m := 58720255) rfl) rfl ?_
      exact h1
    · refine Inv.keep updRefuse_keeps rfl ?_
      refine Inv.keep (wr_upd (m := 58720255) rfl) rfl ?_
      exact h1

theorem execPrepareDone_inv {b0 s} (hs : Inv s) : InvA (execPrepareDone b0 s) := by
  unfold execPrepareDone
  extract_lets -merge -useContext +onlyGivenNames x0
  have h1 : Inv x0 := by
    unfold x0
    refine begin'_inv ?_
    exact hs
  try clear_value x0
  refine InvA.next ?_
  refine Inv.ite ?_ ?_
  · refine prepareDone_inv ?_
    exact h1
  · exact h1

theorem activate_inv {b0 s} (hs : Inv s) : Inv (activate b0 s) := by
  unfold activate
  refine Inv.ite ?_ ?_
  · refine restartActivation_inv ?_
    exact hs
  · extract_lets -merge -useContext +onlyGivenNames x0
    have h1 : Inv x0 := by
      unfold x0
      refine Inv.ite ?_ ?_
      · refine Inv.keep openWindow_keeps rfl ?_
        exact hs
      · exact hs
    try clear_value x0
    refine Inv.ite ?_ ?_
    · split
      · refine exchangeCycle_inv ?_
        exact h1
      · exact h1
    · exact h1

theorem execActivation_inv {b0 b1 s} (hs : Inv s) : InvA (execActivation b0 b1 s) := by
  unfold execActivation
  extract_lets -merge -useContext +onlyGivenNames x0
  have h1 : Inv x0 := by
    unfold x0
    refine begin'_inv ?_
    exact hs
  try clear_value x0
  refine InvA.next ?_
  refine Inv.ite ?_ ?_
  · refine activate_inv ?_
    exact h1
  · exact h1

theorem armRollback_inv {s} (hs : Inv s) : Inv (armRollback s) := by
  unfold armRollback
  extract_lets -merge -useContext +onlyGivenNames x0
  try clear_value x0
  refine Inv.ite ?_ ?_
  · refine xchArm_inv ?_
    exact hs
  · refine Inv.keep xchDiscard_keeps rfl ?_
    refine xchRefuse_inv ?_
    exact hs

theorem startRollback_inv {s} (hs : Inv s) : Inv (startRollback s) := by
  unfold startRollback
  extract_lets -merge -useContext +onlyGivenNames x0
  have h1 : Inv x0 := by
    unfold x0
    refine Inv.ite ?_ ?_
    · exact hs
    · refine xchDisarm_inv ?_
      exact hs
  try clear_value x0
  extract_lets -merge -useContext +onlyGivenNames x2
  try clear_value x2
  extract_lets -merge -useContext +onlyGivenNames x3
  try clear_value x3
  extract_lets -merge -useContext +onlyGivenNames x4
  try clear_value x4
  extract_lets -merge -useContext +onlyGivenNames x5
  try clear_value x5
  extract_lets -merge -useContext +onlyGivenNames x6
  try clear_value x6
  extract_lets -merge -useContext +onlyGivenNames x7
  have h8 : Inv x7 := by
    unfold x7
    refine Inv.keep (wr_upd (m := 58720255) rfl) rfl ?_
    exact h1
  try clear_value x7
  extract_lets -merge -useContext +onlyGivenNames x9
  try clear_value x9
  extract_lets -merge -useContext +onlyGivenNames x10
  have h11 : Inv x10 := by
    unfold x10
    refine Inv.keep (wr_xch (m := 67100671) rfl) rfl ?_
    exact h8
  try clear_value x10
  extract_lets -merge -useContext +onlyGivenNames x12
  have h13 : Inv x12 := by
    unfold x12
    refine Inv.ite ?_ ?_
    · refine Inv.keep startPreparing_keeps rfl ?_
      refine Inv.keep setRv_keeps rfl ?_
      exact h11
    · exact h11
  try clear_value x12
  extract_lets -merge -useContext +onlyGivenNames x14
  have h15 : Inv x14 := by
    unfold x14
    refine finishStages_inv ?_
    exact h13
  try clear_value x14
  refine Inv.ite ?_ ?_
  · refine armRollback_inv ?_
    exact h15
  · refine trialFallback_inv ?_
    exact h15

theorem confirmTimeout_inv {s} (hs : Inv s) : Inv (confirmTimeout s) := by
  unfold confirmTimeout
  refine Inv.ite ?_ ?_
  · refine startRollback_inv ?_
    exact hs
  · refine trialFallback_inv ?_
    exact hs

theorem execConfirmTimeout_inv {b0 s} (hs : Inv s) : InvA (execConfirmTimeout b0 s) := by
  unfold execConfirmTimeout
  extract_lets -merge -useContext +onlyGivenNames x0
  have h1 : Inv x0 := by
    unfold x0
    refine begin'_inv ?_
    exact hs
  try clear_value x0
  refine InvA.next ?_
  refine Inv.ite ?_ ?_
  · refine confirmTimeout_inv ?_
    exact h1
  · exact h1

theorem standbyCommit_inv {b0 s} (hs : Inv s) : Inv (standbyCommit b0 s) := by
  unfold standbyCommit
  split
  · split
    · rename_i y1 y2 q3
      have h4 : Inv y2 := by
        refine Inv.snd ?_ q3
        refine convertList_inv ?_
        refine Inv.keep (wr_xch (m := 67100671) rfl) rfl ?_
        exact hs
      refine Inv.ite ?_ ?_
      · exact h4
      · refine xchResume_inv ?_
        refine xchCommit_inv ?_
        exact h4
    · rename_i y5 y6 y7 q8
      have h9 : Inv y7 := by
        refine Inv.snd ?_ q8
        refine convertList_inv ?_
        refine Inv.keep (wr_xch (m := 67100671) rfl) rfl ?_
        exact hs
      refine Inv.keep toUnsynced_keeps rfl ?_
      refine xchAbort_inv ?_
      exact h9
    · rename_i y10 y11 q12
      have h13 : Inv y11 := by
        refine Inv.snd ?_ q12
        refine convertList_inv ?_
        refine Inv.keep (wr_xch (m := 67100671) rfl) rfl ?_
        exact hs
      refine Inv.keep toUnsynced_keeps rfl ?_
      refine xchAbort_inv ?_
      exact h13
  · refine Inv.keep toUnsynced_keeps rfl ?_
    exact hs

theorem execCommitMark_inv {b0 b1 s} (hs : Inv s) : InvA (execCommitMark b0 b1 s) := by
  unfold execCommitMark
  refine InvA.next ?_
  refine immediateMsg_inv ?_ ?_
  · intro s hs
    refine standbyCommit_inv ?_
    exact hs
  · refine begin'_inv ?_
    exact hs

end Sys2Proof.Machine
end

