-- ==== Sys2Proof/Laws/KeepsCycle.lean ====
section
/-! SUPPORT. Frames of the functions of Machine/Cycle.lean: what each leaves alone, said once. The docstrings name the parts of `State` a function may write; the mask marks all others. -/

namespace Sys2Proof.Machine

/-- Writes at most: tri regs evr sta. -/
theorem relit_keeps {b0 s} : Keeps 60800895 s (relit b0 s) := by
  unfold relit
  extract_lets -merge -useContext +onlyGivenNames x0
  try clear_value x0
  extract_lets -merge -useContext +onlyGivenNames x1
  try clear_value x1
  extract_lets -merge -useContext +onlyGivenNames x2
  try clear_value x2
  extract_lets -merge -useContext +onlyGivenNames x3
  have h4 : Keeps 60800895 s x3 := by
    unfold x3
    refine Keeps.step stat_keeps rfl ?_
    exact Keeps.refl
  try clear_value x3
  extract_lets -merge -useContext +onlyGivenNames x5
  have h6 : Keeps 60800895 s x5 := by
    unfold x5
    refine Keeps.step modLane_keeps rfl ?_
    refine Keeps.step laneTo_keeps rfl ?_
    refine Keeps.step voterLog_keeps rfl ?_
    exact h4
  try clear_value x5
  refine Keeps.step laneRecord_keeps rfl ?_
  exact h6

/-- Writes at most: tri regs. -/
theorem relightPause_keeps {b0 s} : Keeps 67092351 s (relightPause b0 s).1 := by
  unfold relightPause
  extract_lets -merge -useContext +onlyGivenNames x0
  have h1 : Keeps 67092351 s x0 := by
    unfold x0
    refine Keeps.step loadDelays_keeps rfl ?_
    refine Keeps.step seqMany_keeps rfl ?_
    refine Keeps.step cacheFlush_keeps rfl ?_
    exact Keeps.refl
  try clear_value x0
  extract_lets -merge -useContext +onlyGivenNames x2
  try clear_value x2
  extract_lets -merge -useContext +onlyGivenNames x3
  try clear_value x3
  extract_lets -merge -useContext +onlyGivenNames x4
  try clear_value x4
  refine Keeps.mkFst ?_
  refine Keeps.step injResult_keeps rfl ?_
  exact h1

/-- Writes at most: tri regs evr sta. -/
theorem splitRelight_keeps {b0 s} : Keeps 60800895 s (splitRelight b0 s) := by
  unfold splitRelight
  refine Keeps.step relit_keeps rfl ?_
  refine Keeps.step loadDelays_keeps rfl ?_
  exact Keeps.refl

/-- Writes at most: sent clk civ cand pwr tri prg frc mem vm xch regs bus rings fio snu evr sta upd lnk. -/
theorem execRelight_keeps {b0 b1 s} : Answers 33882373 s (execRelight b0 b1 s) := by
  unfold execRelight
  extract_lets -merge -useContext +onlyGivenNames x0
  have h1 : Keeps 33882373 s x0 := by
    unfold x0
    refine Keeps.step begin'_keeps rfl ?_
    exact Keeps.refl
  try clear_value x0
  refine Answers.next ?_
  refine Keeps.ite ?_ ?_
  · exact h1
  · refine Keeps.ite ?_ ?_
    · refine Keeps.step relightEnd_keeps rfl ?_
      refine Keeps.step splitRelight_keeps rfl ?_
      exact h1
    · split
      · refine Keeps.step unitDisagrees_keeps rfl ?_
        exact h1
      · split
        · rename_i y4 y5 q6
          have h7 : Keeps 33882373 s y4 := by
            refine Keeps.fst ?_ q6
            refine Keeps.step relightPause_keeps rfl ?_
            exact h1
          refine Keeps.step relightEnd_keeps rfl ?_
          refine Keeps.ite ?_ ?_
          · refine Keeps.step retireLane_keeps rfl ?_
            exact h7
          · refine Keeps.step beatTx_keeps rfl ?_
            refine Keeps.step relit_keeps rfl ?_
            exact h7

/-- Writes at most: tri prg. -/
theorem startRelight_keeps {s} : Keeps 67108223 s (startRelight s) := by
  unfold startRelight
  split
  · refine Keeps.ite ?_ ?_
    · extract_lets -merge -useContext +onlyGivenNames x1
      have h2 : Keeps 67108223 s x1 := by
        unfold x1
        refine Keeps.step laneTo_keeps rfl ?_
        exact Keeps.refl
      try clear_value x1
      refine Keeps.app (wr_prg rfl) ?_
      exact h2
    · exact Keeps.refl
  · exact Keeps.refl

/-- Writes at most: sent clk civ cand prg bus lnk. -/
theorem cycleOn_keeps {s} : Keeps 50298309 s (cycleOn s) := by
  unfold cycleOn
  extract_lets -merge -useContext +onlyGivenNames x0
  have h1 : Keeps 50298309 s x0 := by
    unfold x0
    refine Keeps.step begin'_keeps rfl ?_
    exact Keeps.refl
  try clear_value x0
  refine Keeps.app (wr_clk rfl) ?_
  exact h1

/-- Writes at most: prg regs evr. -/
theorem cycleUse_keeps {s} : Keeps 64994815 s (cycleUse s) := by
  unfold cycleUse
  extract_lets -merge -useContext +onlyGivenNames x0
  try clear_value x0
  extract_lets -merge -useContext +onlyGivenNames x1
  try clear_value x1
  extract_lets -merge -useContext +onlyGivenNames x2
  try clear_value x2
  extract_lets -merge -useContext +onlyGivenNames x3
  have h4 : Keeps 64994815 s x3 := by
    unfold x3
    refine Keeps.step setRf_keeps rfl ?_
    refine Keeps.app (wr_prg rfl) ?_
    exact Keeps.refl
  try clear_value x3
  extract_lets -merge -useContext +onlyGivenNames x5
  have h6 : Keeps 64994815 s x5 := by
    unfold x5
    refine Keeps.ite ?_ ?_
    · refine Keeps.step setRf_keeps rfl ?_
      exact h4
    · exact h4
  try clear_value x5
  refine Keeps.ite ?_ ?_
  · refine Keeps.step emit_keeps rfl ?_
    refine Keeps.step cnt_keeps rfl ?_
    exact h6
  · exact h6

/-- Writes at most: prg. -/
theorem cycleFlags_keeps {s} : Keeps 67108351 s (cycleFlags s) := by
  unfold cycleFlags
  refine Keeps.app (wr_prg rfl) ?_
  exact Keeps.refl

/-- Writes at most: sent free cand pwr tri prg frc mem vm xch regs rings lat fio snu evr sta upd lnk. -/
theorem latticeStep_keeps {b0 s} : Keeps 33653017 s (latticeStep b0 s) := by
  unfold latticeStep
  refine Keeps.ite ?_ ?_
  · exact Keeps.refl
  · refine Keeps.ite ?_ ?_
    · refine Keeps.app (wr_lat rfl) ?_
      exact Keeps.refl
    · refine Keeps.step timerStep_keeps rfl ?_
      exact Keeps.refl

/-- Writes at most: sent cand pwr tri prg frc mem vm xch regs rings fio snu evr upd lnk. -/
theorem cycleImages_keeps {b0 s} : Keeps 38109469 s (cycleImages b0 s) := by
  unfold cycleImages
  refine Keeps.ite ?_ ?_
  · extract_lets -merge -useContext +onlyGivenNames x0
    have h1 : Keeps 38109469 s x0 := by
      unfold x0
      refine Keeps.ite ?_ ?_
      · refine Keeps.step applyOutputs_keeps rfl ?_
        exact Keeps.refl
      · exact Keeps.refl
    try clear_value x0
    refine Keeps.ite ?_ ?_
    · refine Keeps.step freezeInputs_keeps rfl ?_
      exact h1
    · exact h1
  · exact Keeps.refl

/-- Writes at most: sent lnk. -/
theorem pairBoundary_keeps {s} : Keeps 50331645 s (pairBoundary s) := by
  unfold pairBoundary
  extract_lets -merge -useContext +onlyGivenNames x0
  have h1 : Keeps 50331645 s x0 := by
    unfold x0
    refine Keeps.step mirror_keeps rfl ?_
    refine Keeps.step mirrorReserved_keeps rfl ?_
    exact Keeps.refl
  try clear_value x0
  refine Keeps.app (wr_lnk rfl) ?_
  exact h1

/-- Writes at most: frc regs fio snu evr. -/
theorem cycleField_keeps {s} : Keeps 63421439 s (cycleField s) := by
  unfold cycleField
  extract_lets -merge -useContext +onlyGivenNames x0
  have h1 : Keeps 63421439 s x0 := by
    unfold x0
    refine Keeps.step closingSequence_keeps rfl ?_
    refine Keeps.step testPeriod_keeps rfl ?_
    refine Keeps.step seenBands_keeps rfl ?_
    refine Keeps.step openLoads_keeps rfl ?_
    exact Keeps.refl
  try clear_value x0
  refine Keeps.app (wr_frc rfl) ?_
  exact h1

/-- Writes at most: sent cand pwr tri prg mem vm xch regs rings snu evr upd lnk. -/
theorem cycleReleases_keeps {s} : Keeps 38634781 s (cycleReleases s) := by
  unfold cycleReleases
  extract_lets -merge -useContext +onlyGivenNames x0
  have h1 : Keeps 38634781 s x0 := by
    unfold x0
    refine Keeps.ite ?_ ?_
    · refine Keeps.step enterNormal_keeps rfl ?_
      exact Keeps.refl
    · exact Keeps.refl
  try clear_value x0
  extract_lets -merge -useContext +onlyGivenNames x2
  have h3 : Keeps 38634781 s x2 := by
    unfold x2
    refine Keeps.step startRelight_keeps rfl ?_
    exact h1
  try clear_value x2
  extract_lets -merge -useContext +onlyGivenNames x4
  have h5 : Keeps 38634781 s x4 := by
    unfold x4
    refine Keeps.ite ?_ ?_
    · exact h3
    · refine Keeps.step dueReleases_keeps rfl ?_
      exact h3
  try clear_value x4
  refine Keeps.step resumeIfDue_keeps rfl ?_
  exact h5

/-- Writes at most: sent free clk civ cand pwr tri dbg prg frc mem vm xch regs bus tel rings lat fio snu evr sta upd lnk. -/
theorem boundary_keeps {b0 s} : Keeps 33554433 s (boundary b0 s) := by
  unfold boundary
  extract_lets -merge -useContext +onlyGivenNames x0
  have h1 : Keeps 33554433 s x0 := by
    unfold x0
    refine Keeps.step busBoundary_keeps rfl ?_
    refine Keeps.step cycleUse_keeps rfl ?_
    exact Keeps.refl
  try clear_value x0
  extract_lets -merge -useContext +onlyGivenNames x2
  have h3 : Keeps 33554433 s x2 := by
    unfold x2
    refine Keeps.foldl ?_ _ ?_
    · intro s a4
      refine Keeps.step restartDone_keeps rfl ?_
      exact Keeps.refl
    · refine Keeps.step cycleFlags_keeps rfl ?_
      exact h1
  try clear_value x2
  extract_lets -merge -useContext +onlyGivenNames x5
  have h6 : Keeps 33554433 s x5 := by
    unfold x5
    refine Keeps.step latticeStep_keeps rfl ?_
    refine Keeps.step embers_keeps rfl ?_
    refine Keeps.step closeAged_keeps rfl ?_
    exact h3
  try clear_value x5
  extract_lets -merge -useContext +onlyGivenNames x7
  have h8 : Keeps 33554433 s x7 := by
    unfold x7
    refine Keeps.step cycleField_keeps rfl ?_
    refine Keeps.step cycleImages_keeps rfl ?_
    exact h6
  try clear_value x7
  extract_lets -merge -useContext +onlyGivenNames x9
  have h10 : Keeps 33554433 s x9 := by
    unfold x9
    refine Keeps.ite ?_ ?_
    · exact h8
    · refine Keeps.step borderFrames_keeps rfl ?_
      exact h8
  try clear_value x9
  refine Keeps.step cycleReleases_keeps rfl ?_
  refine Keeps.step pairBoundary_keeps rfl ?_
  exact h10

/-- Writes at most: sent free clk civ cand pwr tri dbg prg frc mem vm xch regs bus tel rings lat fio snu evr sta upd lnk. -/
theorem execMinorCycleBoundary_keeps {b0 s} : Answers 33554433 s (execMinorCycleBoundary b0 s) := by
  unfold execMinorCycleBoundary
  refine Answers.next ?_
  refine Keeps.ite ?_ ?_
  · extract_lets -merge -useContext +onlyGivenNames x0
    have h1 : Keeps 33554433 s x0 := by
      unfold x0
      refine Keeps.step cycleOn_keeps rfl ?_
      exact Keeps.refl
    try clear_value x0
    refine Keeps.ite ?_ ?_
    · refine Keeps.step boundary_keeps rfl ?_
      exact h1
    · exact h1
  · refine Keeps.step begin'_keeps rfl ?_
    exact Keeps.refl

/-- Writes at most: sent cand pwr tri prg frc vm xch regs rings fio snu evr upd lnk. -/
theorem readbackCheck_keeps {s} : Keeps 38111517 s (readbackCheck s) := by
  unfold readbackCheck
  extract_lets -merge -useContext +onlyGivenNames x0
  have h1 : Keeps 38111517 s x0 := by
    unfold x0
    refine Keeps.ite ?_ ?_
    · refine Keeps.step vitalFault_keeps rfl ?_
      refine Keeps.step trapRecord_keeps rfl ?_
      exact Keeps.refl
    · exact Keeps.refl
  try clear_value x0
  refine Keeps.step setRv_keeps rfl ?_
  exact h1

/-- Writes at most: sent civ cand pwr prg frc vm xch regs rings fio snu evr sta upd lnk. -/
theorem degradedHandover_keeps {s} : Keeps 33917325 s (degradedHandover s) := by
  unfold degradedHandover
  refine Keeps.ite ?_ ?_
  · extract_lets -merge -useContext +onlyGivenNames x0
    have h1 : Keeps 33917325 s x0 := by
      unfold x0
      refine Keeps.step mirror_keeps rfl ?_
      exact Keeps.refl
    try clear_value x0
    extract_lets -merge -useContext +onlyGivenNames x2
    try clear_value x2
    extract_lets -merge -useContext +onlyGivenNames x3
    have h4 : Keeps 33917325 s x3 := by
      unfold x3
      refine Keeps.step shutdownSteps_keeps rfl ?_
      refine Keeps.step forcesHalt_keeps rfl ?_
      refine Keeps.step xchAbort_keeps rfl ?_
      refine Keeps.app (wr_lnk rfl) ?_
      exact h1
    try clear_value x3
    extract_lets -merge -useContext +onlyGivenNames x5
    have h6 : Keeps 33917325 s x5 := by
      unfold x5
      refine Keeps.step setMode_keeps rfl ?_
      exact h4
    try clear_value x5
    refine Keeps.app (wr_pwr rfl) ?_
    exact h6
  · exact Keeps.refl

/-- Writes at most: sent lnk. -/
theorem askAgain_keeps {s} : Keeps 50331645 s (askAgain s) := by
  unfold askAgain
  refine Keeps.ite ?_ ?_
  · refine Keeps.step askSync_keeps rfl ?_
    exact Keeps.refl
  · exact Keeps.refl

/-- Writes at most: sent civ cand pwr tri prg frc mem vm xch regs rings fio snu evr sta upd lnk. -/
theorem majorBoundary_keeps {s} : Keeps 33915149 s (majorBoundary s) := by
  unfold majorBoundary
  extract_lets -merge -useContext +onlyGivenNames x0
  try clear_value x0
  extract_lets -merge -useContext +onlyGivenNames x1
  have h2 : Keeps 33915149 s x1 := by
    unfold x1
    refine Keeps.step readbackCheck_keeps rfl ?_
    refine Keeps.app (wr_prg rfl) ?_
    exact Keeps.refl
  try clear_value x1
  extract_lets -merge -useContext +onlyGivenNames x3
  have h4 : Keeps 33915149 s x3 := by
    unfold x3
    refine Keeps.step writeAnchor_keeps rfl ?_
    exact h2
  try clear_value x3
  extract_lets -merge -useContext +onlyGivenNames x5
  have h6 : Keeps 33915149 s x5 := by
    unfold x5
    refine Keeps.ite ?_ ?_
    · refine Keeps.step enterFree_keeps rfl ?_
      exact h4
    · exact h4
  try clear_value x5
  refine Keeps.step askAgain_keeps rfl ?_
  refine Keeps.step degradedHandover_keeps rfl ?_
  exact h6

/-- Writes at most: sent clk civ cand pwr tri prg frc mem vm xch regs bus rings fio snu evr sta upd lnk. -/
theorem execMajorCycleBoundary_keeps {b0 s} : Answers 33882373 s (execMajorCycleBoundary b0 s) := by
  unfold execMajorCycleBoundary
  extract_lets -merge -useContext +onlyGivenNames x0
  have h1 : Keeps 33882373 s x0 := by
    unfold x0
    refine Keeps.step begin'_keeps rfl ?_
    exact Keeps.refl
  try clear_value x0
  refine Answers.next ?_
  refine Keeps.ite ?_ ?_
  · refine Keeps.step majorBoundary_keeps rfl ?_
    exact h1
  · exact h1

end Sys2Proof.Machine
end

