-- ==== Sys2Proof/Laws/InvCycle.lean ====
section
/-! SUPPORT. The functions of Machine/Cycle.lean keep the invariant `Inv`. -/

namespace Sys2Proof.Machine

theorem relit_inv {b0 s} (hs : Inv s) : Inv (relit b0 s) := by
  unfold relit
  extract_lets -merge -useContext +onlyGivenNames x0
  try clear_value x0
  extract_lets -merge -useContext +onlyGivenNames x1
  try clear_value x1
  extract_lets -merge -useContext +onlyGivenNames x2
  try clear_value x2
  extract_lets -merge -useContext +onlyGivenNames x3
  have h4 : Inv x3 := by
    unfold x3
    refine Inv.keep stat_keeps rfl ?_
    exact hs
  try clear_value x3
  extract_lets -merge -useContext +onlyGivenNames x5
  have h6 : Inv x5 := by
    unfold x5
    refine Inv.keep modLane_keeps rfl ?_
    refine Inv.keep laneTo_keeps rfl ?_
    refine Inv.keep voterLog_keeps rfl ?_
    exact h4
  try clear_value x5
  refine laneRecord_inv ?_
  exact h6

theorem splitRelight_inv {b0 s} (hs : Inv s) : Inv (splitRelight b0 s) := by
  unfold splitRelight
  refine relit_inv ?_
  refine Inv.keep loadDelays_keeps rfl ?_
  exact hs

theorem execRelight_inv {b0 b1 s} (hs : Inv s) : InvA (execRelight b0 b1 s) := by
  unfold execRelight
  extract_lets -merge -useContext +onlyGivenNames x0
  have h1 : Inv x0 := by
    unfold x0
    refine begin'_inv ?_
    exact hs
  try clear_value x0
  refine InvA.next ?_
  refine Inv.ite ?_ ?_
  · exact h1
  · refine Inv.ite ?_ ?_
    · refine relightEnd_inv ?_
      refine splitRelight_inv ?_
      exact h1
    · split
      · refine unitDisagrees_inv ?_
        exact h1
      · split
        · rename_i y4 y5 q6
          have h7 : Inv y4 := by
            refine Inv.fst ?_ q6
            refine Inv.keep relightPause_keeps rfl ?_
            exact h1
          refine relightEnd_inv ?_
          refine Inv.ite ?_ ?_
          · refine retireLane_inv ?_
            exact h7
          · refine beatTx_inv ?_
            refine relit_inv ?_
            exact h7

theorem cycleOn_inv {s} (hs : Inv s) : Inv (cycleOn s) := by
  unfold cycleOn
  extract_lets -merge -useContext +onlyGivenNames x0
  have h1 : Inv x0 := by
    unfold x0
    refine begin'_inv ?_
    exact hs
  try clear_value x0
  refine Inv.keep (wr_clk (m := 67108855) rfl) rfl ?_
  exact h1

theorem cycleUse_inv {s} (hs : Inv s) : Inv (cycleUse s) := by
  unfold cycleUse
  extract_lets -merge -useContext +onlyGivenNames x0
  try clear_value x0
  extract_lets -merge -useContext +onlyGivenNames x1
  try clear_value x1
  extract_lets -merge -useContext +onlyGivenNames x2
  try clear_value x2
  extract_lets -merge -useContext +onlyGivenNames x3
  have h4 : Inv x3 := by
    unfold x3
    refine Inv.keep setRf_keeps rfl ?_
    refine Inv.keep (wr_prg (m := 67108351) rfl) rfl ?_
    exact hs
  try clear_value x3
  extract_lets -merge -useContext +onlyGivenNames x5
  have h6 : Inv x5 := by
    unfold x5
    refine Inv.ite ?_ ?_
    · refine Inv.keep setRf_keeps rfl ?_
      exact h4
    · exact h4
  try clear_value x5
  refine Inv.ite ?_ ?_
  · refine emit_inv ?_
    refine Inv.keep cnt_keeps rfl ?_
    exact h6
  · exact h6

theorem latticeStep_inv {b0 s} (hs : Inv s) : Inv (latticeStep b0 s) := by
  unfold latticeStep
  refine Inv.ite ?_ ?_
  · exact hs
  · refine Inv.ite ?_ ?_
    · refine Inv.set_lat (fun h => ?_) ?_
      · exact h.lat
      · exact hs
    · refine timerStep_inv ?_
      exact hs

theorem cycleImages_inv {b0 s} (hs : Inv s) : Inv (cycleImages b0 s) := by
  unfold cycleImages
  refine Inv.ite ?_ ?_
  · extract_lets -merge -useContext +onlyGivenNames x0
    have h1 : Inv x0 := by
      unfold x0
      refine Inv.ite ?_ ?_
      · refine applyOutputs_inv ?_
        exact hs
      · exact hs
    try clear_value x0
    refine Inv.ite ?_ ?_
    · refine freezeInputs_inv ?_
      exact h1
    · exact h1
  · exact hs

theorem cycleField_inv {s} (hs : Inv s) : Inv (cycleField s) := by
  unfold cycleField
  extract_lets -merge -useContext +onlyGivenNames x0
  have h1 : Inv x0 := by
    unfold x0
    refine Inv.keep closingSequence_keeps rfl ?_
    refine Inv.keep testPeriod_keeps rfl ?_
    refine Inv.keep seenBands_keeps rfl ?_
    refine openLoads_inv ?_
    exact hs
  try clear_value x0
  refine Inv.set_frc (fun h => ?_) ?_
  · exact h.frc
  · exact h1

theorem cycleReleases_inv {s} (hs : Inv s) : Inv (cycleReleases s) := by
  unfold cycleReleases
  extract_lets -merge -useContext +onlyGivenNames x0
  have h1 : Inv x0 := by
    unfold x0
    refine Inv.ite ?_ ?_
    · refine enterNormal_inv ?_
      exact hs
    · exact hs
  try clear_value x0
  extract_lets -merge -useContext +onlyGivenNames x2
  have h3 : Inv x2 := by
    unfold x2
    refine Inv.keep startRelight_keeps rfl ?_
    exact h1
  try clear_value x2
  extract_lets -merge -useContext +onlyGivenNames x4
  have h5 : Inv x4 := by
    unfold x4
    refine Inv.ite ?_ ?_
    · exact h3
    · refine dueReleases_inv ?_
      exact h3
  try clear_value x4
  refine resumeIfDue_inv ?_
  exact h5

theorem boundary_inv {b0 s} (hs : Inv s) : Inv (boundary b0 s) := by
  unfold boundary
  extract_lets -merge -useContext +onlyGivenNames x0
  have h1 : Inv x0 := by
    unfold x0
    refine busBoundary_inv ?_
    refine cycleUse_inv ?_
    exact hs
  try clear_value x0
  extract_lets -merge -useContext +onlyGivenNames x2
  have h3 : Inv x2 := by
    unfold x2
    refine Inv.foldl ?_ _ ?_
    · intro s a4 hs
      refine restartDone_inv ?_
      exact hs
    · refine Inv.keep cycleFlags_keeps rfl ?_
      exact h1
  try clear_value x2
  extract_lets -merge -useContext +onlyGivenNames x5
  have h6 : Inv x5 := by
    unfold x5
    refine latticeStep_inv ?_
    refine embers_inv ?_
    refine closeAged_inv ?_
    exact h3
  try clear_value x5
  extract_lets -merge -useContext +onlyGivenNames x7
  have h8 : Inv x7 := by
    unfold x7
    refine cycleField_inv ?_
    refine cycleImages_inv ?_
    exact h6
  try clear_value x7
  extract_lets -merge -useContext +onlyGivenNames x9
  have h10 : Inv x9 := by
    unfold x9
    refine Inv.ite ?_ ?_
    · exact h8
    · refine borderFrames_inv ?_
      exact h8
  try clear_value x9
  refine cycleReleases_inv ?_
  refine Inv.keep pairBoundary_keeps rfl ?_
  exact h10

theorem execMinorCycleBoundary_inv {b0 s} (hs : Inv s) : InvA (execMinorCycleBoundary b0 s) := by
  unfold execMinorCycleBoundary
  refine InvA.next ?_
  refine Inv.ite ?_ ?_
  · extract_lets -merge -useContext +onlyGivenNames x0
    have h1 : Inv x0 := by
      unfold x0
      refine cycleOn_inv ?_
      exact hs
    try clear_value x0
    refine Inv.ite ?_ ?_
    · refine boundary_inv ?_
      exact h1
    · exact h1
  · refine begin'_inv ?_
    exact hs

theorem readbackCheck_inv {s} (hs : Inv s) : Inv (readbackCheck s) := by
  unfold readbackCheck
  extract_lets -merge -useContext +onlyGivenNames x0
  have h1 : Inv x0 := by
    unfold x0
    refine Inv.ite ?_ ?_
    · refine vitalFault_inv ?_
      refine trapRecord_inv ?_
      exact hs
    · exact hs
  try clear_value x0
  refine Inv.keep setRv_keeps rfl ?_
  exact h1

theorem degradedHandover_inv {s} (hs : Inv s) : Inv (degradedHandover s) := by
  unfold degradedHandover
  refine Inv.ite ?_ ?_
  · extract_lets -merge -useContext +onlyGivenNames x0
    have h1 : Inv x0 := by
      unfold x0
      refine Inv.keep mirror_keeps rfl ?_
      exact hs
    try clear_value x0
    extract_lets -merge -useContext +onlyGivenNames x2
    try clear_value x2
    extract_lets -merge -useContext +onlyGivenNames x3
    have h4 : Inv x3 := by
      unfold x3
      refine shutdownSteps_inv ?_
      refine forcesHalt_inv ?_
      refine xchAbort_inv ?_
      refine Inv.keep (wr_lnk (m := 50331647) rfl) rfl ?_
      exact h1
    try clear_value x3
    extract_lets -merge -useContext +onlyGivenNames x5
    have h6 : Inv x5 := by
      unfold x5
      refine setMode_inv ?_
      exact h4
    try clear_value x5
    refine Inv.keep (wr_pwr (m := 67108799) rfl) rfl ?_
    exact h6
  · exact hs

theorem majorBoundary_inv {s} (hs : Inv s) : Inv (majorBoundary s) := by
  unfold majorBoundary
  extract_lets -merge -useContext +onlyGivenNames x0
  try clear_value x0
  extract_lets -merge -useContext +onlyGivenNames x1
  have h2 : Inv x1 := by
    unfold x1
    refine readbackCheck_inv ?_
    refine Inv.keep (wr_prg (m := 67108351) rfl) rfl ?_
    exact hs
  try clear_value x1
  extract_lets -merge -useContext +onlyGivenNames x3
  have h4 : Inv x3 := by
    unfold x3
    refine writeAnchor_inv ?_
    exact h2
  try clear_value x3
  extract_lets -merge -useContext +onlyGivenNames x5
  have h6 : Inv x5 := by
    unfold x5
    refine Inv.ite ?_ ?_
    · refine enterFree_inv ?_
      exact h4
    · exact h4
  try clear_value x5
  refine Inv.keep askAgain_keeps rfl ?_
  refine degradedHandover_inv ?_
  exact h6

theorem execMajorCycleBoundary_inv {b0 s} (hs : Inv s) : InvA (execMajorCycleBoundary b0 s) := by
  unfold execMajorCycleBoundary
  extract_lets -merge -useContext +onlyGivenNames x0
  have h1 : Inv x0 := by
    unfold x0
    refine begin'_inv ?_
    exact hs
  try clear_value x0
  refine InvA.next ?_
  refine Inv.ite ?_ ?_
  · refine majorBoundary_inv ?_
    exact h1
  · exact h1

end Sys2Proof.Machine
end

