-- ==== Sys2Proof/Laws/State.lean ====
section
/-! SUPPORT. What the shared updates of State change and leave alone, field by field. -/

namespace Sys2Proof.Machine

/-! ### send -/

@[simp] theorem send_pending (x : Sent) (s : State) : (send x s).pending = s.pending := send_keeps.pending rfl

@[simp] theorem send_free (x : Sent) (s : State) : (send x s).free = s.free := send_keeps.free rfl

@[simp] theorem send_clk (x : Sent) (s : State) : (send x s).clk = s.clk := send_keeps.clk rfl

@[simp] theorem send_civ (x : Sent) (s : State) : (send x s).civ = s.civ := send_keeps.civ rfl

@[simp] theorem send_cand (x : Sent) (s : State) : (send x s).cand = s.cand := send_keeps.cand rfl

@[simp] theorem send_pwr (x : Sent) (s : State) : (send x s).pwr = s.pwr := send_keeps.pwr rfl

@[simp] theorem send_tri (x : Sent) (s : State) : (send x s).tri = s.tri := send_keeps.tri rfl

@[simp] theorem send_dbg (x : Sent) (s : State) : (send x s).dbg = s.dbg := send_keeps.dbg rfl

@[simp] theorem send_prg (x : Sent) (s : State) : (send x s).prg = s.prg := send_keeps.prg rfl

@[simp] theorem send_frc (x : Sent) (s : State) : (send x s).frc = s.frc := send_keeps.frc rfl

@[simp] theorem send_mem (x : Sent) (s : State) : (send x s).mem = s.mem := send_keeps.mem rfl

@[simp] theorem send_vm (x : Sent) (s : State) : (send x s).vm = s.vm := send_keeps.vm rfl

@[simp] theorem send_xch (x : Sent) (s : State) : (send x s).xch = s.xch := send_keeps.xch rfl

@[simp] theorem send_regs (x : Sent) (s : State) : (send x s).regs = s.regs := send_keeps.regs rfl

@[simp] theorem send_bus (x : Sent) (s : State) : (send x s).bus = s.bus := send_keeps.bus rfl

@[simp] theorem send_tel (x : Sent) (s : State) : (send x s).tel = s.tel := send_keeps.tel rfl

@[simp] theorem send_rings (x : Sent) (s : State) : (send x s).rings = s.rings := send_keeps.rings rfl

@[simp] theorem send_lat (x : Sent) (s : State) : (send x s).lat = s.lat := send_keeps.lat rfl

@[simp] theorem send_fio (x : Sent) (s : State) : (send x s).fio = s.fio := send_keeps.fio rfl

@[simp] theorem send_snu (x : Sent) (s : State) : (send x s).snu = s.snu := send_keeps.snu rfl

@[simp] theorem send_evr (x : Sent) (s : State) : (send x s).evr = s.evr := send_keeps.evr rfl

@[simp] theorem send_sta (x : Sent) (s : State) : (send x s).sta = s.sta := send_keeps.sta rfl

@[simp] theorem send_upd (x : Sent) (s : State) : (send x s).upd = s.upd := send_keeps.upd rfl

@[simp] theorem send_lnk (x : Sent) (s : State) : (send x s).lnk = s.lnk := send_keeps.lnk rfl

@[simp] theorem send_cfg (x : Sent) (s : State) : (send x s).cfg = s.cfg := send_keeps.cfg rfl

/-! ### setRv -/

@[simp] theorem setRv_pending (k v : Nat) (s : State) : (setRv k v s).pending = s.pending := setRv_keeps.pending rfl

@[simp] theorem setRv_sent (k v : Nat) (s : State) : (setRv k v s).sent = s.sent := setRv_keeps.sent rfl

@[simp] theorem setRv_free (k v : Nat) (s : State) : (setRv k v s).free = s.free := setRv_keeps.free rfl

@[simp] theorem setRv_clk (k v : Nat) (s : State) : (setRv k v s).clk = s.clk := setRv_keeps.clk rfl

@[simp] theorem setRv_civ (k v : Nat) (s : State) : (setRv k v s).civ = s.civ := setRv_keeps.civ rfl

@[simp] theorem setRv_cand (k v : Nat) (s : State) : (setRv k v s).cand = s.cand := setRv_keeps.cand rfl

@[simp] theorem setRv_pwr (k v : Nat) (s : State) : (setRv k v s).pwr = s.pwr := setRv_keeps.pwr rfl

@[simp] theorem setRv_tri (k v : Nat) (s : State) : (setRv k v s).tri = s.tri := setRv_keeps.tri rfl

@[simp] theorem setRv_dbg (k v : Nat) (s : State) : (setRv k v s).dbg = s.dbg := setRv_keeps.dbg rfl

@[simp] theorem setRv_prg (k v : Nat) (s : State) : (setRv k v s).prg = s.prg := setRv_keeps.prg rfl

@[simp] theorem setRv_frc (k v : Nat) (s : State) : (setRv k v s).frc = s.frc := setRv_keeps.frc rfl

@[simp] theorem setRv_mem (k v : Nat) (s : State) : (setRv k v s).mem = s.mem := setRv_keeps.mem rfl

@[simp] theorem setRv_vm (k v : Nat) (s : State) : (setRv k v s).vm = s.vm := setRv_keeps.vm rfl

@[simp] theorem setRv_xch (k v : Nat) (s : State) : (setRv k v s).xch = s.xch := setRv_keeps.xch rfl

@[simp] theorem setRv_bus (k v : Nat) (s : State) : (setRv k v s).bus = s.bus := setRv_keeps.bus rfl

@[simp] theorem setRv_tel (k v : Nat) (s : State) : (setRv k v s).tel = s.tel := setRv_keeps.tel rfl

@[simp] theorem setRv_rings (k v : Nat) (s : State) : (setRv k v s).rings = s.rings := setRv_keeps.rings rfl

@[simp] theorem setRv_lat (k v : Nat) (s : State) : (setRv k v s).lat = s.lat := setRv_keeps.lat rfl

@[simp] theorem setRv_fio (k v : Nat) (s : State) : (setRv k v s).fio = s.fio := setRv_keeps.fio rfl

@[simp] theorem setRv_snu (k v : Nat) (s : State) : (setRv k v s).snu = s.snu := setRv_keeps.snu rfl

@[simp] theorem setRv_evr (k v : Nat) (s : State) : (setRv k v s).evr = s.evr := setRv_keeps.evr rfl

@[simp] theorem setRv_sta (k v : Nat) (s : State) : (setRv k v s).sta = s.sta := setRv_keeps.sta rfl

@[simp] theorem setRv_upd (k v : Nat) (s : State) : (setRv k v s).upd = s.upd := setRv_keeps.upd rfl

@[simp] theorem setRv_lnk (k v : Nat) (s : State) : (setRv k v s).lnk = s.lnk := setRv_keeps.lnk rfl

@[simp] theorem setRv_cfg (k v : Nat) (s : State) : (setRv k v s).cfg = s.cfg := setRv_keeps.cfg rfl

/-! ### setRf -/

@[simp] theorem setRf_pending (k lo n v : Nat) (s : State) : (setRf k lo n v s).pending = s.pending := setRf_keeps.pending rfl

@[simp] theorem setRf_sent (k lo n v : Nat) (s : State) : (setRf k lo n v s).sent = s.sent := setRf_keeps.sent rfl

@[simp] theorem setRf_free (k lo n v : Nat) (s : State) : (setRf k lo n v s).free = s.free := setRf_keeps.free rfl

@[simp] theorem setRf_clk (k lo n v : Nat) (s : State) : (setRf k lo n v s).clk = s.clk := setRf_keeps.clk rfl

@[simp] theorem setRf_civ (k lo n v : Nat) (s : State) : (setRf k lo n v s).civ = s.civ := setRf_keeps.civ rfl

@[simp] theorem setRf_cand (k lo n v : Nat) (s : State) : (setRf k lo n v s).cand = s.cand := setRf_keeps.cand rfl

@[simp] theorem setRf_pwr (k lo n v : Nat) (s : State) : (setRf k lo n v s).pwr = s.pwr := setRf_keeps.pwr rfl

@[simp] theorem setRf_tri (k lo n v : Nat) (s : State) : (setRf k lo n v s).tri = s.tri := setRf_keeps.tri rfl

@[simp] theorem setRf_dbg (k lo n v : Nat) (s : State) : (setRf k lo n v s).dbg = s.dbg := setRf_keeps.dbg rfl

@[simp] theorem setRf_prg (k lo n v : Nat) (s : State) : (setRf k lo n v s).prg = s.prg := setRf_keeps.prg rfl

@[simp] theorem setRf_frc (k lo n v : Nat) (s : State) : (setRf k lo n v s).frc = s.frc := setRf_keeps.frc rfl

@[simp] theorem setRf_mem (k lo n v : Nat) (s : State) : (setRf k lo n v s).mem = s.mem := setRf_keeps.mem rfl

@[simp] theorem setRf_vm (k lo n v : Nat) (s : State) : (setRf k lo n v s).vm = s.vm := setRf_keeps.vm rfl

@[simp] theorem setRf_xch (k lo n v : Nat) (s : State) : (setRf k lo n v s).xch = s.xch := setRf_keeps.xch rfl

@[simp] theorem setRf_bus (k lo n v : Nat) (s : State) : (setRf k lo n v s).bus = s.bus := setRf_keeps.bus rfl

@[simp] theorem setRf_tel (k lo n v : Nat) (s : State) : (setRf k lo n v s).tel = s.tel := setRf_keeps.tel rfl

@[simp] theorem setRf_rings (k lo n v : Nat) (s : State) : (setRf k lo n v s).rings = s.rings := setRf_keeps.rings rfl

@[simp] theorem setRf_lat (k lo n v : Nat) (s : State) : (setRf k lo n v s).lat = s.lat := setRf_keeps.lat rfl

@[simp] theorem setRf_fio (k lo n v : Nat) (s : State) : (setRf k lo n v s).fio = s.fio := setRf_keeps.fio rfl

@[simp] theorem setRf_snu (k lo n v : Nat) (s : State) : (setRf k lo n v s).snu = s.snu := setRf_keeps.snu rfl

@[simp] theorem setRf_evr (k lo n v : Nat) (s : State) : (setRf k lo n v s).evr = s.evr := setRf_keeps.evr rfl

@[simp] theorem setRf_sta (k lo n v : Nat) (s : State) : (setRf k lo n v s).sta = s.sta := setRf_keeps.sta rfl

@[simp] theorem setRf_upd (k lo n v : Nat) (s : State) : (setRf k lo n v s).upd = s.upd := setRf_keeps.upd rfl

@[simp] theorem setRf_lnk (k lo n v : Nat) (s : State) : (setRf k lo n v s).lnk = s.lnk := setRf_keeps.lnk rfl

@[simp] theorem setRf_cfg (k lo n v : Nat) (s : State) : (setRf k lo n v s).cfg = s.cfg := setRf_keeps.cfg rfl

/-! ### addRf -/

@[simp] theorem addRf_pending (k lo n d : Nat) (s : State) : (addRf k lo n d s).pending = s.pending := addRf_keeps.pending rfl

@[simp] theorem addRf_sent (k lo n d : Nat) (s : State) : (addRf k lo n d s).sent = s.sent := addRf_keeps.sent rfl

@[simp] theorem addRf_free (k lo n d : Nat) (s : State) : (addRf k lo n d s).free = s.free := addRf_keeps.free rfl

@[simp] theorem addRf_clk (k lo n d : Nat) (s : State) : (addRf k lo n d s).clk = s.clk := addRf_keeps.clk rfl

@[simp] theorem addRf_civ (k lo n d : Nat) (s : State) : (addRf k lo n d s).civ = s.civ := addRf_keeps.civ rfl

@[simp] theorem addRf_cand (k lo n d : Nat) (s : State) : (addRf k lo n d s).cand = s.cand := addRf_keeps.cand rfl

@[simp] theorem addRf_pwr (k lo n d : Nat) (s : State) : (addRf k lo n d s).pwr = s.pwr := addRf_keeps.pwr rfl

@[simp] theorem addRf_tri (k lo n d : Nat) (s : State) : (addRf k lo n d s).tri = s.tri := addRf_keeps.tri rfl

@[simp] theorem addRf_dbg (k lo n d : Nat) (s : State) : (addRf k lo n d s).dbg = s.dbg := addRf_keeps.dbg rfl

@[simp] theorem addRf_prg (k lo n d : Nat) (s : State) : (addRf k lo n d s).prg = s.prg := addRf_keeps.prg rfl

@[simp] theorem addRf_frc (k lo n d : Nat) (s : State) : (addRf k lo n d s).frc = s.frc := addRf_keeps.frc rfl

@[simp] theorem addRf_mem (k lo n d : Nat) (s : State) : (addRf k lo n d s).mem = s.mem := addRf_keeps.mem rfl

@[simp] theorem addRf_vm (k lo n d : Nat) (s : State) : (addRf k lo n d s).vm = s.vm := addRf_keeps.vm rfl

@[simp] theorem addRf_xch (k lo n d : Nat) (s : State) : (addRf k lo n d s).xch = s.xch := addRf_keeps.xch rfl

@[simp] theorem addRf_bus (k lo n d : Nat) (s : State) : (addRf k lo n d s).bus = s.bus := addRf_keeps.bus rfl

@[simp] theorem addRf_tel (k lo n d : Nat) (s : State) : (addRf k lo n d s).tel = s.tel := addRf_keeps.tel rfl

@[simp] theorem addRf_rings (k lo n d : Nat) (s : State) : (addRf k lo n d s).rings = s.rings := addRf_keeps.rings rfl

@[simp] theorem addRf_lat (k lo n d : Nat) (s : State) : (addRf k lo n d s).lat = s.lat := addRf_keeps.lat rfl

@[simp] theorem addRf_fio (k lo n d : Nat) (s : State) : (addRf k lo n d s).fio = s.fio := addRf_keeps.fio rfl

@[simp] theorem addRf_snu (k lo n d : Nat) (s : State) : (addRf k lo n d s).snu = s.snu := addRf_keeps.snu rfl

@[simp] theorem addRf_evr (k lo n d : Nat) (s : State) : (addRf k lo n d s).evr = s.evr := addRf_keeps.evr rfl

@[simp] theorem addRf_sta (k lo n d : Nat) (s : State) : (addRf k lo n d s).sta = s.sta := addRf_keeps.sta rfl

@[simp] theorem addRf_upd (k lo n d : Nat) (s : State) : (addRf k lo n d s).upd = s.upd := addRf_keeps.upd rfl

@[simp] theorem addRf_lnk (k lo n d : Nat) (s : State) : (addRf k lo n d s).lnk = s.lnk := addRf_keeps.lnk rfl

@[simp] theorem addRf_cfg (k lo n d : Nat) (s : State) : (addRf k lo n d s).cfg = s.cfg := addRf_keeps.cfg rfl

/-! ### cnt -/

@[simp] theorem cnt_pending (k : Nat) (s : State) : (cnt k s).pending = s.pending := cnt_keeps.pending rfl

@[simp] theorem cnt_sent (k : Nat) (s : State) : (cnt k s).sent = s.sent := cnt_keeps.sent rfl

@[simp] theorem cnt_free (k : Nat) (s : State) : (cnt k s).free = s.free := cnt_keeps.free rfl

@[simp] theorem cnt_clk (k : Nat) (s : State) : (cnt k s).clk = s.clk := cnt_keeps.clk rfl

@[simp] theorem cnt_civ (k : Nat) (s : State) : (cnt k s).civ = s.civ := cnt_keeps.civ rfl

@[simp] theorem cnt_cand (k : Nat) (s : State) : (cnt k s).cand = s.cand := cnt_keeps.cand rfl

@[simp] theorem cnt_pwr (k : Nat) (s : State) : (cnt k s).pwr = s.pwr := cnt_keeps.pwr rfl

@[simp] theorem cnt_tri (k : Nat) (s : State) : (cnt k s).tri = s.tri := cnt_keeps.tri rfl

@[simp] theorem cnt_dbg (k : Nat) (s : State) : (cnt k s).dbg = s.dbg := cnt_keeps.dbg rfl

@[simp] theorem cnt_prg (k : Nat) (s : State) : (cnt k s).prg = s.prg := cnt_keeps.prg rfl

@[simp] theorem cnt_frc (k : Nat) (s : State) : (cnt k s).frc = s.frc := cnt_keeps.frc rfl

@[simp] theorem cnt_mem (k : Nat) (s : State) : (cnt k s).mem = s.mem := cnt_keeps.mem rfl

@[simp] theorem cnt_vm (k : Nat) (s : State) : (cnt k s).vm = s.vm := cnt_keeps.vm rfl

@[simp] theorem cnt_xch (k : Nat) (s : State) : (cnt k s).xch = s.xch := cnt_keeps.xch rfl

@[simp] theorem cnt_bus (k : Nat) (s : State) : (cnt k s).bus = s.bus := cnt_keeps.bus rfl

@[simp] theorem cnt_tel (k : Nat) (s : State) : (cnt k s).tel = s.tel := cnt_keeps.tel rfl

@[simp] theorem cnt_rings (k : Nat) (s : State) : (cnt k s).rings = s.rings := cnt_keeps.rings rfl

@[simp] theorem cnt_lat (k : Nat) (s : State) : (cnt k s).lat = s.lat := cnt_keeps.lat rfl

@[simp] theorem cnt_fio (k : Nat) (s : State) : (cnt k s).fio = s.fio := cnt_keeps.fio rfl

@[simp] theorem cnt_snu (k : Nat) (s : State) : (cnt k s).snu = s.snu := cnt_keeps.snu rfl

@[simp] theorem cnt_evr (k : Nat) (s : State) : (cnt k s).evr = s.evr := cnt_keeps.evr rfl

@[simp] theorem cnt_sta (k : Nat) (s : State) : (cnt k s).sta = s.sta := cnt_keeps.sta rfl

@[simp] theorem cnt_upd (k : Nat) (s : State) : (cnt k s).upd = s.upd := cnt_keeps.upd rfl

@[simp] theorem cnt_lnk (k : Nat) (s : State) : (cnt k s).lnk = s.lnk := cnt_keeps.lnk rfl

@[simp] theorem cnt_cfg (k : Nat) (s : State) : (cnt k s).cfg = s.cfg := cnt_keeps.cfg rfl

/-! ### emitAt -/

@[simp] theorem emitAt_pending (t ty : Nat) (p : List Byte) (s : State) : (emitAt t ty p s).pending = s.pending := emitAt_keeps.pending rfl

@[simp] theorem emitAt_sent (t ty : Nat) (p : List Byte) (s : State) : (emitAt t ty p s).sent = s.sent := emitAt_keeps.sent rfl

@[simp] theorem emitAt_free (t ty : Nat) (p : List Byte) (s : State) : (emitAt t ty p s).free = s.free := emitAt_keeps.free rfl

@[simp] theorem emitAt_clk (t ty : Nat) (p : List Byte) (s : State) : (emitAt t ty p s).clk = s.clk := emitAt_keeps.clk rfl

@[simp] theorem emitAt_civ (t ty : Nat) (p : List Byte) (s : State) : (emitAt t ty p s).civ = s.civ := emitAt_keeps.civ rfl

@[simp] theorem emitAt_cand (t ty : Nat) (p : List Byte) (s : State) : (emitAt t ty p s).cand = s.cand := emitAt_keeps.cand rfl

@[simp] theorem emitAt_pwr (t ty : Nat) (p : List Byte) (s : State) : (emitAt t ty p s).pwr = s.pwr := emitAt_keeps.pwr rfl

@[simp] theorem emitAt_tri (t ty : Nat) (p : List Byte) (s : State) : (emitAt t ty p s).tri = s.tri := emitAt_keeps.tri rfl

@[simp] theorem emitAt_dbg (t ty : Nat) (p : List Byte) (s : State) : (emitAt t ty p s).dbg = s.dbg := emitAt_keeps.dbg rfl

@[simp] theorem emitAt_prg (t ty : Nat) (p : List Byte) (s : State) : (emitAt t ty p s).prg = s.prg := emitAt_keeps.prg rfl

@[simp] theorem emitAt_frc (t ty : Nat) (p : List Byte) (s : State) : (emitAt t ty p s).frc = s.frc := emitAt_keeps.frc rfl

@[simp] theorem emitAt_mem (t ty : Nat) (p : List Byte) (s : State) : (emitAt t ty p s).mem = s.mem := emitAt_keeps.mem rfl

@[simp] theorem emitAt_vm (t ty : Nat) (p : List Byte) (s : State) : (emitAt t ty p s).vm = s.vm := emitAt_keeps.vm rfl

@[simp] theorem emitAt_xch (t ty : Nat) (p : List Byte) (s : State) : (emitAt t ty p s).xch = s.xch := emitAt_keeps.xch rfl

@[simp] theorem emitAt_bus (t ty : Nat) (p : List Byte) (s : State) : (emitAt t ty p s).bus = s.bus := emitAt_keeps.bus rfl

@[simp] theorem emitAt_tel (t ty : Nat) (p : List Byte) (s : State) : (emitAt t ty p s).tel = s.tel := emitAt_keeps.tel rfl

@[simp] theorem emitAt_rings (t ty : Nat) (p : List Byte) (s : State) : (emitAt t ty p s).rings = s.rings := emitAt_keeps.rings rfl

@[simp] theorem emitAt_lat (t ty : Nat) (p : List Byte) (s : State) : (emitAt t ty p s).lat = s.lat := emitAt_keeps.lat rfl

@[simp] theorem emitAt_fio (t ty : Nat) (p : List Byte) (s : State) : (emitAt t ty p s).fio = s.fio := emitAt_keeps.fio rfl

@[simp] theorem emitAt_snu (t ty : Nat) (p : List Byte) (s : State) : (emitAt t ty p s).snu = s.snu := emitAt_keeps.snu rfl

@[simp] theorem emitAt_sta (t ty : Nat) (p : List Byte) (s : State) : (emitAt t ty p s).sta = s.sta := emitAt_keeps.sta rfl

@[simp] theorem emitAt_upd (t ty : Nat) (p : List Byte) (s : State) : (emitAt t ty p s).upd = s.upd := emitAt_keeps.upd rfl

@[simp] theorem emitAt_lnk (t ty : Nat) (p : List Byte) (s : State) : (emitAt t ty p s).lnk = s.lnk := emitAt_keeps.lnk rfl

@[simp] theorem emitAt_cfg (t ty : Nat) (p : List Byte) (s : State) : (emitAt t ty p s).cfg = s.cfg := emitAt_keeps.cfg rfl

/-! ### emit -/

@[simp] theorem emit_pending (ty : Nat) (f : List (Nat × Nat)) (s : State) : (emit ty f s).pending = s.pending := emit_keeps.pending rfl

@[simp] theorem emit_sent (ty : Nat) (f : List (Nat × Nat)) (s : State) : (emit ty f s).sent = s.sent := emit_keeps.sent rfl

@[simp] theorem emit_free (ty : Nat) (f : List (Nat × Nat)) (s : State) : (emit ty f s).free = s.free := emit_keeps.free rfl

@[simp] theorem emit_clk (ty : Nat) (f : List (Nat × Nat)) (s : State) : (emit ty f s).clk = s.clk := emit_keeps.clk rfl

@[simp] theorem emit_civ (ty : Nat) (f : List (Nat × Nat)) (s : State) : (emit ty f s).civ = s.civ := emit_keeps.civ rfl

@[simp] theorem emit_cand (ty : Nat) (f : List (Nat × Nat)) (s : State) : (emit ty f s).cand = s.cand := emit_keeps.cand rfl

@[simp] theorem emit_pwr (ty : Nat) (f : List (Nat × Nat)) (s : State) : (emit ty f s).pwr = s.pwr := emit_keeps.pwr rfl

@[simp] theorem emit_tri (ty : Nat) (f : List (Nat × Nat)) (s : State) : (emit ty f s).tri = s.tri := emit_keeps.tri rfl

@[simp] theorem emit_dbg (ty : Nat) (f : List (Nat × Nat)) (s : State) : (emit ty f s).dbg = s.dbg := emit_keeps.dbg rfl

@[simp] theorem emit_prg (ty : Nat) (f : List (Nat × Nat)) (s : State) : (emit ty f s).prg = s.prg := emit_keeps.prg rfl

@[simp] theorem emit_frc (ty : Nat) (f : List (Nat × Nat)) (s : State) : (emit ty f s).frc = s.frc := emit_keeps.frc rfl

@[simp] theorem emit_mem (ty : Nat) (f : List (Nat × Nat)) (s : State) : (emit ty f s).mem = s.mem := emit_keeps.mem rfl

@[simp] theorem emit_vm (ty : Nat) (f : List (Nat × Nat)) (s : State) : (emit ty f s).vm = s.vm := emit_keeps.vm rfl

@[simp] theorem emit_xch (ty : Nat) (f : List (Nat × Nat)) (s : State) : (emit ty f s).xch = s.xch := emit_keeps.xch rfl

@[simp] theorem emit_bus (ty : Nat) (f : List (Nat × Nat)) (s : State) : (emit ty f s).bus = s.bus := emit_keeps.bus rfl

@[simp] theorem emit_tel (ty : Nat) (f : List (Nat × Nat)) (s : State) : (emit ty f s).tel = s.tel := emit_keeps.tel rfl

@[simp] theorem emit_rings (ty : Nat) (f : List (Nat × Nat)) (s : State) : (emit ty f s).rings = s.rings := emit_keeps.rings rfl

@[simp] theorem emit_lat (ty : Nat) (f : List (Nat × Nat)) (s : State) : (emit ty f s).lat = s.lat := emit_keeps.lat rfl

@[simp] theorem emit_fio (ty : Nat) (f : List (Nat × Nat)) (s : State) : (emit ty f s).fio = s.fio := emit_keeps.fio rfl

@[simp] theorem emit_snu (ty : Nat) (f : List (Nat × Nat)) (s : State) : (emit ty f s).snu = s.snu := emit_keeps.snu rfl

@[simp] theorem emit_sta (ty : Nat) (f : List (Nat × Nat)) (s : State) : (emit ty f s).sta = s.sta := emit_keeps.sta rfl

@[simp] theorem emit_upd (ty : Nat) (f : List (Nat × Nat)) (s : State) : (emit ty f s).upd = s.upd := emit_keeps.upd rfl

@[simp] theorem emit_lnk (ty : Nat) (f : List (Nat × Nat)) (s : State) : (emit ty f s).lnk = s.lnk := emit_keeps.lnk rfl

@[simp] theorem emit_cfg (ty : Nat) (f : List (Nat × Nat)) (s : State) : (emit ty f s).cfg = s.cfg := emit_keeps.cfg rfl

/-! ### nvEvent -/

@[simp] theorem nvEvent_pending (b c d a : Nat) (s : State) : (nvEvent b c d a s).pending = s.pending := nvEvent_keeps.pending rfl

@[simp] theorem nvEvent_sent (b c d a : Nat) (s : State) : (nvEvent b c d a s).sent = s.sent := nvEvent_keeps.sent rfl

@[simp] theorem nvEvent_free (b c d a : Nat) (s : State) : (nvEvent b c d a s).free = s.free := nvEvent_keeps.free rfl

@[simp] theorem nvEvent_clk (b c d a : Nat) (s : State) : (nvEvent b c d a s).clk = s.clk := nvEvent_keeps.clk rfl

@[simp] theorem nvEvent_civ (b c d a : Nat) (s : State) : (nvEvent b c d a s).civ = s.civ := nvEvent_keeps.civ rfl

@[simp] theorem nvEvent_cand (b c d a : Nat) (s : State) : (nvEvent b c d a s).cand = s.cand := nvEvent_keeps.cand rfl

@[simp] theorem nvEvent_pwr (b c d a : Nat) (s : State) : (nvEvent b c d a s).pwr = s.pwr := nvEvent_keeps.pwr rfl

@[simp] theorem nvEvent_tri (b c d a : Nat) (s : State) : (nvEvent b c d a s).tri = s.tri := nvEvent_keeps.tri rfl

@[simp] theorem nvEvent_dbg (b c d a : Nat) (s : State) : (nvEvent b c d a s).dbg = s.dbg := nvEvent_keeps.dbg rfl

@[simp] theorem nvEvent_prg (b c d a : Nat) (s : State) : (nvEvent b c d a s).prg = s.prg := nvEvent_keeps.prg rfl

@[simp] theorem nvEvent_frc (b c d a : Nat) (s : State) : (nvEvent b c d a s).frc = s.frc := nvEvent_keeps.frc rfl

@[simp] theorem nvEvent_mem (b c d a : Nat) (s : State) : (nvEvent b c d a s).mem = s.mem := nvEvent_keeps.mem rfl

@[simp] theorem nvEvent_vm (b c d a : Nat) (s : State) : (nvEvent b c d a s).vm = s.vm := nvEvent_keeps.vm rfl

@[simp] theorem nvEvent_xch (b c d a : Nat) (s : State) : (nvEvent b c d a s).xch = s.xch := nvEvent_keeps.xch rfl

@[simp] theorem nvEvent_bus (b c d a : Nat) (s : State) : (nvEvent b c d a s).bus = s.bus := nvEvent_keeps.bus rfl

@[simp] theorem nvEvent_tel (b c d a : Nat) (s : State) : (nvEvent b c d a s).tel = s.tel := nvEvent_keeps.tel rfl

@[simp] theorem nvEvent_rings (b c d a : Nat) (s : State) : (nvEvent b c d a s).rings = s.rings := nvEvent_keeps.rings rfl

@[simp] theorem nvEvent_lat (b c d a : Nat) (s : State) : (nvEvent b c d a s).lat = s.lat := nvEvent_keeps.lat rfl

@[simp] theorem nvEvent_fio (b c d a : Nat) (s : State) : (nvEvent b c d a s).fio = s.fio := nvEvent_keeps.fio rfl

@[simp] theorem nvEvent_snu (b c d a : Nat) (s : State) : (nvEvent b c d a s).snu = s.snu := nvEvent_keeps.snu rfl

@[simp] theorem nvEvent_sta (b c d a : Nat) (s : State) : (nvEvent b c d a s).sta = s.sta := nvEvent_keeps.sta rfl

@[simp] theorem nvEvent_upd (b c d a : Nat) (s : State) : (nvEvent b c d a s).upd = s.upd := nvEvent_keeps.upd rfl

@[simp] theorem nvEvent_lnk (b c d a : Nat) (s : State) : (nvEvent b c d a s).lnk = s.lnk := nvEvent_keeps.lnk rfl

@[simp] theorem nvEvent_cfg (b c d a : Nat) (s : State) : (nvEvent b c d a s).cfg = s.cfg := nvEvent_keeps.cfg rfl

/-! ### stat -/

@[simp] theorem stat_pending (o d : Nat) (s : State) : (stat o d s).pending = s.pending := stat_keeps.pending rfl

@[simp] theorem stat_sent (o d : Nat) (s : State) : (stat o d s).sent = s.sent := stat_keeps.sent rfl

@[simp] theorem stat_free (o d : Nat) (s : State) : (stat o d s).free = s.free := stat_keeps.free rfl

@[simp] theorem stat_clk (o d : Nat) (s : State) : (stat o d s).clk = s.clk := stat_keeps.clk rfl

@[simp] theorem stat_civ (o d : Nat) (s : State) : (stat o d s).civ = s.civ := stat_keeps.civ rfl

@[simp] theorem stat_cand (o d : Nat) (s : State) : (stat o d s).cand = s.cand := stat_keeps.cand rfl

@[simp] theorem stat_pwr (o d : Nat) (s : State) : (stat o d s).pwr = s.pwr := stat_keeps.pwr rfl

@[simp] theorem stat_tri (o d : Nat) (s : State) : (stat o d s).tri = s.tri := stat_keeps.tri rfl

@[simp] theorem stat_dbg (o d : Nat) (s : State) : (stat o d s).dbg = s.dbg := stat_keeps.dbg rfl

@[simp] theorem stat_prg (o d : Nat) (s : State) : (stat o d s).prg = s.prg := stat_keeps.prg rfl

@[simp] theorem stat_frc (o d : Nat) (s : State) : (stat o d s).frc = s.frc := stat_keeps.frc rfl

@[simp] theorem stat_mem (o d : Nat) (s : State) : (stat o d s).mem = s.mem := stat_keeps.mem rfl

@[simp] theorem stat_vm (o d : Nat) (s : State) : (stat o d s).vm = s.vm := stat_keeps.vm rfl

@[simp] theorem stat_xch (o d : Nat) (s : State) : (stat o d s).xch = s.xch := stat_keeps.xch rfl

@[simp] theorem stat_regs (o d : Nat) (s : State) : (stat o d s).regs = s.regs := stat_keeps.regs rfl

@[simp] theorem stat_bus (o d : Nat) (s : State) : (stat o d s).bus = s.bus := stat_keeps.bus rfl

@[simp] theorem stat_tel (o d : Nat) (s : State) : (stat o d s).tel = s.tel := stat_keeps.tel rfl

@[simp] theorem stat_rings (o d : Nat) (s : State) : (stat o d s).rings = s.rings := stat_keeps.rings rfl

@[simp] theorem stat_lat (o d : Nat) (s : State) : (stat o d s).lat = s.lat := stat_keeps.lat rfl

@[simp] theorem stat_fio (o d : Nat) (s : State) : (stat o d s).fio = s.fio := stat_keeps.fio rfl

@[simp] theorem stat_snu (o d : Nat) (s : State) : (stat o d s).snu = s.snu := stat_keeps.snu rfl

@[simp] theorem stat_evr (o d : Nat) (s : State) : (stat o d s).evr = s.evr := stat_keeps.evr rfl

@[simp] theorem stat_upd (o d : Nat) (s : State) : (stat o d s).upd = s.upd := stat_keeps.upd rfl

@[simp] theorem stat_lnk (o d : Nat) (s : State) : (stat o d s).lnk = s.lnk := stat_keeps.lnk rfl

@[simp] theorem stat_cfg (o d : Nat) (s : State) : (stat o d s).cfg = s.cfg := stat_keeps.cfg rfl

/-! ### modLane -/

@[simp] theorem modLane_pending (l : LaneId) (f : Lane → Lane) (s : State) : (modLane l f s).pending = s.pending := modLane_keeps.pending rfl

@[simp] theorem modLane_sent (l : LaneId) (f : Lane → Lane) (s : State) : (modLane l f s).sent = s.sent := modLane_keeps.sent rfl

@[simp] theorem modLane_free (l : LaneId) (f : Lane → Lane) (s : State) : (modLane l f s).free = s.free := modLane_keeps.free rfl

@[simp] theorem modLane_clk (l : LaneId) (f : Lane → Lane) (s : State) : (modLane l f s).clk = s.clk := modLane_keeps.clk rfl

@[simp] theorem modLane_civ (l : LaneId) (f : Lane → Lane) (s : State) : (modLane l f s).civ = s.civ := modLane_keeps.civ rfl

@[simp] theorem modLane_cand (l : LaneId) (f : Lane → Lane) (s : State) : (modLane l f s).cand = s.cand := modLane_keeps.cand rfl

@[simp] theorem modLane_pwr (l : LaneId) (f : Lane → Lane) (s : State) : (modLane l f s).pwr = s.pwr := modLane_keeps.pwr rfl

@[simp] theorem modLane_dbg (l : LaneId) (f : Lane → Lane) (s : State) : (modLane l f s).dbg = s.dbg := modLane_keeps.dbg rfl

@[simp] theorem modLane_prg (l : LaneId) (f : Lane → Lane) (s : State) : (modLane l f s).prg = s.prg := modLane_keeps.prg rfl

@[simp] theorem modLane_frc (l : LaneId) (f : Lane → Lane) (s : State) : (modLane l f s).frc = s.frc := modLane_keeps.frc rfl

@[simp] theorem modLane_mem (l : LaneId) (f : Lane → Lane) (s : State) : (modLane l f s).mem = s.mem := modLane_keeps.mem rfl

@[simp] theorem modLane_vm (l : LaneId) (f : Lane → Lane) (s : State) : (modLane l f s).vm = s.vm := modLane_keeps.vm rfl

@[simp] theorem modLane_xch (l : LaneId) (f : Lane → Lane) (s : State) : (modLane l f s).xch = s.xch := modLane_keeps.xch rfl

@[simp] theorem modLane_regs (l : LaneId) (f : Lane → Lane) (s : State) : (modLane l f s).regs = s.regs := modLane_keeps.regs rfl

@[simp] theorem modLane_bus (l : LaneId) (f : Lane → Lane) (s : State) : (modLane l f s).bus = s.bus := modLane_keeps.bus rfl

@[simp] theorem modLane_tel (l : LaneId) (f : Lane → Lane) (s : State) : (modLane l f s).tel = s.tel := modLane_keeps.tel rfl

@[simp] theorem modLane_rings (l : LaneId) (f : Lane → Lane) (s : State) : (modLane l f s).rings = s.rings := modLane_keeps.rings rfl

@[simp] theorem modLane_lat (l : LaneId) (f : Lane → Lane) (s : State) : (modLane l f s).lat = s.lat := modLane_keeps.lat rfl

@[simp] theorem modLane_fio (l : LaneId) (f : Lane → Lane) (s : State) : (modLane l f s).fio = s.fio := modLane_keeps.fio rfl

@[simp] theorem modLane_snu (l : LaneId) (f : Lane → Lane) (s : State) : (modLane l f s).snu = s.snu := modLane_keeps.snu rfl

@[simp] theorem modLane_evr (l : LaneId) (f : Lane → Lane) (s : State) : (modLane l f s).evr = s.evr := modLane_keeps.evr rfl

@[simp] theorem modLane_sta (l : LaneId) (f : Lane → Lane) (s : State) : (modLane l f s).sta = s.sta := modLane_keeps.sta rfl

@[simp] theorem modLane_upd (l : LaneId) (f : Lane → Lane) (s : State) : (modLane l f s).upd = s.upd := modLane_keeps.upd rfl

@[simp] theorem modLane_lnk (l : LaneId) (f : Lane → Lane) (s : State) : (modLane l f s).lnk = s.lnk := modLane_keeps.lnk rfl

@[simp] theorem modLane_cfg (l : LaneId) (f : Lane → Lane) (s : State) : (modLane l f s).cfg = s.cfg := modLane_keeps.cfg rfl

/-! ### modRing -/

@[simp] theorem modRing_pending (r : Nat) (f : Ring → Ring) (s : State) : (modRing r f s).pending = s.pending := modRing_keeps.pending rfl

@[simp] theorem modRing_sent (r : Nat) (f : Ring → Ring) (s : State) : (modRing r f s).sent = s.sent := modRing_keeps.sent rfl

@[simp] theorem modRing_free (r : Nat) (f : Ring → Ring) (s : State) : (modRing r f s).free = s.free := modRing_keeps.free rfl

@[simp] theorem modRing_clk (r : Nat) (f : Ring → Ring) (s : State) : (modRing r f s).clk = s.clk := modRing_keeps.clk rfl

@[simp] theorem modRing_civ (r : Nat) (f : Ring → Ring) (s : State) : (modRing r f s).civ = s.civ := modRing_keeps.civ rfl

@[simp] theorem modRing_cand (r : Nat) (f : Ring → Ring) (s : State) : (modRing r f s).cand = s.cand := modRing_keeps.cand rfl

@[simp] theorem modRing_pwr (r : Nat) (f : Ring → Ring) (s : State) : (modRing r f s).pwr = s.pwr := modRing_keeps.pwr rfl

@[simp] theorem modRing_tri (r : Nat) (f : Ring → Ring) (s : State) : (modRing r f s).tri = s.tri := modRing_keeps.tri rfl

@[simp] theorem modRing_dbg (r : Nat) (f : Ring → Ring) (s : State) : (modRing r f s).dbg = s.dbg := modRing_keeps.dbg rfl

@[simp] theorem modRing_prg (r : Nat) (f : Ring → Ring) (s : State) : (modRing r f s).prg = s.prg := modRing_keeps.prg rfl

@[simp] theorem modRing_frc (r : Nat) (f : Ring → Ring) (s : State) : (modRing r f s).frc = s.frc := modRing_keeps.frc rfl

@[simp] theorem modRing_mem (r : Nat) (f : Ring → Ring) (s : State) : (modRing r f s).mem = s.mem := modRing_keeps.mem rfl

@[simp] theorem modRing_vm (r : Nat) (f : Ring → Ring) (s : State) : (modRing r f s).vm = s.vm := modRing_keeps.vm rfl

@[simp] theorem modRing_xch (r : Nat) (f : Ring → Ring) (s : State) : (modRing r f s).xch = s.xch := modRing_keeps.xch rfl

@[simp] theorem modRing_regs (r : Nat) (f : Ring → Ring) (s : State) : (modRing r f s).regs = s.regs := modRing_keeps.regs rfl

@[simp] theorem modRing_bus (r : Nat) (f : Ring → Ring) (s : State) : (modRing r f s).bus = s.bus := modRing_keeps.bus rfl

@[simp] theorem modRing_tel (r : Nat) (f : Ring → Ring) (s : State) : (modRing r f s).tel = s.tel := modRing_keeps.tel rfl

@[simp] theorem modRing_lat (r : Nat) (f : Ring → Ring) (s : State) : (modRing r f s).lat = s.lat := modRing_keeps.lat rfl

@[simp] theorem modRing_fio (r : Nat) (f : Ring → Ring) (s : State) : (modRing r f s).fio = s.fio := modRing_keeps.fio rfl

@[simp] theorem modRing_snu (r : Nat) (f : Ring → Ring) (s : State) : (modRing r f s).snu = s.snu := modRing_keeps.snu rfl

@[simp] theorem modRing_evr (r : Nat) (f : Ring → Ring) (s : State) : (modRing r f s).evr = s.evr := modRing_keeps.evr rfl

@[simp] theorem modRing_sta (r : Nat) (f : Ring → Ring) (s : State) : (modRing r f s).sta = s.sta := modRing_keeps.sta rfl

@[simp] theorem modRing_upd (r : Nat) (f : Ring → Ring) (s : State) : (modRing r f s).upd = s.upd := modRing_keeps.upd rfl

@[simp] theorem modRing_lnk (r : Nat) (f : Ring → Ring) (s : State) : (modRing r f s).lnk = s.lnk := modRing_keeps.lnk rfl

@[simp] theorem modRing_cfg (r : Nat) (f : Ring → Ring) (s : State) : (modRing r f s).cfg = s.cfg := modRing_keeps.cfg rfl

/-! ### modPin -/

@[simp] theorem modPin_pending (n : Nat) (f : Pin → Pin) (s : State) : (modPin n f s).pending = s.pending := modPin_keeps.pending rfl

@[simp] theorem modPin_sent (n : Nat) (f : Pin → Pin) (s : State) : (modPin n f s).sent = s.sent := modPin_keeps.sent rfl

@[simp] theorem modPin_free (n : Nat) (f : Pin → Pin) (s : State) : (modPin n f s).free = s.free := modPin_keeps.free rfl

@[simp] theorem modPin_clk (n : Nat) (f : Pin → Pin) (s : State) : (modPin n f s).clk = s.clk := modPin_keeps.clk rfl

@[simp] theorem modPin_civ (n : Nat) (f : Pin → Pin) (s : State) : (modPin n f s).civ = s.civ := modPin_keeps.civ rfl

@[simp] theorem modPin_cand (n : Nat) (f : Pin → Pin) (s : State) : (modPin n f s).cand = s.cand := modPin_keeps.cand rfl

@[simp] theorem modPin_pwr (n : Nat) (f : Pin → Pin) (s : State) : (modPin n f s).pwr = s.pwr := modPin_keeps.pwr rfl

@[simp] theorem modPin_tri (n : Nat) (f : Pin → Pin) (s : State) : (modPin n f s).tri = s.tri := modPin_keeps.tri rfl

@[simp] theorem modPin_dbg (n : Nat) (f : Pin → Pin) (s : State) : (modPin n f s).dbg = s.dbg := modPin_keeps.dbg rfl

@[simp] theorem modPin_prg (n : Nat) (f : Pin → Pin) (s : State) : (modPin n f s).prg = s.prg := modPin_keeps.prg rfl

@[simp] theorem modPin_frc (n : Nat) (f : Pin → Pin) (s : State) : (modPin n f s).frc = s.frc := modPin_keeps.frc rfl

@[simp] theorem modPin_mem (n : Nat) (f : Pin → Pin) (s : State) : (modPin n f s).mem = s.mem := modPin_keeps.mem rfl

@[simp] theorem modPin_vm (n : Nat) (f : Pin → Pin) (s : State) : (modPin n f s).vm = s.vm := modPin_keeps.vm rfl

@[simp] theorem modPin_xch (n : Nat) (f : Pin → Pin) (s : State) : (modPin n f s).xch = s.xch := modPin_keeps.xch rfl

@[simp] theorem modPin_regs (n : Nat) (f : Pin → Pin) (s : State) : (modPin n f s).regs = s.regs := modPin_keeps.regs rfl

@[simp] theorem modPin_bus (n : Nat) (f : Pin → Pin) (s : State) : (modPin n f s).bus = s.bus := modPin_keeps.bus rfl

@[simp] theorem modPin_tel (n : Nat) (f : Pin → Pin) (s : State) : (modPin n f s).tel = s.tel := modPin_keeps.tel rfl

@[simp] theorem modPin_rings (n : Nat) (f : Pin → Pin) (s : State) : (modPin n f s).rings = s.rings := modPin_keeps.rings rfl

@[simp] theorem modPin_lat (n : Nat) (f : Pin → Pin) (s : State) : (modPin n f s).lat = s.lat := modPin_keeps.lat rfl

@[simp] theorem modPin_snu (n : Nat) (f : Pin → Pin) (s : State) : (modPin n f s).snu = s.snu := modPin_keeps.snu rfl

@[simp] theorem modPin_evr (n : Nat) (f : Pin → Pin) (s : State) : (modPin n f s).evr = s.evr := modPin_keeps.evr rfl

@[simp] theorem modPin_sta (n : Nat) (f : Pin → Pin) (s : State) : (modPin n f s).sta = s.sta := modPin_keeps.sta rfl

@[simp] theorem modPin_upd (n : Nat) (f : Pin → Pin) (s : State) : (modPin n f s).upd = s.upd := modPin_keeps.upd rfl

@[simp] theorem modPin_lnk (n : Nat) (f : Pin → Pin) (s : State) : (modPin n f s).lnk = s.lnk := modPin_keeps.lnk rfl

@[simp] theorem modPin_cfg (n : Nat) (f : Pin → Pin) (s : State) : (modPin n f s).cfg = s.cfg := modPin_keeps.cfg rfl

/-! ### modGroup -/

@[simp] theorem modGroup_pending (g : Nat) (f : FGroup → FGroup) (s : State) : (modGroup g f s).pending = s.pending := modGroup_keeps.pending rfl

@[simp] theorem modGroup_sent (g : Nat) (f : FGroup → FGroup) (s : State) : (modGroup g f s).sent = s.sent := modGroup_keeps.sent rfl

@[simp] theorem modGroup_free (g : Nat) (f : FGroup → FGroup) (s : State) : (modGroup g f s).free = s.free := modGroup_keeps.free rfl

@[simp] theorem modGroup_clk (g : Nat) (f : FGroup → FGroup) (s : State) : (modGroup g f s).clk = s.clk := modGroup_keeps.clk rfl

@[simp] theorem modGroup_civ (g : Nat) (f : FGroup → FGroup) (s : State) : (modGroup g f s).civ = s.civ := modGroup_keeps.civ rfl

@[simp] theorem modGroup_cand (g : Nat) (f : FGroup → FGroup) (s : State) : (modGroup g f s).cand = s.cand := modGroup_keeps.cand rfl

@[simp] theorem modGroup_pwr (g : Nat) (f : FGroup → FGroup) (s : State) : (modGroup g f s).pwr = s.pwr := modGroup_keeps.pwr rfl

@[simp] theorem modGroup_tri (g : Nat) (f : FGroup → FGroup) (s : State) : (modGroup g f s).tri = s.tri := modGroup_keeps.tri rfl

@[simp] theorem modGroup_dbg (g : Nat) (f : FGroup → FGroup) (s : State) : (modGroup g f s).dbg = s.dbg := modGroup_keeps.dbg rfl

@[simp] theorem modGroup_prg (g : Nat) (f : FGroup → FGroup) (s : State) : (modGroup g f s).prg = s.prg := modGroup_keeps.prg rfl

@[simp] theorem modGroup_frc (g : Nat) (f : FGroup → FGroup) (s : State) : (modGroup g f s).frc = s.frc := modGroup_keeps.frc rfl

@[simp] theorem modGroup_mem (g : Nat) (f : FGroup → FGroup) (s : State) : (modGroup g f s).mem = s.mem := modGroup_keeps.mem rfl

@[simp] theorem modGroup_vm (g : Nat) (f : FGroup → FGroup) (s : State) : (modGroup g f s).vm = s.vm := modGroup_keeps.vm rfl

@[simp] theorem modGroup_xch (g : Nat) (f : FGroup → FGroup) (s : State) : (modGroup g f s).xch = s.xch := modGroup_keeps.xch rfl

@[simp] theorem modGroup_regs (g : Nat) (f : FGroup → FGroup) (s : State) : (modGroup g f s).regs = s.regs := modGroup_keeps.regs rfl

@[simp] theorem modGroup_bus (g : Nat) (f : FGroup → FGroup) (s : State) : (modGroup g f s).bus = s.bus := modGroup_keeps.bus rfl

@[simp] theorem modGroup_tel (g : Nat) (f : FGroup → FGroup) (s : State) : (modGroup g f s).tel = s.tel := modGroup_keeps.tel rfl

@[simp] theorem modGroup_rings (g : Nat) (f : FGroup → FGroup) (s : State) : (modGroup g f s).rings = s.rings := modGroup_keeps.rings rfl

@[simp] theorem modGroup_lat (g : Nat) (f : FGroup → FGroup) (s : State) : (modGroup g f s).lat = s.lat := modGroup_keeps.lat rfl

@[simp] theorem modGroup_snu (g : Nat) (f : FGroup → FGroup) (s : State) : (modGroup g f s).snu = s.snu := modGroup_keeps.snu rfl

@[simp] theorem modGroup_evr (g : Nat) (f : FGroup → FGroup) (s : State) : (modGroup g f s).evr = s.evr := modGroup_keeps.evr rfl

@[simp] theorem modGroup_sta (g : Nat) (f : FGroup → FGroup) (s : State) : (modGroup g f s).sta = s.sta := modGroup_keeps.sta rfl

@[simp] theorem modGroup_upd (g : Nat) (f : FGroup → FGroup) (s : State) : (modGroup g f s).upd = s.upd := modGroup_keeps.upd rfl

@[simp] theorem modGroup_lnk (g : Nat) (f : FGroup → FGroup) (s : State) : (modGroup g f s).lnk = s.lnk := modGroup_keeps.lnk rfl

@[simp] theorem modGroup_cfg (g : Nat) (f : FGroup → FGroup) (s : State) : (modGroup g f s).cfg = s.cfg := modGroup_keeps.cfg rfl

/-! ### modSnu -/

@[simp] theorem modSnu_pending (g : Nat) (f : SGroup → SGroup) (s : State) : (modSnu g f s).pending = s.pending := modSnu_keeps.pending rfl

@[simp] theorem modSnu_sent (g : Nat) (f : SGroup → SGroup) (s : State) : (modSnu g f s).sent = s.sent := modSnu_keeps.sent rfl

@[simp] theorem modSnu_free (g : Nat) (f : SGroup → SGroup) (s : State) : (modSnu g f s).free = s.free := modSnu_keeps.free rfl

@[simp] theorem modSnu_clk (g : Nat) (f : SGroup → SGroup) (s : State) : (modSnu g f s).clk = s.clk := modSnu_keeps.clk rfl

@[simp] theorem modSnu_civ (g : Nat) (f : SGroup → SGroup) (s : State) : (modSnu g f s).civ = s.civ := modSnu_keeps.civ rfl

@[simp] theorem modSnu_cand (g : Nat) (f : SGroup → SGroup) (s : State) : (modSnu g f s).cand = s.cand := modSnu_keeps.cand rfl

@[simp] theorem modSnu_pwr (g : Nat) (f : SGroup → SGroup) (s : State) : (modSnu g f s).pwr = s.pwr := modSnu_keeps.pwr rfl

@[simp] theorem modSnu_tri (g : Nat) (f : SGroup → SGroup) (s : State) : (modSnu g f s).tri = s.tri := modSnu_keeps.tri rfl

@[simp] theorem modSnu_dbg (g : Nat) (f : SGroup → SGroup) (s : State) : (modSnu g f s).dbg = s.dbg := modSnu_keeps.dbg rfl

@[simp] theorem modSnu_prg (g : Nat) (f : SGroup → SGroup) (s : State) : (modSnu g f s).prg = s.prg := modSnu_keeps.prg rfl

@[simp] theorem modSnu_frc (g : Nat) (f : SGroup → SGroup) (s : State) : (modSnu g f s).frc = s.frc := modSnu_keeps.frc rfl

@[simp] theorem modSnu_mem (g : Nat) (f : SGroup → SGroup) (s : State) : (modSnu g f s).mem = s.mem := modSnu_keeps.mem rfl

@[simp] theorem modSnu_vm (g : Nat) (f : SGroup → SGroup) (s : State) : (modSnu g f s).vm = s.vm := modSnu_keeps.vm rfl

@[simp] theorem modSnu_xch (g : Nat) (f : SGroup → SGroup) (s : State) : (modSnu g f s).xch = s.xch := modSnu_keeps.xch rfl

@[simp] theorem modSnu_regs (g : Nat) (f : SGroup → SGroup) (s : State) : (modSnu g f s).regs = s.regs := modSnu_keeps.regs rfl

@[simp] theorem modSnu_bus (g : Nat) (f : SGroup → SGroup) (s : State) : (modSnu g f s).bus = s.bus := modSnu_keeps.bus rfl

@[simp] theorem modSnu_tel (g : Nat) (f : SGroup → SGroup) (s : State) : (modSnu g f s).tel = s.tel := modSnu_keeps.tel rfl

@[simp] theorem modSnu_rings (g : Nat) (f : SGroup → SGroup) (s : State) : (modSnu g f s).rings = s.rings := modSnu_keeps.rings rfl

@[simp] theorem modSnu_lat (g : Nat) (f : SGroup → SGroup) (s : State) : (modSnu g f s).lat = s.lat := modSnu_keeps.lat rfl

@[simp] theorem modSnu_fio (g : Nat) (f : SGroup → SGroup) (s : State) : (modSnu g f s).fio = s.fio := modSnu_keeps.fio rfl

@[simp] theorem modSnu_evr (g : Nat) (f : SGroup → SGroup) (s : State) : (modSnu g f s).evr = s.evr := modSnu_keeps.evr rfl

@[simp] theorem modSnu_sta (g : Nat) (f : SGroup → SGroup) (s : State) : (modSnu g f s).sta = s.sta := modSnu_keeps.sta rfl

@[simp] theorem modSnu_upd (g : Nat) (f : SGroup → SGroup) (s : State) : (modSnu g f s).upd = s.upd := modSnu_keeps.upd rfl

@[simp] theorem modSnu_lnk (g : Nat) (f : SGroup → SGroup) (s : State) : (modSnu g f s).lnk = s.lnk := modSnu_keeps.lnk rfl

@[simp] theorem modSnu_cfg (g : Nat) (f : SGroup → SGroup) (s : State) : (modSnu g f s).cfg = s.cfg := modSnu_keeps.cfg rfl

/-! ### pinOff -/

@[simp] theorem pinOff_pending (n : Nat) (s : State) : (pinOff n s).pending = s.pending := pinOff_keeps.pending rfl

@[simp] theorem pinOff_free (n : Nat) (s : State) : (pinOff n s).free = s.free := pinOff_keeps.free rfl

@[simp] theorem pinOff_clk (n : Nat) (s : State) : (pinOff n s).clk = s.clk := pinOff_keeps.clk rfl

@[simp] theorem pinOff_civ (n : Nat) (s : State) : (pinOff n s).civ = s.civ := pinOff_keeps.civ rfl

@[simp] theorem pinOff_cand (n : Nat) (s : State) : (pinOff n s).cand = s.cand := pinOff_keeps.cand rfl

@[simp] theorem pinOff_pwr (n : Nat) (s : State) : (pinOff n s).pwr = s.pwr := pinOff_keeps.pwr rfl

@[simp] theorem pinOff_tri (n : Nat) (s : State) : (pinOff n s).tri = s.tri := pinOff_keeps.tri rfl

@[simp] theorem pinOff_dbg (n : Nat) (s : State) : (pinOff n s).dbg = s.dbg := pinOff_keeps.dbg rfl

@[simp] theorem pinOff_prg (n : Nat) (s : State) : (pinOff n s).prg = s.prg := pinOff_keeps.prg rfl

@[simp] theorem pinOff_frc (n : Nat) (s : State) : (pinOff n s).frc = s.frc := pinOff_keeps.frc rfl

@[simp] theorem pinOff_mem (n : Nat) (s : State) : (pinOff n s).mem = s.mem := pinOff_keeps.mem rfl

@[simp] theorem pinOff_vm (n : Nat) (s : State) : (pinOff n s).vm = s.vm := pinOff_keeps.vm rfl

@[simp] theorem pinOff_xch (n : Nat) (s : State) : (pinOff n s).xch = s.xch := pinOff_keeps.xch rfl

@[simp] theorem pinOff_regs (n : Nat) (s : State) : (pinOff n s).regs = s.regs := pinOff_keeps.regs rfl

@[simp] theorem pinOff_bus (n : Nat) (s : State) : (pinOff n s).bus = s.bus := pinOff_keeps.bus rfl

@[simp] theorem pinOff_tel (n : Nat) (s : State) : (pinOff n s).tel = s.tel := pinOff_keeps.tel rfl

@[simp] theorem pinOff_rings (n : Nat) (s : State) : (pinOff n s).rings = s.rings := pinOff_keeps.rings rfl

@[simp] theorem pinOff_lat (n : Nat) (s : State) : (pinOff n s).lat = s.lat := pinOff_keeps.lat rfl

@[simp] theorem pinOff_snu (n : Nat) (s : State) : (pinOff n s).snu = s.snu := pinOff_keeps.snu rfl

@[simp] theorem pinOff_evr (n : Nat) (s : State) : (pinOff n s).evr = s.evr := pinOff_keeps.evr rfl

@[simp] theorem pinOff_sta (n : Nat) (s : State) : (pinOff n s).sta = s.sta := pinOff_keeps.sta rfl

@[simp] theorem pinOff_upd (n : Nat) (s : State) : (pinOff n s).upd = s.upd := pinOff_keeps.upd rfl

@[simp] theorem pinOff_lnk (n : Nat) (s : State) : (pinOff n s).lnk = s.lnk := pinOff_keeps.lnk rfl

@[simp] theorem pinOff_cfg (n : Nat) (s : State) : (pinOff n s).cfg = s.cfg := pinOff_keeps.cfg rfl

/-! ### pinsOff -/

@[simp] theorem pinsOff_pending (l : List Nat) (s : State) : (pinsOff l s).pending = s.pending := pinsOff_keeps.pending rfl

@[simp] theorem pinsOff_free (l : List Nat) (s : State) : (pinsOff l s).free = s.free := pinsOff_keeps.free rfl

@[simp] theorem pinsOff_clk (l : List Nat) (s : State) : (pinsOff l s).clk = s.clk := pinsOff_keeps.clk rfl

@[simp] theorem pinsOff_civ (l : List Nat) (s : State) : (pinsOff l s).civ = s.civ := pinsOff_keeps.civ rfl

@[simp] theorem pinsOff_cand (l : List Nat) (s : State) : (pinsOff l s).cand = s.cand := pinsOff_keeps.cand rfl

@[simp] theorem pinsOff_pwr (l : List Nat) (s : State) : (pinsOff l s).pwr = s.pwr := pinsOff_keeps.pwr rfl

@[simp] theorem pinsOff_tri (l : List Nat) (s : State) : (pinsOff l s).tri = s.tri := pinsOff_keeps.tri rfl

@[simp] theorem pinsOff_dbg (l : List Nat) (s : State) : (pinsOff l s).dbg = s.dbg := pinsOff_keeps.dbg rfl

@[simp] theorem pinsOff_prg (l : List Nat) (s : State) : (pinsOff l s).prg = s.prg := pinsOff_keeps.prg rfl

@[simp] theorem pinsOff_frc (l : List Nat) (s : State) : (pinsOff l s).frc = s.frc := pinsOff_keeps.frc rfl

@[simp] theorem pinsOff_mem (l : List Nat) (s : State) : (pinsOff l s).mem = s.mem := pinsOff_keeps.mem rfl

@[simp] theorem pinsOff_vm (l : List Nat) (s : State) : (pinsOff l s).vm = s.vm := pinsOff_keeps.vm rfl

@[simp] theorem pinsOff_xch (l : List Nat) (s : State) : (pinsOff l s).xch = s.xch := pinsOff_keeps.xch rfl

@[simp] theorem pinsOff_regs (l : List Nat) (s : State) : (pinsOff l s).regs = s.regs := pinsOff_keeps.regs rfl

@[simp] theorem pinsOff_bus (l : List Nat) (s : State) : (pinsOff l s).bus = s.bus := pinsOff_keeps.bus rfl

@[simp] theorem pinsOff_tel (l : List Nat) (s : State) : (pinsOff l s).tel = s.tel := pinsOff_keeps.tel rfl

@[simp] theorem pinsOff_rings (l : List Nat) (s : State) : (pinsOff l s).rings = s.rings := pinsOff_keeps.rings rfl

@[simp] theorem pinsOff_lat (l : List Nat) (s : State) : (pinsOff l s).lat = s.lat := pinsOff_keeps.lat rfl

@[simp] theorem pinsOff_snu (l : List Nat) (s : State) : (pinsOff l s).snu = s.snu := pinsOff_keeps.snu rfl

@[simp] theorem pinsOff_evr (l : List Nat) (s : State) : (pinsOff l s).evr = s.evr := pinsOff_keeps.evr rfl

@[simp] theorem pinsOff_sta (l : List Nat) (s : State) : (pinsOff l s).sta = s.sta := pinsOff_keeps.sta rfl

@[simp] theorem pinsOff_upd (l : List Nat) (s : State) : (pinsOff l s).upd = s.upd := pinsOff_keeps.upd rfl

@[simp] theorem pinsOff_lnk (l : List Nat) (s : State) : (pinsOff l s).lnk = s.lnk := pinsOff_keeps.lnk rfl

@[simp] theorem pinsOff_cfg (l : List Nat) (s : State) : (pinsOff l s).cfg = s.cfg := pinsOff_keeps.cfg rfl

/-! ### dropK -/

@[simp] theorem dropK_pending (g : Nat) (s : State) : (dropK g s).pending = s.pending := dropK_keeps.pending rfl

@[simp] theorem dropK_sent (g : Nat) (s : State) : (dropK g s).sent = s.sent := dropK_keeps.sent rfl

@[simp] theorem dropK_free (g : Nat) (s : State) : (dropK g s).free = s.free := dropK_keeps.free rfl

@[simp] theorem dropK_clk (g : Nat) (s : State) : (dropK g s).clk = s.clk := dropK_keeps.clk rfl

@[simp] theorem dropK_civ (g : Nat) (s : State) : (dropK g s).civ = s.civ := dropK_keeps.civ rfl

@[simp] theorem dropK_cand (g : Nat) (s : State) : (dropK g s).cand = s.cand := dropK_keeps.cand rfl

@[simp] theorem dropK_pwr (g : Nat) (s : State) : (dropK g s).pwr = s.pwr := dropK_keeps.pwr rfl

@[simp] theorem dropK_tri (g : Nat) (s : State) : (dropK g s).tri = s.tri := dropK_keeps.tri rfl

@[simp] theorem dropK_dbg (g : Nat) (s : State) : (dropK g s).dbg = s.dbg := dropK_keeps.dbg rfl

@[simp] theorem dropK_prg (g : Nat) (s : State) : (dropK g s).prg = s.prg := dropK_keeps.prg rfl

@[simp] theorem dropK_frc (g : Nat) (s : State) : (dropK g s).frc = s.frc := dropK_keeps.frc rfl

@[simp] theorem dropK_mem (g : Nat) (s : State) : (dropK g s).mem = s.mem := dropK_keeps.mem rfl

@[simp] theorem dropK_vm (g : Nat) (s : State) : (dropK g s).vm = s.vm := dropK_keeps.vm rfl

@[simp] theorem dropK_xch (g : Nat) (s : State) : (dropK g s).xch = s.xch := dropK_keeps.xch rfl

@[simp] theorem dropK_regs (g : Nat) (s : State) : (dropK g s).regs = s.regs := dropK_keeps.regs rfl

@[simp] theorem dropK_bus (g : Nat) (s : State) : (dropK g s).bus = s.bus := dropK_keeps.bus rfl

@[simp] theorem dropK_tel (g : Nat) (s : State) : (dropK g s).tel = s.tel := dropK_keeps.tel rfl

@[simp] theorem dropK_rings (g : Nat) (s : State) : (dropK g s).rings = s.rings := dropK_keeps.rings rfl

@[simp] theorem dropK_lat (g : Nat) (s : State) : (dropK g s).lat = s.lat := dropK_keeps.lat rfl

@[simp] theorem dropK_fio (g : Nat) (s : State) : (dropK g s).fio = s.fio := dropK_keeps.fio rfl

@[simp] theorem dropK_evr (g : Nat) (s : State) : (dropK g s).evr = s.evr := dropK_keeps.evr rfl

@[simp] theorem dropK_sta (g : Nat) (s : State) : (dropK g s).sta = s.sta := dropK_keeps.sta rfl

@[simp] theorem dropK_upd (g : Nat) (s : State) : (dropK g s).upd = s.upd := dropK_keeps.upd rfl

@[simp] theorem dropK_lnk (g : Nat) (s : State) : (dropK g s).lnk = s.lnk := dropK_keeps.lnk rfl

@[simp] theorem dropK_cfg (g : Nat) (s : State) : (dropK g s).cfg = s.cfg := dropK_keeps.cfg rfl

/-! ### openGroup -/

@[simp] theorem openGroup_pending (g : Nat) (s : State) : (openGroup g s).pending = s.pending := openGroup_keeps.pending rfl

@[simp] theorem openGroup_sent (g : Nat) (s : State) : (openGroup g s).sent = s.sent := openGroup_keeps.sent rfl

@[simp] theorem openGroup_free (g : Nat) (s : State) : (openGroup g s).free = s.free := openGroup_keeps.free rfl

@[simp] theorem openGroup_clk (g : Nat) (s : State) : (openGroup g s).clk = s.clk := openGroup_keeps.clk rfl

@[simp] theorem openGroup_civ (g : Nat) (s : State) : (openGroup g s).civ = s.civ := openGroup_keeps.civ rfl

@[simp] theorem openGroup_cand (g : Nat) (s : State) : (openGroup g s).cand = s.cand := openGroup_keeps.cand rfl

@[simp] theorem openGroup_pwr (g : Nat) (s : State) : (openGroup g s).pwr = s.pwr := openGroup_keeps.pwr rfl

@[simp] theorem openGroup_tri (g : Nat) (s : State) : (openGroup g s).tri = s.tri := openGroup_keeps.tri rfl

@[simp] theorem openGroup_dbg (g : Nat) (s : State) : (openGroup g s).dbg = s.dbg := openGroup_keeps.dbg rfl

@[simp] theorem openGroup_prg (g : Nat) (s : State) : (openGroup g s).prg = s.prg := openGroup_keeps.prg rfl

@[simp] theorem openGroup_frc (g : Nat) (s : State) : (openGroup g s).frc = s.frc := openGroup_keeps.frc rfl

@[simp] theorem openGroup_mem (g : Nat) (s : State) : (openGroup g s).mem = s.mem := openGroup_keeps.mem rfl

@[simp] theorem openGroup_vm (g : Nat) (s : State) : (openGroup g s).vm = s.vm := openGroup_keeps.vm rfl

@[simp] theorem openGroup_xch (g : Nat) (s : State) : (openGroup g s).xch = s.xch := openGroup_keeps.xch rfl

@[simp] theorem openGroup_regs (g : Nat) (s : State) : (openGroup g s).regs = s.regs := openGroup_keeps.regs rfl

@[simp] theorem openGroup_bus (g : Nat) (s : State) : (openGroup g s).bus = s.bus := openGroup_keeps.bus rfl

@[simp] theorem openGroup_tel (g : Nat) (s : State) : (openGroup g s).tel = s.tel := openGroup_keeps.tel rfl

@[simp] theorem openGroup_rings (g : Nat) (s : State) : (openGroup g s).rings = s.rings := openGroup_keeps.rings rfl

@[simp] theorem openGroup_lat (g : Nat) (s : State) : (openGroup g s).lat = s.lat := openGroup_keeps.lat rfl

@[simp] theorem openGroup_fio (g : Nat) (s : State) : (openGroup g s).fio = s.fio := openGroup_keeps.fio rfl

@[simp] theorem openGroup_evr (g : Nat) (s : State) : (openGroup g s).evr = s.evr := openGroup_keeps.evr rfl

@[simp] theorem openGroup_sta (g : Nat) (s : State) : (openGroup g s).sta = s.sta := openGroup_keeps.sta rfl

@[simp] theorem openGroup_upd (g : Nat) (s : State) : (openGroup g s).upd = s.upd := openGroup_keeps.upd rfl

@[simp] theorem openGroup_lnk (g : Nat) (s : State) : (openGroup g s).lnk = s.lnk := openGroup_keeps.lnk rfl

@[simp] theorem openGroup_cfg (g : Nat) (s : State) : (openGroup g s).cfg = s.cfg := openGroup_keeps.cfg rfl

/-! ### consumeToken -/

@[simp] theorem consumeToken_pending (i : Nat) (s : State) : (consumeToken i s).pending = s.pending := consumeToken_keeps.pending rfl

@[simp] theorem consumeToken_sent (i : Nat) (s : State) : (consumeToken i s).sent = s.sent := consumeToken_keeps.sent rfl

@[simp] theorem consumeToken_free (i : Nat) (s : State) : (consumeToken i s).free = s.free := consumeToken_keeps.free rfl

@[simp] theorem consumeToken_clk (i : Nat) (s : State) : (consumeToken i s).clk = s.clk := consumeToken_keeps.clk rfl

@[simp] theorem consumeToken_civ (i : Nat) (s : State) : (consumeToken i s).civ = s.civ := consumeToken_keeps.civ rfl

@[simp] theorem consumeToken_cand (i : Nat) (s : State) : (consumeToken i s).cand = s.cand := consumeToken_keeps.cand rfl

@[simp] theorem consumeToken_pwr (i : Nat) (s : State) : (consumeToken i s).pwr = s.pwr := consumeToken_keeps.pwr rfl

@[simp] theorem consumeToken_tri (i : Nat) (s : State) : (consumeToken i s).tri = s.tri := consumeToken_keeps.tri rfl

@[simp] theorem consumeToken_dbg (i : Nat) (s : State) : (consumeToken i s).dbg = s.dbg := consumeToken_keeps.dbg rfl

@[simp] theorem consumeToken_frc (i : Nat) (s : State) : (consumeToken i s).frc = s.frc := consumeToken_keeps.frc rfl

@[simp] theorem consumeToken_mem (i : Nat) (s : State) : (consumeToken i s).mem = s.mem := consumeToken_keeps.mem rfl

@[simp] theorem consumeToken_vm (i : Nat) (s : State) : (consumeToken i s).vm = s.vm := consumeToken_keeps.vm rfl

@[simp] theorem consumeToken_xch (i : Nat) (s : State) : (consumeToken i s).xch = s.xch := consumeToken_keeps.xch rfl

@[simp] theorem consumeToken_regs (i : Nat) (s : State) : (consumeToken i s).regs = s.regs := consumeToken_keeps.regs rfl

@[simp] theorem consumeToken_bus (i : Nat) (s : State) : (consumeToken i s).bus = s.bus := consumeToken_keeps.bus rfl

@[simp] theorem consumeToken_tel (i : Nat) (s : State) : (consumeToken i s).tel = s.tel := consumeToken_keeps.tel rfl

@[simp] theorem consumeToken_rings (i : Nat) (s : State) : (consumeToken i s).rings = s.rings := consumeToken_keeps.rings rfl

@[simp] theorem consumeToken_lat (i : Nat) (s : State) : (consumeToken i s).lat = s.lat := consumeToken_keeps.lat rfl

@[simp] theorem consumeToken_fio (i : Nat) (s : State) : (consumeToken i s).fio = s.fio := consumeToken_keeps.fio rfl

@[simp] theorem consumeToken_snu (i : Nat) (s : State) : (consumeToken i s).snu = s.snu := consumeToken_keeps.snu rfl

@[simp] theorem consumeToken_evr (i : Nat) (s : State) : (consumeToken i s).evr = s.evr := consumeToken_keeps.evr rfl

@[simp] theorem consumeToken_sta (i : Nat) (s : State) : (consumeToken i s).sta = s.sta := consumeToken_keeps.sta rfl

@[simp] theorem consumeToken_upd (i : Nat) (s : State) : (consumeToken i s).upd = s.upd := consumeToken_keeps.upd rfl

@[simp] theorem consumeToken_lnk (i : Nat) (s : State) : (consumeToken i s).lnk = s.lnk := consumeToken_keeps.lnk rfl

@[simp] theorem consumeToken_cfg (i : Nat) (s : State) : (consumeToken i s).cfg = s.cfg := consumeToken_keeps.cfg rfl

/-! ### begin' -/

@[simp] theorem begin'_pending (dt : Nat) (s : State) : (begin' dt s).pending = s.pending := begin'_keeps.pending rfl

@[simp] theorem begin'_free (dt : Nat) (s : State) : (begin' dt s).free = s.free := begin'_keeps.free rfl

@[simp] theorem begin'_pwr (dt : Nat) (s : State) : (begin' dt s).pwr = s.pwr := begin'_keeps.pwr rfl

@[simp] theorem begin'_tri (dt : Nat) (s : State) : (begin' dt s).tri = s.tri := begin'_keeps.tri rfl

@[simp] theorem begin'_dbg (dt : Nat) (s : State) : (begin' dt s).dbg = s.dbg := begin'_keeps.dbg rfl

@[simp] theorem begin'_frc (dt : Nat) (s : State) : (begin' dt s).frc = s.frc := begin'_keeps.frc rfl

@[simp] theorem begin'_mem (dt : Nat) (s : State) : (begin' dt s).mem = s.mem := begin'_keeps.mem rfl

@[simp] theorem begin'_vm (dt : Nat) (s : State) : (begin' dt s).vm = s.vm := begin'_keeps.vm rfl

@[simp] theorem begin'_xch (dt : Nat) (s : State) : (begin' dt s).xch = s.xch := begin'_keeps.xch rfl

@[simp] theorem begin'_regs (dt : Nat) (s : State) : (begin' dt s).regs = s.regs := begin'_keeps.regs rfl

@[simp] theorem begin'_tel (dt : Nat) (s : State) : (begin' dt s).tel = s.tel := begin'_keeps.tel rfl

@[simp] theorem begin'_rings (dt : Nat) (s : State) : (begin' dt s).rings = s.rings := begin'_keeps.rings rfl

@[simp] theorem begin'_lat (dt : Nat) (s : State) : (begin' dt s).lat = s.lat := begin'_keeps.lat rfl

@[simp] theorem begin'_fio (dt : Nat) (s : State) : (begin' dt s).fio = s.fio := begin'_keeps.fio rfl

@[simp] theorem begin'_snu (dt : Nat) (s : State) : (begin' dt s).snu = s.snu := begin'_keeps.snu rfl

@[simp] theorem begin'_evr (dt : Nat) (s : State) : (begin' dt s).evr = s.evr := begin'_keeps.evr rfl

@[simp] theorem begin'_sta (dt : Nat) (s : State) : (begin' dt s).sta = s.sta := begin'_keeps.sta rfl

@[simp] theorem begin'_upd (dt : Nat) (s : State) : (begin' dt s).upd = s.upd := begin'_keeps.upd rfl

@[simp] theorem begin'_cfg (dt : Nat) (s : State) : (begin' dt s).cfg = s.cfg := begin'_keeps.cfg rfl

@[simp] theorem takeFree_word (s : State) : (takeFree s).1 = Config.freeValue s.free := rfl

@[simp] theorem takeFree_pending (s : State) : (takeFree s).2.pending = s.pending := rfl

@[simp] theorem takeFree_sent (s : State) : (takeFree s).2.sent = s.sent := rfl

@[simp] theorem takeFree_clk (s : State) : (takeFree s).2.clk = s.clk := rfl

@[simp] theorem takeFree_civ (s : State) : (takeFree s).2.civ = s.civ := rfl

@[simp] theorem takeFree_cand (s : State) : (takeFree s).2.cand = s.cand := rfl

@[simp] theorem takeFree_pwr (s : State) : (takeFree s).2.pwr = s.pwr := rfl

@[simp] theorem takeFree_tri (s : State) : (takeFree s).2.tri = s.tri := rfl

@[simp] theorem takeFree_dbg (s : State) : (takeFree s).2.dbg = s.dbg := rfl

@[simp] theorem takeFree_prg (s : State) : (takeFree s).2.prg = s.prg := rfl

@[simp] theorem takeFree_frc (s : State) : (takeFree s).2.frc = s.frc := rfl

@[simp] theorem takeFree_mem (s : State) : (takeFree s).2.mem = s.mem := rfl

@[simp] theorem takeFree_vm (s : State) : (takeFree s).2.vm = s.vm := rfl

@[simp] theorem takeFree_xch (s : State) : (takeFree s).2.xch = s.xch := rfl

@[simp] theorem takeFree_regs (s : State) : (takeFree s).2.regs = s.regs := rfl

@[simp] theorem takeFree_bus (s : State) : (takeFree s).2.bus = s.bus := rfl

@[simp] theorem takeFree_tel (s : State) : (takeFree s).2.tel = s.tel := rfl

@[simp] theorem takeFree_rings (s : State) : (takeFree s).2.rings = s.rings := rfl

@[simp] theorem takeFree_lat (s : State) : (takeFree s).2.lat = s.lat := rfl

@[simp] theorem takeFree_fio (s : State) : (takeFree s).2.fio = s.fio := rfl

@[simp] theorem takeFree_snu (s : State) : (takeFree s).2.snu = s.snu := rfl

@[simp] theorem takeFree_evr (s : State) : (takeFree s).2.evr = s.evr := rfl

@[simp] theorem takeFree_sta (s : State) : (takeFree s).2.sta = s.sta := rfl

@[simp] theorem takeFree_upd (s : State) : (takeFree s).2.upd = s.upd := rfl

@[simp] theorem takeFree_lnk (s : State) : (takeFree s).2.lnk = s.lnk := rfl

@[simp] theorem takeFree_cfg (s : State) : (takeFree s).2.cfg = s.cfg := rfl

/-! ### Registers -/

theorem assocGet_assocSet {α : Type} (k j : Nat) (v : α) : ∀ (l : List (Nat × α)), assocGet j (assocSet k v l) = if k = j then some v else assocGet j l
  | [] => by simp only [assocSet, assocGet]
  | (i, w) :: t => by
    have ih := assocGet_assocSet k j v t
    simp only [assocSet]
    split
    · subst_vars
      simp only [assocGet]
      split <;> rfl
    · split
      · simp only [assocGet]
      · simp only [assocGet, ih]
        split
        · split
          · omega
          · rfl
        · rfl

/-! ### The clocks at the start of a command: what of civil time, the candle domain, the clock and the program stays -/

@[simp] theorem setCivil_st (ns frac : Nat) (c : Civil) : (setCivil ns frac c).st = c.st := rfl

@[simp] theorem setCivil_pending (ns frac : Nat) (c : Civil) : (setCivil ns frac c).pending = c.pending := rfl

@[simp] theorem setCivil_refusedAt (ns frac : Nat) (c : Civil) : (setCivil ns frac c).refusedAt = c.refusedAt := rfl

@[simp] theorem setCivil_wdogFrom (ns frac : Nat) (c : Civil) : (setCivil ns frac c).wdogFrom = c.wdogFrom := rfl

@[simp] theorem setCivil_first (ns frac : Nat) (c : Civil) : (setCivil ns frac c).first = c.first := rfl

@[simp] theorem setCivil_shSt (ns frac : Nat) (c : Civil) : (setCivil ns frac c).shSt = c.shSt := rfl

@[simp] theorem setCivil_shNs (ns frac : Nat) (c : Civil) : (setCivil ns frac c).shNs = c.shNs := rfl

@[simp] theorem setCivil_shFrac (ns frac : Nat) (c : Civil) : (setCivil ns frac c).shFrac = c.shFrac := rfl

@[simp] theorem setCivil_rtcValid (ns frac : Nat) (c : Civil) : (setCivil ns frac c).rtcValid = c.rtcValid := rfl

@[simp] theorem setCivil_anchorValid (ns frac : Nat) (c : Civil) : (setCivil ns frac c).anchorValid = c.anchorValid := rfl

@[simp] theorem setCivil_rtcWroteAt (ns frac : Nat) (c : Civil) : (setCivil ns frac c).rtcWroteAt = c.rtcWroteAt := rfl

@[simp] theorem setRtc_rtcLost (sec sub rem : Nat) (c : Candle) : (setRtc sec sub rem c).rtcLost = c.rtcLost := rfl

@[simp] theorem setRtc_framErr (sec sub rem : Nat) (c : Candle) : (setRtc sec sub rem c).framErr = c.framErr := rfl

@[simp] theorem setRtc_framProt (sec sub rem : Nat) (c : Candle) : (setRtc sec sub rem c).framProt = c.framProt := rfl

@[simp] theorem setRtc_shHi (sec sub rem : Nat) (c : Candle) : (setRtc sec sub rem c).shHi = c.shHi := rfl

@[simp] theorem setRtc_shSub (sec sub rem : Nat) (c : Candle) : (setRtc sec sub rem c).shSub = c.shSub := rfl

@[simp] theorem setRtc_cause (sec sub rem : Nat) (c : Candle) : (setRtc sec sub rem c).cause = c.cause := rfl

@[simp] theorem setRtc_sdResult (sec sub rem : Nat) (c : Candle) : (setRtc sec sub rem c).sdResult = c.sdResult := rfl

@[simp] theorem setRtc_autoOk (sec sub rem : Nat) (c : Candle) : (setRtc sec sub rem c).autoOk = c.autoOk := rfl

@[simp] theorem setRtc_bootStep (sec sub rem : Nat) (c : Candle) : (setRtc sec sub rem c).bootStep = c.bootStep := rfl

@[simp] theorem setRtc_bootFail (sec sub rem : Nat) (c : Candle) : (setRtc sec sub rem c).bootFail = c.bootFail := rfl

@[simp] theorem setRtc_sel (sec sub rem : Nat) (c : Candle) : (setRtc sec sub rem c).sel = c.sel := rfl

@[simp] theorem setRtc_sd (sec sub rem : Nat) (c : Candle) : (setRtc sec sub rem c).sd = c.sd := rfl

@[simp] theorem setRtc_anchor (sec sub rem : Nat) (c : Candle) : (setRtc sec sub rem c).anchor = c.anchor := rfl

@[simp] theorem setRtc_session (sec sub rem : Nat) (c : Candle) : (setRtc sec sub rem c).session = c.session := rfl

@[simp] theorem setRtc_light (sec sub rem : Nat) (c : Candle) : (setRtc sec sub rem c).light = c.light := rfl

@[simp] theorem setRtc_stat (sec sub rem : Nat) (c : Candle) : (setRtc sec sub rem c).stat = c.stat := rfl

@[simp] theorem setRtc_fuses (sec sub rem : Nat) (c : Candle) : (setRtc sec sub rem c).fuses = c.fuses := rfl

@[simp] theorem setPos_cycle (pos up : Nat) (c : Clock) : (setPos pos up c).cycle = c.cycle := rfl

@[simp] theorem setPos_corr (pos up : Nat) (c : Clock) : (setPos pos up c).corr = c.corr := rfl

@[simp] theorem setPos_carry (pos up : Nat) (c : Clock) : (setPos pos up c).carry = c.carry := rfl

@[simp] theorem setPos_prov (pos up : Nat) (c : Clock) : (setPos pos up c).prov = c.prov := rfl

@[simp] theorem setPos_provHeld (pos up : Nat) (c : Clock) : (setPos pos up c).provHeld = c.provHeld := rfl

@[simp] theorem setPos_epochNearAt (pos up : Nat) (c : Clock) : (setPos pos up c).epochNearAt = c.epochNearAt := rfl

@[simp] theorem setRun_mode (l : List Release) (u : Nat) (c : Program) : (setRun l u c).mode = c.mode := rfl

@[simp] theorem setRun_cause (l : List Release) (u : Nat) (c : Program) : (setRun l u c).cause = c.cause := rfl

@[simp] theorem setRun_reqNormal (l : List Release) (u : Nat) (c : Program) : (setRun l u c).reqNormal = c.reqNormal := rfl

@[simp] theorem setRun_reqTest (l : List Release) (u : Nat) (c : Program) : (setRun l u c).reqTest = c.reqTest := rfl

@[simp] theorem setRun_tasks (l : List Release) (u : Nat) (c : Program) : (setRun l u c).tasks = c.tasks := rfl

@[simp] theorem setRun_idle (l : List Release) (u : Nat) (c : Program) : (setRun l u c).idle = c.idle := rfl

@[simp] theorem setRun_normalAt (l : List Release) (u : Nat) (c : Program) : (setRun l u c).normalAt = c.normalAt := rfl

@[simp] theorem setRun_live (l : List Release) (u : Nat) (c : Program) : (setRun l u c).live = c.live := rfl

@[simp] theorem setRun_img (l : List Release) (u : Nat) (c : Program) : (setRun l u c).img = c.img := rfl

@[simp] theorem setRun_applied (l : List Release) (u : Nat) (c : Program) : (setRun l u c).applied = c.applied := rfl

@[simp] theorem setRun_tokUsed (l : List Release) (u : Nat) (c : Program) : (setRun l u c).tokUsed = c.tokUsed := rfl

@[simp] theorem setRun_tokVer (l : List Release) (u : Nat) (c : Program) : (setRun l u c).tokVer = c.tokVer := rfl

@[simp] theorem setRun_cps (l : List Release) (u : Nat) (c : Program) : (setRun l u c).cps = c.cps := rfl

@[simp] theorem setRun_cpNext (l : List Release) (u : Nat) (c : Program) : (setRun l u c).cpNext = c.cpNext := rfl

@[simp] theorem setRun_cpFired (l : List Release) (u : Nat) (c : Program) : (setRun l u c).cpFired = c.cpFired := rfl

@[simp] theorem setRun_frozen (l : List Release) (u : Nat) (c : Program) : (setRun l u c).frozen = c.frozen := rfl

@[simp] theorem setRun_appliedNow (l : List Release) (u : Nat) (c : Program) : (setRun l u c).appliedNow = c.appliedNow := rfl

@[simp] theorem setRun_releaseHeld (l : List Release) (u : Nat) (c : Program) : (setRun l u c).releaseHeld = c.releaseHeld := rfl

@[simp] theorem setRun_majorAt (l : List Release) (u : Nat) (c : Program) : (setRun l u c).majorAt = c.majorAt := rfl

/-- The pumps of the bus ports write the ports and `FWD_CLASH` alone, and keep a port's link (R270, R272). -/
theorem portFrame_bus (p : Nat) (x : OutFrame) (s : State) :
    ∃ l c, (portFrame p x s).bus = { s.bus with ports := l, clash := c } := by
  unfold portFrame
  extract_lets b t
  clear_value t b
  split
  · exact ⟨_, _, rfl⟩
  · split
    · exact ⟨_, _, rfl⟩
    · exact ⟨_, _, rfl⟩

theorem portFrames_bus (p : Nat) : ∀ (q : List OutFrame) (s : State),
    ∃ l c, (q.foldl (fun s x => portFrame p x s) s).bus = { s.bus with ports := l, clash := c }
  | [], s => ⟨s.bus.ports, s.bus.clash, rfl⟩
  | x :: q, s => by
    obtain ⟨l, c, h⟩ := portFrame_bus p x s
    obtain ⟨l', c', h'⟩ := portFrames_bus p q (portFrame p x s)
    exact ⟨l', c', by rw [List.foldl_cons, h', h]⟩

theorem pumpPort_bus (p : Nat) (s : State) : ∃ l c, (pumpPort p s).bus = { s.bus with ports := l, clash := c } := by
  obtain ⟨l, c, h⟩ := portFrames_bus p (busPort p s).out (modPort p (fun k => { k with out := [] }) s)
  exact ⟨l, c, h⟩

theorem pumpPorts_bus (s : State) : ∃ l c, (pumpPorts s).bus = { s.bus with ports := l, clash := c } := by
  obtain ⟨l, c, h⟩ := pumpPort_bus 0 s
  obtain ⟨l1, c1, h1⟩ := pumpPort_bus 1 (pumpPort 0 s)
  obtain ⟨l2, c2, h2⟩ := pumpPort_bus 2 (pumpPort 1 (pumpPort 0 s))
  obtain ⟨l3, c3, h3⟩ := pumpPort_bus 3 (pumpPort 2 (pumpPort 1 (pumpPort 0 s)))
  exact ⟨l3, c3, by rw [pumpPorts, h3, h2, h1, h]⟩

/-- The pumps of the module links write the links, the sequence of stream 2 and the place of the copy alone (R54, R57). -/
theorem pumpLink_lnk (l : Nat) : ∀ (n : Nat) (s : State),
    ∃ k x a, (pumpLink l n s).lnk = { s.lnk with l := k, tx2 := x, copyAt := a }
  | 0, s => ⟨s.lnk.l, s.lnk.tx2, s.lnk.copyAt, rfl⟩
  | n + 1, s => by
    simp only [pumpLink]
    split
    · exact ⟨s.lnk.l, s.lnk.tx2, s.lnk.copyAt, rfl⟩
    · split
      · rename_i x rest _
        obtain ⟨k, y, a, h⟩ := pumpLink_lnk l n (transmit l (link l s).busyTo x (modLink l (fun k => { k with queue := rest }) s))
        exact ⟨k, y, a, h⟩
      · split
        · split
          · rename_i x t e
            obtain ⟨k, y, a, h⟩ := pumpLink_lnk l n (transmit l (link l s).busyTo x t)
            have g : ∃ y a, t.lnk = { s.lnk with tx2 := y, copyAt := a } := by
              simp only [copyNext, mirrorItem, if_true] at e
              split at e
              · split at e
                · split at e
                  · cases e
                    exact ⟨_, _, rfl⟩
                  · cases e
                · cases e
              · cases e
            obtain ⟨y', a', g⟩ := g
            exact ⟨k, y, a, by rw [h]; simp only [transmit, send, modLink, g]⟩
          · exact ⟨s.lnk.l, s.lnk.tx2, s.lnk.copyAt, rfl⟩
        · exact ⟨s.lnk.l, s.lnk.tx2, s.lnk.copyAt, rfl⟩

theorem pumpLinks_lnk (n : Nat) (s : State) : ∃ k x a, (pumpLinks n s).lnk = { s.lnk with l := k, tx2 := x, copyAt := a } := by
  obtain ⟨k, x, a, h⟩ := pumpLink_lnk 0 (n + 2) s
  obtain ⟨k1, x1, a1, h1⟩ := pumpLink_lnk 1 (n + 2) (pumpLink 0 (n + 2) s)
  obtain ⟨k2, x2, a2, h2⟩ := pumpLink_lnk 2 (n + 2) (pumpLink 1 (n + 2) (pumpLink 0 (n + 2) s))
  exact ⟨k2, x2, a2, by rw [pumpLinks, h2, h1, h]⟩

theorem execAdvance_prg_eq (dt : Nat) (s : State) : (execAdvance dt s).prg = s.prg ∨ ∃ l u, (execAdvance dt s).prg = setRun l u s.prg := by
  simp only [execAdvance]
  split
  · exact .inl rfl
  · exact .inr ⟨_, _, rfl⟩

theorem begin'_bus_eq (dt : Nat) (s : State) : ∃ l c, (begin' dt s).bus = { s.bus with ports := l, clash := c } := by
  simp only [begin']
  split
  · obtain ⟨l, c, h⟩ := pumpPorts_bus (pumpLinks dt { execAdvance dt (civilAdvance dt (rtcAdvance dt { s with sent := [] })) with
      clk := setPos (min ((execAdvance dt (civilAdvance dt (rtcAdvance dt { s with sent := [] }))).clk.pos + dt) (cycleTicks (execAdvance dt (civilAdvance dt (rtcAdvance dt { s with sent := [] }))) - 1)) ((execAdvance dt (civilAdvance dt (rtcAdvance dt { s with sent := [] }))).clk.up + dt) (execAdvance dt (civilAdvance dt (rtcAdvance dt { s with sent := [] }))).clk })
    have e : (rtcAdvance dt { s with sent := [] }).bus = s.bus := rtcAdvance_keeps.bus rfl
    have e1 := (civilAdvance_keeps (b0 := dt) (s := rtcAdvance dt { s with sent := [] })).bus rfl
    have e2 := (execAdvance_keeps (b0 := dt) (s := civilAdvance dt (rtcAdvance dt { s with sent := [] }))).bus rfl
    refine ⟨l, c, ?_⟩
    rw [h, pumpLinks_keeps.bus rfl]
    show { (execAdvance dt (civilAdvance dt (rtcAdvance dt { s with sent := [] }))).bus with ports := l, clash := c } = _
    rw [e2, e1, e]
  · exact ⟨s.bus.ports, s.bus.clash, rtcAdvance_keeps.bus rfl⟩

theorem begin'_lnk_eq (dt : Nat) (s : State) : ∃ k x a, (begin' dt s).lnk = { s.lnk with l := k, tx2 := x, copyAt := a } := by
  simp only [begin']
  split
  · obtain ⟨k, x, a, h⟩ := pumpLinks_lnk dt { execAdvance dt (civilAdvance dt (rtcAdvance dt { s with sent := [] })) with
      clk := setPos (min ((execAdvance dt (civilAdvance dt (rtcAdvance dt { s with sent := [] }))).clk.pos + dt) (cycleTicks (execAdvance dt (civilAdvance dt (rtcAdvance dt { s with sent := [] }))) - 1)) ((execAdvance dt (civilAdvance dt (rtcAdvance dt { s with sent := [] }))).clk.up + dt) (execAdvance dt (civilAdvance dt (rtcAdvance dt { s with sent := [] }))).clk }
    have e : (rtcAdvance dt { s with sent := [] }).lnk = s.lnk := rtcAdvance_keeps.lnk rfl
    have e1 := (civilAdvance_keeps (b0 := dt) (s := rtcAdvance dt { s with sent := [] })).lnk rfl
    have e2 := (execAdvance_keeps (b0 := dt) (s := civilAdvance dt (rtcAdvance dt { s with sent := [] }))).lnk rfl
    refine ⟨k, x, a, ?_⟩
    rw [pumpPorts_keeps.lnk rfl, h]
    show { (execAdvance dt (civilAdvance dt (rtcAdvance dt { s with sent := [] }))).lnk with l := k, tx2 := x, copyAt := a } = _
    rw [e2, e1, e]
  · exact ⟨s.lnk.l, s.lnk.tx2, s.lnk.copyAt, rtcAdvance_keeps.lnk rfl⟩

/-- What the start of a command makes of a part that the pumps do not write. -/
theorem begin'_part {α : Type} (g : State → α) (dt : Nat) (s : State)
    (hl : ∀ t, g (pumpLinks dt t) = g t) (hp : ∀ t, g (pumpPorts t) = g t) :
    g (begin' dt s) = g (let r := rtcAdvance dt { s with sent := [] }
      if powered r then (let v := execAdvance dt (civilAdvance dt r); { v with clk := setPos (min (v.clk.pos + dt) (cycleTicks v - 1)) (v.clk.up + dt) v.clk }) else r) := by
  simp only [begin']
  split
  · rw [hp, hl]
  · rfl

theorem begin'_cand_eq (dt : Nat) (s : State) : (begin' dt s).cand = (rtcAdvance dt { s with sent := [] }).cand := by
  rw [begin'_part (·.cand) dt s (fun _ => pumpLinks_keeps.cand rfl) (fun _ => pumpPorts_keeps.cand rfl)]
  dsimp only
  split
  · exact (execAdvance_keeps.cand rfl).trans (civilAdvance_keeps.cand rfl)
  · rfl

theorem begin'_prg_eq (dt : Nat) (s : State) : (begin' dt s).prg = s.prg ∨ ∃ l u, (begin' dt s).prg = setRun l u s.prg := by
  have r : (rtcAdvance dt { s with sent := [] }).prg = s.prg := rtcAdvance_keeps.prg rfl
  have c := (civilAdvance_keeps (b0 := dt) (s := rtcAdvance dt { s with sent := [] })).prg rfl
  have e := execAdvance_prg_eq dt (civilAdvance dt (rtcAdvance dt { s with sent := [] }))
  rw [c, r] at e
  rw [begin'_part (·.prg) dt s (fun _ => pumpLinks_keeps.prg rfl) (fun _ => pumpPorts_keeps.prg rfl)]
  dsimp only
  split
  · exact e
  · exact .inl r

theorem begin'_civ_eq (dt : Nat) (s : State) : (begin' dt s).civ = s.civ ∨ ∃ n f, (begin' dt s).civ = setCivil n f s.civ := by
  have r : (rtcAdvance dt { s with sent := [] }).civ = s.civ := rtcAdvance_keeps.civ rfl
  have c : ∃ n f, (civilAdvance dt (rtcAdvance dt { s with sent := [] })).civ = setCivil n f s.civ := by
    simp only [civilAdvance]
    rw [r]
    exact ⟨_, _, rfl⟩
  have e := (execAdvance_keeps (b0 := dt) (s := civilAdvance dt (rtcAdvance dt { s with sent := [] }))).civ rfl
  rw [← e] at c
  rw [begin'_part (·.civ) dt s (fun _ => pumpLinks_keeps.civ rfl) (fun _ => pumpPorts_keeps.civ rfl)]
  dsimp only
  split
  · exact .inr c
  · exact .inl r

theorem begin'_clk_eq (dt : Nat) (s : State) : (begin' dt s).clk = s.clk ∨ ∃ p u, (begin' dt s).clk = setPos p u s.clk := by
  have r : (rtcAdvance dt { s with sent := [] }).clk = s.clk := rtcAdvance_keeps.clk rfl
  have c := (civilAdvance_keeps (b0 := dt) (s := rtcAdvance dt { s with sent := [] })).clk rfl
  have e := (execAdvance_keeps (b0 := dt) (s := civilAdvance dt (rtcAdvance dt { s with sent := [] }))).clk rfl
  rw [c, r] at e
  rw [begin'_part (·.clk) dt s (fun _ => pumpLinks_keeps.clk rfl) (fun _ => pumpPorts_keeps.clk rfl)]
  dsimp only
  generalize execAdvance dt (civilAdvance dt (rtcAdvance dt { s with sent := [] })) = v at e
  split
  · refine .inr ⟨min (v.clk.pos + dt) (cycleTicks v - 1), v.clk.up + dt, ?_⟩
    rw [← e]
  · exact .inl r

@[simp] theorem begin'_bus_st (dt : Nat) (s : State) : (begin' dt s).bus.st = s.bus.st := by
  obtain ⟨_, _, h⟩ := begin'_bus_eq dt s
  rw [h]

@[simp] theorem begin'_bus_leader (dt : Nat) (s : State) : (begin' dt s).bus.leader = s.bus.leader := by
  obtain ⟨_, _, h⟩ := begin'_bus_eq dt s
  rw [h]

@[simp] theorem begin'_bus_ref (dt : Nat) (s : State) : (begin' dt s).bus.ref = s.bus.ref := by
  obtain ⟨_, _, h⟩ := begin'_bus_eq dt s
  rw [h]

@[simp] theorem begin'_bus_everInt (dt : Nat) (s : State) : (begin' dt s).bus.everInt = s.bus.everInt := by
  obtain ⟨_, _, h⟩ := begin'_bus_eq dt s
  rw [h]

@[simp] theorem begin'_bus_adopted (dt : Nat) (s : State) : (begin' dt s).bus.adopted = s.bus.adopted := by
  obtain ⟨_, _, h⟩ := begin'_bus_eq dt s
  rw [h]

@[simp] theorem begin'_bus_since (dt : Nat) (s : State) : (begin' dt s).bus.since = s.bus.since := by
  obtain ⟨_, _, h⟩ := begin'_bus_eq dt s
  rw [h]

@[simp] theorem begin'_bus_attempt (dt : Nat) (s : State) : (begin' dt s).bus.attempt = s.bus.attempt := by
  obtain ⟨_, _, h⟩ := begin'_bus_eq dt s
  rw [h]

@[simp] theorem begin'_bus_csSent (dt : Nat) (s : State) : (begin' dt s).bus.csSent = s.bus.csSent := by
  obtain ⟨_, _, h⟩ := begin'_bus_eq dt s
  rw [h]

@[simp] theorem begin'_bus_csThis (dt : Nat) (s : State) : (begin' dt s).bus.csThis = s.bus.csThis := by
  obtain ⟨_, _, h⟩ := begin'_bus_eq dt s
  rw [h]

@[simp] theorem begin'_bus_csBar (dt : Nat) (s : State) : (begin' dt s).bus.csBar = s.bus.csBar := by
  obtain ⟨_, _, h⟩ := begin'_bus_eq dt s
  rw [h]

@[simp] theorem begin'_bus_dlyX (dt : Nat) (s : State) : (begin' dt s).bus.dlyX = s.bus.dlyX := by
  obtain ⟨_, _, h⟩ := begin'_bus_eq dt s
  rw [h]

@[simp] theorem begin'_bus_dlyY (dt : Nat) (s : State) : (begin' dt s).bus.dlyY = s.bus.dlyY := by
  obtain ⟨_, _, h⟩ := begin'_bus_eq dt s
  rw [h]

@[simp] theorem begin'_bus_dlyNew (dt : Nat) (s : State) : (begin' dt s).bus.dlyNew = s.bus.dlyNew := by
  obtain ⟨_, _, h⟩ := begin'_bus_eq dt s
  rw [h]

@[simp] theorem begin'_bus_hear (dt : Nat) (s : State) : (begin' dt s).bus.hear = s.bus.hear := by
  obtain ⟨_, _, h⟩ := begin'_bus_eq dt s
  rw [h]

@[simp] theorem begin'_bus_early (dt : Nat) (s : State) : (begin' dt s).bus.early = s.bus.early := by
  obtain ⟨_, _, h⟩ := begin'_bus_eq dt s
  rw [h]

@[simp] theorem begin'_bus_rate (dt : Nat) (s : State) : (begin' dt s).bus.rate = s.bus.rate := by
  obtain ⟨_, _, h⟩ := begin'_bus_eq dt s
  rw [h]

@[simp] theorem begin'_bus_first (dt : Nat) (s : State) : (begin' dt s).bus.first = s.bus.first := by
  obtain ⟨_, _, h⟩ := begin'_bus_eq dt s
  rw [h]

@[simp] theorem begin'_bus_lastFull (dt : Nat) (s : State) : (begin' dt s).bus.lastFull = s.bus.lastFull := by
  obtain ⟨_, _, h⟩ := begin'_bus_eq dt s
  rw [h]

@[simp] theorem begin'_bus_consist (dt : Nat) (s : State) : (begin' dt s).bus.consist = s.bus.consist := by
  obtain ⟨_, _, h⟩ := begin'_bus_eq dt s
  rw [h]

@[simp] theorem begin'_bus_missed (dt : Nat) (s : State) : (begin' dt s).bus.missed = s.bus.missed := by
  obtain ⟨_, _, h⟩ := begin'_bus_eq dt s
  rw [h]

@[simp] theorem begin'_bus_heardPrev (dt : Nat) (s : State) : (begin' dt s).bus.heardPrev = s.bus.heardPrev := by
  obtain ⟨_, _, h⟩ := begin'_bus_eq dt s
  rw [h]

@[simp] theorem begin'_bus_heardPrev2 (dt : Nat) (s : State) : (begin' dt s).bus.heardPrev2 = s.bus.heardPrev2 := by
  obtain ⟨_, _, h⟩ := begin'_bus_eq dt s
  rw [h]

@[simp] theorem begin'_bus_mismatch (dt : Nat) (s : State) : (begin' dt s).bus.mismatch = s.bus.mismatch := by
  obtain ⟨_, _, h⟩ := begin'_bus_eq dt s
  rw [h]

@[simp] theorem begin'_bus_version (dt : Nat) (s : State) : (begin' dt s).bus.version = s.bus.version := by
  obtain ⟨_, _, h⟩ := begin'_bus_eq dt s
  rw [h]

@[simp] theorem begin'_bus_silentGood (dt : Nat) (s : State) : (begin' dt s).bus.silentGood = s.bus.silentGood := by
  obtain ⟨_, _, h⟩ := begin'_bus_eq dt s
  rw [h]

@[simp] theorem begin'_bus_silentAt (dt : Nat) (s : State) : (begin' dt s).bus.silentAt = s.bus.silentAt := by
  obtain ⟨_, _, h⟩ := begin'_bus_eq dt s
  rw [h]

@[simp] theorem begin'_bus_lostRec (dt : Nat) (s : State) : (begin' dt s).bus.lostRec = s.bus.lostRec := by
  obtain ⟨_, _, h⟩ := begin'_bus_eq dt s
  rw [h]

@[simp] theorem begin'_bus_guard (dt : Nat) (s : State) : (begin' dt s).bus.guard = s.bus.guard := by
  obtain ⟨_, _, h⟩ := begin'_bus_eq dt s
  rw [h]

@[simp] theorem begin'_bus_gcause (dt : Nat) (s : State) : (begin' dt s).bus.gcause = s.bus.gcause := by
  obtain ⟨_, _, h⟩ := begin'_bus_eq dt s
  rw [h]

@[simp] theorem begin'_bus_guardNext (dt : Nat) (s : State) : (begin' dt s).bus.guardNext = s.bus.guardNext := by
  obtain ⟨_, _, h⟩ := begin'_bus_eq dt s
  rw [h]

@[simp] theorem begin'_bus_babble (dt : Nat) (s : State) : (begin' dt s).bus.babble = s.bus.babble := by
  obtain ⟨_, _, h⟩ := begin'_bus_eq dt s
  rw [h]

@[simp] theorem begin'_bus_gskew (dt : Nat) (s : State) : (begin' dt s).bus.gskew = s.bus.gskew := by
  obtain ⟨_, _, h⟩ := begin'_bus_eq dt s
  rw [h]

@[simp] theorem begin'_bus_gsync (dt : Nat) (s : State) : (begin' dt s).bus.gsync = s.bus.gsync := by
  obtain ⟨_, _, h⟩ := begin'_bus_eq dt s
  rw [h]

@[simp] theorem begin'_bus_window (dt : Nat) (s : State) : (begin' dt s).bus.window = s.bus.window := by
  obtain ⟨_, _, h⟩ := begin'_bus_eq dt s
  rw [h]

@[simp] theorem begin'_bus_prep (dt : Nat) (s : State) : (begin' dt s).bus.prep = s.bus.prep := by
  obtain ⟨_, _, h⟩ := begin'_bus_eq dt s
  rw [h]

@[simp] theorem begin'_bus_last (dt : Nat) (s : State) : (begin' dt s).bus.last = s.bus.last := by
  obtain ⟨_, _, h⟩ := begin'_bus_eq dt s
  rw [h]

@[simp] theorem begin'_bus_got (dt : Nat) (s : State) : (begin' dt s).bus.got = s.bus.got := by
  obtain ⟨_, _, h⟩ := begin'_bus_eq dt s
  rw [h]

@[simp] theorem begin'_bus_heardAt (dt : Nat) (s : State) : (begin' dt s).bus.heardAt = s.bus.heardAt := by
  obtain ⟨_, _, h⟩ := begin'_bus_eq dt s
  rw [h]

@[simp] theorem begin'_lnk_pair (dt : Nat) (s : State) : (begin' dt s).lnk.pair = s.lnk.pair := by
  obtain ⟨_, _, _, h⟩ := begin'_lnk_eq dt s
  rw [h]

@[simp] theorem begin'_lnk_fencing (dt : Nat) (s : State) : (begin' dt s).lnk.fencing = s.lnk.fencing := by
  obtain ⟨_, _, _, h⟩ := begin'_lnk_eq dt s
  rw [h]

@[simp] theorem begin'_lnk_solo (dt : Nat) (s : State) : (begin' dt s).lnk.solo = s.lnk.solo := by
  obtain ⟨_, _, _, h⟩ := begin'_lnk_eq dt s
  rw [h]

@[simp] theorem begin'_lnk_tx1 (dt : Nat) (s : State) : (begin' dt s).lnk.tx1 = s.lnk.tx1 := by
  obtain ⟨_, _, _, h⟩ := begin'_lnk_eq dt s
  rw [h]

@[simp] theorem begin'_lnk_rx1 (dt : Nat) (s : State) : (begin' dt s).lnk.rx1 = s.lnk.rx1 := by
  obtain ⟨_, _, _, h⟩ := begin'_lnk_eq dt s
  rw [h]

@[simp] theorem begin'_lnk_rx2 (dt : Nat) (s : State) : (begin' dt s).lnk.rx2 = s.lnk.rx2 := by
  obtain ⟨_, _, _, h⟩ := begin'_lnk_eq dt s
  rw [h]

@[simp] theorem begin'_lnk_ackT (dt : Nat) (s : State) : (begin' dt s).lnk.ackT = s.lnk.ackT := by
  obtain ⟨_, _, _, h⟩ := begin'_lnk_eq dt s
  rw [h]

@[simp] theorem begin'_lnk_ramBuf (dt : Nat) (s : State) : (begin' dt s).lnk.ramBuf = s.lnk.ramBuf := by
  obtain ⟨_, _, _, h⟩ := begin'_lnk_eq dt s
  rw [h]

@[simp] theorem begin'_lnk_part (dt : Nat) (s : State) : (begin' dt s).lnk.part = s.lnk.part := by
  obtain ⟨_, _, _, h⟩ := begin'_lnk_eq dt s
  rw [h]

@[simp] theorem begin'_lnk_copied (dt : Nat) (s : State) : (begin' dt s).lnk.copied = s.lnk.copied := by
  obtain ⟨_, _, _, h⟩ := begin'_lnk_eq dt s
  rw [h]

@[simp] theorem begin'_lnk_fullCopy (dt : Nat) (s : State) : (begin' dt s).lnk.fullCopy = s.lnk.fullCopy := by
  obtain ⟨_, _, _, h⟩ := begin'_lnk_eq dt s
  rw [h]

@[simp] theorem begin'_lnk_gapFree (dt : Nat) (s : State) : (begin' dt s).lnk.gapFree = s.lnk.gapFree := by
  obtain ⟨_, _, _, h⟩ := begin'_lnk_eq dt s
  rw [h]

@[simp] theorem begin'_lnk_mark (dt : Nat) (s : State) : (begin' dt s).lnk.mark = s.lnk.mark := by
  obtain ⟨_, _, _, h⟩ := begin'_lnk_eq dt s
  rw [h]

@[simp] theorem begin'_lnk_aged (dt : Nat) (s : State) : (begin' dt s).lnk.aged = s.lnk.aged := by
  obtain ⟨_, _, _, h⟩ := begin'_lnk_eq dt s
  rw [h]

@[simp] theorem begin'_lnk_markThis (dt : Nat) (s : State) : (begin' dt s).lnk.markThis = s.lnk.markThis := by
  obtain ⟨_, _, _, h⟩ := begin'_lnk_eq dt s
  rw [h]

@[simp] theorem begin'_lnk_missedCycle (dt : Nat) (s : State) : (begin' dt s).lnk.missedCycle = s.lnk.missedCycle := by
  obtain ⟨_, _, _, h⟩ := begin'_lnk_eq dt s
  rw [h]

@[simp] theorem begin'_lnk_heardPair (dt : Nat) (s : State) : (begin' dt s).lnk.heardPair = s.lnk.heardPair := by
  obtain ⟨_, _, _, h⟩ := begin'_lnk_eq dt s
  rw [h]

@[simp] theorem begin'_lnk_tookOver (dt : Nat) (s : State) : (begin' dt s).lnk.tookOver = s.lnk.tookOver := by
  obtain ⟨_, _, _, h⟩ := begin'_lnk_eq dt s
  rw [h]

@[simp] theorem begin'_lnk_timed (dt : Nat) (s : State) : (begin' dt s).lnk.timed = s.lnk.timed := by
  obtain ⟨_, _, _, h⟩ := begin'_lnk_eq dt s
  rw [h]

@[simp] theorem begin'_lnk_resv (dt : Nat) (s : State) : (begin' dt s).lnk.resv = s.lnk.resv := by
  obtain ⟨_, _, _, h⟩ := begin'_lnk_eq dt s
  rw [h]

@[simp] theorem begin'_civ_st (dt : Nat) (s : State) : (begin' dt s).civ.st = s.civ.st := by
  rcases begin'_civ_eq dt s with h | ⟨_, _, h⟩
  · rw [h]
  · rw [h, setCivil_st]

@[simp] theorem begin'_civ_pending (dt : Nat) (s : State) : (begin' dt s).civ.pending = s.civ.pending := by
  rcases begin'_civ_eq dt s with h | ⟨_, _, h⟩
  · rw [h]
  · rw [h, setCivil_pending]

@[simp] theorem begin'_civ_refusedAt (dt : Nat) (s : State) : (begin' dt s).civ.refusedAt = s.civ.refusedAt := by
  rcases begin'_civ_eq dt s with h | ⟨_, _, h⟩
  · rw [h]
  · rw [h, setCivil_refusedAt]

@[simp] theorem begin'_civ_wdogFrom (dt : Nat) (s : State) : (begin' dt s).civ.wdogFrom = s.civ.wdogFrom := by
  rcases begin'_civ_eq dt s with h | ⟨_, _, h⟩
  · rw [h]
  · rw [h, setCivil_wdogFrom]

@[simp] theorem begin'_civ_first (dt : Nat) (s : State) : (begin' dt s).civ.first = s.civ.first := by
  rcases begin'_civ_eq dt s with h | ⟨_, _, h⟩
  · rw [h]
  · rw [h, setCivil_first]

@[simp] theorem begin'_civ_shSt (dt : Nat) (s : State) : (begin' dt s).civ.shSt = s.civ.shSt := by
  rcases begin'_civ_eq dt s with h | ⟨_, _, h⟩
  · rw [h]
  · rw [h, setCivil_shSt]

@[simp] theorem begin'_civ_shNs (dt : Nat) (s : State) : (begin' dt s).civ.shNs = s.civ.shNs := by
  rcases begin'_civ_eq dt s with h | ⟨_, _, h⟩
  · rw [h]
  · rw [h, setCivil_shNs]

@[simp] theorem begin'_civ_shFrac (dt : Nat) (s : State) : (begin' dt s).civ.shFrac = s.civ.shFrac := by
  rcases begin'_civ_eq dt s with h | ⟨_, _, h⟩
  · rw [h]
  · rw [h, setCivil_shFrac]

@[simp] theorem begin'_civ_rtcValid (dt : Nat) (s : State) : (begin' dt s).civ.rtcValid = s.civ.rtcValid := by
  rcases begin'_civ_eq dt s with h | ⟨_, _, h⟩
  · rw [h]
  · rw [h, setCivil_rtcValid]

@[simp] theorem begin'_civ_anchorValid (dt : Nat) (s : State) : (begin' dt s).civ.anchorValid = s.civ.anchorValid := by
  rcases begin'_civ_eq dt s with h | ⟨_, _, h⟩
  · rw [h]
  · rw [h, setCivil_anchorValid]

@[simp] theorem begin'_civ_rtcWroteAt (dt : Nat) (s : State) : (begin' dt s).civ.rtcWroteAt = s.civ.rtcWroteAt := by
  rcases begin'_civ_eq dt s with h | ⟨_, _, h⟩
  · rw [h]
  · rw [h, setCivil_rtcWroteAt]

@[simp] theorem begin'_cand_rtcLost (dt : Nat) (s : State) : (begin' dt s).cand.rtcLost = s.cand.rtcLost := by
  rw [begin'_cand_eq]
  simp only [rtcAdvance]
  split
  · rfl
  · exact setRtc_rtcLost _ _ _ _

@[simp] theorem begin'_cand_framErr (dt : Nat) (s : State) : (begin' dt s).cand.framErr = s.cand.framErr := by
  rw [begin'_cand_eq]
  simp only [rtcAdvance]
  split
  · rfl
  · exact setRtc_framErr _ _ _ _

@[simp] theorem begin'_cand_framProt (dt : Nat) (s : State) : (begin' dt s).cand.framProt = s.cand.framProt := by
  rw [begin'_cand_eq]
  simp only [rtcAdvance]
  split
  · rfl
  · exact setRtc_framProt _ _ _ _

@[simp] theorem begin'_cand_shHi (dt : Nat) (s : State) : (begin' dt s).cand.shHi = s.cand.shHi := by
  rw [begin'_cand_eq]
  simp only [rtcAdvance]
  split
  · rfl
  · exact setRtc_shHi _ _ _ _

@[simp] theorem begin'_cand_shSub (dt : Nat) (s : State) : (begin' dt s).cand.shSub = s.cand.shSub := by
  rw [begin'_cand_eq]
  simp only [rtcAdvance]
  split
  · rfl
  · exact setRtc_shSub _ _ _ _

@[simp] theorem begin'_cand_cause (dt : Nat) (s : State) : (begin' dt s).cand.cause = s.cand.cause := by
  rw [begin'_cand_eq]
  simp only [rtcAdvance]
  split
  · rfl
  · exact setRtc_cause _ _ _ _

@[simp] theorem begin'_cand_sdResult (dt : Nat) (s : State) : (begin' dt s).cand.sdResult = s.cand.sdResult := by
  rw [begin'_cand_eq]
  simp only [rtcAdvance]
  split
  · rfl
  · exact setRtc_sdResult _ _ _ _

@[simp] theorem begin'_cand_autoOk (dt : Nat) (s : State) : (begin' dt s).cand.autoOk = s.cand.autoOk := by
  rw [begin'_cand_eq]
  simp only [rtcAdvance]
  split
  · rfl
  · exact setRtc_autoOk _ _ _ _

@[simp] theorem begin'_cand_bootStep (dt : Nat) (s : State) : (begin' dt s).cand.bootStep = s.cand.bootStep := by
  rw [begin'_cand_eq]
  simp only [rtcAdvance]
  split
  · rfl
  · exact setRtc_bootStep _ _ _ _

@[simp] theorem begin'_cand_bootFail (dt : Nat) (s : State) : (begin' dt s).cand.bootFail = s.cand.bootFail := by
  rw [begin'_cand_eq]
  simp only [rtcAdvance]
  split
  · rfl
  · exact setRtc_bootFail _ _ _ _

@[simp] theorem begin'_cand_sel (dt : Nat) (s : State) : (begin' dt s).cand.sel = s.cand.sel := by
  rw [begin'_cand_eq]
  simp only [rtcAdvance]
  split
  · rfl
  · exact setRtc_sel _ _ _ _

@[simp] theorem begin'_cand_sd (dt : Nat) (s : State) : (begin' dt s).cand.sd = s.cand.sd := by
  rw [begin'_cand_eq]
  simp only [rtcAdvance]
  split
  · rfl
  · exact setRtc_sd _ _ _ _

@[simp] theorem begin'_cand_anchor (dt : Nat) (s : State) : (begin' dt s).cand.anchor = s.cand.anchor := by
  rw [begin'_cand_eq]
  simp only [rtcAdvance]
  split
  · rfl
  · exact setRtc_anchor _ _ _ _

@[simp] theorem begin'_cand_session (dt : Nat) (s : State) : (begin' dt s).cand.session = s.cand.session := by
  rw [begin'_cand_eq]
  simp only [rtcAdvance]
  split
  · rfl
  · exact setRtc_session _ _ _ _

@[simp] theorem begin'_cand_light (dt : Nat) (s : State) : (begin' dt s).cand.light = s.cand.light := by
  rw [begin'_cand_eq]
  simp only [rtcAdvance]
  split
  · rfl
  · exact setRtc_light _ _ _ _

@[simp] theorem begin'_cand_stat (dt : Nat) (s : State) : (begin' dt s).cand.stat = s.cand.stat := by
  rw [begin'_cand_eq]
  simp only [rtcAdvance]
  split
  · rfl
  · exact setRtc_stat _ _ _ _

@[simp] theorem begin'_cand_fuses (dt : Nat) (s : State) : (begin' dt s).cand.fuses = s.cand.fuses := by
  rw [begin'_cand_eq]
  simp only [rtcAdvance]
  split
  · rfl
  · exact setRtc_fuses _ _ _ _

@[simp] theorem begin'_clk_cycle (dt : Nat) (s : State) : (begin' dt s).clk.cycle = s.clk.cycle := by
  rcases begin'_clk_eq dt s with h | ⟨_, _, h⟩
  · rw [h]
  · rw [h, setPos_cycle]

@[simp] theorem begin'_clk_corr (dt : Nat) (s : State) : (begin' dt s).clk.corr = s.clk.corr := by
  rcases begin'_clk_eq dt s with h | ⟨_, _, h⟩
  · rw [h]
  · rw [h, setPos_corr]

@[simp] theorem begin'_clk_carry (dt : Nat) (s : State) : (begin' dt s).clk.carry = s.clk.carry := by
  rcases begin'_clk_eq dt s with h | ⟨_, _, h⟩
  · rw [h]
  · rw [h, setPos_carry]

@[simp] theorem begin'_clk_prov (dt : Nat) (s : State) : (begin' dt s).clk.prov = s.clk.prov := by
  rcases begin'_clk_eq dt s with h | ⟨_, _, h⟩
  · rw [h]
  · rw [h, setPos_prov]

@[simp] theorem begin'_clk_provHeld (dt : Nat) (s : State) : (begin' dt s).clk.provHeld = s.clk.provHeld := by
  rcases begin'_clk_eq dt s with h | ⟨_, _, h⟩
  · rw [h]
  · rw [h, setPos_provHeld]

@[simp] theorem begin'_clk_epochNearAt (dt : Nat) (s : State) : (begin' dt s).clk.epochNearAt = s.clk.epochNearAt := by
  rcases begin'_clk_eq dt s with h | ⟨_, _, h⟩
  · rw [h]
  · rw [h, setPos_epochNearAt]

@[simp] theorem begin'_prg_mode (dt : Nat) (s : State) : (begin' dt s).prg.mode = s.prg.mode := by
  rcases begin'_prg_eq dt s with h | ⟨_, _, h⟩
  · rw [h]
  · rw [h, setRun_mode]

@[simp] theorem begin'_prg_cause (dt : Nat) (s : State) : (begin' dt s).prg.cause = s.prg.cause := by
  rcases begin'_prg_eq dt s with h | ⟨_, _, h⟩
  · rw [h]
  · rw [h, setRun_cause]

@[simp] theorem begin'_prg_reqNormal (dt : Nat) (s : State) : (begin' dt s).prg.reqNormal = s.prg.reqNormal := by
  rcases begin'_prg_eq dt s with h | ⟨_, _, h⟩
  · rw [h]
  · rw [h, setRun_reqNormal]

@[simp] theorem begin'_prg_reqTest (dt : Nat) (s : State) : (begin' dt s).prg.reqTest = s.prg.reqTest := by
  rcases begin'_prg_eq dt s with h | ⟨_, _, h⟩
  · rw [h]
  · rw [h, setRun_reqTest]

@[simp] theorem begin'_prg_tasks (dt : Nat) (s : State) : (begin' dt s).prg.tasks = s.prg.tasks := by
  rcases begin'_prg_eq dt s with h | ⟨_, _, h⟩
  · rw [h]
  · rw [h, setRun_tasks]

@[simp] theorem begin'_prg_idle (dt : Nat) (s : State) : (begin' dt s).prg.idle = s.prg.idle := by
  rcases begin'_prg_eq dt s with h | ⟨_, _, h⟩
  · rw [h]
  · rw [h, setRun_idle]

@[simp] theorem begin'_prg_normalAt (dt : Nat) (s : State) : (begin' dt s).prg.normalAt = s.prg.normalAt := by
  rcases begin'_prg_eq dt s with h | ⟨_, _, h⟩
  · rw [h]
  · rw [h, setRun_normalAt]

@[simp] theorem begin'_prg_live (dt : Nat) (s : State) : (begin' dt s).prg.live = s.prg.live := by
  rcases begin'_prg_eq dt s with h | ⟨_, _, h⟩
  · rw [h]
  · rw [h, setRun_live]

@[simp] theorem begin'_prg_img (dt : Nat) (s : State) : (begin' dt s).prg.img = s.prg.img := by
  rcases begin'_prg_eq dt s with h | ⟨_, _, h⟩
  · rw [h]
  · rw [h, setRun_img]

@[simp] theorem begin'_prg_applied (dt : Nat) (s : State) : (begin' dt s).prg.applied = s.prg.applied := by
  rcases begin'_prg_eq dt s with h | ⟨_, _, h⟩
  · rw [h]
  · rw [h, setRun_applied]

@[simp] theorem begin'_prg_tokUsed (dt : Nat) (s : State) : (begin' dt s).prg.tokUsed = s.prg.tokUsed := by
  rcases begin'_prg_eq dt s with h | ⟨_, _, h⟩
  · rw [h]
  · rw [h, setRun_tokUsed]

@[simp] theorem begin'_prg_tokVer (dt : Nat) (s : State) : (begin' dt s).prg.tokVer = s.prg.tokVer := by
  rcases begin'_prg_eq dt s with h | ⟨_, _, h⟩
  · rw [h]
  · rw [h, setRun_tokVer]

@[simp] theorem begin'_prg_cps (dt : Nat) (s : State) : (begin' dt s).prg.cps = s.prg.cps := by
  rcases begin'_prg_eq dt s with h | ⟨_, _, h⟩
  · rw [h]
  · rw [h, setRun_cps]

@[simp] theorem begin'_prg_cpNext (dt : Nat) (s : State) : (begin' dt s).prg.cpNext = s.prg.cpNext := by
  rcases begin'_prg_eq dt s with h | ⟨_, _, h⟩
  · rw [h]
  · rw [h, setRun_cpNext]

@[simp] theorem begin'_prg_cpFired (dt : Nat) (s : State) : (begin' dt s).prg.cpFired = s.prg.cpFired := by
  rcases begin'_prg_eq dt s with h | ⟨_, _, h⟩
  · rw [h]
  · rw [h, setRun_cpFired]

@[simp] theorem begin'_prg_frozen (dt : Nat) (s : State) : (begin' dt s).prg.frozen = s.prg.frozen := by
  rcases begin'_prg_eq dt s with h | ⟨_, _, h⟩
  · rw [h]
  · rw [h, setRun_frozen]

@[simp] theorem begin'_prg_appliedNow (dt : Nat) (s : State) : (begin' dt s).prg.appliedNow = s.prg.appliedNow := by
  rcases begin'_prg_eq dt s with h | ⟨_, _, h⟩
  · rw [h]
  · rw [h, setRun_appliedNow]

@[simp] theorem begin'_prg_releaseHeld (dt : Nat) (s : State) : (begin' dt s).prg.releaseHeld = s.prg.releaseHeld := by
  rcases begin'_prg_eq dt s with h | ⟨_, _, h⟩
  · rw [h]
  · rw [h, setRun_releaseHeld]

@[simp] theorem begin'_prg_majorAt (dt : Nat) (s : State) : (begin' dt s).prg.majorAt = s.prg.majorAt := by
  rcases begin'_prg_eq dt s with h | ⟨_, _, h⟩
  · rw [h]
  · rw [h, setRun_majorAt]

/-! ### What the tests of a command's conditions read -/

@[simp] theorem powered_begin' (dt : Nat) (s : State) : powered (begin' dt s) = powered s := by simp [powered]

@[simp] theorem lanesRun_begin' (dt : Nat) (s : State) : lanesRun (begin' dt s) = lanesRun s := by simp [lanesRun]

@[simp] theorem inNormal_begin' (dt : Nat) (s : State) : inNormal (begin' dt s) = inNormal s := by simp [inNormal]

@[simp] theorem cycleUs_begin' (dt : Nat) (s : State) : cycleUs (begin' dt s) = cycleUs s := by simp [cycleUs]

@[simp] theorem rv_begin' (k dt : Nat) (s : State) : rv k (begin' dt s) = rv k s := by simp [rv]

@[simp] theorem pin_begin' (k dt : Nat) (s : State) : pin k (begin' dt s) = pin k s := by simp [pin]

@[simp] theorem ring_begin' (k dt : Nat) (s : State) : ring k (begin' dt s) = ring k s := by simp [ring]

@[simp] theorem sgroup_begin' (k dt : Nat) (s : State) : sgroup k (begin' dt s) = sgroup k s := by simp [sgroup]

@[simp] theorem fgroup_begin' (k dt : Nat) (s : State) : fgroup k (begin' dt s) = fgroup k s := by simp [fgroup]

@[simp] theorem pinWord_begin' (k dt : Nat) (s : State) : pinWord k (begin' dt s) = pinWord k s := by simp [pinWord]

@[simp] theorem pinMode_begin' (k dt : Nat) (s : State) : pinMode k (begin' dt s) = pinMode k s := by simp [pinMode]

@[simp] theorem isInput_begin' (k dt : Nat) (s : State) : isInput k (begin' dt s) = isInput k s := by simp [isInput]

@[simp] theorem isOutput_begin' (k dt : Nat) (s : State) : isOutput k (begin' dt s) = isOutput k s := by simp [isOutput]

@[simp] theorem groupUsed_begin' (k dt : Nat) (s : State) : groupUsed k (begin' dt s) = groupUsed k s := by simp [groupUsed]

@[simp] theorem ringWord_begin' (k dt : Nat) (s : State) : ringWord k (begin' dt s) = ringWord k s := by simp [ringWord]

@[simp] theorem ringSize_begin' (k dt : Nat) (s : State) : ringSize k (begin' dt s) = ringSize k s := by simp [ringSize]

@[simp] theorem ringFree_begin' (k dt : Nat) (s : State) : ringFree k (begin' dt s) = ringFree k s := by simp [ringFree]

@[simp] theorem rf_begin' (k lo n dt : Nat) (s : State) : rf k lo n (begin' dt s) = rf k lo n s := by simp only [rf, rv_begin']

@[simp] theorem lane_begin' (l : LaneId) (dt : Nat) (s : State) : lane l (begin' dt s) = lane l s := by cases l <;> simp only [lane, begin'_tri]

@[simp] theorem litLanes_begin' (dt : Nat) (s : State) : litLanes (begin' dt s) = litLanes s := by simp only [litLanes, lane_begin']

/-- A register reads as last stored, in 32 bits; the others keep their words. -/
theorem rv_setRv (k j v : Nat) (s : State) : rv j (setRv k v s) = if k = j then v % 2 ^ 32 else rv j s := by
  simp only [rv, setRv, assocGet_assocSet]
  by_cases h : k = j <;> simp [h]

/-! ### Instants: they depend on the clock and the cycle length alone -/

theorem macroStart_congr {s t : State} (h : t.clk = s.clk) (c : t.cfg = s.cfg) (p : Nat) : macroStart t p = macroStart s p := by
  unfold macroStart corrN cycleUs
  rw [h, c]

theorem macroFind_congr {s t : State} (h : t.clk = s.clk) (c : t.cfg = s.cfg) (x : Nat) :
    ∀ (l : List Nat) (b : Nat), macroFind t x l b = macroFind s x l b
  | [], _ => rfl
  | p :: l, b => by simp only [macroFind, macroStart_congr h c, macroFind_congr h c x l]

theorem nowLin_congr {s t : State} (h : t.clk = s.clk) (c : t.cfg = s.cfg) : nowLin t = nowLin s := by
  unfold nowLin posUnits position macroAt
  simp only [funext (macroStart_congr h c), macroFind_congr h c]
  unfold cycleUs
  rw [h, c]

theorem now_congr {s t : State} (h : t.clk = s.clk) (c : t.cfg = s.cfg) : now t = now s := by
  simp only [now, nowLin_congr h c]

theorem usLin_congr {s t : State} (c : t.cfg = s.cfg) (n : Nat) : usLin t n = usLin s n := by
  simp only [usLin, cycleUs, c]

theorem secLin_congr {s t : State} (c : t.cfg = s.cfg) (n : Nat) : secLin t n = secLin s n := by
  simp only [secLin, usLin_congr c]

@[simp] theorem secLin_send (x : Sent) (m : Nat) (s : State) : secLin (send x s) m = secLin s m := secLin_congr (send_cfg x s) m

@[simp] theorem usLin_send (x : Sent) (m : Nat) (s : State) : usLin (send x s) m = usLin s m := usLin_congr (send_cfg x s) m

@[simp] theorem nowLin_send (x : Sent) (s : State) : nowLin (send x s) = nowLin s := nowLin_congr (send_clk x s) (send_cfg x s)

@[simp] theorem now_send (x : Sent) (s : State) : now (send x s) = now s := now_congr (send_clk x s) (send_cfg x s)

@[simp] theorem rv_send (x : Sent) (j : Nat) (s : State) : rv j (send x s) = rv j s := by simp only [rv, send_regs]

@[simp] theorem rf_send (x : Sent) (j q w : Nat) (s : State) : rf j q w (send x s) = rf j q w s := by simp only [rf, rv_send]

@[simp] theorem secLin_setRv (k v : Nat) (m : Nat) (s : State) : secLin (setRv k v s) m = secLin s m := secLin_congr (setRv_cfg k v s) m

@[simp] theorem usLin_setRv (k v : Nat) (m : Nat) (s : State) : usLin (setRv k v s) m = usLin s m := usLin_congr (setRv_cfg k v s) m

@[simp] theorem nowLin_setRv (k v : Nat) (s : State) : nowLin (setRv k v s) = nowLin s := nowLin_congr (setRv_clk k v s) (setRv_cfg k v s)

@[simp] theorem now_setRv (k v : Nat) (s : State) : now (setRv k v s) = now s := now_congr (setRv_clk k v s) (setRv_cfg k v s)

@[simp] theorem secLin_setRf (k lo n v : Nat) (m : Nat) (s : State) : secLin (setRf k lo n v s) m = secLin s m := secLin_congr (setRf_cfg k lo n v s) m

@[simp] theorem usLin_setRf (k lo n v : Nat) (m : Nat) (s : State) : usLin (setRf k lo n v s) m = usLin s m := usLin_congr (setRf_cfg k lo n v s) m

@[simp] theorem nowLin_setRf (k lo n v : Nat) (s : State) : nowLin (setRf k lo n v s) = nowLin s := nowLin_congr (setRf_clk k lo n v s) (setRf_cfg k lo n v s)

@[simp] theorem now_setRf (k lo n v : Nat) (s : State) : now (setRf k lo n v s) = now s := now_congr (setRf_clk k lo n v s) (setRf_cfg k lo n v s)

@[simp] theorem secLin_addRf (k lo n d : Nat) (m : Nat) (s : State) : secLin (addRf k lo n d s) m = secLin s m := secLin_congr (addRf_cfg k lo n d s) m

@[simp] theorem usLin_addRf (k lo n d : Nat) (m : Nat) (s : State) : usLin (addRf k lo n d s) m = usLin s m := usLin_congr (addRf_cfg k lo n d s) m

@[simp] theorem nowLin_addRf (k lo n d : Nat) (s : State) : nowLin (addRf k lo n d s) = nowLin s := nowLin_congr (addRf_clk k lo n d s) (addRf_cfg k lo n d s)

@[simp] theorem now_addRf (k lo n d : Nat) (s : State) : now (addRf k lo n d s) = now s := now_congr (addRf_clk k lo n d s) (addRf_cfg k lo n d s)

@[simp] theorem secLin_cnt (k : Nat) (m : Nat) (s : State) : secLin (cnt k s) m = secLin s m := secLin_congr (cnt_cfg k s) m

@[simp] theorem usLin_cnt (k : Nat) (m : Nat) (s : State) : usLin (cnt k s) m = usLin s m := usLin_congr (cnt_cfg k s) m

@[simp] theorem nowLin_cnt (k : Nat) (s : State) : nowLin (cnt k s) = nowLin s := nowLin_congr (cnt_clk k s) (cnt_cfg k s)

@[simp] theorem now_cnt (k : Nat) (s : State) : now (cnt k s) = now s := now_congr (cnt_clk k s) (cnt_cfg k s)

@[simp] theorem secLin_emitAt (t ty : Nat) (p : List Byte) (m : Nat) (s : State) : secLin (emitAt t ty p s) m = secLin s m := secLin_congr (emitAt_cfg t ty p s) m

@[simp] theorem usLin_emitAt (t ty : Nat) (p : List Byte) (m : Nat) (s : State) : usLin (emitAt t ty p s) m = usLin s m := usLin_congr (emitAt_cfg t ty p s) m

@[simp] theorem nowLin_emitAt (t ty : Nat) (p : List Byte) (s : State) : nowLin (emitAt t ty p s) = nowLin s := nowLin_congr (emitAt_clk t ty p s) (emitAt_cfg t ty p s)

@[simp] theorem now_emitAt (t ty : Nat) (p : List Byte) (s : State) : now (emitAt t ty p s) = now s := now_congr (emitAt_clk t ty p s) (emitAt_cfg t ty p s)

@[simp] theorem secLin_emit (ty : Nat) (f : List (Nat × Nat)) (m : Nat) (s : State) : secLin (emit ty f s) m = secLin s m := secLin_congr (emit_cfg ty f s) m

@[simp] theorem usLin_emit (ty : Nat) (f : List (Nat × Nat)) (m : Nat) (s : State) : usLin (emit ty f s) m = usLin s m := usLin_congr (emit_cfg ty f s) m

@[simp] theorem nowLin_emit (ty : Nat) (f : List (Nat × Nat)) (s : State) : nowLin (emit ty f s) = nowLin s := nowLin_congr (emit_clk ty f s) (emit_cfg ty f s)

@[simp] theorem now_emit (ty : Nat) (f : List (Nat × Nat)) (s : State) : now (emit ty f s) = now s := now_congr (emit_clk ty f s) (emit_cfg ty f s)

@[simp] theorem secLin_nvEvent (b c d a : Nat) (m : Nat) (s : State) : secLin (nvEvent b c d a s) m = secLin s m := secLin_congr (nvEvent_cfg b c d a s) m

@[simp] theorem usLin_nvEvent (b c d a : Nat) (m : Nat) (s : State) : usLin (nvEvent b c d a s) m = usLin s m := usLin_congr (nvEvent_cfg b c d a s) m

@[simp] theorem nowLin_nvEvent (b c d a : Nat) (s : State) : nowLin (nvEvent b c d a s) = nowLin s := nowLin_congr (nvEvent_clk b c d a s) (nvEvent_cfg b c d a s)

@[simp] theorem now_nvEvent (b c d a : Nat) (s : State) : now (nvEvent b c d a s) = now s := now_congr (nvEvent_clk b c d a s) (nvEvent_cfg b c d a s)

@[simp] theorem secLin_stat (o d : Nat) (m : Nat) (s : State) : secLin (stat o d s) m = secLin s m := secLin_congr (stat_cfg o d s) m

@[simp] theorem usLin_stat (o d : Nat) (m : Nat) (s : State) : usLin (stat o d s) m = usLin s m := usLin_congr (stat_cfg o d s) m

@[simp] theorem nowLin_stat (o d : Nat) (s : State) : nowLin (stat o d s) = nowLin s := nowLin_congr (stat_clk o d s) (stat_cfg o d s)

@[simp] theorem now_stat (o d : Nat) (s : State) : now (stat o d s) = now s := now_congr (stat_clk o d s) (stat_cfg o d s)

@[simp] theorem rv_stat (o d : Nat) (j : Nat) (s : State) : rv j (stat o d s) = rv j s := by simp only [rv, stat_regs]

@[simp] theorem rf_stat (o d : Nat) (j q w : Nat) (s : State) : rf j q w (stat o d s) = rf j q w s := by simp only [rf, rv_stat]

@[simp] theorem secLin_modLane (l : LaneId) (f : Lane → Lane) (m : Nat) (s : State) : secLin (modLane l f s) m = secLin s m := secLin_congr (modLane_cfg l f s) m

@[simp] theorem usLin_modLane (l : LaneId) (f : Lane → Lane) (m : Nat) (s : State) : usLin (modLane l f s) m = usLin s m := usLin_congr (modLane_cfg l f s) m

@[simp] theorem nowLin_modLane (l : LaneId) (f : Lane → Lane) (s : State) : nowLin (modLane l f s) = nowLin s := nowLin_congr (modLane_clk l f s) (modLane_cfg l f s)

@[simp] theorem now_modLane (l : LaneId) (f : Lane → Lane) (s : State) : now (modLane l f s) = now s := now_congr (modLane_clk l f s) (modLane_cfg l f s)

@[simp] theorem rv_modLane (l : LaneId) (f : Lane → Lane) (j : Nat) (s : State) : rv j (modLane l f s) = rv j s := by simp only [rv, modLane_regs]

@[simp] theorem rf_modLane (l : LaneId) (f : Lane → Lane) (j q w : Nat) (s : State) : rf j q w (modLane l f s) = rf j q w s := by simp only [rf, rv_modLane]

@[simp] theorem secLin_modRing (r : Nat) (f : Ring → Ring) (m : Nat) (s : State) : secLin (modRing r f s) m = secLin s m := secLin_congr (modRing_cfg r f s) m

@[simp] theorem usLin_modRing (r : Nat) (f : Ring → Ring) (m : Nat) (s : State) : usLin (modRing r f s) m = usLin s m := usLin_congr (modRing_cfg r f s) m

@[simp] theorem nowLin_modRing (r : Nat) (f : Ring → Ring) (s : State) : nowLin (modRing r f s) = nowLin s := nowLin_congr (modRing_clk r f s) (modRing_cfg r f s)

@[simp] theorem now_modRing (r : Nat) (f : Ring → Ring) (s : State) : now (modRing r f s) = now s := now_congr (modRing_clk r f s) (modRing_cfg r f s)

@[simp] theorem rv_modRing (r : Nat) (f : Ring → Ring) (j : Nat) (s : State) : rv j (modRing r f s) = rv j s := by simp only [rv, modRing_regs]

@[simp] theorem rf_modRing (r : Nat) (f : Ring → Ring) (j q w : Nat) (s : State) : rf j q w (modRing r f s) = rf j q w s := by simp only [rf, rv_modRing]

@[simp] theorem secLin_modPin (n : Nat) (f : Pin → Pin) (m : Nat) (s : State) : secLin (modPin n f s) m = secLin s m := secLin_congr (modPin_cfg n f s) m

@[simp] theorem usLin_modPin (n : Nat) (f : Pin → Pin) (m : Nat) (s : State) : usLin (modPin n f s) m = usLin s m := usLin_congr (modPin_cfg n f s) m

@[simp] theorem nowLin_modPin (n : Nat) (f : Pin → Pin) (s : State) : nowLin (modPin n f s) = nowLin s := nowLin_congr (modPin_clk n f s) (modPin_cfg n f s)

@[simp] theorem now_modPin (n : Nat) (f : Pin → Pin) (s : State) : now (modPin n f s) = now s := now_congr (modPin_clk n f s) (modPin_cfg n f s)

@[simp] theorem rv_modPin (n : Nat) (f : Pin → Pin) (j : Nat) (s : State) : rv j (modPin n f s) = rv j s := by simp only [rv, modPin_regs]

@[simp] theorem rf_modPin (n : Nat) (f : Pin → Pin) (j q w : Nat) (s : State) : rf j q w (modPin n f s) = rf j q w s := by simp only [rf, rv_modPin]

@[simp] theorem secLin_modGroup (g : Nat) (f : FGroup → FGroup) (m : Nat) (s : State) : secLin (modGroup g f s) m = secLin s m := secLin_congr (modGroup_cfg g f s) m

@[simp] theorem usLin_modGroup (g : Nat) (f : FGroup → FGroup) (m : Nat) (s : State) : usLin (modGroup g f s) m = usLin s m := usLin_congr (modGroup_cfg g f s) m

@[simp] theorem nowLin_modGroup (g : Nat) (f : FGroup → FGroup) (s : State) : nowLin (modGroup g f s) = nowLin s := nowLin_congr (modGroup_clk g f s) (modGroup_cfg g f s)

@[simp] theorem now_modGroup (g : Nat) (f : FGroup → FGroup) (s : State) : now (modGroup g f s) = now s := now_congr (modGroup_clk g f s) (modGroup_cfg g f s)

@[simp] theorem rv_modGroup (g : Nat) (f : FGroup → FGroup) (j : Nat) (s : State) : rv j (modGroup g f s) = rv j s := by simp only [rv, modGroup_regs]

@[simp] theorem rf_modGroup (g : Nat) (f : FGroup → FGroup) (j q w : Nat) (s : State) : rf j q w (modGroup g f s) = rf j q w s := by simp only [rf, rv_modGroup]

@[simp] theorem secLin_modSnu (g : Nat) (f : SGroup → SGroup) (m : Nat) (s : State) : secLin (modSnu g f s) m = secLin s m := secLin_congr (modSnu_cfg g f s) m

@[simp] theorem usLin_modSnu (g : Nat) (f : SGroup → SGroup) (m : Nat) (s : State) : usLin (modSnu g f s) m = usLin s m := usLin_congr (modSnu_cfg g f s) m

@[simp] theorem nowLin_modSnu (g : Nat) (f : SGroup → SGroup) (s : State) : nowLin (modSnu g f s) = nowLin s := nowLin_congr (modSnu_clk g f s) (modSnu_cfg g f s)

@[simp] theorem now_modSnu (g : Nat) (f : SGroup → SGroup) (s : State) : now (modSnu g f s) = now s := now_congr (modSnu_clk g f s) (modSnu_cfg g f s)

@[simp] theorem rv_modSnu (g : Nat) (f : SGroup → SGroup) (j : Nat) (s : State) : rv j (modSnu g f s) = rv j s := by simp only [rv, modSnu_regs]

@[simp] theorem rf_modSnu (g : Nat) (f : SGroup → SGroup) (j q w : Nat) (s : State) : rf j q w (modSnu g f s) = rf j q w s := by simp only [rf, rv_modSnu]

@[simp] theorem secLin_pinOff (n : Nat) (m : Nat) (s : State) : secLin (pinOff n s) m = secLin s m := secLin_congr (pinOff_cfg n s) m

@[simp] theorem usLin_pinOff (n : Nat) (m : Nat) (s : State) : usLin (pinOff n s) m = usLin s m := usLin_congr (pinOff_cfg n s) m

@[simp] theorem nowLin_pinOff (n : Nat) (s : State) : nowLin (pinOff n s) = nowLin s := nowLin_congr (pinOff_clk n s) (pinOff_cfg n s)

@[simp] theorem now_pinOff (n : Nat) (s : State) : now (pinOff n s) = now s := now_congr (pinOff_clk n s) (pinOff_cfg n s)

@[simp] theorem rv_pinOff (n : Nat) (j : Nat) (s : State) : rv j (pinOff n s) = rv j s := by simp only [rv, pinOff_regs]

@[simp] theorem rf_pinOff (n : Nat) (j q w : Nat) (s : State) : rf j q w (pinOff n s) = rf j q w s := by simp only [rf, rv_pinOff]

@[simp] theorem secLin_pinsOff (l : List Nat) (m : Nat) (s : State) : secLin (pinsOff l s) m = secLin s m := secLin_congr (pinsOff_cfg l s) m

@[simp] theorem usLin_pinsOff (l : List Nat) (m : Nat) (s : State) : usLin (pinsOff l s) m = usLin s m := usLin_congr (pinsOff_cfg l s) m

@[simp] theorem nowLin_pinsOff (l : List Nat) (s : State) : nowLin (pinsOff l s) = nowLin s := nowLin_congr (pinsOff_clk l s) (pinsOff_cfg l s)

@[simp] theorem now_pinsOff (l : List Nat) (s : State) : now (pinsOff l s) = now s := now_congr (pinsOff_clk l s) (pinsOff_cfg l s)

@[simp] theorem rv_pinsOff (l : List Nat) (j : Nat) (s : State) : rv j (pinsOff l s) = rv j s := by simp only [rv, pinsOff_regs]

@[simp] theorem rf_pinsOff (l : List Nat) (j q w : Nat) (s : State) : rf j q w (pinsOff l s) = rf j q w s := by simp only [rf, rv_pinsOff]

@[simp] theorem secLin_dropK (g : Nat) (m : Nat) (s : State) : secLin (dropK g s) m = secLin s m := secLin_congr (dropK_cfg g s) m

@[simp] theorem usLin_dropK (g : Nat) (m : Nat) (s : State) : usLin (dropK g s) m = usLin s m := usLin_congr (dropK_cfg g s) m

@[simp] theorem nowLin_dropK (g : Nat) (s : State) : nowLin (dropK g s) = nowLin s := nowLin_congr (dropK_clk g s) (dropK_cfg g s)

@[simp] theorem now_dropK (g : Nat) (s : State) : now (dropK g s) = now s := now_congr (dropK_clk g s) (dropK_cfg g s)

@[simp] theorem rv_dropK (g : Nat) (j : Nat) (s : State) : rv j (dropK g s) = rv j s := by simp only [rv, dropK_regs]

@[simp] theorem rf_dropK (g : Nat) (j q w : Nat) (s : State) : rf j q w (dropK g s) = rf j q w s := by simp only [rf, rv_dropK]

@[simp] theorem secLin_openGroup (g : Nat) (m : Nat) (s : State) : secLin (openGroup g s) m = secLin s m := secLin_congr (openGroup_cfg g s) m

@[simp] theorem usLin_openGroup (g : Nat) (m : Nat) (s : State) : usLin (openGroup g s) m = usLin s m := usLin_congr (openGroup_cfg g s) m

@[simp] theorem nowLin_openGroup (g : Nat) (s : State) : nowLin (openGroup g s) = nowLin s := nowLin_congr (openGroup_clk g s) (openGroup_cfg g s)

@[simp] theorem now_openGroup (g : Nat) (s : State) : now (openGroup g s) = now s := now_congr (openGroup_clk g s) (openGroup_cfg g s)

@[simp] theorem rv_openGroup (g : Nat) (j : Nat) (s : State) : rv j (openGroup g s) = rv j s := by simp only [rv, openGroup_regs]

@[simp] theorem rf_openGroup (g : Nat) (j q w : Nat) (s : State) : rf j q w (openGroup g s) = rf j q w s := by simp only [rf, rv_openGroup]

@[simp] theorem secLin_consumeToken (i : Nat) (m : Nat) (s : State) : secLin (consumeToken i s) m = secLin s m := secLin_congr (consumeToken_cfg i s) m

@[simp] theorem usLin_consumeToken (i : Nat) (m : Nat) (s : State) : usLin (consumeToken i s) m = usLin s m := usLin_congr (consumeToken_cfg i s) m

@[simp] theorem nowLin_consumeToken (i : Nat) (s : State) : nowLin (consumeToken i s) = nowLin s := nowLin_congr (consumeToken_clk i s) (consumeToken_cfg i s)

@[simp] theorem now_consumeToken (i : Nat) (s : State) : now (consumeToken i s) = now s := now_congr (consumeToken_clk i s) (consumeToken_cfg i s)

@[simp] theorem rv_consumeToken (i : Nat) (j : Nat) (s : State) : rv j (consumeToken i s) = rv j s := by simp only [rv, consumeToken_regs]

@[simp] theorem rf_consumeToken (i : Nat) (j q w : Nat) (s : State) : rf j q w (consumeToken i s) = rf j q w s := by simp only [rf, rv_consumeToken]

@[simp] theorem secLin_begin' (dt : Nat) (m : Nat) (s : State) : secLin (begin' dt s) m = secLin s m := secLin_congr (begin'_cfg dt s) m

@[simp] theorem usLin_begin' (dt : Nat) (m : Nat) (s : State) : usLin (begin' dt s) m = usLin s m := usLin_congr (begin'_cfg dt s) m

/-! ### Fields of a word -/

theorem bits_lt (v lo n : Nat) : bits v lo n < 2 ^ n := Nat.mod_lt _ (Nat.two_pow_pos n)

/-- A field with new contents, bit by bit. -/
theorem testBit_setBits (v lo n x i : Nat) :
    (setBits v lo n x).testBit i = if lo ≤ i ∧ i < lo + n then x.testBit (i - lo) else v.testBit i := by
  have e : setBits v lo n x = v % 2 ^ lo + (x % 2 ^ n + v / 2 ^ (lo + n) * 2 ^ n) * 2 ^ lo := by
    have h1 : v = v % 2 ^ lo + (v / 2 ^ lo % 2 ^ n + v / 2 ^ (lo + n) * 2 ^ n) * 2 ^ lo := by
      have a := Nat.mod_add_div v (2 ^ lo)
      have b := Nat.mod_add_div (v / 2 ^ lo) (2 ^ n)
      rw [Nat.div_div_eq_div_mul, ← Nat.pow_add] at b
      have c : (v / 2 ^ lo % 2 ^ n + v / 2 ^ (lo + n) * 2 ^ n) = v / 2 ^ lo := by rw [Nat.mul_comm]; exact b
      rw [c, Nat.mul_comm]
      exact a.symm
    unfold setBits bits
    generalize hq : v / 2 ^ lo % 2 ^ n = q at h1 ⊢
    generalize hr : v / 2 ^ (lo + n) * 2 ^ n = r at h1 ⊢
    rw [Nat.add_mul] at h1
    rw [Nat.add_mul]
    omega
  have hx : x % 2 ^ n < 2 ^ n := Nat.mod_lt _ (Nat.two_pow_pos n)
  have hv : v % 2 ^ lo < 2 ^ lo := Nat.mod_lt _ (Nat.two_pow_pos lo)
  rw [e, Nat.add_comm, Nat.mul_comm, Nat.testBit_two_pow_mul_add _ hv]
  split
  · rename_i h
    rw [Nat.testBit_mod_two_pow]
    simp only [h, decide_true, Bool.true_and]
    split
    · omega
    · rfl
  · rename_i h
    rw [Nat.add_comm (x % 2 ^ n), Nat.mul_comm, Nat.testBit_two_pow_mul_add _ hx]
    split
    · rw [Nat.testBit_mod_two_pow]
      split
      · rename_i h2 _
        simp only [h2, decide_true, Bool.true_and]
      · omega
    · rw [Nat.testBit_div_two_pow]
      split
      · omega
      · congr 1
        omega

theorem testBit_bits (v lo n i : Nat) : (bits v lo n).testBit i = (decide (i < n) && v.testBit (lo + i)) := by
  simp only [bits, Nat.testBit_mod_two_pow, Nat.testBit_div_two_pow, Nat.add_comm]

/-- The field that was set. -/
theorem bits_setBits_same (v lo n x : Nat) : bits (setBits v lo n x) lo n = x % 2 ^ n := by
  apply Nat.eq_of_testBit_eq
  intro i
  rw [testBit_bits, testBit_setBits, Nat.testBit_mod_two_pow]
  by_cases h : i < n
  · simp only [h, decide_true, Bool.true_and]
    rw [if_pos (by omega)]
    congr 1
    omega
  · simp only [h, decide_false, Bool.false_and]

/-- A field apart from the one that was set. -/
theorem bits_setBits_other (v lo n x lo' n' : Nat) (h : lo + n ≤ lo' ∨ lo' + n' ≤ lo) : bits (setBits v lo n x) lo' n' = bits v lo' n' := by
  apply Nat.eq_of_testBit_eq
  intro i
  rw [testBit_bits, testBit_bits, testBit_setBits]
  by_cases k : i < n'
  · rw [if_neg (by omega)]
  · simp only [k, decide_false, Bool.false_and]

theorem bits_mod32 (v lo n : Nat) (h : lo + n ≤ 32) : bits (v % 2 ^ 32) lo n = bits v lo n := by
  apply Nat.eq_of_testBit_eq
  intro i
  rw [testBit_bits, testBit_bits, Nat.testBit_mod_two_pow]
  by_cases k : i < n
  · have : lo + i < 32 := by omega
    simp only [this, decide_true, Bool.true_and]
  · simp only [k, decide_false, Bool.false_and]

/-- A field of a register after a field of a register has been set: the same field, a field apart, another register. -/
theorem rf_setRf_same (k lo n v : Nat) (s : State) (h : lo + n ≤ 32) : rf k lo n (setRf k lo n v s) = v % 2 ^ n := by
  simp only [rf, setRf, rv_setRv, if_true, bits_mod32 _ _ _ h, bits_setBits_same]

theorem rf_setRf_other (k lo n v lo' n' : Nat) (s : State) (h : lo' + n' ≤ 32) (d : lo + n ≤ lo' ∨ lo' + n' ≤ lo) :
    rf k lo' n' (setRf k lo n v s) = rf k lo' n' s := by
  simp only [rf, setRf, rv_setRv, if_true, bits_mod32 _ _ _ h, bits_setBits_other _ _ _ _ _ _ d]

theorem rv_setRv_ne (k j v : Nat) (s : State) (h : k ≠ j) : rv j (setRv k v s) = rv j s := by rw [rv_setRv, if_neg h]

theorem rv_setRf_ne (k lo n v j : Nat) (s : State) (h : k ≠ j) : rv j (setRf k lo n v s) = rv j s := rv_setRv_ne _ _ _ _ h

theorem rv_addRf_ne (k lo n v j : Nat) (s : State) (h : k ≠ j) : rv j (addRf k lo n v s) = rv j s := rv_setRf_ne _ _ _ _ _ _ h

theorem rv_cnt_ne (k j : Nat) (s : State) (h : k ≠ j) : rv j (cnt k s) = rv j s := rv_addRf_ne _ _ _ _ _ _ h

/-! ### Records: handing one over writes the ingest port, or, where it is full, the loss counters -/

theorem emitAt_room (t ty : Nat) (p : List Byte) (s : State) (h : s.evr.queue.length < 1024) :
    emitAt t ty p s = { s with evr.queue := s.evr.queue ++ [{ t := t, ty := ty, payload := pad8 p }] } := by
  simp only [emitAt, h, if_true]

theorem rv_emitAt_ne (t ty : Nat) (p : List Byte) (j : Nat) (s : State) (h : 0x0F006C ≠ j) : rv j (emitAt t ty p s) = rv j s := by
  simp only [emitAt]
  split
  · rfl
  · exact rv_cnt_ne _ _ _ h

theorem rv_emit_ne (ty : Nat) (f : List (Nat × Nat)) (j : Nat) (s : State) (h : 0x0F006C ≠ j) : rv j (emit ty f s) = rv j s := rv_emitAt_ne _ _ _ _ _ h

theorem rf_emit_ne (ty : Nat) (f : List (Nat × Nat)) (j lo n : Nat) (s : State) (h : 0x0F006C ≠ j) : rf j lo n (emit ty f s) = rf j lo n s := by
  simp only [rf, rv_emit_ne ty f j s h]

theorem rv_nvEvent_ne (b c d a j : Nat) (s : State) (h : 0x0F006C ≠ j) : rv j (nvEvent b c d a s) = rv j s := rv_emit_ne _ _ _ _ h

theorem rf_nvEvent_ne (b c d a j lo n : Nat) (s : State) (h : 0x0F006C ≠ j) : rf j lo n (nvEvent b c d a s) = rf j lo n s := rf_emit_ne _ _ _ _ _ _ h

end Sys2Proof.Machine
end

