-- ==== Sys2Proof/WellFormed.lean ====
section
/-! DEFINITION. Which commands are well formed: operands within the ranges that the spec gives them. A command outside them names nothing that can reach the module; exec is total on it all the same. -/

namespace Sys2Proof

/-- A presentation: at most 64 B of payload and of read size (R173). -/
def laneTxOk (x : LaneTx) : Bool := decide (x.data.length ≤ 64) && decide (x.size ≤ 64)

/-- What a voter sees of the lanes. -/
def seenOk (v : Seen) : Bool := [v.a, v.b, v.c].all (fun o => match o with | some x => laneTxOk x | none => true)

/-- A voted transaction (R173). -/
def txOk (tx : VotedTx) : Bool := seenOk tx.v1 && seenOk tx.v2

/-- Every presentation is a signature beat of 12 B: count and CRC (R175). -/
def beatSeen (v : Seen) : Bool :=
  [v.a, v.b, v.c].all (fun o => match o with | some x => x.kind == .beat && x.data.length == 12 | none => true)

/-- A signature beat (R175). -/
def beatOk (tx : VotedTx) : Bool := beatSeen tx.v1 && beatSeen tx.v2

/-- A restart gives crossings and losses of the field sequencer only, held transactions of the voter pair only, and at most the last 16 crossings of a pin (R194, R393). -/
def restartOk (r : RestartIn) : Bool :=
  (r.unit == .field || (r.crossings.isEmpty && r.lost.isEmpty)) && (r.unit == .voter || r.again.isEmpty)
    && (List.range 32).all (fun n => decide ((r.crossings.filter (fun c => c.1.val == n)).length ≤ 16))

/-- At most one restart of each unit ends at a boundary (R24). -/
def restartsOk (l : List RestartIn) : Bool :=
  l.all restartOk && [DuplexUnit.voter, .lattice, .field].all (fun u => decide ((l.filter (fun r => r.unit == u)).length ≤ 1))

/-- A bus frame: 32 B of payload, received at a bus port (R280). -/
def frameOk (f : BusFrame) : Bool := f.payload.length == 32 && decide (f.port.val < 4)

/-- A delay frame: 4 B of payload on the bus, at most 8 B on a module link (R54, R286). -/
def linkFrameOk (f : BusFrame) : Bool := if f.port.val < 4 then f.payload.length == 4 else decide (f.payload.length ≤ 8)

/-- A slot of the longest cycle (R274). -/
def slotOk (n : Nat) : Bool := decide (n < 2000)

/-- IDs of event tasks, and of all tasks (R137). -/
def eventTask (n : Nat) : Bool := decide (16 ≤ n) && decide (n < 48)
def anyTask (n : Nat) : Bool := decide (n ≤ 48)

/-- The 48 key slots (R348). -/
def keySlot (n : Nat) : Bool := decide (n < 48)

/-- Working lanes of a module link: down, 1, 2 or 4 (R43). -/
def lanesOk (n : Nat) : Bool := n == 0 || n == 1 || n == 2 || n == 4

/-- A telegram with its header and check values fits an Ethernet frame. -/
def telOk (t : TelIn) : Bool := decide (t.data.length ≤ 1500)

/-- An Ethernet frame without its check sequence: 14 B of header at least, 1,518 B at most. -/
def ethOk (f : EthFrame) : Bool := decide (14 ≤ f.bytes.length) && decide (f.bytes.length ≤ 1518)

/-- A mirror message: a stream of R56 and a body of at most 1,056 B. -/
def mirrorOk (m : MirrorMsg) : Bool := (m.stream == 1#8 || m.stream == 2#8) && decide (m.body.length ≤ 1056)

/-- A relay segment: 24 B on the bus, 1,024 B elsewhere, and the reserved bits 0 (R461). -/
def segOk (m : RelaySeg) : Bool := m.bytes.length == (if m.transport.val = 0 then 24 else 1024) && m.word.toNat / 2 ^ 28 == 0

/-- An image kind (R447). -/
def kindOk (k : BitVec 2) : Bool := k != 0#2

/-- Current and voltage of a status message fit their fields (R397). -/
def statusOk (m : StatusMsg) : Bool := decide (m.iMa < 2048) && decide (m.vDv < 1024)

/-- The check pass of an exchange ends after its reconversion (R256). -/
def quietOk (q : QuietIn) : Bool := decide (q.reconvUs ≤ q.checkUs)

/-- The lane monitor judges the last eight samples of a quantity (R202). -/
def monOk (m : MonIn) : Bool := m.v1.length == 8 && m.v2.length == 8

/-- A physical fault that an engine step meets lies in lattice SRAM (R3, R234). -/
def engineOk (u : EngineIn) : Bool := u.hits.all (fun h => decide (0x100000000 ≤ h.1.toNat) && decide (h.1.toNat < 0x100600000))

/-- A well-formed command. -/
def Instr.wf : Instr → Bool
  | .powerUp _ _ => true
  | .nrstLow _ _ => true
  | .powerFailWarning _ _ _ _ => true
  | .vinLoss _ => true
  | .rtcLost _ => true
  | .clockFault _ _ _ => true
  | .minorCycleBoundary b => restartsOk b.restarts && engineOk b.engine
  | .majorCycleBoundary _ => true
  | .inputFreeze _ => true
  | .outputApply _ => true
  | .comparePoint _ _ => true
  | .votedTransaction _ tx => txOk tx
  | .signatureBeat _ tx => beatOk tx
  | .laneTimeout _ tx => txOk tx
  | .laneMonitorTrip _ _ m => monOk m
  | .selfTestDone _ _ _ => true
  | .relight _ r => beatOk r.beat
  | .restartComplete _ r => restartOk r
  | .holdWindowExpiry _ => true
  | .degradedNotice _ => true
  | .degradedExpired _ => true
  | .debugAttach _ _ => true
  | .debugDetach _ => true
  | .debugHalt _ _ => true
  | .debugAttachLimit _ => true
  | .debugDenied _ _ _ => true
  | .vNop _ _ => true
  | .vMov _ _ => true
  | .vLdi _ _ => true
  | .vLdx _ _ => true
  | .vStx _ _ => true
  | .vCast _ _ => true
  | .vAdd _ _ => true
  | .vSub _ _ => true
  | .vMul _ _ => true
  | .vDiv _ _ => true
  | .vMod _ _ => true
  | .vNeg _ _ => true
  | .vAbs _ _ => true
  | .vMin _ _ => true
  | .vMax _ _ => true
  | .vLim _ _ => true
  | .vAnd _ _ => true
  | .vOr _ _ => true
  | .vXor _ _ => true
  | .vNot _ _ => true
  | .vShl _ _ => true
  | .vShr _ _ => true
  | .vRol _ _ => true
  | .vRor _ _ => true
  | .vCeq _ _ => true
  | .vCne _ _ => true
  | .vClt _ _ => true
  | .vCle _ _ => true
  | .vCgt _ _ => true
  | .vCge _ _ => true
  | .vBtst _ _ => true
  | .vBset _ _ => true
  | .vBclr _ _ => true
  | .vJmp _ _ => true
  | .vJt _ _ => true
  | .vJf _ _ => true
  | .vCall _ _ => true
  | .vRet _ _ => true
  | .vTstamp _ _ => true
  | .vPost _ _ => true
  | .vFetch _ _ => true
  | .vRdreg _ _ => true
  | .vWrreg _ _ => true
  | .vTmr _ _ => true
  | .vEdg _ _ => true
  | .vFlt _ _ => true
  | .vTokv _ _ => true
  | .vTrap _ _ => true
  | .sysTrip _ _ _ => true
  | .eventTaskRelease _ task => eventTask task
  | .taskOverrun _ task _ => anyTask task
  | .reqNormal _ => true
  | .reqTest _ => true
  | .verifiedEntryExpiry _ _ => true
  | .forceSet _ => true
  | .forceClear _ => true
  | .forceClearAll _ => true
  | .forceExpiry _ _ _ => true
  | .scrubRead _ _ => true
  | .scrubPassLate _ => true
  | .injArm _ _ => true
  | .xchgLoad _ _ => true
  | .xchgLoadDone _ _ => true
  | .xchgCheckDone _ => true
  | .preparationComplete _ => true
  | .xchgArm _ => true
  | .xchgDisarm _ => true
  | .xchgWindow _ => true
  | .quietPoint _ q => quietOk q
  | .sync _ f => frameOk f
  | .coldstart _ f => frameOk f
  | .vital _ f => frameOk f
  | .background _ f => frameOk f
  | .null _ f => frameOk f
  | .delayReq _ f => linkFrameOk f
  | .delayResp _ f => linkFrameOk f
  | .linkDelayMeasure _ _ => true
  | .portLinkUp _ _ => true
  | .txringTake _ slot => slotOk slot
  | .slotStart _ slot => slotOk slot
  | .vbusEnable _ _ => true
  | .listenTimeout _ => true
  | .backoffExpiry _ => true
  | .lamplighterTakeover _ => true
  | .busLost _ => true
  | .busSilence _ => true
  | .telegram _ t => telOk t
  | .ethernetFrame _ f => ethOk f
  | .telegramSealing _ _ => true
  | .create _ _ => true
  | .destroy _ _ => true
  | .keyCommit _ slot => keySlot slot
  | .keyLock _ slot => keySlot slot
  | .cvuFeed _ _ => true
  | .linkRetrain _ _ width => lanesOk width
  | .latCommit _ m => mirrorOk m
  | .channel _ m => mirrorOk m
  | .force _ m => mirrorOk m
  | .command _ m => mirrorOk m
  | .ramWrite _ m => mirrorOk m
  | .boundary _ m => mirrorOk m
  | .solo _ m => mirrorOk m
  | .safeStateMark _ m => mirrorOk m
  | .handover _ m => mirrorOk m
  | .commitMark _ m => mirrorOk m
  | .ack _ m => mirrorOk m
  | .syncReq _ m => mirrorOk m
  | .mirrorFenceTimeout _ => true
  | .standbySynced _ => true
  | .takeover _ => true
  | .set _ u => engineOk u
  | .cancel _ u => engineOk u
  | .elementBlock _ u => engineOk u
  | .elementUnblock _ u => engineOk u
  | .pointLock _ u => engineOk u
  | .pointFree _ u => engineOk u
  | .emergencyRelease _ u => engineOk u
  | .undefinedRequest _ u => engineOk u
  | .update _ u => engineOk u
  | .resultWriteResume _ => true
  | .resultPause _ => true
  | .cancelTimeExpiry _ x => engineOk x.2
  | .approachTimeExpiry _ x => engineOk x.2
  | .overlapTimeExpiry _ x => engineOk x.2
  | .zoneLapse _ x => engineOk x.2
  | .borderTimeout _ x => engineOk x.2
  | .inputCrossing _ _ _ _ _ => true
  | .confirmedChange _ _ => true
  | .inBand _ _ => true
  | .couplerLost _ _ => true
  | .fieldStatus _ _ m => statusOk m
  | .refreshFrame _ _ _ => true
  | .timedOut _ _ => true
  | .staggeredSwitchOn _ _ => true
  | .testSlot _ _ => true
  | .offPulseEnd _ _ _ => true
  | .lightTestEnd _ _ _ _ => true
  | .crossWatchEnd _ _ => true
  | .overload _ _ _ => true
  | .groupOverload _ _ _ => true
  | .driveFail _ _ => true
  | .supplyWindow _ _ _ => true
  | .unpowered _ _ _ => true
  | .unpoweredExit _ _ _ => true
  | .unlatch _ _ => true
  | .snufferFeed _ view => txOk view
  | .pathATrip _ _ => true
  | .pathAClose _ _ _ => true
  | .kauxSample _ _ _ _ => true
  | .pathTest _ _ _ _ => true
  | .testNow _ => true
  | .kdrop _ _ => true
  | .buttonSample _ _ _ => true
  | .buttonHeld _ => true
  | .buttonTransitTimeout _ => true
  | .buttonReleased1s _ => true
  | .step _ => true
  | .accept _ => true
  | .kick _ => true
  | .discard _ => true
  | .timeIncr _ _ => true
  | .stSnapshot _ => true
  | .rtcCapture _ => true
  | .civilHoldover _ => true
  | .civilPendingDiscarded _ => true
  | .rtcWrite _ => true
  | .timeEpochNear _ => true
  | .cycleLimit _ => true
  | .timeProvHeld _ => true
  | .recordIngest _ => true
  | .openRecordClose _ => true
  | .pageCommit _ _ => true
  | .mount _ _ => true
  | .stall _ => true
  | .freeze _ => true
  | .thaw _ => true
  | .freezeTimeout _ => true
  | .recorderClear _ _ => true
  | .clearingDone _ => true
  | .read _ _ _ _ => true
  | .readStop _ => true
  | .recorderExpired _ => true
  | .statUpdate _ => true
  | .offer _ m => segOk m
  | .data _ m => segOk m
  | .good _ m => segOk m
  | .bad _ m => segOk m
  | .resume _ m => segOk m
  | .refuse _ m => segOk m
  | .chunkStored _ kind _ => kindOk kind
  | .offerRepeat _ kind => kindOk kind
  | .chunkTimeout _ kind => kindOk kind
  | .transferTimeout _ kind => kindOk kind
  | .abortDl _ => true
  | .verifyDone _ kind => kindOk kind
  | .prepare _ _ => true
  | .prepareDone _ => true
  | .updArm _ => true
  | .activationCancel _ => true
  | .activation _ q => quietOk q
  | .confirm _ => true
  | .confirmTimeout _ => true
  | .linkTraining _ _ width => lanesOk width
  | .portLinkDown _ _ => true
  | .ethernetPortLink _ _ _ => true
  | .createComplete _ _ => true
  | .controllerSelfCheck _ _ => true
  | .vbakSample _ _ => true
  | .vinSag _ _ _ => true
  | .temperatureSample _ _ => true

end Sys2Proof
end

