-- ==== Sys2Proof/Tests/Slice0.lean ====
section
/-! SUPPORT. Tests: an ill-formed command for each check of WellFormed, a few single steps against the spec's own numbers, and for every obligation with hypotheses a concrete state and operands that meet them. -/

namespace Sys2Proof.Tests
open Sys2Proof Sys2Proof.Machine

set_option maxRecDepth 20000
set_option linter.unusedVariables false
set_option Elab.async false

/-! ### What the tests share -/

/-- A module in NORMAL with three lit lanes and every block open to the program. -/
def run : State :=
  { pwr := { phase := .running }
    prg := { mode := .normal }
    tri := { a := { st := .lit }, b := { st := .lit }, c := { st := .lit } }
    clk := { prov := false, cycle := 5000, up := 1000000 }
    evr := { st := .running, seqNext := 10, bound := 5000 }
    cfg := { present := true, progBlocks := 2 ^ 32 - 1, instSize := 0x1000, globSize := 0x1000 } }

/-- The same module in FREE. -/
def free : State := { run with prg := { mode := .free } }

/-- One lane's presentation. -/
def tx (k : TxKind) (a : BitVec 40) (d : List Byte) : LaneTx :=
  { addr := a, be := 0xFF, data := d, kind := k, size := d.length, priv := false, seq := 0, at' := 0 }

/-- All three lanes present `x` to both voters. -/
def agreed (x : LaneTx) : VotedTx := { v1 := ⟨some x, some x, some x⟩, v2 := ⟨some x, some x, some x⟩ }

/-- Whether a verdict on a telegram is a pass. -/
def passes : TelClass → Bool
  | .pass _ => true
  | _ => false

theorem some_triple {α β γ : Type} {o : Option (α × β × γ)} (h : o.isSome = true) :
    o = some ((o.get h).1, (o.get h).2.1, (o.get h).2.2) := by
  cases o with
  | none => cases h
  | some x => rfl

theorem ev_ok {e : Ev} {s : State} {v : Nat}
    (h : (match e with | .ok t u => decide (t = s) && decide (u = v) | .trap _ _ => false) = true) : e = .ok s v := by
  cases e with
  | ok t u => simp only [Bool.and_eq_true, decide_eq_true_eq] at h; rw [h.1, h.2]
  | trap c t => cases h
/-- The state and the value of an operand. -/
def evState : Ev → State
  | .ok t _ => t
  | .trap _ t => t
def evVal : Ev → Nat
  | .ok _ v => v
  | .trap _ _ => 0
theorem ev_get {e : Ev} (h : (match e with | .ok _ _ => true | .trap _ _ => false) = true) : e = .ok (evState e) (evVal e) := by
  cases e with
  | ok t u => rfl
  | trap c t => cases h

/-- A release whose scratch registers 8 and 9 hold `x` and `y`. -/
def two (x y : Nat) : State :=
  { run with prg.active := [{ task := 3, frames := [{ block := 0, pc := 0, base := 0x4000040 }], scr := [(8, x), (9, y)] }] }
/-- An instruction of type `ty` on scratch registers 8 and 9. -/
def ins (ty : Nat) (sub : Nat := 0) (src2 : BitVec 16 := 0x2009) : VInstr :=
  { ty := BitVec.ofNat 4 ty, sub := BitVec.ofNat 4 sub, dst := 0x200A, src1 := 0x2008, src2 := src2, laneB := false }

/-- A request of `op` for `tgt`. -/
def req (op tgt : Nat) (step : Nat := 0) : LatReq :=
  { ring := 48, entry := packFields [(1, op + 16 * step), (1, 0), (2, 0x55), (2, tgt), (2, 0), (8, 4999 * 2 ^ 24), (4, 0), (4, if op = 7 then 7 else 0), (8, 0)] }
/-- Element `e` with its dynamic and configuration words. -/
def elem (e v conf : Nat) (m : List Host.Cell) : List Host.Cell :=
  memSetList (elemAddr e + 8) (leBytes 8 conf) (txWrite (elemAddr e) v { m := m }).m
/-- Route 1, a route without an overlap, in state `st`. -/
def route1 (st : Nat) (times : Nat := 0) : List Host.Cell :=
  let b := packFields [(4, 2 ^ 12 + 2 ^ 16 * 3), (4, 0), (4, 20), (4, 0), (4, times), (4, 16384), (4, 3)]
  (txWrite (routeAddr 1) st { m := memSetList (0x1004A0000 + 32) (b ++ leBytes 4 (crc32c b)) [] }).m

/-- An update of element `tgt` to `st`, from ring 49 or an edge. -/
def upd (tgt st : Nat) : List Byte := packFields [(1, 8), (1, 0), (2, 0x55), (2, tgt), (2, st), (8, 4999 * 2 ^ 24), (16, 0)]

/-- A code slot at `a` whose one program block is the one instruction word `v`. -/
def oneBlock (a v : Nat) : List Host.Cell :=
  let b := bodyAddr a []
  memSetList b (packFields [(4, 1), (12, 0), (2, 0x0201), (2, 0), (4, 0x400), (4, 100), (4, 0)])
    (memSetList (a + 0x400) (packFields [(4, 1), (4, 8), (8, 0), (8, 0x100)]) (memSetList (a + 0x500) (leBytes 8 v) []))
def conv0 : ProgImage := { blocks := [{ count := 1 }] }
def work1 : ConvWork := { path := 1, slots := 4, old := [0], dirty := [0] }
def cw (v : Nat) : State :=
  { run with
    xch := { st := .draining, window := true, target := 1, image := some conv0, work := [work1] }
    vm.prog1 := some conv0, vm.valid1 := true
    mem := oneBlock 0x02000000 v }

/-! ### WellFormed: an ill-formed command for each check -/

theorem test_wf_txOk : (Instr.votedTransaction 0 (agreed (tx .write 0x4000000 (List.replicate 65 0)))).wf = false := by decide
theorem test_wf_beatOk : (Instr.signatureBeat 0 (agreed (tx .beat 0 (List.replicate 11 0)))).wf = false := by decide
theorem test_wf_restartOk :
    (Instr.restartComplete 0 { unit := .lattice, restored := true, missed := 0, again := [], crossings := [(3, true, 0)], lost := [] }).wf
      = false := by decide
theorem test_wf_restartsOk :
    (Instr.minorCycleBoundary
      { restarts := List.replicate 2 { unit := .voter, restored := true, missed := 0, again := [], crossings := [], lost := [] } }).wf
      = false := by decide
theorem test_wf_engineOk : (Instr.update 0 { disagree := false, hits := [(0x4000000, .swapped)] }).wf = false := by decide
theorem test_wf_monOk : (Instr.laneMonitorTrip 0 .supply { v1 := [], v2 := [] }).wf = false := by decide
theorem test_wf_eventTask : (Instr.eventTaskRelease 0 15).wf = false := by decide
theorem test_wf_anyTask : (Instr.taskOverrun 0 49 false).wf = false := by decide
theorem test_wf_quietOk : (Instr.quietPoint 0 { reconvUs := 2, checkUs := 1, stallUs := 0 }).wf = false := by decide
theorem test_wf_frameOk : (Instr.vital 0 { port := 0, header := 0, payload := [], check := 0, ns := 0 }).wf = false := by decide
theorem test_wf_linkFrameOk :
    (Instr.delayReq 0 { port := 5, header := 0, payload := List.replicate 9 0, check := 0, ns := 0 }).wf = false := by decide
theorem test_wf_slotOk : (Instr.slotStart 0 2000).wf = false := by decide
theorem test_wf_telOk : (Instr.telegram 0 { port := 0, tag := 0, data := List.replicate 1501 0 }).wf = false := by
  show decide ((List.replicate 1501 (0 : Byte)).length ≤ 1500) = false
  rw [List.length_replicate]; rfl
theorem test_wf_ethOk : (Instr.ethernetFrame 0 { port := some 0, bytes := [], out := none, resNs := 0 }).wf = false := by decide
theorem test_wf_keySlot : (Instr.keyLock 0 48).wf = false := by decide
theorem test_wf_linkWidth : (Instr.linkRetrain 0 0 3).wf = false := by decide
theorem test_wf_mirrorOk : (Instr.ack 0 { stream := 3, mseq := 0, tMsg := 0, body := [], check := 0, link := {} }).wf = false := by decide
theorem test_wf_statusOk :
    (Instr.fieldStatus 0 0 { good := true, limit := false, iMa := 2048, vDv := 0, disagree := false }).wf = false := by decide
theorem test_wf_segOk : (Instr.offer 0 { transport := 0, node := 1, word := 0, bytes := [] }).wf = false := by decide
theorem test_wf_kindOk : (Instr.verifyDone 0 0).wf = false := by decide

/-! ### Single steps and the spec's own numbers -/

/-- R333, table: both codes over ASCII "123456789". -/
theorem test_crc_values :
    crc32c [0x31, 0x32, 0x33, 0x34, 0x35, 0x36, 0x37, 0x38, 0x39] = 0xE3069283
      ∧ crc32 [0x31, 0x32, 0x33, 0x34, 0x35, 0x36, 0x37, 0x38, 0x39] = 0xCBF43926 := by decide +kernel

/-- 08_time.md, after R313: the example stamp marks 312.5 µs of cycle 4,294,983,296, in units of 1/16,384 µs. -/
theorem test_stamp_example : lin 0x0100003E804E2000 = 4294983296 * 16384000 + 5120000 := by decide +kernel

/-- 15_registers.md, worked example: a write to the set alias of a locked `MEM_CTL` changes no bit and is reported. -/
theorem test_lock_example :
    (let t := regWrite 0xF0034080 3 { run with regs := [(0x030000, 0x80000000#32)] }
     rv 0x030000 t == 0x80000000 && rv 0x00000C t == 0xF0034080 && rv 0x000010 t == 3) = true := by decide +kernel

/-- R129: a sum beyond INT64 wraps; integer division truncates. -/
theorem test_add_wraps :
    (match exec (.vAdd 0 (ins 3)) (two (2 ^ 63 - 1) 1) with
      | .next t => scrGet false 10 t == 2 ^ 63
      | _ => false) = true := by decide +kernel
theorem test_div_rounds_to_zero :
    (match exec (.vDiv 0 (ins 3)) (two (2 ^ 64 - 7) 2) with
      | .next t => scrGet false 10 t == 2 ^ 64 - 3
      | _ => false) = true := by decide +kernel

/-! ### Every obligation with hypotheses: a state and operands that meet them -/

namespace ForStepRunsFrontCommand

/-- States and operands that meet the hypotheses of `Obligations.StepRunsFrontCommand`. -/
theorem witness_StepRunsFrontCommand :
    ∃ c : Instr, ∃ rest : List Instr, ∃ s : State, s.pending = c :: rest :=
  ⟨(.vinLoss 0), [], { run with pending := [.vinLoss 0] }, rfl⟩

end ForStepRunsFrontCommand

namespace ForEmptyQueueIdles

/-- States and operands that meet the hypotheses of `Obligations.EmptyQueueIdles`. -/
theorem witness_EmptyQueueIdles :
    ∃ s : State, s.pending = [] :=
  ⟨run, rfl⟩

end ForEmptyQueueIdles

namespace ForResetState

/-- States and operands that meet the hypotheses of `Obligations.ResetState`. -/
theorem witness_ResetState :
    ∃ a, (a < 0x200000000 ∨ 0x200000100 ≤ a) :=
  ⟨0, by decide +kernel⟩

end ForResetState

namespace ForStepKeepsInvariant

/-- States and operands that meet the hypotheses of `Obligations.StepKeepsInvariant`. -/
theorem witness_StepKeepsInvariant :
    ∃ s : State, ∃ t : State, Inv s ∧ step s = .next t :=
  ⟨run, run, ⟨by decide, by decide, by decide, by decide, by decide⟩, rfl⟩

end ForStepKeepsInvariant

namespace ForTimePasses

/-- States and operands that meet the hypotheses of `Obligations.TimePasses`. -/
theorem witness_TimePasses :
    (∃ s : State, powered s = false)
    ∧ (∃ s : State, powered s = true ∧ (s.tri.stallFrom ≠ none ∨ s.prg.releaseHeld = true))
    ∧ (∃ s : State, powered s = true ∧ s.tri.stallFrom = none ∧ s.prg.releaseHeld = false ∧ ∃ p : List Release, ∃ q : List Release,
    ∃ r : Release, s.prg.active = p ++ r :: q ∧ (∀ x ∈ p, x.laneB ≠ r.laneB) ∧ laneStopped r.laneB s = false)
    ∧ (∃ s : State, powered s = true ∧ s.tri.stallFrom = none ∧ s.prg.releaseHeld = false ∧ ∃ p : List Release, ∃ q : List Release,
    ∃ r : Release, s.prg.active = p ++ r :: q ∧ ((∃ x ∈ p, x.laneB = r.laneB) ∨ laneStopped r.laneB s = true))
    ∧ (∃ s : State, powered s = true ∧ s.xch.resumeAt ≤ nowLin s)
    ∧ (∃ s : State, s.cand.rtcLost = true)
    ∧ (∃ s : State, s.cand.rtcLost = false ∧ s.cand.rtcSub < 32768 ∧ s.cand.rtcRem < 100000000000000) := by
  refine ⟨?_, ?_, ?_, ?_, ?_, ?_, ?_⟩
  · exact ⟨({ run with pwr.phase := .off }), by decide +kernel⟩
  · exact ⟨((fun s => { s with tri.stallFrom := some 0, tri.hold := some 0 } : State → State) (run)), by decide +kernel⟩
  · exact ⟨({ run with prg.active := [{task := 1, exec := 5},{task := 2, exec := 6},{task := 3, laneB := true, exec := 9},{task := 4, laneB := true}] }), by decide +kernel, by decide +kernel, by decide +kernel, ([]), ([{task := 2, exec := 6},{task := 3, laneB := true, exec := 9},{task := 4, laneB := true}]), ({task := 1, exec := 5}), by decide +kernel⟩
  · exact ⟨({ run with prg.active := [{task := 1, exec := 5},{task := 2, exec := 6},{task := 3, laneB := true, exec := 9},{task := 4, laneB := true}] }), by decide +kernel, by decide +kernel, by decide +kernel, ([{task := 1, exec := 5}]), ([{task := 3, laneB := true, exec := 9},{task := 4, laneB := true}]), ({task := 2, exec := 6}), by decide +kernel⟩
  · exact ⟨run, by decide +kernel⟩
  · exact ⟨({ run with cand.rtcLost := true }), by decide +kernel⟩
  · exact ⟨run, by decide +kernel⟩

end ForTimePasses

namespace ForTimePasses2

/-- States and operands that meet the hypotheses of `Obligations.TimePasses`. -/
theorem witness_TimePasses_2 :
    ∃ s : State, (∀ p, (busPort p s).out = []) ∧ (∀ l, (link l s).queue = []) ∧ s.lnk.copyAt = none :=
  ⟨run, by intro p; rcases p with _ | _ | _ | _ | p <;> rfl, by intro l; rcases l with _ | _ | _ | l <;> rfl, rfl⟩

end ForTimePasses2

namespace ForCivilCommandEffects

/-- States and operands that meet the hypotheses of `Obligations.CivilCommandEffects`. -/
theorem witness_CivilCommandEffects :
    (∃ s : State, lanesRun s = true ∧ bit s.cfg.progBlocks 9 = true ∧ s.cfg.split = false)
    ∧ (∃ s : State, lanesRun s = true ∧ bit s.cfg.progBlocks 9 = true ∧ s.cfg.split = true)
    ∧ (∃ s : State, lanesRun s = true ∧ bit s.cfg.progBlocks 9 = true ∧ (s.civ.st = .acquire ∨ (stepAmount s).natAbs ≤ rf 0x090004 0 30 s))
    ∧ (∃ s : State, lanesRun s = true ∧ bit s.cfg.progBlocks 9 = true ∧ s.civ.st ≠ .acquire ∧ rf 0x090004 0 30 s < (stepAmount s).natAbs)
    ∧ (∃ dt : Nat, ∃ s : State, lanesRun s = true ∧ bit s.cfg.progBlocks 9 = true ∧ ∃ p : Int, ∃ e : VerEntry, s.civ.st = .holdover ∧
    s.civ.pending = some p ∧ findToken (rv 0x090030 s) 5 (begin' dt s) = some e ∧ nowLin (begin' dt s) - lin s.civ.refusedAt ≤ secLin s 60)
    ∧ (∃ s : State, lanesRun s = true ∧ bit s.cfg.progBlocks 9 = true ∧ s.civ.st = .locked)
    ∧ (∃ data : Half, ∃ s : State, lanesRun s = true ∧ bit s.cfg.progBlocks 9 = true ∧ 0x9FD70A3E ≤ data.toNat ∧ data.toNat ≤ 0xA028F5C2)
    ∧ (∃ data : Half, ∃ s : State, lanesRun s = true ∧ bit s.cfg.progBlocks 9 = true ∧ (data.toNat < 0x9FD70A3E ∨ 0xA028F5C2 < data.toNat)) := by
  refine ⟨?_, ?_, ?_, ?_, ?_, ?_, ?_, ?_⟩
  · exact ⟨run, by decide +kernel⟩
  · exact ⟨{ run with cfg.split := true }, by decide +kernel⟩
  · exact ⟨run, by decide +kernel⟩
  · exact ⟨{ run with civ.st := .locked, regs := [(0x090024, 0x80000000#32)] }, by decide +kernel⟩
  · exact ⟨0, { run with civ := { st := .holdover, pending := some (-5), refusedAt := 4999 * 2 ^ 24 }, regs := [(0x090030, 7#32)], prg.tokVer := [{ id := 7, act := 5, at' := 5000 * 2 ^ 24 }] }, by decide +kernel, by decide +kernel, _, _, by decide +kernel, rfl, rfl, by decide +kernel⟩
  · exact ⟨{ run with civ.st := .locked }, by decide +kernel⟩
  · exact ⟨0x9FD70A3E#32, run, by decide +kernel⟩
  · exact ⟨0xA028F5C3#32, run, by decide +kernel⟩

end ForCivilCommandEffects

namespace ForCivilTimeEvents

/-- States and operands that meet the hypotheses of `Obligations.CivilTimeEvents`. -/
theorem witness_CivilTimeEvents :
    (∃ s : State, lanesRun s = true)
    ∧ (∃ dt : Nat, ∃ s : State, powered s = true ∧ s.civ.st = .locked ∧ secLin s 3600 ≤ nowLin (begin' dt s) - lin s.civ.rtcWroteAt)
    ∧ (∃ dt : Nat, ∃ s : State, powered s = true ∧ s.civ.st = .locked ∧ secLin s (rf 0x090000 0 6 s) ≤ nowLin (begin' dt s) - lin s.civ.wdogFrom)
    ∧ (∃ dt : Nat, ∃ s : State, ∃ p, powered s = true ∧ s.civ.st = .holdover ∧ s.civ.pending = some p ∧ secLin s 60 < nowLin (begin' dt s) - lin s.civ.refusedAt)
    ∧ (∃ dt : Nat, ∃ s : State, powered s = true ∧ 0xF000000000 ≤ s.clk.cycle ∧ (∀ x, s.clk.epochNearAt = some x → secLin s 3600 ≤ nowLin (begin' dt s) - x))
    ∧ (∃ s : State, powered s = true ∧ s.clk.prov = true ∧ s.clk.provHeld = false ∧ 0xFFFFFFFF ≤ s.clk.cycle)
    ∧ (∃ s : State, ∃ mv : Nat, powered s = true ∧ mv ≤ 0xFFF)
    ∧ (∃ s : State, s.pwr.phase = .off) := by
  refine ⟨?_, ?_, ?_, ?_, ?_, ?_, ?_, ?_⟩
  · exact ⟨run, by decide +kernel⟩
  · exact ⟨0, { run with clk.cycle := 3600000, civ.st := .locked }, by decide +kernel⟩
  · exact ⟨0, { run with clk.cycle := 100000, civ.st := .locked }, by decide +kernel⟩
  · exact ⟨1, { run with clk.cycle := 60000, civ := { st := .holdover, pending := some 5 } }, _, by decide +kernel, by decide +kernel, rfl, by decide +kernel⟩
  · exact ⟨0, { run with clk.cycle := 0xF000000000 }, by decide +kernel, by decide +kernel, by intro x h; cases h⟩
  · exact ⟨{ run with clk := { cycle := 0xFFFFFFFF } }, by decide +kernel⟩
  · exact ⟨run, 0xFFF, by decide +kernel⟩
  · exact ⟨{ run with pwr.phase := .off }, by decide +kernel⟩

end ForCivilTimeEvents

namespace ForAgreedTransactionsCommit

/-- States and operands that meet the hypotheses of `Obligations.AgreedTransactionsCommit`. -/
theorem witness_AgreedTransactionsCommit :
    (∃ x : LaneTx, ∃ s : State, triadVotes s = true ∧ 2 ≤ (litLanes s).length ∧ x.kind = .write ∧ x.addr.toNat % 8 = 0 ∧
    x.data.length = 8 ∧ (∀ i, i < 8 → x.be.getLsbD i = true) ∧ laneWritable x.addr.toNat s = true ∧ Memory.wf s.mem = true ∧
    s.vm.mapActive = [] ∧ rf 0x030000 0 1 s = 0 ∧ s.lnk.pair ≠ .active)
    ∧ (∃ x : LaneTx, ∃ s : State, triadVotes s = true ∧ 2 ≤ (litLanes s).length ∧ x.kind = .write ∧ x.addr.toNat % 8 = 0 ∧
    x.data.length = 8 ∧ (∀ i, i < 8 → x.be.getLsbD i = true) ∧ 0x100000000 ≤ x.addr.toNat ∧ x.addr.toNat < 0x100600000 ∧
    s.cfg.instSize ≤ 0x3000000 ∧ s.cfg.globSize ≤ 0x10000)
    ∧ (∃ x : LaneTx, ∃ s : State, triadVotes s = true ∧ 2 ≤ (litLanes s).length ∧ x.kind = .regRead ∧ regAddress x.addr.toNat = true) := by
  refine ⟨?_, ?_, ?_⟩
  · exact ⟨(tx .write 0x4000008 (List.replicate 8 7)), run, by decide +kernel, by decide +kernel, by decide +kernel, by decide +kernel, by decide +kernel, by decide, by decide +kernel, by decide +kernel, by decide +kernel, by decide +kernel, by decide +kernel⟩
  · exact ⟨(tx .write 0x1005FFFF8 (List.replicate 8 7)), run, by decide +kernel⟩
  · exact ⟨(tx .regRead 0xF0000000 []), run, by decide +kernel⟩

end ForAgreedTransactionsCommit

namespace ForVoteVerdicts

def tx0 (a : BitVec 40) (k : TxKind) (d : List Byte) : LaneTx := { addr := a, be := 0xFF, data := d, kind := k, size := 8, priv := false, seq := 5, at' := 0 }
def tw : LaneTx := tx0 0x4000000 .write [1,2,3,4,5,6,7,8]

/-- States and operands that meet the hypotheses of `Obligations.VoteVerdicts`. -/
theorem witness_VoteVerdicts :
    (∃ dt : Nat, ∃ l : LaneId, ∃ x : LaneTx, ∃ y : LaneTx, ∃ s : State, triadVotes s = true ∧ litLanes s = allLanes ∧
    apart y.at' x.at' ≤ 96 ∧ (txDiff y x ≠ 0 ∨ 2 < apart y.at' x.at') ∧ thirdRelight (lane l s) (begin' dt s) = false ∧
    delayPath (lane l s) s = false)
    ∧ (∃ dt : Nat, ∃ l : LaneId, ∃ x : LaneTx, ∃ y : LaneTx, ∃ s : State, triadVotes s = true ∧ ∃ v : Option LaneTx,
    litLanes s = allLanes ∧ (v = none ∨ ∃ y, v = some y ∧ x.at' + 96 < y.at') ∧ thirdRelight (lane l s) (begin' dt s) = false ∧
    delayPath (lane l s) s = false)
    ∧ (∃ x : LaneTx, ∃ y : LaneTx, ∃ s : State, triadVotes s = true ∧ mayHalt s ∧ litLanes s = [.a, .b] ∧ (txDiff x y ≠ 0 ∨ 2 < apart x.at' y.at'))
    ∧ (∃ x : LaneTx, ∃ y : LaneTx, ∃ z : LaneTx, ∃ s : State, triadVotes s = true ∧ mayHalt s ∧ litLanes s = allLanes ∧
    txDiff x y ≠ 0 ∧ txDiff y z ≠ 0 ∧ txDiff x z ≠ 0)
    ∧ (∃ tx : VotedTx, ∃ s : State, triadVotes s = true ∧ judge (litLanes s) tx.v1 ≠ judge (litLanes s) tx.v2 ∧
    s.tri.voter.used = false)
    ∧ (∃ tx : VotedTx, ∃ s : State, triadVotes s = true ∧ mayHalt s ∧ judge (litLanes s) tx.v1 ≠ judge (litLanes s) tx.v2 ∧
    s.tri.voter.used = true) := by
  refine ⟨?_, ?_, ?_, ?_, ?_, ?_⟩
  · exact ⟨0, .a, tw, (tx0 0x4000008 .write [1,2,3,4,5,6,7,8]), run, by decide +kernel⟩
  · exact ⟨0, .a, tw, tw, run, by decide +kernel, none, by decide +kernel⟩
  · exact ⟨tw, (tx0 0x4000008 .write [1,2,3,4,5,6,7,8]), ({run with tri := { run.tri with c := {st := .ready}, voter := {gen := 5, used := true}}}), by dsimp only [mayHalt, pinsOf]; decide +kernel⟩
  · exact ⟨tw, (tx0 0x4000008 .write [1,2,3,4,5,6,7,8]), (tx0 0x4000000 .write [1,2,3,4,5,6,7,9]), run, by dsimp only [mayHalt, pinsOf]; decide +kernel⟩
  · exact ⟨({ v1 := oneOdd .a tw none, v2 := oneOdd .b tw none }), run, by decide +kernel⟩
  · exact ⟨({ v1 := oneOdd .a tw none, v2 := oneOdd .b tw none }), ({run with tri := { run.tri with voter := {gen := 5, used := true}, seq := 7, held := [allSee tw] }, mem := [(0x4000000, 77), (0x4000003, 5), (0xC000000, 5)], prg.mode := .free, vm.codeErr := [(0x4000000, {data := 1})]}), by dsimp only [mayHalt, pinsOf]; decide +kernel⟩

end ForVoteVerdicts

namespace ForLaneEventEffects

def tx0 (a : BitVec 40) (k : TxKind) (d : List Byte) : LaneTx := { addr := a, be := 0xFF, data := d, kind := k, size := 8, priv := false, seq := 5, at' := 0 }
def tw : LaneTx := tx0 0x4000000 .write [1,2,3,4,5,6,7,8]

/-- States and operands that meet the hypotheses of `Obligations.LaneEventEffects`. -/
theorem witness_LaneEventEffects :
    (∃ dt : Nat, ∃ l : LaneId, ∃ s : State, powered s = true ∧ (lane l s).st = .dimmed ∧ nowLin (begin' dt s) - lin (lane l s).dimAt ≤ usLin s 200)
    ∧ (∃ x : LaneTx, ∃ r : RelightIn, ∃ s : State, triadVotes s = true ∧ (lane r.lane s).st = .relighting ∧ litLanes s = allLanes.filter (fun k => k != r.lane) ∧
    r.missed = 0#8 ∧ r.disagree = none ∧ r.beat = allSee x)
    ∧ (∃ r : RelightIn, ∃ s : State, triadVotes s = true ∧ (lane r.lane s).st = .relighting ∧ r.missed ≠ 0#8 ∧ r.disagree = none)
    ∧ (∃ l : LaneId, ∃ s : State, powered s = true ∧ s.tri.retired = some l ∧ s.tri.noticed = false ∧ degradedEnd s ≤ cycleLin s.clk.cycle + secLin s 3600) := by
  refine ⟨?_, ?_, ?_, ?_⟩
  · exact ⟨0, .a, ({run with tri := { run.tri with a := { st := .dimmed, dimAt := 5000 * 2^24 }, b := { st := .dimmed, dimAt := 4999 * 2^24 }, c := {st := .dimmed}}}), by decide +kernel⟩
  · exact ⟨tw, ({lane := .a, missed := 0, disagree := none, beat := allSee tw}), ({run with tri := { run.tri with a := { st := .relighting, fromAttached := true }, b := { st := .lit }, c := {st := .lit}}}), by decide +kernel⟩
  · exact ⟨({lane := .a, missed := 4, disagree := none, beat := allSee tw}), ({run with tri := { run.tri with a := { st := .relighting, fromAttached := true }, b := { st := .lit }, c := {st := .lit}}}), by decide +kernel⟩
  · exact ⟨.a, ({run with tri := { run.tri with a := {st := .retired }, retired := some .a, retireAt := 0, limitH := 0 }}), by decide +kernel⟩

end ForLaneEventEffects

namespace ForLaneEventEffects2

def tx0 (a : BitVec 40) (k : TxKind) (d : List Byte) : LaneTx := { addr := a, be := 0xFF, data := d, kind := k, size := 8, priv := false, seq := 5, at' := 0 }
def ln (h : List Nat) (lr : Option Nat) : Lane := { st := .lit, hist := h, lastRelight := lr }
def tw : LaneTx := tx0 0x4000000 .write [1,2,3,4,5,6,7,8]

/-- States and operands that meet the hypotheses of `Obligations.LaneEventEffects`. -/
theorem witness_LaneEventEffects_2 :
    (∃ dt : Nat, ∃ l : LaneId, ∃ x : LaneTx, ∃ v : Option LaneTx, ∃ s : State, triadVotes s = true ∧ litLanes s = allLanes ∧
    x.kind = .beat ∧ (v = none ∨ ∃ y, v = some y ∧ x.at' + 96 < y.at') ∧ thirdRelight (lane l s) (begin' dt s) = false ∧
    delayPath (lane l s) s = false)
    ∧ (∃ dt : Nat, ∃ l : LaneId, ∃ x : LaneTx, ∃ v : Option LaneTx, ∃ s : State, triadVotes s = true ∧ litLanes s = allLanes ∧
    x.kind = .beat ∧ (v = none ∨ ∃ y, v = some y ∧ x.at' + 96 < y.at') ∧ (thirdRelight (lane l s) (begin' dt s) = true ∨ delayPath (lane l s) s = true))
    ∧ (∃ r : RelightIn, ∃ s : State, lanesRun s = true ∧ s.cfg.split = true ∧ (lane r.lane s).st = .relighting) := by
  refine ⟨?_, ?_, ?_⟩
  · exact ⟨0, .a, (tx0 5 .beat [1,2,3,4,5,6,7,8,9,10,11,12]), none, run, by decide +kernel⟩
  · exact ⟨0, .a, (tx0 5 .beat [1,2,3,4,5,6,7,8,9,10,11,12]), none, ({run with tri := { run.tri with seq := 65535, beatCount := 9, a := ln [4999 * 2^24, 4999*2^24] none, b := ln [0, 4999 * 2^24] (some 4999), c := ln [] (some 4998) }}), by decide +kernel⟩
  · exact ⟨({lane := .a, missed := 0, disagree := none, beat := allSee tw}), ((fun s => { s with cfg.split := true, tri.c.st := .off } : State → State) ({run with tri := { run.tri with a := { st := .relighting, fromAttached := true }, b := { st := .lit }, c := {st := .lit}}})), by decide +kernel⟩

end ForLaneEventEffects2

namespace ForLaneEventEffects3

theorem trip_lt (q : Nat) : Config.tripPoint q < 1000000 := by
  unfold Config.tripPoint
  split
  · omega
  · split <;> omega
/-- Eight equal samples of which lane A's lies 10^6 units above the others. -/
def mon8 : MonIn := { v1 := List.replicate 8 { a := 1000000, b := 0, c := 0 }, v2 := List.replicate 8 { a := 1000000, b := 0, c := 0 } }
theorem mon8_far (q : Nat) : ∀ y ∈ mon8.v1, Config.tripPoint q < (monVal .a y - median3i y.a y.b y.c).natAbs := by
  intro y hy
  rw [List.eq_of_mem_replicate hy]
  exact trip_lt q
theorem mon8_near (q : Nat) (k : LaneId) (h : k ≠ .a) :
    ∃ y ∈ mon8.v1, (monVal k y - median3i y.a y.b y.c).natAbs ≤ Config.tripPoint q := by
  refine ⟨{ a := 1000000, b := 0, c := 0 }, by decide, ?_⟩
  cases k with
  | a => exact absurd rfl h
  | b => exact Nat.zero_le _
  | c => exact Nat.zero_le _
theorem mon8_apart (q : Nat) : ∀ y ∈ mon8.v1, Config.tripPoint q < (y.a - y.b).natAbs := by
  intro y hy
  rw [List.eq_of_mem_replicate hy]
  exact trip_lt q

/-- States and operands that meet the hypotheses of `Obligations.LaneEventEffects`. -/
theorem witness_LaneEventEffects_3 :
    (∃ dt : Nat, ∃ l : LaneId, ∃ mq : MonQuantity, ∃ m : MonIn, ∃ s : State, triadVotes s = true ∧ litLanes s = allLanes ∧
    position (begin' dt s) % 10 = 0 ∧ m.v1.length = 8 ∧ m.v2 = m.v1 ∧ (∀ y ∈ m.v1, Config.tripPoint (monIdx mq) < (monVal l y - median3i y.a y.b y.c).natAbs) ∧
    (∀ k : LaneId, k ≠ l → ∃ y ∈ m.v1, (monVal k y - median3i y.a y.b y.c).natAbs ≤ Config.tripPoint (monIdx mq)) ∧
    thirdRelight (lane l s) (begin' dt s) = false ∧ delayPath (lane l s) s = false)
    ∧ (∃ dt : Nat, ∃ l : LaneId, ∃ mq : MonQuantity, ∃ m : MonIn, ∃ s : State, triadVotes s = true ∧ litLanes s = allLanes ∧
    position (begin' dt s) % 10 = 0 ∧ m.v1.length = 8 ∧ m.v2 = m.v1 ∧ (∀ y ∈ m.v1, Config.tripPoint (monIdx mq) < (monVal l y - median3i y.a y.b y.c).natAbs) ∧
    (∀ k : LaneId, k ≠ l → ∃ y ∈ m.v1, (monVal k y - median3i y.a y.b y.c).natAbs ≤ Config.tripPoint (monIdx mq)) ∧
    (thirdRelight (lane l s) (begin' dt s) = true ∨ delayPath (lane l s) s = true))
    ∧ (∃ dt : Nat, ∃ mq : MonQuantity, ∃ m : MonIn, ∃ s : State, mayHalt s ∧ triadVotes s = true ∧ litLanes s = [.a, .b] ∧
    position (begin' dt s) % 10 = 0 ∧ m.v1.length = 8 ∧ m.v2 = m.v1 ∧ (∀ y ∈ m.v1, Config.tripPoint (monIdx mq) < (y.a - y.b).natAbs)) := by
  refine ⟨?_, ?_, ?_⟩
  · exact ⟨0, .a, .supply, mon8, run, by decide +kernel, by decide +kernel, by decide +kernel, by decide +kernel, by decide +kernel, mon8_far _, fun k h => mon8_near _ k h, by decide +kernel⟩
  · exact ⟨0, .a, .supply, mon8, { run with tri.a := { st := .lit, hist := [4999 * 2 ^ 24, 5000 * 2 ^ 24] } }, by decide +kernel, by decide +kernel, by decide +kernel, by decide +kernel, by decide +kernel, mon8_far _, fun k h => mon8_near _ k h, by decide +kernel⟩
  · exact ⟨0, .supply, mon8, { run with tri.c := { st := .retired } }, by dsimp only [mayHalt, pinsOf]; decide +kernel, by decide +kernel, by decide +kernel, by decide +kernel, by decide +kernel, by decide +kernel, mon8_apart _⟩

end ForLaneEventEffects3

namespace ForDebugCommandEffects

def dp : State := {run with pwr.strap := true, cfg.debugPermit := true}

/-- States and operands that meet the hypotheses of `Obligations.DebugCommandEffects`. -/
theorem witness_DebugCommandEffects :
    (∃ l : LaneId, ∃ s : State, powered s = true ∧ debugOn s = true ∧ ((s.cfg.split = false ∧ s.dbg.attached = [] ∧ litLanes s = allLanes) ∨ (s.cfg.split = true ∧ (lane l s).st = .lit)))
    ∧ (∃ s : State, powered s = true ∧ mayHalt s ∧ debugOn s = true ∧ s.cfg.split = false ∧ (s.dbg.attached ≠ [] ∨ (litLanes s).length < 3))
    ∧ (∃ l : LaneId, ∃ s : State, powered s = true ∧ debugOn s = true ∧ (isAttached l s = true ∨ (s.cfg.split = true ∧ (lane l s).st = .lit)))
    ∧ (∃ l : LaneId, ∃ s : State, powered s = true ∧ mayHalt s ∧ debugOn s = true ∧ s.cfg.split = false ∧ s.dbg.attached ≠ [] ∧
    isAttached l s = false ∧ (lane l s).st = .lit)
    ∧ (∃ l : LaneId, ∃ s : State, powered s = true ∧ debugOn s = true ∧ isAttached l s = true)
    ∧ (∃ dt : Nat, ∃ l : LaneId, ∃ a : Nat, ∃ s : State, powered s = true ∧ s.dbg.attached = [(l, a)] ∧ lin a + secLin s (3600 * s.cfg.degradeH) ≤ nowLin (begin' dt s))
    ∧ (∃ s : State, powered s = true ∧ debugOn s = false) := by
  refine ⟨?_, ?_, ?_, ?_, ?_, ?_, ?_⟩
  · exact ⟨.a, dp, by decide +kernel⟩
  · exact ⟨((fun s => { s with tri.retired := some .c, tri.c.st := .retired } : State → State) (dp)), by dsimp only [mayHalt, pinsOf]; decide +kernel⟩
  · exact ⟨.a, ((fun s => { s with cfg.split := true, tri.c.st := .off } : State → State) (dp)), by decide +kernel⟩
  · exact ⟨.a, ({dp with tri.b := {st := .attached, halted := true, dirty := [3]}, dbg := {attached := [(.b, 4999*2^24)], attachAt := 5}}), by dsimp only [mayHalt, pinsOf]; decide +kernel⟩
  · exact ⟨.a, ({dp with cfg.split := true, tri.a := {st := .attached}, tri.b := {st := .attached}, dbg := {attached := [(.a,5),(.b,6)]}}), by decide +kernel⟩
  · exact ⟨0, .b, 5, ({dp with tri.b := {st := .attached, halted := true, dirty := [3]}, dbg := {attached := [(.b, 5)]}, cfg.degradeH := 0}), by decide +kernel⟩
  · exact ⟨run, by decide +kernel⟩

end ForDebugCommandEffects

namespace ForRestartsComplete

def stl (s : State) : State := { s with tri.hold := some 995000, tri.stallFrom := some 995000 }
def r0 (u : DuplexUnit) (k : List (BitVec 6)) (ok : Bool) : RestartIn := { unit := u, restored := ok, missed := 0, again := k, crossings := [], lost := [] }
def ltx (a : BitVec 40) : LaneTx := { addr := a, be := 0xFF, data := [1,2], kind := .write, size := 8, priv := false, seq := 5, at' := 0 }
def sn (a : BitVec 40) : Seen := { a := some (ltx a), b := some (ltx a), c := some (ltx a) }

/-- States and operands that meet the hypotheses of `Obligations.RestartsComplete`. -/
theorem witness_RestartsComplete :
    (∃ dt : Nat, ∃ r : RestartIn, ∃ s : State, powered s = true ∧ (duplex r.unit s).restart.isSome = true ∧ (∀ t0, s.tri.hold = some t0 → (begin' dt s).clk.up - t0 ≤ usUp 200) ∧
    r.restored = true ∧ s.fio.applyDue = false ∧ s.prg.releaseHeld = false ∧ r.unit = .voter ∧ r.missed = 0#24 ∧
    s.tri.held = [] ∧ s.tri.lattice.restart = none ∧ s.tri.field.restart = none)
    ∧ (∃ dt : Nat, ∃ r : RestartIn, ∃ s : State, powered s = true ∧ (duplex r.unit s).restart.isSome = true ∧ (∀ t0, s.tri.hold = some t0 → (begin' dt s).clk.up - t0 ≤ usUp 200) ∧
    r.restored = true ∧ s.fio.applyDue = false ∧ s.prg.releaseHeld = false ∧ r.unit = .lattice ∧ r.missed = 0#24 ∧
    s.lat.stepDue = false ∧ Memory.wf (latticeOf s) = true ∧ s.tri.voter.restart = none ∧ s.tri.field.restart = none)
    ∧ (∃ dt : Nat, ∃ r : RestartIn, ∃ s : State, powered s = true ∧ (duplex r.unit s).restart.isSome = true ∧ (∀ t0, s.tri.hold = some t0 → (begin' dt s).clk.up - t0 ≤ usUp 200) ∧
    r.restored = true ∧ s.fio.applyDue = false ∧ s.prg.releaseHeld = false ∧ r.unit = .field ∧ r.missed = 0#24 ∧
    r.crossings = [] ∧ r.lost = [] ∧ s.fio.permitDue = false ∧ (∀ n, (pin n s).swallowed = false) ∧ s.tri.voter.restart = none ∧
    s.tri.lattice.restart = none)
    ∧ (∃ dt : Nat, ∃ r : RestartIn, ∃ s : State, powered s = true ∧ (duplex r.unit s).restart.isSome = true ∧ (∀ t0, s.tri.hold = some t0 → (begin' dt s).clk.up - t0 ≤ usUp 200) ∧
    mayHalt s ∧ r.restored = false)
    ∧ (∃ dt : Nat, ∃ r : RestartIn, ∃ s : State, powered s = true ∧ (duplex r.unit s).restart.isSome = true ∧ (∀ t0, s.tri.hold = some t0 → (begin' dt s).clk.up - t0 ≤ usUp 200) ∧
    mayHalt s ∧ r.restored = true ∧ r.unit = .voter ∧ r.missed = 0#24 ∧ s.cfg.split = false ∧ s.fio.applyDue = false ∧
    s.prg.releaseHeld = false ∧ ∃ tx, ∃ rest, s.tri.held = tx :: rest ∧ r.again = [] ∧ judge (litLanes (voterRestore s)) tx.v1 ≠ judge (litLanes (voterRestore s)) tx.v2)
    ∧ (∃ dt : Nat, ∃ r : RestartIn, ∃ s : State, ∃ t0 : Nat, mayHalt s ∧ s.tri.hold = some t0 ∧ (duplex r.unit s).restart.isSome = true ∧
    usUp 200 < (begin' dt s).clk.up - t0)
    ∧ (∃ dt : Nat, ∃ s : State, ∃ t0 : Nat, mayHalt s ∧ s.tri.hold = some t0 ∧ anyRestart s = true ∧ usUp 200 ≤ (begin' dt s).clk.up - t0) := by
  refine ⟨?_, ?_, ?_, ?_, ?_, ?_, ?_⟩
  · exact ⟨0, (r0 .voter [] true), (stl {run with tri.voter := {restart := some 995000, used := true}}), by decide +kernel, by decide +kernel, (by intro t0 h; cases h <;> decide +kernel), by decide +kernel⟩
  · exact ⟨0, (r0 .lattice [] true), (stl {run with tri.lattice := {restart := some 995000}, mem := [(0x100400000,5),(0x100400008,3),(0x100440000,4),(0x100480000,4),(0x100490001,6),(0x100498000,3)], lat.snaps := [[(0x100400000,9),(0x100480010,8)]], lat.journal := [packFields [(1,1),(1,0),(2,1),(4,3),(8,5),(4,0x490000),(4,0),(8,0x1122334455667788)]]}), by decide +kernel, by decide +kernel, (by intro t0 h; cases h <;> decide +kernel), by decide +kernel⟩
  · exact ⟨0, (r0 .field [] true), ({ run with tri.field := { restart := some 995000 }, fio.pins := [] }), by decide +kernel, by decide +kernel, (by intro t0 h; cases h <;> decide +kernel), by decide +kernel, by decide +kernel, by decide +kernel, by decide +kernel, by decide +kernel, by decide +kernel, by decide +kernel, by decide +kernel, by intro n; rfl, by decide +kernel⟩
  · exact ⟨0, (r0 .voter [0] false), (stl {run with tri.voter := {restart := some 995000, used := true}}), by decide +kernel, by decide +kernel, (by intro t0 h; cases h <;> decide +kernel), by dsimp only [mayHalt, pinsOf]; decide +kernel⟩
  · exact ⟨0, (r0 .voter [] true), (stl {run with tri.voter := {restart := some 995000}, tri.held := [{v1 := sn 1, v2 := sn 2}]}), by decide +kernel, by decide +kernel, (by intro t0 h; cases h <;> decide +kernel), by dsimp only [mayHalt, pinsOf]; decide +kernel, by decide +kernel, by decide +kernel, by decide +kernel, by decide +kernel, by decide +kernel, by decide +kernel, _, _, rfl, by decide +kernel⟩
  · exact ⟨0, (r0 .voter [] true), ({run with tri.hold := some 900000, tri.voter := {restart := some 900000}}), _, by dsimp only [mayHalt, pinsOf]; decide +kernel, (Option.eq_some_of_isSome (by decide +kernel)), by decide +kernel⟩
  · exact ⟨0, ({run with tri.hold := some 900000, tri.voter := {restart := some 900000}}), _, by dsimp only [mayHalt, pinsOf]; decide +kernel, (Option.eq_some_of_isSome (by decide +kernel)), by decide +kernel⟩

end ForRestartsComplete

namespace ForMinorBoundaryEffects

/-- States and operands that meet the hypotheses of `Obligations.MinorBoundaryEffects`. -/
theorem witness_MinorBoundaryEffects :
    ∃ k : Int, ∃ s : State, s.pwr.phase = .running ∧ s.prg.mode = .free ∧ s.prg.reqNormal = true ∧ s.lnk.timed = true ∧
    s.lnk.pair = .none ∧ s.clk.prov = false ∧ s.tri.stallFrom = none ∧ s.snu.edgeStored = true ∧ (latticeStep { disagree := false } (atTimerStep k s)).prg.mode = .free ∧
    (latticeStep { disagree := false } (atTimerStep k s)).tri.stallFrom = none :=
  ⟨0, { run with tri.lattice := { restart := some 1000000 }, prg := { mode := .free, reqNormal := true }, lnk.timed := true, snu.edgeStored := true }, by decide +kernel⟩

end ForMinorBoundaryEffects

namespace ForMajorBoundaryEffects

/-- States and operands that meet the hypotheses of `Obligations.MajorBoundaryEffects`. -/
theorem witness_MajorBoundaryEffects :
    (∃ s : State, s.pwr.phase = .running ∧ s.clk.cycle % 1000 = 0 ∧ s.prg.majorAt ≠ some s.clk.cycle ∧ s.lnk.pair = .none ∧
    (readbackCounts s = false ∨ s.cfg.readback.length ≤ rf 0x040030 0 10 s) ∧ s.prg.reqTest = false)
    ∧ (∃ s : State, s.pwr.phase = .running ∧ s.clk.cycle % 1000 = 0 ∧ s.prg.majorAt ≠ some s.clk.cycle ∧ s.lnk.pair = .none ∧
    (readbackCounts s = false ∨ s.cfg.readback.length ≤ rf 0x040030 0 10 s) ∧ pinsOf s ∧ s.prg.reqTest = true ∧
    s.prg.mode = .normal)
    ∧ (∃ s : State, s.pwr.phase = .running ∧ s.clk.cycle % 1000 = 0 ∧ s.prg.majorAt ≠ some s.clk.cycle ∧ s.lnk.pair = .none ∧
    mayHalt s ∧ readbackCounts s = true ∧ rf 0x040030 0 10 s < s.cfg.readback.length) := by
  refine ⟨?_, ?_, ?_⟩
  · exact ⟨run, by decide +kernel⟩
  · exact ⟨({ run with clk := {run.clk with cycle := 6000}, prg.reqTest := true, cfg.readback := [{},{}], prg.normalAt := some 1, regs := [(0x040030, 2)]}), by dsimp only [pinsOf]; decide +kernel⟩
  · exact ⟨({ run with clk := {run.clk with cycle := 6000}, prg.reqTest := false, cfg.readback := [{},{}], prg.normalAt := some 1 }), by dsimp only [mayHalt, pinsOf]; decide +kernel⟩

end ForMajorBoundaryEffects

namespace ForPowerCommandEffects

def ok : PowerUpIn := { strap := true, vbakMv := 3000, framOk := true, lbistA := true, lbistB := true, lbistC := true, lbistUnits := true, ramOk := true, norOk := true, norAgain := true, injMissed := 0, walkOk := true, periods := 1000 }

/-- States and operands that meet the hypotheses of `Obligations.PowerCommandEffects`. -/
theorem witness_PowerCommandEffects :
    (∃ p : PowerUpIn, ∃ s : State, (s.pwr.phase = .off ∨ s.pwr.phase = .inReset ∨ s.pwr.phase = .done) ∧ pinsOf s ∧
    (p.lbistA = false ∨ s.tri.retired.isSome = true))
    ∧ (∃ p : PowerUpIn, ∃ s : State, (s.pwr.phase = .off ∨ s.pwr.phase = .inReset ∨ s.pwr.phase = .done) ∧ pinsOf s ∧
    p.framOk = true ∧ s.cand.framErr = false ∧ inTrial s = false ∧ s.tri.retired = none ∧ p.lbistA = true ∧ p.lbistB = true ∧
    p.lbistC = true ∧ p.lbistUnits = true ∧ p.ramOk = true ∧ p.norOk = true ∧ p.norAgain = true ∧ p.injMissed = 0#24 ∧
    p.walkOk = true)
    ∧ (∃ ns : Nat, ns < 1000)
    ∧ (∃ s : State, ∃ ns : Nat, 1000 ≤ ns ∧ s.pwr.phase ≠ .off ∧ pinsOf s)
    ∧ (∃ s : State, ∃ mv1 : Nat, ∃ mv2 : Nat, ∃ us : Nat, canShut s = true ∧ pinsOf s ∧ mv1 < 13500 ∧ mv2 < 13500 ∧ 3600 ≤ us)
    ∧ (∃ s : State, ∃ mv1 : Nat, ∃ mv2 : Nat, ∃ us : Nat, canShut s = true ∧ pinsOf s ∧ mv1 < 13500 ∧ mv2 < 13500 ∧ us < 3600) := by
  refine ⟨?_, ?_, ?_, ?_, ?_, ?_⟩
  · exact ⟨ok, ((fun s => { s with tri.retired := some .c, tri.c.st := .retired } : State → State) ({ run with pwr.phase := .off, pwr.wake := 1 })), by dsimp only [pinsOf]; decide +kernel⟩
  · exact ⟨ok, State.reset, by dsimp only [pinsOf]; decide +kernel⟩
  · exact ⟨0, by decide +kernel⟩
  · exact ⟨State.reset, 1000, by dsimp only [pinsOf]; decide +kernel⟩
  · exact ⟨run, 0, 0, 13499, by dsimp only [pinsOf]; decide +kernel⟩
  · exact ⟨run, 0, 0, 0, by dsimp only [pinsOf]; decide +kernel⟩

end ForPowerCommandEffects

namespace ForPowerCommandEffects2

/-- States and operands that meet the hypotheses of `Obligations.PowerCommandEffects`. -/
theorem witness_PowerCommandEffects_2 :
    ∃ mv1 : Nat, ∃ mv2 : Nat, (13500 ≤ mv1 ∨ 13500 ≤ mv2) :=
  ⟨13500, 0, by decide +kernel⟩

end ForPowerCommandEffects2

namespace ForLimitsEndInTheSafeState

/-- States and operands that meet the hypotheses of `Obligations.LimitsEndInTheSafeState`. -/
theorem witness_LimitsEndInTheSafeState :
    (∃ s : State, s.pwr.phase = .running ∧ pinsOf s ∧ s.clk.cycle % 1000 = 0 ∧ (∃ l, s.tri.retired = some l) ∧ degradedEnd s ≤ cycleLin s.clk.cycle)
    ∧ (∃ s : State, s.pwr.phase = .running ∧ pinsOf s ∧ s.clk.cycle % 1000 = 0 ∧ s.evr.st = .down ∧ s.cfg.recShutdown = true ∧
    s.evr.downAt + secLin s (3600 * s.cfg.recFailH) ≤ cycleLin s.clk.cycle)
    ∧ (∃ s : State, s.pwr.phase = .running ∧ pinsOf s ∧ s.clk.cycle % 1000 = 0 ∧ cycleLin s.clk.cycle < degradedEnd s)
    ∧ (∃ s : State, s.pwr.phase = .running ∧ pinsOf s ∧ s.clk.cycle % 1000 = 0 ∧ cycleLin s.clk.cycle < s.evr.downAt + secLin s (3600 * s.cfg.recFailH)) := by
  refine ⟨?_, ?_, ?_, ?_⟩
  · exact ⟨{ run with clk.cycle := 6000, tri.retired := some .c, tri.limitH := 0, tri.retireAt := 6000 * 2 ^ 24 }, by decide +kernel, by dsimp only [pinsOf]; decide +kernel, by decide +kernel, ⟨_, rfl⟩, by decide +kernel⟩
  · exact ⟨{ run with clk.cycle := 6000, evr.st := .down, cfg.recShutdown := true, cfg.recFailH := 0, evr.downAt := 6000 * 16384000 }, by dsimp only [pinsOf]; decide +kernel⟩
  · exact ⟨{ run with clk.cycle := 6000, tri.limitH := 0, tri.retireAt := 6000 * 2 ^ 24 + 1 }, by dsimp only [pinsOf]; decide +kernel⟩
  · exact ⟨{ run with clk.cycle := 6000, cfg.recFailH := 0, evr.downAt := 6000 * 16384000 + 1 }, by dsimp only [pinsOf]; decide +kernel⟩

end ForLimitsEndInTheSafeState

namespace ForImagesFreezeAndApply

def pw : List Nat := [1 + 2^29 + 5*65536, 2 + 2^29 + 6 * 65536, 3 + 4*65536 + 256 + 9 * 2^37, 4 + 16 + 5 * 65536, 3 + 8 + 6*65536, 4 + 32 + 7 * 65536 + 256 + 8191*2^37] ++ List.replicate 18 0 ++ (List.range 8).map (fun n => 3 + 8 + (8184 + n) * 65536)
def base : State := { run with cfg.pins := pw, cfg.bindings := [{point := 77, kind := 1}, {point := 78, kind := 2, idx := 5}, {point := 79, kind := 3, idx := 6}, {point := 80, output := true, kind := 1}], regs := [(0x0D0000, 1)] }
def cl (s : State) : State := { s with snu.g := s.snu.g.map (fun g => { g with aClosed := true, kOn := true, phase := .closed }) }
def img : List Host.Cell := [(0x07010000,1),(0x07010029,4),(0x07010258,3),(0x07010268,3),(0x07020020,1),(0x07020028,1),(0x07020030,1),(0x0702FFC0,1),(0x0702FFF8,1)]

/-- States and operands that meet the hypotheses of `Obligations.ImagesFreezeAndApply`. -/
theorem witness_ImagesFreezeAndApply :
    (∃ dt : Nat, ∃ s : State, s.pwr.phase = .running ∧ s.prg.frozen = false ∧ s.cfg.tasks.inFreeze ≤ position (begin' dt s) ∧
    Memory.wf s.mem = true ∧ (∀ x ∈ liveInputs s, x.1 < 8192) ∧ (liveInputs s).Pairwise (fun x y => x.1 ≠ y.1))
    ∧ (∃ dt : Nat, ∃ s : State, s.pwr.phase = .running ∧ s.prg.appliedNow = false ∧ s.cfg.tasks.outApply ≤ position (begin' dt s) ∧
    Memory.wf s.mem = true ∧ (∀ p ∈ outputPoints s, p < 8192) ∧ anyRestart s = false ∧ pinsOf s)
    ∧ (∃ dt : Nat, ∃ s : State, s.pwr.phase = .running ∧ s.prg.appliedNow = false ∧ s.cfg.tasks.outApply ≤ position (begin' dt s) ∧
    Memory.wf s.mem = true ∧ (∀ p ∈ outputPoints s, p < 8192) ∧ anyRestart s = true)
    ∧ (∃ dt : Nat, ∃ s : State, s.pwr.phase = .running ∧ s.prg.appliedNow = false ∧ s.cfg.tasks.outApply ≤ position (begin' dt s) ∧
    Memory.wf s.mem = true ∧ (∀ p ∈ outputPoints s, p < 8192) ∧ anyRestart s = false ∧ s.tri.field.used = false)
    ∧ (∃ dt : Nat, ∃ s : State, ∃ n : Fin 8, inNormal s = true ∧ s.tri.stallFrom = none ∧ cpDue n.val (begin' dt s) = true) := by
  refine ⟨?_, ?_, ?_, ?_, ?_⟩
  · exact ⟨0, base, by decide +kernel⟩
  · exact ⟨0, base, by dsimp only [pinsOf]; decide +kernel⟩
  · exact ⟨0, ({cl base with mem := img, tri.field.restart := some 5}), by decide +kernel⟩
  · exact ⟨0, base, by decide +kernel⟩
  · exact ⟨0, ({cl base with prg.cps := [0, 5, 0xFFFF, 3,4,5,6,7], cfg.tasks.entries := [{id := 16, trig := 4, tsel := 0},{id := 17, trig := 4, tsel := 1},{id := 47, trig := 4, tsel := 0}, {id := 18, trig := 3, tsel := 0}]}), 0, by decide +kernel⟩

end ForImagesFreezeAndApply

namespace ForImagesFreezeAndApply2

/-- States and operands that meet the hypotheses of `Obligations.ImagesFreezeAndApply`. -/
theorem witness_ImagesFreezeAndApply_2 :
    ∃ dt : Nat, ∃ s : State, s.pwr.phase = .running ∧ s.prg.appliedNow = false ∧ s.cfg.tasks.outApply ≤ position (begin' dt s) ∧
    Memory.wf s.mem = true ∧ (∀ p ∈ outputPoints s, p < 8192) ∧ anyRestart s = false ∧ s.tri.field.used = true ∧ mayHalt s :=
  ⟨0, { run with tri.field := { used := true }, cfg.tasks.outApply := 0 }, by decide +kernel, by decide +kernel, by decide +kernel, by decide +kernel, by decide +kernel, by decide +kernel, by decide +kernel, by dsimp only [mayHalt, pinsOf]; decide +kernel⟩

end ForImagesFreezeAndApply2

namespace ForReleasesAndRequests

def ents : List TaskEntry := [{id := 3}, {id := 16, trig := 4, tsel := 0, period := 2, prio := 3},{id := 17, trig := 4, tsel := 1, period := 1},{id := 47, trig := 4, tsel := 0, prio := 1}, {id := 18, trig := 3, tsel := 0, period := 10000}]
def b0 : State := { run with cfg.tasks.entries := ents, prg.img := [(5,5)] }
def T (c f : Nat) : Nat := c * 2^24 + f * 2^14

/-- States and operands that meet the hypotheses of `Obligations.ReleasesAndRequests`. -/
theorem witness_ReleasesAndRequests :
    (∃ dt : Nat, ∃ s : State, ∃ id : Nat, ∃ st : Nat, ∃ d : Nat, ∃ e : TaskEntry, inNormal s = true ∧ s.tri.stallFrom = none ∧
    s.prg.releaseHeld = false ∧ s.xch.window = false ∧ isStandby s = false ∧ s.cfg.tasksB = none ∧ resting (begin' dt s) = false ∧
    laneStopped false s = false ∧ 16 ≤ id ∧ id < 48 ∧ taskEntry id false s = some e ∧ e.id = id ∧ (taskState id false s).heldTrig = some (st, d) ∧
    taskActive id false s = false ∧ separated e (taskState id false s) (begin' dt s) = true)
    ∧ (∃ s : State, lanesRun s = true ∧ bit s.cfg.progBlocks 4 = true ∧ s.prg.mode = .free)
    ∧ (∃ dt : Nat, ∃ s : State, ∃ e, lanesRun s = true ∧ bit s.cfg.progBlocks 4 = true ∧ s.prg.mode = .normal ∧ findToken (rv 0x04000C s) 7 (begin' dt s) = some e)
    ∧ (∃ dt : Nat, ∃ s : State, lanesRun s = true ∧ bit s.cfg.progBlocks 4 = true ∧ s.prg.mode = .normal ∧ findToken (rv 0x04000C s) 7 (begin' dt s) = none) := by
  refine ⟨?_, ?_, ?_, ?_⟩
  · exact ⟨0, ({b0 with prg.tasks := [{id := 16, heldTrig := some (T 4999 5, 9), trigCount := 7, lastRelease := some (T 4998 0)}, {id := 17, heldTrig := some (T 5000 0, 8191), trigCount := 1}, {id := 18, heldTrig := some (T 1 0, 1), lastRelease := some (T 1 0)}, {id := 47, heldTrig := some (T 4999 0, 2), lastRelease := some (T 4999 0), firstScan := true}]}), 16, (T 4999 5), _, _, by decide +kernel, by decide +kernel, by decide +kernel, by decide +kernel, by decide +kernel, by decide +kernel, by decide +kernel, by decide +kernel, by decide +kernel, by decide +kernel, (Option.eq_some_of_isSome (by decide +kernel)), by decide +kernel, rfl, by decide +kernel⟩
  · exact ⟨({free with prg.reqNormal := false}), by decide +kernel⟩
  · exact ⟨0, ({run with regs := [(0x04000C, 7)], prg.tokVer := [{id := 7, act := 7, scope := 0, at' := T 5000 0},{id := 7, act := 2},{id := 6, act := 2}]}), _, by decide +kernel, by decide +kernel, by decide +kernel, (Option.eq_some_of_isSome (by decide +kernel))⟩
  · exact ⟨0, b0, by decide +kernel⟩

end ForReleasesAndRequests

namespace ForForceCommandEffects

def le (n v : Nat) : List Byte := leBytes n v
def fc (op p : Nat) (dir d tok hi : Nat) : List Byte := le 4 (op + 16 * dir + 32 * p + hi * 2^18) ++ le 4 1 ++ le 4 d ++ le 4 tok ++ le 8 0 ++ le 8 (4999 * 2^24)
def pw : List Nat := [1 + 2^29 + 5*65536, 2 + 2^29 + 6 * 65536, 3 + 4*65536 + 256 + 9 * 2^37, 4 + 16 + 5 * 65536]
def fs (e : List Byte) (tab : List ForceEntry) : State := { run with cfg.pins := pw, prg.tokVer := [{id := 7, act := 1, scope := 0xFFFFFFFF, staff := 9, at' := 5000 * 2^24}, {id := 8, act := 1, scope := 5, at' := 5000 * 2^24}], frc.table := tab, rings := (List.replicate 64 {}).set 53 {entries := [e, List.replicate 32 1]}}
def t1 : List ForceEntry := [{point := 5, value := 3}, {point := 5, dir := true, expiry := 4999 * 2^24, value := 3}, {point := 6, expiry := 5000 * 2^24}]

/-- States and operands that meet the hypotheses of `Obligations.ForceCommandEffects`. -/
theorem witness_ForceCommandEffects :
    (∃ dt : Nat, ∃ e : List Byte, ∃ rest : List (List Byte), ∃ s : State, s.pwr.phase = .running ∧ (ring 53 s).entries = e :: rest ∧
    s.rings.length = 64 ∧ ∃ v, fcOp e = 1 ∧ fcReason e (begin' dt s) = 0 ∧ fcToken e (begin' dt s) = some v)
    ∧ (∃ dt : Nat, ∃ e : List Byte, ∃ rest : List (List Byte), ∃ s : State, s.pwr.phase = .running ∧ (ring 53 s).entries = e :: rest ∧
    s.rings.length = 64 ∧ ∃ f, fcOp e = 2 ∧ fcReason e (begin' dt s) = 0 ∧ fcEntry e s = some f)
    ∧ (∃ dt : Nat, ∃ e : List Byte, ∃ rest : List (List Byte), ∃ s : State, s.pwr.phase = .running ∧ (ring 53 s).entries = e :: rest ∧
    s.rings.length = 64 ∧ fcOp e = 3 ∧ fcReason e (begin' dt s) = 0)
    ∧ (∃ dt : Nat, ∃ e : List Byte, ∃ rest : List (List Byte), ∃ s : State, s.pwr.phase = .running ∧ (ring 53 s).entries = e :: rest ∧
    s.rings.length = 64 ∧ fcOp e = 1 ∧ fcReason e (begin' dt s) ≠ 0)
    ∧ (∃ s : State, s.pwr.phase = .running ∧ ∃ dir : Bool, ∃ point : BitVec 13, ∃ f : ForceEntry, s.frc.table.find? (fun x => x.dir == dir && x.point == point.toNat) = some f ∧
    lin f.expiry ≤ cycleLin s.clk.cycle) := by
  refine ⟨?_, ?_, ?_, ?_, ?_⟩
  · exact ⟨0, _, _, (fs (fc 1 5 0 60 7 0) []), by decide +kernel, rfl, by decide +kernel, _, by decide +kernel, by decide +kernel, (Option.eq_some_of_isSome (by decide +kernel))⟩
  · exact ⟨0, _, _, (fs (fc 2 5 0 0 0 0) t1), by decide +kernel, rfl, by decide +kernel, _, by decide +kernel, by decide +kernel, (Option.eq_some_of_isSome (by decide +kernel))⟩
  · exact ⟨0, _, _, (fs (fc 3 0 0 0 0 0) t1), by decide +kernel, rfl, by decide +kernel⟩
  · exact ⟨0, _, _, ((fun s => { s with xch := { s.xch with st := .armed, image := some {} }, upd := { s.upd with act := .armed, method := 3, kinds := 1 } } : State → State) (fs (fc 1 5 0 60 7 0) [])), by decide +kernel, rfl, by decide +kernel⟩
  · exact ⟨(fs (fc 1 5 0 60 7 0) t1), by decide +kernel, false, 5, _, (Option.eq_some_of_isSome (by decide +kernel)), by decide +kernel⟩

end ForForceCommandEffects

namespace ForVitalFaultEventsHalt

/-- States and operands that meet the hypotheses of `Obligations.VitalFaultEventsHalt`. -/
theorem witness_VitalFaultEventsHalt :
    (∃ s : State, mayHalt s ∧ ∃ ppm : Int, 500 < ppm.natAbs)
    ∧ (∃ s : State, mayHalt s ∧ 0xFFFFFFFFFF ≤ s.clk.cycle)
    ∧ (∃ dt : Nat, ∃ s : State, mayHalt s ∧ ∃ task : Nat, ∃ laneB : Bool, ∃ r : Release, laneRuns laneB (begin' dt s) = true ∧
    (begin' dt s).prg.active.find? (fun x => x.task == task && x.laneB == laneB) = some r ∧ overrunDue r (begin' dt s) = true)
    ∧ (∃ s : State, mayHalt s ∧ lanesRun s = true)
    ∧ (∃ dt : Nat, ∃ s : State, mayHalt s ∧ usUp 9000000 < (begin' dt s).clk.up - s.vm.passStart)
    ∧ (∃ dt : Nat, ∃ s : State, mayHalt s ∧ s.lnk.pair = .active ∧ usUp (cycleUs s) ≤ (begin' dt s).clk.up - s.bus.heardAt)
    ∧ (∃ dt : Nat, ∃ s : State, mayHalt s ∧ ∃ t0, s.tri.hold = some t0 ∧ anyRestart s = true ∧ usUp 200 ≤ (begin' dt s).clk.up - t0) := by
  refine ⟨?_, ?_, ?_, ?_, ?_, ?_, ?_⟩
  · exact ⟨run, by dsimp only [mayHalt, pinsOf]; decide +kernel, 501, by decide +kernel⟩
  · exact ⟨({run with clk := {run.clk with cycle := 0xFFFFFFFFFF, up := 2000000000}}), by dsimp only [mayHalt, pinsOf]; decide +kernel⟩
  · exact ⟨0, ({run with prg.active := [{task := 5, deadline := some 5}], frc.table := [{point := 5}]}), by dsimp only [mayHalt, pinsOf]; decide +kernel, 5, false, _, by decide +kernel, (Option.eq_some_of_isSome (by decide +kernel)), by decide +kernel⟩
  · exact ⟨run, by dsimp only [mayHalt, pinsOf]; decide +kernel⟩
  · exact ⟨0, ({run with clk := {run.clk with cycle := 0xFFFFFFFFFF, up := 2000000000}}), by dsimp only [mayHalt, pinsOf]; decide +kernel⟩
  · exact ⟨0, ((fun s => { s with lnk := { s.lnk with pair := .active, l := List.replicate 3 { width := 4 } }, cfg.partner := some 1 } : State → State) (run)), by dsimp only [mayHalt, pinsOf]; decide +kernel⟩
  · exact ⟨0, ({run with tri.hold := some 0, tri.voter.restart := some 0}), by dsimp only [mayHalt, pinsOf]; decide +kernel, _, (Option.eq_some_of_isSome (by decide +kernel)), by decide +kernel⟩

end ForVitalFaultEventsHalt

namespace ForMemoryRepairs

/-- States and operands that meet the hypotheses of `Obligations.MemoryRepairs`. -/
theorem witness_MemoryRepairs :
    (∃ s : State, powered s = true ∧ s.pwr.phase ≠ .stopped ∧ Memory.wf s.mem = true ∧ s.vm.area < 3 ∧ s.vm.word < scrubWords s.vm.area ∧
    let a := scrubAddr s.vm.area s.vm.word; wordGood a s ∧ scrubWords s.vm.area ≤ s.vm.word + 1 ∧ s.vm.area < 2)
    ∧ (∃ s : State, powered s = true ∧ s.pwr.phase ≠ .stopped ∧ Memory.wf s.mem = true ∧ s.vm.area < 3 ∧ s.vm.word < scrubWords s.vm.area ∧
    let a := scrubAddr s.vm.area s.vm.word; wordGood a s ∧ scrubWords s.vm.area ≤ s.vm.word + 1 ∧ s.vm.area = 2)
    ∧ (∃ d : Word, ∃ c : BitVec 16, ∃ s : State, powered s = true ∧ s.pwr.phase ≠ .stopped ∧ Memory.wf s.mem = true ∧
    s.vm.area < 3 ∧ s.vm.word < scrubWords s.vm.area ∧ let a := scrubAddr s.vm.area s.vm.word; let e : CodeErr := { data := d, check := c };
    wordGood a s ∧ s.vm.word + 1 < scrubWords s.vm.area ∧ codeClass e = some .correctable)
    ∧ (∃ inv : Bool, ∃ d : Word, ∃ c : BitVec 16, ∃ s : State, powered s = true ∧ s.pwr.phase ≠ .stopped ∧ Memory.wf s.mem = true ∧
    s.vm.area < 3 ∧ s.vm.word < scrubWords s.vm.area ∧ let a := scrubAddr s.vm.area s.vm.word; let two := decide (storeKind a = .dual ∨ storeKind a = .pair);
    let e : CodeErr := { data := d, check := c }; wordGood a s ∧ s.vm.word + 1 < scrubWords s.vm.area ∧ ∃ f : MemFinding,
    two = true ∧ ((codeClass e = some .uncorrectable ∧ f = .flip inv d c) ∨ f = .wrongKey inv ∨ ∃ o, f = .allSame inv o))
    ∧ (∃ d : Word, ∃ c : BitVec 16, ∃ s : State, powered s = true ∧ s.pwr.phase ≠ .stopped ∧ Memory.wf s.mem = true ∧
    s.vm.area < 3 ∧ s.vm.word < scrubWords s.vm.area ∧ let a := scrubAddr s.vm.area s.vm.word; let two := decide (storeKind a = .dual ∨ storeKind a = .pair);
    let e : CodeErr := { data := d, check := c }; mayHalt s ∧ two = true ∧ wordGood a s ∧ ∃ f : MemFinding, ((∃ d1 c1, codeClass e = some .uncorrectable ∧ codeClass { data := d1, check := c1 } = some .uncorrectable ∧ f = .flips d d1 c c1) ∨ f = .swapped))
    ∧ (∃ s : State, powered s = true ∧ s.pwr.phase ≠ .stopped ∧ Memory.wf s.mem = true ∧ s.vm.area < 3 ∧ s.vm.word < scrubWords s.vm.area ∧
    let a := scrubAddr s.vm.area s.vm.word; mayHalt s ∧ wordGood a s ∧ storeKind a = .dual)
    ∧ (∃ s : State, powered s = true ∧ s.pwr.phase ≠ .stopped ∧ Memory.wf s.mem = true ∧ s.vm.area < 3 ∧ s.vm.word < scrubWords s.vm.area ∧
    let a := scrubAddr s.vm.area s.vm.word; wordGood a s ∧ storeKind a = .pair ∧ s.tri.lattice.used = false)
    ∧ (∃ d : Word, ∃ c : BitVec 16, ∃ s : State, powered s = true ∧ s.pwr.phase ≠ .stopped ∧ Memory.wf s.mem = true ∧
    s.vm.area < 3 ∧ s.vm.word < scrubWords s.vm.area ∧ let a := scrubAddr s.vm.area s.vm.word; let e : CodeErr := { data := d, check := c };
    storeKind a = .code ∧ wordGood a s ∧ codeClass e = some .uncorrectable ∧ s.vm.word + 1 < scrubWords s.vm.area ∧ let slot := a / 0x02000000;
    let page := a % 0x02000000 / 4096; let nor := norBank (if slot = 0 then s.vm.bank0 else s.vm.bank1) + 0x01800000 + page * 4096;
    pageCrc slot page s = some (crc32c (memRead nor 4096 s.mem)))
    ∧ (∃ d : Word, ∃ c : BitVec 16, ∃ s : State, powered s = true ∧ s.pwr.phase ≠ .stopped ∧ Memory.wf s.mem = true ∧
    s.vm.area < 3 ∧ s.vm.word < scrubWords s.vm.area ∧ let a := scrubAddr s.vm.area s.vm.word; let e : CodeErr := { data := d, check := c };
    storeKind a = .code ∧ wordGood a s ∧ codeClass e = some .uncorrectable ∧ s.vm.word + 1 < scrubWords s.vm.area ∧ let slot := a / 0x02000000;
    let page := a % 0x02000000 / 4096; let nor := norBank (if slot = 0 then s.vm.bank0 else s.vm.bank1) + 0x01800000 + page * 4096;
    ∃ ok : Bool, mayHalt s ∧ (ok = false ∨ pageCrc slot page s ≠ some (crc32c (memRead nor 4096 s.mem))))
    ∧ (∃ s : State, powered s = true ∧ s.pwr.phase ≠ .stopped ∧ Memory.wf s.mem = true ∧ s.vm.area < 3 ∧ s.vm.word < scrubWords s.vm.area ∧
    lanesRun s = true ∧ bit s.cfg.progBlocks 3 = true ∧ locked 0x030000 s = false ∧ s.prg.mode ≠ .normal)
    ∧ (∃ s : State, powered s = true ∧ s.pwr.phase ≠ .stopped ∧ Memory.wf s.mem = true ∧ s.vm.area < 3 ∧ s.vm.word < scrubWords s.vm.area ∧
    ∃ data : Half, lanesRun s = true ∧ bit s.cfg.progBlocks 3 = true ∧ locked 0x030000 s = false ∧ s.prg.mode = .normal ∧
    bit data.toNat 0 = true)
    ∧ (∃ s : State, powered s = true ∧ s.pwr.phase ≠ .stopped ∧ Memory.wf s.mem = true ∧ s.vm.area < 3 ∧ s.vm.word < scrubWords s.vm.area ∧
    ∃ y : LaneTx, triadVotes s = true ∧ 2 ≤ (litLanes s).length ∧ y.kind = .write ∧ y.addr.toNat % 8 = 0 ∧ y.data.length = 8 ∧
    (∀ i, i < 8 → y.be.getLsbD i = true) ∧ laneWritable y.addr.toNat s = true ∧ s.vm.mapActive = [] ∧ s.lnk.pair ≠ .active ∧
    rf 0x030000 0 1 s = 1 ∧ rv 0x030034 s = y.addr.toNat) := by
  refine ⟨?_, ?_, ?_, ?_, ?_, ?_, ?_, ?_, ?_, ?_, ?_, ?_⟩
  · exact ⟨{ run with vm := { area := 1, word := 16777215 } }, by decide +kernel, by decide +kernel, by decide +kernel, by decide +kernel, by decide +kernel, by dsimp only [wordGood]; decide +kernel, by decide +kernel⟩
  · exact ⟨{ run with vm := { area := 2, word := 786431 } }, by decide +kernel, by decide +kernel, by decide +kernel, by decide +kernel, by decide +kernel, by dsimp only [wordGood]; decide +kernel, by decide +kernel⟩
  · exact ⟨1, 0, { run with vm := { area := 1, word := 0 } }, by decide +kernel, by decide +kernel, by decide +kernel, by decide +kernel, by decide +kernel, by dsimp only [wordGood]; decide +kernel, by decide +kernel⟩
  · exact ⟨false, 0x101, 0, { run with vm := { area := 1, word := 0x800000 } }, by decide +kernel, by decide +kernel, by decide +kernel, by decide +kernel, by decide +kernel, by dsimp only [wordGood]; decide +kernel, by decide +kernel, (.flip false 0x101 0), by decide +kernel, Or.inl ⟨by decide +kernel, rfl⟩⟩
  · exact ⟨0, 0, { run with vm := { area := 1, word := 0x800000 } }, by decide +kernel, by decide +kernel, by decide +kernel, by decide +kernel, by decide +kernel, by dsimp only [mayHalt, pinsOf]; decide +kernel, by decide +kernel, by dsimp only [wordGood]; decide +kernel, .swapped, Or.inr rfl⟩
  · exact ⟨{ run with vm := { area := 1, word := 0x800000 } }, by decide +kernel, by decide +kernel, by decide +kernel, by decide +kernel, by decide +kernel, by dsimp only [mayHalt, pinsOf]; decide +kernel, by dsimp only [wordGood]; decide +kernel, by decide +kernel⟩
  · exact ⟨{ run with vm := { area := 2, word := 0x80000 } }, by decide +kernel, by decide +kernel, by decide +kernel, by decide +kernel, by decide +kernel, by dsimp only [wordGood]; decide +kernel, by decide +kernel⟩
  · exact ⟨0x101, 0, { run with vm := { area := 0, word := 5, pages0 := [(0, 633470483)] } }, by decide +kernel, by decide +kernel, by decide +kernel, by decide +kernel, by decide +kernel, by decide +kernel, by dsimp only [wordGood]; decide +kernel, by decide +kernel, by decide +kernel, by decide +kernel⟩
  · exact ⟨0x101, 0, { run with vm := { area := 0, word := 5 } }, by decide +kernel, by decide +kernel, by decide +kernel, by decide +kernel, by decide +kernel, by decide +kernel, by dsimp only [wordGood]; decide +kernel, by decide +kernel, by decide +kernel, false, by dsimp only [mayHalt, pinsOf]; decide +kernel, by decide +kernel⟩
  · exact ⟨free, by decide +kernel⟩
  · exact ⟨run, by decide +kernel, by decide +kernel, by decide +kernel, by decide +kernel, by decide +kernel, 1, by decide +kernel⟩
  · exact ⟨{ run with regs := [(0x030000, 1), (0x030034, 0x4000008)] }, by decide +kernel, by decide +kernel, by decide +kernel, by decide +kernel, by decide +kernel, (tx .write 0x4000008 (List.replicate 8 7)), by decide +kernel, by decide +kernel, by decide +kernel, by decide +kernel, by decide +kernel, by decide, by decide +kernel⟩

end ForMemoryRepairs

namespace ForExchangeCommandEffects

def hdr : List Byte := [0x48,0x4B,0x49,0x4D,3,1,0,3,1,0,0x96,0x40] ++ leBytes 4 600 ++ leBytes 2 1 ++ List.replicate 6 0 ++ leBytes 4 0x55 ++ List.replicate 12 0 ++ leBytes 4 0 ++ List.replicate 208 0
def putm (a : Nat) (b : List Byte) : List Host.Cell := memSetList a b []
def xs (x : Exch) : State := { run with xch := x, regs := [(0x070000, 1#32), (0x070044, 0x99#32)], mem := memSetList 0x205800000 hdr (putm 0x201800000 hdr) , cfg.instSize := 0x1000, cfg.globSize := 0x100 }
def inst (p ty o n : Nat) : InstEntry := { path := p, ty := ty, off := o, slots := n }
def img1 : ProgImage := { seq := 3, insts := [inst 1 1 0 8, inst 2 1 64 9, inst 3 5 256 4], convs := [{oldTy := 1, newTy := 2, convUs100 := 5, preserve := [(2,3)]}] }
def img2 : ProgImage := { seq := 4, insts := [inst 1 1 0 8, inst 2 2 64 9, inst 4 5 256 4, inst 3 7 320 2], convs := [{oldTy := 1, newTy := 2, convUs100 := 5, preserve := [(2,3)]}], globals := [(1,2),(3,4)] }
def run2 (x : Exch) (s : State) : State := { s with xch := x, vm.prog0 := some img1, vm.valid0 := true, vm.prog1 := some img2, vm.valid1 := true }
def img (a : Nat) (m : List Host.Cell) : List Host.Cell :=
  let b := bodyAddr a m
  memSetList b (leBytes 4 1 ++ List.replicate 12 0 ++ leBytes 2 0x0201 ++ leBytes 2 0 ++ leBytes 4 0x400 ++ leBytes 4 100 ++ leBytes 4 0) (memSetList (a+0x400) (leBytes 4 2 ++ leBytes 4 8 ++ leBytes 8 0 ++ leBytes 8 0x100 ++ leBytes 8 0x200) (memSetList (a + 0x500) (leBytes 8 0x25) (memSetList (a + 0x600) (leBytes 8 0xFF) m)))
def prepW (k : Nat) (s : State) : State := let s := run2 {st := .checking, target := 1} s; let s := startPreparing { s with vm.prog1 := some { img2 with convs := [{oldTy := 1, newTy := 2, block := k, convUs100 := 5, preserve := [(2,3)]}] }, mem := img 0x02000000 s.mem }
  { s with xch.st := .preparing, xch.work := s.xch.work.map (fun w => { w with dirty := w.old }) }

/-- States and operands that meet the hypotheses of `Obligations.ExchangeCommandEffects`. -/
theorem witness_ExchangeCommandEffects :
    (∃ dt : Nat, ∃ s : State, lanesRun s = true ∧ bit s.cfg.progBlocks 7 = true ∧ s.lnk.pair ≠ .active ∧ loadReason (begin' dt s) = 0)
    ∧ (∃ dt : Nat, ∃ s : State, lanesRun s = true ∧ bit s.cfg.progBlocks 7 = true ∧ s.lnk.pair ≠ .active ∧ loadReason (begin' dt s) ≠ 0)
    ∧ (∃ dt : Nat, ∃ s : State, lanesRun s = true ∧ bit s.cfg.progBlocks 7 = true ∧ s.lnk.pair ≠ .active ∧ armReason (armTarget s) false (begin' dt s) = (0, 0))
    ∧ (∃ dt : Nat, ∃ s : State, lanesRun s = true ∧ bit s.cfg.progBlocks 7 = true ∧ s.lnk.pair ≠ .active ∧ (armReason (armTarget s) false (begin' dt s)).1 ≠ 0)
    ∧ (∃ s : State, lanesRun s = true ∧ bit s.cfg.progBlocks 7 = true ∧ s.lnk.pair ≠ .active ∧ s.xch.st ∈ [.loading, .checking, .preparing, .ready, .armed] ∧
    s.xch.window = false ∧ s.xch.forActivation = false)
    ∧ (∃ s : State, lanesRun s = true ∧ bit s.cfg.progBlocks 7 = true ∧ s.lnk.pair ≠ .active ∧ s.xch.st = .draining ∧
    s.xch.window = true ∧ s.xch.forActivation = false)
    ∧ (∃ s : State, lanesRun s = true ∧ bit s.cfg.progBlocks 7 = true ∧ s.lnk.pair ≠ .active ∧ s.xch.st ∈ [.idle, .exchanging, .committed])
    ∧ (∃ norOk : Bool, ∃ s : State, s.xch.st = .loading ∧ norOk = true)
    ∧ (∃ s : State, s.xch.st = .checking ∧ (progReason s.xch.srcBank (xchCfg s) s).1 ≠ 0 ∧ (progReason s.xch.srcBank (xchCfg s) s).1 < 256)
    ∧ (∃ s : State, ∃ p, s.xch.st = .preparing ∧ s.xch.image = some p ∧ prepReason s.xch.work (matched p s) s = 0 ∧
    s.xch.work = [])
    ∧ (∃ s : State, ∃ p, s.xch.st = .preparing ∧ s.xch.image = some p ∧ prepReason s.xch.work (matched p s) s ≠ 0)
    ∧ (∃ s : State, lanesRun s = true ∧ windowDue s = true ∧ s.lnk.pair ≠ .active) := by
  refine ⟨?_, ?_, ?_, ?_, ?_, ?_, ?_, ?_, ?_, ?_, ?_, ?_⟩
  · exact ⟨0, (xs {}), by decide +kernel⟩
  · exact ⟨0, (prepW 0 (xs {})), by decide +kernel⟩
  · exact ⟨0, ({run2 {st := .ready, target := 1, image := some img2} (xs {}) with regs := [(0x070000, 1#32), (0x070008, 7000#32)]}), by decide +kernel⟩
  · exact ⟨0, (prepW 0 (xs {})), by decide +kernel⟩
  · exact ⟨(prepW 0 (xs {})), by decide +kernel⟩
  · exact ⟨({xs {st := .draining, target := 1, window := true, withheld := [(1,false)], heldTrig := [(17,3,4)]} with prg.active := [{}]}), by decide +kernel⟩
  · exact ⟨(xs {}), by decide +kernel⟩
  · exact ⟨true, (xs {st := .loading, target := 1}), by decide +kernel⟩
  · exact ⟨(xs {st := .checking, target := 1}), by decide +kernel⟩
  · exact ⟨(run2 {st := .preparing, target := 1, image := some img2} (xs {})), _, by decide +kernel, (Option.eq_some_of_isSome (by decide +kernel)), by decide +kernel⟩
  · exact ⟨(run2 {st := .preparing, target := 1, image := some {img2 with insts := [inst 9 9 0 8000]}} (xs {})), _, by decide +kernel, (Option.eq_some_of_isSome (by decide +kernel)), by decide +kernel⟩
  · exact ⟨({run2 {st := .armed, target := 1, image := some img2, tracking := true} (xs {}) with regs := [(0x070000, 1#32), (0x070008, 5000#32)], vm.mapNew := [(1,2)]}), by decide +kernel⟩

end ForExchangeCommandEffects

namespace ForExchangeCommandEffects2

/-- States and operands that meet the hypotheses of `Obligations.ExchangeCommandEffects`. -/
theorem witness_ExchangeCommandEffects_2 :
    (∃ dt : Nat, ∃ s : State, ∃ p, s.xch.st = .preparing ∧ s.xch.image = some p ∧ ∃ u, ∃ n, prepReason s.xch.work (matched p s) s = 0 ∧
    convertList p s.xch.work (prepStart dt p s) = ((.done, n), u) ∧ u.prg.mode ≠ .halted)
    ∧ (∃ dt : Nat, ∃ s : State, ∃ p, s.xch.st = .preparing ∧ s.xch.image = some p ∧ ∃ u, ∃ c, ∃ b, prepReason s.xch.work (matched p s) s = 0 ∧
    convertList p s.xch.work (prepStart dt p s) = ((.trapped c, b), u) ∧ u.prg.mode ≠ .halted ∧ u.xch.st = .preparing ∧
    u.xch.window = false) := by
  refine ⟨?_, ?_⟩
  · exact ⟨0, ({ cw 0x25 with xch := { st := .preparing, target := 1, image := some conv0, work := [work1] } }), conv0, by decide +kernel, by decide +kernel, (convertList conv0 [work1] (prepStart 0 conv0 ({ cw 0x25 with xch := { st := .preparing, target := 1, image := some conv0, work := [work1] } }))).2, 0, by decide +kernel, Prod.ext (by decide +kernel) rfl, by decide +kernel⟩
  · exact ⟨0, ({ cw 0x20080000002F with xch := { st := .preparing, target := 1, image := some conv0, work := [work1] } }), conv0, by decide +kernel, by decide +kernel, (convertList conv0 [work1] (prepStart 0 conv0 ({ cw 0x20080000002F with xch := { st := .preparing, target := 1, image := some conv0, work := [work1] } }))).2, 0, 0, by decide +kernel, Prod.ext (by decide +kernel) rfl, by decide +kernel⟩

end ForExchangeCommandEffects2

namespace ForExchangeCycleEffects

/-- A block that jumps to its own one instruction never ends. -/
theorem convRun_self_jump (s : State) (h1 : laneRead (codeWord s) s = (s, 0x21)) (h2 : wordMeaning 0x21 s = .ok s 0)
    (h3 : (s.prg.mode == .halted) = false) : ∀ n, convRun n s = (.late, s)
  | 0 => rfl
  | n + 1 => by
    rw [convRun, h1]
    simp only [h2, h3, convRun_self_jump s h1 h2 h3 n, show bits 0x21 0 8 = 0x21 from by decide, if_false, Bool.false_eq_true, false_and, show ¬ ((0x21 : Nat) = 0x25) from by decide, show ¬ ((0x21 : Nat) = 0x2F) from by decide]
theorem conv_late : convertList conv0 [work1] (cycleStart 0 (cw 0x21))
    = ((.late, 0), convLeave (cycleStart 0 (cw 0x21)) (convEnter work1 (cycleStart 0 (cw 0x21)))) := by
  have h := convRun_self_jump (convEnter work1 (cycleStart 0 (cw 0x21))) (by decide +kernel) (ev_ok (by decide +kernel)) (by decide +kernel) convSteps
  have e : convertOne conv0 work1 (cycleStart 0 (cw 0x21))
      = (.late, convLeave (cycleStart 0 (cw 0x21)) (convEnter work1 (cycleStart 0 (cw 0x21)))) := by
    show (let r := convRun convSteps (convEnter work1 (cycleStart 0 (cw 0x21))); (r.1, convLeave (cycleStart 0 (cw 0x21)) r.2)) = _
    rw [h]
  rw [convertList, e]; rfl

/-- States and operands that meet the hypotheses of `Obligations.ExchangeCycleEffects`. -/
theorem witness_ExchangeCycleEffects :
    (∃ q : QuietIn, ∃ p : ProgImage, ∃ s : State, lanesRun s = true ∧ s.xch.st = .draining ∧ s.xch.window = true ∧
    s.prg.active = [] ∧ s.xch.image = some p ∧ s.xch.forActivation = false ∧ s.lnk.pair ≠ .active ∧ reconvLimit false + q.stallUs < q.reconvUs)
    ∧ (∃ dt : Nat, ∃ q : QuietIn, ∃ p : ProgImage, ∃ s : State, lanesRun s = true ∧ s.xch.st = .draining ∧ s.xch.window = true ∧
    s.prg.active = [] ∧ s.xch.image = some p ∧ s.xch.forActivation = false ∧ s.lnk.pair ≠ .active ∧ q.reconvUs ≤ reconvLimit false + q.stallUs ∧
    ∃ e : ConvEnd, ∃ n : Nat, ∃ u : State, convertList p (s.xch.work.filter isDirty) (cycleStart dt s) = ((e, n), u) ∧
    u.prg.mode ≠ .halted ∧ u.xch.st = .exchanging ∧ u.xch.window = true ∧ u.xch.forActivation = false ∧ ∃ c, e = .trapped c)
    ∧ (∃ dt : Nat, ∃ q : QuietIn, ∃ p : ProgImage, ∃ s : State, lanesRun s = true ∧ s.xch.st = .draining ∧ s.xch.window = true ∧
    s.prg.active = [] ∧ s.xch.image = some p ∧ s.xch.forActivation = false ∧ s.lnk.pair ≠ .active ∧ q.reconvUs ≤ reconvLimit false + q.stallUs ∧
    ∃ e : ConvEnd, ∃ n : Nat, ∃ u : State, convertList p (s.xch.work.filter isDirty) (cycleStart dt s) = ((e, n), u) ∧
    u.prg.mode ≠ .halted ∧ u.xch.st = .exchanging ∧ u.xch.window = true ∧ u.xch.forActivation = false ∧ e = .late)
    ∧ (∃ dt : Nat, ∃ q : QuietIn, ∃ p : ProgImage, ∃ s : State, lanesRun s = true ∧ s.xch.st = .draining ∧ s.xch.window = true ∧
    s.prg.active = [] ∧ s.xch.image = some p ∧ s.xch.forActivation = false ∧ s.lnk.pair ≠ .active ∧ q.reconvUs ≤ reconvLimit false + q.stallUs ∧
    ∃ e : ConvEnd, ∃ n : Nat, ∃ u : State, convertList p (s.xch.work.filter isDirty) (cycleStart dt s) = ((e, n), u) ∧
    u.prg.mode ≠ .halted ∧ u.xch.st = .exchanging ∧ u.xch.window = true ∧ u.xch.forActivation = false ∧ e = .done ∧
    checkLimit false + q.stallUs < q.checkUs)
    ∧ (∃ dt : Nat, ∃ q : QuietIn, ∃ p : ProgImage, ∃ s : State, lanesRun s = true ∧ s.xch.st = .draining ∧ s.xch.window = true ∧
    s.prg.active = [] ∧ s.xch.image = some p ∧ s.xch.forActivation = false ∧ s.lnk.pair ≠ .active ∧ q.reconvUs ≤ reconvLimit false + q.stallUs ∧
    ∃ e : ConvEnd, ∃ n : Nat, ∃ u : State, convertList p (s.xch.work.filter isDirty) (cycleStart dt s) = ((e, n), u) ∧
    u.prg.mode ≠ .halted ∧ u.xch.st = .exchanging ∧ u.xch.window = true ∧ u.xch.forActivation = false ∧ e = .done ∧
    q.checkUs ≤ checkLimit false + q.stallUs ∧ ∃ j, headerBad p u = some j)
    ∧ (∃ dt : Nat, ∃ q : QuietIn, ∃ p : ProgImage, ∃ s : State, lanesRun s = true ∧ s.xch.st = .draining ∧ s.xch.window = true ∧
    s.prg.active = [] ∧ s.xch.image = some p ∧ s.xch.forActivation = false ∧ s.lnk.pair ≠ .active ∧ q.reconvUs ≤ reconvLimit false + q.stallUs ∧
    ∃ e : ConvEnd, ∃ n : Nat, ∃ u : State, convertList p (s.xch.work.filter isDirty) (cycleStart dt s) = ((e, n), u) ∧
    u.prg.mode ≠ .halted ∧ u.xch.st = .exchanging ∧ u.xch.window = true ∧ u.xch.forActivation = false ∧ e = .done ∧
    q.checkUs ≤ checkLimit false + q.stallUs ∧ headerBad p u = none ∧ notComplements u = true ∧ mayHalt u)
    ∧ (∃ dt : Nat, ∃ q : QuietIn, ∃ p : ProgImage, ∃ s : State, lanesRun s = true ∧ s.xch.st = .draining ∧ s.xch.window = true ∧
    s.prg.active = [] ∧ s.xch.image = some p ∧ s.xch.forActivation = false ∧ s.lnk.pair ≠ .active ∧ q.reconvUs ≤ reconvLimit false + q.stallUs ∧
    ∃ e : ConvEnd, ∃ n : Nat, ∃ u : State, convertList p (s.xch.work.filter isDirty) (cycleStart dt s) = ((e, n), u) ∧
    u.prg.mode ≠ .halted ∧ u.xch.st = .exchanging ∧ u.xch.window = true ∧ u.xch.forActivation = false ∧ e = .done ∧
    q.checkUs ≤ checkLimit false + q.stallUs ∧ headerBad p u = none ∧ notComplements u = false ∧ u.upd.act ≠ .rollback ∧
    u.lnk.pair ≠ .active) := by
  refine ⟨?_, ?_, ?_, ?_, ?_, ?_, ?_⟩
  · exact ⟨{ reconvUs := 1611, checkUs := 0, stallUs := 0 }, conv0, (cw 0x25), by decide +kernel⟩
  · exact ⟨0, { reconvUs := 1610, checkUs := 1800, stallUs := 0 }, conv0, (cw 0x20080000002F), by decide +kernel, by decide +kernel, by decide +kernel, by decide +kernel, by decide +kernel, by decide +kernel, by decide +kernel, by decide +kernel, .trapped 0, 0, (convertList conv0 [work1] (cycleStart 0 (cw 0x20080000002F))).2, Prod.ext (by decide +kernel) rfl, by decide +kernel, by decide +kernel, by decide +kernel, by decide +kernel, ⟨0, rfl⟩⟩
  · exact ⟨0, { reconvUs := 1610, checkUs := 1800, stallUs := 0 }, conv0, (cw 0x21), by decide +kernel, by decide +kernel, by decide +kernel, by decide +kernel, by decide +kernel, by decide +kernel, by decide +kernel, by decide +kernel, .late, 0, _, conv_late, by decide +kernel, by decide +kernel, by decide +kernel, by decide +kernel, rfl⟩
  · exact ⟨0, { reconvUs := 1610, checkUs := 1801, stallUs := 0 }, conv0, (cw 0x25), by decide +kernel, by decide +kernel, by decide +kernel, by decide +kernel, by decide +kernel, by decide +kernel, by decide +kernel, by decide +kernel, .done, 0, (convertList conv0 [work1] (cycleStart 0 (cw 0x25))).2, Prod.ext (by decide +kernel) rfl, by decide +kernel, by decide +kernel, by decide +kernel, by decide +kernel, rfl, by decide +kernel⟩
  · exact ⟨0, { reconvUs := 1610, checkUs := 1800, stallUs := 0 }, { insts := [{ path := 2, off := 64, slots := 4 }] }, ({ cw 0x25 with xch.image := some { insts := [{ path := 2, off := 64, slots := 4 }] } }), by decide +kernel, by decide +kernel, by decide +kernel, by decide +kernel, by decide +kernel, by decide +kernel, by decide +kernel, by decide +kernel, .done, 0, (convertList { insts := [{ path := 2, off := 64, slots := 4 }] } [work1] (cycleStart 0 ({ cw 0x25 with xch.image := some { insts := [{ path := 2, off := 64, slots := 4 }] } }))).2, Prod.ext (by decide +kernel) rfl, by decide +kernel, by decide +kernel, by decide +kernel, by decide +kernel, rfl, by decide +kernel, 0, by decide +kernel⟩
  · exact ⟨0, { reconvUs := 1610, checkUs := 1800, stallUs := 0 }, conv0, ({ cw 0x25 with mem := memSet 0x04000000 5 (cw 0x25).mem }), by decide +kernel, by decide +kernel, by decide +kernel, by decide +kernel, by decide +kernel, by decide +kernel, by decide +kernel, by decide +kernel, .done, 0, (convertList conv0 [work1] (cycleStart 0 ({ cw 0x25 with mem := memSet 0x04000000 5 (cw 0x25).mem }))).2, Prod.ext (by decide +kernel) rfl, by decide +kernel, by decide +kernel, by decide +kernel, by decide +kernel, rfl, by decide +kernel, by decide +kernel, by decide +kernel, by dsimp only [mayHalt, pinsOf]; decide +kernel⟩
  · exact ⟨0, { reconvUs := 1610, checkUs := 1800, stallUs := 0 }, conv0, (cw 0x25), by decide +kernel, by decide +kernel, by decide +kernel, by decide +kernel, by decide +kernel, by decide +kernel, by decide +kernel, by decide +kernel, .done, 0, (convertList conv0 [work1] (cycleStart 0 (cw 0x25))).2, Prod.ext (by decide +kernel) rfl, by decide +kernel, by decide +kernel, by decide +kernel, by decide +kernel, rfl, by decide +kernel⟩

end ForExchangeCycleEffects

namespace ForArithmeticResults

/-- States and operands that meet the hypotheses of `Obligations.ArithmeticResults`. -/
theorem witness_ArithmeticResults :
    (∃ dt : Nat, ∃ w : VInstr, ∃ s : State, ∃ a : State, ∃ x : Nat, ∃ y : Nat, Runs dt 1 w s ∧ Reads2 (vlane w s) w.ty.toNat w (vstart dt w s) x y a ∧
    let ty := w.ty.toNat; tyInt ty = true ∧ ty ≠ 7)
    ∧ (∃ dt : Nat, ∃ w : VInstr, ∃ s : State, ∃ a : State, ∃ x : Nat, ∃ y : Nat, Runs dt 1 w s ∧ Reads2 (vlane w s) w.ty.toNat w (vstart dt w s) x y a ∧
    let ty := w.ty.toNat; tyInt ty = true ∧ tyVal ty y = 0)
    ∧ (∃ dt : Nat, ∃ w : VInstr, ∃ s : State, ∃ a : State, ∃ x : Nat, ∃ y : Nat, Runs dt 1 w s ∧ Reads2 (vlane w s) w.ty.toNat w (vstart dt w s) x y a ∧
    let ty := w.ty.toNat; tyInt ty = true ∧ tyVal ty y ≠ 0 ∧ inType ty ((tyVal ty x).tdiv (tyVal ty y)) = true)
    ∧ (∃ dt : Nat, ∃ w : VInstr, ∃ s : State, ∃ a : State, ∃ x : Nat, ∃ y : Nat, Runs dt 1 w s ∧ Reads2 (vlane w s) w.ty.toNat w (vstart dt w s) x y a ∧
    let ty := w.ty.toNat; tyInt ty = true ∧ tyVal ty x < tyVal ty y)
    ∧ (∃ dt : Nat, ∃ w : VInstr, ∃ s : State, ∃ a : State, ∃ x : Nat, ∃ y : Nat, Runs dt 1 w s ∧ Reads2 (vlane w s) w.ty.toNat w (vstart dt w s) x y a ∧
    let ty := w.ty.toNat; tyInt ty = true ∧ tyVal ty y < tyVal ty x)
    ∧ (∃ dt : Nat, ∃ w : VInstr, ∃ s : State, ∃ a : State, ∃ x : Nat, ∃ y : Nat, Runs dt 1 w s ∧ Reads2 (vlane w s) w.ty.toNat w (vstart dt w s) x y a ∧
    let ty := w.ty.toNat; tyInt ty = true ∧ x = y)
    ∧ (∃ dt : Nat, ∃ w : VInstr, ∃ s : State, ∃ a : State, ∃ x : Nat, ∃ y : Nat, Runs dt 1 w s ∧ Reads2 (vlane w s) w.ty.toNat w (vstart dt w s) x y a ∧
    let ty := w.ty.toNat; ty = 7)
    ∧ (∃ dt : Nat, ∃ w : VInstr, ∃ s : State, ∃ a : State, ∃ x : Nat, ∃ y : Nat, Runs dt 1 w s ∧ Reads2 (vlane w s) w.ty.toNat w (vstart dt w s) x y a ∧
    let ty := w.ty.toNat; ty = 5 ∧ fLt x y = true ∧ fLt y x = false) := by
  refine ⟨?_, ?_, ?_, ?_, ?_, ?_, ?_, ?_⟩
  · exact ⟨0, (ins 1), (two 0x7FFFFFFF 1), (vstart 0 (ins 1) (two 0x7FFFFFFF 1)), 0x7FFFFFFF, 1, by dsimp only [Runs]; decide +kernel, ⟨(vstart 0 (ins 1) (two 0x7FFFFFFF 1)), ⟨ev_ok (by decide +kernel), by decide +kernel⟩, ev_ok (by decide +kernel), by decide +kernel⟩, by decide +kernel⟩
  · exact ⟨0, (ins 3), (two 5 0), (vstart 0 (ins 3) (two 5 0)), 5, 0, by dsimp only [Runs]; decide +kernel, ⟨(vstart 0 (ins 3) (two 5 0)), ⟨ev_ok (by decide +kernel), by decide +kernel⟩, ev_ok (by decide +kernel), by decide +kernel⟩, by decide +kernel⟩
  · exact ⟨0, (ins 3), (two (2 ^ 64 - 7) 2), (vstart 0 (ins 3) (two (2 ^ 64 - 7) 2)), (2 ^ 64 - 7), 2, by dsimp only [Runs]; decide +kernel, ⟨(vstart 0 (ins 3) (two (2 ^ 64 - 7) 2)), ⟨ev_ok (by decide +kernel), by decide +kernel⟩, ev_ok (by decide +kernel), by decide +kernel⟩, by decide +kernel⟩
  · exact ⟨0, (ins 2), (two 4 5), (vstart 0 (ins 2) (two 4 5)), 4, 5, by dsimp only [Runs]; decide +kernel, ⟨(vstart 0 (ins 2) (two 4 5)), ⟨ev_ok (by decide +kernel), by decide +kernel⟩, ev_ok (by decide +kernel), by decide +kernel⟩, by decide +kernel⟩
  · exact ⟨0, (ins 3), (two 5 4), (vstart 0 (ins 3) (two 5 4)), 5, 4, by dsimp only [Runs]; decide +kernel, ⟨(vstart 0 (ins 3) (two 5 4)), ⟨ev_ok (by decide +kernel), by decide +kernel⟩, ev_ok (by decide +kernel), by decide +kernel⟩, by decide +kernel⟩
  · exact ⟨0, (ins 4), (two 5 5), (vstart 0 (ins 4) (two 5 5)), 5, 5, by dsimp only [Runs]; decide +kernel, ⟨(vstart 0 (ins 4) (two 5 5)), ⟨ev_ok (by decide +kernel), by decide +kernel⟩, ev_ok (by decide +kernel), by decide +kernel⟩, by decide +kernel⟩
  · exact ⟨0, (ins 7), (two 1 1), (vstart 0 (ins 7) (two 1 1)), 1, 1, by dsimp only [Runs]; decide +kernel, ⟨(vstart 0 (ins 7) (two 1 1)), ⟨ev_ok (by decide +kernel), by decide +kernel⟩, ev_ok (by decide +kernel), by decide +kernel⟩, by decide +kernel⟩
  · exact ⟨0, (ins 5), (two 0x3FF0000000000000 0x4000000000000000), (vstart 0 (ins 5) (two 0x3FF0000000000000 0x4000000000000000)), 0x3FF0000000000000, 0x4000000000000000, by dsimp only [Runs]; decide +kernel, ⟨(vstart 0 (ins 5) (two 0x3FF0000000000000 0x4000000000000000)), ⟨ev_ok (by decide +kernel), by decide +kernel⟩, ev_ok (by decide +kernel), by decide +kernel⟩, by decide +kernel⟩

end ForArithmeticResults

namespace ForLogicShiftAndCompareResults

/-- States and operands that meet the hypotheses of `Obligations.LogicShiftAndCompareResults`. -/
theorem witness_LogicShiftAndCompareResults :
    (∃ dt : Nat, ∃ w : VInstr, ∃ s : State, ∃ a : State, ∃ x : Nat, ∃ y : Nat, Runs dt 1 w s ∧ Reads2 (vlane w s) w.ty.toNat w (vstart dt w s) x y a ∧
    let ty := w.ty.toNat; tyInt ty = true)
    ∧ (∃ dt : Nat, ∃ w : VInstr, ∃ s : State, ∃ a : State, ∃ x : Nat, ∃ y : Nat, Runs dt 1 w s ∧ Reads2 (vlane w s) w.ty.toNat w (vstart dt w s) x y a ∧
    let ty := w.ty.toNat; ty = 5)
    ∧ (∃ dt : Nat, ∃ w : VInstr, ∃ s : State, ∃ a : State, ∃ x : Nat, ∃ y : Nat, Runs dt 1 w s ∧ Reads2 (vlane w s) w.ty.toNat w (vstart dt w s) x y a ∧
    let ty := w.ty.toNat; y < tyWidth ty) := by
  refine ⟨?_, ?_, ?_⟩
  · exact ⟨0, (ins 4), (two 3 5), (vstart 0 (ins 4) (two 3 5)), 3, 5, by dsimp only [Runs]; decide +kernel, ⟨(vstart 0 (ins 4) (two 3 5)), ⟨ev_ok (by decide +kernel), by decide +kernel⟩, ev_ok (by decide +kernel), by decide +kernel⟩, by decide +kernel⟩
  · exact ⟨0, (ins 5), (two 0x7FF8000000000000 0), (vstart 0 (ins 5) (two 0x7FF8000000000000 0)), 0x7FF8000000000000, 0, by dsimp only [Runs]; decide +kernel, ⟨(vstart 0 (ins 5) (two 0x7FF8000000000000 0)), ⟨ev_ok (by decide +kernel), by decide +kernel⟩, ev_ok (by decide +kernel), by decide +kernel⟩, by decide +kernel⟩
  · exact ⟨0, (ins 2), (two 1 31), (vstart 0 (ins 2) (two 1 31)), 1, 31, by dsimp only [Runs]; decide +kernel, ⟨(vstart 0 (ins 2) (two 1 31)), ⟨ev_ok (by decide +kernel), by decide +kernel⟩, ev_ok (by decide +kernel), by decide +kernel⟩, by decide +kernel⟩

end ForLogicShiftAndCompareResults

namespace ForMoveConvertAndUnaryResults

/-- States and operands that meet the hypotheses of `Obligations.MoveConvertAndUnaryResults`. -/
theorem witness_MoveConvertAndUnaryResults :
    (∃ dt : Nat, ∃ w : VInstr, ∃ s : State, ∃ a : State, ∃ x : Nat, let ty := w.ty.toNat; let b := vlane w s; Runs dt 1 w s ∧
    Reads1 b ty w (vstart dt w s) x a ∧ tyInt ty = true)
    ∧ (∃ dt : Nat, ∃ w : VInstr, ∃ s : State, ∃ a : State, ∃ x : Nat, let ty := w.ty.toNat; let b := vlane w s; Runs dt 1 w s ∧
    Reads1 b ty w (vstart dt w s) x a ∧ ty = 5)
    ∧ (∃ dt : Nat, ∃ w : VInstr, ∃ s : State, let ty := w.ty.toNat; Runs dt 1 w s ∧ (ty = 0 → w.src1.toNat + w.src2.toNat * 65536 ≤ 1))
    ∧ (∃ dt : Nat, ∃ w : VInstr, ∃ s : State, ∃ a : State, ∃ x : Nat, let ty := w.ty.toNat; let b := vlane w s; Runs dt 8 w s ∧
    Reads1 b ty w (vstart dt w s) x a ∧ ty ≠ 5 ∧ w.sub.toNat ≠ 5 ∧ inType w.sub.toNat (tyVal ty x) = true)
    ∧ (∃ dt : Nat, ∃ w : VInstr, ∃ s : State, ∃ a : State, ∃ x : Nat, let ty := w.ty.toNat; let b := vlane w s; Runs dt 8 w s ∧
    Reads1 b ty w (vstart dt w s) x a ∧ ty ≠ 5 ∧ w.sub.toNat = 5)
    ∧ (∃ dt : Nat, ∃ w : VInstr, ∃ s : State, ∃ a : State, ∃ x : Nat, let ty := w.ty.toNat; let b := vlane w s; Runs dt 8 w s ∧
    Reads1 b ty w (vstart dt w s) x a ∧ ty = 5 ∧ w.sub.toNat ≠ 0 ∧ w.sub.toNat ≠ 5 ∧ fNan x = true)
    ∧ (∃ dt : Nat, ∃ w : VInstr, ∃ s : State, ∃ a : State, ∃ x : Nat, let ty := w.ty.toNat; let b := vlane w s; Runs dt 8 w s ∧
    Reads1 b ty w (vstart dt w s) x a ∧ ty = 5 ∧ w.sub.toNat ≠ 0 ∧ w.sub.toNat ≠ 5 ∧ fNan x = false ∧ fInf x = false)
    ∧ (∃ dt : Nat, ∃ w : VInstr, ∃ s : State, ∃ a : State, let ty := w.ty.toNat; let b := vlane w s; ∃ i : Nat, ∃ v : Nat, ∃ m : State,
    ∃ t : State, ∃ u : Nat, Runs dt 1 w s ∧ opRead b 1 w.src2 0 (vstart dt w s) = .ok m i ∧ m.prg.mode ≠ .halted ∧ opRead b ty w.src1 (toSigned 32 i) m = .ok a v ∧
    a.prg.mode ≠ .halted ∧ opWrite b ty w.dst 0 v a = .ok t u)
    ∧ (∃ dt : Nat, ∃ w : VInstr, ∃ s : State, ∃ a : State, let ty := w.ty.toNat; let b := vlane w s; ∃ i : Nat, ∃ v : Nat, ∃ m : State,
    ∃ t : State, ∃ u : Nat, Runs dt 1 w s ∧ opRead b 1 w.src2 0 (vstart dt w s) = .ok m i ∧ m.prg.mode ≠ .halted ∧ opRead b ty w.src1 0 m = .ok a v ∧
    a.prg.mode ≠ .halted ∧ opWrite b ty w.dst (toSigned 32 i) v a = .ok t u)
    ∧ (∃ dt : Nat, ∃ w : VInstr, ∃ s : State, ∃ a : State, ∃ x : Nat, let ty := w.ty.toNat; let b := vlane w s; ∃ d : Nat, ∃ y : Nat,
    ∃ m : State, Runs dt 1 w s ∧ tyInt ty = true ∧ opRead b ty w.dst 0 (vstart dt w s) = .ok m d ∧ m.prg.mode ≠ .halted ∧
    Reads2 b ty w m x y a ∧ tyVal ty x ≤ tyVal ty y) := by
  refine ⟨?_, ?_, ?_, ?_, ?_, ?_, ?_, ?_, ?_, ?_⟩
  · exact ⟨0, (ins 3), (two (2 ^ 63) 0), (vstart 0 (ins 3) (two (2 ^ 63) 0)), (2 ^ 63), by dsimp only [Runs]; decide +kernel, ⟨ev_ok (by decide +kernel), by decide +kernel⟩, by decide +kernel⟩
  · exact ⟨0, (ins 5), (two 0x8000000000000000 0), (vstart 0 (ins 5) (two 0x8000000000000000 0)), 0x8000000000000000, by dsimp only [Runs]; decide +kernel, ⟨ev_ok (by decide +kernel), by decide +kernel⟩, rfl⟩
  · exact ⟨0, { ins 0 with src1 := 1, src2 := 0 }, run, by dsimp only [Runs]; decide +kernel, by decide⟩
  · exact ⟨0, (ins 3 1), (two 0x7F 0), (vstart 0 (ins 3 1) (two 0x7F 0)), 0x7F, by dsimp only [Runs]; decide +kernel, ⟨ev_ok (by decide +kernel), by decide +kernel⟩, by decide +kernel⟩
  · exact ⟨0, (ins 3 5), (two (2 ^ 64 - 1) 0), (vstart 0 (ins 3 5) (two (2 ^ 64 - 1) 0)), (2 ^ 64 - 1), by dsimp only [Runs]; decide +kernel, ⟨ev_ok (by decide +kernel), by decide +kernel⟩, by decide +kernel⟩
  · exact ⟨0, (ins 5 1), (two 0x7FF8000000000000 0), (vstart 0 (ins 5 1) (two 0x7FF8000000000000 0)), 0x7FF8000000000000, by dsimp only [Runs]; decide +kernel, ⟨ev_ok (by decide +kernel), by decide +kernel⟩, by decide +kernel⟩
  · exact ⟨0, (ins 5 1), (two 0x3FF8000000000000 0), (vstart 0 (ins 5 1) (two 0x3FF8000000000000 0)), 0x3FF8000000000000, by dsimp only [Runs]; decide +kernel, ⟨ev_ok (by decide +kernel), by decide +kernel⟩, by decide +kernel⟩
  · exact ⟨0, (ins 3), (two 7 1), (vstart 0 (ins 3) (two 7 1)), 1, 1, (vstart 0 (ins 3) (two 7 1)), (evState (opWrite false 3 0x200A 0 1 (vstart 0 (ins 3) (two 7 1)))), (evVal (opWrite false 3 0x200A 0 1 (vstart 0 (ins 3) (two 7 1)))), by dsimp only [Runs]; decide +kernel, ev_ok (by decide +kernel), by decide +kernel, ev_ok (by decide +kernel), by decide +kernel, ev_get (by decide +kernel)⟩
  · exact ⟨0, (ins 3), (two 7 1), (vstart 0 (ins 3) (two 7 1)), 1, 7, (vstart 0 (ins 3) (two 7 1)), (evState (opWrite false 3 0x200A 1 7 (vstart 0 (ins 3) (two 7 1)))), (evVal (opWrite false 3 0x200A 1 7 (vstart 0 (ins 3) (two 7 1)))), by dsimp only [Runs]; decide +kernel, ev_ok (by decide +kernel), by decide +kernel, ev_ok (by decide +kernel), by decide +kernel, ev_get (by decide +kernel)⟩
  · exact ⟨0, (ins 3), (two 1 7), (vstart 0 (ins 3) (two 1 7)), 1, 0, 7, (vstart 0 (ins 3) (two 1 7)), by dsimp only [Runs]; decide +kernel, by decide +kernel, ev_ok (by decide +kernel), by decide +kernel, ⟨(vstart 0 (ins 3) (two 1 7)), ⟨ev_ok (by decide +kernel), by decide +kernel⟩, ev_ok (by decide +kernel), by decide +kernel⟩, by decide +kernel⟩

end ForMoveConvertAndUnaryResults

namespace ForOperandReadsAndWrites

def S0 : State := { run with prg.active := [{ task := 3, frames := [{ block := 0, pc := 5, base := 0x4000040 }], scr := [(8, 5), (255, 7)], img := [(0x07010028, 9),(0x0701002F, 9)] }], cfg.pins := [1 + 2^29 + 5*65536], vm.prog0 := some { blocks := [{count := 10, consts := [3,4,2^63]}] }, vm.valid0 := true, mem := [(0x4000080, 9),(0xC000080, 0xF6),(0x7000040,1),(0x7020040,4),(0xF000040,0xFE),(0xF020040,0xFB)] }

/-- States and operands that meet the hypotheses of `Obligations.OperandReadsAndWrites`. -/
theorem witness_OperandReadsAndWrites :
    (∃ b : Bool, ∃ w : BitVec 16, ∃ d : Int, ∃ i : Nat, ∃ v : Nat, ∃ s : State, opAt w d = some i ∧ v < 2 ^ 64 ∧
    s.vm.mapActive = [] ∧ (ctx b s).conv = none ∧ opSpace w = 1 ∧ 8 ≤ i ∧ i < 256 ∧ ∃ j, j ≠ i ∧ 8 ≤ j)
    ∧ (∃ b : Bool, ∃ w : BitVec 16, ∃ d : Int, ∃ i : Nat, ∃ v : Nat, ∃ s : State, opAt w d = some i ∧ v < 2 ^ 64 ∧
    s.vm.mapActive = [] ∧ (ctx b s).conv = none ∧ opSpace w = 1 ∧ i < 8)
    ∧ (∃ b : Bool, ∃ w : BitVec 16, ∃ d : Int, ∃ i : Nat, ∃ v : Nat, ∃ s : State, opAt w d = some i ∧ v < 2 ^ 64 ∧
    s.vm.mapActive = [] ∧ (ctx b s).conv = none ∧ opSpace w = 2 ∧ i < 8192)
    ∧ (∃ b : Bool, ∃ w : BitVec 16, ∃ d : Int, ∃ i : Nat, ∃ v : Nat, ∃ s : State, opAt w d = some i ∧ v < 2 ^ 64 ∧
    s.vm.mapActive = [] ∧ (ctx b s).conv = none ∧ ∃ k, ∃ c, opSpace w = 4 ∧ blockInfo (frameOf b s).block s = some k ∧
    k.consts[i]? = some c)
    ∧ (∃ b : Bool, ∃ w : BitVec 16, ∃ d : Int, ∃ i : Nat, ∃ v : Nat, ∃ s : State, opAt w d = some i ∧ v < 2 ^ 64 ∧
    s.vm.mapActive = [] ∧ (ctx b s).conv = none ∧ opSpace w = 3 ∧ i < 8192 ∧ wordClean (0x07020000 + 8 * i) s)
    ∧ (∃ b : Bool, ∃ w : BitVec 16, ∃ d : Int, ∃ i : Nat, ∃ v : Nat, ∃ s : State, opAt w d = some i ∧ v < 2 ^ 64 ∧
    s.vm.mapActive = [] ∧ (ctx b s).conv = none ∧ ∃ a : Nat, a % 8 = 0 ∧ a < 0x08000000 ∧ ((opSpace w = 0 ∧ a = (frameOf b s).base + 8 * i) ∨ (opSpace w = 5 ∧ a = 0x07000000 + 8 * i)) ∧
    i < 8192 ∧ laneWritable a s = true ∧ wordClean a s)
    ∧ (∃ b : Bool, ∃ w : BitVec 16, ∃ d : Int, ∃ i : Nat, ∃ v : Nat, ∃ s : State, opAt w d = some i ∧ v < 2 ^ 64 ∧
    s.vm.mapActive = [] ∧ (ctx b s).conv = none ∧ ∃ a : Nat, a % 8 = 0 ∧ a < 0x08000000 ∧ ((opSpace w = 0 ∧ a = (frameOf b s).base + 8 * i) ∨ (opSpace w = 5 ∧ a = 0x07000000 + 8 * i)) ∧
    i < 8192 ∧ laneReadable a s = false)
    ∧ (∃ b : Bool, ∃ w : BitVec 16, ∃ d : Int, ∃ i : Nat, ∃ v : Nat, ∃ s : State, opAt w d = some i ∧ v < 2 ^ 64 ∧
    s.vm.mapActive = [] ∧ (ctx b s).conv = none ∧ ∃ a : Nat, a % 8 = 0 ∧ a < 0x08000000 ∧ ((opSpace w = 0 ∧ a = (frameOf b s).base + 8 * i) ∨ (opSpace w = 5 ∧ a = 0x07000000 + 8 * i)) ∧
    i < 8192 ∧ laneWritable a s = true ∧ Memory.wf s.mem = true ∧ rf 0x030000 0 1 s = 0 ∧ s.lnk.pair ≠ .active)
    ∧ (∃ b : Bool, ∃ w : BitVec 16, ∃ d : Int, ∃ i : Nat, ∃ v : Nat, ∃ s : State, opAt w d = some i ∧ v < 2 ^ 64 ∧
    s.vm.mapActive = [] ∧ (ctx b s).conv = none ∧ ∃ a : Nat, a % 8 = 0 ∧ a < 0x08000000 ∧ ((opSpace w = 0 ∧ a = (frameOf b s).base + 8 * i) ∨ (opSpace w = 5 ∧ a = 0x07000000 + 8 * i)) ∧
    i < 8192 ∧ laneWritable a s = false)
    ∧ (∃ b : Bool, ∃ w : BitVec 16, ∃ d : Int, ∃ i : Nat, ∃ v : Nat, ∃ s : State, opAt w d = some i ∧ v < 2 ^ 64 ∧
    s.vm.mapActive = [] ∧ (ctx b s).conv = none ∧ opSpace w < 6 ∧ opSpace w ≠ 4 ∧ 8192 ≤ i)
    ∧ (∃ b : Bool, ∃ w : BitVec 16, ∃ d : Int, ∃ i : Nat, ∃ v : Nat, ∃ s : State, opAt w d = some i ∧ v < 2 ^ 64 ∧
    s.vm.mapActive = [] ∧ (ctx b s).conv = none ∧ opSpace w = 7) := by
  refine ⟨?_, ?_, ?_, ?_, ?_, ?_, ?_, ?_, ?_, ?_, ?_⟩
  · exact ⟨false, 0x2008, 0, _, 0, S0, (Option.eq_some_of_isSome (by decide +kernel)), by decide +kernel, by decide +kernel, by decide +kernel, by decide +kernel, by decide +kernel, by decide +kernel, 0xFFFFFFFFFFFFFFFF, by decide +kernel⟩
  · exact ⟨false, 0x2000, 0, _, 0, S0, (Option.eq_some_of_isSome (by decide +kernel)), by decide +kernel⟩
  · exact ⟨false, 0x4005, 0, _, 0, S0, (Option.eq_some_of_isSome (by decide +kernel)), by decide +kernel⟩
  · exact ⟨false, 0x8000, 0, _, 0, S0, (Option.eq_some_of_isSome (by decide +kernel)), by decide +kernel, by decide +kernel, by decide +kernel, _, _, by decide +kernel, (Option.eq_some_of_isSome (by decide +kernel)), (Option.eq_some_of_isSome (by decide +kernel))⟩
  · exact ⟨false, 0x6008, 1, _, 0, S0, (Option.eq_some_of_isSome (by decide +kernel)), by dsimp only [wordClean]; decide +kernel⟩
  · exact ⟨false, 0x0008, 0, _, 0, S0, (Option.eq_some_of_isSome (by decide +kernel)), by decide +kernel, by decide +kernel, by decide +kernel, (0x4000040 + 64), by dsimp only [wordClean]; decide +kernel⟩
  · exact ⟨false, 0x0008, 0, _, 0, ({S0 with cfg.instSize := 0x80, cfg.globSize := 0x40}), (Option.eq_some_of_isSome (by decide +kernel)), by decide +kernel, by decide +kernel, by decide +kernel, (0x4000040 + 64), by decide +kernel⟩
  · exact ⟨false, 0x0008, 0, _, 0, ({S0 with vm.codeErr := [(0xC000080, {data := 1}), (0xF000040, {data := 1}), (0xF020040, {data := 1})], mem := []}), (Option.eq_some_of_isSome (by decide +kernel)), by decide +kernel, by decide +kernel, by decide +kernel, (0x4000040 + 64), by decide +kernel⟩
  · exact ⟨false, 0x0008, 0, _, 0, ({S0 with cfg.instSize := 0x80, cfg.globSize := 0x40}), (Option.eq_some_of_isSome (by decide +kernel)), by decide +kernel, by decide +kernel, by decide +kernel, (0x4000040 + 64), by decide +kernel⟩
  · exact ⟨false, 0x2000, 8192, 8192, 0, S0, by decide +kernel⟩
  · exact ⟨false, 0xE000, 0, _, 0, S0, (Option.eq_some_of_isSome (by decide +kernel)), by decide +kernel⟩

end ForOperandReadsAndWrites

namespace ForControlFlowEffects

def pim : ProgImage := { blocks := [{count := 10, consts := [3,1,2^63, 5,14]}, {count := 3, consts := [0,1,0xF0090020,0xF0090028,0xF0012345]}] }
def S1 (r : Release) : State := { run with prg.active := [r], cfg.pins := [1 + 2^29 + 5*65536, 3 + 8*65536], vm.prog0 := some pim, vm.valid0 := true, mem := [(0x4000080, 9),(0xC000080, 0xF6)], cfg.tasks.entries := [{id := 3},{id := 16}] }
def fr (n : Nat) : List Frame := (List.range n).map (fun i => { block := i % 2, pc := i, base := 0x4000040 })
def rl (n : Nat) (o : List (Nat × Nat)) (t : Nat) : Release := { task := t, frames := fr n, scr := [(8, 1), (255, 7), (9,0)], outs := o, stamp := 5000 * 2^24 }

/-- States and operands that meet the hypotheses of `Obligations.ControlFlowEffects`. -/
theorem witness_ControlFlowEffects :
    (∃ dt : Nat, ∃ w : VInstr, ∃ s : State, Runs dt 1 w s ∧ let b := vlane w s; ∃ f, ∃ l, (ctx b (begin' dt s)).frames = f :: l)
    ∧ (∃ dt : Nat, ∃ w : VInstr, ∃ s : State, Runs dt 1 w s ∧ let b := vlane w s; let a := vstart dt w s; ∃ k, ∃ f, ∃ l,
    (ctx b a).frames = f :: l ∧ blockInfo f.block s = some k ∧ w.src1.toNat + w.src2.toNat * 65536 < k.count ∧ ∃ m,
    opRead b 0 w.dst 0 a = .ok m 1 ∧ m = a)
    ∧ (∃ dt : Nat, ∃ w : VInstr, ∃ s : State, Runs dt 1 w s ∧ let b := vlane w s; let a := vstart dt w s; ∃ k, ∃ f, ∃ l,
    (ctx b a).frames = f :: l ∧ blockInfo f.block s = some k ∧ w.src1.toNat + w.src2.toNat * 65536 < k.count ∧ ∃ m,
    opRead b 0 w.dst 0 a = .ok m 0 ∧ m = a)
    ∧ (∃ dt : Nat, ∃ w : VInstr, ∃ s : State, Runs dt 1 w s ∧ let b := vlane w s; let a := vstart dt w s; ∃ i, isInst w.dst = true ∧
    opSpace w.src1 = 4 ∧ opRead b 2 w.src1 0 a = .ok a i ∧ (blockInfo i s).isSome = true ∧ (ctx b a).frames.length ≤ 32)
    ∧ (∃ dt : Nat, ∃ w : VInstr, ∃ s : State, Runs dt 1 w s ∧ let b := vlane w s; let a := vstart dt w s; ∃ r, ∃ g, ∃ f, ∃ l,
    running b a = some r ∧ r.frames = g :: f :: l)
    ∧ (∃ dt : Nat, ∃ w : VInstr, ∃ s : State, Runs dt 1 w s ∧ let b := vlane w s; let a := vstart dt w s; ∃ r, ∃ f, running b a = some r ∧
    r.frames = [f] ∧ r.task ≠ 48 ∧ s.xch.window = false ∧ (taskState r.task b s).heldCyclic = none ∧ Memory.wf s.mem = true ∧
    s.vm.mapActive = [] ∧ s.cfg.instSize ≤ 0x3000000 ∧ s.cfg.globSize ≤ 0x10000 ∧ (∀ x ∈ r.outs, x.1 < 8192) ∧
    r.outs.Pairwise (fun x y => x.1 ≠ y.1) ∧ s.prg.mode = .normal) := by
  refine ⟨?_, ?_, ?_, ?_, ?_, ?_⟩
  · exact ⟨0, ({ ty := 0, sub := 0, dst := 0x2008, src1 := 0x8000, src2 := 0, laneB := false }), (S1 (rl 1 [] 3)), by dsimp only [Runs]; decide +kernel, _, _, rfl⟩
  · exact ⟨0, ({ ty := 0, sub := 0, dst := 0x2008, src1 := 9, src2 := 0, laneB := false }), (S1 (rl 1 [] 3)), by dsimp only [Runs]; decide +kernel, _, _, _, rfl, (Option.eq_some_of_isSome (by decide +kernel)), by decide +kernel, _, rfl, by decide +kernel⟩
  · exact ⟨0, ({ ty := 0, sub := 0, dst := 0x2009, src1 := 9, src2 := 0, laneB := false }), (S1 (rl 1 [] 3)), by dsimp only [Runs]; decide +kernel, _, _, _, rfl, (Option.eq_some_of_isSome (by decide +kernel)), by decide +kernel, _, rfl, by decide +kernel⟩
  · exact ⟨0, ({ ty := 0, sub := 0, dst := 0x0000, src1 := 0x8001, src2 := 0, laneB := false }), (S1 (rl 1 [] 3)), by dsimp only [Runs]; decide +kernel, _, by decide +kernel, by decide +kernel, rfl, by decide +kernel⟩
  · exact ⟨0, ({ ty := 0, sub := 0, dst := 0x2008, src1 := 0x8000, src2 := 0, laneB := false }), (S1 (rl 2 [(5,7)] 3)), by dsimp only [Runs]; decide +kernel, _, _, _, _, (Option.eq_some_of_isSome (by decide +kernel)), rfl⟩
  · exact ⟨0, ({ ty := 0, sub := 0, dst := 0x2008, src1 := 0x8000, src2 := 0, laneB := false }), (S1 (rl 1 [] 3)), by dsimp only [Runs]; decide +kernel, _, _, (Option.eq_some_of_isSome (by decide +kernel)), rfl, by decide +kernel⟩

end ForControlFlowEffects

namespace ForBlockRingAndTokenInstructions

def pim : ProgImage := { blocks := [{count := 10, consts := [3,1,2^63, 5,14]}, {count := 3, consts := [0,1,0xF0090020,0xF0090028,0xF0012345, 53, 20, 3, 54, 77, 2]}] }
def fr (n : Nat) : List Frame := (List.range n).map (fun i => { block := 1, pc := i, base := 0x4000040 })
def rl (t : Nat) : Release := { task := t, frames := fr 1, scr := [(8, 1), (255, 7), (9,0), (10, 0xF0090020), (11, 0xF0040008), (12, 0x1234)], stamp := 5000 * 2^24 }

/-- States and operands that meet the hypotheses of `Obligations.BlockRingAndTokenInstructions`. -/
theorem witness_BlockRingAndTokenInstructions :
    (∃ dt : Nat, ∃ w : VInstr, ∃ s : State, (ctx (vlane w s) (vstart dt w s)).conv = none ∧ let b := vlane w s; let a := vstart dt w s;
    ∃ inp, ∃ st, ∃ t, ∃ u, Runs dt 2 w s ∧ isInst w.dst = true ∧ opRead b 0 w.src1 0 a = .ok a inp ∧ slotRead b w.dst 0 a = .ok a st ∧
    slotWrite b w.dst 0 (b2n (!(firstUse b a) && (if w.sub.toNat = 0 then inp == 1 && !(st.testBit 1) else inp == 0 && st.testBit 1)) + 2 * (inp % 2)) a = .ok t u)
    ∧ (∃ dt : Nat, ∃ w : VInstr, ∃ s : State, (ctx (vlane w s) (vstart dt w s)).conv = none ∧ let b := vlane w s; let a := vstart dt w s;
    ∃ inp, ∃ n, ∃ h, ∃ c, ∃ o, ∃ t, ∃ u, Runs dt 1 w s ∧ isInst w.dst = true ∧ opRead b 0 w.src1 0 a = .ok a inp ∧ opRead b 2 w.src2 0 a = .ok a n ∧
    1 ≤ n ∧ n ≤ 64 ∧ slotRead b w.dst 0 a = .ok a h ∧ slotRead b w.dst 1 a = .ok a c ∧ slotRead b w.dst 2 a = .ok a o ∧
    firstUse b a = false ∧ writeSlots b w.dst 0 [(h * 2 + inp % 2) % 2 ^ 64, min 64 (c + 1), if min 64 (c + 1) < n then 0 else if (h * 2 + inp % 2) % 2 ^ 64 % 2 ^ n = 2 ^ n - 1 then 1 else if (h * 2 + inp % 2) % 2 ^ 64 % 2 ^ n = 0 then 0 else o % 2] a = .ok t u)
    ∧ (∃ dt : Nat, ∃ w : VInstr, ∃ s : State, (ctx (vlane w s) (vstart dt w s)).conv = none ∧ let b := vlane w s; let a := vstart dt w s;
    ∃ inp, ∃ pt, ∃ st, ∃ fl, ∃ et, ∃ t, ∃ u, Runs dt 3 w s ∧ isInst w.dst = true ∧ opRead b 0 w.src1 0 a = .ok a inp ∧
    opRead b 6 w.src2 0 a = .ok a pt ∧ slotRead b w.dst 0 a = .ok a st ∧ slotRead b w.dst 1 a = .ok a fl ∧ slotRead b w.dst 2 a = .ok a et ∧
    (let q := timerEval w.sub.toNat (match running b a with | some r => r.stamp | none => now a) (firstUse b a) (inp == 1) (toSigned 64 pt) (fun x => elapsed b x a) { start := st, q := fl.testBit 0, run := fl.testBit 1, prev := fl.testBit 2, et := toSigned 64 et }; writeSlots b w.dst 0 [q.start, b2n q.q + 2 * b2n q.run + 4 * b2n q.prev, ofSigned 64 q.et] a = .ok t u))
    ∧ (∃ dt : Nat, ∃ w : VInstr, ∃ s : State, (ctx (vlane w s) (vstart dt w s)).conv = none ∧ let b := vlane w s; let a := vstart dt w s;
    ∃ r, ∃ e, Runs dt 1 w s ∧ opRead b 2 w.src1 0 a = .ok a r ∧ postOpen r s = true ∧ readSlots b w.dst 4 4 [] a = .ok (e, a) ∧
    mayHalt s)
    ∧ (∃ dt : Nat, ∃ w : VInstr, ∃ s : State, (ctx (vlane w s) (vstart dt w s)).conv = none ∧ let b := vlane w s; let a := vstart dt w s;
    ∃ r, ∃ e, ∃ rest, ∃ t, ∃ u, Runs dt 1 w s ∧ opRead b 2 w.src1 0 a = .ok a r ∧ fetchOpen r s = true ∧ rf 0x0C0000 0 1 s = 1 ∧
    (ring r s).entries = e :: rest ∧ (writeSlots b w.dst 0 [fieldAt e 0 8, fieldAt e 8 8, fieldAt e 16 8, fieldAt e 24 8] (modRing r (fun x => { x with entries := rest, cells := cellsRelease x.cells }) (seqVoted a))).bind (fun m _ => opWrite b 0 w.src2 0 1 m) = .ok t u)
    ∧ (∃ dt : Nat, ∃ w : VInstr, ∃ s : State, (ctx (vlane w s) (vstart dt w s)).conv = none ∧ let b := vlane w s; let a := vstart dt w s;
    ∃ r, ∃ d, ∃ c, Runs dt 1 w s ∧ opRead b 2 w.src1 0 a = .ok a r ∧ fetchOpen r s = true ∧ codeClass { data := d, check := c } = some .uncorrectable ∧
    mayHalt s)
    ∧ (∃ dt : Nat, ∃ w : VInstr, ∃ s : State, (ctx (vlane w s) (vstart dt w s)).conv = none ∧ let b := vlane w s; let a := vstart dt w s;
    ∃ r, ∃ t, ∃ u, Runs dt 1 w s ∧ opRead b 2 w.src1 0 a = .ok a r ∧ fetchOpen r s = true ∧ (ring r s).entries = [] ∧
    opWrite b 0 w.src2 0 0 (seqVoted a) = .ok t u)
    ∧ (∃ dt : Nat, ∃ w : VInstr, ∃ s : State, (ctx (vlane w s) (vstart dt w s)).conv = none ∧ let b := vlane w s; let a := vstart dt w s;
    ∃ v, ∃ t, ∃ u, Runs dt 1 w s ∧ slotRead b w.src1 0 a = .ok a v ∧ regAddress v = true ∧ slotWrite b w.dst 0 (regRead v (seqVoted a)).2 (regRead v (seqVoted a)).1 = .ok t u)
    ∧ (∃ dt : Nat, ∃ w : VInstr, ∃ s : State, (ctx (vlane w s) (vstart dt w s)).conv = none ∧ let b := vlane w s; let a := vstart dt w s;
    ∃ v, ∃ d, Runs dt 1 w s ∧ slotRead b w.src1 0 a = .ok a v ∧ regAddress v = true ∧ blockOpen v s = true ∧ slotRead b w.dst 0 a = .ok a d)
    ∧ (∃ dt : Nat, ∃ w : VInstr, ∃ s : State, (ctx (vlane w s) (vstart dt w s)).conv = none ∧ let b := vlane w s; let a := vstart dt w s;
    ∃ k, ∃ act, ∃ t, ∃ u, Runs dt 1 w s ∧ opRead b 2 w.src2 0 a = .ok a act ∧ readSlots b w.src1 8 8 [] a = .ok (k, a) ∧
    tokenResult k act a ≠ 0 ∧ opWrite b w.ty.toNat w.dst 0 (tokenResult k act a) (emit 0x4405 [(4, fieldAt k 0 4), (4, fieldAt k 8 4), (2, fieldAt k 4 2), (1, tokenResult k act a)] a) = .ok t u)
    ∧ (∃ dt : Nat, ∃ w : VInstr, ∃ s : State, (ctx (vlane w s) (vstart dt w s)).conv = none ∧ let b := vlane w s; let a := vstart dt w s;
    ∃ k, ∃ act, ∃ t, ∃ u, Runs dt 1 w s ∧ opRead b 2 w.src2 0 a = .ok a act ∧ readSlots b w.src1 8 8 [] a = .ok (k, a) ∧
    tokenResult k act a = 0 ∧ opWrite b w.ty.toNat w.dst 0 0 (emit 0x4405 [(4, fieldAt k 0 4), (4, fieldAt k 8 4), (2, fieldAt k 4 2), (1, 0)] { a with prg.tokUsed := (fieldAt k 0 4 :: s.prg.tokUsed).take 256, prg.tokVer := liveTokens a ++ [{ id := fieldAt k 0 4, act := act, scope := fieldAt k 12 4, staff := fieldAt k 8 4, at' := now a }] }) = .ok t u)
    ∧ (∃ dt : Nat, ∃ w : VInstr, ∃ s : State, (ctx (vlane w s) (vstart dt w s)).conv = none ∧ let b := vlane w s; let a := vstart dt w s;
    ∃ v, Runs dt 1 w s ∧ mayHalt s ∧ opRead b 2 w.src1 0 a = .ok a v) := by
  refine ⟨?_, ?_, ?_, ?_, ?_, ?_, ?_, ?_, ?_, ?_, ?_, ?_⟩
  · exact ⟨0, ({ ty := 2, sub := 0, dst := 0, src1 := 0x2008, src2 := 0x8001, laneB := false }), ({ run with prg.active := [rl 3], vm.prog0 := some pim, vm.valid0 := true, regs := [(0x0C0000, 1)] }), by decide +kernel, _, _, _, _, by dsimp only [Runs]; decide +kernel, by decide +kernel, rfl, rfl, rfl⟩
  · exact ⟨0, ({ ty := 2, sub := 0, dst := 0, src1 := 0x2008, src2 := 0x8001, laneB := false }), ({ run with prg.active := [rl 3], vm.prog0 := some pim, vm.valid0 := true, regs := [(0x0C0000, 1)] }), by decide +kernel, _, _, _, _, _, _, _, by dsimp only [Runs]; decide +kernel, by decide +kernel, rfl, rfl, by decide +kernel, by decide +kernel, rfl, rfl, rfl, by decide +kernel, rfl⟩
  · exact ⟨0, ({ ty := 2, sub := 0, dst := 0, src1 := 0x2008, src2 := 0x8001, laneB := false }), ({ run with prg.active := [rl 3], vm.prog0 := some pim, vm.valid0 := true, regs := [(0x0C0000, 1)] }), by decide +kernel, _, _, _, _, _, _, _, by dsimp only [Runs]; decide +kernel, by decide +kernel, rfl, rfl, rfl, rfl, rfl, rfl⟩
  · exact ⟨0, ({ ty := 2, sub := 0, dst := 0, src1 := 0x2008, src2 := 0x8001, laneB := false }), ({ run with prg.active := [rl 3], vm.prog0 := some pim, vm.valid0 := true, regs := [(0x0C0000, 1)], cfg.rings := List.replicate 64 0x100C5 }), by decide +kernel, _, _, by dsimp only [Runs]; decide +kernel, rfl, by decide +kernel, rfl, by dsimp only [mayHalt, pinsOf]; decide +kernel⟩
  · exact ⟨0, ({ ty := 2, sub := 0, dst := 0, src1 := 0x2008, src2 := 0x2009, laneB := false }), ({ run with prg.active := [rl 3], vm.prog0 := some pim, vm.valid0 := true, regs := [(0x0C0000, 1)], cfg.rings := List.replicate 64 0x100C5, rings := [{}, { entries := [List.replicate 32 7] }] }), by decide +kernel, _, _, _, _, _, by dsimp only [Runs]; decide +kernel, rfl, by decide +kernel, by decide +kernel, rfl, rfl⟩
  · exact ⟨0, ({ ty := 2, sub := 0, dst := 0, src1 := 0x2008, src2 := 0x8001, laneB := false }), ({ run with prg.active := [rl 3], vm.prog0 := some pim, vm.valid0 := true, regs := [(0x0C0000, 1)], cfg.rings := List.replicate 64 0x100C5 }), by decide +kernel, _, 0x101, 0, by dsimp only [Runs]; decide +kernel, rfl, by dsimp only [mayHalt, pinsOf]; decide +kernel⟩
  · exact ⟨0, ({ ty := 2, sub := 0, dst := 0, src1 := 0x8006, src2 := 0x2009, laneB := false }), ({ run with prg.active := [rl 3], vm.prog0 := some pim, vm.valid0 := true, regs := [(0x0C0000, 1)], cfg.rings := List.replicate 64 0x100C5 }), by decide +kernel, _, _, _, by dsimp only [Runs]; decide +kernel, rfl, by decide +kernel, by decide +kernel, rfl⟩
  · exact ⟨0, ({ ty := 2, sub := 0, dst := 0, src1 := 0x200A, src2 := 0x8001, laneB := false }), ({ run with prg.active := [rl 3], vm.prog0 := some pim, vm.valid0 := true, regs := [(0x0C0000, 1)] }), by decide +kernel, _, _, _, by dsimp only [Runs]; decide +kernel, rfl, by decide +kernel, rfl⟩
  · exact ⟨0, ({ ty := 2, sub := 0, dst := 0, src1 := 0x200A, src2 := 0x8001, laneB := false }), ({ run with prg.active := [rl 3], vm.prog0 := some pim, vm.valid0 := true, regs := [(0x0C0000, 1)] }), by decide +kernel, _, _, by dsimp only [Runs]; decide +kernel, rfl, by decide +kernel, by decide +kernel, rfl⟩
  · exact ⟨0, ({ ty := 2, sub := 0, dst := 0, src1 := 0x2008, src2 := 0x8001, laneB := false }), ({ run with prg.active := [rl 3], vm.prog0 := some pim, vm.valid0 := true, regs := [(0x0C0000, 1)] }), by decide +kernel, _, _, _, _, by dsimp only [Runs]; decide +kernel, rfl, rfl, by decide +kernel, rfl⟩
  · exact ⟨0, { ty := 2, sub := 0, dst := 0, src1 := 0x0004, src2 := 0x800A, laneB := false }, { run with prg.active := [rl 3], vm.prog0 := some pim, vm.valid0 := true, civ := { st := .locked, ns := 1000 }, mem := storeBytes (0x4000040 + 32) (packFields [(4, 77), (2, 2), (2, 0), (4, 5), (4, 6), (8, 900), (8, 2000), (16, 0), (16, 12635442373907852875412720672570649465)]) [], tel.keys := [{ slot := 0, data := List.replicate 16 0x5A, valid := true, locked := true }] }, by decide +kernel, _, _, _, _, by dsimp only [Runs]; decide +kernel, rfl, rfl, by decide +kernel, rfl⟩
  · exact ⟨0, ({ ty := 2, sub := 0, dst := 0, src1 := 0x2008, src2 := 0x8001, laneB := false }), ({ run with prg.active := [rl 3], vm.prog0 := some pim, vm.valid0 := true, regs := [(0x0C0000, 1)] }), by decide +kernel, _, by dsimp only [Runs]; decide +kernel, by dsimp only [mayHalt, pinsOf]; decide +kernel, rfl⟩

end ForBlockRingAndTokenInstructions

namespace ForUndefinedInstructionsTrap

/-- States and operands that meet the hypotheses of `Obligations.UndefinedInstructionsTrap`. -/
theorem witness_UndefinedInstructionsTrap :
    (∃ dt : Nat, ∃ w : VInstr, ∃ s : State, laneRuns (vlane w s) (begin' dt s) = true ∧ mayHalt s ∧ (8 ≤ w.ty.toNat ∨ 1 ≤ w.sub.toNat))
    ∧ (∃ dt : Nat, ∃ w : VInstr, ∃ s : State, laneRuns (vlane w s) (begin' dt s) = true ∧ mayHalt s ∧ (8 ≤ w.ty.toNat ∨ 8 ≤ w.sub.toNat))
    ∧ (∃ dt : Nat, ∃ w : VInstr, ∃ s : State, laneRuns (vlane w s) (begin' dt s) = true ∧ mayHalt s ∧ (8 ≤ w.ty.toNat ∨ 3 ≤ w.sub.toNat))
    ∧ (∃ dt : Nat, ∃ w : VInstr, ∃ s : State, laneRuns (vlane w s) (begin' dt s) = true ∧ mayHalt s ∧ (8 ≤ w.ty.toNat ∨ 2 ≤ w.sub.toNat)) := by
  refine ⟨?_, ?_, ?_, ?_⟩
  · exact ⟨0, ({ ty := 0, sub := 1, dst := 5, src1 := 6, src2 := 7, laneB := false }), run, by dsimp only [mayHalt, pinsOf]; decide +kernel⟩
  · exact ⟨0, ({ ty := 0, sub := 8, dst := 5, src1 := 6, src2 := 7, laneB := false }), run, by dsimp only [mayHalt, pinsOf]; decide +kernel⟩
  · exact ⟨0, ({ ty := 0, sub := 3, dst := 5, src1 := 6, src2 := 7, laneB := false }), run, by dsimp only [mayHalt, pinsOf]; decide +kernel⟩
  · exact ⟨0, ({ ty := 0, sub := 2, dst := 5, src1 := 6, src2 := 7, laneB := false }), run, by dsimp only [mayHalt, pinsOf]; decide +kernel⟩

end ForUndefinedInstructionsTrap

namespace ForBusForwarding

def pad64 (d : Nat) (l : List Nat) : List Nat := l ++ List.replicate (64 - l.length) d
def slotW (own kind ch pair tx rx : Nat) : Nat := own + 64 + kind * 128 + ch * 512 + pair * 4096 + tx * 65536 + rx * 2^20
def slotL : List (Nat × Nat) := [(0, slotW 0 0 3 0 0 0xF), (10, slotW 2 0 3 0 0xF 0xF), (20, slotW 0 1 3 0 0 4), (30, slotW 2 1 3 0 0 0xF), (40, slotW 0 2 3 0 0 5), (50, slotW 2 2 3 0 1 0xF), (60, slotW 3 2 3 0 0 0xF), (70, slotW 1 1 1 0 0 6), (80, slotW 2 2 3 0 0xF 0xF)]
def sch : Sched := { nodes := 4, own := 2, schedId := 77, cs := [0,2], posX := pad64 255 [0,1,2,3], posY := pad64 255 [3,2,1,0], slots := (List.range 200).map (fun i => (assocGet i slotL).getD 0) }
def tmplV : Template := { index := 5, rx := true, mtch := 20, prot := 0 }
def tmplV2 : Template := { index := 6, rx := true, mtch := 70, prot := 1, wickWin := 3, foldWin := 4 }
def prt : BusPort := { link := true, meas := some 30 }
def dl : List Nat := pad64 127 [40, 50, 30, 60]
def syn : State := { run with
  cfg.sched := sch, cfg.templates := [tmplV, tmplV2]
  regs := [(0x080000, 3#32), (0x0C0000, 1#32)]
  tel := { run.tel with chans := [{ idx := 5, st := .openSt }, {idx := 6, st := .openSt, wick := some 3, seq := 8}] }
  rings := (List.range 64).map (fun n => {})
  cfg.rings := (List.range 64).map (fun n => 0x100C5)
  bus := { run.bus with st := .synced, ref := 0, guard := true, everInt := true, adopted := true, first := false, ports := List.replicate 4 prt, dlyX := dl, dlyY := dl } }
def atSlot (f : BusFrame) (off : Int) (s : State) : State :=
  let d := match pathDelay (hChan f) (hSrc f) s with | some d => d | none => 100
  let x : Int := (slotNs (hSlot f) s + d : Nat) + off
  let x := if x < 0 then x + cycleNs s else x
  { s with clk.pos := x.toNat / 10 }
def pay32 (k : Nat) : List Byte := fitTo 32 (leBytes 8 k)
def mkf (port : Fin 7) (h : Nat) (pay : List Byte) (bad : Nat := 0) (pp : Nat × Nat := (0xFFFFFFFF,0xFFFFFFFF)) : BusFrame :=
  let b := leBytes 8 h ++ pay
  { port := port, header := BitVec.ofNat 64 h, payload := pay, check := BitVec.ofNat 64 (Nat.xor bad (checkP pp b + 2^32 * checkQ pp b)), ns := 3 }
def hdrB (ft src ch slot : Nat) (cyc : Nat) (lamp : Nat := 0) (maj : Nat := 2) : Nat := ft + maj * 16 + src * 256 + ch * 2^14 + slot * 2^16 + 33 * 2^27 + 5 * 2^34 + lamp * 2^38 + cyc % 2^24 * 2^40
def f1 : BusFrame := mkf 1 (hdrB 4 0 0 40 5000) (pay32 9)
def f2 : BusFrame := mkf 3 (hdrB 5 3 1 60 5000) (pay32 9) 1

/-- States and operands that meet the hypotheses of `Obligations.BusForwarding`. -/
theorem witness_BusForwarding :
    (∃ f : BusFrame, ∃ s : State, busUp f s = true ∧ s.bus.st = .off)
    ∧ (∃ dt : Nat, ∃ f : BusFrame, ∃ s : State, busUp f s = true ∧ let p := f.port.val; let q := if p % 2 = 0 then p + 1 else p - 1;
    let b := { begin' dt s with bus.heardAt := (begin' dt s).clk.up }; (busAligned s = false ∨ fwdExpected p f b = true) ∧
    (busPort q b).link = true)
    ∧ (∃ dt : Nat, ∃ f : BusFrame, ∃ s : State, busUp f s = true ∧ let p := f.port.val; let q := if p % 2 = 0 then p + 1 else p - 1;
    let b := { begin' dt s with bus.heardAt := (begin' dt s).clk.up }; (busAligned s = false ∨ fwdExpected p f b = true) ∧
    (busPort q b).link = false)
    ∧ (∃ dt : Nat, ∃ f : BusFrame, ∃ s : State, busUp f s = true ∧ let p := f.port.val; let b := { begin' dt s with bus.heardAt := (begin' dt s).clk.up };
    busAligned s = true ∧ fwdExpected p f b = false)
    ∧ (∃ dt : Nat, ∃ f : BusFrame, ∃ s : State, busUp f s = true ∧ let p := f.port.val; let q := if p % 2 = 0 then p + 1 else p - 1;
    ∃ y : OutFrame, s.bus.ports.length = 4 ∧ y.fwd = true ∧ (busPort q s).out = [y] ∧ (∀ n, n ≠ q → (busPort n s).out = []) ∧
    (∀ l, (link l s).queue = []) ∧ s.lnk.copyAt = none ∧ s.clk.up + dt < y.start)
    ∧ (∃ dt : Nat, ∃ f : BusFrame, ∃ s : State, busUp f s = true ∧ let p := f.port.val; let q := if p % 2 = 0 then p + 1 else p - 1;
    ∃ y : OutFrame, s.bus.ports.length = 4 ∧ y.fwd = true ∧ (busPort q s).out = [y] ∧ (∀ n, n ≠ q → (busPort n s).out = []) ∧
    (∀ l, (link l s).queue = []) ∧ s.lnk.copyAt = none ∧ y.start ≤ s.clk.up + dt ∧ (busPort q s).busyTo ≤ y.start)
    ∧ (∃ dt : Nat, ∃ f : BusFrame, ∃ s : State, busUp f s = true ∧ let p := f.port.val; let q := if p % 2 = 0 then p + 1 else p - 1;
    ∃ y : OutFrame, s.bus.ports.length = 4 ∧ y.fwd = true ∧ (busPort q s).out = [y] ∧ (∀ n, n ≠ q → (busPort n s).out = []) ∧
    (∀ l, (link l s).queue = []) ∧ s.lnk.copyAt = none ∧ y.start ≤ s.clk.up + dt ∧ y.start < (busPort q s).busyTo) := by
  refine ⟨?_, ?_, ?_, ?_, ?_, ?_, ?_⟩
  · exact ⟨f1, (atSlot f1 0 ({syn with bus.st := .off})), by decide +kernel⟩
  · exact ⟨0, f1, (atSlot f1 0 ({syn with bus.st := .off})), by decide +kernel⟩
  · exact ⟨0, f1, (atSlot f2 0 ({syn with bus.ports := [{prt with link := false}, prt, {prt with link := false}, prt]})), by decide +kernel⟩
  · exact ⟨0, f1, (atSlot f1 0 syn), by decide +kernel⟩
  · exact ⟨0, f1, (atSlot f1 0 ({syn with bus.ports := [{prt with out := [{start := 1000001, len := 416, header := 4, bytes := [3], fwd := true}]}, prt, prt, prt]})), by decide +kernel, _, by decide +kernel, by decide +kernel, rfl, by intro n h; rcases n with _ | _ | _ | _ | n <;> first | rfl | exact absurd rfl h, by intro l; rcases l with _ | _ | _ | l <;> rfl, by decide +kernel⟩
  · exact ⟨0, f2, (atSlot f1 0 ({syn with bus.ports := [prt, prt, {prt with busyTo := 1000000, out := [{start := 1000000, len := 416, header := 4, bytes := [3], fwd := true}]}, prt]})), by decide +kernel, _, by decide +kernel, by decide +kernel, rfl, by intro n h; rcases n with _ | _ | _ | _ | n <;> first | rfl | exact absurd rfl h, by intro l; rcases l with _ | _ | _ | l <;> rfl, by decide +kernel⟩
  · exact ⟨0, f1, (atSlot f1 0 ({syn with bus.ports := [{prt with busyTo := 1000001, out := [{start := 1000000, len := 416, header := 4, bytes := [3], fwd := true}]}, prt, prt, prt]})), by decide +kernel, _, by decide +kernel, by decide +kernel, rfl, by intro n h; rcases n with _ | _ | _ | _ | n <;> first | rfl | exact absurd rfl h, by intro l; rcases l with _ | _ | _ | l <;> rfl, by decide +kernel⟩

end ForBusForwarding

namespace ForBusIntegration

def sp (full id maj mn : Nat) : List Byte := fitTo 32 (packFields [(8, full), (4, id), (1, 0), (1, 1), (1, maj), (1, mn)])
def l (s : State) (a : NodeState) : State := {s with bus.st := a, bus.adopted := false}
def pad64 (d : Nat) (l : List Nat) : List Nat := l ++ List.replicate (64 - l.length) d
def slotW (own kind ch pair tx rx : Nat) : Nat := own + 64 + kind * 128 + ch * 512 + pair * 4096 + tx * 65536 + rx * 2^20
def slotL : List (Nat × Nat) := [(0, slotW 0 0 3 0 0 0xF), (10, slotW 2 0 3 0 0xF 0xF), (20, slotW 0 1 3 0 0 4), (30, slotW 2 1 3 0 0 0xF), (40, slotW 0 2 3 0 0 5), (50, slotW 2 2 3 0 1 0xF), (60, slotW 3 2 3 0 0 0xF), (70, slotW 1 1 1 0 0 6), (80, slotW 2 2 3 0 0xF 0xF)]
def sch : Sched := { nodes := 4, own := 2, schedId := 77, cs := [0,2], posX := pad64 255 [0,1,2,3], posY := pad64 255 [3,2,1,0], slots := (List.range 200).map (fun i => (assocGet i slotL).getD 0) }
def tmplV : Template := { index := 5, rx := true, mtch := 20, prot := 0 }
def tmplV2 : Template := { index := 6, rx := true, mtch := 70, prot := 1, wickWin := 3, foldWin := 4 }
def prt : BusPort := { link := true, meas := some 30 }
def dl : List Nat := pad64 127 [40, 50, 30, 60]
def syn : State := { run with
  cfg.sched := sch, cfg.templates := [tmplV, tmplV2]
  regs := [(0x080000, 3#32), (0x0C0000, 1#32)]
  tel := { run.tel with chans := [{ idx := 5, st := .openSt }, {idx := 6, st := .openSt, wick := some 3, seq := 8}] }
  rings := (List.range 64).map (fun n => {})
  cfg.rings := (List.range 64).map (fun n => 0x100C5)
  bus := { run.bus with st := .synced, ref := 0, guard := true, everInt := true, adopted := true, first := false, ports := List.replicate 4 prt, dlyX := dl, dlyY := dl } }
def mkf (port : Fin 7) (h : Nat) (pay : List Byte) (bad : Nat := 0) (pp : Nat × Nat := (0xFFFFFFFF,0xFFFFFFFF)) : BusFrame :=
  let b := leBytes 8 h ++ pay
  { port := port, header := BitVec.ofNat 64 h, payload := pay, check := BitVec.ofNat 64 (Nat.xor bad (checkP pp b + 2^32 * checkQ pp b)), ns := 3 }
def hdrB (ft src ch slot : Nat) (cyc : Nat) (lamp : Nat := 0) (maj : Nat := 2) : Nat := ft + maj * 16 + src * 256 + ch * 2^14 + slot * 2^16 + 33 * 2^27 + 5 * 2^34 + lamp * 2^38 + cyc % 2^24 * 2^40

/-- States and operands that meet the hypotheses of `Obligations.BusIntegration`. -/
theorem witness_BusIntegration :
    (∃ f : BusFrame, ∃ s : State, busUp f s = true ∧ s.bus.st = .listen ∧ busChecks f = true ∧ hSrc f ≠ s.cfg.sched.own ∧
    syncMatches f s = true ∧ hLamp f s = true)
    ∧ (∃ f : BusFrame, ∃ s : State, busUp f s = true ∧ s.bus.st = .listen ∧ busChecks f = true ∧ hSrc f ≠ s.cfg.sched.own ∧
    syncMatches f s = true ∧ hLamp f s = false)
    ∧ (∃ f : BusFrame, ∃ s : State, busUp f s = true ∧ s.bus.st = .listen ∧ busChecks f = true ∧ hSrc f ≠ s.cfg.sched.own ∧
    fieldAt f.payload 8 4 ≠ s.cfg.sched.schedId ∧ hLamp f s = true)
    ∧ (∃ f : BusFrame, ∃ s : State, busUp f s = true ∧ s.bus.st = .listen ∧ busChecks f = true ∧ hSrc f ≠ s.cfg.sched.own ∧
    fieldAt f.payload 8 4 = s.cfg.sched.schedId ∧ syncMatches f s = false)
    ∧ (∃ f : BusFrame, ∃ s : State, busUp f s = true ∧ (s.bus.st = .listen ∨ s.bus.st = .coldstart ∨ s.bus.st = .backoff) ∧
    busChecks f = false)
    ∧ (∃ f : BusFrame, ∃ s : State, busUp f s = true ∧ s.bus.st = .coldstart ∧ busChecks f = true ∧ hSrc f ≠ s.cfg.sched.own)
    ∧ (∃ f : BusFrame, ∃ s : State, busUp f s = true ∧ s.bus.st = .backoff ∧ busChecks f = true ∧ hSrc f ≠ s.cfg.sched.own ∧
    syncMatches f s = true) := by
  refine ⟨?_, ?_, ?_, ?_, ?_, ?_, ?_⟩
  · exact ⟨(mkf 1 (hdrB 1 0 0 0 9000 1) (sp 9000 77 2 0)), (l syn .listen), by decide +kernel⟩
  · exact ⟨(mkf 3 (hdrB 1 3 1 10 9000) (sp 9000 77 2 0)), (l syn .listen), by decide +kernel⟩
  · exact ⟨(mkf 0 (hdrB 1 1 0 0 9000 1) (sp 9000 78 2 0)), (l syn .listen), by decide +kernel⟩
  · exact ⟨(mkf 1 (hdrB 1 0 0 0 9000 1) (sp 9000 77 2 0)), ({l syn .listen with cfg.sched.pmaj := 0}), by decide +kernel⟩
  · exact ⟨(mkf 0 (hdrB 1 1 0 0 9000 1) (sp 9000 77 2 0) 1), (l syn .listen), by decide +kernel⟩
  · exact ⟨(mkf 1 (hdrB 1 0 0 0 9000 1) (sp 9000 77 2 0)), (l syn .coldstart), by decide +kernel⟩
  · exact ⟨(mkf 1 (hdrB 1 0 0 0 9000 1) (sp 9000 77 2 0)), (l syn .backoff), by decide +kernel⟩

end ForBusIntegration

namespace ForBusNodeEvents

def pad64 (d : Nat) (l : List Nat) : List Nat := l ++ List.replicate (64 - l.length) d
def slotW (own kind ch pair tx rx : Nat) : Nat := own + 64 + kind * 128 + ch * 512 + pair * 4096 + tx * 65536 + rx * 2^20
def slotL : List (Nat × Nat) := [(0, slotW 0 0 3 0 0 0xF), (10, slotW 2 0 3 0 0xF 0xF), (20, slotW 0 1 3 0 0 4), (30, slotW 2 1 3 0 0 0xF), (40, slotW 0 2 3 0 0 5), (50, slotW 2 2 3 0 1 0xF), (60, slotW 3 2 3 0 0 0xF), (70, slotW 1 1 1 0 0 6), (80, slotW 2 2 3 0 0xF 0xF)]
def sch : Sched := { nodes := 4, own := 2, schedId := 77, cs := [0,2], posX := pad64 255 [0,1,2,3], posY := pad64 255 [3,2,1,0], slots := (List.range 200).map (fun i => (assocGet i slotL).getD 0) }
def tmplV : Template := { index := 5, rx := true, mtch := 20, prot := 0 }
def tmplV2 : Template := { index := 6, rx := true, mtch := 70, prot := 1, wickWin := 3, foldWin := 4 }
def prt : BusPort := { link := true, meas := some 30 }
def dl : List Nat := pad64 127 [40, 50, 30, 60]
def syn : State := { run with
  cfg.sched := sch, cfg.templates := [tmplV, tmplV2]
  regs := [(0x080000, 3#32), (0x0C0000, 1#32)]
  tel := { run.tel with chans := [{ idx := 5, st := .openSt }, {idx := 6, st := .openSt, wick := some 3, seq := 8}] }
  rings := (List.range 64).map (fun n => {})
  cfg.rings := (List.range 64).map (fun n => 0x100C5)
  bus := { run.bus with st := .synced, ref := 0, guard := true, everInt := true, adopted := true, first := false, ports := List.replicate 4 prt, dlyX := dl, dlyY := dl } }

/-- States and operands that meet the hypotheses of `Obligations.BusNodeEvents`. -/
theorem witness_BusNodeEvents :
    (∃ data : Half, ∃ s : State, powered s = true ∧ lanesRun s = true ∧ bit s.cfg.progBlocks 8 = true ∧ bit (rv 0x080000 s) 31 = false ∧
    bit data.toNat 0 = true ∧ s.bus.st = .off ∧ 0 < s.cfg.sched.nodes ∧ delaysKnown s = true)
    ∧ (∃ data : Half, ∃ s : State, powered s = true ∧ lanesRun s = true ∧ bit s.cfg.progBlocks 8 = true ∧ bit (rv 0x080000 s) 31 = false ∧
    bit data.toNat 0 = false)
    ∧ (∃ s : State, powered s = true ∧ s.bus.ports.length = 4 ∧ s.bus.st ≠ .off)
    ∧ (∃ dt : Nat, ∃ s : State, powered s = true ∧ s.bus.st = .listen ∧ usUp (2 * cycleUs s + 7 * s.cfg.sched.own) ≤ (begin' dt s).clk.up - s.bus.since ∧
    ∃ k, csIndex s.cfg.sched.own s = some k ∧ bit (rv 0x080000 s) 1 = true ∧ s.bus.everInt = false ∧ s.bus.csBar ≤ s.clk.cycle)
    ∧ (∃ dt : Nat, ∃ s : State, powered s = true ∧ s.bus.st = .listen ∧ usUp (2 * cycleUs s + 7 * s.cfg.sched.own) ≤ (begin' dt s).clk.up - s.bus.since ∧
    (csIndex s.cfg.sched.own s = none ∨ bit (rv 0x080000 s) 1 = false ∨ s.bus.everInt = true ∨ s.clk.cycle < s.bus.csBar))
    ∧ (∃ dt : Nat, ∃ s : State, powered s = true ∧ s.bus.st = .backoff ∧ usUp (cycleUs s + 7 * s.cfg.sched.own) ≤ (begin' dt s).clk.up - s.bus.since ∧
    ∃ k, s.bus.attempt < 16 ∧ csIndex s.cfg.sched.own s = some k)
    ∧ (∃ dt : Nat, ∃ s : State, powered s = true ∧ s.bus.st = .backoff ∧ usUp (cycleUs s + 7 * s.cfg.sched.own) ≤ (begin' dt s).clk.up - s.bus.since ∧
    16 ≤ s.bus.attempt)
    ∧ (∃ s : State, powered s = true ∧ s.bus.st = .silent ∧ s.bus.lostRec = false ∧ s.bus.silentAt + 1000 ≤ s.clk.cycle)
    ∧ (∃ s : State, powered s = true ∧ busAligned s = true ∧ s.bus.leader = false ∧ 2 ≤ s.bus.missed ∧ ∃ r, (∃ n, n = r ∧ n ∈ s.bus.heardPrev ∧ n ∈ s.bus.heardPrev2 ∧ (csIndex n s).isSome = true) ∧
    (∀ n, n ∈ s.bus.heardPrev → n ∈ s.bus.heardPrev2 → (csIndex n s).isSome = true → r ≤ n))
    ∧ (∃ s : State, powered s = true ∧ busAligned s = true ∧ s.bus.leader = false ∧ 2 ≤ s.bus.missed ∧ (∀ n, n ∈ s.bus.heardPrev → n ∈ s.bus.heardPrev2 → csIndex n s = none) ∧
    s.bus.st = .synced) := by
  refine ⟨?_, ?_, ?_, ?_, ?_, ?_, ?_, ?_, ?_, ?_⟩
  · exact ⟨1, ({syn with bus.st := .off}), by decide +kernel⟩
  · exact ⟨0, ({syn with bus.st := .off}), by decide +kernel⟩
  · exact ⟨syn, by decide +kernel⟩
  · exact ⟨0, ({syn with bus.st := .listen, bus.since := 1, bus.everInt := false}), by decide +kernel, by decide +kernel, by decide +kernel, _, (Option.eq_some_of_isSome (by decide +kernel)), by decide +kernel⟩
  · exact ⟨0, ({syn with bus.st := .listen, bus.since := 1, bus.everInt := true}), by decide +kernel⟩
  · exact ⟨0, ({syn with bus.st := .backoff, bus.since := 1, bus.attempt := 3}), by decide +kernel, by decide +kernel, by decide +kernel, _, by decide +kernel, (Option.eq_some_of_isSome (by decide +kernel))⟩
  · exact ⟨0, ({syn with bus.st := .backoff, bus.since := 1, bus.attempt := 16}), by decide +kernel⟩
  · exact ⟨({syn with bus.st := .silent, bus.silentAt := 3000}), by decide +kernel⟩
  · exact ⟨({syn with bus.missed := 2, bus.heardPrev := [3,2,0], bus.heardPrev2 := [2,0]}), by decide +kernel, by decide +kernel, by decide +kernel, by decide +kernel, 0, ⟨_, rfl, by decide +kernel⟩, by decide +kernel⟩
  · exact ⟨({syn with bus.missed := 2, bus.heardPrev := [3], bus.heardPrev2 := [3,0]}), by decide +kernel⟩

end ForBusNodeEvents

namespace ForBusSlots

def pad64 (d : Nat) (l : List Nat) : List Nat := l ++ List.replicate (64 - l.length) d
def slotW (own kind ch pair tx rx : Nat) : Nat := own + 64 + kind * 128 + ch * 512 + pair * 4096 + tx * 65536 + rx * 2^20
def slotL : List (Nat × Nat) := [(0, slotW 0 0 3 0 0 0xF), (10, slotW 2 0 3 0 0xF 0xF), (20, slotW 0 1 3 0 0 4), (30, slotW 2 1 3 0 0 0xF), (40, slotW 0 2 3 0 0 5), (50, slotW 2 2 3 0 1 0xF), (60, slotW 3 2 3 0 0 0xF), (70, slotW 1 1 1 0 0 6), (80, slotW 2 2 3 0 0xF 0xF)]
def sch : Sched := { nodes := 4, own := 2, schedId := 77, cs := [0,2], posX := pad64 255 [0,1,2,3], posY := pad64 255 [3,2,1,0], slots := (List.range 200).map (fun i => (assocGet i slotL).getD 0) }
def tmplV : Template := { index := 5, rx := true, mtch := 20, prot := 0 }
def tmplV2 : Template := { index := 6, rx := true, mtch := 70, prot := 1, wickWin := 3, foldWin := 4 }
def prt : BusPort := { link := true, meas := some 30 }
def dl : List Nat := pad64 127 [40, 50, 30, 60]
def syn : State := { run with
  cfg.sched := sch, cfg.templates := [tmplV, tmplV2]
  regs := [(0x080000, 3#32), (0x0C0000, 1#32)]
  tel := { run.tel with chans := [{ idx := 5, st := .openSt }, {idx := 6, st := .openSt, wick := some 3, seq := 8}] }
  rings := (List.range 64).map (fun n => {})
  cfg.rings := (List.range 64).map (fun n => 0x100C5)
  bus := { run.bus with st := .synced, ref := 0, guard := true, everInt := true, adopted := true, first := false, ports := List.replicate 4 prt, dlyX := dl, dlyY := dl } }
def at' (slot : Nat) (off : Int) (s : State) : State := { s with clk.pos := ((500 * slot : Nat) + off).toNat }
def pay32 (k : Nat) : List Byte := fitTo 32 (leBytes 8 k)

/-- States and operands that meet the hypotheses of `Obligations.BusSlots`. -/
theorem witness_BusSlots :
    (∃ slot : Nat, ∃ s : State, powered s = true ∧ ownSlot slot s = true ∧ slot < 2048 ∧ s.cfg.sched.own < 64 ∧ ∃ ftype : Nat,
    ∃ ch : Nat, ftype < 8 ∧ ch < 2)
    ∧ (∃ dt : Nat, ∃ slot : Nat, ∃ s : State, powered s = true ∧ ownSlot slot s = true ∧ slot < 2048 ∧ s.cfg.sched.own < 64 ∧
    let b := begin' dt s; let kind := bits (slotWord slot s) 7 2; let free := slotOn slot 0 s = true ∧ slotOn slot 1 s = true ∧ s.bus.ports.length = 4 ∧ (∀ p, p < 4 → (busPort p b).link = true ∧ (busPort p b).busyTo ≤ b.clk.up);
    let fresh := s.bus.window ≠ some (s.clk.cycle * 4096 + slot) ∧ inWindow slot b = true; bit (rv 0x080000 s) 0 = true ∧
    s.bus.st = .synced ∧ s.bus.guard = true ∧ s.bus.gskew.natAbs ≤ 500 ∧ free ∧ fresh ∧ kind = 0)
    ∧ (∃ dt : Nat, ∃ slot : Nat, ∃ s : State, powered s = true ∧ ownSlot slot s = true ∧ slot < 2048 ∧ s.cfg.sched.own < 64 ∧
    let b := begin' dt s; let kind := bits (slotWord slot s) 7 2; let free := slotOn slot 0 s = true ∧ slotOn slot 1 s = true ∧ s.bus.ports.length = 4 ∧ (∀ p, p < 4 → (busPort p b).link = true ∧ (busPort p b).busyTo ≤ b.clk.up);
    let fresh := s.bus.window ≠ some (s.clk.cycle * 4096 + slot) ∧ inWindow slot b = true; bit (rv 0x080000 s) 0 = true ∧
    s.bus.st = .synced ∧ s.bus.guard = true ∧ s.bus.gskew.natAbs ≤ 500 ∧ free ∧ fresh ∧ kind ≠ 0 ∧ takeoverEmpty slot s = false ∧
    s.bus.prep.find? (fun q => q.slot == slot) = none)
    ∧ (∃ dt : Nat, ∃ slot : Nat, ∃ s : State, powered s = true ∧ ownSlot slot s = true ∧ slot < 2048 ∧ s.cfg.sched.own < 64 ∧
    let b := begin' dt s; let kind := bits (slotWord slot s) 7 2; let free := slotOn slot 0 s = true ∧ slotOn slot 1 s = true ∧ s.bus.ports.length = 4 ∧ (∀ p, p < 4 → (busPort p b).link = true ∧ (busPort p b).busyTo ≤ b.clk.up);
    let fresh := s.bus.window ≠ some (s.clk.cycle * 4096 + slot) ∧ inWindow slot b = true; bit (rv 0x080000 s) 0 = true ∧
    s.bus.st = .synced ∧ s.bus.guard = true ∧ s.bus.gskew.natAbs ≤ 500 ∧ free ∧ fresh ∧ ∃ p, kind ≠ 0 ∧ takeoverEmpty slot s = false ∧
    s.bus.prep.find? (fun q => q.slot == slot) = some p ∧ p.ftype ≠ 5 ∧ (p.ftype = 3 → fenced s = false))
    ∧ (∃ dt : Nat, ∃ slot : Nat, ∃ s : State, powered s = true ∧ ownSlot slot s = true ∧ slot < 2048 ∧ s.cfg.sched.own < 64 ∧
    let b := begin' dt s; let kind := bits (slotWord slot s) 7 2; let free := slotOn slot 0 s = true ∧ slotOn slot 1 s = true ∧ s.bus.ports.length = 4 ∧ (∀ p, p < 4 → (busPort p b).link = true ∧ (busPort p b).busyTo ≤ b.clk.up);
    let fresh := s.bus.window ≠ some (s.clk.cycle * 4096 + slot) ∧ inWindow slot b = true; bit (rv 0x080000 s) 0 = true ∧
    s.bus.st = .coldstart ∧ kind = 0 ∧ s.bus.csThis = false ∧ s.bus.gskew.natAbs ≤ 500 ∧ free ∧ fresh)
    ∧ (∃ dt : Nat, ∃ slot : Nat, ∃ s : State, powered s = true ∧ ownSlot slot s = true ∧ slot < 2048 ∧ s.cfg.sched.own < 64 ∧
    let b := begin' dt s; let fresh := s.bus.window ≠ some (s.clk.cycle * 4096 + slot) ∧ inWindow slot b = true; bit (rv 0x080000 s) 0 = true ∧
    s.bus.st = .synced ∧ s.bus.guard = true ∧ s.bus.gskew.natAbs ≤ 500 ∧ takeoverEmpty slot s = false ∧ (¬fresh) ∧
    s.bus.babble < 2)
    ∧ (∃ dt : Nat, ∃ slot : Nat, ∃ s : State, powered s = true ∧ ownSlot slot s = true ∧ slot < 2048 ∧ s.cfg.sched.own < 64 ∧
    let b := begin' dt s; let fresh := s.bus.window ≠ some (s.clk.cycle * 4096 + slot) ∧ inWindow slot b = true; bit (rv 0x080000 s) 0 = true ∧
    s.bus.st = .synced ∧ s.bus.guard = true ∧ s.bus.gskew.natAbs ≤ 500 ∧ takeoverEmpty slot s = false ∧ (¬fresh) ∧ 2 ≤ s.bus.babble)
    ∧ (∃ slot : Nat, ∃ s : State, powered s = true ∧ ownSlot slot s = true ∧ slot < 2048 ∧ s.cfg.sched.own < 64 ∧
    ((s.bus.guard = false ∧ s.bus.st ≠ .coldstart) ∨ 500 < s.bus.gskew.natAbs))
    ∧ (∃ dt : Nat, ∃ slot : Nat, ∃ s : State, powered s = true ∧ ownSlot slot s = true ∧ slot < 2048 ∧ s.cfg.sched.own < 64 ∧
    let b := begin' dt s; let kind := bits (slotWord slot s) 7 2; s.bus.st = .synced ∧ s.bus.guard = true ∧
    s.bus.gskew.natAbs ≤ 500 ∧ kind = 2 ∧ bits (slotWord slot s) 16 4 < 4 ∧ rf 0x0C0000 0 1 s = 1 ∧ ∃ d, ∃ data, ∃ s1,
    ringTakeItem (bits (slotWord slot s) 16 4) b = some (d, data, s1))
    ∧ (∃ dt : Nat, ∃ slot : Nat, ∃ s : State, powered s = true ∧ ownSlot slot s = true ∧ slot < 2048 ∧ s.cfg.sched.own < 64 ∧
    let b := begin' dt s; let kind := bits (slotWord slot s) 7 2; s.bus.st = .synced ∧ s.bus.guard = true ∧
    s.bus.gskew.natAbs ≤ 500 ∧ kind = 2 ∧ bits (slotWord slot s) 16 4 < 4 ∧ rf 0x0C0000 0 1 s = 1 ∧ ringTakeItem (bits (slotWord slot s) 16 4) b = none)
    ∧ (∃ slot : Nat, ∃ s : State, powered s = true ∧ ownSlot slot s = true ∧ slot < 2048 ∧ s.cfg.sched.own < 64 ∧ let kind := bits (slotWord slot s) 7 2;
    s.bus.st = .synced ∧ s.bus.guard = true ∧ s.bus.gskew.natAbs ≤ 500 ∧ kind = 1) := by
  refine ⟨?_, ?_, ?_, ?_, ?_, ?_, ?_, ?_, ?_, ?_, ?_⟩
  · exact ⟨10, (at' 10 0 syn), by decide +kernel, by decide +kernel, by decide +kernel, by decide +kernel, 0, 0, by decide +kernel⟩
  · exact ⟨0, 10, (at' 10 0 syn), by decide +kernel⟩
  · exact ⟨0, 30, (at' 30 0 syn), by decide +kernel⟩
  · exact ⟨0, 30, (at' 30 0 ({syn with bus.prep := [{slot := 30, ftype := 3, payload := pay32 4, presetP := 5, presetQ := 6, flags := 3}, {slot := 50, ftype := 4, payload := pay32 5}, {slot := 10, ftype := 5}]})), by decide +kernel, by decide +kernel, by decide +kernel, by decide +kernel, by decide +kernel, by decide +kernel, by decide +kernel, by decide +kernel, by decide +kernel, by decide +kernel, _, by decide +kernel, by decide +kernel, (Option.eq_some_of_isSome (by decide +kernel)), by decide +kernel⟩
  · exact ⟨0, 10, (at' 10 0 ({syn with bus.st := .coldstart, bus.attempt := 3})), by decide +kernel⟩
  · exact ⟨0, 10, (at' 10 450 syn), by decide +kernel⟩
  · exact ⟨0, 10, (at' 10 450 ({syn with bus.window := some (5000 * 4096 + 50), bus.babble := 2})), by decide +kernel⟩
  · exact ⟨10, (at' 10 0 ({syn with bus.guard := false})), by decide +kernel⟩
  · exact ⟨0, 50, (at' 10 0 ({syn with rings := (List.range 64).map (fun _ => {entries := [fitTo 32 (leBytes 4 0 ++ leBytes 4 32), pay32 9, pay32 8]})})), by decide +kernel, by decide +kernel, by decide +kernel, by decide +kernel, by decide +kernel, by decide +kernel, by decide +kernel, by decide +kernel, by decide +kernel, by decide +kernel, _, _, _, (some_triple (by decide +kernel))⟩
  · exact ⟨0, 50, (at' 10 0 syn), by decide +kernel⟩
  · exact ⟨30, (at' 10 0 syn), by decide +kernel⟩

end ForBusSlots

namespace ForBusReception

def pad64 (d : Nat) (l : List Nat) : List Nat := l ++ List.replicate (64 - l.length) d
def slotW (own kind ch pair tx rx : Nat) : Nat := own + 64 + kind * 128 + ch * 512 + pair * 4096 + tx * 65536 + rx * 2^20
def slotL : List (Nat × Nat) := [(0, slotW 0 0 3 0 0 0xF), (10, slotW 2 0 3 0 0xF 0xF), (20, slotW 0 1 3 0 0 4), (30, slotW 2 1 3 0 0 0xF), (40, slotW 0 2 3 0 0 5), (50, slotW 2 2 3 0 1 0xF), (60, slotW 3 2 3 0 0 0xF), (70, slotW 1 1 1 0 0 6), (80, slotW 2 2 3 0 0xF 0xF)]
def sch : Sched := { nodes := 4, own := 2, schedId := 77, cs := [0,2], posX := pad64 255 [0,1,2,3], posY := pad64 255 [3,2,1,0], slots := (List.range 200).map (fun i => (assocGet i slotL).getD 0) }
def tmplV : Template := { index := 5, rx := true, mtch := 20, prot := 0 }
def tmplV2 : Template := { index := 6, rx := true, mtch := 70, prot := 1, wickWin := 3, foldWin := 4 }
def prt : BusPort := { link := true, meas := some 30 }
def dl : List Nat := pad64 127 [40, 50, 30, 60]
def syn : State := { run with
  cfg.sched := sch, cfg.templates := [tmplV, tmplV2]
  regs := [(0x080000, 3#32), (0x0C0000, 1#32)]
  tel := { run.tel with chans := [{ idx := 5, st := .openSt }, {idx := 6, st := .openSt, wick := some 3, seq := 8}] }
  rings := (List.range 64).map (fun n => {})
  cfg.rings := (List.range 64).map (fun n => 0x100C5)
  bus := { run.bus with st := .synced, ref := 0, guard := true, everInt := true, adopted := true, first := false, ports := List.replicate 4 prt, dlyX := dl, dlyY := dl } }
/-- `off` ns after the expected arrival of a frame whose arrival has the hundredth of a microsecond `p`. -/
def atSlot (p : Nat) (off : Nat) (s : State) : State := { s with clk.pos := p + off / 10 }
def pay32 (k : Nat) : List Byte := fitTo 32 (leBytes 8 k)
def bg : BusFrame := { port := 1, header := 0x0013881508280024, payload := pay32 9, check := 0x1E9A7467949C8114, ns := 3 }
def bgBad : BusFrame := { port := 3, header := 0x0013881508284024, payload := pay32 9, check := 0xD040C83F847F691B, ns := 3 }
def vt : BusFrame := { port := 1, header := 0x0013881508140023, payload := pay32 3, check := 0xD601AA5A703826C7, ns := 3 }
def sp (full id maj mn : Nat) : List Byte := fitTo 32 (packFields [(8, full), (4, id), (1, 0), (1, 1), (1, maj), (1, mn)])
def sy : BusFrame := { port := 1, header := 0x0013885508000021, payload := sp 5000 77 2 0, check := 0x7D4E2A2909A91D6D, ns := 3 }
def bgX : BusFrame := { port := 1, header := 0x00138815083C0324, payload := pay32 9, check := 0x230366BAD107AD23, ns := 3 }
def vtBad : BusFrame := { port := 1, header := 0x0013881508140023, payload := pay32 3, check := 0xD601AA5A703826C0, ns := 3 }
def mkf (port : Fin 7) (h : Nat) (pay : List Byte) (bad : Nat := 0) (pp : Nat × Nat := (0xFFFFFFFF,0xFFFFFFFF)) : BusFrame :=
  let b := leBytes 8 h ++ pay
  { port := port, header := BitVec.ofNat 64 h, payload := pay, check := BitVec.ofNat 64 (Nat.xor bad (checkP pp b + 2^32 * checkQ pp b)), ns := 3 }
def hdrB (ft src ch slot : Nat) (cyc : Nat) (lamp : Nat := 0) (maj : Nat := 2) : Nat := ft + maj * 16 + src * 256 + ch * 2^14 + slot * 2^16 + 33 * 2^27 + 5 * 2^34 + lamp * 2^38 + cyc % 2^24 * 2^40

/-- States and operands that meet the hypotheses of `Obligations.BusReception`. -/
theorem witness_BusReception :
    (∃ f : BusFrame, ∃ s : State, busUp f s = true ∧ busAligned s = false ∧ s.bus.st ≠ .integrating)
    ∧ (∃ dt : Nat, ∃ f : BusFrame, ∃ s : State, busUp f s = true ∧ busAligned s = true ∧ bandOf f (begin' dt s) = none)
    ∧ (∃ dt : Nat, ∃ f : BusFrame, ∃ s : State, busUp f s = true ∧ ∃ edge : Bool, ∃ dev : Int, ∃ cyc : Nat, busAligned s = true ∧
    bandOf f (begin' dt s) = some (edge, dev, cyc) ∧ busChecks f = false)
    ∧ (∃ dt : Nat, ∃ f : BusFrame, ∃ s : State, busUp f s = true ∧ let h := learnFirst false f (busHear f (begin' dt s)); ∃ edge : Bool,
    ∃ dev : Int, ∃ cyc : Nat, busAligned s = true ∧ bandOf f (begin' dt s) = some (edge, dev, cyc) ∧ let e := if edge then countEdge f h else h;
    busChecks f = true ∧ headerAgrees 4 cyc f e = false)
    ∧ (∃ dt : Nat, ∃ f : BusFrame, ∃ s : State, busUp f s = true ∧ let h := learnFirst false f (busHear f (begin' dt s)); ∃ edge : Bool,
    ∃ dev : Int, ∃ cyc : Nat, busAligned s = true ∧ bandOf f (begin' dt s) = some (edge, dev, cyc) ∧ let e := if edge then countEdge f h else h;
    busChecks f = true ∧ headerAgrees 5 cyc f e = false)
    ∧ (∃ dt : Nat, ∃ f : BusFrame, ∃ s : State, busUp f s = true ∧ let h := learnFirst false f (busHear f (begin' dt s)); ∃ edge : Bool,
    ∃ dev : Int, ∃ cyc : Nat, busAligned s = true ∧ bandOf f (begin' dt s) = some (edge, dev, cyc) ∧ let e := if edge then countEdge f h else h;
    busChecks f = true ∧ headerAgrees 1 cyc f e = false)
    ∧ (∃ dt : Nat, ∃ f : BusFrame, ∃ s : State, busUp f s = true ∧ let h := learnFirst false f (busHear f (begin' dt s)); ∃ edge : Bool,
    ∃ dev : Int, ∃ cyc : Nat, busAligned s = true ∧ bandOf f (begin' dt s) = some (edge, dev, cyc) ∧ let e := if edge then countEdge f h else h;
    busChecks f = true ∧ headerAgrees 5 cyc f e = true ∧ bit (slotWord (hSlot f) s) 12 = false ∧ assocGet (gotKey cyc f) s.bus.got = none)
    ∧ (∃ dt : Nat, ∃ f : BusFrame, ∃ s : State, busUp f s = true ∧ let h := learnFirst false f (busHear f (begin' dt s));
    let rx := rxRing (hSlot f) s; ∃ edge : Bool, ∃ dev : Int, ∃ cyc : Nat, busAligned s = true ∧ bandOf f (begin' dt s) = some (edge, dev, cyc) ∧
    let e := if edge then countEdge f h else h; busChecks f = true ∧ headerAgrees 4 cyc f e = true ∧ bit (slotWord (hSlot f) s) 12 = false ∧
    assocGet (gotKey cyc f) s.bus.got = none ∧ rx = 0xF)
    ∧ (∃ dt : Nat, ∃ f : BusFrame, ∃ s : State, busUp f s = true ∧ let h := learnFirst false f (busHear f (begin' dt s)); ∃ edge : Bool,
    ∃ dev : Int, ∃ cyc : Nat, busAligned s = true ∧ bandOf f (begin' dt s) = some (edge, dev, cyc) ∧ let e := if edge then countEdge f h else h;
    ∃ pay, busChecks f = true ∧ headerAgrees 4 cyc f e = true ∧ bit (slotWord (hSlot f) s) 12 = false ∧ assocGet (gotKey cyc f) s.bus.got = some (0, pay))
    ∧ (∃ dt : Nat, ∃ f : BusFrame, ∃ s : State, busUp f s = true ∧ let h := learnFirst false f (busHear f (begin' dt s));
    let rx := rxRing (hSlot f) s; ∃ edge : Bool, ∃ dev : Int, ∃ cyc : Nat, busAligned s = true ∧ bandOf f (begin' dt s) = some (edge, dev, cyc) ∧
    let e := if edge then countEdge f h else h; busChecks f = true ∧ headerAgrees 4 cyc f e = true ∧ bit (slotWord (hSlot f) s) 12 = false ∧
    assocGet (gotKey cyc f) s.bus.got = none ∧ rx ≠ 0xF ∧ rf 0x0C0000 0 1 s = 1)
    ∧ (∃ dt : Nat, ∃ f : BusFrame, ∃ s : State, busUp f s = true ∧ ∃ edge : Bool, ∃ dev : Int, ∃ cyc : Nat, busAligned s = true ∧
    bandOf f (begin' dt s) = some (edge, dev, cyc) ∧ ∃ t, busTemplate (hSlot f) s = some t ∧ (chan t.index s).st = .openSt ∧
    assocGet (gotKey cyc f) s.bus.got = none ∧ (∀ n, classify t (chan t.index s) (leBytes 8 f.header.toNat ++ f.payload) (bits f.check.toNat 0 32) (bits f.check.toNat 32 32) ≠ .pass n))
    ∧ (∃ dt : Nat, ∃ f : BusFrame, ∃ s : State, busUp f s = true ∧ let v := learnFirst true f (busHear f (begin' dt s)); ∃ edge : Bool,
    ∃ dev : Int, ∃ cyc : Nat, busAligned s = true ∧ bandOf f (begin' dt s) = some (edge, dev, cyc) ∧ let e3 := if edge then countEdge f v else v;
    ∃ t, ∃ n, busTemplate (hSlot f) s = some t ∧ (chan t.index s).st = .openSt ∧ assocGet (gotKey cyc f) s.bus.got = none ∧
    classify t (chan t.index s) (leBytes 8 f.header.toNat ++ f.payload) (bits f.check.toNat 0 32) (bits f.check.toNat 32 32) = .pass n ∧
    headerAgrees 3 cyc f e3 = false)
    ∧ (∃ dt : Nat, ∃ f : BusFrame, ∃ s : State, busUp f s = true ∧ let v := learnFirst true f (busHear f (begin' dt s)); let rx := rxRing (hSlot f) s;
    ∃ edge : Bool, ∃ dev : Int, ∃ cyc : Nat, busAligned s = true ∧ bandOf f (begin' dt s) = some (edge, dev, cyc) ∧ let e3 := if edge then countEdge f v else v;
    ∃ t, ∃ n, busTemplate (hSlot f) s = some t ∧ (chan t.index s).st = .openSt ∧ assocGet (gotKey cyc f) s.bus.got = none ∧
    classify t (chan t.index s) (leBytes 8 f.header.toNat ++ f.payload) (bits f.check.toNat 0 32) (bits f.check.toNat 32 32) = .pass n ∧
    headerAgrees 3 cyc f e3 = true ∧ bit (slotWord (hSlot f) s) 12 = false ∧ edge = false ∧ s.bus.st = .synced ∧ rx ≠ 0xF)
    ∧ (∃ dt : Nat, ∃ f : BusFrame, ∃ s : State, busUp f s = true ∧ let v := learnFirst true f (busHear f (begin' dt s)); ∃ edge : Bool,
    ∃ dev : Int, ∃ cyc : Nat, busAligned s = true ∧ bandOf f (begin' dt s) = some (edge, dev, cyc) ∧ let e3 := if edge then countEdge f v else v;
    ∃ t, ∃ n, ∃ pay, busTemplate (hSlot f) s = some t ∧ (chan t.index s).st = .openSt ∧ assocGet (gotKey cyc f) s.bus.got = some (n, pay) ∧
    headerAgrees 3 cyc f e3 = true ∧ checkP (presets t n) (leBytes 8 f.header.toNat ++ f.payload) = bits f.check.toNat 0 32 ∧
    checkQ (presets t n) (leBytes 8 f.header.toNat ++ f.payload) = bits f.check.toNat 32 32) := by
  refine ⟨?_, ?_, ?_, ?_, ?_, ?_, ?_, ?_, ?_, ?_, ?_, ?_, ?_, ?_⟩
  · exact ⟨bg, (atSlot 20072 0 ((fun s => {s with bus.st := .off}) syn)), by decide +kernel⟩
  · exact ⟨0, bg, (atSlot 20072 900 (id syn)), by decide +kernel⟩
  · exact ⟨0, bgBad, (atSlot 20072 0 (id syn)), by decide +kernel, _, _, _, by decide +kernel, (some_triple (by decide +kernel)), by decide +kernel⟩
  · exact ⟨0, vt, (atSlot 10072 0 (id syn)), by decide +kernel, _, _, _, by decide +kernel, (some_triple (by decide +kernel)), by decide +kernel⟩
  · exact ⟨0, sy, (atSlot 72 0 (id syn)), by decide +kernel, _, _, _, by decide +kernel, (some_triple (by decide +kernel)), by decide +kernel⟩
  · exact ⟨0, bg, (atSlot 20072 0 (id syn)), by decide +kernel, _, _, _, by decide +kernel, (some_triple (by decide +kernel)), by decide +kernel⟩
  · exact ⟨0, bg, (atSlot 20072 0 (id syn)), by decide +kernel, _, _, _, by decide +kernel, (some_triple (by decide +kernel)), by decide +kernel⟩
  · exact ⟨0, bgX, (atSlot 30006 0 (id syn)), by decide +kernel, _, _, _, by decide +kernel, (some_triple (by decide +kernel)), by decide +kernel⟩
  · exact ⟨0, bg, (atSlot 20072 0 ((fun s => {s with bus.got := [(gotKey 5000 bg, 0, pay32 9), (gotKey 5000 vt, 0, pay32 9)]}) syn)), by decide +kernel, _, _, _, by decide +kernel, (some_triple (by decide +kernel)), ((pay32 9)), by decide +kernel⟩
  · exact ⟨0, bg, (atSlot 20072 0 (id syn)), by decide +kernel, _, _, _, by decide +kernel, (some_triple (by decide +kernel)), by decide +kernel⟩
  · exact ⟨0, vtBad, (atSlot 10072 0 (id syn)), by decide +kernel, _, _, _, by decide +kernel, (some_triple (by decide +kernel)), _, (Option.eq_some_of_isSome (by decide +kernel)), by decide +kernel, by decide +kernel, (by intro n h; have e : passes _ = true := congrArg passes h; revert e; decide +kernel)⟩
  · exact ⟨0, (mkf 1 (hdrB 3 0 0 20 4999) (pay32 3)), (atSlot 10072 0 (id syn)), by decide +kernel, _, _, _, by decide +kernel, (some_triple (by decide +kernel)), _, 1, (Option.eq_some_of_isSome (by decide +kernel)), by decide +kernel⟩
  · exact ⟨0, vt, (atSlot 10072 0 (id syn)), by decide +kernel, _, _, _, by decide +kernel, (some_triple (by decide +kernel)), _, 1, (Option.eq_some_of_isSome (by decide +kernel)), by decide +kernel⟩
  · exact ⟨0, vt, (atSlot 10072 0 ((fun s => {s with bus.got := [(gotKey 5000 bg, 0, pay32 9), (gotKey 5000 vt, 0, pay32 9)]}) syn)), by decide +kernel, _, _, _, by decide +kernel, (some_triple (by decide +kernel)), _, 0, ((pay32 9)), (Option.eq_some_of_isSome (by decide +kernel)), by decide +kernel⟩

end ForBusReception

namespace ForLinkDelays

def pad64 (d : Nat) (l : List Nat) : List Nat := l ++ List.replicate (64 - l.length) d
def slotW (own kind ch pair tx rx : Nat) : Nat := own + 64 + kind * 128 + ch * 512 + pair * 4096 + tx * 65536 + rx * 2^20
def slotL : List (Nat × Nat) := [(0, slotW 0 0 3 0 0 0xF), (10, slotW 2 0 3 0 0xF 0xF), (20, slotW 0 1 3 0 0 4), (30, slotW 2 1 3 0 0 0xF), (40, slotW 0 2 3 0 0 5), (50, slotW 2 2 3 0 1 0xF), (60, slotW 3 2 3 0 0 0xF), (70, slotW 1 1 1 0 0 6), (80, slotW 2 2 3 0 0xF 0xF)]
def sch : Sched := { nodes := 4, own := 2, schedId := 77, cs := [0,2], posX := pad64 255 [0,1,2,3], posY := pad64 255 [3,2,1,0], slots := (List.range 200).map (fun i => (assocGet i slotL).getD 0) }
def tmplV : Template := { index := 5, rx := true, mtch := 20, prot := 0 }
def tmplV2 : Template := { index := 6, rx := true, mtch := 70, prot := 1, wickWin := 3, foldWin := 4 }
def prt : BusPort := { link := true, meas := some 30 }
def dl : List Nat := pad64 127 [40, 50, 30, 60]
def syn : State := { run with
  cfg.sched := sch, cfg.templates := [tmplV, tmplV2]
  regs := [(0x080000, 3#32), (0x0C0000, 1#32)]
  tel := { run.tel with chans := [{ idx := 5, st := .openSt }, {idx := 6, st := .openSt, wick := some 3, seq := 8}] }
  rings := (List.range 64).map (fun n => {})
  cfg.rings := (List.range 64).map (fun n => 0x100C5)
  bus := { run.bus with st := .synced, ref := 0, guard := true, everInt := true, adopted := true, first := false, ports := List.replicate 4 prt, dlyX := dl, dlyY := dl } }
def ports1 (f : BusPort → BusPort) (s : State) : State := {s with bus.ports := s.bus.ports.map f}
def hdrB (ft src ch slot : Nat) (cyc : Nat) (lamp : Nat := 0) (maj : Nat := 2) : Nat := ft + maj * 16 + src * 256 + ch * 2^14 + slot * 2^16 + 33 * 2^27 + 5 * 2^34 + lamp * 2^38 + cyc % 2^24 * 2^40
def dq (p : Fin 7) (ft : Nat) (pay : List Byte) (bad : Nat) : BusFrame := let h := hdrB ft 1 (p.val/2) 0 5000; {port := p, header := BitVec.ofNat 64 h, payload := pay, check := BitVec.ofNat 64 (Nat.xor bad (crc32c (leBytes 8 h ++ pay))), ns := 4}
def lf (p : Fin 7) (pay : List Byte) (bad : Nat) : BusFrame := let h := 5; {port := p, header := 5, payload := pay, lseq := 77, check := BitVec.ofNat 64 (Nat.xor bad (linkCheck (leBytes 16 (5 + 77 * 2^64) ++ pad8 pay))), ns := 4}
def lk (w : Nat) (s : State) : State := {s with cfg.cluster := 0, lnk.l := [{width := w, t1 := some 999000}, {width := w, delay := 4, queue := [{ltype := 1, prio := 1, chtag := 1, payload := [1]}], busyTo := 2000000}, {width := 0, t1 := some 99}]}

/-- States and operands that meet the hypotheses of `Obligations.LinkDelays`. -/
theorem witness_LinkDelays :
    (∃ dt : Nat, ∃ s : State, powered s = true ∧ s.bus.ports.length = 4 ∧ s.lnk.l.length = 3 ∧ let b := begin' dt s; ∃ port : Fin 7,
    port.val < 4 ∧ port.val % 2 = 0 ∧ (busPort port.val s).link = true ∧ measureDue port.val s = true ∧ (busAligned s = false ∨ portIdle port.val b = true) ∧
    (busPort port.val b).busyTo ≤ b.clk.up ∧ (busPort port.val b).out = [])
    ∧ (∃ s : State, powered s = true ∧ s.bus.ports.length = 4 ∧ s.lnk.l.length = 3 ∧ ∃ port : Fin 7, port.val < 4 ∧ port.val % 2 = 1)
    ∧ (∃ dt : Nat, ∃ s : State, powered s = true ∧ s.bus.ports.length = 4 ∧ s.lnk.l.length = 3 ∧ let b := begin' dt s; ∃ port : Fin 7,
    4 ≤ port.val ∧ (link (port.val - 4) s).width ≠ 0 ∧ s.cfg.cluster < linkPeer (port.val - 4) s ∧ (link (port.val - 4) s).delay = 0x3FF ∧
    (link (port.val - 4) b).queue = [] ∧ (link (port.val - 4) b).busyTo ≤ b.clk.up)
    ∧ (∃ dt : Nat, ∃ f : BusFrame, ∃ s : State, powered s = true ∧ s.bus.ports.length = 4 ∧ s.lnk.l.length = 3 ∧ let b := begin' dt s;
    f.port.val < 4 ∧ (busPort f.port.val s).link = true ∧ delayCheck f = true ∧ (busPort f.port.val b).out = [] ∧ let w := idleWait f.port.val b;
    (busAligned s = false ∨ w = 0) ∧ (busPort f.port.val b).busyTo ≤ b.clk.up)
    ∧ (∃ dt : Nat, ∃ f : BusFrame, ∃ s : State, powered s = true ∧ s.bus.ports.length = 4 ∧ s.lnk.l.length = 3 ∧ let b := begin' dt s;
    f.port.val < 4 ∧ (busPort f.port.val s).link = true ∧ delayCheck f = true ∧ (busPort f.port.val b).out = [] ∧ let w := idleWait f.port.val b;
    busAligned s = true ∧ w ≠ 0)
    ∧ (∃ f : BusFrame, ∃ s : State, powered s = true ∧ s.bus.ports.length = 4 ∧ s.lnk.l.length = 3 ∧ f.port.val < 4 ∧
    (busPort f.port.val s).link = true ∧ delayCheck f = false)
    ∧ (∃ dt : Nat, ∃ f : BusFrame, ∃ s : State, powered s = true ∧ s.bus.ports.length = 4 ∧ s.lnk.l.length = 3 ∧ let b := begin' dt s;
    ∃ t1, ∃ c, f.port.val < 4 ∧ (busPort f.port.val b).t1 = some (t1, c) ∧ (busPort f.port.val s).link = true ∧
    delayCheck f = true ∧ refNs f b - t1 ≤ 1000 * cycleUs s ∧ s.bus.st ≠ .off ∧ 2 ≤ s.cfg.sched.pmaj)
    ∧ (∃ dt : Nat, ∃ f : BusFrame, ∃ s : State, powered s = true ∧ s.bus.ports.length = 4 ∧ s.lnk.l.length = 3 ∧ let b := begin' dt s;
    ∃ t1, 4 ≤ f.port.val ∧ (link (f.port.val - 4) s).width ≠ 0 ∧ linkGood { head := BitVec.ofNat 128 (f.header.toNat + 2 ^ 64 * f.lseq.toNat), check := f.check } f.payload = true ∧
    (link (f.port.val - 4) b).t1 = some t1 ∧ f.time = none) := by
  refine ⟨?_, ?_, ?_, ?_, ?_, ?_, ?_, ?_⟩
  · exact ⟨0, (ports1 (fun p => {p with meas := none}) {syn with bus.st := .off}), by decide +kernel, by decide +kernel, by decide +kernel, 0, by decide +kernel⟩
  · exact ⟨syn, by decide +kernel, by decide +kernel, by decide +kernel, 1, by decide +kernel⟩
  · exact ⟨0, ((fun s => { s with lnk := { s.lnk with pair := .active, l := List.replicate 3 { width := 4 } }, cfg.partner := some 1 } : State → State) (syn)), by decide +kernel, by decide +kernel, by decide +kernel, 4, by decide +kernel⟩
  · exact ⟨0, (dq 0 6 [0,0,0,0] 0), syn, by decide +kernel⟩
  · exact ⟨0, (dq 2 7 (leBytes 4 200) 0), syn, by decide +kernel⟩
  · exact ⟨(dq 1 6 [0,0,0,0] 1), syn, by decide +kernel⟩
  · exact ⟨0, (dq 0 6 [0,0,0,0] 0), (ports1 (fun p => {p with t1 := some (9999800, 4000)}) syn), by decide +kernel, by decide +kernel, by decide +kernel, _, _, by decide +kernel, rfl, by decide +kernel⟩
  · exact ⟨0, (lf 4 (leBytes 8 2000) 0), (lk 4 syn), by decide +kernel, by decide +kernel, by decide +kernel, _, by decide +kernel, by decide +kernel, by decide +kernel, (Option.eq_some_of_isSome (by decide +kernel)), by decide +kernel⟩

end ForLinkDelays

namespace ForBusClockCorrection

def pad64 (d : Nat) (l : List Nat) : List Nat := l ++ List.replicate (64 - l.length) d
def slotW (own kind ch pair tx rx : Nat) : Nat := own + 64 + kind * 128 + ch * 512 + pair * 4096 + tx * 65536 + rx * 2^20
def slotL : List (Nat × Nat) := [(0, slotW 0 0 3 0 0 0xF), (10, slotW 2 0 3 0 0xF 0xF), (20, slotW 0 1 3 0 0 4), (30, slotW 2 1 3 0 0 0xF), (40, slotW 0 2 3 0 0 5), (50, slotW 2 2 3 0 1 0xF), (60, slotW 3 2 3 0 0 0xF), (70, slotW 1 1 1 0 0 6), (80, slotW 2 2 3 0 0xF 0xF)]
def sch : Sched := { nodes := 4, own := 2, schedId := 77, cs := [0,2], posX := pad64 255 [0,1,2,3], posY := pad64 255 [3,2,1,0], slots := (List.range 200).map (fun i => (assocGet i slotL).getD 0) }
def tmplV : Template := { index := 5, rx := true, mtch := 20, prot := 0 }
def tmplV2 : Template := { index := 6, rx := true, mtch := 70, prot := 1, wickWin := 3, foldWin := 4 }
def prt : BusPort := { link := true, meas := some 30 }
def dl : List Nat := pad64 127 [40, 50, 30, 60]
def syn : State := { run with
  cfg.sched := sch, cfg.templates := [tmplV, tmplV2]
  regs := [(0x080000, 3#32), (0x0C0000, 1#32)]
  tel := { run.tel with chans := [{ idx := 5, st := .openSt }, {idx := 6, st := .openSt, wick := some 3, seq := 8}] }
  rings := (List.range 64).map (fun n => {})
  cfg.rings := (List.range 64).map (fun n => 0x100C5)
  bus := { run.bus with st := .synced, ref := 0, guard := true, everInt := true, adopted := true, first := false, ports := List.replicate 4 prt, dlyX := dl, dlyY := dl } }

/-- States and operands that meet the hypotheses of `Obligations.BusClockCorrection`. -/
theorem witness_BusClockCorrection :
    (∃ k : Int, ∃ x : Int, ∃ y : Int, ∃ s : State, s.bus.st = .synced ∧ s.bus.guardNext = false ∧ s.bus.dlyNew = [] ∧ let t := busBoundary k s;
    let dev := 2 * (x + y); s.bus.leader = false ∧ s.bus.first = false ∧ s.bus.hear.devX = some x ∧ s.bus.hear.devY = some y ∧
    (x - y).natAbs ≤ 400 ∧ dev.natAbs ≤ 2400 ∧ 5 * t.bus.rate.natAbs ≤ 4 * cycleUs s)
    ∧ (∃ k : Int, ∃ x : Int, ∃ y : Int, ∃ s : State, s.bus.st = .synced ∧ s.bus.guardNext = false ∧ s.bus.dlyNew = [] ∧ let t := busBoundary k s;
    let dev := 2 * (x + y); s.bus.leader = false ∧ s.bus.first = false ∧ s.bus.hear.devX = some x ∧ s.bus.hear.devY = some y ∧
    (x - y).natAbs ≤ 400 ∧ (2400 < dev.natAbs ∨ 4 * cycleUs s < 5 * t.bus.rate.natAbs))
    ∧ (∃ x : Int, ∃ y : Int, ∃ s : State, s.bus.st = .synced ∧ s.bus.guardNext = false ∧ s.bus.dlyNew = [] ∧ s.bus.leader = false ∧
    s.bus.hear.devX = some x ∧ s.bus.hear.devY = some y ∧ 400 < (x - y).natAbs)
    ∧ (∃ s : State, s.bus.st = .synced ∧ s.bus.guardNext = false ∧ s.bus.dlyNew = [] ∧ s.bus.leader = true) := by
  refine ⟨?_, ?_, ?_, ?_⟩
  · exact ⟨0, 0, 0, ({syn with bus.hear := {devX := some 0, devY := some 0, seen := true, nodes := [1]}, bus.rate := 0, clk.carry := 13, bus.early := {seen := true}, bus.heardPrev := [7]}), by decide +kernel⟩
  · exact ⟨0, 0, 0, ({syn with bus.hear := {devX := some 0, devY := some 0, seen := true, nodes := [1]}, bus.rate := 900, clk.carry := 13, bus.early := {seen := true}, bus.heardPrev := [7]}), by decide +kernel⟩
  · exact ⟨0, (-650), ({syn with bus.hear := {devX := some 0, devY := some (-650), seen := true, nodes := [1]}, bus.rate := 0, clk.carry := 13, bus.early := {seen := true}, bus.heardPrev := [7]}), by decide +kernel⟩
  · exact ⟨({syn with bus.leader := (-7) < 0, bus.hear := {devX := some (-7), devY := some 0}, bus.rate := 0, clk.carry := -39, cfg.sched.cycleUs := 2000}), by decide +kernel⟩

end ForBusClockCorrection

namespace ForChannelCommandEffects

/-- States and operands that meet the hypotheses of `Obligations.ChannelCommandEffects`. -/
theorem witness_ChannelCommandEffects :
    (∃ i : Fin 4096, ∃ s : State, lanesRun s = true ∧ bit s.cfg.progBlocks 0x0B = true ∧ s.tel.busy = none ∧ (chan i.val s).st = .closed ∧
    ∃ x, tmpl i.val s = some x ∧ (isOpenCh x = false ∨ (x.rx = true ∧ keyUsable x.keySlot s = true)))
    ∧ (∃ i : Fin 4096, ∃ s : State, lanesRun s = true ∧ bit s.cfg.progBlocks 0x0B = true ∧ s.tel.busy = none ∧ (chan i.val s).st = .closed ∧
    ∃ x, tmpl i.val s = some x ∧ isOpenCh x = true ∧ x.rx = false ∧ keyUsable x.keySlot s = true ∧ sessionsOk s = true)
    ∧ (∃ i : Fin 4096, ∃ s : State, lanesRun s = true ∧ bit s.cfg.progBlocks 0x0B = true ∧ s.tel.busy = none ∧ (chan i.val s).st = .closed ∧
    ∃ x, tmpl i.val s = some x ∧ isOpenCh x = true ∧ keyUsable x.keySlot s = false)
    ∧ (∃ i : Fin 4096, ∃ s : State, lanesRun s = true ∧ bit s.cfg.progBlocks 0x0B = true ∧ s.tel.busy = none ∧ ∃ r, ((((chan i.val s).st = .openSt ∨ (chan i.val s).st = .exhausted) ∧ r = 2) ∨ ((chan i.val s).st = .retired ∧ r = 5) ∨ ((chan i.val s).st = .closed ∧ tmpl i.val s = none ∧ r = 1)))
    ∧ (∃ s : State, lanesRun s = true ∧ bit s.cfg.progBlocks 0x0B = true ∧ s.tel.busy.isSome = true)
    ∧ (∃ i : Fin 4096, ∃ s : State, lanesRun s = true ∧ bit s.cfg.progBlocks 0x0B = true ∧ ∃ c, s.tel.busy = some i.val ∧
    sessionNow s = some c)
    ∧ (∃ i : Fin 4096, ∃ h : Half, ∃ s : State, lanesRun s = true ∧ bit s.cfg.progBlocks 0x0B = true ∧ s.tel.busy = none ∧
    h.toNat % 4096 = i.val ∧ handleOf (chan i.val s) = h.toNat ∧ ((chan i.val s).st = .openSt ∨ (chan i.val s).st = .exhausted))
    ∧ (∃ i : Fin 4096, ∃ h : Half, ∃ s : State, lanesRun s = true ∧ bit s.cfg.progBlocks 0x0B = true ∧ s.tel.busy = none ∧
    h.toNat % 4096 = i.val ∧ (handleOf (chan i.val s) ≠ h.toNat ∨ (chan i.val s).st = .closed ∨ (chan i.val s).st = .retired)) := by
  refine ⟨?_, ?_, ?_, ?_, ?_, ?_, ?_, ?_⟩
  · exact ⟨3, { run with cfg.templates := [{ index := 3, rx := true }] }, by decide +kernel, by decide +kernel, by decide +kernel, by decide +kernel, _, rfl, by decide +kernel⟩
  · exact ⟨3, { run with cfg.templates := [{ index := 3, prot := 2, tver := 0x20, transport := 1, keySlot := 5 }], tel.keys := [{ slot := 5, valid := true, locked := true }] }, by decide +kernel, by decide +kernel, by decide +kernel, by decide +kernel, _, rfl, by decide +kernel⟩
  · exact ⟨3, { run with cfg.templates := [{ index := 3, prot := 2, tver := 0x20, transport := 1, keySlot := 5 }] }, by decide +kernel, by decide +kernel, by decide +kernel, by decide +kernel, _, rfl, by decide +kernel⟩
  · exact ⟨4095, { run with tel.chans := [{ idx := 4095, st := .retired }] }, by decide +kernel, by decide +kernel, by decide +kernel, 5, by decide +kernel⟩
  · exact ⟨{ run with tel.busy := some 3 }, by decide +kernel⟩
  · exact ⟨3, { run with tel.busy := some 3 }, by decide +kernel, by decide +kernel, _, by decide +kernel, rfl⟩
  · exact ⟨3, 0x1003, { run with tel.chans := [{ idx := 3, st := .exhausted }] }, by decide +kernel⟩
  · exact ⟨3, 0x2003, run, by decide +kernel⟩

end ForChannelCommandEffects

namespace ForKeysAndCheckValues

def keyed (s : State) : State := { s with tel.keys := [{ slot := 2, data := List.replicate 16 7#8, valid := true, locked := true }, { slot := 4, data := List.replicate 16 1#8, valid := true }] }
def base : State := keyed run
def k0 : Nat := sha384 (((([1,2,3,4] : List Nat).map (leBytes 4)).flatten) ++ [4#8]) / 2 ^ 256
def tm : List Template := [{ index := 0, transport := 5, prot := 3 }, { index := 3, transport := 2, keySlot := 2, prot := 3 }, { index := 5, transport := 2, rx := true, keySlot := 2 }, { index := 6, transport := 2, keySlot := 4 }]
def ch (l : List Chan) (s : State) : State := { s with tel.chans := l, cfg.templates := tm }

/-- States and operands that meet the hypotheses of `Obligations.KeysAndCheckValues`. -/
theorem witness_KeysAndCheckValues :
    (∃ n : Nat, ∃ s : State, lanesRun s = true ∧ bit s.cfg.progBlocks 0x0B = true ∧ n < 48 ∧ let d := (s.tel.keyData.map (leBytes 4)).flatten;
    (keyOf n s).locked = false ∧ sha384 (d ++ [BitVec.ofNat 8 n]) / 2 ^ 256 = s.cfg.keyHash.getD n 0)
    ∧ (∃ n : Nat, ∃ s : State, lanesRun s = true ∧ bit s.cfg.progBlocks 0x0B = true ∧ n < 48 ∧ let d := (s.tel.keyData.map (leBytes 4)).flatten;
    (keyOf n s).locked = false ∧ sha384 (d ++ [BitVec.ofNat 8 n]) / 2 ^ 256 ≠ s.cfg.keyHash.getD n 0)
    ∧ (∃ n : Nat, ∃ s : State, lanesRun s = true ∧ bit s.cfg.progBlocks 0x0B = true ∧ n < 48 ∧ (keyOf n s).locked = true) := by
  refine ⟨?_, ?_, ?_⟩
  · exact ⟨4, ({ base with tel.keyData := [1,2,3,4], cfg.keyHash := [0,0,k0,0,k0], regs := [(0x0B0010, 3)] }), by decide +kernel⟩
  · exact ⟨0, (ch [] base), by decide +kernel⟩
  · exact ⟨2, (ch [] base), by decide +kernel⟩

end ForKeysAndCheckValues

namespace ForTelegramSealing

def asp : Aspect := { off := 1, width := 1, elem := 9, restrictive := [0, 5] }
def tm : List Template := [{ index := 0, transport := 5, prot := 3, mtch := 0x1234, tver := 0x20 }, { index := 3, transport := 2, keySlot := 2, prot := 3, tver := 0x23, src := 5, dst := 6 }, { index := 5, transport := 2, rx := true, keySlot := 2 }, { index := 6, transport := 6, prot := 1, tver := 0x10, aspects := [asp] }, { index := 7, transport := 1, prot := 2, tver := 0, keySlot := 2, headers := List.replicate 42 3#8 }, {index := 8, transport := 6, border := true, prot := 2, tver := 0x20}]
def S (r : Nat) (e : List (List Byte)) (cs : List Chan) (s : State) : State :=
  { s with tel.chans := cs, cfg.templates := tm, regs := [(0x0A0000, 3), (0x0B0000, 1), (0x0C0000, 1)], cfg.rings := List.replicate 64 ((6 : Nat) + 2^25 * 100), rings := (List.replicate 64 ({} : Ring)).set r { entries := e }, lnk.l := [{ width := 4, lseqTx := 3 }, { width := 2 }, { width := 1, busyTo := 10^12 }] }
def keyed (s : State) : State := { s with tel.keys := [{ slot := 2, data := List.replicate 16 7#8, valid := true, locked := true }] }
def bs : State := keyed run
def it (h : Nat) (data : List Byte) : List (List Byte) := itemEntries (packFields [(4, h), (4, data.length), (8,0),(8,0),(8,0)]) data
def o (i g : Nat) (w : Option Nat) (q : Nat) : Chan := { idx := i, gen := g, st := .openSt, wick := w, seq := q, session := some 77 }

/-- States and operands that meet the hypotheses of `Obligations.TelegramSealing`. -/
theorem witness_TelegramSealing :
    (∃ dt : Nat, ∃ r : Fin 64, ∃ d : List Byte, ∃ data : List Byte, ∃ s1 : State, ∃ s : State, sealing s = true ∧ isTxRing r.val = true ∧
    8 ≤ r.val ∧ ringTakeItem r.val (begin' dt s) = some (d, data, s1) ∧ let b := begin' dt s; (outranked r.val b = true ∨ sealWaits r.val d b = true))
    ∧ (∃ dt : Nat, ∃ r : Fin 64, ∃ d : List Byte, ∃ data : List Byte, ∃ s1 : State, ∃ s : State, sealing s = true ∧ isTxRing r.val = true ∧
    8 ≤ r.val ∧ ringTakeItem r.val (begin' dt s) = some (d, data, s1) ∧ let b := begin' dt s; let h := fieldAt d 0 4;
    outranked r.val b = false ∧ sealWaits r.val d b = false ∧ h = 0 ∧ r.val < 40)
    ∧ (∃ dt : Nat, ∃ r : Fin 64, ∃ d : List Byte, ∃ data : List Byte, ∃ s1 : State, ∃ s : State, sealing s = true ∧ isTxRing r.val = true ∧
    8 ≤ r.val ∧ ringTakeItem r.val (begin' dt s) = some (d, data, s1) ∧ let b := begin' dt s; let h := fieldAt d 0 4; let body := bindFields (h % 4096) data s1;
    let c := chan (h % 4096) s; outranked r.val b = false ∧ sealWaits r.val d b = false ∧ (h ≠ 0 ∨ 40 ≤ r.val) ∧ ∃ x,
    tmpl (h % 4096) s = some x ∧ c.st = .openSt ∧ handleOf c = h ∧ x.rx = false ∧ gateRefuses x body s1 = none ∧
    s.lnk.pair ≠ .active ∧ isOpenCh x = true ∧ bit (rv 0x0A0000 s) (x.transport - 1) = true)
    ∧ (∃ dt : Nat, ∃ r : Fin 64, ∃ d : List Byte, ∃ data : List Byte, ∃ s1 : State, ∃ s : State, sealing s = true ∧ isTxRing r.val = true ∧
    8 ≤ r.val ∧ ringTakeItem r.val (begin' dt s) = some (d, data, s1) ∧ let b := begin' dt s; let h := fieldAt d 0 4; let body := bindFields (h % 4096) data s1;
    let c := chan (h % 4096) s; outranked r.val b = false ∧ sealWaits r.val d b = false ∧ (h ≠ 0 ∨ 40 ≤ r.val) ∧ ∃ x,
    tmpl (h % 4096) s = some x ∧ c.st = .openSt ∧ handleOf c = h ∧ x.rx = false ∧ gateRefuses x body s1 = none ∧ ∃ l,
    s.lnk.pair ≠ .active ∧ x.transport = l + 5 ∧ (link l b).width ≠ 0 ∧ (link l b).queue = [] ∧ (link l b).busyTo ≤ b.clk.up)
    ∧ (∃ dt : Nat, ∃ r : Fin 64, ∃ d : List Byte, ∃ data : List Byte, ∃ s1 : State, ∃ s : State, sealing s = true ∧ isTxRing r.val = true ∧
    8 ≤ r.val ∧ ringTakeItem r.val (begin' dt s) = some (d, data, s1) ∧ let b := begin' dt s; let h := fieldAt d 0 4; let c := chan (h % 4096) s;
    outranked r.val b = false ∧ sealWaits r.val d b = false ∧ (h ≠ 0 ∨ 40 ≤ r.val) ∧ (tmpl (h % 4096) s = none ∨ c.st ≠ .openSt ∨ handleOf c ≠ h))
    ∧ (∃ dt : Nat, ∃ r : Fin 64, ∃ d : List Byte, ∃ data : List Byte, ∃ s1 : State, ∃ s : State, sealing s = true ∧ isTxRing r.val = true ∧
    8 ≤ r.val ∧ ringTakeItem r.val (begin' dt s) = some (d, data, s1) ∧ let b := begin' dt s; let h := fieldAt d 0 4; let body := bindFields (h % 4096) data s1;
    let c := chan (h % 4096) s; outranked r.val b = false ∧ sealWaits r.val d b = false ∧ ∃ x, ∃ e, (h ≠ 0 ∨ 40 ≤ r.val) ∧
    tmpl (h % 4096) s = some x ∧ c.st = .openSt ∧ handleOf c = h ∧ x.rx = false ∧ gateRefuses x body s1 = some e) := by
  refine ⟨?_, ?_, ?_, ?_, ?_, ?_⟩
  · exact ⟨0, 8, _, _, _, (S 8 (it (7 + 4096*2) []) [o 7 2 (some 4) 8] {bs with xch.window := true}), by decide +kernel, by decide +kernel, by decide +kernel, (some_triple (by decide +kernel)), by decide +kernel⟩
  · exact ⟨0, 9, _, _, _, (S 9 (it 0 [9,9]) [] bs), by decide +kernel, by decide +kernel, by decide +kernel, (some_triple (by decide +kernel)), by decide +kernel⟩
  · exact ⟨0, 8, _, _, _, (S 8 (it (7 + 4096*2) []) [o 7 2 (some 4) 8] bs), by decide +kernel, by decide +kernel, by decide +kernel, (some_triple (by decide +kernel)), by decide +kernel, by decide +kernel, by decide +kernel, _, (Option.eq_some_of_isSome (by decide +kernel)), by decide +kernel⟩
  · exact ⟨0, 40, _, _, _, (S 40 (it 4096 [1,2,3]) [o 0 1 (some 65535) 5] bs), by decide +kernel, by decide +kernel, by decide +kernel, (some_triple (by decide +kernel)), by decide +kernel, by decide +kernel, by decide +kernel, _, (Option.eq_some_of_isSome (by decide +kernel)), by decide +kernel, by decide +kernel, by decide +kernel, by decide +kernel, 0, by decide +kernel⟩
  · exact ⟨0, 8, _, _, _, (S 8 (it (7 + 4096*3) []) [o 7 2 (some 4) 8] bs), by decide +kernel, by decide +kernel, by decide +kernel, (some_triple (by decide +kernel)), by decide +kernel⟩
  · exact ⟨0, 42, _, _, _, (S 42 (it (6 + 4096*2) [1,7,3]) [o 6 2 (some 4) 8] bs), by decide +kernel, by decide +kernel, by decide +kernel, (some_triple (by decide +kernel)), by decide +kernel, by decide +kernel, _, _, by decide +kernel, (Option.eq_some_of_isSome (by decide +kernel)), by decide +kernel, by decide +kernel, by decide +kernel, (Option.eq_some_of_isSome (by decide +kernel))⟩

end ForTelegramSealing

namespace ForTelegramReception

def le (n v : Nat) : List Byte := leBytes n v
def tel (t : Template) (seq wick fl : Nat) (data : List Byte) (ses : Nat) (bad : Nat := 0) (badQ : Nat := 0) (badT : Nat := 0) : List Byte :=
  let head := if 2 ≤ t.tver / 16 then packFields [(1, t.tver), (1, fl), (2, wick), (2, data.length), (2, 0), (8, 99)] else packFields [(1, t.tver), (1, fl), (2, wick), (2, data.length), (2, 0)]
  let body := head ++ data
  let p := presets t seq
  let b := body ++ le 4 (Nat.xor (checkP p body) bad) ++ le 4 (Nat.xor (checkQ p body) badQ)
  if isOpenCh t then
    let aad := b ++ le 4 ses
    aad ++ gmac (List.replicate 16 7#8) (packFields [(2, t.src), (2, t.index % 4096), (4, ses), (4, if hasFold t then seq else seq + badT)]) (aad)
  else b
def cov (t : Template) (p : List Byte) (bad : Nat := 0) : LinkCover :=
  let hd := 5 * 2^64 + t.mtch * 2^32 + p.length * 2^16 + 1
  { head := BitVec.ofNat 128 hd, check := BitVec.ofNat 64 (linkCheck (leBytes 16 hd ++ pad8 p) + bad) }
def rx (t : Template) (b : List Byte) (bad : Nat := 0) : TelIn := if h : t.transport < 5 then { port := ⟨t.transport - 1, by omega⟩, tag := BitVec.ofNat 16 t.mtch, data := b, link := {} } else { port := 5, tag := 0, data := b, link := cov t b bad }
def t4 : Template := { index := 4, transport := 6, rx := true, prot := 1, tver := 0x10, mtch := 0x2222, wickWin := 2, ring := 43 }
def t5 : Template := { index := 5, transport := 6, rx := true, prot := 2, foldWin := 2, border := true, tver := 0x20, mtch := 0x3333, ring := 43 }
def t3 : Template := { index := 3, transport := 2, rx := true, keySlot := 2, prot := 3, tver := 0x23, src := 5, dst := 6, mtch := 0x1111, wickWin := 4, foldWin := 3, ring := 13 }
def t6 : Template := { index := 6, transport := 1, rx := true, prot := 0, keySlot := 2, tver := 0, mtch := 0x4444, ring := 12 }
def tm : List Template := [t3, t4, t5, t6]
def S (cs : List Chan) (s : State) : State :=
  { s with tel.chans := cs, cfg.templates := tm, regs := [(0x0A0000, 3), (0x0B0000, 1), (0x0C0000, 1)], cfg.rings := List.replicate 64 ((6 : Nat) + 2^25 * 100), rings := List.replicate 64 ({} : Ring), lnk.l := [{ width := 4, lseqTx := 3 }, { width := 2 }, { width := 1, busyTo := 10^12 }] }
def keyed (s : State) : State := { s with tel.keys := [{ slot := 2, data := List.replicate 16 7#8, valid := true, locked := true }] }
def bs : State := keyed run
def o (i g : Nat) (w : Option Nat) (q : Nat) (ss : Option Nat) : Chan := { idx := i, gen := g, st := .openSt, wick := w, seq := q, session := ss }

/-- States and operands that meet the hypotheses of `Obligations.TelegramReception`. -/
theorem witness_TelegramReception :
    (∃ dt : Nat, ∃ x : TelIn, ∃ s : State, s.pwr.phase = .running ∧ let eth := decide (x.port.val < 4); let q := linkIn (x.port.val - 4) x.link x.data (begin' dt s);
    let go := if eth then bit (rv 0x0A0000 s) x.port.val else q.1; go = false)
    ∧ (∃ dt : Nat, ∃ x : TelIn, ∃ s : State, s.pwr.phase = .running ∧ let eth := decide (x.port.val < 4); let q := linkIn (x.port.val - 4) x.link x.data (begin' dt s);
    let go := if eth then bit (rv 0x0A0000 s) x.port.val else q.1; let mt := telMatch x.port.val (if eth then x.tag.toNat else bits x.link.head.toNat 32 16) s;
    go = true ∧ mt = none)
    ∧ (∃ dt : Nat, ∃ x : TelIn, ∃ s : State, s.pwr.phase = .running ∧ let eth := decide (x.port.val < 4); let q := linkIn (x.port.val - 4) x.link x.data (begin' dt s);
    let go := if eth then bit (rv 0x0A0000 s) x.port.val else q.1; let mt := telMatch x.port.val (if eth then x.tag.toNat else bits x.link.head.toNat 32 16) s;
    ∃ y, go = true ∧ mt = some y ∧ let c := chan y.index s; c.st ≠ .openSt)
    ∧ (∃ dt : Nat, ∃ x : TelIn, ∃ s : State, s.pwr.phase = .running ∧ let eth := decide (x.port.val < 4); let q := linkIn (x.port.val - 4) x.link x.data (begin' dt s);
    let v := if eth then x.data else linkTel x; let go := if eth then bit (rv 0x0A0000 s) x.port.val else q.1; let mt := telMatch x.port.val (if eth then x.tag.toNat else bits x.link.head.toNat 32 16) s;
    ∃ y, go = true ∧ mt = some y ∧ let c := chan y.index s; let hl := if 2 ≤ y.tver / 16 then 16 else 8; let len := fieldAt v 4 2;
    let cls := classify y c (v.take (hl + len)) (fieldAt v (hl + len) 4) (fieldAt v (hl + len + 4) 4); ∃ k, c.st = .openSt ∧
    ((cls = .checkOnly ∧ k = 0x0B0060) ∨ (cls = .corrupt ∧ k = 0x0B0064) ∨ (cls = .foldFail ∧ k = 0x0B0068)))
    ∧ (∃ dt : Nat, ∃ x : TelIn, ∃ s : State, s.pwr.phase = .running ∧ let eth := decide (x.port.val < 4); let q := linkIn (x.port.val - 4) x.link x.data (begin' dt s);
    let v := if eth then x.data else linkTel x; let go := if eth then bit (rv 0x0A0000 s) x.port.val else q.1; let mt := telMatch x.port.val (if eth then x.tag.toNat else bits x.link.head.toNat 32 16) s;
    ∃ y, go = true ∧ mt = some y ∧ let c := chan y.index s; let hl := if 2 ≤ y.tver / 16 then 16 else 8; let len := fieldAt v 4 2;
    let wick := fieldAt v 2 2; let ahead := fun (w0 : Nat) => (wick + 65536 - w0) % 65536; let cls := classify y c (v.take (hl + len)) (fieldAt v (hl + len) 4) (fieldAt v (hl + len + 4) 4);
    ∃ n, ∃ k, ∃ w0, c.st = .openSt ∧ cls = .pass n ∧ hasWick y = true ∧ c.wick = some w0 ∧ ((ahead w0 = 0 ∧ k = 0x0B006C) ∨ (y.wickWin < ahead w0 ∧ ahead w0 ≠ 0 ∧ k = 0x0B0070)))
    ∧ (∃ dt : Nat, ∃ x : TelIn, ∃ s : State, s.pwr.phase = .running ∧ let eth := decide (x.port.val < 4); let q := linkIn (x.port.val - 4) x.link x.data (begin' dt s);
    let v := if eth then x.data else linkTel x; let go := if eth then bit (rv 0x0A0000 s) x.port.val else q.1; let mt := telMatch x.port.val (if eth then x.tag.toNat else bits x.link.head.toNat 32 16) s;
    ∃ y, go = true ∧ mt = some y ∧ let c := chan y.index s; let hl := if 2 ≤ y.tver / 16 then 16 else 8; let len := fieldAt v 4 2;
    let wick := fieldAt v 2 2; let cls := classify y c (v.take (hl + len)) (fieldAt v (hl + len) 4) (fieldAt v (hl + len + 4) 4);
    let ses := fieldAt v (hl + len + 8) 4; let iv := packFields [(2, y.src), (2, y.index % 4096), (4, ses), (4, match cls with | .pass n => n | _ => 0)];
    let tagOk := keyUsable y.keySlot s && gmac (keyOf y.keySlot s).data iv (v.take (hl + len + 12)) == (v.drop (hl + len + 12)).take 16;
    let fresh := fun (lost : Nat) => (hasWick y = true → wickCheck y c wick = .ok lost) ∧ (hasWick y = false → lost = 0);
    ∃ n, ∃ lost, c.st = .openSt ∧ cls = .pass n ∧ fresh lost ∧ isOpenCh y = true ∧ (tagOk = false ∨ ∃ w, c.session = some w ∧ w ≠ ses))
    ∧ (∃ dt : Nat, ∃ x : TelIn, ∃ s : State, s.pwr.phase = .running ∧ let eth := decide (x.port.val < 4); let q := linkIn (x.port.val - 4) x.link x.data (begin' dt s);
    let v := if eth then x.data else linkTel x; let go := if eth then bit (rv 0x0A0000 s) x.port.val else q.1; let mt := telMatch x.port.val (if eth then x.tag.toNat else bits x.link.head.toNat 32 16) s;
    ∃ y, go = true ∧ mt = some y ∧ let c := chan y.index s; let hl := if 2 ≤ y.tver / 16 then 16 else 8; let len := fieldAt v 4 2;
    let wick := fieldAt v 2 2; let cls := classify y c (v.take (hl + len)) (fieldAt v (hl + len) 4) (fieldAt v (hl + len + 4) 4);
    let ses := fieldAt v (hl + len + 8) 4; let iv := packFields [(2, y.src), (2, y.index % 4096), (4, ses), (4, match cls with | .pass n => n | _ => 0)];
    let tagOk := keyUsable y.keySlot s && gmac (keyOf y.keySlot s).data iv (v.take (hl + len + 12)) == (v.drop (hl + len + 12)).take 16;
    let genuine := isOpenCh y = true → tagOk = true ∧ (c.session = none ∨ c.session = some ses); let fresh := fun (lost : Nat) => (hasWick y = true → wickCheck y c wick = .ok lost) ∧ (hasWick y = false → lost = 0);
    ∃ n, ∃ lost, c.st = .openSt ∧ cls = .pass n ∧ fresh lost ∧ genuine ∧ y.border = true ∧ bit (fieldAt v 1 1) 0 = true)
    ∧ (∃ dt : Nat, ∃ x : TelIn, ∃ s : State, s.pwr.phase = .running ∧ let eth := decide (x.port.val < 4); let q := linkIn (x.port.val - 4) x.link x.data (begin' dt s);
    let b := if eth then begin' dt s else q.2; let v := if eth then x.data else linkTel x; let go := if eth then bit (rv 0x0A0000 s) x.port.val else q.1;
    let mt := telMatch x.port.val (if eth then x.tag.toNat else bits x.link.head.toNat 32 16) s; ∃ y, go = true ∧ mt = some y ∧
    let c := chan y.index s; let hl := if 2 ≤ y.tver / 16 then 16 else 8; let len := fieldAt v 4 2; let wick := fieldAt v 2 2;
    let cls := classify y c (v.take (hl + len)) (fieldAt v (hl + len) 4) (fieldAt v (hl + len + 4) 4); let ses := fieldAt v (hl + len + 8) 4;
    let iv := packFields [(2, y.src), (2, y.index % 4096), (4, ses), (4, match cls with | .pass n => n | _ => 0)]; let tagOk := keyUsable y.keySlot s && gmac (keyOf y.keySlot s).data iv (v.take (hl + len + 12)) == (v.drop (hl + len + 12)).take 16;
    let genuine := isOpenCh y = true → tagOk = true ∧ (c.session = none ∨ c.session = some ses); let fresh := fun (lost : Nat) => (hasWick y = true → wickCheck y c wick = .ok lost) ∧ (hasWick y = false → lost = 0);
    ∃ n, ∃ lost, c.st = .openSt ∧ cls = .pass n ∧ fresh lost ∧ genuine ∧ y.border = false ∧ y.latReq = false ∧ rf 0x0C0000 0 1 s = 1 ∧
    y.ring < 64 ∧ s.rings.length = 64 ∧ (ring y.ring s).lostRaise = false ∧ cellsFor y.ring ((((v.take (hl + len)).drop hl).length + 255) / 256) s = true ∧
    let data := (v.take (hl + len)).drop hl; let desc := packFields [(4, handleOf c), (4, data.length + 2 ^ 24 * (fieldAt v 1 1 % 16)), (4, if hasFold y then n else 0), (2, wick), (2, lost), (8, now b), (8, 0)];
    (itemEntries desc data).length ≤ ringFree y.ring s) := by
  refine ⟨?_, ?_, ?_, ?_, ?_, ?_, ?_, ?_⟩
  · exact ⟨0, (rx t3 (tel t3 8 4 1 [1,2,3] 77)), ({ S [o 3 1 (some 3) 7 none, o 4 2 (some 3) 1 none, o 5 3 none 8 none, o 6 1 none 1 none] bs with cfg.bindings := [{ point := 5, output := false, kind := 1, idx := 3, off := 1, width := 1 }], cfg.rings := List.replicate 64 ((3 : Nat) + 2^25 * 100 + 2^12), regs := [(0x0A0000, 1), (0x0C0000, 1)] }), by decide +kernel⟩
  · exact ⟨0, (rx { t4 with mtch := 9 } (tel t4 1 3 0 [5,6] 0)), (S [] bs), by decide +kernel⟩
  · exact ⟨0, (rx t3 (tel t3 8 4 1 [1,2,3] 77)), (S [] bs), by decide +kernel, _, by decide +kernel, (Option.eq_some_of_isSome (by decide +kernel)), by decide +kernel⟩
  · exact ⟨0, (rx t3 (tel t3 8 4 1 [1,2,3] 77 1)), (S [o 3 1 (some 3) 7 none, o 4 2 (some 3) 1 none, o 5 3 none 8 none, o 6 1 none 1 none] bs), by decide +kernel, _, by decide +kernel, (Option.eq_some_of_isSome (by decide +kernel)), 0x0B0060, by decide +kernel⟩
  · exact ⟨0, (rx t3 (tel t3 8 3 1 [1,2,3] 77)), (S [o 3 1 (some 3) 7 none, o 4 2 (some 3) 1 none, o 5 3 none 8 none, o 6 1 none 1 none] bs), by decide +kernel, _, by decide +kernel, (Option.eq_some_of_isSome (by decide +kernel)), 8, 0x0B006C, _, by decide +kernel, by decide +kernel, by decide +kernel, (Option.eq_some_of_isSome (by decide +kernel)), by decide +kernel⟩
  · exact ⟨0, (rx t3 (tel t3 9 6 1 (List.replicate 40 1) 78)), (S [o 3 1 none 8 (some 77), o 4 2 none 1 none, o 5 3 none 8 none, o 6 1 (some 0) 1 (some 2)] bs), by decide +kernel, _, by decide +kernel, (Option.eq_some_of_isSome (by decide +kernel)), 9, 0, by decide +kernel, by decide +kernel, ⟨by intro h; first | rfl | exact absurd h (by decide +kernel), by decide +kernel⟩, by decide +kernel, Or.inr ⟨_, rfl, by decide +kernel⟩⟩
  · exact ⟨0, (rx t5 (tel t5 8 4 1 (List.replicate 20 3) 0)), (S [o 3 1 (some 3) 7 none, o 4 2 (some 3) 1 none, o 5 3 none 8 none, o 6 1 none 1 none] bs), by decide +kernel, _, by decide +kernel, (Option.eq_some_of_isSome (by decide +kernel)), 8, 0, by decide +kernel, by decide +kernel, ⟨by intro h; first | rfl | exact absurd h (by decide +kernel), by decide +kernel⟩, by decide +kernel⟩
  · exact ⟨0, ((rx t6 (tel t6 1 0 1 [1, 2, 3] 0))), (S [o 3 1 (some 3) 7 none, o 4 2 (some 3) 1 none, o 5 3 none 8 none, o 6 1 none 1 none] bs), by decide +kernel, _, by decide +kernel, (Option.eq_some_of_isSome (by decide +kernel)), 1, 0, by decide +kernel, by decide +kernel, ⟨by intro h; first | rfl | exact absurd h (by decide +kernel), by decide +kernel⟩, by decide +kernel⟩

end ForTelegramReception

namespace ForEthernetFrameEffects

def f88 (ty : Nat) (m v : Nat) : List Byte := List.replicate 12 1#8 ++ beBytes 2 ty ++ leBytes 1 m ++ leBytes 1 v ++ List.replicate 40 5#8
def S (s : State) : State :=
  { s with regs := [(0x0A0000, 11), (0x0A0100, 1), (0x0C0000, 1)], cfg.rings := List.replicate 64 ((6 : Nat) + 2^25 * 100), rings := List.replicate 64 ({} : Ring) }

/-- States and operands that meet the hypotheses of `Obligations.EthernetFrameEffects`. -/
theorem witness_EthernetFrameEffects :
    (∃ p : Fin 4, ∃ q : Fin 4, ∃ b : List Byte, ∃ ns : Nat, ∃ s : State, powered s = true ∧ s.pwr.phase ≠ .stopped ∧ bit (rv 0x0A0000 s) p.val = true ∧
    bit (rv 0x0A0000 s) q.val = true ∧ ptpEvent b = true ∧ rf 0x0A0100 0 1 s = 1 ∧ ns ≤ 1000000)
    ∧ (∃ p : Fin 4, ∃ q : Fin 4, ∃ b : List Byte, ∃ ns : Nat, ∃ s : State, powered s = true ∧ s.pwr.phase ≠ .stopped ∧ bit (rv 0x0A0000 s) p.val = true ∧
    bit (rv 0x0A0000 s) q.val = true ∧ ptpEvent b = true ∧ rf 0x0A0100 0 1 s = 1 ∧ 1000000 < ns)
    ∧ (∃ p : Fin 4, ∃ q : Fin 4, ∃ b : List Byte, ∃ s : State, powered s = true ∧ s.pwr.phase ≠ .stopped ∧ bit (rv 0x0A0000 s) p.val = true ∧
    bit (rv 0x0A0000 s) q.val = true ∧ (ptpAt b).isSome = true ∧ (ptpEvent b = false ∨ rf 0x0A0100 0 1 s = 0))
    ∧ (∃ p : Fin 4, ∃ q : Fin 4, ∃ b : List Byte, ∃ s : State, powered s = true ∧ s.pwr.phase ≠ .stopped ∧ bit (rv 0x0A0000 s) p.val = true ∧
    bit (rv 0x0A0000 s) q.val = true ∧ ptpAt b = none)
    ∧ (∃ p : Fin 4, ∃ s : State, powered s = true ∧ s.pwr.phase ≠ .stopped ∧ bit (rv 0x0A0000 s) p.val = false)
    ∧ (∃ dt : Nat, ∃ p : Fin 4, ∃ b : List Byte, ∃ s : State, powered s = true ∧ s.pwr.phase ≠ .stopped ∧ bit (rv 0x0A0000 s) p.val = true ∧
    rf 0x0C0000 0 1 s = 1 ∧ s.rings.length = 64 ∧ let r := 12 + 8 * p.val + ethClass b; let desc := packFields [(4, 0), (4, b.length % 2048), (8, 0), (8, now (begin' dt s)), (8, if ptpEvent b then (begin' dt s).civ.ns else 0)];
    (ring r s).lostRaise = false ∧ cellsFor r ((b.length + 255) / 256) s = true ∧ (itemEntries desc b).length ≤ ringFree r s)
    ∧ (∃ q : Fin 4, ∃ b : List Byte, ∃ s : State, powered s = true ∧ s.pwr.phase ≠ .stopped ∧ ptpEvent b = true ∧ bit (rv 0x0A0000 s) q.val = true ∧
    rf 0x0C0000 0 1 s = 0)
    ∧ (∃ dt : Nat, ∃ q : Fin 4, ∃ b : List Byte, ∃ s : State, powered s = true ∧ s.pwr.phase ≠ .stopped ∧ ptpEvent b = true ∧
    bit (rv 0x0A0000 s) q.val = true ∧ rf 0x0C0000 0 1 s = 1 ∧ s.rings.length = 64 ∧ let r := 13 + 8 * q.val; let desc := packFields [(4, 0), (4, 0), (8, 0), (8, now (begin' dt s)), (8, (begin' dt s).civ.ns)];
    (ring r s).lostRaise = false ∧ (itemEntries desc []).length ≤ ringFree r s)
    ∧ (∃ b : List Byte, ∃ s : State, powered s = true ∧ s.pwr.phase ≠ .stopped ∧ ptpEvent b = false) := by
  refine ⟨?_, ?_, ?_, ?_, ?_, ?_, ?_, ?_, ?_⟩
  · exact ⟨0, 0, (f88 0x88F7 0 2), 0, (S run), by decide +kernel⟩
  · exact ⟨0, 0, (f88 0x88F7 0 2), 1000001, (S run), by decide +kernel⟩
  · exact ⟨0, 0, (f88 0x88F7 0 2), ({ S run with regs := [(0x0A0000, 0xFFFFFFFF#32)] }), by decide +kernel⟩
  · exact ⟨0, 0, (f88 0x88B5 1 1), (S run), by decide +kernel⟩
  · exact ⟨2, (S run), by decide +kernel⟩
  · exact ⟨0, 0, (f88 0x88F7 0 2), (S run), by decide +kernel⟩
  · exact ⟨0, (f88 0x88F7 0 2), ({S run with civ := { ns := 12345 }, regs := [(0x0A0000, 15), (0x0A0110, 500), (0x0A0104, 0xFFFFFFFF#32)]}), by decide +kernel⟩
  · exact ⟨0, 0, (f88 0x88F7 0 2), (S run), by decide +kernel⟩
  · exact ⟨(f88 0x88F7 8 2), (S run), by decide +kernel⟩

end ForEthernetFrameEffects

namespace ForLatticeRequestsAnswered

/-- States and operands that meet the hypotheses of `Obligations.LatticeRequestsAnswered`. -/
theorem witness_LatticeRequestsAnswered :
    ∃ dt : Nat, ∃ q : LatReq, ∃ s : State, let b := begin' dt s; nextRequest b = some q ∧ s.lat.reqQ = [q] ∧ q.busy = false :=
  ⟨0, { entry := List.replicate 32 1 }, { run with lat.reqQ := [{ entry := List.replicate 32 1 }] }, by decide +kernel⟩

end ForLatticeRequestsAnswered

namespace ForLatticeDecisions

/-- States and operands that meet the hypotheses of `Obligations.LatticeDecisions`. -/
theorem witness_LatticeDecisions :
    (∃ q : LatReq, ∃ s : State, commonInvalid q = none ∧ Memory.wf s.mem = true ∧ let r := qTarget q.entry; let x := routeRec r s.mem;
    ∃ j, routeKnown r s = true ∧ checked x s = true ∧ codeBad r x s = false ∧ rState r s.mem = rIdle ∧ j < 4096 ∧ (memGet (0x100000000 + 512 * r + j / 8) s.mem).toNat.testBit (j % 8) = true ∧
    rState j s.mem ≠ rIdle ∧ (∀ i, i < j → (memGet (0x100000000 + 512 * r + i / 8) s.mem).toNat.testBit (i % 8) = true → rState i s.mem = rIdle))
    ∧ (∃ q : LatReq, ∃ s : State, commonInvalid q = none ∧ Memory.wf s.mem = true ∧ let r := qTarget q.entry; let x := routeRec r s.mem;
    routeKnown r s = true ∧ checked x s = true ∧ codeBad r x s = false ∧ rState r s.mem ≠ rIdle ∧ rState r s.mem ≠ rLocked ∧
    rState r s.mem ≠ rProved)
    ∧ (∃ q : LatReq, ∃ s : State, commonInvalid q = none ∧ Memory.wf s.mem = true ∧ let r := qTarget q.entry; let x := routeRec r s.mem;
    routeKnown r s = true ∧ checked x s = true ∧ codeBad r x s = false ∧ rState r s.mem ≠ rPermit ∧ rState r s.mem ≠ rLocked ∧
    rState r s.mem ≠ rProved)
    ∧ (∃ q : LatReq, ∃ s : State, commonInvalid q = none ∧ Memory.wf s.mem = true ∧ let r := qTarget q.entry; routeKnown r s = false)
    ∧ (∃ q : LatReq, ∃ s : State, commonInvalid q = none ∧ Memory.wf s.mem = true ∧ let r := qTarget q.entry; tyOf r s.mem = 0)
    ∧ (∃ q : LatReq, ∃ s : State, commonInvalid q = none ∧ Memory.wf s.mem = true ∧ let r := qTarget q.entry; tyOf r s.mem ≠ 0 ∧
    tyOf r s.mem ≠ 7 ∧ ∃ c, ((lockOf r s.mem = lockRoute ∧ c = 3) ∨ (lockOf r s.mem = lockOverlap ∧ c = 3) ∨ (lockOf r s.mem = lockFlank ∧ c = 4) ∨ (lockOf r s.mem = lockFree ∧ flankCnt r s.mem ≠ 0 ∧ c = 4) ∨ (lockOf r s.mem = lockBlocked ∧ c = 5) ∨ (lockOf r s.mem = lockHeld ∧ c = 6)))
    ∧ (∃ q : LatReq, ∃ s : State, commonInvalid q = none ∧ Memory.wf s.mem = true ∧ let r := qTarget q.entry; tyOf r s.mem ≠ 0 ∧
    tyOf r s.mem ≠ 7 ∧ lockOf r s.mem = lockFree ∧ flankCnt r s.mem = 0)
    ∧ (∃ q : LatReq, ∃ s : State, commonInvalid q = none ∧ Memory.wf s.mem = true ∧ let r := qTarget q.entry; tyOf r s.mem ≠ 0 ∧
    lockOf r s.mem = lockBlocked)
    ∧ (∃ q : LatReq, ∃ s : State, commonInvalid q = none ∧ Memory.wf s.mem = true ∧ let r := qTarget q.entry; tyOf r s.mem ≠ 0 ∧
    lockOf r s.mem ≠ lockBlocked)
    ∧ (∃ q : LatReq, ∃ s : State, commonInvalid q = none ∧ Memory.wf s.mem = true ∧ let r := qTarget q.entry; tyOf r s.mem ≠ 0 ∧
    tyOf r s.mem ≠ 2)
    ∧ (∃ q : LatReq, ∃ s : State, commonInvalid q = none ∧ Memory.wf s.mem = true ∧ let r := qTarget q.entry; tyOf r s.mem = 2 ∧
    stateOf r s.mem = 0)
    ∧ (∃ q : LatReq, ∃ s : State, commonInvalid q = none ∧ Memory.wf s.mem = true ∧ let r := qTarget q.entry; tyOf r s.mem = 2 ∧
    lockOf r s.mem = lockFree ∧ flankCnt r s.mem = 0 ∧ (stateOf r s.mem = 0x24DB ∨ stateOf r s.mem = 0x27D8))
    ∧ (∃ q : LatReq, ∃ s : State, commonInvalid q = none ∧ Memory.wf s.mem = true ∧ let r := qTarget q.entry; ∃ p, tyOf r s.mem = 2 ∧
    lockOf r s.mem = lockFree ∧ flankCnt r s.mem = 0 ∧ (stateOf r s.mem = 0x21DE ∧ p = 1 ∨ stateOf r s.mem = 0x22DD ∧ p = 2))
    ∧ (∃ q : LatReq, ∃ s : State, commonInvalid q = none ∧ Memory.wf s.mem = true ∧ let r := qTarget q.entry; tyOf r s.mem ≠ 0 ∧
    lockOf r s.mem = lockHeld)
    ∧ (∃ q : LatReq, ∃ s : State, commonInvalid q = none ∧ Memory.wf s.mem = true ∧ let r := qTarget q.entry; let w := memNat (elemAddr r) 8 s.mem;
    tyOf r s.mem = 7 ∧ objectController s = false ∧ (qStep q.entry = 2 ∧ bits w 0 16 ≠ 0x7B84 ∨ qStep q.entry = 2 ∧ sinceStep1 r (qArr q.entry) 5 s = false ∨ qStep q.entry = 1 ∧ bits w 0 16 = 0x7B84))
    ∧ (∃ q : LatReq, ∃ s : State, commonInvalid q = none ∧ Memory.wf s.mem = true ∧ let r := qTarget q.entry; let w := memNat (elemAddr r) 8 s.mem;
    tyOf r s.mem = 7 ∧ objectController s = false ∧ qStep q.entry = 1 ∧ bits w 0 16 ≠ 0x7B84) := by
  refine ⟨?_, ?_, ?_, ?_, ?_, ?_, ?_, ?_, ?_, ?_, ?_, ?_, ?_, ?_, ?_, ?_⟩
  · exact ⟨(req 1 1), { run with mem := memSetList (0x100000000 + 512) [4] (txWrite (routeAddr 2) 0xF30C { m := route1 0xE11E }).m }, by decide +kernel, by decide +kernel, 2, by decide +kernel⟩
  · exact ⟨(req 1 1), { run with mem := route1 0xEB14 }, by decide +kernel⟩
  · exact ⟨(req 2 1), { run with mem := route1 0xE11E }, by decide +kernel⟩
  · exact ⟨(req 1 100), { run with mem := [] }, by decide +kernel⟩
  · exact ⟨(req 3 999), { run with mem := [] }, by decide +kernel⟩
  · exact ⟨(req 3 9), { run with mem := elem 9 (0x11EE + 2 ^ 16 * 0x9A65) 1 [] }, by decide +kernel, by decide +kernel, by decide +kernel, by decide +kernel, _, Or.inl ⟨by decide +kernel, rfl⟩⟩
  · exact ⟨(req 3 9), { run with mem := elem 9 (0x11EE + 2 ^ 16 * 0x9966) 1 [] }, by decide +kernel⟩
  · exact ⟨(req 4 9), { run with mem := elem 9 (0x11EE + 2 ^ 16 * 0xA55A) 1 [] }, by decide +kernel⟩
  · exact ⟨(req 4 9), { run with mem := elem 9 (0x11EE + 2 ^ 16 * 0x9966) 1 [] }, by decide +kernel⟩
  · exact ⟨(req 5 9), { run with mem := elem 9 (0x11EE + 2 ^ 16 * 0x9966) 1 [] }, by decide +kernel⟩
  · exact ⟨(req 5 9), { run with mem := elem 9 (0 + 2 ^ 16 * 0x9966) 2 [] }, by decide +kernel⟩
  · exact ⟨(req 5 9), { run with mem := elem 9 (0x24DB + 2 ^ 16 * 0x9966) 2 [] }, by decide +kernel⟩
  · exact ⟨(req 5 9), { run with mem := elem 9 (0x22DD + 2 ^ 16 * 0x9966) 2 [] }, by decide +kernel, by decide +kernel, 2, by decide +kernel⟩
  · exact ⟨(req 6 9), { run with mem := elem 9 (0x22DD + 2 ^ 16 * 0xA659) 2 [] }, by decide +kernel⟩
  · exact ⟨(req 7 9 1), { run with mem := elem 9 (0x7B84 + 2 ^ 16 * 0x9966) 7 [] }, by decide +kernel⟩
  · exact ⟨(req 7 9 1), { run with mem := elem 9 (0x7887 + 2 ^ 16 * 0x9966) 7 [] }, by decide +kernel⟩

end ForLatticeDecisions

namespace ForLatticeUpdatesAndTimers

/-- States and operands that meet the hypotheses of `Obligations.LatticeUpdatesAndTimers`. -/
theorem witness_LatticeUpdatesAndTimers :
    (∃ dt : Nat, ∃ u : EngineIn, ∃ s : State, let b := begin' dt s; let v := engineFindings u.hits b; let sees := latRuns b = true ∧ latRuns v = true ∧ engineReads u.hits v = true ∧ u.disagree = false;
    ∃ e, sees ∧ nextUpdate b = some e ∧ s.lat.updQ = [e] ∧ s.lat.reqQ = [] ∧ (ring 50 s).entries = [] ∧ updateBad e v = true)
    ∧ (∃ dt : Nat, ∃ u : EngineIn, ∃ s : State, let b := begin' dt s; let v := engineFindings u.hits b; let sees := latRuns b = true ∧ latRuns v = true ∧ engineReads u.hits v = true ∧ u.disagree = false;
    ∃ e, sees ∧ nextUpdate b = some e ∧ s.lat.updQ = [e] ∧ s.lat.reqQ = [] ∧ (ring 50 s).entries = [] ∧ updateBad e v = false ∧
    let m := qTarget e; let code := if (stateCodes (tyOf m v.mem) (coded m v.mem)).contains (qState e) = true then qState e else 0;
    let x := setBits (setBits (memNat (elemAddr m) 8 v.mem) 0 16 code) 56 8 0; let tx := settle settleFuel { txElem m x (txOf v) with chg := if bits (memNat (elemAddr m) 8 v.mem) 0 16 = code then none else some m };
    tx.check = false ∧ tx.bad = false ∧ journalBytes v + (16 + 16 * tx.words.length) ≤ 262144)
    ∧ (∃ dt : Nat, ∃ u : EngineIn, ∃ r : Fin 4096, ∃ s : State, let b := begin' dt s; let v := engineFindings u.hits b; let sees := latRuns b = true ∧ latRuns v = true ∧ engineReads u.hits v = true ∧ u.disagree = false;
    sees ∧ rState r.val v.mem = rCancel ∧ timerDone (rWord r.val v.mem) (routeRec r.val v.mem).cancelTime false r.val (txOf v) = true ∧
    checked (routeRec r.val v.mem) v = true ∧ codeBad r.val (routeRec r.val v.mem) v = false)
    ∧ (∃ dt : Nat, ∃ u : EngineIn, ∃ r : Fin 4096, ∃ s : State, let b := begin' dt s; let v := engineFindings u.hits b; let sees := latRuns b = true ∧ latRuns v = true ∧ engineReads u.hits v = true ∧ u.disagree = false;
    sees ∧ (rState r.val v.mem ≠ rCancel ∨ checked (routeRec r.val v.mem) v = true ∧ timerDone (rWord r.val v.mem) (routeRec r.val v.mem).cancelTime false r.val (txOf v) = false))
    ∧ (∃ dt : Nat, ∃ u : EngineIn, ∃ r : Fin 4096, ∃ s : State, let b := begin' dt s; let v := engineFindings u.hits b; let sees := latRuns b = true ∧ latRuns v = true ∧ engineReads u.hits v = true ∧ u.disagree = false;
    sees ∧ rState r.val v.mem = rApproach ∧ timerDone (rWord r.val v.mem) (routeRec r.val v.mem).apprTime false r.val (txOf v) = true ∧
    checked (routeRec r.val v.mem) v = true ∧ codeBad r.val (routeRec r.val v.mem) v = false)
    ∧ (∃ dt : Nat, ∃ u : EngineIn, ∃ r : Fin 4096, ∃ s : State, let b := begin' dt s; let v := engineFindings u.hits b; let sees := latRuns b = true ∧ latRuns v = true ∧ engineReads u.hits v = true ∧ u.disagree = false;
    sees ∧ (rState r.val v.mem ≠ rApproach ∨ checked (routeRec r.val v.mem) v = true ∧ timerDone (rWord r.val v.mem) (routeRec r.val v.mem).apprTime false r.val (txOf v) = false))
    ∧ (∃ dt : Nat, ∃ u : EngineIn, ∃ o : Fin 2048, ∃ s : State, let b := begin' dt s; let v := engineFindings u.hits b; let sees := latRuns b = true ∧ latRuns v = true ∧ engineReads u.hits v = true ∧ u.disagree = false;
    sees ∧ bits (oWord o.val v.mem) 0 16 = ovTiming ∧ timerDone (oWord o.val v.mem) (ovRec o.val v.mem).time true o.val (txOf v) = true)
    ∧ (∃ dt : Nat, ∃ u : EngineIn, ∃ o : Fin 2048, ∃ s : State, let b := begin' dt s; let v := engineFindings u.hits b; let sees := latRuns b = true ∧ latRuns v = true ∧ engineReads u.hits v = true ∧ u.disagree = false;
    sees ∧ (bits (oWord o.val v.mem) 0 16 ≠ ovTiming ∨ (ovRec o.val v.mem).ok = true ∧ timerDone (oWord o.val v.mem) (ovRec o.val v.mem).time true o.val (txOf v) = false))
    ∧ (∃ dt : Nat, ∃ u : EngineIn, ∃ n : Fin 16384, ∃ s : State, let b := begin' dt s; let v := engineFindings u.hits b; let w := memNat (elemAddr n.val) 8 v.mem;
    let sees := latRuns b = true ∧ latRuns v = true ∧ engineReads u.hits v = true ∧ u.disagree = false; sees ∧ tyOf n.val v.mem = 7 ∧
    bits w 0 16 = 0x7B84 ∧ zoneDue n.val v = true)
    ∧ (∃ dt : Nat, ∃ u : EngineIn, ∃ n : Fin 16384, ∃ s : State, let b := begin' dt s; let v := engineFindings u.hits b; let w := memNat (elemAddr n.val) 8 v.mem;
    let sees := latRuns b = true ∧ latRuns v = true ∧ engineReads u.hits v = true ∧ u.disagree = false; sees ∧ (tyOf n.val v.mem ≠ 7 ∨ bits w 0 16 ≠ 0x7B84 ∨ zoneDue n.val v = false))
    ∧ (∃ dt : Nat, ∃ u : EngineIn, ∃ n : Fin 16384, ∃ s : State, let b := begin' dt s; let v := engineFindings u.hits b; let w := memNat (elemAddr n.val) 8 v.mem;
    let sees := latRuns b = true ∧ latRuns v = true ∧ engineReads u.hits v = true ∧ u.disagree = false; sees ∧ bit (elemConf n.val v.mem) 4 = true ∧
    tyOf n.val v.mem ≠ 0 ∧ tyOf n.val v.mem ≠ 7 ∧ bits w 0 16 ≠ 0 ∧ s.cfg.borderTimeout < bits w 56 8)
    ∧ (∃ dt : Nat, ∃ u : EngineIn, ∃ n : Fin 16384, ∃ s : State, let b := begin' dt s; let v := engineFindings u.hits b; let w := memNat (elemAddr n.val) 8 v.mem;
    let sees := latRuns b = true ∧ latRuns v = true ∧ engineReads u.hits v = true ∧ u.disagree = false; sees ∧ (bit (elemConf n.val v.mem) 4 = false ∨ tyOf n.val v.mem = 0 ∨ tyOf n.val v.mem = 7 ∨ bits w 0 16 = 0 ∨ bits w 56 8 ≤ s.cfg.borderTimeout))
    ∧ (∃ dt : Nat, ∃ s : State, let b := begin' dt s; s.lat.reqQ = [] ∧ latRuns b = false)
    ∧ (∃ dt : Nat, ∃ u : EngineIn, ∃ r : Fin 4096, ∃ o : Fin 2048, ∃ n : Fin 16384, ∃ s : State, let b := begin' dt s; let v := engineFindings u.hits b;
    ∃ i, i ∈ ([.update dt u, .cancelTimeExpiry dt (r, u), .approachTimeExpiry dt (r, u), .overlapTimeExpiry dt (o, u), .zoneLapse dt (n, u), .borderTimeout dt (n, u)] : List Instr) ∧
    s.lat.reqQ = [] ∧ latRuns b = true ∧ latRuns v = true ∧ engineReads u.hits v = true ∧ u.disagree = true ∧
    v.tri.lattice.used = false ∧ (i = .update dt u → (nextUpdate b).isSome = true))
    ∧ (∃ s : State, ∃ x, s.lat.waiting = some x ∧ s.pwr.phase = .running ∧ s.rings.length = 64 ∧ ringFree 51 s ≠ 0 ∧ (∀ y ∈ s.lat.reqQ, y.busy = false))
    ∧ (∃ s : State, ∃ x, s.lat.waiting = some x ∧ s.pwr.phase = .running ∧ s.rings.length = 64 ∧ ringFree 51 s = 0)
    ∧ (∃ dt : Nat, ∃ s : State, let b := begin' dt s; ∃ x, s.lat.waiting = some x ∧ s.pwr.phase = .running ∧ s.rings.length = 64 ∧
    s.lat.pauseSeen = false ∧ cycleUs s < (b.clk.up - s.lat.pausedAt) / 100) := by
  refine ⟨?_, ?_, ?_, ?_, ?_, ?_, ?_, ?_, ?_, ?_, ?_, ?_, ?_, ?_, ?_, ?_, ?_⟩
  · exact ⟨0, { disagree := false }, { run with mem := [], lat.updQ := [upd 8 0x12ED], rings := List.replicate 64 {} }, _, by decide +kernel, (Option.eq_some_of_isSome (by decide +kernel)), by decide +kernel⟩
  · exact ⟨0, { disagree := false }, { run with mem := elem 1 (0x11EE + 2 ^ 16 * 0x9966) 1 [], lat.updQ := [upd 1 0x12ED], rings := List.replicate 64 {} }, _, by decide +kernel, (Option.eq_some_of_isSome (by decide +kernel)), by decide +kernel⟩
  · exact ⟨0, { disagree := false }, 1, { run with mem := route1 (0xF30C + 2 ^ 32 * 100) }, by decide +kernel⟩
  · exact ⟨0, { disagree := false }, 1, run, by decide +kernel⟩
  · exact ⟨0, { disagree := false }, 1, { run with mem := route1 (0xF00F + 2 ^ 32 * 100) (2 ^ 20 * 2) }, by decide +kernel⟩
  · exact ⟨0, { disagree := false }, 1, run, by decide +kernel⟩
  · exact ⟨0, { disagree := false }, 2, { run with mem := (txWrite (ovAddr 2) (0xC639 + 2 ^ 16 * 3 + 2 ^ 32 * 100) { m := [] }).m }, by decide +kernel⟩
  · exact ⟨0, { disagree := false }, 1, run, by decide +kernel⟩
  · exact ⟨0, { disagree := false }, 12, { run with mem := elem 12 (0x7B84 + 2 ^ 16 * 0x9966 + 2 ^ 32 * 4900) (7 + 2 ^ 20 * 6) [], clk.cycle := 99999 }, by decide +kernel⟩
  · exact ⟨0, { disagree := false }, 1, run, by decide +kernel⟩
  · exact ⟨0, { disagree := false }, 8, { run with mem := elem 8 (0x11EE + 2 ^ 16 * 0x9966 + 2 ^ 56 * 9) 0x11 [] }, by decide +kernel⟩
  · exact ⟨0, { disagree := false }, 1, run, by decide +kernel⟩
  · exact ⟨0, { run with tri.lattice := { restart := some 3 } }, by decide +kernel⟩
  · exact ⟨0, { disagree := true }, 1, 1, 1, run, (.cancelTimeExpiry 0 (1, { disagree := true })), by decide +kernel⟩
  · exact ⟨{ run with lat.waiting := some {}, rings := List.replicate 64 { entries := [] }, cfg.rings := List.replicate 64 2, lat.pausedAt := 0 }, _, rfl, by decide +kernel⟩
  · exact ⟨{ run with lat.waiting := some {}, rings := List.replicate 64 { entries := [[]] } }, _, rfl, by decide +kernel⟩
  · exact ⟨0, { run with lat.waiting := some {}, rings := List.replicate 64 { entries := [] }, cfg.rings := List.replicate 64 2, lat.pausedAt := 0 }, _, rfl, by decide +kernel⟩

end ForLatticeUpdatesAndTimers

namespace ForFieldInputEvents

def inp (f fl : Nat) : Nat := 1 + fl + f * 2 ^ 29
def base : State := { run with clk := { run.clk with up := 100000000 }, cfg.pins := [inp 1 0, 1+inp 2 64, inp 1 (0x80), 2 + 2^29, 3 + 4*65536, 4 + 16 + 5 * 65536, 3 + 8 + 6*65536, 4 + 32 + 7 * 65536] ++ List.replicate 16 0 ++ (List.range 8).map (fun n => 3 + 8 + n * 65536), cfg.edgeRing := 5, cfg.rings := List.replicate 64 0x00180018, rings := List.replicate 64 {}, cfg.progBlocks := 2 ^ 32 - 1, mem := [(0x100400000 + 8, 6)] }
def rsField (s : State) : State := { s with tri.field.restart := some 0 }
def wp (f : Pin → Pin) : State := { base with fio.pins := base.fio.pins.map f }

/-- States and operands that meet the hypotheses of `Obligations.FieldInputEvents`. -/
theorem witness_FieldInputEvents :
    (∃ n : Fin 32, ∃ s : State, powered s = true ∧ s.fio.pins.length = 32 ∧ s.fio.groups.length = 4 ∧ s.snu.g.length = 4 ∧
    let p := pin n.val s; isInput n.val s = true ∧ ∃ mv : Nat, ∃ width : Nat, ∃ dis : Bool, levelCode (pinMode n.val s) mv ≠ p.raw ∧
    200 ≤ width ∧ fieldRestarting s = false ∧ dis = false ∧ bit (pinWord n.val s) 6 = false)
    ∧ (∃ n : Fin 32, ∃ s : State, powered s = true ∧ s.fio.pins.length = 32 ∧ s.fio.groups.length = 4 ∧ s.snu.g.length = 4 ∧
    let p := pin n.val s; isInput n.val s = true ∧ ∃ mv : Nat, ∃ width : Nat, ∃ dis : Bool, levelCode (pinMode n.val s) mv ≠ p.raw ∧
    200 ≤ width ∧ fieldRestarting s = false ∧ dis = false ∧ bit (pinWord n.val s) 6 = true ∧ ringFree s.cfg.edgeRing s ≠ 0 ∧
    s.cfg.edgeRing < 64 ∧ s.rings.length = 64)
    ∧ (∃ n : Fin 32, ∃ s : State, powered s = true ∧ s.fio.pins.length = 32 ∧ s.fio.groups.length = 4 ∧ s.snu.g.length = 4 ∧
    let p := pin n.val s; isInput n.val s = true ∧ ∃ mv : Nat, ∃ width : Nat, levelCode (pinMode n.val s) mv ≠ p.raw ∧
    width < 200)
    ∧ (∃ n : Fin 32, ∃ s : State, powered s = true ∧ s.fio.pins.length = 32 ∧ s.fio.groups.length = 4 ∧ s.snu.g.length = 4 ∧
    let p := pin n.val s; isInput n.val s = true ∧ ∃ mv : Nat, ∃ width : Nat, levelCode (pinMode n.val s) mv ≠ p.raw ∧
    200 ≤ width ∧ fieldRestarting s = true)
    ∧ (∃ n : Fin 32, ∃ s : State, powered s = true ∧ s.fio.pins.length = 32 ∧ s.fio.groups.length = 4 ∧ s.snu.g.length = 4 ∧
    let p := pin n.val s; isInput n.val s = true ∧ ∃ mv : Nat, ∃ width : Nat, ∃ dis : Bool, levelCode (pinMode n.val s) mv ≠ p.raw ∧
    200 ≤ width ∧ fieldRestarting s = false ∧ dis = true ∧ s.tri.field.used = false)
    ∧ (∃ dt : Nat, ∃ n : Fin 32, ∃ s : State, powered s = true ∧ s.fio.pins.length = 32 ∧ s.fio.groups.length = 4 ∧
    s.snu.g.length = 4 ∧ let b := begin' dt s; let p := pin n.val s; isInput n.val s = true ∧ p.raw ≠ 2 ∧ fieldRestarting s = false ∧
    p.couplerLost = false ∧ unpoweredNow (n.val / 8) s = false ∧ filterUp n.val s ≤ b.clk.up - p.rawUp ∧ (p.raw == 1) ≠ p.filtered ∧
    p.inBand = false ∧ elemBind n.val s = false ∧ bit (pinWord n.val s) 6 = false)
    ∧ (∃ dt : Nat, ∃ n : Fin 32, ∃ s : State, powered s = true ∧ s.fio.pins.length = 32 ∧ s.fio.groups.length = 4 ∧
    s.snu.g.length = 4 ∧ let b := begin' dt s; let p := pin n.val s; isInput n.val s = true ∧ p.raw ≠ 2 ∧ fieldRestarting s = false ∧
    p.couplerLost = false ∧ unpoweredNow (n.val / 8) s = false ∧ b.clk.up - p.rawUp < filterUp n.val s)
    ∧ (∃ dt : Nat, ∃ n : Fin 32, ∃ s : State, powered s = true ∧ s.fio.pins.length = 32 ∧ s.fio.groups.length = 4 ∧
    s.snu.g.length = 4 ∧ let b := begin' dt s; let p := pin n.val s; isInput n.val s = true ∧ p.raw = 2 ∧ p.inBand = false ∧
    p.posted = false ∧ filterUp n.val s < b.clk.up - p.rawUp)
    ∧ (∃ dt : Nat, ∃ n : Fin 32, ∃ s : State, powered s = true ∧ s.fio.pins.length = 32 ∧ s.fio.groups.length = 4 ∧
    s.snu.g.length = 4 ∧ let b := begin' dt s; let p := pin n.val s; pinMode n.val s ≠ 0 ∧ p.couplerLost = false ∧
    fieldRestarting s = false ∧ p.posted = false ∧ usUp 20 ≤ b.clk.up - p.msgAt)
    ∧ (∃ s : State, powered s = true ∧ s.fio.pins.length = 32 ∧ s.fio.groups.length = 4 ∧ s.snu.g.length = 4 ∧ ∃ m : StatusMsg,
    fieldRestarting s = false ∧ m.disagree = false ∧ m.good = false)
    ∧ (∃ s : State, powered s = true ∧ s.fio.pins.length = 32 ∧ s.fio.groups.length = 4 ∧ s.snu.g.length = 4 ∧ ∃ m : StatusMsg,
    fieldRestarting s = false ∧ m.disagree = true ∧ s.tri.field.used = false)
    ∧ (∃ n : Fin 32, ∃ s : State, powered s = true ∧ s.fio.pins.length = 32 ∧ s.fio.groups.length = 4 ∧ s.snu.g.length = 4 ∧
    let p := pin n.val s; ∃ m : StatusMsg, fieldRestarting s = false ∧ m.disagree = false ∧ m.good = true ∧ isInput n.val s = true ∧
    p.cmd = false ∧ p.couplerLost = false)
    ∧ (∃ dt : Nat, ∃ n : Fin 32, ∃ s : State, powered s = true ∧ s.fio.pins.length = 32 ∧ s.fio.groups.length = 4 ∧
    s.snu.g.length = 4 ∧ let b := begin' dt s; let p := pin n.val s; ∃ m : StatusMsg, fieldRestarting s = false ∧
    m.disagree = false ∧ m.good = true ∧ isOutput n.val s = true ∧ p.cmd = false ∧ p.couplerLost = false ∧ p.stuckOn = false ∧
    120 ≤ m.vDv ∧ p.rb = true ∧ p.rbHigh = 1 ∧ p.testing = 0 ∧ p.testAt = 0 ∧ testShadow (n.val / 8) b = false ∧ usUp 300 ≤ b.clk.up - p.cmdAt) := by
  refine ⟨?_, ?_, ?_, ?_, ?_, ?_, ?_, ?_, ?_, ?_, ?_, ?_, ?_⟩
  · exact ⟨0, base, by decide +kernel, by decide +kernel, by decide +kernel, by decide +kernel, by decide +kernel, 12000, 200, false, by decide +kernel⟩
  · exact ⟨1, base, by decide +kernel, by decide +kernel, by decide +kernel, by decide +kernel, by decide +kernel, 12000, 200, false, by decide +kernel⟩
  · exact ⟨0, base, by decide +kernel, by decide +kernel, by decide +kernel, by decide +kernel, by decide +kernel, 12000, 0, by decide +kernel⟩
  · exact ⟨0, (rsField base), by decide +kernel, by decide +kernel, by decide +kernel, by decide +kernel, by decide +kernel, 12000, 200, by decide +kernel⟩
  · exact ⟨0, base, by decide +kernel, by decide +kernel, by decide +kernel, by decide +kernel, by decide +kernel, 12000, 200, true, by decide +kernel⟩
  · exact ⟨0, 0, ((wp (fun p => {p with raw := 1, rawAt := 77, rawUp := 100000000 - 20000}))), by decide +kernel⟩
  · exact ⟨0, 0, ((wp (fun p => {p with raw := 1, rawAt := 77, rawUp := 100000000 - 9999, filtered := true}))), by decide +kernel⟩
  · exact ⟨0, 0, ((wp (fun p => {p with raw := 2, rawUp := 1}))), by decide +kernel⟩
  · exact ⟨0, 0, base, by decide +kernel⟩
  · exact ⟨base, by decide +kernel, by decide +kernel, by decide +kernel, by decide +kernel, (⟨false,true,10,240,false⟩), by decide +kernel⟩
  · exact ⟨base, by decide +kernel, by decide +kernel, by decide +kernel, by decide +kernel, (⟨true,false,10,110,true⟩), by decide +kernel⟩
  · exact ⟨0, base, by decide +kernel, by decide +kernel, by decide +kernel, by decide +kernel, (⟨true,true,10,240,false⟩), by decide +kernel⟩
  · exact ⟨0, 4, ((wp (fun p => {p with rb := true, rbHigh := 1}))), by decide +kernel, by decide +kernel, by decide +kernel, by decide +kernel, (⟨true,true,10,240,false⟩), by decide +kernel⟩

end ForFieldInputEvents

namespace ForFieldOutputEvents

def inp (f fl : Nat) : Nat := 1 + fl + f * 2 ^ 29
def base : State := { run with clk := { run.clk with up := 100000000 }, cfg.pins := [inp 1 0, 1+inp 2 64, inp 1 (0x80), 2 + 2^29, 3 + 4*65536, 4 + 16 + 5 * 65536, 3 + 8 + 6*65536, 4 + 32 + 7 * 65536] ++ List.replicate 16 0 ++ (List.range 8).map (fun n => 3 + 8 + n * 65536), cfg.edgeRing := 5, cfg.rings := List.replicate 64 0x00180018, rings := List.replicate 64 {}, cfg.progBlocks := 2 ^ 32 - 1, mem := [(0x100400000 + 8, 6)] }
def wp (f : Pin → Pin) : State := { base with fio.pins := base.fio.pins.map f }
def on (f : Pin → Pin) : State := let s := wp (fun p => f { p with cmd := true, cmdAt := 5, couplerLost := false }); { s with prg.applied := (List.range 100).map (fun n => (n, 1)), regs := s.regs ++ [(0x0D0000, 1)] }
def slot (n : Nat) (s : State) : State := { s with clk := { s.clk with cycle := 5001 + n * 3125 / 1000 } }
def rsField (s : State) : State := { s with tri.field.restart := some 0 }
def off (f : Pin → Pin) : State := let s := wp (fun p => f { p with cmd := false, cmdAt := 5, couplerLost := false }); { s with regs := s.regs ++ [(0x0D0000, 1)] }
def at' (us : Nat) (s : State) : State := { s with clk := { s.clk with pos := us * 100 } }

/-- States and operands that meet the hypotheses of `Obligations.FieldOutputEvents`. -/
theorem witness_FieldOutputEvents :
    (∃ dt : Nat, ∃ n : Fin 32, ∃ s : State, powered s = true ∧ s.fio.pins.length = 32 ∧ s.fio.groups.length = 4 ∧
    s.snu.g.length = 4 ∧ let b := begin' dt s; let p := pin n.val s; (∀ m, m < n.val → (pin m s).waiting = false) ∧
    p.waiting = true ∧ anyRestart s = false ∧ usUp 10 ≤ b.clk.up - s.fio.staggerAt ∧ mayDrive n.val b = true)
    ∧ (∃ dt : Nat, ∃ n : Fin 32, ∃ s : State, powered s = true ∧ s.fio.pins.length = 32 ∧ s.fio.groups.length = 4 ∧
    s.snu.g.length = 4 ∧ let b := begin' dt s; let p := pin n.val s; (∀ m, m < n.val → (pin m s).waiting = false) ∧
    p.waiting = true ∧ anyRestart s = false ∧ usUp 10 ≤ b.clk.up - s.fio.staggerAt ∧ mayDrive n.val b = false)
    ∧ (∃ s : State, powered s = true ∧ s.fio.pins.length = 32 ∧ s.fio.groups.length = 4 ∧ s.snu.g.length = 4 ∧ anyRestart s = true)
    ∧ (∃ dt : Nat, ∃ n : Fin 32, ∃ s : State, powered s = true ∧ s.fio.pins.length = 32 ∧ s.fio.groups.length = 4 ∧
    s.snu.g.length = 4 ∧ let b := begin' dt s; let p := pin n.val s; isOutput n.val s = true ∧ testsAllowed (n.val / 8) s = true ∧
    testSlotNow b = n.val ∧ usUp (testPos b % 3125) ≤ b.clk.up - p.cmdAt ∧ p.testing = 0 ∧ p.testAt = 0 ∧ fieldRestarting s = false ∧
    p.cmd = true ∧ bit (pinWord n.val s) 5 = false)
    ∧ (∃ dt : Nat, ∃ n : Fin 32, ∃ s : State, powered s = true ∧ s.fio.pins.length = 32 ∧ s.fio.groups.length = 4 ∧
    s.snu.g.length = 4 ∧ let b := begin' dt s; let p := pin n.val s; isOutput n.val s = true ∧ testsAllowed (n.val / 8) s = true ∧
    testSlotNow b = n.val ∧ usUp (testPos b % 3125) ≤ b.clk.up - p.cmdAt ∧ p.testing = 0 ∧ p.testAt = 0 ∧ fieldRestarting s = false ∧
    p.cmd = false ∧ bit (pinWord n.val s) 3 = true)
    ∧ (∃ dt : Nat, ∃ n : Fin 32, ∃ s : State, powered s = true ∧ s.fio.pins.length = 32 ∧ s.fio.groups.length = 4 ∧
    s.snu.g.length = 4 ∧ let b := begin' dt s; let p := pin n.val s; isOutput n.val s = true ∧ testsAllowed (n.val / 8) s = true ∧
    testSlotNow b = n.val ∧ usUp (testPos b % 3125) ≤ b.clk.up - p.cmdAt ∧ p.testing = 0 ∧ p.testAt = 0 ∧ fieldRestarting s = false ∧
    p.cmd = true ∧ bit (pinWord n.val s) 5 = true)
    ∧ (∃ n : Fin 32, ∃ s : State, powered s = true ∧ s.fio.pins.length = 32 ∧ s.fio.groups.length = 4 ∧ s.snu.g.length = 4 ∧
    let p := pin n.val s; p.testing = 1 ∧ ∃ u, u ≤ 280)
    ∧ (∃ n : Fin 32, ∃ s : State, powered s = true ∧ s.fio.pins.length = 32 ∧ s.fio.groups.length = 4 ∧ s.snu.g.length = 4 ∧
    let p := pin n.val s; p.testing = 1 ∧ ∃ x : Option Nat, (∀ u, x = some u → 280 < u) ∧ p.stuckOn = false)
    ∧ (∃ n : Fin 32, ∃ s : State, powered s = true ∧ s.fio.pins.length = 32 ∧ s.fio.groups.length = 4 ∧ s.snu.g.length = 4 ∧
    let p := pin n.val s; p.testing = 2 ∧ p.driveFail = false ∧ ∃ u, u ≤ 100)
    ∧ (∃ n : Fin 32, ∃ s : State, powered s = true ∧ s.fio.pins.length = 32 ∧ s.fio.groups.length = 4 ∧ s.snu.g.length = 4 ∧
    let p := pin n.val s; p.testing = 2 ∧ p.driveFail = false ∧ ∃ x : Option Nat, (∀ u, x = some u → 100 < u))
    ∧ (∃ dt : Nat, ∃ n : Fin 32, ∃ s : State, powered s = true ∧ s.fio.pins.length = 32 ∧ s.fio.groups.length = 4 ∧
    s.snu.g.length = 4 ∧ let b := begin' dt s; let p := pin n.val s; ∃ w, p.watchTo = some w ∧ w ≤ b.clk.up)
    ∧ (∃ dt : Nat, ∃ n : Fin 32, ∃ s : State, powered s = true ∧ s.fio.pins.length = 32 ∧ s.fio.groups.length = 4 ∧
    s.snu.g.length = 4 ∧ let b := begin' dt s; let p := pin n.val s; isOutput n.val s = true ∧ p.cmd = true ∧ ∃ thermal,
    (thermal = true ∨ ∃ u, p.limitFrom = some u ∧ usUp 5000 < b.clk.up - u))
    ∧ (∃ dt : Nat, ∃ n : Fin 32, ∃ s : State, powered s = true ∧ s.fio.pins.length = 32 ∧ s.fio.groups.length = 4 ∧
    s.snu.g.length = 4 ∧ let b := begin' dt s; let p := pin n.val s; isOutput n.val s = true ∧ p.cmd = true ∧ (∀ u, p.limitFrom = some u → b.clk.up - u ≤ usUp 5000))
    ∧ (∃ n : Fin 32, ∃ s : State, powered s = true ∧ s.fio.pins.length = 32 ∧ s.fio.groups.length = 4 ∧ s.snu.g.length = 4 ∧
    let p := pin n.val s; isOutput n.val s = true ∧ p.cmd = true ∧ ∃ g : Fin 4, ∃ ma : Nat, g.val = n.val / 8 ∧ (∀ m ∈ groupPins g.val, m ≠ n.val → isOutput m s = true → (pin m s).cmd = true → (pin m s).iMa < p.iMa) ∧
    4000 < ma ∧ 5 ≤ (fgroup g.val s).overMs)
    ∧ (∃ n : Fin 32, ∃ s : State, powered s = true ∧ s.fio.pins.length = 32 ∧ s.fio.groups.length = 4 ∧ s.snu.g.length = 4 ∧
    let p := pin n.val s; isOutput n.val s = true ∧ p.cmd = true ∧ ∃ g : Fin 4, ∃ ma : Nat, g.val = n.val / 8 ∧ (∀ m ∈ groupPins g.val, m ≠ n.val → isOutput m s = true → (pin m s).cmd = true → (pin m s).iMa < p.iMa) ∧
    ma ≤ 4000)
    ∧ (∃ dt : Nat, ∃ n : Fin 32, ∃ s : State, powered s = true ∧ s.fio.pins.length = 32 ∧ s.fio.groups.length = 4 ∧
    s.snu.g.length = 4 ∧ let b := begin' dt s; let p := pin n.val s; isOutput n.val s = true ∧ p.cmd = true ∧ ∃ u,
    p.rbLowFrom = some u ∧ unpoweredNow (n.val / 8) s = false ∧ p.limit = false ∧ p.testing = 0 ∧ p.driveFail = false ∧
    testShadow (n.val / 8) b = false ∧ usUp 300 < b.clk.up - u)
    ∧ (∃ dt : Nat, ∃ n : Fin 32, ∃ s : State, powered s = true ∧ s.fio.pins.length = 32 ∧ s.fio.groups.length = 4 ∧
    s.snu.g.length = 4 ∧ let b := begin' dt s; let p := pin n.val s; pinMode n.val s ≠ 0 ∧ position b % 500 = 0 ∧
    fieldRestarting s = false ∧ p.couplerLost = false ∧ p.timedOut = false)
    ∧ (∃ dt : Nat, ∃ n : Fin 32, ∃ s : State, powered s = true ∧ s.fio.pins.length = 32 ∧ s.fio.groups.length = 4 ∧
    s.snu.g.length = 4 ∧ let b := begin' dt s; let p := pin n.val s; pinMode n.val s ≠ 0 ∧ position b % 500 = 0 ∧
    fieldRestarting s = false ∧ p.couplerLost = false ∧ p.timedOut = true ∧ p.unlatch = true)
    ∧ (∃ dt : Nat, ∃ n : Fin 32, ∃ s : State, powered s = true ∧ s.fio.pins.length = 32 ∧ s.fio.groups.length = 4 ∧
    s.snu.g.length = 4 ∧ let b := begin' dt s; let p := pin n.val s; isOutput n.val s = true ∧ p.timedOut = false ∧ usUp (1000 * refreshMs n.val s) ≤ b.clk.up - p.refreshAt)
    ∧ (∃ s : State, powered s = true ∧ s.fio.pins.length = 32 ∧ s.fio.groups.length = 4 ∧ s.snu.g.length = 4 ∧ lanesRun s = true ∧
    bit s.cfg.progBlocks 0xD = true) := by
  refine ⟨?_, ?_, ?_, ?_, ?_, ?_, ?_, ?_, ?_, ?_, ?_, ?_, ?_, ?_, ?_, ?_, ?_, ?_, ?_, ?_⟩
  · exact ⟨0, 4, (({ on (fun p => { p with waiting := true, cmd := false }) with fio.pins := (List.range 32).map (fun n => ({ waiting := decide (n = 4 ∨ n = 6) } : Pin)) })), by decide +kernel⟩
  · exact ⟨0, 4, ((fun s => { s with fio.pins := s.fio.pins.map (fun p => { p with cmd := true }), snu.g := s.snu.g.map (fun g => { g with aClosed := true, kOn := true, phase := .closed }), cfg.pins := List.replicate 32 0x12 } : State → State) ({ on (fun p => { p with waiting := true, cmd := false }) with fio.pins := (List.range 32).map (fun n => ({ waiting := decide (n = 4 ∨ n = 6) } : Pin)) })), by decide +kernel⟩
  · exact ⟨(rsField (slot 3 (on id))), by decide +kernel⟩
  · exact ⟨0, 4, ((slot 4 (on id))), by decide +kernel⟩
  · exact ⟨0, 6, ((slot 6 (off id))), by decide +kernel⟩
  · exact ⟨0, 7, ((slot 7 (on id))), by decide +kernel⟩
  · exact ⟨3, ((on (fun p => { p with testing := 1}))), by decide +kernel, by decide +kernel, by decide +kernel, by decide +kernel, by decide +kernel, 0, by decide +kernel⟩
  · exact ⟨3, ((on (fun p => { p with testing := 1}))), by decide +kernel, by decide +kernel, by decide +kernel, by decide +kernel, by decide +kernel, none, by decide +kernel⟩
  · exact ⟨3, ((off (fun p => { p with testing := 2 }))), by decide +kernel, by decide +kernel, by decide +kernel, by decide +kernel, by decide +kernel, by decide +kernel, 0, by decide +kernel⟩
  · exact ⟨3, ((off (fun p => { p with testing := 2 }))), by decide +kernel, by decide +kernel, by decide +kernel, by decide +kernel, by decide +kernel, by decide +kernel, none, by decide +kernel⟩
  · exact ⟨0, 3, ((on (fun p => { p with watchTo := some 100000000, limitFrom := some 0 }))), by decide +kernel, by decide +kernel, by decide +kernel, by decide +kernel, _, (Option.eq_some_of_isSome (by decide +kernel)), by decide +kernel⟩
  · exact ⟨0, 4, ((slot 3 (on id))), by decide +kernel, by decide +kernel, by decide +kernel, by decide +kernel, by decide +kernel, by decide +kernel, true, by decide +kernel⟩
  · exact ⟨0, 4, ((slot 3 (on id))), by decide +kernel⟩
  · exact ⟨7, (({ on (fun p => {p with refreshAt := 99999999}) with fio.groups := List.replicate 4 { overMs := 5 }, fio.pins := (on id).fio.pins.mapIdx (fun n p => { p with iMa := n }) })), by decide +kernel, by decide +kernel, by decide +kernel, by decide +kernel, by decide +kernel, by decide +kernel, 0, 4001, by decide +kernel⟩
  · exact ⟨7, (({ on (fun p => {p with refreshAt := 99999999}) with fio.groups := List.replicate 4 { overMs := 5 }, fio.pins := (on id).fio.pins.mapIdx (fun n p => { p with iMa := n }) })), by decide +kernel, by decide +kernel, by decide +kernel, by decide +kernel, by decide +kernel, by decide +kernel, 0, 0, by decide +kernel⟩
  · exact ⟨0, 4, ((on (fun p => {p with rbLowFrom := some 0}))), by decide +kernel, by decide +kernel, by decide +kernel, by decide +kernel, by decide +kernel, by decide +kernel, _, (Option.eq_some_of_isSome (by decide +kernel)), by decide +kernel⟩
  · exact ⟨0, 3, ((slot 3 (on id))), by decide +kernel⟩
  · exact ⟨0, 3, ((at' 500 (on (fun p => {p with timedOut := true, unlatch := true, refreshAt := 99999999})))), by decide +kernel⟩
  · exact ⟨0, 4, ((slot 3 (on id))), by decide +kernel⟩
  · exact ⟨((slot 3 (on id))), by decide +kernel⟩

end ForFieldOutputEvents

namespace ForFieldOutputEvents2

/-- States and operands that meet the hypotheses of `Obligations.FieldOutputEvents`. -/
theorem witness_FieldOutputEvents_2 :
    (∃ dt : Nat, ∃ n : Fin 32, ∃ s : State, powered s = true ∧ s.fio.pins.length = 32 ∧ s.fio.groups.length = 4 ∧
    s.snu.g.length = 4 ∧ let b := begin' dt s; let p := pin n.val s; ∃ w, p.watchTo = some w ∧ b.clk.up < w)
    ∧ (∃ n : Fin 32, ∃ s : State, powered s = true ∧ s.fio.pins.length = 32 ∧ s.fio.groups.length = 4 ∧ s.snu.g.length = 4 ∧
    let p := pin n.val s; isOutput n.val s = true ∧ p.cmd = true ∧ ∃ g : Fin 4, ∃ ma : Nat, g.val = n.val / 8 ∧ (∀ m ∈ groupPins g.val, m ≠ n.val → isOutput m s = true → (pin m s).cmd = true → (pin m s).iMa < p.iMa) ∧
    4000 < ma ∧ (fgroup g.val s).overMs < 5)
    ∧ (∃ dt : Nat, ∃ n : Fin 32, ∃ s : State, powered s = true ∧ s.fio.pins.length = 32 ∧ s.fio.groups.length = 4 ∧
    s.snu.g.length = 4 ∧ let b := begin' dt s; let p := pin n.val s; isOutput n.val s = true ∧ p.timedOut = false ∧
    b.clk.up - p.refreshAt < usUp (1000 * refreshMs n.val s)) := by
  refine ⟨?_, ?_, ?_⟩
  · exact ⟨0, 0, { run with cfg.pins := List.replicate 32 3, fio.pins := List.replicate 32 { watchTo := some 2000000 }, fio.groups := List.replicate 4 {}, snu.g := List.replicate 4 {} }, by decide +kernel, by decide +kernel, by decide +kernel, by decide +kernel, 2000000, by decide +kernel⟩
  · exact ⟨0, { run with cfg.pins := List.replicate 32 3, fio.pins := { cmd := true, iMa := 5000 } :: List.replicate 31 {}, fio.groups := List.replicate 4 {}, snu.g := List.replicate 4 {} }, by decide +kernel, by decide +kernel, by decide +kernel, by decide +kernel, by decide +kernel, by decide +kernel, 0, 4001, by decide +kernel⟩
  · exact ⟨0, 0, { run with cfg.pins := List.replicate 32 3, fio.pins := List.replicate 32 { refreshAt := 1000000 }, fio.groups := List.replicate 4 {}, snu.g := List.replicate 4 {} }, by decide +kernel⟩

end ForFieldOutputEvents2

namespace ForFieldSupplyEvents

def inp (f fl : Nat) : Nat := 1 + fl + f * 2 ^ 29
def base : State := { run with clk := { run.clk with up := 100000000 }, cfg.pins := [inp 1 0, 1+inp 2 64, inp 1 (0x80), 2 + 2^29, 3 + 4*65536, 4 + 16 + 5 * 65536, 3 + 8 + 6*65536, 4 + 32 + 7 * 65536] ++ List.replicate 16 0 ++ (List.range 8).map (fun n => 3 + 8 + n * 65536), cfg.edgeRing := 5, cfg.rings := List.replicate 64 0x00180018, rings := List.replicate 64 {}, cfg.progBlocks := 2 ^ 32 - 1, mem := [(0x100400000 + 8, 6)] }
def fg (x : FGroup) (s : State) : State := { s with fio.groups := List.replicate 4 x }

/-- States and operands that meet the hypotheses of `Obligations.FieldSupplyEvents`. -/
theorem witness_FieldSupplyEvents :
    (∃ g : Fin 4, ∃ mv : Nat, ∃ s : State, monitored g.val s = true ∧ s.fio.pins.length = 32 ∧ s.fio.groups.length = 4 ∧
    s.snu.g.length = 4 ∧ mv ≤ 0xFFFF ∧ (fgroup g.val s).band = .normal ∧ 19200 ≤ mv ∧ mv ≤ 30200)
    ∧ (∃ g : Fin 4, ∃ mv : Nat, ∃ s : State, monitored g.val s = true ∧ s.fio.pins.length = 32 ∧ s.fio.groups.length = 4 ∧
    s.snu.g.length = 4 ∧ mv ≤ 0xFFFF ∧ (fgroup g.val s).band = .normal ∧ 16000 ≤ mv ∧ mv < 19200)
    ∧ (∃ g : Fin 4, ∃ mv : Nat, ∃ s : State, monitored g.val s = true ∧ s.fio.pins.length = 32 ∧ s.fio.groups.length = 4 ∧
    s.snu.g.length = 4 ∧ mv ≤ 0xFFFF ∧ ((fgroup g.val s).band = .normal ∨ (fgroup g.val s).band = .sag) ∧ mv < 16000 ∧ 20 ≤ (fgroup g.val s).low ∧
    (∀ n ∈ groupPins g.val, (pin n s).posted = false))
    ∧ (∃ g : Fin 4, ∃ mv : Nat, ∃ s : State, monitored g.val s = true ∧ s.fio.pins.length = 32 ∧ s.fio.groups.length = 4 ∧
    s.snu.g.length = 4 ∧ mv ≤ 0xFFFF ∧ (fgroup g.val s).band = .unpowered ∧ 19500 ≤ mv ∧ 99 ≤ (fgroup g.val s).good)
    ∧ (∃ g : Fin 4, ∃ mv : Nat, ∃ s : State, monitored g.val s = true ∧ s.fio.pins.length = 32 ∧ s.fio.groups.length = 4 ∧
    s.snu.g.length = 4 ∧ mv ≤ 0xFFFF ∧ (fgroup g.val s).band = .unpowered ∧ (mv < 19500 ∨ (fgroup g.val s).good < 99))
    ∧ (∃ g : Fin 4, ∃ mv : Nat, ∃ s : State, monitored g.val s = true ∧ s.fio.pins.length = 32 ∧ s.fio.groups.length = 4 ∧
    s.snu.g.length = 4 ∧ mv ≤ 0xFFFF ∧ (16000 ≤ mv ∨ (fgroup g.val s).low < 20)) := by
  refine ⟨?_, ?_, ?_, ?_, ?_, ?_⟩
  · exact ⟨0, 19200, ((fg ({}) base)), by decide +kernel⟩
  · exact ⟨0, 16000, ((fg ({}) base)), by decide +kernel⟩
  · exact ⟨0, 0, ((fg ({ low := 20 }) base)), by decide +kernel⟩
  · exact ⟨0, 19500, ((fg ({ band := .unpowered, good := 99 }) base)), by decide +kernel⟩
  · exact ⟨0, 0, ((fg ({ band := .unpowered, good := 99 }) base)), by decide +kernel⟩
  · exact ⟨0, 0, ((fg ({}) base)), by decide +kernel⟩

end ForFieldSupplyEvents

namespace ForCutOffPathEffects

def sn (x : SGroup) (k : Nat) : State := { run with snu.g := (List.replicate 4 ({} : SGroup)).set k x, cfg.pins := List.replicate 32 0x12, regs := [(0x0E0000, 0xFF#32), (0x0A0000, 3#32)], snu.btn := .idle, cfg.tasks := {}, fio := run.fio }
def fe : SGroup := { phase := .feeding, kOn := true, regular := 16, edgeAt := 999000 }
def sd (x : SGroup) (k c : Nat) : State := { run with clk := { run.clk with up := 100000000, cycle := c }, snu.g := (List.replicate 4 ({} : SGroup)).set k x, cfg.pins := (List.range 32).map (fun n => 3 + n * 65536), regs := [(0x0E0000, 0xFF#32), (0x0A0000, 3#32)], snu.btn := .idle }

/-- States and operands that meet the hypotheses of `Obligations.CutOffPathEffects`. -/
theorem witness_CutOffPathEffects :
    (∃ dt : Nat, ∃ g : Fin 4, ∃ s : State, s.fio.groups.length = 4 ∧ s.snu.g.length = 4 ∧ s.fio.pins.length = 32 ∧ let b := begin' dt s;
    let x := sgroup g.val s; inNormal s = true ∧ triadVotes s = true ∧ lanesRun s = true ∧ position b % 10 = 0 ∧ 2 ≤ (litLanes s).length ∧
    feedEn s = true ∧ s.prg.releaseHeld = false ∧ (∀ i : Fin 4, i ≠ g → feedable i.val s = false) ∧ feedable g.val s = true ∧
    usUp 8 ≤ b.clk.up - x.edgeAt ∧ b.clk.up - x.edgeAt < usUp 250)
    ∧ (∃ dt : Nat, ∃ g : Fin 4, ∃ s : State, s.fio.groups.length = 4 ∧ s.snu.g.length = 4 ∧ s.fio.pins.length = 32 ∧ let b := begin' dt s;
    let x := sgroup g.val s; inNormal s = true ∧ triadVotes s = true ∧ lanesRun s = true ∧ position b % 10 = 0 ∧ 2 ≤ (litLanes s).length ∧
    feedEn s = true ∧ s.prg.releaseHeld = false ∧ (∀ i : Fin 4, i ≠ g → feedable i.val s = false) ∧ feedable g.val s = true ∧
    (b.clk.up - x.edgeAt < usUp 8 ∨ usUp 250 ≤ b.clk.up - x.edgeAt))
    ∧ (∃ dt : Nat, ∃ s : State, s.fio.groups.length = 4 ∧ s.snu.g.length = 4 ∧ s.fio.pins.length = 32 ∧ let b := begin' dt s;
    position b % 10 ≠ 0)
    ∧ (∃ dt : Nat, ∃ g : Fin 4, ∃ s : State, s.fio.groups.length = 4 ∧ s.snu.g.length = 4 ∧ s.fio.pins.length = 32 ∧ let b := begin' dt s;
    let x := sgroup g.val s; (x.aClosed = true ∨ x.phase = .feeding) ∧ usUp 250 ≤ b.clk.up - x.edgeAt)
    ∧ (∃ g : Fin 4, ∃ s : State, s.fio.groups.length = 4 ∧ s.snu.g.length = 4 ∧ s.fio.pins.length = 32 ∧ let x := sgroup g.val s;
    powered s = true ∧ x.phase = .feeding ∧ ∃ mv, 16 ≤ x.regular ∧ 16000 ≤ mv)
    ∧ (∃ g : Fin 4, ∃ s : State, s.fio.groups.length = 4 ∧ s.snu.g.length = 4 ∧ s.fio.pins.length = 32 ∧ let x := sgroup g.val s;
    powered s = true ∧ x.phase = .feeding ∧ ∃ mv, 16 ≤ x.regular ∧ mv < 16000)
    ∧ (∃ g : Fin 4, ∃ s : State, s.fio.groups.length = 4 ∧ s.snu.g.length = 4 ∧ s.fio.pins.length = 32 ∧ let x := sgroup g.val s;
    powered s = true ∧ x.phase = .feeding ∧ x.regular < 16)
    ∧ (∃ dt : Nat, ∃ g : Fin 4, ∃ s : State, s.fio.groups.length = 4 ∧ s.snu.g.length = 4 ∧ s.fio.pins.length = 32 ∧ let b := begin' dt s;
    let x := sgroup g.val s; ∃ high : Bool, powered s = true ∧ kauxEvaluated g.val b = true ∧ kauxWrong x high b = true ∧
    x.mismatch < 2 ∧ x.phase ≠ .picking)
    ∧ (∃ dt : Nat, ∃ g : Fin 4, ∃ s : State, s.fio.groups.length = 4 ∧ s.snu.g.length = 4 ∧ s.fio.pins.length = 32 ∧ let b := begin' dt s;
    let x := sgroup g.val s; ∃ high : Bool, powered s = true ∧ kauxEvaluated g.val b = true ∧ mayHalt s ∧ kauxWrong x high b = true ∧
    2 ≤ x.mismatch)
    ∧ (∃ dt : Nat, ∃ g : Fin 4, ∃ s : State, s.fio.groups.length = 4 ∧ s.snu.g.length = 4 ∧ s.fio.pins.length = 32 ∧ let b := begin' dt s;
    let x := sgroup g.val s; ∃ high : Bool, ∃ mv : Nat, powered s = true ∧ kauxEvaluated g.val b = true ∧ mayHalt s ∧
    x.phase = .picking ∧ x.kOn = true ∧ x.mismatch = 0 ∧ kauxWrong x high b = false ∧ high = x.auxOpen ∧ 5000 ≤ mv)
    ∧ (∃ dt : Nat, ∃ g : Fin 4, ∃ s : State, s.fio.groups.length = 4 ∧ s.snu.g.length = 4 ∧ s.fio.pins.length = 32 ∧ let b := begin' dt s;
    let x := sgroup g.val s; ∃ high : Bool, ∃ mv : Nat, powered s = true ∧ kauxEvaluated g.val b = true ∧ x.phase = .picking ∧
    x.kOn = true ∧ high = false ∧ mv < 5000)
    ∧ (∃ dt : Nat, ∃ g : Fin 4, ∃ s : State, s.fio.groups.length = 4 ∧ s.snu.g.length = 4 ∧ s.fio.pins.length = 32 ∧ let b := begin' dt s;
    let x := sgroup g.val s; ∃ r : PathTestIn, inNormal s = true ∧ x.phase = .closed ∧ x.testDue = true ∧ 1000 ≤ testPos b % 3125 ∧
    ∃ u, testSlotNow b = 8 * g.val + 5 ∧ r.decayUs = some u ∧ u ≤ 150 ∧ r.kauxLow = true)
    ∧ (∃ dt : Nat, ∃ g : Fin 4, ∃ s : State, s.fio.groups.length = 4 ∧ s.snu.g.length = 4 ∧ s.fio.pins.length = 32 ∧ let b := begin' dt s;
    let x := sgroup g.val s; ∃ r : PathTestIn, inNormal s = true ∧ x.phase = .closed ∧ x.testDue = true ∧ 1000 ≤ testPos b % 3125 ∧
    ∃ u, ∃ v, testSlotNow b = 8 * g.val + 2 ∧ x.testedA = false ∧ r.decayUs = some u ∧ u ≤ 150 ∧ r.recloseUs = some v ∧ v ≤ 100)
    ∧ (∃ dt : Nat, ∃ g : Fin 4, ∃ s : State, s.fio.groups.length = 4 ∧ s.snu.g.length = 4 ∧ s.fio.pins.length = 32 ∧ let b := begin' dt s;
    let x := sgroup g.val s; ∃ r : PathTestIn, inNormal s = true ∧ x.phase = .closed ∧ x.testDue = true ∧ 1000 ≤ testPos b % 3125 ∧
    ∃ u, testSlotNow b = 8 * g.val + 2 ∧ x.testedA = false ∧ r.decayUs = some u ∧ u ≤ 150 ∧ (∀ v, r.recloseUs = some v → 100 < v))
    ∧ (∃ dt : Nat, ∃ g : Fin 4, ∃ s : State, s.fio.groups.length = 4 ∧ s.snu.g.length = 4 ∧ s.fio.pins.length = 32 ∧ let b := begin' dt s;
    let x := sgroup g.val s; ∃ r : PathTestIn, inNormal s = true ∧ x.phase = .closed ∧ x.testDue = true ∧ 1000 ≤ testPos b % 3125 ∧
    mayHalt s ∧ testSlotNow b = 8 * g.val + 2 ∧ x.testedA = false ∧ r.decayUs = none)
    ∧ (∃ dt : Nat, ∃ g : Fin 4, ∃ s : State, s.fio.groups.length = 4 ∧ s.snu.g.length = 4 ∧ s.fio.pins.length = 32 ∧ let b := begin' dt s;
    let x := sgroup g.val s; ∃ r : PathTestIn, inNormal s = true ∧ x.phase = .closed ∧ x.testDue = true ∧ 1000 ≤ testPos b % 3125 ∧
    mayHalt s ∧ testSlotNow b = 8 * g.val + 5 ∧ (r.decayUs = none ∨ r.kauxLow = false))
    ∧ (∃ g : Fin 4, ∃ s : State, s.fio.groups.length = 4 ∧ s.snu.g.length = 4 ∧ s.fio.pins.length = 32 ∧ lanesRun s = true ∧
    bit s.cfg.progBlocks 0xE = true ∧ (∀ n ∈ groupPins g.val, isOutput n s = true → appliedValue (pinPoint n s) s ≠ 1))
    ∧ (∃ g : Fin 4, ∃ s : State, s.fio.groups.length = 4 ∧ s.snu.g.length = 4 ∧ s.fio.pins.length = 32 ∧ lanesRun s = true ∧
    bit s.cfg.progBlocks 0xE = true ∧ ∃ n, n ∈ groupPins g.val ∧ isOutput n s = true ∧ appliedValue (pinPoint n s) s = 1) := by
  refine ⟨?_, ?_, ?_, ?_, ?_, ?_, ?_, ?_, ?_, ?_, ?_, ?_, ?_, ?_, ?_, ?_, ?_, ?_⟩
  · exact ⟨0, 0, (sn {fe with regular := 15} 0), by decide +kernel⟩
  · exact ⟨0, 0, ({sn {phase := .closed, kOn := true, aClosed := true, testDue := true} 0 with clk.cycle := 5}), by decide +kernel⟩
  · exact ⟨0, ({ sn {fe with edgeAt := 999200} 1 with clk := { run.clk with pos := 500 } }), by decide +kernel⟩
  · exact ⟨0, 0, ((fun s => { s with fio.pins := s.fio.pins.map (fun p => { p with cmd := true }), snu.g := s.snu.g.map (fun g => { g with aClosed := true, kOn := true, phase := .closed }), cfg.pins := List.replicate 32 0x12 } : State → State) (run)), by decide +kernel⟩
  · exact ⟨1, (sn fe 1), by decide +kernel, by decide +kernel, by decide +kernel, by decide +kernel, by decide +kernel, 16000, by decide +kernel⟩
  · exact ⟨1, (sn fe 1), by decide +kernel, by decide +kernel, by decide +kernel, by decide +kernel, by decide +kernel, 0, by decide +kernel⟩
  · exact ⟨0, (sn {fe with regular := 15} 0), by decide +kernel⟩
  · exact ⟨0, 0, (sd {phase := .closed, kOn := true, aClosed := true, mismatch := 2} 1 0), by decide +kernel, by decide +kernel, by decide +kernel, false, by decide +kernel⟩
  · exact ⟨0, 0, (sd {phase := .picking, kOn := true, mismatch := 2} 0 4), by decide +kernel, by decide +kernel, by decide +kernel, true, by dsimp only [mayHalt, pinsOf]; decide +kernel⟩
  · exact ⟨0, 3, (sn {phase := .picking, kOn := true} 3), by decide +kernel, by decide +kernel, by decide +kernel, false, 5000, by dsimp only [mayHalt, pinsOf]; decide +kernel⟩
  · exact ⟨0, 0, (sd {phase := .picking, kOn := true, mismatch := 2} 0 4), by decide +kernel, by decide +kernel, by decide +kernel, false, 0, by decide +kernel⟩
  · exact ⟨0, 0, (sd {phase := .closed, kOn := true, aClosed := true, testDue := true} 0 17), by decide +kernel, by decide +kernel, by decide +kernel, (⟨some 150, true, some 100⟩), by decide +kernel, by decide +kernel, by decide +kernel, by decide +kernel, _, by decide +kernel, (Option.eq_some_of_isSome (by decide +kernel)), by decide +kernel⟩
  · exact ⟨0, 0, (sd {phase := .closed, kOn := true, aClosed := true, testDue := true} 0 8), by decide +kernel, by decide +kernel, by decide +kernel, (⟨some 150, true, some 100⟩), by decide +kernel, by decide +kernel, by decide +kernel, by decide +kernel, _, _, by decide +kernel, by decide +kernel, (Option.eq_some_of_isSome (by decide +kernel)), by decide +kernel, (Option.eq_some_of_isSome (by decide +kernel)), by decide +kernel⟩
  · exact ⟨0, 0, (sd {phase := .closed, kOn := true, aClosed := true, testDue := true} 0 8), by decide +kernel, by decide +kernel, by decide +kernel, (⟨some 10, false, none⟩), by decide +kernel, by decide +kernel, by decide +kernel, by decide +kernel, _, by decide +kernel, by decide +kernel, (Option.eq_some_of_isSome (by decide +kernel)), by decide +kernel⟩
  · exact ⟨0, 0, (sd {phase := .closed, kOn := true, aClosed := true, testDue := true} 0 8), by decide +kernel, by decide +kernel, by decide +kernel, (⟨none, true, some 10⟩), by dsimp only [mayHalt, pinsOf]; decide +kernel⟩
  · exact ⟨0, 0, (sd {phase := .closed, kOn := true, aClosed := true, testDue := true} 0 17), by decide +kernel, by decide +kernel, by decide +kernel, (⟨some 10, false, none⟩), by dsimp only [mayHalt, pinsOf]; decide +kernel⟩
  · exact ⟨0, run, by decide +kernel⟩
  · exact ⟨0, ({sd {phase := .closed, kOn := true, aClosed := true} 0 8 with prg.applied := (List.range 32).map (fun i => (i, 1))}), by decide +kernel, by decide +kernel, by decide +kernel, by decide +kernel, by decide +kernel, 0, by decide +kernel⟩

end ForCutOffPathEffects

namespace ForRestartButtonEffects

def bt (x : Button) (rel prs tr ms rp : Nat) (s : State := run) : State := { s with snu.btn := x, snu.rel := rel, snu.prs := prs, snu.transit := tr, snu.pressMs := ms, snu.relPress := rp, snu.g := s.snu.g }
def cutS : State := { run with snu.g := List.replicate 4 { cut := true, kOn := true, aClosed := true }, fio.groups := List.replicate 4 { cut := true }, fio.pins := List.replicate 32 { stuckOn := true, cross := true, partner := some 4 } }

/-- States and operands that meet the hypotheses of `Obligations.RestartButtonEffects`. -/
theorem witness_RestartButtonEffects :
    (∃ s : State, powered s = true ∧ s.snu.btn = .idle ∧ s.snu.prs = 2)
    ∧ (∃ s : State, powered s = true ∧ let edge := s.snu.btn = .pressed ∧ s.snu.rel = 2 ∧ 100 ≤ s.snu.relPress ∧ s.snu.relPress ≤ 5000;
    edge ∧ edgesBarred s = true)
    ∧ (∃ s : State, powered s = true ∧ let edge := s.snu.btn = .pressed ∧ s.snu.rel = 2 ∧ 100 ≤ s.snu.relPress ∧ s.snu.relPress ≤ 5000;
    edge ∧ edgesBarred s = false ∧ s.pwr.phase = .running ∧ s.prg.mode = .halted)
    ∧ (∃ s : State, powered s = true ∧ let edge := s.snu.btn = .pressed ∧ s.snu.rel = 2 ∧ 100 ≤ s.snu.relPress ∧ s.snu.relPress ≤ 5000;
    edge ∧ edgesBarred s = false ∧ s.pwr.phase = .running ∧ s.prg.mode = .free ∧ s.prg.cause ≠ .recovery ∧ s.cfg.split = false)
    ∧ (∃ s : State, powered s = true ∧ let edge := s.snu.btn = .pressed ∧ s.snu.rel = 2 ∧ 100 ≤ s.snu.relPress ∧ s.snu.relPress ≤ 5000;
    edge ∧ edgesBarred s = false ∧ s.pwr.phase = .running ∧ s.prg.mode = .normal ∧ s.cfg.split = false ∧ s.snu.g.length = 4 ∧
    s.fio.groups.length = 4 ∧ (∃ g, g < 4 ∧ (sgroup g s).cut = true))
    ∧ (∃ s : State, powered s = true ∧ s.snu.btn = .pressed ∧ s.snu.rel = 2 ∧ s.snu.relPress < 100)
    ∧ (∃ s : State, powered s = true ∧ (s.snu.btn = .idle ∨ s.snu.btn = .pressed ∨ s.snu.btn = .held))
    ∧ (∃ s : State, powered s = true ∧ s.snu.btn = .pressed ∧ s.snu.rel = 0 ∧ 5000 ≤ s.snu.pressMs)
    ∧ (∃ s : State, powered s = true ∧ s.snu.btn = .pressed ∧ 50 < s.snu.transit)
    ∧ (∃ s : State, powered s = true ∧ s.snu.transit ≤ 50)
    ∧ (∃ s : State, powered s = true ∧ 1000 ≤ s.snu.rel ∧ s.snu.btn = .arming)
    ∧ (∃ s : State, powered s = true ∧ 1000 ≤ s.snu.rel ∧ s.snu.btn = .implausible)
    ∧ (∃ s : State, powered s = true ∧ s.snu.rel < 1000) := by
  refine ⟨?_, ?_, ?_, ?_, ?_, ?_, ?_, ?_, ?_, ?_, ?_, ?_, ?_⟩
  · exact ⟨(bt .idle 0 2 0 5 0 run), by decide +kernel⟩
  · exact ⟨((fun s => { s with pwr.limitBar := true, cfg.autoStart := true } : State → State) (bt .pressed 2 0 0 200 100 run)), by decide +kernel⟩
  · exact ⟨(bt .pressed 2 0 0 200 100 { run with prg.mode := .halted }), by decide +kernel⟩
  · exact ⟨(bt .pressed 2 0 0 200 100 { run with prg.mode := .free }), by decide +kernel⟩
  · exact ⟨(bt .pressed 2 0 0 200 100 cutS), by decide +kernel⟩
  · exact ⟨(bt .pressed 2 0 0 200 99 run), by decide +kernel⟩
  · exact ⟨(bt .idle 0 2 0 5 0 run), by decide +kernel⟩
  · exact ⟨(bt .pressed 0 5 0 5000 0 run), by decide +kernel⟩
  · exact ⟨(bt .pressed 0 5 51 400 0 run), by decide +kernel⟩
  · exact ⟨(bt .idle 0 2 0 5 0 run), by decide +kernel⟩
  · exact ⟨(bt .arming 1000 0 0 0 0 run), by decide +kernel⟩
  · exact ⟨(bt .implausible 1000 0 0 0 0 run), by decide +kernel⟩
  · exact ⟨(bt .idle 0 2 0 5 0 run), by decide +kernel⟩

end ForRestartButtonEffects

namespace ForRecorderIngestAndCommit

def rc (f : Recorder → Recorder) : State := { run with evr := f run.evr, cand.sd := {}, pwr := run.pwr }
def r0 : Rec := { t := now run, ty := 0x4001, payload := List.replicate 8 1 }
def C : Nat := 16384000
def o0 : SRec := { t := now run, ty := 0x4001, seq := 9, payload := List.replicate 8 1, closedAt := 4000*C }
def d0 : SRec := { o0 with ty := 0x8F01, seq := 7 }
def o1 : SRec := { o0 with ty := 0x4F01, seq := 8 }

/-- States and operands that meet the hypotheses of `Obligations.RecorderIngestAndCommit`. -/
theorem witness_RecorderIngestAndCommit :
    (∃ s : State, powered s = true ∧ let quietly := s.evr.lossNoSeq + s.evr.lossSeq = 0 ∧ s.evr.st ≠ .frozen; let far := 1024 < (s.evr.bound + 2 ^ 32 - s.evr.seqNext) % 2 ^ 32;
    ∃ x, ∃ l, quietly ∧ s.evr.queue = x :: l ∧ s.evr.open' = none ∧ far ∧ stagingUsed s + 24 + x.payload.length ≤ 0x800000)
    ∧ (∃ s : State, powered s = true ∧ let quietly := s.evr.lossNoSeq + s.evr.lossSeq = 0 ∧ s.evr.st ≠ .frozen; ∃ x, ∃ l,
    quietly ∧ s.evr.queue = x :: l ∧ ∃ o, s.evr.open' = some o ∧ merges x o s = true ∧ o.rep + 1 < 65535)
    ∧ (∃ s : State, powered s = true ∧ let quietly := s.evr.lossNoSeq + s.evr.lossSeq = 0 ∧ s.evr.st ≠ .frozen; let far := 1024 < (s.evr.bound + 2 ^ 32 - s.evr.seqNext) % 2 ^ 32;
    ∃ x, ∃ l, quietly ∧ s.evr.queue = x :: l ∧ ∃ o, s.evr.open' = some o ∧ merges x o s = false ∧ far ∧ stagingUsed s + recLen o ≤ 0x800000)
    ∧ (∃ s : State, powered s = true ∧ let quietly := s.evr.lossNoSeq + s.evr.lossSeq = 0 ∧ s.evr.st ≠ .frozen; let far := 1024 < (s.evr.bound + 2 ^ 32 - s.evr.seqNext) % 2 ^ 32;
    let n := s.evr.seqNext; ∃ x, ∃ l, quietly ∧ s.evr.queue = x :: l ∧ s.evr.open' = none ∧ (¬far) ∧ s.cand.framErr = false ∧
    s.cand.framProt = false ∧ n ≠ (s.evr.bound + 2 ^ 20) % 2 ^ 32 ∧ stagingUsed s + 24 + x.payload.length ≤ 0x800000)
    ∧ (∃ dt : Nat, ∃ s : State, powered s = true ∧ let b := begin' dt s; b.clk.pos ≠ 0)
    ∧ (∃ dt : Nat, ∃ s : State, powered s = true ∧ let b := begin' dt s; ∃ o, s.evr.open' = some o ∧ s.evr.st ≠ .frozen ∧
    b.clk.pos = 0 ∧ lin o.t + secLin s 1 ≤ nowLin b)
    ∧ (∃ dt : Nat, ∃ s : State, powered s = true ∧ let b := begin' dt s; ∃ o, s.evr.open' = some o ∧ s.evr.st ≠ .frozen ∧
    b.clk.pos = 0 ∧ nowLin b < lin o.t + secLin s 1)
    ∧ (∃ dt : Nat, ∃ s : State, powered s = true ∧ let b := begin' dt s; let quietly := s.evr.lossNoSeq + s.evr.lossSeq = 0 ∧ s.evr.st ≠ .frozen;
    ∃ x, ∃ l, quietly ∧ s.evr.staging = x :: l ∧ recLen x ≤ 4096 ∧ s.evr.st = .running ∧ usLin s 100000 ≤ nowLin b - x.closedAt ∧
    (part (isDiag x.ty) s).usable ≠ 0)
    ∧ (∃ s : State, powered s = true ∧ s.evr.st = .mounting)
    ∧ (∃ s : State, powered s = true ∧ s.evr.st ≠ .down ∧ s.evr.st ≠ .frozen)
    ∧ (∃ dt : Nat, ∃ s : State, powered s = true ∧ let b := begin' dt s; s.evr.st = .running ∧ (∃ r ∈ s.evr.staging, secLin s 1 < nowLin b - max r.closedAt s.evr.freezeEnd))
    ∧ (∃ dt : Nat, ∃ s : State, powered s = true ∧ let b := begin' dt s; s.evr.st = .running ∧ (∀ r ∈ s.evr.staging, nowLin b - max r.closedAt s.evr.freezeEnd ≤ secLin s 1)) := by
  refine ⟨?_, ?_, ?_, ?_, ?_, ?_, ?_, ?_, ?_, ?_, ?_, ?_⟩
  · exact ⟨(rc (fun e => {e with queue := [r0, r0]})), by decide +kernel, _, _, by decide +kernel, rfl, by decide +kernel⟩
  · exact ⟨(rc (fun e => {e with queue := [{r0 with ty := 0x8001}], open' := some {o0 with ty := 0x8001, rep := 0}})), by decide +kernel, _, _, by decide +kernel, rfl, _, (Option.eq_some_of_isSome (by decide +kernel)), by decide +kernel⟩
  · exact ⟨(rc (fun e => {e with queue := [r0], open' := some {o0 with ty := 0x4001, rep := 0}})), by decide +kernel, _, _, by decide +kernel, rfl, _, (Option.eq_some_of_isSome (by decide +kernel)), by decide +kernel⟩
  · exact ⟨(rc (fun e => {e with queue := [r0, r0], seqNext := 4000})), by decide +kernel, _, _, by decide +kernel, rfl, by decide +kernel⟩
  · exact ⟨1, (rc (fun e => {e with queue := [r0], open' := some {o0 with ty := 0x4001, rep := 0}})), by decide +kernel⟩
  · exact ⟨0, (rc (fun e => {e with open' := some {o0 with t := unlin (4000*C)}})), by decide +kernel, _, (Option.eq_some_of_isSome (by decide +kernel)), by decide +kernel⟩
  · exact ⟨0, (rc (fun e => {e with queue := [r0], open' := some {o0 with ty := 0x4001, rep := 0}})), by decide +kernel, _, (Option.eq_some_of_isSome (by decide +kernel)), by decide +kernel⟩
  · exact ⟨0, (rc (fun e => {e with staging := [o0, d0, o1], queue := [r0], open' := some o0})), by decide +kernel, _, _, by decide +kernel, rfl, by decide +kernel⟩
  · exact ⟨(rc (fun e => {e with st := .mounting})), by decide +kernel⟩
  · exact ⟨(rc (fun e => {e with queue := [r0], open' := some {o0 with ty := 0x4001, rep := 0}})), by decide +kernel⟩
  · exact ⟨0, (rc (fun e => {e with staging := [{o0 with closedAt := 3999*C}]})), by decide +kernel⟩
  · exact ⟨0, (rc (fun e => {e with queue := [r0], open' := some {o0 with ty := 0x4001, rep := 0}})), by decide +kernel⟩

end ForRecorderIngestAndCommit

namespace ForRecorderCommandEffects

/-- One record of `n` payload bytes in the staging area of an enabled recorder. -/
def staged (n : Nat) : State :=
  { run with evr := { st := .running, staging := [{ payload := List.replicate n 0 }] }, regs := [(0x0F0000, 3)] }
theorem staged_used (n : Nat) (h : 0x100000 ≤ n) : 0x100000 ≤ stagingUsed (staged n) := by
  have e : stagingUsed (staged n) = 24 + n := by simp [stagingUsed, staged, recLen]
  rw [e]; omega

/-- States and operands that meet the hypotheses of `Obligations.RecorderCommandEffects`. -/
theorem witness_RecorderCommandEffects :
    (∃ s : State, lanesRun s = true ∧ bit s.cfg.progBlocks 0xF = true ∧ s.evr.st = .running ∧ rf 0x0F0000 1 1 s = 0)
    ∧ (∃ s : State, lanesRun s = true ∧ bit s.cfg.progBlocks 0xF = true ∧ s.evr.st = .running ∧ rf 0x0F0000 1 1 s = 1 ∧
    0x100000 ≤ stagingUsed s)
    ∧ (∃ dt : Nat, ∃ s : State, lanesRun s = true ∧ bit s.cfg.progBlocks 0xF = true ∧ let b := begin' dt s; s.evr.st = .frozen ∧
    secLin s 60 ≤ nowLin b - s.evr.freezeAt)
    ∧ (∃ dt : Nat, ∃ s : State, lanesRun s = true ∧ bit s.cfg.progBlocks 0xF = true ∧ let b := begin' dt s; s.evr.st = .frozen ∧
    nowLin b - s.evr.freezeAt < secLin s 60)
    ∧ (∃ dt : Nat, ∃ p : BitVec 2, ∃ s : State, lanesRun s = true ∧ bit s.cfg.progBlocks 0xF = true ∧ let b := begin' dt s;
    s.evr.st = .running ∧ s.evr.clearing = false ∧ ∃ e, p ≠ 0#2 ∧ findToken (rv 0x0F0010 s) 4 b = some e ∧ e.scope = 0xFFFFFFFF)
    ∧ (∃ s : State, lanesRun s = true ∧ bit s.cfg.progBlocks 0xF = true ∧ rf 0x0F0000 0 1 s = 0)
    ∧ (∃ s : State, lanesRun s = true ∧ bit s.cfg.progBlocks 0xF = true ∧ rf 0x0F0000 0 1 s = 1 ∧ s.evr.st = .down)
    ∧ (∃ s : State, lanesRun s = true ∧ bit s.cfg.progBlocks 0xF = true ∧ rf 0x0F0000 0 1 s = 1 ∧ s.evr.st = .mounting)
    ∧ (∃ s : State, lanesRun s = true ∧ bit s.cfg.progBlocks 0xF = true ∧ rf 0x0F0000 0 1 s = 1 ∧ (s.evr.st = .running ∨ s.evr.st = .frozen) ∧
    s.evr.reading.isSome = true)
    ∧ (∃ p : BitVec 2, ∃ s : State, lanesRun s = true ∧ bit s.cfg.progBlocks 0xF = true ∧ rf 0x0F0000 0 1 s = 1 ∧ (s.evr.st = .running ∨ s.evr.st = .frozen) ∧
    s.evr.reading = none ∧ p ≠ 0#2 ∧ p ≠ 3#2 ∧ rf 0x0F0018 0 9 s = 1 ∧ s.evr.seqCommit = 0)
    ∧ (∃ dt : Nat, ∃ s : State, lanesRun s = true ∧ bit s.cfg.progBlocks 0xF = true ∧ let b := begin' dt s; s.cand.framErr = false ∧
    s.cand.framProt = false ∧ secLin s 3600 ≤ nowLin b - s.sta.lastUpd) := by
  refine ⟨?_, ?_, ?_, ?_, ?_, ?_, ?_, ?_, ?_, ?_, ?_⟩
  · exact ⟨{ run with evr := { st := .running }, regs := [] }, by decide +kernel⟩
  · exact ⟨(staged 0x100000), by decide +kernel, by decide +kernel, rfl, by decide +kernel, staged_used _ (Nat.le_refl _)⟩
  · exact ⟨0, { run with clk.cycle := 60000, evr := { st := .frozen } }, by decide +kernel⟩
  · exact ⟨0, { run with clk.cycle := 59999, evr := { st := .frozen } }, by decide +kernel⟩
  · exact ⟨0, 1, { run with evr := { st := .running }, regs := [(0x0F0010, 7)], prg.tokVer := [{ id := 7, act := 4, scope := 0xFFFFFFFF, at' := 5000 * 2 ^ 24 }] }, by decide +kernel, by decide +kernel, by decide +kernel, by decide +kernel, _, by decide +kernel, rfl, rfl⟩
  · exact ⟨{ run with evr := { st := .running }, regs := [] }, by decide +kernel⟩
  · exact ⟨{ run with evr := { st := .down }, regs := [(0x0F0000, 1)] }, by decide +kernel⟩
  · exact ⟨{ run with evr := { st := .mounting }, regs := [(0x0F0000, 1)] }, by decide +kernel⟩
  · exact ⟨{ run with evr := { st := .frozen, reading := some {} }, regs := [(0x0F0000, 1)] }, by decide +kernel⟩
  · exact ⟨1, { run with evr := { st := .frozen }, regs := [(0x0F0000, 1), (0x0F0018, 1)] }, by decide +kernel⟩
  · exact ⟨0, { run with clk.cycle := 3600000 }, by decide +kernel⟩

end ForRecorderCommandEffects

namespace ForRecorderCommandEffects2

def rc (f : Recorder → Recorder) (r : List (Nat × Half)) : State := { run with evr := f run.evr, regs := r }
def rg (s : State) : State := {s with cfg.rings := List.replicate 64 0x00000801}
def C : Nat := 16384000
def o0 : SRec := { t := now run, ty := 0x4001, seq := 9, payload := List.replicate 8 1, closedAt := 4000*C }
def o1 : SRec := { o0 with ty := 0x4F01, seq := 8 }
def wj (e : Recorder) : Recorder := {e with j.blocks := [{idx := 4, pages := [[o0]]}], d.blocks := [{idx := 4, pages := [[o1]]}], seqCommit := 9}
def ctl : Nat × Half := (0x0F0000, 3)

/-- States and operands that meet the hypotheses of `Obligations.RecorderCommandEffects`. -/
theorem witness_RecorderCommandEffects_2 :
    (∃ s : State, lanesRun s = true ∧ bit s.cfg.progBlocks 0xF = true ∧ s.evr.st = .running ∧ rf 0x0F0000 1 1 s = 1 ∧
    stagingUsed s < 0x100000)
    ∧ (∃ p : BitVec 2, ∃ s : State, lanesRun s = true ∧ bit s.cfg.progBlocks 0xF = true ∧ s.evr.st = .running ∧
    s.evr.clearing = false ∧ p = 0#2)
    ∧ (∃ dt : Nat, ∃ p : BitVec 2, ∃ s : State, lanesRun s = true ∧ bit s.cfg.progBlocks 0xF = true ∧ let b := begin' dt s;
    s.evr.st = .running ∧ s.evr.clearing = false ∧ p ≠ 0#2 ∧ findToken (rv 0x0F0010 s) 4 b = none)
    ∧ (∃ p : BitVec 2, ∃ s : State, lanesRun s = true ∧ bit s.cfg.progBlocks 0xF = true ∧ rf 0x0F0000 0 1 s = 1 ∧ (s.evr.st = .running ∨ s.evr.st = .frozen) ∧
    s.evr.reading = none ∧ ((p ≠ 1#2 ∧ p ≠ 2#2) ∨ rf 0x0F0018 0 9 s = 0 ∨ 256 < rf 0x0F0018 0 9 s))
    ∧ (∃ dt : Nat, ∃ p : BitVec 2, ∃ s : State, lanesRun s = true ∧ bit s.cfg.progBlocks 0xF = true ∧ let b := begin' dt s;
    rf 0x0F0000 0 1 s = 1 ∧ (s.evr.st = .running ∨ s.evr.st = .frozen) ∧ ∃ r, s.evr.reading = none ∧ p ≠ 0#2 ∧ p ≠ 3#2 ∧
    rf 0x0F0018 0 9 s = 1 ∧ s.rings.length = 64 ∧ committed (p == 2#2) s = [r] ∧ seqLt r.seq (rv 0x0F0014 s) = false ∧
    r.seq < 2 ^ 32 ∧ s.evr.seqCommit ≠ 0 ∧ seqLt s.evr.seqCommit (rv 0x0F0014 s) = false ∧ (part (p == 2#2) s).clearedTo = none ∧
    (itemEntries (plainDesc (recLen r) (now b) 0) (recBytes r false)).length ≤ ringFree Config.readRing.toNat s)
    ∧ (∃ dt : Nat, ∃ s : State, lanesRun s = true ∧ bit s.cfg.progBlocks 0xF = true ∧ let b := begin' dt s; nowLin b - s.sta.lastUpd < secLin s 3600)
    ∧ (∃ s : State, lanesRun s = true ∧ bit s.cfg.progBlocks 0xF = true ∧ ∃ depth : Nat, 15 ≤ depth)
    ∧ (∃ s : State, lanesRun s = true ∧ bit s.cfg.progBlocks 0xF = true ∧ ∃ depth : Nat, depth < 15)
    ∧ (∃ s : State, lanesRun s = true ∧ bit s.cfg.progBlocks 0xF = true ∧ ∃ tenths : Int, -450 ≤ tenths ∧ tenths < 1250 ∧
    -400 ≤ tenths) := by
  refine ⟨?_, ?_, ?_, ?_, ?_, ?_, ?_, ?_, ?_⟩
  · exact ⟨(rg (rc wj [ctl, (0x0F0018, 1), (0x0F0014, 8)])), by decide +kernel⟩
  · exact ⟨0, (rg (rc wj [ctl, (0x0F0018, 1), (0x0F0014, 8)])), by decide +kernel⟩
  · exact ⟨0, 1, (rg (rc wj [ctl, (0x0F0018, 1), (0x0F0014, 8)])), by decide +kernel⟩
  · exact ⟨0, (rg (rc wj [ctl, (0x0F0018, 1), (0x0F0014, 8)])), by decide +kernel⟩
  · exact ⟨0, 1, (rg (rc wj [ctl, (0x0F0018, 1), (0x0F0014, 8)])), by decide +kernel, by decide +kernel, by decide +kernel, by decide +kernel, _, by decide +kernel, by decide +kernel, by decide +kernel, by decide +kernel, by decide +kernel, rfl, by decide +kernel, by decide +kernel, by decide +kernel, by decide +kernel, by decide +kernel, (by refine (?h : ∀ n : Fin 64, _ ≤ ringFree n.val _) ⟨Config.readRing.toNat, Config.readRing.isLt⟩; decide +kernel)⟩
  · exact ⟨0, (rg (rc wj [ctl, (0x0F0018, 1), (0x0F0014, 8)])), by decide +kernel⟩
  · exact ⟨(rg (rc wj [ctl, (0x0F0018, 1), (0x0F0014, 8)])), by decide +kernel, by decide +kernel, 15, by decide +kernel⟩
  · exact ⟨(rg (rc wj [ctl, (0x0F0018, 1), (0x0F0014, 8)])), by decide +kernel, by decide +kernel, 0, by decide +kernel⟩
  · exact ⟨(rg (rc wj [ctl, (0x0F0018, 1), (0x0F0014, 8)])), by decide +kernel, by decide +kernel, (-400), by decide +kernel⟩

end ForRecorderCommandEffects2

namespace ForRelayTransferEffects

def hd : List (Nat × List Byte) := [(1,[7,7]),(2,[9,9,9])]
def cov (p : List Byte) (bad : Nat := 0) (hd : Nat := 5 * 2^64 + 1024 * 2^16) : LinkCover := { head := BitVec.ofNat 128 hd, check := BitVec.ofNat 64 (linkCheck (leBytes 16 hd ++ pad8 p) + bad) }
def seg (tr : Fin 8) (nd : Nat) (w : Nat) (b : List Byte) : RelaySeg := { transport := tr, node := BitVec.ofNat 8 nd, word := BitVec.ofNat 32 w, dest := 0, bytes := b, link := cov (leBytes 4 w ++ b) }
def cw (k c sg : Nat) : Nat := 2 + 16 * k + 64 * c + 65536 * sg
def le (n v : Nat) : List Byte := leBytes n v
def hdr (kind chunks len net nd seq : Nat) : List Byte :=
  let h := le 4 0x4D494B48 ++ le 1 kind ++ le 1 1 ++ le 1 0 ++ le 1 (Config.formatMajor kind) ++ le 4 0x40960001 ++ le 4 len ++ le 2 chunks ++ le 2 net ++ le 1 nd ++ le 1 0 ++ le 1 (if kind = 2 then 1 else 0) ++ le 1 0 ++ le 4 seq ++ le 4 0 ++ le 4 0xFFFFFFFF
  let h := h ++ List.replicate (252 - h.length) 0
  h ++ le 4 (crc32c h)
def H := hdr 3 3 131075 0xFFFF 0xFF 4
def tbl (n : Nat) : List Nat := (List.range n).map (fun i => crc32c (List.replicate 3 (BitVec.ofNat 8 i)))
def dl : Download := { kind := 3, header := H, store := true, upTransport := 1, upNode := 5, version := 0x103, good := 2, table := tbl 3 }
def cfgR (s : State) : State := { s with lnk.l := List.replicate 3 { width := 4 },  cfg.upstream := 2 + 32 + 64, cfg.downstream := [{transport := 2, node := 9}], regs := [(0x100000, 3#32)] }
def wd (d : Download) : State := { cfgR run with upd.dls := [d] }
def nb : Neighbour := { transport := 1, node := 5, answered := true, next := 3, inFlight := [1, 2], good := 1 }

/-- States and operands that meet the hypotheses of `Obligations.RelayTransferEffects`. -/
theorem witness_RelayTransferEffects :
    (∃ m : RelaySeg, ∃ s : State, relayRuns s = true ∧ m.transport.val = 0 ∧ m.dest.toNat ≠ s.cfg.sched.own)
    ∧ (∃ dt : Nat, ∃ m : RelaySeg, ∃ s : State, relayRuns s = true ∧ let b0 := begin' dt s; let q := linkIn (m.transport.val - 5) m.link (leBytes 4 m.word.toNat ++ m.bytes) b0;
    5 ≤ m.transport.val ∧ q.1 = false)
    ∧ (∃ dt : Nat, ∃ m : RelaySeg, ∃ s : State, relayRuns s = true ∧ let b0 := begin' dt s; let q := linkIn (m.transport.val - 5) m.link (leBytes 4 m.word.toNat ++ m.bytes) b0;
    let tr := m.transport.val; let seg := m.bytes.take (segSize tr); (m.transport.val = 0 → m.dest.toNat = s.cfg.sched.own) ∧
    (5 ≤ m.transport.val → q.1 = true) ∧ s.upd.offers = [] ∧ joinSegs [(rSeg m.word, seg)] ((258 + segSize tr - 1) / segSize tr) = none)
    ∧ (∃ dt : Nat, ∃ m : RelaySeg, ∃ s : State, relayRuns s = true ∧ let b0 := begin' dt s; let q := linkIn (m.transport.val - 5) m.link (leBytes 4 m.word.toNat ++ m.bytes) b0;
    let b := if m.transport.val < 5 then b0 else q.2; let tr := m.transport.val; let nd := m.node.toNat; let h := m.bytes.take 256;
    let r := offerReason h (fieldAt m.bytes 256 2) tr nd b; (m.transport.val = 0 → m.dest.toNat = s.cfg.sched.own) ∧ (5 ≤ m.transport.val → q.1 = true) ∧
    s.upd.offers = [] ∧ segSize tr = 1024 ∧ rSeg m.word = 0 ∧ m.bytes.length = 258 ∧ r ≠ 0)
    ∧ (∃ dt : Nat, ∃ m : RelaySeg, ∃ s : State, relayRuns s = true ∧ let b0 := begin' dt s; let q := linkIn (m.transport.val - 5) m.link (leBytes 4 m.word.toNat ++ m.bytes) b0;
    let b := if m.transport.val < 5 then b0 else q.2; let tr := m.transport.val; let nd := m.node.toNat; let h := m.bytes.take 256;
    let r := offerReason h (fieldAt m.bytes 256 2) tr nd b; (m.transport.val = 0 → m.dest.toNat = s.cfg.sched.own) ∧ (5 ≤ m.transport.val → q.1 = true) ∧
    s.upd.offers = [] ∧ segSize tr = 1024 ∧ rSeg m.word = 0 ∧ m.bytes.length = 258 ∧ ∃ d, r = 0 ∧ dlOf (hKind h) s = some d)
    ∧ (∃ dt : Nat, ∃ m : RelaySeg, ∃ s : State, relayRuns s = true ∧ let b0 := begin' dt s; let q := linkIn (m.transport.val - 5) m.link (leBytes 4 m.word.toNat ++ m.bytes) b0;
    let b := if m.transport.val < 5 then b0 else q.2; let tr := m.transport.val; let nd := m.node.toNat; let h := m.bytes.take 256;
    let r := offerReason h (fieldAt m.bytes 256 2) tr nd b; let canWrite := fun (x : Selector) => x.slots.length = 6 ∧ s.cand.framProt = false;
    (m.transport.val = 0 → m.dest.toNat = s.cfg.sched.own) ∧ (5 ≤ m.transport.val → q.1 = true) ∧ s.upd.offers = [] ∧
    segSize tr = 1024 ∧ rSeg m.word = 0 ∧ m.bytes.length = 258 ∧ ∃ x, r = 0 ∧ (∀ d ∈ s.upd.dls, d.kind ≠ hKind h) ∧
    selector s = some x ∧ canWrite x)
    ∧ (∃ dt : Nat, ∃ m : RelaySeg, ∃ s : State, relayRuns s = true ∧ let b0 := begin' dt s; let q := linkIn (m.transport.val - 5) m.link (leBytes 4 m.word.toNat ++ m.bytes) b0;
    let k := rKind m.word; let c := rChunk m.word; let tr := m.transport.val; let nd := m.node.toNat; let seg := m.bytes.take (segSize tr);
    (m.transport.val = 0 → m.dest.toNat = s.cfg.sched.own) ∧ (5 ≤ m.transport.val → q.1 = true) ∧ ∃ d, dlOf k s = some d ∧
    d.upTransport = tr ∧ d.upNode = nd ∧ d.good ≤ c ∧ c < hChunks d.header ∧ (∀ x ∈ d.held, x.1 ≠ c) ∧ d.held.length + ((d.segs.map (fun x => x.1)).filter (fun x => x != c)).eraseDups.length < 8 ∧
    let segs := (c, rSeg m.word, seg) :: d.segs.filter (fun x => !(x.1 == c && x.2.1 == rSeg m.word)); let j := joinSegs ((segs.filter (fun x => x.1 == c)).map (fun x => x.2)) ((chunkLen d.header c + segSize tr - 1) / segSize tr);
    j = none)
    ∧ (∃ dt : Nat, ∃ m : RelaySeg, ∃ s : State, relayRuns s = true ∧ let b0 := begin' dt s; let q := linkIn (m.transport.val - 5) m.link (leBytes 4 m.word.toNat ++ m.bytes) b0;
    let k := rKind m.word; let c := rChunk m.word; let tr := m.transport.val; let nd := m.node.toNat; let seg := m.bytes.take (segSize tr);
    (m.transport.val = 0 → m.dest.toNat = s.cfg.sched.own) ∧ (5 ≤ m.transport.val → q.1 = true) ∧ ∃ d, dlOf k s = some d ∧
    d.upTransport = tr ∧ d.upNode = nd ∧ d.good ≤ c ∧ c < hChunks d.header ∧ (∀ x ∈ d.held, x.1 ≠ c) ∧ d.held.length + ((d.segs.map (fun x => x.1)).filter (fun x => x != c)).eraseDups.length < 8 ∧
    let segs := (c, rSeg m.word, seg) :: d.segs.filter (fun x => !(x.1 == c && x.2.1 == rSeg m.word)); let j := joinSegs ((segs.filter (fun x => x.1 == c)).map (fun x => x.2)) ((chunkLen d.header c + segSize tr - 1) / segSize tr);
    ∃ y, j = some y ∧ let x := y.take (chunkLen d.header c); chunkOk d c x = true ∧ d.store = true)
    ∧ (∃ dt : Nat, ∃ m : RelaySeg, ∃ s : State, relayRuns s = true ∧ let b0 := begin' dt s; let q := linkIn (m.transport.val - 5) m.link (leBytes 4 m.word.toNat ++ m.bytes) b0;
    let k := rKind m.word; let c := rChunk m.word; let tr := m.transport.val; let nd := m.node.toNat; let seg := m.bytes.take (segSize tr);
    (m.transport.val = 0 → m.dest.toNat = s.cfg.sched.own) ∧ (5 ≤ m.transport.val → q.1 = true) ∧ ∃ d, dlOf k s = some d ∧
    d.upTransport = tr ∧ d.upNode = nd ∧ d.good ≤ c ∧ c < hChunks d.header ∧ (∀ x ∈ d.held, x.1 ≠ c) ∧ d.held.length + ((d.segs.map (fun x => x.1)).filter (fun x => x != c)).eraseDups.length < 8 ∧
    let segs := (c, rSeg m.word, seg) :: d.segs.filter (fun x => !(x.1 == c && x.2.1 == rSeg m.word)); let j := joinSegs ((segs.filter (fun x => x.1 == c)).map (fun x => x.2)) ((chunkLen d.header c + segSize tr - 1) / segSize tr);
    ∃ y, j = some y ∧ let x := y.take (chunkLen d.header c); chunkOk d c x = false ∧ badCount c d.badUp < 2)
    ∧ (∃ dt : Nat, ∃ m : RelaySeg, ∃ s : State, relayRuns s = true ∧ let b0 := begin' dt s; let q := linkIn (m.transport.val - 5) m.link (leBytes 4 m.word.toNat ++ m.bytes) b0;
    let k := rKind m.word; let c := rChunk m.word; let tr := m.transport.val; let nd := m.node.toNat; let seg := m.bytes.take (segSize tr);
    (m.transport.val = 0 → m.dest.toNat = s.cfg.sched.own) ∧ (5 ≤ m.transport.val → q.1 = true) ∧ ∃ d, dlOf k s = some d ∧
    d.upTransport = tr ∧ d.upNode = nd ∧ d.good ≤ c ∧ c < hChunks d.header ∧ (∀ x ∈ d.held, x.1 ≠ c) ∧ d.held.length + ((d.segs.map (fun x => x.1)).filter (fun x => x != c)).eraseDups.length < 8 ∧
    let segs := (c, rSeg m.word, seg) :: d.segs.filter (fun x => !(x.1 == c && x.2.1 == rSeg m.word)); let j := joinSegs ((segs.filter (fun x => x.1 == c)).map (fun x => x.2)) ((chunkLen d.header c + segSize tr - 1) / segSize tr);
    ∃ y, j = some y ∧ let x := y.take (chunkLen d.header c); chunkOk d c x = false ∧ 2 ≤ badCount c d.badUp)
    ∧ (∃ dt : Nat, ∃ m : RelaySeg, ∃ s : State, relayRuns s = true ∧ let b0 := begin' dt s; let q := linkIn (m.transport.val - 5) m.link (leBytes 4 m.word.toNat ++ m.bytes) b0;
    let k := rKind m.word; let c := rChunk m.word; let tr := m.transport.val; let nd := m.node.toNat; (m.transport.val = 0 → m.dest.toNat = s.cfg.sched.own) ∧
    (5 ≤ m.transport.val → q.1 = true) ∧ ∃ d, ∃ n, dlOf k s = some d ∧ d.store = true ∧ d.good < hChunks d.header ∧
    d.down.find? (isNode tr nd) = some n ∧ c ∈ n.inFlight ∧ c < n.next)
    ∧ (∃ dt : Nat, ∃ m : RelaySeg, ∃ s : State, relayRuns s = true ∧ let b0 := begin' dt s; let q := linkIn (m.transport.val - 5) m.link (leBytes 4 m.word.toNat ++ m.bytes) b0;
    let k := rKind m.word; let c := rChunk m.word; let tr := m.transport.val; let nd := m.node.toNat; (m.transport.val = 0 → m.dest.toNat = s.cfg.sched.own) ∧
    (5 ≤ m.transport.val → q.1 = true) ∧ ∃ d, ∃ n, dlOf k s = some d ∧ d.store = true ∧ d.good < hChunks d.header ∧
    d.down.find? (isNode tr nd) = some n ∧ ∃ y, c ∈ n.inFlight ∧ badCount c n.bads < 2 ∧ d.held.find? (fun x => x.1 == c) = some (c, y))
    ∧ (∃ dt : Nat, ∃ m : RelaySeg, ∃ s : State, relayRuns s = true ∧ let b0 := begin' dt s; let q := linkIn (m.transport.val - 5) m.link (leBytes 4 m.word.toNat ++ m.bytes) b0;
    let k := rKind m.word; let c := rChunk m.word; let tr := m.transport.val; let nd := m.node.toNat; (m.transport.val = 0 → m.dest.toNat = s.cfg.sched.own) ∧
    (5 ≤ m.transport.val → q.1 = true) ∧ ∃ d, ∃ n, dlOf k s = some d ∧ d.store = true ∧ d.good < hChunks d.header ∧
    d.down.find? (isNode tr nd) = some n ∧ c ∈ n.inFlight ∧ 2 ≤ badCount c n.bads)
    ∧ (∃ dt : Nat, ∃ m : RelaySeg, ∃ s : State, relayRuns s = true ∧ let b0 := begin' dt s; let q := linkIn (m.transport.val - 5) m.link (leBytes 4 m.word.toNat ++ m.bytes) b0;
    let k := rKind m.word; let tr := m.transport.val; let nd := m.node.toNat; (m.transport.val = 0 → m.dest.toNat = s.cfg.sched.own) ∧
    (5 ≤ m.transport.val → q.1 = true) ∧ ∃ d, ∃ n, dlOf k s = some d ∧ d.store = true ∧ d.good < hChunks d.header ∧
    d.down.find? (isNode tr nd) = some n ∧ takesPart n = true ∧ d.held = [])
    ∧ (∃ dt : Nat, ∃ m : RelaySeg, ∃ s : State, relayRuns s = true ∧ let b0 := begin' dt s; let q := linkIn (m.transport.val - 5) m.link (leBytes 4 m.word.toNat ++ m.bytes) b0;
    let k := rKind m.word; let tr := m.transport.val; let nd := m.node.toNat; (m.transport.val = 0 → m.dest.toNat = s.cfg.sched.own) ∧
    (5 ≤ m.transport.val → q.1 = true) ∧ ∃ d, ∃ n, dlOf k s = some d ∧ d.store = false ∧ d.down = [n] ∧ isNode tr nd n = true ∧
    takesPart n = true)
    ∧ (∃ kind : BitVec 2, ∃ s : State, relayRuns s = true ∧ let canWrite := fun (x : Selector) => x.slots.length = 6 ∧ s.cand.framProt = false;
    ∃ d, dlOf kind.toNat s = some d ∧ ∃ x, ∃ y, d.store = true ∧ Memory.wf s.mem = true ∧ selector s = some x ∧ canWrite x ∧
    d.held.find? (fun x => x.1 == d.good) = some (d.good, y))
    ∧ (∃ dt : Nat, ∃ kind : BitVec 2, ∃ s : State, relayRuns s = true ∧ let b0 := begin' dt s; ∃ d, dlOf kind.toNat s = some d ∧
    ∃ n, d.down = [n] ∧ takesPart n = true ∧ (n.answered = false ∨ n.stopped = true) ∧ secLin b0 5 ≤ nowLin b0 - n.offerAt)
    ∧ (∃ dt : Nat, ∃ kind : BitVec 2, ∃ s : State, relayRuns s = true ∧ let b0 := begin' dt s; ∃ d, dlOf kind.toNat s = some d ∧
    ∃ n, d.down = [n] ∧ takesPart n = true ∧ (n.answered = false ∨ n.stopped = true) ∧ nowLin b0 - n.offerAt < secLin b0 5)
    ∧ (∃ dt : Nat, ∃ kind : BitVec 2, ∃ s : State, relayRuns s = true ∧ let b0 := begin' dt s; ∃ d, dlOf kind.toNat s = some d ∧
    ∃ n, d.down = [n] ∧ takesPart n = true ∧ (n.answered = false ∨ n.stopped = true) ∧ secLin b0 1800 ≤ nowLin b0 - n.silentAt ∧
    d.store = true ∧ d.good < hChunks d.header)
    ∧ (∃ dt : Nat, ∃ kind : BitVec 2, ∃ s : State, relayRuns s = true ∧ let b0 := begin' dt s; ∃ d, dlOf kind.toNat s = some d ∧
    ∃ n, d.down = [n] ∧ takesPart n = true ∧ (n.answered = false ∨ n.stopped = true) ∧ secLin b0 1800 ≤ nowLin b0 - n.silentAt ∧
    d.store = false)
    ∧ (∃ dt : Nat, ∃ kind : BitVec 2, ∃ s : State, relayRuns s = true ∧ let b0 := begin' dt s; ∃ d, dlOf kind.toNat s = some d ∧
    ∃ n, d.down = [n] ∧ takesPart n = true ∧ (n.answered = false ∨ n.stopped = true) ∧ nowLin b0 - n.silentAt < secLin b0 1800)
    ∧ (∃ dt : Nat, ∃ kind : BitVec 2, ∃ s : State, relayRuns s = true ∧ let b0 := begin' dt s; ∃ d, dlOf kind.toNat s = some d ∧
    ∃ n, d.down = [n] ∧ takesPart n = true ∧ n.answered = true ∧ n.stopped = false ∧ n.inFlight ≠ [] ∧ secLin b0 1 ≤ nowLin b0 - n.segAt)
    ∧ (∃ dt : Nat, ∃ kind : BitVec 2, ∃ s : State, relayRuns s = true ∧ let b0 := begin' dt s; ∃ d, dlOf kind.toNat s = some d ∧
    ∃ n, d.down = [n] ∧ takesPart n = true ∧ n.answered = true ∧ n.stopped = false ∧ n.inFlight ≠ [] ∧ nowLin b0 - n.segAt < secLin b0 1)
    ∧ (∃ kind : BitVec 2, ∃ s : State, relayRuns s = true ∧ let canWrite := fun (x : Selector) => x.slots.length = 6 ∧ s.cand.framProt = false;
    ∃ bank, ∃ x, verifying kind.toNat s = some bank ∧ kind ≠ 0#2 ∧ selector s = some x ∧ canWrite x)
    ∧ (∃ s : State, relayRuns s = true ∧ lanesRun s = true ∧ bit s.cfg.progBlocks 0x10 = true) := by
  refine ⟨?_, ?_, ?_, ?_, ?_, ?_, ?_, ?_, ?_, ?_, ?_, ?_, ?_, ?_, ?_, ?_, ?_, ?_, ?_, ?_, ?_, ?_, ?_, ?_, ?_⟩
  · exact ⟨({ seg 0 5 (cw 3 2 0) [2,2,3] with dest := 9 }), run, by decide +kernel⟩
  · exact ⟨0, (seg 6 6 (cw 3 0 0) (H ++ le 2 0x103)), run, by decide +kernel⟩
  · exact ⟨0, (seg 0 6 (cw 3 0 2) [1,2]), run, by decide +kernel⟩
  · exact ⟨0, (seg 1 5 (cw 3 0 0) (H ++ le 2 0x103)), run, by decide +kernel⟩
  · exact ⟨0, (seg 1 5 (cw 3 0 0) (H ++ le 2 0x103)), (wd dl), by decide +kernel, by decide +kernel, by decide +kernel, by decide +kernel, by decide +kernel, by decide +kernel, by decide +kernel, _, by decide +kernel, (Option.eq_some_of_isSome (by decide +kernel))⟩
  · exact ⟨0, (seg 1 5 (cw 3 0 0) (H ++ le 2 0x103)), ((fun s => { s with pwr.phase := .noConfig, cfg.present := false } : State → State) (run)), by decide +kernel, by decide +kernel, by decide +kernel, by decide +kernel, by decide +kernel, by decide +kernel, by decide +kernel, _, by decide +kernel, by decide +kernel, (Option.eq_some_of_isSome (by decide +kernel)), by decide +kernel⟩
  · exact ⟨0, (seg 1 5 (cw 3 2 1) [1,1]), (wd dl), by decide +kernel, by decide +kernel, by decide +kernel, _, (Option.eq_some_of_isSome (by decide +kernel)), by decide +kernel⟩
  · exact ⟨0, (seg 1 5 (cw 3 2 0) [2,2,2]), (wd dl), by decide +kernel, by decide +kernel, by decide +kernel, _, (Option.eq_some_of_isSome (by decide +kernel)), by decide +kernel, by decide +kernel, by decide +kernel, by decide +kernel, by decide +kernel, by decide +kernel, _, (Option.eq_some_of_isSome (by decide +kernel)), by decide +kernel⟩
  · exact ⟨0, (seg 1 5 (cw 3 2 0) [2,2,3]), (wd dl), by decide +kernel, by decide +kernel, by decide +kernel, _, (Option.eq_some_of_isSome (by decide +kernel)), by decide +kernel, by decide +kernel, by decide +kernel, by decide +kernel, by decide +kernel, by decide +kernel, _, (Option.eq_some_of_isSome (by decide +kernel)), by decide +kernel⟩
  · exact ⟨0, (seg 1 5 (cw 3 2 0) [2,2,3]), (wd { dl with badUp := [(2, 2)] }), by decide +kernel, by decide +kernel, by decide +kernel, _, (Option.eq_some_of_isSome (by decide +kernel)), by decide +kernel, by decide +kernel, by decide +kernel, by decide +kernel, by decide +kernel, by decide +kernel, _, (Option.eq_some_of_isSome (by decide +kernel)), by decide +kernel⟩
  · exact ⟨0, (seg 1 5 (cw 3 2 0) [2,2,2]), (wd { dl with down := [nb], held := hd }), by decide +kernel, by decide +kernel, by decide +kernel, _, _, (Option.eq_some_of_isSome (by decide +kernel)), by decide +kernel, by decide +kernel, (Option.eq_some_of_isSome (by decide +kernel)), by decide +kernel⟩
  · exact ⟨0, (seg 1 5 (cw 3 2 0) [2,2,2]), (wd { dl with down := [nb], held := hd }), by decide +kernel, by decide +kernel, by decide +kernel, _, _, (Option.eq_some_of_isSome (by decide +kernel)), by decide +kernel, by decide +kernel, (Option.eq_some_of_isSome (by decide +kernel)), _, by decide +kernel, by decide +kernel, rfl⟩
  · exact ⟨0, (seg 1 5 (cw 3 2 0) [2,2,2]), (wd { dl with good := 1, down := [{nb with bads := [(2,2),(1,1)]}], held := hd }), by decide +kernel, by decide +kernel, by decide +kernel, _, _, (Option.eq_some_of_isSome (by decide +kernel)), by decide +kernel, by decide +kernel, (Option.eq_some_of_isSome (by decide +kernel)), by decide +kernel⟩
  · exact ⟨0, (seg 1 5 (cw 3 0 0) (H ++ le 2 0x103)), (wd { dl with down := [{nb with answered := false, inFlight := []}] }), by decide +kernel, by decide +kernel, by decide +kernel, _, _, (Option.eq_some_of_isSome (by decide +kernel)), by decide +kernel, by decide +kernel, (Option.eq_some_of_isSome (by decide +kernel)), by decide +kernel⟩
  · exact ⟨0, (seg 1 5 (cw 3 0 0) (H ++ le 2 0x103)), (wd { dl with store := false, down := [nb] }), by decide +kernel, by decide +kernel, by decide +kernel, _, _, (Option.eq_some_of_isSome (by decide +kernel)), by decide +kernel, rfl, by decide +kernel⟩
  · exact ⟨3, (wd { dl with down := [nb], held := hd }), by decide +kernel, _, (Option.eq_some_of_isSome (by decide +kernel)), _, ([9, 9, 9]), by decide +kernel, by decide +kernel, (Option.eq_some_of_isSome (by decide +kernel)), by decide +kernel⟩
  · exact ⟨0, 3, (wd { dl with down := [{nb with answered := false, inFlight := []}] }), by decide +kernel, _, (Option.eq_some_of_isSome (by decide +kernel)), _, rfl, by decide +kernel⟩
  · exact ⟨0, 3, (wd { dl with down := [{ nb with answered := false, offerAt := cycleLin 5000 }] }), by decide +kernel, _, rfl, _, rfl, by decide +kernel⟩
  · exact ⟨0, 3, ({wd { dl with down := [{nb with stopped := true}] } with clk.cycle := 1900000}), by decide +kernel, _, (Option.eq_some_of_isSome (by decide +kernel)), _, rfl, by decide +kernel⟩
  · exact ⟨0, 3, ({wd { dl with store := false, down := [{nb with stopped := true}] } with clk.cycle := 1900000}), by decide +kernel, _, (Option.eq_some_of_isSome (by decide +kernel)), _, rfl, by decide +kernel⟩
  · exact ⟨0, 3, (wd { dl with down := [{nb with answered := false, inFlight := []}] }), by decide +kernel, _, (Option.eq_some_of_isSome (by decide +kernel)), _, rfl, by decide +kernel⟩
  · exact ⟨0, 2, ({cfgR run with upd.dls := [dl, { dl with kind := 2, store := false, down := [nb] }, {dl with kind := 1, down := [nb]}]}), by decide +kernel, _, (Option.eq_some_of_isSome (by decide +kernel)), _, rfl, by decide +kernel⟩
  · exact ⟨0, 3, (wd { dl with down := [{ nb with segAt := cycleLin 5000 }] }), by decide +kernel, _, rfl, _, rfl, by decide +kernel⟩
  · exact ⟨3, ({cfgR run with cand.sel := { c0 := some { selSeq := 3, prev := 0, sel := 4, prevValid := true, slots := [{st := 3},{},{st := 2, seq := 8},{},{},{}]}, c1 := none }}), by decide +kernel, 0, _, by decide +kernel, by decide +kernel, (Option.eq_some_of_isSome (by decide +kernel)), by decide +kernel⟩
  · exact ⟨run, by decide +kernel⟩

end ForRelayTransferEffects

namespace ForActivationEffects

def selT : Selector := { selSeq := 3, sel := 0x1E, prev := 0x19, trial := true, method := 1, slots := [{st := 3, seq := 1},{st := 3},{st := 3, seq := 2},{st := 3, seq := 2},{st := 3},{st := 3, seq := 3}] }
def u (a : ActState) (m : Nat) (t : Nat) (x : Exch) (tr : Bool) : State := { run with upd := { act := a, method := m, kinds := 4, target := t }, xch := x, cand.sel := { c0 := some { selT with trial := tr }, c1 := none }, regs := [(0x100000, 3#32), (0x100008, 6000#32), (0x070044, 0#32)], vm.valid1 := true, vm.prog1 := some {}, vm.prog0 := some {}, vm.valid0 := true }
def xr : Exch := { st := .ready, image := some {}, target := 1, forActivation := true }
def q0 : QuietIn := { reconvUs := 10, checkUs := 20, stallUs := 0 }

/-- States and operands that meet the hypotheses of `Obligations.ActivationEffects`. -/
theorem witness_ActivationEffects :
    (∃ dt : Nat, ∃ kinds : BitVec 3, ∃ s : State, ∃ x : Selector, lanesRun s = true ∧ bit s.cfg.progBlocks 0x10 = true ∧
    s.lnk.pair ≠ .active ∧ selector s = some x ∧ s.cand.framProt = false ∧ pinsOf s ∧ let b := begin' dt s; prepareReason kinds.toNat b ≠ 0)
    ∧ (∃ s : State, ∃ x : Selector, lanesRun s = true ∧ bit s.cfg.progBlocks 0x10 = true ∧ s.lnk.pair ≠ .active ∧ selector s = some x ∧
    s.cand.framProt = false ∧ pinsOf s ∧ s.upd.act = .preparing ∧ s.upd.method = 3)
    ∧ (∃ s : State, ∃ x : Selector, lanesRun s = true ∧ bit s.cfg.progBlocks 0x10 = true ∧ s.lnk.pair ≠ .active ∧ selector s = some x ∧
    s.cand.framProt = false ∧ pinsOf s ∧ s.upd.act = .preparing ∧ ∃ p, s.upd.method ≠ 3 ∧ s.xch.st = .preparing ∧
    s.xch.image = some p ∧ s.xch.work = [] ∧ prepReason s.xch.work (matched p s) s = 0)
    ∧ (∃ dt : Nat, ∃ s : State, ∃ x : Selector, lanesRun s = true ∧ bit s.cfg.progBlocks 0x10 = true ∧ s.lnk.pair ≠ .active ∧
    selector s = some x ∧ s.cand.framProt = false ∧ pinsOf s ∧ let b := begin' dt s; updArmReason b ≠ 0)
    ∧ (∃ dt : Nat, ∃ s : State, ∃ x : Selector, lanesRun s = true ∧ bit s.cfg.progBlocks 0x10 = true ∧ s.lnk.pair ≠ .active ∧
    selector s = some x ∧ s.cand.framProt = false ∧ pinsOf s ∧ let b := begin' dt s; updArmReason b = 0 ∧ s.upd.method = 3)
    ∧ (∃ dt : Nat, ∃ s : State, ∃ x : Selector, lanesRun s = true ∧ bit s.cfg.progBlocks 0x10 = true ∧ s.lnk.pair ≠ .active ∧
    selector s = some x ∧ s.cand.framProt = false ∧ pinsOf s ∧ let b := begin' dt s; updArmReason b = 0 ∧ s.upd.method ≠ 3)
    ∧ (∃ s : State, ∃ x : Selector, lanesRun s = true ∧ bit s.cfg.progBlocks 0x10 = true ∧ s.lnk.pair ≠ .active ∧ selector s = some x ∧
    s.cand.framProt = false ∧ pinsOf s ∧ let pending := s.upd.act = .preparing ∨ s.upd.act = .ready ∨ s.upd.act = .armed;
    (¬ pending))
    ∧ (∃ s : State, ∃ x : Selector, lanesRun s = true ∧ bit s.cfg.progBlocks 0x10 = true ∧ s.lnk.pair ≠ .active ∧ selector s = some x ∧
    s.cand.framProt = false ∧ pinsOf s ∧ let pending := s.upd.act = .preparing ∨ s.upd.act = .ready ∨ s.upd.act = .armed;
    pending ∧ s.upd.method = 3)
    ∧ (∃ s : State, ∃ x : Selector, lanesRun s = true ∧ bit s.cfg.progBlocks 0x10 = true ∧ s.lnk.pair ≠ .active ∧ selector s = some x ∧
    s.cand.framProt = false ∧ pinsOf s ∧ let pending := s.upd.act = .preparing ∨ s.upd.act = .ready ∨ s.upd.act = .armed;
    pending ∧ s.upd.method ≠ 3 ∧ s.xch.window = false ∧ s.xch.st ∈ [.loading, .checking, .preparing, .ready, .armed])
    ∧ (∃ s : State, ∃ x : Selector, lanesRun s = true ∧ bit s.cfg.progBlocks 0x10 = true ∧ s.lnk.pair ≠ .active ∧ selector s = some x ∧
    s.cand.framProt = false ∧ pinsOf s ∧ activationDue s = false)
    ∧ (∃ s : State, ∃ x : Selector, lanesRun s = true ∧ bit s.cfg.progBlocks 0x10 = true ∧ s.lnk.pair ≠ .active ∧ selector s = some x ∧
    s.cand.framProt = false ∧ pinsOf s ∧ s.upd.act = .armed ∧ s.upd.target ≤ s.clk.cycle ∧ s.upd.method = 3)
    ∧ (∃ q : QuietIn, ∃ s : State, ∃ x : Selector, lanesRun s = true ∧ bit s.cfg.progBlocks 0x10 = true ∧ s.lnk.pair ≠ .active ∧
    selector s = some x ∧ s.cand.framProt = false ∧ pinsOf s ∧ ∃ p, s.upd.act = .armed ∧ s.upd.target ≤ s.clk.cycle ∧
    s.upd.method = 1 ∧ s.upd.kinds = 4 ∧ s.xch.st = .draining ∧ s.xch.window = true ∧ s.xch.forActivation = true ∧
    s.prg.active = [] ∧ s.xch.image = some p ∧ reconvLimit false + q.stallUs < q.reconvUs)
    ∧ (∃ dt : Nat, ∃ q : QuietIn, ∃ s : State, ∃ x : Selector, lanesRun s = true ∧ bit s.cfg.progBlocks 0x10 = true ∧
    s.lnk.pair ≠ .active ∧ selector s = some x ∧ s.cand.framProt = false ∧ pinsOf s ∧ let b := begin' dt s; ∃ p,
    s.upd.act = .armed ∧ s.upd.target ≤ s.clk.cycle ∧ s.upd.method = 1 ∧ s.upd.kinds = 4 ∧ s.xch.st = .draining ∧
    s.xch.window = true ∧ s.xch.forActivation = true ∧ s.prg.active = [] ∧ s.xch.image = some p ∧ q.reconvUs ≤ reconvLimit false + q.stallUs ∧
    ∃ e : ConvEnd, ∃ n : Nat, ∃ u : State, convertList p (s.xch.work.filter isDirty) (cycleStart dt s) = ((e, n), u) ∧
    u.prg.mode ≠ .halted ∧ u.xch = (cycleStart dt s).xch ∧ u.upd = s.upd ∧ u.cand = b.cand ∧ u.lnk.pair ≠ .active ∧ e = .done ∧
    q.checkUs ≤ checkLimit false + q.stallUs ∧ headerBad p u = none ∧ notComplements u = false)
    ∧ (∃ s : State, ∃ x : Selector, lanesRun s = true ∧ bit s.cfg.progBlocks 0x10 = true ∧ s.lnk.pair ≠ .active ∧ selector s = some x ∧
    s.cand.framProt = false ∧ pinsOf s ∧ (s.upd.act ≠ .trial ∨ x.trial = false ∨ s.prg.mode ≠ .normal))
    ∧ (∃ dt : Nat, ∃ s : State, ∃ x : Selector, lanesRun s = true ∧ bit s.cfg.progBlocks 0x10 = true ∧ s.lnk.pair ≠ .active ∧
    selector s = some x ∧ s.cand.framProt = false ∧ pinsOf s ∧ let b := begin' dt s; s.upd.act = .trial ∧ x.trial = true ∧
    confirmOver b = false)
    ∧ (∃ dt : Nat, ∃ s : State, ∃ x : Selector, lanesRun s = true ∧ bit s.cfg.progBlocks 0x10 = true ∧ s.lnk.pair ≠ .active ∧
    selector s = some x ∧ s.cand.framProt = false ∧ pinsOf s ∧ let b := begin' dt s; s.upd.act = .trial ∧ x.trial = true ∧
    confirmOver b = true ∧ (s.prg.mode ≠ .normal ∨ s.upd.method = 3))
    ∧ (∃ dt : Nat, ∃ s : State, ∃ x : Selector, lanesRun s = true ∧ bit s.cfg.progBlocks 0x10 = true ∧ s.lnk.pair ≠ .active ∧
    selector s = some x ∧ s.cand.framProt = false ∧ pinsOf s ∧ let b := begin' dt s; s.upd.act = .trial ∧ x.trial = true ∧
    confirmOver b = true ∧ s.prg.mode = .normal ∧ (s.upd.method = 1 ∨ s.upd.method = 2)) := by
  refine ⟨?_, ?_, ?_, ?_, ?_, ?_, ?_, ?_, ?_, ?_, ?_, ?_, ?_, ?_, ?_, ?_, ?_⟩
  · exact ⟨0, 0, run, _, by decide +kernel, by decide +kernel, by decide +kernel, (Option.eq_some_of_isSome (by decide +kernel)), by dsimp only [pinsOf]; decide +kernel⟩
  · exact ⟨(u .preparing 3 0 {} false), _, by decide +kernel, by decide +kernel, by decide +kernel, (Option.eq_some_of_isSome (by decide +kernel)), by dsimp only [pinsOf]; decide +kernel⟩
  · exact ⟨(u .preparing 1 0 {st := .preparing, image := some {}, target := 1, forActivation := true} false), _, by decide +kernel, by decide +kernel, by decide +kernel, (Option.eq_some_of_isSome (by decide +kernel)), by decide +kernel, by dsimp only [pinsOf]; decide +kernel, by decide +kernel, _, by decide +kernel, by decide +kernel, (Option.eq_some_of_isSome (by decide +kernel)), by decide +kernel⟩
  · exact ⟨0, run, _, by decide +kernel, by decide +kernel, by decide +kernel, (Option.eq_some_of_isSome (by decide +kernel)), by dsimp only [pinsOf]; decide +kernel⟩
  · exact ⟨0, (u .ready 3 0 {} false), _, by decide +kernel, by decide +kernel, by decide +kernel, (Option.eq_some_of_isSome (by decide +kernel)), by dsimp only [pinsOf]; decide +kernel⟩
  · exact ⟨0, (u .ready 1 0 xr false), _, by decide +kernel, by decide +kernel, by decide +kernel, (Option.eq_some_of_isSome (by decide +kernel)), by dsimp only [pinsOf]; decide +kernel⟩
  · exact ⟨run, _, by decide +kernel, by decide +kernel, by decide +kernel, (Option.eq_some_of_isSome (by decide +kernel)), by dsimp only [pinsOf]; decide +kernel⟩
  · exact ⟨(u .preparing 3 0 {} false), _, by decide +kernel, by decide +kernel, by decide +kernel, (Option.eq_some_of_isSome (by decide +kernel)), by dsimp only [pinsOf]; decide +kernel⟩
  · exact ⟨(u .preparing 1 0 {st := .checking, target := 1, forActivation := true} false), _, by decide +kernel, by decide +kernel, by decide +kernel, (Option.eq_some_of_isSome (by decide +kernel)), by dsimp only [pinsOf]; decide +kernel⟩
  · exact ⟨run, _, by decide +kernel, by decide +kernel, by decide +kernel, (Option.eq_some_of_isSome (by decide +kernel)), by dsimp only [pinsOf]; decide +kernel⟩
  · exact ⟨(u .armed 3 5000 {} false), _, by decide +kernel, by decide +kernel, by decide +kernel, (Option.eq_some_of_isSome (by decide +kernel)), by dsimp only [pinsOf]; decide +kernel⟩
  · exact ⟨({q0 with reconvUs := 1611}), (u .armed 1 5000 { xr with st := .draining, window := true, work := [] } false), _, by decide +kernel, by decide +kernel, by decide +kernel, (Option.eq_some_of_isSome (by decide +kernel)), by decide +kernel, by dsimp only [pinsOf]; decide +kernel, _, by decide +kernel, by decide +kernel, by decide +kernel, by decide +kernel, by decide +kernel, by decide +kernel, by decide +kernel, by decide +kernel, (Option.eq_some_of_isSome (by decide +kernel)), by decide +kernel⟩
  · exact ⟨0, q0, (u .armed 1 5000 { xr with st := .draining, window := true, work := [] } false), _, by decide +kernel, by decide +kernel, by decide +kernel, (Option.eq_some_of_isSome (by decide +kernel)), by decide +kernel, by dsimp only [pinsOf]; decide +kernel, _, by decide +kernel, by decide +kernel, by decide +kernel, by decide +kernel, by decide +kernel, by decide +kernel, by decide +kernel, by decide +kernel, (Option.eq_some_of_isSome (by decide +kernel)), by decide +kernel, _, _, _, rfl, by decide +kernel⟩
  · exact ⟨run, _, by decide +kernel, by decide +kernel, by decide +kernel, (Option.eq_some_of_isSome (by decide +kernel)), by dsimp only [pinsOf]; decide +kernel⟩
  · exact ⟨0, (u .trial 1 0 {} true), _, by decide +kernel, by decide +kernel, by decide +kernel, (Option.eq_some_of_isSome (by decide +kernel)), by dsimp only [pinsOf]; decide +kernel⟩
  · exact ⟨0, ({u .trial 3 0 {} true with clk.cycle := 700000, upd.kinds := 7, cfg.ownerKeys := [5,0,7]}), _, by decide +kernel, by decide +kernel, by decide +kernel, (Option.eq_some_of_isSome (by decide +kernel)), by dsimp only [pinsOf]; decide +kernel⟩
  · exact ⟨0, ({u .trial 1 0 {} true with clk.cycle := 700000}), _, by decide +kernel, by decide +kernel, by decide +kernel, (Option.eq_some_of_isSome (by decide +kernel)), by dsimp only [pinsOf]; decide +kernel⟩

end ForActivationEffects

namespace ForActivationEffects2

def hdrs (s : State) : State := { s with mem := [(0,2),(0,3),(1,2),(1,3)].foldl (fun m x => memSetList (slotAddr x.1 x.2 + 28) [0,0,0,0] m) s.mem }
def selT : Selector := { selSeq := 3, sel := 0x1E, prev := 0x19, trial := true, method := 1, slots := [{st := 3, seq := 1},{st := 3},{st := 3, seq := 2},{st := 3, seq := 2},{st := 3},{st := 3, seq := 3}] }
def w1 : Selector := { selT with trial := false, slots := List.replicate 6 { st := 3, seq := 2, good := 3 } }
def pz (s : State) : State := hdrs { s with cand.sel := { c0 := some w1, c1 := none } }
def u (a : ActState) (m : Nat) (t : Nat) (x : Exch) (tr : Bool) : State := { run with upd := { act := a, method := m, kinds := 4, target := t }, xch := x, cand.sel := { c0 := some { selT with trial := tr }, c1 := none }, regs := [(0x100000, 3#32), (0x100008, 6000#32), (0x070044, 0#32)], vm.valid1 := true, vm.prog1 := some {}, vm.prog0 := some {}, vm.valid0 := true }

/-- States and operands that meet the hypotheses of `Obligations.ActivationEffects`. -/
theorem witness_ActivationEffects_2 :
    (∃ dt : Nat, ∃ kinds : BitVec 3, ∃ s : State, ∃ x : Selector, lanesRun s = true ∧ bit s.cfg.progBlocks 0x10 = true ∧
    s.lnk.pair ≠ .active ∧ selector s = some x ∧ s.cand.framProt = false ∧ pinsOf s ∧ let b := begin' dt s; prepareReason kinds.toNat b = 0 ∧
    methodOf kinds.toNat b = 3)
    ∧ (∃ dt : Nat, ∃ kinds : BitVec 3, ∃ s : State, ∃ x : Selector, lanesRun s = true ∧ bit s.cfg.progBlocks 0x10 = true ∧
    s.lnk.pair ≠ .active ∧ selector s = some x ∧ s.cand.framProt = false ∧ pinsOf s ∧ let b := begin' dt s; prepareReason kinds.toNat b = 0 ∧
    methodOf kinds.toNat b ≠ 3) := by
  refine ⟨?_, ?_⟩
  · exact ⟨0, 4, ({ pz (u .idle 0 0 {} false) with cfg.split := true }), _, by decide +kernel, by decide +kernel, by decide +kernel, (Option.eq_some_of_isSome (by decide +kernel)), by dsimp only [pinsOf]; decide +kernel⟩
  · exact ⟨0, 4, (pz (u .idle 0 0 {} false)), _, by decide +kernel, by decide +kernel, by decide +kernel, (Option.eq_some_of_isSome (by decide +kernel)), by dsimp only [pinsOf]; decide +kernel⟩

end ForActivationEffects2

namespace ForActivationEffects3

/-- States and operands that meet the hypotheses of `Obligations.ActivationEffects`. -/
theorem witness_ActivationEffects_3 :
    ∃ dt : Nat, ∃ q : QuietIn, ∃ s : State, ∃ x : Selector, lanesRun s = true ∧ bit s.cfg.progBlocks 0x10 = true ∧
    s.lnk.pair ≠ .active ∧ selector s = some x ∧ s.cand.framProt = false ∧ pinsOf s ∧ let b := begin' dt s; ∃ p,
    s.upd.act = .armed ∧ s.upd.target ≤ s.clk.cycle ∧ s.upd.method = 1 ∧ s.upd.kinds = 4 ∧ s.xch.st = .draining ∧
    s.xch.window = true ∧ s.xch.forActivation = true ∧ s.prg.active = [] ∧ s.xch.image = some p ∧ q.reconvUs ≤ reconvLimit false + q.stallUs ∧
    ∃ e : ConvEnd, ∃ n : Nat, ∃ u : State, convertList p (s.xch.work.filter isDirty) (cycleStart dt s) = ((e, n), u) ∧
    u.prg.mode ≠ .halted ∧ u.xch = (cycleStart dt s).xch ∧ u.upd = s.upd ∧ u.cand = b.cand ∧ u.lnk.pair ≠ .active ∧ ∃ c,
    e = .trapped c :=
  ⟨0, { reconvUs := 1610, checkUs := 1800, stallUs := 0 }, ({ cw 0x20080000002F with upd := { act := .armed, method := 1, kinds := 4, target := 5000 }, xch.forActivation := true, cand.sel := { c0 := some {}, c1 := none } }), _, by decide +kernel, by decide +kernel, by decide +kernel, rfl, by decide +kernel, by dsimp only [pinsOf]; decide +kernel, conv0, by decide +kernel, by decide +kernel, by decide +kernel, by decide +kernel, by decide +kernel, by decide +kernel, by decide +kernel, by decide +kernel, by decide +kernel, by decide +kernel, .trapped 0, 0, (convertList conv0 [work1] (cycleStart 0 ({ cw 0x20080000002F with upd := { act := .armed, method := 1, kinds := 4, target := 5000 }, xch.forActivation := true, cand.sel := { c0 := some {}, c1 := none } }))).2, Prod.ext (by decide +kernel) rfl, by decide +kernel, by decide +kernel, by decide +kernel, by decide +kernel, by decide +kernel, ⟨0, rfl⟩⟩

end ForActivationEffects3

namespace ForLinkAndPairEffects

def pairS (p : PairState) (k : Links) : State := { run with lnk := { k with pair := p, l := List.replicate 3 { width := 4, lseqTx := 7, lseqRx := 9, delay := 100 } }, cfg.partner := some 1, regs := [(0x120000, 7#32)] }
def cov (p : List Byte) (hd : Nat) : LinkCover := { head := BitVec.ofNat 128 hd, check := BitVec.ofNat 64 (linkCheck (leBytes 16 hd ++ pad8 p)) }
def msgS (base : State) (mt st sq : Nat) (b : List Byte) (flip : Nat := 0) : MirrorMsg :=
  let h := mirrorHead mt st sq 77 b
  let c := mirrorCheck st sq h base
  let m : MirrorMsg := { stream := BitVec.ofNat 8 st, mseq := BitVec.ofNat 32 sq, tMsg := 77, body := b, check := BitVec.ofNat 64 (Nat.xor (c.1 + 2^32 * c.2) flip), link := {} }
  let p := mirrorPayload mt m
  { m with link := cov p (5 * 2^64 + p.length * 2^16 + 2) }
def msg := msgS (pairS .synced {})
def le (n v : Nat) : List Byte := leBytes n v
def lc (k a v : Nat) : List Byte := le 1 k ++ le 1 0 ++ le 2 1 ++ le 4 5 ++ le 8 99 ++ le 4 (a - 0x100000000) ++ le 4 0 ++ le 8 v
def fm (op p : Nat) : List Byte := le 4 (op + 16 * 0 + 32 * p) ++ le 4 1 ++ le 4 60 ++ le 4 7 ++ List.replicate 16 0 ++ le 4 0x10 ++ le 4 0 ++ le 8 0 ++ le 8 1234 ++ le 8 0
def item : LinkItem := { ltype := 2, prio := 0, chtag := 0, payload := [1,2,3] }

/-- States and operands that meet the hypotheses of `Obligations.LinkAndPairEffects`. -/
theorem witness_LinkAndPairEffects :
    (∃ s : State, powered s = true ∧ s.lnk.l.length = 3 ∧ ∃ l : Fin 3, ∃ w : Nat, linkWidth w < (link l.val s).width ∧
    (linkWidth w ≠ 0 ∨ l.val ≠ partnerLink s))
    ∧ (∃ s : State, powered s = true ∧ s.lnk.l.length = 3 ∧ ∃ l : Fin 3, 0 < (link l.val s).width ∧ l.val = partnerLink s)
    ∧ (∃ s : State, powered s = true ∧ s.lnk.l.length = 3 ∧ ∃ l : Fin 3, ∃ w : Nat, (link l.val s).width ≤ linkWidth w)
    ∧ (∃ s : State, powered s = true ∧ s.lnk.l.length = 3 ∧ ∃ l : Fin 3, ∃ w : Nat, linkEnabled l.val s = true ∧ linkWidth w ≠ 0)
    ∧ (∃ s : State, powered s = true ∧ s.lnk.l.length = 3 ∧ ∃ l : Fin 3, ∃ w : Nat, (linkEnabled l.val s = false ∨ linkWidth w = 0))
    ∧ (∃ dt : Nat, ∃ m : MirrorMsg, ∃ s : State, powered s = true ∧ s.lnk.l.length = 3 ∧ let b := begin' dt s; let q := fun (mt : Nat) => linkIn (partnerLink s) m.link (mirrorPayload mt m) b;
    let standby := pairLinkUp s = true ∧ (s.lnk.pair = .unsynced ∨ s.lnk.pair = .synced); standby ∧ ∃ r, r ∈ ([(1, .latCommit dt m), (2, .channel dt m), (3, .force dt m), (4, .command dt m), (5, .ramWrite dt m), (6, .boundary dt m), (0x10, .solo dt m), (0x11, .safeStateMark dt m), (0x12, .handover dt m), (0x13, .commitMark dt m)] : List (Nat × Instr)) ∧
    (q r.1).1 = false)
    ∧ (∃ dt : Nat, ∃ m : MirrorMsg, ∃ s : State, powered s = true ∧ s.lnk.l.length = 3 ∧ let b := begin' dt s; let q := fun (mt : Nat) => linkIn (partnerLink s) m.link (mirrorPayload mt m) b;
    let standby := pairLinkUp s = true ∧ (s.lnk.pair = .unsynced ∨ s.lnk.pair = .synced); let first := m.stream.toNat = 1 ∧ m.mseq.toNat = (s.lnk.rx1 + 1) % 2 ^ 32;
    let second := m.stream.toNat = 2 ∧ m.mseq.toNat = (s.lnk.rx2 + 1) % 2 ^ 32; standby ∧ ∃ r, r ∈ ([(1, .latCommit dt m), (2, .channel dt m), (3, .force dt m), (4, .command dt m), (5, .ramWrite dt m), (6, .boundary dt m), (0x10, .solo dt m), (0x11, .safeStateMark dt m), (0x12, .handover dt m), (0x13, .commitMark dt m)] : List (Nat × Instr)) ∧
    (q r.1).1 = true ∧ (¬ (mirrorPass r.1 m s = true ∧ (if r.1 = 5 ∨ r.1 = 6 then second else first))))
    ∧ (∃ dt : Nat, ∃ m : MirrorMsg, ∃ s : State, powered s = true ∧ s.lnk.l.length = 3 ∧ let b := begin' dt s; let q := fun (mt : Nat) => linkIn (partnerLink s) m.link (mirrorPayload mt m) b;
    let standby := pairLinkUp s = true ∧ (s.lnk.pair = .unsynced ∨ s.lnk.pair = .synced); let whole := fun (mt : Nat) => (q mt).1 = true ∧ mirrorPass mt m s = true;
    let first := m.stream.toNat = 1 ∧ m.mseq.toNat = (s.lnk.rx1 + 1) % 2 ^ 32; standby ∧ first ∧ whole 1 ∧ s.lnk.part = [] ∧
    Memory.wf s.mem = true ∧ m.body.length = 32 ∧ fieldAt m.body 2 2 = 1 ∧ fieldAt m.body 0 1 ≠ 3 ∧ let e := m.body.drop 16;
    journalWordOk (journalAddr e) = true)
    ∧ (∃ dt : Nat, ∃ m : MirrorMsg, ∃ s : State, powered s = true ∧ s.lnk.l.length = 3 ∧ let b := begin' dt s; let q := fun (mt : Nat) => linkIn (partnerLink s) m.link (mirrorPayload mt m) b;
    let standby := pairLinkUp s = true ∧ (s.lnk.pair = .unsynced ∨ s.lnk.pair = .synced); let whole := fun (mt : Nat) => (q mt).1 = true ∧ mirrorPass mt m s = true;
    let first := m.stream.toNat = 1 ∧ m.mseq.toNat = (s.lnk.rx1 + 1) % 2 ^ 32; standby ∧ first ∧ whole 1 ∧
    s.lnk.part.length + m.body.length < 16)
    ∧ (∃ dt : Nat, ∃ m : MirrorMsg, ∃ s : State, powered s = true ∧ s.lnk.l.length = 3 ∧ let b := begin' dt s; let q := fun (mt : Nat) => linkIn (partnerLink s) m.link (mirrorPayload mt m) b;
    let standby := pairLinkUp s = true ∧ (s.lnk.pair = .unsynced ∨ s.lnk.pair = .synced); let whole := fun (mt : Nat) => (q mt).1 = true ∧ mirrorPass mt m s = true;
    let first := m.stream.toNat = 1 ∧ m.mseq.toNat = (s.lnk.rx1 + 1) % 2 ^ 32; standby ∧ first ∧ whole 2)
    ∧ (∃ dt : Nat, ∃ m : MirrorMsg, ∃ s : State, powered s = true ∧ s.lnk.l.length = 3 ∧ let b := begin' dt s; let q := fun (mt : Nat) => linkIn (partnerLink s) m.link (mirrorPayload mt m) b;
    let standby := pairLinkUp s = true ∧ (s.lnk.pair = .unsynced ∨ s.lnk.pair = .synced); let whole := fun (mt : Nat) => (q mt).1 = true ∧ mirrorPass mt m s = true;
    let first := m.stream.toNat = 1 ∧ m.mseq.toNat = (s.lnk.rx1 + 1) % 2 ^ 32; standby ∧ first ∧ whole 3 ∧ bits (fieldAt (m.body.drop 32) 0 4) 4 4 = 1)
    ∧ (∃ dt : Nat, ∃ m : MirrorMsg, ∃ s : State, powered s = true ∧ s.lnk.l.length = 3 ∧ let b := begin' dt s; let q := fun (mt : Nat) => linkIn (partnerLink s) m.link (mirrorPayload mt m) b;
    let standby := pairLinkUp s = true ∧ (s.lnk.pair = .unsynced ∨ s.lnk.pair = .synced); let whole := fun (mt : Nat) => (q mt).1 = true ∧ mirrorPass mt m s = true;
    let first := m.stream.toNat = 1 ∧ m.mseq.toNat = (s.lnk.rx1 + 1) % 2 ^ 32; standby ∧ first ∧ whole 4 ∧ fieldAt m.body 0 4 ∈ [0xF0070008, 0xF007000C, 0xF0100008, 0xF010000C])
    ∧ (∃ dt : Nat, ∃ m : MirrorMsg, ∃ s : State, powered s = true ∧ s.lnk.l.length = 3 ∧ let b := begin' dt s; let q := fun (mt : Nat) => linkIn (partnerLink s) m.link (mirrorPayload mt m) b;
    let standby := pairLinkUp s = true ∧ (s.lnk.pair = .unsynced ∨ s.lnk.pair = .synced); let whole := fun (mt : Nat) => (q mt).1 = true ∧ mirrorPass mt m s = true;
    let first := m.stream.toNat = 1 ∧ m.mseq.toNat = (s.lnk.rx1 + 1) % 2 ^ 32; standby ∧ first ∧ whole 4 ∧ fieldAt m.body 0 4 = 0xF0070004 ∧
    fieldAt m.body 4 4 = 1 ∧ loadReason s = 0)
    ∧ (∃ dt : Nat, ∃ m : MirrorMsg, ∃ s : State, powered s = true ∧ s.lnk.l.length = 3 ∧ let b := begin' dt s; let q := fun (mt : Nat) => linkIn (partnerLink s) m.link (mirrorPayload mt m) b;
    let standby := pairLinkUp s = true ∧ (s.lnk.pair = .unsynced ∨ s.lnk.pair = .synced); let whole := fun (mt : Nat) => (q mt).1 = true ∧ mirrorPass mt m s = true;
    let first := m.stream.toNat = 1 ∧ m.mseq.toNat = (s.lnk.rx1 + 1) % 2 ^ 32; standby ∧ first ∧ whole 0x10)
    ∧ (∃ dt : Nat, ∃ m : MirrorMsg, ∃ s : State, powered s = true ∧ s.lnk.l.length = 3 ∧ let b := begin' dt s; let q := fun (mt : Nat) => linkIn (partnerLink s) m.link (mirrorPayload mt m) b;
    let standby := pairLinkUp s = true ∧ (s.lnk.pair = .unsynced ∨ s.lnk.pair = .synced); let whole := fun (mt : Nat) => (q mt).1 = true ∧ mirrorPass mt m s = true;
    let first := m.stream.toNat = 1 ∧ m.mseq.toNat = (s.lnk.rx1 + 1) % 2 ^ 32; standby ∧ first ∧ whole 0x11 ∧ s.lnk.pair = .synced)
    ∧ (∃ dt : Nat, ∃ m : MirrorMsg, ∃ s : State, powered s = true ∧ s.lnk.l.length = 3 ∧ let b := begin' dt s; let q := fun (mt : Nat) => linkIn (partnerLink s) m.link (mirrorPayload mt m) b;
    let standby := pairLinkUp s = true ∧ (s.lnk.pair = .unsynced ∨ s.lnk.pair = .synced); let whole := fun (mt : Nat) => (q mt).1 = true ∧ mirrorPass mt m s = true;
    let first := m.stream.toNat = 1 ∧ m.mseq.toNat = (s.lnk.rx1 + 1) % 2 ^ 32; standby ∧ first ∧ whole 0x12 ∧ s.lnk.pair = .synced)
    ∧ (∃ dt : Nat, ∃ m : MirrorMsg, ∃ s : State, powered s = true ∧ s.lnk.l.length = 3 ∧ let b := begin' dt s; let q := fun (mt : Nat) => linkIn (partnerLink s) m.link (mirrorPayload mt m) b;
    let standby := pairLinkUp s = true ∧ (s.lnk.pair = .unsynced ∨ s.lnk.pair = .synced); let whole := fun (mt : Nat) => (q mt).1 = true ∧ mirrorPass mt m s = true;
    let first := m.stream.toNat = 1 ∧ m.mseq.toNat = (s.lnk.rx1 + 1) % 2 ^ 32; standby ∧ first ∧ whole 0x13 ∧
    (commitReady (fieldAt m.body 0 8) s = false ∨ dirtyMatches s = false))
    ∧ (∃ dt : Nat, ∃ m : MirrorMsg, ∃ s : State, powered s = true ∧ s.lnk.l.length = 3 ∧ let b := begin' dt s; let q := fun (mt : Nat) => linkIn (partnerLink s) m.link (mirrorPayload mt m) b;
    let standby := pairLinkUp s = true ∧ (s.lnk.pair = .unsynced ∨ s.lnk.pair = .synced); let whole := fun (mt : Nat) => (q mt).1 = true ∧ mirrorPass mt m s = true;
    let first := m.stream.toNat = 1 ∧ m.mseq.toNat = (s.lnk.rx1 + 1) % 2 ^ 32; let acked := fun (mt : Nat) => sendAck m (gapStart { (q mt).2 with lnk.rx1 := m.mseq.toNat });
    standby ∧ first ∧ ∃ p : ProgImage, ∃ n : Nat, ∃ u : State, whole 0x13 ∧ commitReady (fieldAt m.body 0 8) s = true ∧
    dirtyMatches s = true ∧ s.xch.image = some p ∧ convertList p (s.xch.work.filter isDirty) { acked 0x13 with xch.st := .exchanging, xch.tracking := false, xch.heldTrig := [], xch.window := false } = ((.done, n), u) ∧
    u.prg.mode ≠ .halted)
    ∧ (∃ dt : Nat, ∃ m : MirrorMsg, ∃ s : State, powered s = true ∧ s.lnk.l.length = 3 ∧ let b := begin' dt s; let q := fun (mt : Nat) => linkIn (partnerLink s) m.link (mirrorPayload mt m) b;
    let standby := pairLinkUp s = true ∧ (s.lnk.pair = .unsynced ∨ s.lnk.pair = .synced); let whole := fun (mt : Nat) => (q mt).1 = true ∧ mirrorPass mt m s = true;
    let second := m.stream.toNat = 2 ∧ m.mseq.toNat = (s.lnk.rx2 + 1) % 2 ^ 32; standby ∧ second ∧ whole 5)
    ∧ (∃ dt : Nat, ∃ m : MirrorMsg, ∃ s : State, powered s = true ∧ s.lnk.l.length = 3 ∧ let b := begin' dt s; let q := fun (mt : Nat) => linkIn (partnerLink s) m.link (mirrorPayload mt m) b;
    let standby := pairLinkUp s = true ∧ (s.lnk.pair = .unsynced ∨ s.lnk.pair = .synced); let whole := fun (mt : Nat) => (q mt).1 = true ∧ mirrorPass mt m s = true;
    let second := m.stream.toNat = 2 ∧ m.mseq.toNat = (s.lnk.rx2 + 1) % 2 ^ 32; standby ∧ second ∧ whole 6 ∧ s.lnk.ramBuf = [])
    ∧ (∃ dt : Nat, ∃ m : MirrorMsg, ∃ s : State, powered s = true ∧ s.lnk.l.length = 3 ∧ let b := begin' dt s; let q := fun (mt : Nat) => linkIn (partnerLink s) m.link (mirrorPayload mt m) b;
    let standby := pairLinkUp s = true ∧ (s.lnk.pair = .unsynced ∨ s.lnk.pair = .synced); let whole := fun (mt : Nat) => (q mt).1 = true ∧ mirrorPass mt m s = true;
    let second := m.stream.toNat = 2 ∧ m.mseq.toNat = (s.lnk.rx2 + 1) % 2 ^ 32; standby ∧ second ∧ ∃ a, ∃ d, whole 6 ∧
    s.lnk.ramBuf = [(a, d)] ∧ d ≠ [] ∧ Memory.wf s.mem = true ∧ a + d.length ≤ 0x07040000 ∧ dualStored a = true ∧
    dualStored (a + d.length - 1) = true)
    ∧ (∃ dt : Nat, ∃ m : MirrorMsg, ∃ s : State, powered s = true ∧ s.lnk.l.length = 3 ∧ let b := begin' dt s; let q := fun (mt : Nat) => linkIn (partnerLink s) m.link (mirrorPayload mt m) b;
    let whole := fun (mt : Nat) => (q mt).1 = true ∧ mirrorPass mt m s = true; let first := m.stream.toNat = 1 ∧ m.mseq.toNat = (s.lnk.rx1 + 1) % 2 ^ 32;
    pairLinkUp s = true ∧ s.lnk.pair = .active ∧ whole 0x20 ∧ first)
    ∧ (∃ dt : Nat, ∃ m : MirrorMsg, ∃ s : State, powered s = true ∧ s.lnk.l.length = 3 ∧ let b := begin' dt s; let q := fun (mt : Nat) => linkIn (partnerLink s) m.link (mirrorPayload mt m) b;
    let first := m.stream.toNat = 1 ∧ m.mseq.toNat = (s.lnk.rx1 + 1) % 2 ^ 32; pairLinkUp s = true ∧ s.lnk.pair = .active ∧
    (q 0x20).1 = true ∧ (¬ (mirrorPass 0x20 m s = true ∧ first)))
    ∧ (∃ dt : Nat, ∃ m : MirrorMsg, ∃ s : State, powered s = true ∧ s.lnk.l.length = 3 ∧ let b := begin' dt s; let q := fun (mt : Nat) => linkIn (partnerLink s) m.link (mirrorPayload mt m) b;
    let whole := fun (mt : Nat) => (q mt).1 = true ∧ mirrorPass mt m s = true; pairLinkUp s = true ∧ s.lnk.pair = .active ∧
    whole 0x21 ∧ m.stream.toNat = 1)
    ∧ (∃ dt : Nat, ∃ m : MirrorMsg, ∃ s : State, powered s = true ∧ s.lnk.l.length = 3 ∧ let b := begin' dt s; let q := fun (mt : Nat) => linkIn (partnerLink s) m.link (mirrorPayload mt m) b;
    pairLinkUp s = true ∧ s.lnk.pair = .active ∧ ∃ r, r ∈ ([(0x20, .ack dt m), (0x21, .syncReq dt m)] : List (Nat × Instr)) ∧
    (q r.1).1 = false)
    ∧ (∃ dt : Nat, ∃ s : State, powered s = true ∧ s.lnk.l.length = 3 ∧ let b := begin' dt s; fenced s = true ∧ ackMissing b = true)
    ∧ (∃ dt : Nat, ∃ s : State, powered s = true ∧ s.lnk.l.length = 3 ∧ let b := begin' dt s; (fenced s = false ∨ ackMissing b = false))
    ∧ (∃ s : State, powered s = true ∧ s.lnk.l.length = 3 ∧ pairLinkUp s = true ∧ gapFreeMajor s = true ∧ s.lnk.pair = .unsynced ∧
    s.lnk.fullCopy = true)
    ∧ (∃ s : State, powered s = true ∧ s.lnk.l.length = 3 ∧ pairLinkUp s = true ∧ gapFreeMajor s = true ∧ s.lnk.pair = .unsynced ∧
    s.lnk.fullCopy = false)
    ∧ (∃ s : State, powered s = true ∧ s.lnk.l.length = 3 ∧ pairLinkUp s = true ∧ gapFreeMajor s = true ∧ s.lnk.pair = .active ∧
    s.lnk.solo = false)
    ∧ (∃ s : State, powered s = true ∧ s.lnk.l.length = 3 ∧ (pairLinkUp s = false ∨ gapFreeMajor s = false))
    ∧ (∃ s : State, powered s = true ∧ s.lnk.l.length = 3 ∧ s.pwr.phase = .running ∧ takeoverDue s = true)
    ∧ (∃ s : State, powered s = true ∧ s.lnk.l.length = 3 ∧ s.pwr.phase = .running ∧ takeoverDue s = false) := by
  refine ⟨?_, ?_, ?_, ?_, ?_, ?_, ?_, ?_, ?_, ?_, ?_, ?_, ?_, ?_, ?_, ?_, ?_, ?_, ?_, ?_, ?_, ?_, ?_, ?_, ?_, ?_, ?_, ?_, ?_, ?_, ?_, ?_, ?_⟩
  · exact ⟨(pairS .synced {}), by decide +kernel, by decide +kernel, 0, 1, by decide +kernel⟩
  · exact ⟨(pairS .synced {}), by decide +kernel, by decide +kernel, 0, by decide +kernel⟩
  · exact ⟨run, by decide +kernel, by decide +kernel, 0, 0, by decide +kernel⟩
  · exact ⟨(pairS .synced {}), by decide +kernel, by decide +kernel, 0, 1, by decide +kernel⟩
  · exact ⟨run, by decide +kernel, by decide +kernel, 0, 0, by decide +kernel⟩
  · exact ⟨0, (msg 0x10 1 1 []), (pairS .synced {}), by decide +kernel, by decide +kernel, by decide +kernel, ((1, .latCommit 0 (msg 0x10 1 1 []))), by decide +kernel⟩
  · exact ⟨0, (msg 0x10 1 1 []), ({pairS .synced {ramBuf := [(0x4000041, [1,2,3])], rx2 := 2^32-1, rx1 := 2^32-1, tx1 := 2^32-1} with mem := [(0x4000041, 9),(0xC000041, 7)], xch.tracking := true, xch.work := [{}], regs := [(0x030000,3),(0x030034,0x4000040)]}), by decide +kernel, by decide +kernel, by decide +kernel, ((0x10, .solo 0 (msg 0x10 1 1 []))), by decide +kernel⟩
  · exact ⟨0, (msg 1 1 1 (lc 1 0x100400000 5)), (pairS .synced {}), by decide +kernel⟩
  · exact ⟨0, (msg 1 1 1 [1,2,3]), (pairS .synced {}), by decide +kernel⟩
  · exact ⟨0, (msg 2 1 1 (le 4 3 ++ le 1 1 ++ List.replicate 15 0)), (pairS .synced {}), by decide +kernel⟩
  · exact ⟨0, (msg 3 1 1 (fm 1 5)), (pairS .synced {}), by decide +kernel⟩
  · exact ⟨0, (msg 4 1 1 (le 4 0xF0070008 ++ le 4 0x99)), (pairS .synced {}), by decide +kernel⟩
  · exact ⟨0, (msg 4 1 1 (le 4 0xF0070004 ++ le 4 1)), ({pairS .synced {} with frc.table := [{point := 5},{point := 6, dir := true}], prg.tokVer := [{id := 7}], regs := [(0x070000, 1)], tel.chans := [{idx := 3, st := .openSt, seq := 5, gen := 3}], cfg.templates := [{index := 3, prot := 1, transport := 1}]}), by decide +kernel⟩
  · exact ⟨0, (msg 0x10 1 1 []), (pairS .synced {}), by decide +kernel⟩
  · exact ⟨0, (msg 0x11 1 1 []), (pairS .synced {}), by decide +kernel⟩
  · exact ⟨0, (msg 0x12 1 1 (le 8 5000)), (pairS .synced {}), by decide +kernel⟩
  · exact ⟨0, (msg 0x13 1 1 (le 8 5000)), (pairS .synced {}), by decide +kernel⟩
  · exact ⟨0, (msg 0x13 1 1 (le 8 5000)), ({pairS .synced {} with xch.st := .armed, xch.image := some {}, vm.mapNew := [(1,2)], regs := [(0x070008, 5000), (0x070044, 9)], xch.target := 1}), by decide +kernel, by decide +kernel, by decide +kernel, by decide +kernel, _, _, _, by decide +kernel, by decide +kernel, by decide +kernel, (Option.eq_some_of_isSome (by decide +kernel)), rfl, by decide +kernel⟩
  · exact ⟨0, (msg 5 2 1 (le 8 0x4000000 ++ [1,2])), (pairS .synced {}), by decide +kernel⟩
  · exact ⟨0, (msg 6 2 1 []), (pairS .synced {}), by decide +kernel⟩
  · exact ⟨0, (msg 6 2 1 []), (pairS .synced {ramBuf := [(0x4000040, [1,2,3,4,5,6,7,8])], copied := 5}), by decide +kernel, by decide +kernel, by decide +kernel, by decide +kernel, 0x4000040, ([1,2,3,4,5,6,7,8]), by decide +kernel⟩
  · exact ⟨0, (msgS (pairS .active {}) 0x20 1 1 (le 8 0 ++ le 8 5)), (pairS .active {gapFree := some 3000}), by decide +kernel⟩
  · exact ⟨0, (msgS (pairS .active {}) 0x20 1 2 (le 8 0 ++ le 8 5)), (pairS .active {gapFree := some 3000}), by decide +kernel⟩
  · exact ⟨0, (msgS (pairS .active {}) 0x21 1 7 []), (pairS .active {gapFree := some 3000}), by decide +kernel⟩
  · exact ⟨0, (msg 0x10 1 1 []), (pairS .active {gapFree := some 3000}), by decide +kernel, by decide +kernel, by decide +kernel, by decide +kernel, ((0x20, .ack 0 (msg 0x10 1 1 []))), by decide +kernel⟩
  · exact ⟨0, ({pairS .active {fencing := true} with tel.fenced := [(0, .link 0 item),(5, .link 1 item),(6, .eth 0 0 [])], tel.fenceAt := 0}), by decide +kernel⟩
  · exact ⟨0, run, by decide +kernel⟩
  · exact ⟨(pairS .unsynced {fullCopy := true, gapFree := some 4000}), by decide +kernel⟩
  · exact ⟨(pairS .unsynced {gapFree := some 4000}), by decide +kernel⟩
  · exact ⟨(pairS .active {gapFree := some 3000}), by decide +kernel⟩
  · exact ⟨run, by decide +kernel⟩
  · exact ⟨(pairS .synced {mark := some 5000}), by decide +kernel⟩
  · exact ⟨run, by decide +kernel⟩

end ForLinkAndPairEffects

namespace ForUnmappedRegisterAccess

def tx (k : TxKind) (a : Nat) (d : Nat) : LaneTx := { addr := BitVec.ofNat 40 a, be := 0, data := leBytes 4 d, kind := k, size := 4, priv := true, seq := 0, at' := 0 }
def prgS (x y : Nat) (s : State) : State := { s with prg.active := [{ task := 3, frames := [{ block := 0, pc := 5, base := 0x4000000 }], scr := [(8, BitVec.ofNat 64 x), (9, BitVec.ofNat 64 y), (10, 7)] }], fio.pins := List.replicate 32 {}, fio.groups := List.replicate 4 {}, snu.g := List.replicate 4 {} }
def base : State := prgS 0xEFFFFFFF 9 run

/-- States and operands that meet the hypotheses of `Obligations.UnmappedRegisterAccess`. -/
theorem witness_UnmappedRegisterAccess :
    (∃ x : LaneTx, ∃ s : State, triadVotes s = true ∧ 2 ≤ (litLanes s).length ∧ regAddress x.addr.toNat = true ∧ 0x15 ≤ bits x.addr.toNat 16 8 ∧
    x.kind = .regRead)
    ∧ (∃ x : LaneTx, ∃ s : State, triadVotes s = true ∧ 2 ≤ (litLanes s).length ∧ regAddress x.addr.toNat = true ∧ 0x15 ≤ bits x.addr.toNat 16 8 ∧
    x.kind = .regWrite)
    ∧ (∃ x : LaneTx, ∃ s : State, triadVotes s = true ∧ 2 ≤ (litLanes s).length ∧ mayHalt s ∧ regAddress x.addr.toNat = false ∧
    (x.kind = .regRead ∨ x.kind = .regWrite))
    ∧ (∃ dt : Nat, ∃ w : VInstr, ∃ s : State, ∃ v, Runs dt 1 w s ∧ mayHalt s ∧ slotRead (vlane w s) w.src1 0 (vstart dt w s) = .ok (vstart dt w s) v ∧
    regAddress v = false) := by
  refine ⟨?_, ?_, ?_, ?_⟩
  · exact ⟨(tx .regRead 0xF0150000 0), base, by decide +kernel⟩
  · exact ⟨(tx .regWrite 0xF0150000 0xDEADBEEF), base, by decide +kernel⟩
  · exact ⟨(tx .regRead 0xF1000000 0), base, by dsimp only [mayHalt, pinsOf]; decide +kernel⟩
  · exact ⟨0, ({ ty := 7, sub := 0, dst := 0x200A#16, src1 := 0x2008#16, src2 := 0x2009#16, laneB := false }), base, _, by dsimp only [Runs]; decide +kernel, by dsimp only [mayHalt, pinsOf]; decide +kernel, rfl, by decide +kernel⟩

end ForUnmappedRegisterAccess

namespace ForLockViolations

/-- States and operands that meet the hypotheses of `Obligations.LockViolations`. -/
theorem witness_LockViolations :
    (∃ x : LaneTx, ∃ s : State, triadVotes s = true ∧ 2 ≤ (litLanes s).length ∧ regAddress x.addr.toNat = true ∧ x.kind = .regWrite ∧
    bits x.addr.toNat 16 8 < 0x15 ∧ blockOpen x.addr.toNat s = true ∧ let k := regKey x.addr.toNat; ((guarded k = true ∧ locked k s = true) ∨ (k = 0x00001C ∧ rv appIdTaken s ≠ 0)))
    ∧ (∃ x : LaneTx, ∃ s : State, triadVotes s = true ∧ 2 ≤ (litLanes s).length ∧ regAddress x.addr.toNat = true ∧ x.kind = .regWrite ∧
    bits x.addr.toNat 16 8 < 0x15 ∧ blockOpen x.addr.toNat s = true ∧ let k := regKey x.addr.toNat; k = 0x00001C ∧ rv appIdTaken s = 0 ∧
    regView x.addr.toNat ≠ 0)
    ∧ (∃ x : LaneTx, ∃ s : State, triadVotes s = true ∧ 2 ≤ (litLanes s).length ∧ regAddress x.addr.toNat = true ∧ x.kind = .regWrite ∧
    bits x.addr.toNat 16 8 < 0x15 ∧ blockOpen x.addr.toNat s = true ∧ let k := regKey x.addr.toNat; k = 0x00001C ∧ rv appIdTaken s = 0 ∧
    regView x.addr.toNat = 0) := by
  refine ⟨?_, ?_, ?_⟩
  · exact ⟨(tx .regWrite 0xF0030000 [1, 0, 0, 0]), { run with regs := [(0x030000, 0x80000000#32)] }, by decide +kernel⟩
  · exact ⟨(tx .regWrite 0xF000401C [1, 0, 0, 0]), run, by decide +kernel⟩
  · exact ⟨(tx .regWrite 0xF000001C [1, 0, 0, 0]), run, by decide +kernel⟩

end ForLockViolations

namespace ForRegisterViewsAndAccessTypes

/-- States and operands that meet the hypotheses of `Obligations.RegisterViewsAndAccessTypes`. -/
theorem witness_RegisterViewsAndAccessTypes :
    (∃ x : LaneTx, ∃ s : State, triadVotes s = true ∧ 2 ≤ (litLanes s).length ∧ regAddress x.addr.toNat = true ∧ x.kind = .regWrite ∧
    bits x.addr.toNat 16 8 < 0x15 ∧ blockOpen x.addr.toNat s = true ∧ s.lnk.pair ≠ .active ∧ let k := regKey x.addr.toNat;
    k ∈ [0x04000C, 0x070008, 0x090024, 0x090028, 0x090030, 0x0B0004, 0x0B0008, 0x0B0024, 0x0F0010, 0x0F0014])
    ∧ (∃ x : LaneTx, ∃ s : State, triadVotes s = true ∧ 2 ≤ (litLanes s).length ∧ regAddress x.addr.toNat = true ∧ x.kind = .regWrite ∧
    bits x.addr.toNat 16 8 < 0x15 ∧ blockOpen x.addr.toNat s = true ∧ s.lnk.pair ≠ .active ∧ let k := regKey x.addr.toNat;
    k = 0x000008 ∧ bits x.addr.toNat 14 2 = 0)
    ∧ (∃ x : LaneTx, ∃ s : State, triadVotes s = true ∧ 2 ≤ (litLanes s).length ∧ regAddress x.addr.toNat = true ∧ x.kind = .regWrite ∧
    bits x.addr.toNat 16 8 < 0x15 ∧ blockOpen x.addr.toNat s = true ∧ s.lnk.pair ≠ .active ∧ let k := regKey x.addr.toNat;
    k = 0x000008 ∧ bits x.addr.toNat 14 2 ≠ 0)
    ∧ (∃ x : LaneTx, ∃ s : State, triadVotes s = true ∧ 2 ≤ (litLanes s).length ∧ regAddress x.addr.toNat = true ∧ x.kind = .regWrite ∧
    bits x.addr.toNat 16 8 < 0x15 ∧ blockOpen x.addr.toNat s = true ∧ s.lnk.pair ≠ .active ∧ let k := regKey x.addr.toNat;
    k ∈ [0x040000, 0x0B0000, 0x0F0000] ∧ locked k s = false ∧ bits x.addr.toNat 14 2 = 0)
    ∧ (∃ x : LaneTx, ∃ s : State, triadVotes s = true ∧ 2 ≤ (litLanes s).length ∧ regAddress x.addr.toNat = true ∧ x.kind = .regWrite ∧
    bits x.addr.toNat 16 8 < 0x15 ∧ blockOpen x.addr.toNat s = true ∧ s.lnk.pair ≠ .active ∧ let k := regKey x.addr.toNat;
    k % 0x10000 = 0 ∧ locked k s = false ∧ bits x.addr.toNat 14 2 ≠ 0)
    ∧ (∃ x : LaneTx, ∃ s : State, triadVotes s = true ∧ 2 ≤ (litLanes s).length ∧ regAddress x.addr.toNat = true ∧ x.kind = .regWrite ∧
    bits x.addr.toNat 16 8 < 0x15 ∧ blockOpen x.addr.toNat s = true ∧ s.lnk.pair ≠ .active ∧ let k := regKey x.addr.toNat;
    rwMask k = 0 ∧ w1cMask k = 0 ∧ k % 0x10000 ≠ 0 ∧ k ∉ [0x000018, 0x00001C, 0x040008, 0x070004, 0x09002C, 0x0B000C, 0x0B0020, 0x0B0034, 0x0B0038, 0x0B003C, 0x0B0040, 0x0B0044, 0x0D0008, 0x0E0020, 0x0F000C, 0x100004]) := by
  refine ⟨?_, ?_, ?_, ?_, ?_, ?_⟩
  · exact ⟨(tx .regWrite 0xF004000C [1, 0, 0, 0]), run, by decide +kernel⟩
  · exact ⟨(tx .regWrite 0xF0000008 [1, 0, 0, 0]), run, by decide +kernel⟩
  · exact ⟨(tx .regWrite 0xF0004008 [1, 0, 0, 0]), run, by decide +kernel⟩
  · exact ⟨(tx .regWrite 0xF0040000 [1, 0, 0, 0]), run, by decide +kernel⟩
  · exact ⟨(tx .regWrite 0xF0004000 [1, 0, 0, 0]), run, by decide +kernel⟩
  · exact ⟨(tx .regWrite 0xF0000004 [1, 0, 0, 0]), run, by decide +kernel⟩

end ForRegisterViewsAndAccessTypes

end Sys2Proof.Tests
end

section
/-! SUPPORT. Voted register transactions (R173, R494 to R503) and the way to HALTED (R8, R151): what they change, what they leave alone, and the statements about unmapped accesses and lock violations. -/

namespace Sys2Proof.Machine

/-! ### Frames by the parts of the state -/

/-- Every part of the state, in the order of the bits of a `Keeps` mask. -/
def Comp.every : List Comp :=
  [.pending, .sent, .free, .clk, .civ, .cand, .pwr, .tri, .dbg, .prg, .frc, .mem, .vm, .xch, .regs, .bus, .tel, .rings, .lat, .fio, .snu, .evr, .sta, .upd, .lnk, .cfg]

theorem Comp.mem_every (c : Comp) : c ∈ Comp.every := by cases c <;> decide

/-- The mask `m` marks every part that is not in `l`. -/
def marksAllBut (m : Nat) (l : List Comp) : Bool := Comp.every.all (fun c => l.contains c || m.testBit c.ctorIdx)

theorem testBit_of_marksAllBut {m : Nat} {l : List Comp} (h : marksAllBut m l = true) {c : Comp} (hc : c ∉ l) : m.testBit c.ctorIdx = true := by
  have := List.all_eq_true.mp h c (Comp.mem_every c)
  simpa [hc] using this

/-- A frame by mask is a frame by parts. -/
theorem Keeps.writesOnly {m : Nat} {l : List Comp} {s t : State} (k : Keeps m s t) (h : marksAllBut m l = true) : WritesOnly l s t := by
  intro c hc
  have b := testBit_of_marksAllBut h hc
  exact match c, b with
  | .pending, b => k.pending b
  | .sent, b => k.sent b
  | .free, b => k.free b
  | .clk, b => k.clk b
  | .civ, b => k.civ b
  | .cand, b => k.cand b
  | .pwr, b => k.pwr b
  | .tri, b => k.tri b
  | .dbg, b => k.dbg b
  | .prg, b => k.prg b
  | .frc, b => k.frc b
  | .mem, b => k.mem b
  | .vm, b => k.vm b
  | .xch, b => k.xch b
  | .regs, b => k.regs b
  | .bus, b => k.bus b
  | .tel, b => k.tel b
  | .rings, b => k.rings b
  | .lat, b => k.lat b
  | .fio, b => k.fio b
  | .snu, b => k.snu b
  | .evr, b => k.evr b
  | .sta, b => k.sta b
  | .upd, b => k.upd b
  | .lnk, b => k.lnk b
  | .cfg, b => k.cfg b

/-! ### Words and fields -/

theorem leNat_lt : ∀ l : List Byte, leNat l < 256 ^ l.length
  | [] => Nat.one_pos
  | b :: t => by
    have hb : b.toNat < 256 := b.isLt
    have ht := leNat_lt t
    simp only [leNat, List.length_cons, Nat.pow_succ]
    omega

theorem leNat_take_lt (l : List Byte) : leNat (l.take 4) < 2 ^ 32 :=
  Nat.lt_of_lt_of_le (leNat_lt _) (Nat.pow_le_pow_right (by decide) (List.length_take_le 4 l))

theorem sat_lt {m x : Nat} : sat m x < m + 1 := by
  simp only [sat]
  split <;> omega

theorem rf_addRf_ne (k lo n v j lo' n' : Nat) (s : State) (h : k ≠ j) : rf j lo' n' (addRf k lo n v s) = rf j lo' n' s := by
  simp only [rf, rv_addRf_ne k lo n v j s h]

theorem rf_setRf_ne (k lo n v j lo' n' : Nat) (s : State) (h : k ≠ j) : rf j lo' n' (setRf k lo n v s) = rf j lo' n' s := by
  simp only [rf, rv_setRf_ne k lo n v j s h]

/-! ### The vote on a transaction that all lanes present alike (R173, R176) -/

@[simp] theorem seenOf_allSee (l : LaneId) (x : LaneTx) : seenOf l (allSee x).v1 = some x := by cases l <;> rfl

theorem txDiff_self (x : LaneTx) : txDiff x x = 0 := by simp [txDiff, b2n]

theorem apart_self (n : Nat) : apart n n = 0 := by simp [apart]

theorem judge2_self (x : LaneTx) : judge2 (some x) (some x) = .agree (txBody x) := by simp [judge2, txDiff_self, apart_self]

theorem judge3_self (x : LaneTx) : judge3 x x x = .agree (txBody x) := by simp [judge3, median3, txDiff_self, apart_self]

/-- Nothing of a transaction that all lanes present at one instant is late. -/
theorem inTime_allSee {lit : List LaneId} (h : earliest lit (allSee x).v1 = some x.at') : inTime lit (allSee x).v1 = (allSee x).v1 := by
  rw [inTime, h]
  simp [allSee]

theorem judge_pair_allSee (p q : LaneId) (x : LaneTx) : judge [p, q] (allSee x).v1 = .agree (txBody x) := by
  have h : earliest [p, q] (allSee x).v1 = some x.at' := by simp [earliest]
  simp only [judge, inTime_allSee h, seenOf_allSee, judge2_self]

theorem judge_allLanes_allSee (x : LaneTx) : judge allLanes (allSee x).v1 = .agree (txBody x) := by
  have h : earliest allLanes (allSee x).v1 = some x.at' := by simp [earliest, allLanes]
  simp only [judge, inTime_allSee h]
  exact judge3_self x

/-- Two lanes of the three at least: a pair, or all. -/
theorem filter_allLanes_pair_or_all (f : LaneId → Bool) (h : 2 ≤ (allLanes.filter f).length) :
    (∃ p q, allLanes.filter f = [p, q]) ∨ allLanes.filter f = allLanes := by
  revert h
  simp only [allLanes, List.filter]
  cases f .a <;> cases f .b <;> cases f .c <;> simp

/-- What all lit lanes agree on commits, and no lane is at fault (R176). -/
theorem vote_allSee (x : LaneTx) (s : State) (h : 2 ≤ (litLanes s).length) : vote (allSee x) s = (s, some (txBody x)) := by
  have j : judge (litLanes s) (allSee x).v1 = .agree (txBody x) := by
    obtain ⟨p, q, e⟩ | e := filter_allLanes_pair_or_all _ h
    · rw [litLanes, e, judge_pair_allSee]
    · rw [litLanes, e, judge_allLanes_allSee]
  have same : (allSee x).v2 = (allSee x).v1 := rfl
  simp only [vote, same, j, ne_eq, not_true_eq_false, if_false]

theorem triadVotes_iff {s : State} : triadVotes s = true ↔ lanesRun s = true ∧ s.cfg.split = false := by
  simp [triadVotes]

theorem seqVoted_of_triadVotes {s : State} (h : triadVotes s = true) (dt : Nat) : seqVoted (begin' dt s) = seqNext (begin' dt s) := by
  obtain ⟨-, hsplit⟩ := triadVotes_iff.mp h
  simp [seqVoted, hsplit]

/-- A transaction that all lanes present alike commits once, with the next sequence number (R173, R176). -/
theorem exec_votedTransaction_allSee (dt : Nat) (x : LaneTx) (s : State) (hv : triadVotes s = true) (hl : 2 ≤ (litLanes s).length) :
    exec (.votedTransaction dt (allSee x)) s = .next (commitTx false {} (txBody x) (seqVoted (begin' dt s))) := by
  obtain ⟨hrun, hsplit⟩ := triadVotes_iff.mp hv
  have hvote : vote (allSee x) (begin' dt s) = (begin' dt s, some (txBody x)) := vote_allSee x _ (by rwa [litLanes_begin'])
  show execVotedTransaction dt (allSee x) s = _
  simp only [execVotedTransaction, lanesRun_begin', hrun, begin'_cfg, hsplit, votedTx, hvote, seqVoted_of_triadVotes hv, if_true, Bool.false_eq_true, if_false]
  rfl

/-! ### What the ingest port has been handed (R424) -/

/-- `t` has handed the ingest port every record that `s` has, in the same order, and perhaps more after them. -/
def Reports (s t : State) : Prop := s.evr.queue <+: t.evr.queue

theorem Reports.refl {s : State} : Reports s s := List.prefix_refl _

theorem Reports.trans {s t u : State} (h : Reports s t) (k : Reports t u) : Reports s u := List.IsPrefix.trans h k

/-- A function that leaves the recorder alone. -/
theorem Reports.keep {m : Nat} {s t u : State} (h : Reports s t) (k : Keeps m t u) (b : m.testBit 21 = true) : Reports s u := by
  rw [Reports, k.evr b]
  exact h

/-- An update of other parts in front of it. -/
theorem Reports.of_queue {s u t : State} (h : Reports u t) (e : u.evr.queue = s.evr.queue) : Reports s t := by
  rwa [Reports, e] at h

theorem Reports.ite {s a b : State} {c : Prop} [Decidable c] (h : Reports s a) (k : Reports s b) : Reports s (if c then a else b) := by
  split
  · exact h
  · exact k

theorem recordLoss_queue (s : State) : (recordLoss s).evr.queue = s.evr.queue := by
  simp only [recordLoss, cnt_evr]

theorem reports_recordLoss (s : State) : Reports s (recordLoss s) := Reports.of_queue Reports.refl (recordLoss_queue s)

theorem reports_emitAt (t ty : Nat) (p : List Byte) (s : State) : Reports s (emitAt t ty p s) := by
  rw [emitAt]
  exact Reports.ite (List.prefix_append _ _) (reports_recordLoss s)

theorem reports_emit (ty : Nat) (f : List (Nat × Nat)) (s : State) : Reports s (emit ty f s) := reports_emitAt _ _ _ _

theorem reports_lostNotice (s : State) : Reports s (lostNotice s) := by
  rw [lostNotice]
  exact Reports.ite (Reports.of_queue (reports_emitAt _ _ _ _) rfl) Reports.refl

/-- A record handed over where there is room stands in the port behind all that was there. -/
theorem records_emit (ty : Nat) (f : List (Nat × Nat)) (s : State) : Records [recNow ty f s] s (emit ty f s) := by
  intro room
  have h : s.evr.queue.length < 1024 := room
  rw [emit, emitAt_room _ _ _ _ h]
  rfl

theorem recNow_congr (ty : Nat) (f : List (Nat × Nat)) {s t : State} (h : now t = now s) : recNow ty f t = recNow ty f s := by
  simp only [recNow, h]

theorem Records.of_evr {l : List Rec} {s u t : State} (h : Records l u t) (e : u.evr = s.evr) : Records l s t := by
  rwa [Records, e] at h

/-- A record handed over is among those that any later state has handed over. -/
theorem recorded_of_reports_emit {ty : Nat} {f : List (Nat × Nat)} {s t : State} (h : Reports (emit ty f s) t) : Recorded ty s t := by
  intro room
  obtain ⟨later, e⟩ := h
  have q : (emit ty f s).evr.queue = s.evr.queue ++ [recNow ty f s] := records_emit ty f s (Nat.le_of_succ_le room)
  refine ⟨recNow ty f s, ?_, rfl⟩
  rw [← e, q, List.append_assoc, List.drop_left]
  exact List.mem_append_left _ (List.mem_singleton_self _)

theorem Recorded.of_evr {ty : Nat} {s u t : State} (h : Recorded ty u t) (e : u.evr = s.evr) : Recorded ty s t := by
  rwa [Recorded, e] at h

/-! ### What leaves the module besides data for the lanes (R17) -/

/-- Anything that leaves the module but data delivered to the lanes. -/
def Sent.notRead : Sent → Bool
  | .read _ => false
  | _ => true

/-- The command has delivered no data to the lanes. -/
def NoReads (s : State) : Prop := s.sent.all Sent.notRead = true

theorem NoReads.keep {m : Nat} {s t : State} (k : Keeps m s t) (b : m.testBit 1 = true) (h : NoReads s) : NoReads t := by
  rw [NoReads, k.sent b]
  exact h

theorem send_noReads {x : Sent} {s : State} (hx : x.notRead = true) (h : NoReads s) : NoReads (send x s) := by
  show (s.sent ++ [x]).all Sent.notRead = true
  rw [List.all_append, h]
  simp [hx]

theorem NoReads.ite {a b : State} {c : Prop} [Decidable c] (h : NoReads a) (k : NoReads b) : NoReads (if c then a else b) := by
  split
  · exact h
  · exact k

theorem NoReads.foldl {α : Type} {f : State → α → State} (hf : ∀ t x, NoReads t → NoReads (f t x)) :
    ∀ (l : List α) {i : State}, NoReads i → NoReads (l.foldl f i)
  | [], _, h => h
  | x :: l, _, h => NoReads.foldl hf l (hf _ x h)

theorem transmit_noReads {l t : Nat} {x : LinkItem} {s : State} (h : NoReads s) : NoReads (transmit l t x s) :=
  send_noReads rfl (h.keep modLink_keeps rfl)

theorem mirror_noReads {ty stream : Nat} {body : List Byte} {s : State} (h : NoReads s) : NoReads (mirror ty stream body s) := by
  have item : NoReads (mirrorItem ty stream body s).2 := h.keep mirrorItem_keeps rfl
  refine NoReads.ite ?_ h
  exact NoReads.ite item (NoReads.ite (transmit_noReads item) (item.keep modLink_keeps rfl))

theorem pumpLink_noReads {l : Nat} (n : Nat) {s : State} (h : NoReads s) : NoReads (pumpLink l n s) := by
  induction n generalizing s with
  | zero => exact h
  | succ n ih =>
    rw [pumpLink]
    refine NoReads.ite h ?_
    split
    · exact ih (transmit_noReads (h.keep modLink_keeps rfl))
    · refine NoReads.ite ?_ h
      split
      next x u e => exact ih (transmit_noReads (h.keep (KeepsS.elim copyNext_keeps e) rfl))
      next => exact h

theorem pumpLinks_noReads {dt : Nat} {s : State} (h : NoReads s) : NoReads (pumpLinks dt s) :=
  pumpLink_noReads _ (pumpLink_noReads _ (pumpLink_noReads _ h))

theorem portFrame_noReads {p : Nat} {x : OutFrame} {s : State} (h : NoReads s) : NoReads (portFrame p x s) :=
  NoReads.ite (h.keep modPort_keeps rfl)
    (NoReads.ite (h.keep busClash_keeps rfl) (send_noReads rfl (h.keep modPort_keeps rfl)))

theorem pumpPort_noReads {p : Nat} {s : State} (h : NoReads s) : NoReads (pumpPort p s) :=
  NoReads.foldl (fun _ _ k => portFrame_noReads k) _ (h.keep modPort_keeps rfl)

theorem pumpPorts_noReads {s : State} (h : NoReads s) : NoReads (pumpPorts s) :=
  pumpPort_noReads (pumpPort_noReads (pumpPort_noReads (pumpPort_noReads h)))

/-- At the start of a command frames alone have left the module. -/
theorem begin'_noReads (dt : Nat) (s : State) : NoReads (begin' dt s) := by
  have fresh : NoReads { s with sent := [] } := rfl
  have r : NoReads (rtcAdvance dt { s with sent := [] }) := fresh.keep rtcAdvance_keeps rfl
  have e : NoReads (execAdvance dt (civilAdvance dt (rtcAdvance dt { s with sent := [] }))) :=
    (r.keep civilAdvance_keeps rfl).keep execAdvance_keeps rfl
  exact NoReads.ite (pumpPorts_noReads (pumpLinks_noReads e)) r

/-! ### Pins commanded off (R8, R378) -/

theorem length_modNth {α : Type} (f : α → α) : ∀ (n : Nat) (l : List α), (modNth f n l).length = l.length
  | _, [] => by rw [modNth]
  | 0, _ :: _ => rfl
  | n + 1, _ :: t => congrArg (· + 1) (length_modNth f n t)

theorem getD_modNth_same {α : Type} (f : α → α) (d : α) : ∀ (n : Nat) (l : List α), n < l.length → (modNth f n l).getD n d = f (l.getD n d)
  | _, [], h => absurd h (Nat.not_lt_zero _)
  | 0, _ :: _, _ => rfl
  | n + 1, _ :: t, h => getD_modNth_same f d n t (Nat.lt_of_succ_lt_succ h)

theorem getD_modNth_ne {α : Type} (f : α → α) (d : α) : ∀ (n m : Nat) (l : List α), m ≠ n → (modNth f n l).getD m d = l.getD m d
  | _, _, [], _ => by rw [modNth]
  | 0, 0, _ :: _, h => absurd rfl h
  | 0, _ + 1, _ :: _, _ => rfl
  | _ + 1, 0, _ :: _, _ => rfl
  | n + 1, m + 1, _ :: t, h => getD_modNth_ne f d n m t (fun e => h (congrArg _ e))

/-- The pin is commanded off and waits for no turn to switch on. -/
def Pin.isOff (p : Pin) : Bool := !p.cmd && !p.waiting

@[simp] theorem length_pins_modPin (n : Nat) (f : Pin → Pin) (s : State) : (modPin n f s).fio.pins.length = s.fio.pins.length :=
  length_modNth f n _

theorem pin_modPin_same (n : Nat) (f : Pin → Pin) (s : State) (h : n < s.fio.pins.length) : pin n (modPin n f s) = f (pin n s) :=
  getD_modNth_same f {} n _ h

theorem pin_modPin_ne (n m : Nat) (f : Pin → Pin) (s : State) (h : m ≠ n) : pin m (modPin n f s) = pin m s :=
  getD_modNth_ne f {} n m _ h

@[simp] theorem pin_send (x : Sent) (n : Nat) (s : State) : pin n (send x s) = pin n s := rfl

@[simp] theorem length_pins_pinOff (n : Nat) (s : State) : (pinOff n s).fio.pins.length = s.fio.pins.length := by
  simp only [pinOff, sendPin]
  split <;> simp

theorem pin_pinOff_ne (n m : Nat) (s : State) (h : m ≠ n) : pin m (pinOff n s) = pin m s := by
  simp only [pinOff, sendPin]
  split <;> simp [pin_modPin_ne _ _ _ _ h]

theorem isOff_pinOff_same (n : Nat) (s : State) (h : n < s.fio.pins.length) : (pin n (pinOff n s)).isOff = true := by
  simp only [pinOff, sendPin]
  split
  next => simp [pin_modPin_same, h, Pin.isOff]
  next off => simp [pin_modPin_same, h, Pin.isOff, off]

/-- Off commands to a list of pins leave those pins off, and every pin off that was. -/
theorem isOff_pinsOff (m : Nat) : ∀ (l : List Nat) (s : State), m < s.fio.pins.length → (m ∈ l ∨ (pin m s).isOff = true) → (pin m (pinsOff l s)).isOff = true
  | [], _, _, h => h.resolve_left (List.not_mem_nil)
  | n :: l, s, hm, h => by
    have hm' : m < (pinOff n s).fio.pins.length := by rwa [length_pins_pinOff]
    refine isOff_pinsOff m l (pinOff n s) hm' ?_
    by_cases e : m = n
    · exact .inr (e ▸ isOff_pinOff_same m s hm)
    · rw [pin_pinOff_ne n m s e]
      exact h.imp_left (fun k => (List.mem_cons.mp k).resolve_left e)

theorem length_pins_pinsOff : ∀ (l : List Nat) (s : State), (pinsOff l s).fio.pins.length = s.fio.pins.length
  | [], _ => rfl
  | n :: l, s => (length_pins_pinsOff l (pinOff n s)).trans (length_pins_pinOff n s)

theorem pin_eq_getElem {m : Nat} {s : State} (h : m < s.fio.pins.length) : pin m s = s.fio.pins[m] := by
  rw [pin, List.getD_eq_getElem?_getD, List.getElem?_eq_getElem h, Option.getD_some]

theorem outputsOff_of_isOff {s : State} (h : ∀ m, m < s.fio.pins.length → (pin m s).isOff = true) : outputsOff s = true := by
  refine List.all_eq_true.mpr (fun p hp => ?_)
  obtain ⟨m, hm, rfl⟩ := List.mem_iff_getElem.mp hp
  rw [← pin_eq_getElem hm]
  exact h m hm

theorem outputsOff_congr {s t : State} (h : t.fio = s.fio) : outputsOff t = outputsOff s := by
  simp only [outputsOff, h]

/-- Off commands to all pins leave no output commanded on. -/
theorem outputsOff_pinsOff_allPins {s : State} (h : s.fio.pins.length = 32) : outputsOff (pinsOff allPins s) = true := by
  refine outputsOff_of_isOff (fun m hm => ?_)
  rw [length_pins_pinsOff] at hm
  exact isOff_pinsOff m allPins s hm (.inl (List.mem_range.mpr (h ▸ hm)))

theorem pinOff_noReads {n : Nat} {s : State} (h : NoReads s) : NoReads (pinOff n s) :=
  NoReads.ite (send_noReads rfl ((h.keep modPin_keeps rfl).keep modPin_keeps rfl)) (h.keep modPin_keeps rfl)

theorem pinsOff_noReads : ∀ (l : List Nat) {s : State}, NoReads s → NoReads (pinsOff l s)
  | [], _, h => h
  | _ :: l, _, h => pinsOff_noReads l (pinOff_noReads h)

/-! ### Entry to HALTED (R8, R151, R165), step by step -/

/-- The feed of the closed groups is cut and every pin commanded off. -/
def haltOutputs (cause : Nat) (s : State) : State := pinsOff allPins (cutPicking [0, 1, 2, 3] 15 (recordCut (closedMask s) cause s))

/-- Posts, forces and a pending exchange are given up. -/
def haltDrops (s : State) : State := xchAbort 0x14 0 (forcesHalt (endAllPosts s))

/-- An active member of a pair tells its standby. -/
def haltNotice (cause : Nat) (s : State) : State := if s.lnk.pair == .active then mirror 0x11 1 (leBytes 4 cause) s else s

/-- The mode changes, and no release and no request stays. -/
def haltMode (s : State) : State :=
  let s := setMode .halted s.prg.cause s
  { s with
    upd.act := actDropped s.upd.act,
    prg.active := [], prg.releaseHeld := false, prg.reqNormal := false, prg.reqTest := false,
    pwr.haltedSince := true, snu.edgeStored := false,
    lnk.pair := if s.lnk.pair == .active || s.lnk.pair == .synced || s.lnk.pair == .takingOver then .unsynced else s.lnk.pair }

theorem enterHalted_eq (cause : Nat) (s : State) : enterHalted cause s = haltMode (haltNotice cause (haltDrops (haltOutputs cause s))) := by
  unfold enterHalted haltMode haltNotice haltDrops haltOutputs
  rfl

theorem recordCut_reports (m c : Nat) (s : State) : Reports s (recordCut m c s) := by
  refine Reports.ite Reports.refl ?_
  refine Reports.trans ?_ (reports_emit _ _ _)
  simp only [Reports, cnt_evr, setRf_evr, List.prefix_rfl]

theorem haltOutputs_reports (cause : Nat) (s : State) : Reports s (haltOutputs cause s) :=
  ((recordCut_reports _ _ s).keep cutPicking_keeps rfl).keep pinsOff_keeps rfl

theorem haltOutputs_noReads {cause : Nat} {s : State} (h : NoReads s) : NoReads (haltOutputs cause s) :=
  pinsOff_noReads _ ((h.keep recordCut_keeps rfl).keep cutPicking_keeps rfl)

theorem haltOutputs_off {cause : Nat} {s : State} (h : s.fio.pins.length = 32) : outputsOff (haltOutputs cause s) = true := by
  refine outputsOff_pinsOff_allPins ?_
  rwa [cutPicking_keeps.fio rfl, recordCut_keeps.fio rfl]

theorem endAllPosts_reports (s : State) : Reports s (endAllPosts s) := by
  simp only [Reports, endAllPosts]
  split
  · exact (reports_recordLoss { s with evr.prog := none }).trans (reports_lostNotice _)
  · exact List.prefix_rfl

theorem forceClearRecs_reports (a b c d : Nat) : ∀ (l : List ForceEntry) (s : State), Reports s (forceClearRecs a b c d l s)
  | [], _ => Reports.refl
  | _ :: l, _ => (reports_emit _ _ _).trans (forceClearRecs_reports a b c d l _)

theorem forcesHalt_reports (s : State) : Reports s (forcesHalt s) := by
  show s.evr.queue <+: (forceClearRecs 0 0 0 0 s.frc.table s).evr.queue
  exact forceClearRecs_reports 0 0 0 0 _ s

theorem xchAbort_reports (reason detail : Nat) (s : State) : Reports s (xchAbort reason detail s) :=
  Reports.ite Reports.refl
    (Reports.keep ((Reports.refl.keep xchReason_keeps rfl).trans (reports_emit _ _ _)) xchDiscard_keeps rfl)

theorem haltDrops_reports (s : State) : Reports s (haltDrops s) :=
  ((endAllPosts_reports s).trans (forcesHalt_reports _)).trans (xchAbort_reports _ _ _)

/-- Writes at most: frc vm xch regs rings evr upd. -/
theorem haltDrops_keeps {s : State} : Keeps 56462335 s (haltDrops s) := by
  refine Keeps.step xchAbort_keeps rfl ?_
  refine Keeps.step forcesHalt_keeps rfl ?_
  exact Keeps.step endAllPosts_keeps rfl Keeps.refl

theorem haltDrops_forces (s : State) : (haltDrops s).frc.table = [] := by
  rw [haltDrops, xchAbort_keeps.frc rfl]
  rfl

/-- Writes at most: sent lnk. -/
theorem haltNotice_keeps {cause : Nat} {s : State} : Keeps 50331645 s (haltNotice cause s) := Keeps.ite mirror_keeps Keeps.refl

theorem haltNotice_noReads {cause : Nat} {s : State} (h : NoReads s) : NoReads (haltNotice cause s) := NoReads.ite (mirror_noReads h) h

theorem haltMode_reports (s : State) : Reports s (haltMode s) := by
  show s.evr.queue <+: (setMode .halted s.prg.cause s).evr.queue
  exact Reports.of_queue (reports_emit _ _ _) rfl

theorem haltMode_noReads {s : State} (h : NoReads s) : NoReads (haltMode s) := by
  show NoReads (setMode .halted s.prg.cause s)
  exact h.keep setMode_keeps rfl

theorem enterHalted_reports (cause : Nat) (s : State) : Reports s (enterHalted cause s) := by
  rw [enterHalted_eq]
  exact (((haltOutputs_reports cause s).trans (haltDrops_reports _)).keep haltNotice_keeps rfl).trans (haltMode_reports _)

theorem enterHalted_noReads {cause : Nat} {s : State} (h : NoReads s) : NoReads (enterHalted cause s) := by
  rw [enterHalted_eq]
  exact haltMode_noReads (haltNotice_noReads ((haltOutputs_noReads h).keep haltDrops_keeps rfl))

/-- The mode change leaves what the parts before it have made of the forces and the pins. -/
theorem haltMode_halted {s : State} (off : outputsOff s = true) (forces : s.frc.table = []) : Halted (haltMode s) where
  mode := by simp [haltMode, setMode]
  off := by simpa [outputsOff, haltMode, setMode] using off
  active := rfl
  req := ⟨rfl, rfl⟩
  forces := by simpa [haltMode, setMode] using forces
  edge := rfl
  since := rfl

theorem enterHalted_halted {cause : Nat} {s : State} (h : s.fio.pins.length = 32) : Halted (enterHalted cause s) := by
  rw [enterHalted_eq]
  refine haltMode_halted ?_ ?_
  · rw [outputsOff_congr (haltNotice_keeps.fio rfl), outputsOff_congr (haltDrops_keeps.fio rfl)]
    exact haltOutputs_off h
  · rw [haltNotice_keeps.frc rfl]
    exact haltDrops_forces _

/-! ### Traps and vital faults of a running module (R130, R151) -/

theorem inTrial_congr {s t : State} (h : t.cand.framErr = s.cand.framErr) (k : t.cand.sel = s.cand.sel) : inTrial t = inTrial s := by
  simp only [inTrial, selector, h, k]

/-- Whether a vital fault halts the module depends on the phase, the mode, the selector, the pins and the groups. -/
theorem mayHalt.of_eq {s t : State} (h : mayHalt s) (phase : t.pwr.phase = s.pwr.phase) (mode : t.prg.mode = s.prg.mode)
    (err : t.cand.framErr = s.cand.framErr) (sel : t.cand.sel = s.cand.sel) (fio : t.fio = s.fio) (snu : t.snu = s.snu) : mayHalt t := by
  simpa only [mayHalt, pinsOf, phase, mode, inTrial_congr err sel, fio, snu] using h

theorem mayHalt_begin' {s : State} (h : mayHalt s) (dt : Nat) : mayHalt (begin' dt s) :=
  h.of_eq (by simp) (by simp) (by simp) (by simp) (by simp) (by simp)

/-- The parts that decide whether a fault halts are bits 5, 6, 9, 19 and 20 of a mask. -/
theorem mayHalt.keep {m : Nat} {s t : State} (h : mayHalt s) (k : Keeps m s t) (b : 0x180260 &&& m = 0x180260) : mayHalt t := by
  have cand := k.cand (testBit_of_land b rfl)
  exact h.of_eq (by rw [k.pwr (testBit_of_land b rfl)]) (by rw [k.prg (testBit_of_land b rfl)]) (by rw [cand]) (by rw [cand])
    (k.fio (testBit_of_land b rfl)) (k.snu (testBit_of_land b rfl))

/-- In a running module that is not on trial a vital fault is recorded and leads to HALTED. -/
theorem vitalFault_of_mayHalt {s : State} (h : mayHalt s) (c : FaultCause) (detail : Nat) :
    vitalFault c detail s = enterHalted 1 (faultRecord c 0 (usedGroups s) detail s) := by
  have h' : mayHalt (faultRecord c 0 (usedGroups s) detail s) := h.keep faultRecord_keeps rfl
  simp only [vitalFault]
  generalize faultRecord c 0 (usedGroups s) detail s = u at h'
  obtain ⟨phase, mode, trial, -⟩ := h'
  have cand : (enterHalted 1 u).cand = u.cand := enterHalted_keeps.cand rfl
  have trial' : inTrial (enterHalted 1 u) = false := (inTrial_congr (by rw [cand]) (by rw [cand])).trans trial
  simp [phase, mode, trial']

theorem trapRecord_eq_emit (ty code : Nat) (r : Option Release) (s : State) : ∃ f, trapRecord ty r code s = emit ty f s := by
  cases r <;> exact ⟨_, rfl⟩

theorem trapFault_of_mayHalt {s : State} (h : mayHalt s) (r : Option Release) (c : TrapCause) :
    ∃ f g, trapFault r c s = enterHalted 1 (emit 0x4004 g (emit 0x4402 f s)) := by
  obtain ⟨f, e⟩ := trapRecord_eq_emit 0x4402 (Config.trapCode c).toNat r s
  have h' : mayHalt (emit 0x4402 f s) := h.keep emit_keeps rfl
  exact ⟨f, _, by rw [trapFault, e]; exact vitalFault_of_mayHalt h' _ _⟩

theorem trapFault_halted {s : State} (h : mayHalt s) (r : Option Release) (c : TrapCause) : Halted (trapFault r c s) := by
  obtain ⟨f, g, e⟩ := trapFault_of_mayHalt h r c
  obtain ⟨-, -, -, pins, -⟩ := h
  rw [e]
  exact enterHalted_halted (by simpa using pins)

theorem trapFault_recorded {s : State} (h : mayHalt s) (r : Option Release) (c : TrapCause) : Recorded 0x4402 s (trapFault r c s) := by
  obtain ⟨f, g, e⟩ := trapFault_of_mayHalt h r c
  rw [e]
  exact recorded_of_reports_emit ((reports_emit _ _ _).trans (enterHalted_reports _ _))

theorem trapFault_noReads {s : State} (h : mayHalt s) (n : NoReads s) (r : Option Release) (c : TrapCause) : NoReads (trapFault r c s) := by
  obtain ⟨f, g, e⟩ := trapFault_of_mayHalt h r c
  rw [e]
  exact enterHalted_noReads ((n.keep emit_keeps rfl).keep emit_keeps rfl)

/-! ### Committed register transactions (R16, R494) -/

theorem commitTx_regRead {x : LaneTx} (k : x.kind = .regRead) (b : Bool) (hit : MemIn) (s : State) :
    commitTx b hit (txBody x) s =
      if regAddress x.addr.toNat then send (.read (leBytes 4 (regRead x.addr.toNat s).2)) (regRead x.addr.toNat s).1
      else trapFault (running b s) .regAddress s := by
  simp only [commitTx, txBody, k]

theorem commitTx_regWrite {x : LaneTx} (k : x.kind = .regWrite) (b : Bool) (hit : MemIn) (s : State)
    (h : regAddress x.addr.toNat = true) (o : blockOpen x.addr.toNat s = true) :
    commitTx b hit (txBody x) s = regWrite x.addr.toNat (leNat (x.data.take 4)) s := by
  simp [commitTx, txBody, k, h, o]

theorem commitTx_outside {x : LaneTx} (k : x.kind = .regRead ∨ x.kind = .regWrite) (b : Bool) (hit : MemIn) (s : State)
    (h : regAddress x.addr.toNat = false) : commitTx b hit (txBody x) s = trapFault (running b s) .regAddress s := by
  obtain k | k := k <;> simp [commitTx, txBody, k, h]

theorem regAddress_lt {a : Nat} (h : regAddress a = true) : a < 2 ^ 32 := by
  simp only [regAddress, Bool.and_eq_true, decide_eq_true_eq] at h
  omega

theorem regMapped_eq_false {a : Nat} (h : 0x15 ≤ bits a 16 8) : regMapped a = false := by
  rw [regMapped, regBlk, decide_eq_false_iff_not]
  omega

theorem regMapped_eq_true {a : Nat} (h : bits a 16 8 < 0x15) : regMapped a = true := decide_eq_true h

theorem regRead_unmapped {a : Nat} (h : regMapped a = false) (s : State) : regRead a s = (unmapped a 0 s, 0) := by simp [regRead, h]

theorem regWrite_unmapped {a : Nat} (h : regMapped a = false) (w : Nat) (s : State) : regWrite a w s = unmapped a w s := by simp [regWrite, h]

theorem blockOpen_unmapped {a : Nat} (h : regMapped a = false) (s : State) : blockOpen a s = true := by simp [blockOpen, h]

theorem blockOpen_congr (a : Nat) {s t : State} (h : t.cfg = s.cfg) : blockOpen a t = blockOpen a s := by simp only [blockOpen, h]

/-! ### `UNMAPPED` (R494) -/

theorem unmapped_regsOnly (a d : Nat) (s : State) : RegsOnly [0x000008, 0x0F006C] s (unmapped a d s) := by
  intro k hk
  simp only [List.mem_cons, List.not_mem_nil, or_false, not_or] at hk
  obtain ⟨err, lost⟩ := hk
  rw [unmapped, rv_nvEvent_ne _ _ _ _ _ _ (Ne.symm lost), rv_setRf_ne _ _ _ _ _ _ (Ne.symm err)]

theorem unmapped_sets (a d : Nat) (s : State) : rf 0x000008 1 1 (unmapped a d s) = 1 := by
  rw [unmapped, rf_nvEvent_ne _ _ _ _ _ _ _ _ (by decide)]
  exact rf_setRf_same _ _ _ _ _ (by decide)

theorem unmapped_lockviol (a d : Nat) (s : State) : rf 0x000008 0 1 (unmapped a d s) = rf 0x000008 0 1 s := by
  rw [unmapped, rf_nvEvent_ne _ _ _ _ _ _ _ _ (by decide), rf_setRf_other _ _ _ _ _ _ _ (by decide) (by decide)]

theorem unmapped_records (a d : Nat) (s : State) : Records [nvNow 0 0x0003 d a s] s (unmapped a d s) := by
  have h : Records [nvNow 0 0x0003 d a (setRf 0x000008 1 1 1 s)] (setRf 0x000008 1 1 1 s) (unmapped a d s) := records_emit _ _ _
  rw [nvNow, recNow_congr _ _ (now_setRf _ _ _ _ s)] at h
  exact h.of_evr (setRf_evr _ _ _ _ s)

/-! ### Lock violations and `SYS_APP_ID` (R502, R503, R508) -/

/-- The address and the data of a violation are held where `LOCKVIOL` is clear. -/
def holdFirst (a d : Nat) (s : State) : State :=
  if rf 0x000008 0 1 s = 1 then s else setRv 0x000010 d (setRv 0x00000C (a % 2 ^ 32) s)

/-- The violation as it stands in SYS: held, flagged, counted. -/
def markViolation (a d : Nat) (s : State) : State := addRf 0x000014 0 16 1 (setRf 0x000008 0 1 1 (holdFirst a d s))

theorem lockViolation_eq (a d : Nat) (s : State) : lockViolation a d s = emit 0x0005 [(8, a), (4, d)] (markViolation a d s) := rfl

theorem rv_holdFirst_ne (a d k : Nat) (s : State) (addr : 0x00000C ≠ k) (data : 0x000010 ≠ k) : rv k (holdFirst a d s) = rv k s := by
  rw [holdFirst]
  split
  · rfl
  · rw [rv_setRv_ne _ _ _ _ data, rv_setRv_ne _ _ _ _ addr]

theorem rf_holdFirst_ne (a d k lo n : Nat) (s : State) (addr : 0x00000C ≠ k) (data : 0x000010 ≠ k) : rf k lo n (holdFirst a d s) = rf k lo n s := by
  simp only [rf, rv_holdFirst_ne a d k s addr data]

/-- Writes at most: regs. -/
theorem holdFirst_keeps {a d : Nat} {s : State} : Keeps 67092479 s (holdFirst a d s) :=
  Keeps.ite Keeps.refl (Keeps.step setRv_keeps rfl (Keeps.step setRv_keeps rfl Keeps.refl))

/-- Writes at most: regs. -/
theorem markViolation_keeps {a d : Nat} {s : State} : Keeps 67092479 s (markViolation a d s) :=
  Keeps.step addRf_keeps rfl (Keeps.step setRf_keeps rfl holdFirst_keeps)

/-- What a lock violation leaves of a register: nothing changes but what `markViolation` does to SYS and, with a full port, the count of lost records. -/
theorem rv_lockViolation (a d k : Nat) (s : State) (lost : 0x0F006C ≠ k) : rv k (lockViolation a d s) = rv k (markViolation a d s) :=
  rv_emit_ne _ _ _ _ lost

theorem rf_lockViolation (a d k lo n : Nat) (s : State) (lost : 0x0F006C ≠ k) : rf k lo n (lockViolation a d s) = rf k lo n (markViolation a d s) :=
  rf_emit_ne _ _ _ _ _ _ lost

theorem rv_markViolation_ne (a d k : Nat) (s : State) (err : 0x000008 ≠ k) (count : 0x000014 ≠ k) : rv k (markViolation a d s) = rv k (holdFirst a d s) := by
  rw [markViolation, rv_addRf_ne _ _ _ _ _ _ count, rv_setRf_ne _ _ _ _ _ _ err]

theorem lockViolation_regsOnly (a d : Nat) (s : State) :
    RegsOnly [0x000008, 0x00000C, 0x000010, 0x000014, 0x0F006C] s (lockViolation a d s) := by
  intro k hk
  simp only [List.mem_cons, List.not_mem_nil, or_false, not_or] at hk
  obtain ⟨err, addr, data, count, lost⟩ := hk
  rw [rv_lockViolation a d k s (Ne.symm lost), rv_markViolation_ne a d k s (Ne.symm err) (Ne.symm count),
    rv_holdFirst_ne a d k s (Ne.symm addr) (Ne.symm data)]

theorem lockViolation_sets (a d : Nat) (s : State) : rf 0x000008 0 1 (lockViolation a d s) = 1 := by
  rw [rf_lockViolation _ _ _ _ _ _ (by decide), markViolation, rf_addRf_ne _ _ _ _ _ _ _ _ (by decide)]
  exact rf_setRf_same _ _ _ _ _ (by decide)

theorem lockViolation_unmapped (a d : Nat) (s : State) : rf 0x000008 1 1 (lockViolation a d s) = rf 0x000008 1 1 s := by
  rw [rf_lockViolation _ _ _ _ _ _ (by decide), markViolation, rf_addRf_ne _ _ _ _ _ _ _ _ (by decide),
    rf_setRf_other _ _ _ _ _ _ _ (by decide) (by decide), rf_holdFirst_ne _ _ _ _ _ _ (by decide) (by decide)]

theorem lockViolation_counts (a d : Nat) (s : State) : rf 0x000014 0 16 (lockViolation a d s) = sat 0xFFFF (rf 0x000014 0 16 s + 1) := by
  have before : rf 0x000014 0 16 (setRf 0x000008 0 1 1 (holdFirst a d s)) = rf 0x000014 0 16 s := by
    rw [rf_setRf_ne _ _ _ _ _ _ _ _ (by decide), rf_holdFirst_ne _ _ _ _ _ _ (by decide) (by decide)]
  rw [rf_lockViolation _ _ _ _ _ _ (by decide), markViolation, addRf, rf_setRf_same _ _ _ _ _ (by decide), before]
  exact Nat.mod_eq_of_lt sat_lt

/-- The first violation since `LOCKVIOL` was last cleared is held. -/
theorem lockViolation_first (a d : Nat) (s : State) (h : rf 0x000008 0 1 s = 0) :
    rv 0x00000C (lockViolation a d s) = a % 2 ^ 32 ∧ rv 0x000010 (lockViolation a d s) = d % 2 ^ 32 := by
  have first : holdFirst a d s = setRv 0x000010 d (setRv 0x00000C (a % 2 ^ 32) s) := by rw [holdFirst, h, if_neg (by decide)]
  rw [rv_lockViolation _ _ _ _ (by decide), rv_lockViolation _ _ _ _ (by decide), rv_markViolation_ne _ _ _ _ (by decide) (by decide),
    rv_markViolation_ne _ _ _ _ (by decide) (by decide), first]
  simp [rv_setRv]

/-- A later one leaves what is held. -/
theorem lockViolation_later (a d : Nat) (s : State) (h : rf 0x000008 0 1 s = 1) :
    rv 0x00000C (lockViolation a d s) = rv 0x00000C s ∧ rv 0x000010 (lockViolation a d s) = rv 0x000010 s := by
  have later : holdFirst a d s = s := by rw [holdFirst, if_pos h]
  rw [rv_lockViolation _ _ _ _ (by decide), rv_lockViolation _ _ _ _ (by decide), rv_markViolation_ne _ _ _ _ (by decide) (by decide),
    rv_markViolation_ne _ _ _ _ (by decide) (by decide), later]
  exact ⟨rfl, rfl⟩

theorem lockViolation_records (a d : Nat) (s : State) : Records [recNow 0x0005 [(8, a), (4, d)] s] s (lockViolation a d s) := by
  have h := records_emit 0x0005 [(8, a), (4, d)] (markViolation a d s)
  rw [recNow_congr _ _ (now_congr (markViolation_keeps.clk rfl) (markViolation_keeps.cfg rfl)), ← lockViolation_eq] at h
  exact h.of_evr (markViolation_keeps.evr rfl)

/-- No write reaches a guarded register behind `LOCK` (R502). -/
theorem regWrite_guarded {a : Nat} {s : State} (m : regMapped a = true) (g : guarded (regKey a) = true) (l : locked (regKey a) s = true) (w : Nat) :
    regWrite a w s = lockViolation a w s := by
  have notTrip : regKey a ≠ 0x000018 := fun e => by rw [e] at g; exact absurd g (by decide)
  simp [regWrite, m, notTrip, g, l]

/-- `SYS_APP_ID` is no guarded register: its writes meet its own access type (R499). -/
theorem regWrite_appId {a : Nat} (m : regMapped a = true) (k : regKey a = 0x00001C) (w : Nat) (s : State) :
    regWrite a w s = w1Write a 0x00001C w s := by
  simp [regWrite, m, k, guarded, isW1]

theorem w1Write_taken {s : State} (h : rv appIdTaken s ≠ 0) (a k w : Nat) : w1Write a k w s = lockViolation a w s := by simp [w1Write, h]

theorem w1Write_alias {a : Nat} {s : State} (h : rv appIdTaken s = 0) (v : regView a ≠ 0) (k w : Nat) : w1Write a k w s = s := by simp [w1Write, h, v]

theorem w1Write_plain {a : Nat} {s : State} (h : rv appIdTaken s = 0) (v : regView a = 0) (k w : Nat) :
    w1Write a k w s = setRv appIdTaken 1 (setRv k w s) := by simp [w1Write, h, v]

/-! ### The voted register transactions of the statements -/

theorem rv_seqVoted (k : Nat) (s : State) : rv k (seqVoted s) = rv k s := by
  simp only [rv, seqVoted_keeps.regs rfl]

theorem rv_seqVoted_begin' (k dt : Nat) (s : State) : rv k (seqVoted (begin' dt s)) = rv k s := by rw [rv_seqVoted, rv_begin']

theorem rf_seqVoted_begin' (k lo n dt : Nat) (s : State) : rf k lo n (seqVoted (begin' dt s)) = rf k lo n s := by
  simp only [rf, rv_seqVoted_begin']

theorem now_seqVoted (s : State) : now (seqVoted s) = now s := now_congr (seqVoted_keeps.clk rfl) (seqVoted_keeps.cfg rfl)

theorem evr_seqVoted_begin' (dt : Nat) (s : State) : (seqVoted (begin' dt s)).evr = s.evr := by rw [seqVoted_keeps.evr rfl, begin'_evr]

theorem RegsOnly.after_vote {l : List Nat} {dt : Nat} {s t : State} (h : RegsOnly l (seqVoted (begin' dt s)) t) : RegsOnly l s t :=
  fun k hk => (h k hk).trans (rv_seqVoted_begin' k dt s)

theorem Records.after_vote {ty : Nat} {f : List (Nat × Nat)} {dt : Nat} {s t : State}
    (h : Records [recNow ty f (seqVoted (begin' dt s))] (seqVoted (begin' dt s)) t) : Records [recNow ty f (begin' dt s)] s t := by
  rw [recNow_congr ty f (now_seqVoted _)] at h
  exact h.of_evr (evr_seqVoted_begin' dt s)

theorem blockOpen_seqVoted_begin' (a dt : Nat) (s : State) : blockOpen a (seqVoted (begin' dt s)) = blockOpen a s :=
  blockOpen_congr a ((seqVoted_keeps.cfg rfl).trans (begin'_cfg dt s))

theorem locked_seqVoted_begin' (k dt : Nat) (s : State) : locked k (seqVoted (begin' dt s)) = locked k s := by
  simp only [locked, rv_seqVoted_begin']

/-- A voted register write to an open block is one register write (R16). -/
theorem exec_voted_regWrite {x : LaneTx} {s : State} (dt : Nat) (hv : triadVotes s = true) (hl : 2 ≤ (litLanes s).length)
    (ha : regAddress x.addr.toNat = true) (hk : x.kind = .regWrite) (ho : blockOpen x.addr.toNat s = true) :
    exec (.votedTransaction dt (allSee x)) s = .next (regWrite x.addr.toNat (leNat (x.data.take 4)) (seqVoted (begin' dt s))) := by
  rw [exec_votedTransaction_allSee dt x s hv hl, commitTx_regWrite hk _ _ _ ha (by rwa [blockOpen_seqVoted_begin'])]

theorem exec_voted_outside {x : LaneTx} {s : State} (dt : Nat) (hv : triadVotes s = true) (hl : 2 ≤ (litLanes s).length)
    (ha : regAddress x.addr.toNat = false) (hk : x.kind = .regRead ∨ x.kind = .regWrite) :
    exec (.votedTransaction dt (allSee x)) s =
      .next (trapFault (running false (seqVoted (begin' dt s))) .regAddress (seqVoted (begin' dt s))) := by
  rw [exec_votedTransaction_allSee dt x s hv hl, commitTx_outside hk _ _ _ ha]

/-- What an access to an unmapped block changes, beside the word that a read delivers (R494). -/
theorem unmapped_after_vote (a d dt : Nat) (s : State) :
    let t := unmapped a d (seqVoted (begin' dt s))
    RegsOnly [0x000008, 0x0F006C] s t ∧ rf 0x000008 1 1 t = 1 ∧ rf 0x000008 0 1 t = rf 0x000008 0 1 s
      ∧ Records [nvNow 0 0x0003 d a (begin' dt s)] s t :=
  ⟨(unmapped_regsOnly _ _ _).after_vote, unmapped_sets _ _ _, (unmapped_lockviol _ _ _).trans (rf_seqVoted_begin' _ _ _ _ _),
    Records.after_vote (unmapped_records _ _ _)⟩

/-! ### Instructions that trap (R125, R130) -/

theorem modCtx_mode (b : Bool) (f : Release → Release) (s : State) : (modCtx b f s).prg.mode = s.prg.mode := by
  rw [modCtx]
  split <;> rfl

theorem mayHalt_vstart {s : State} (h : mayHalt s) (dt : Nat) (w : VInstr) : mayHalt (vstart dt w s) := by
  have k : Keeps 67108351 (begin' dt s) (vstart dt w s) := advance_keeps
  exact (mayHalt_begin' h dt).of_eq (by rw [k.pwr rfl]) (modCtx_mode _ _ _) (by rw [k.cand rfl]) (by rw [k.cand rfl]) (k.fio rfl) (k.snu rfl)

theorem evr_vstart (dt : Nat) (w : VInstr) (s : State) : (vstart dt w s).evr = s.evr := (advance_keeps.evr rfl).trans (begin'_evr dt s)

/-- An instruction that runs leaves what its operation leaves, from the index of the next instruction on. -/
theorem vExecBy_of_runs {dt subs : Nat} {w : VInstr} {s : State} (h : Runs dt subs w s) (f : Bool → Nat → State → Ev) :
    vExecBy dt subs w f s = vEnd (vlane w s) (f (vlane w s) w.ty.toNat (vstart dt w s)) := by
  obtain ⟨run, ty, sub⟩ := h
  have lane : (w.laneB && (begin' dt s).cfg.split) = vlane w s := by simp only [begin'_cfg, vlane]
  simp only [vExecBy, lane, run, ty, sub, and_self, if_true]
  rfl

/-- A run-time trap of an instruction halts the module and is recorded (R130, R151). -/
theorem vExecBy_trap_halts {dt subs : Nat} {w : VInstr} {s : State} (h : Runs dt subs w s) (m : mayHalt s) {f : Bool → Nat → State → Ev}
    {c : TrapCause} (e : f (vlane w s) w.ty.toNat (vstart dt w s) = .trap c (vstart dt w s)) :
    Yields (.next (vExecBy dt subs w f s)) (fun t => Halted t ∧ Recorded 0x4402 s t) := by
  have m' := mayHalt_vstart m dt w
  refine ⟨_, rfl, ?_⟩
  rw [vExecBy_of_runs h, e]
  exact ⟨trapFault_halted m' _ c, (trapFault_recorded m' _ c).of_evr (evr_vstart dt w s)⟩

/-- An address outside the register region traps a read (R130). -/
theorem doRdreg_outside {w : VInstr} {b : Bool} {v : Nat} {s : State} (mode : s.prg.mode ≠ .halted)
    (e : slotRead b w.src1 0 s = .ok s v) (h : regAddress v = false) : doRdreg w b s = .trap .regAddress s := by
  simp [doRdreg, e, Ev.bind, mode, h]

/-- It traps a write; in a conversion block, which may write no register, so does every address (R130, R257). -/
theorem doWrreg_outside {w : VInstr} {b : Bool} {v : Nat} {s : State} (mode : s.prg.mode ≠ .halted)
    (e : slotRead b w.src1 0 s = .ok s v) (h : regAddress v = false) : ∃ c, doWrreg w b s = .trap c s := by
  cases k : (ctx b s).conv.isSome
  · exact ⟨.regAddress, by simp [doWrreg, e, Ev.bind, mode, h, k]⟩
  · exact ⟨.write, by simp [doWrreg, e, Ev.bind, mode, k]⟩

/-! ### The obligations -/

/-- Settles O58: an unmapped access is `unmapped` after the vote; an access outside the region is a trap, and a trap in a running module enters HALTED. -/
theorem unmappedRegisterAccess : Obligations.UnmappedRegisterAccess := by
  unfold Obligations.UnmappedRegisterAccess
  intro dt x w s
  refine ⟨fun hv hl ha hb => ?_, fun hv hl hm ha hk => ?_, fun v hrun hm he ha => ?_⟩
  · have um : regMapped x.addr.toNat = false := regMapped_eq_false hb
    have kept (d : Nat) : Keeps 64995199 (begin' dt s) (unmapped x.addr.toNat d (seqVoted (begin' dt s))) :=
      Keeps.step unmapped_keeps rfl (Keeps.step seqVoted_keeps rfl Keeps.refl)
    have tri (d : Nat) : (unmapped x.addr.toNat d (seqVoted (begin' dt s))).tri = (seqVoted (begin' dt s)).tri := unmapped_keeps.tri rfl
    refine ⟨fun hk => ?_, fun hk => ?_⟩
    · obtain ⟨regs, set, other, records⟩ := unmapped_after_vote x.addr.toNat 0 dt s
      refine ⟨send (.read (leBytes 4 0)) (unmapped x.addr.toNat 0 (seqVoted (begin' dt s))), ?_, ?_, ?_, tri 0, regs, set, other, records⟩
      · rw [exec_votedTransaction_allSee dt x s hv hl, commitTx_regRead hk, if_pos ha, regRead_unmapped um]
      · have delivers : Keeps 64995197 (begin' dt s) (send (.read (leBytes 4 0)) (unmapped x.addr.toNat 0 (seqVoted (begin' dt s)))) :=
          Keeps.step send_keeps rfl ((kept 0).mono rfl)
        exact delivers.writesOnly (by decide)
      · rw [send, (kept 0).sent rfl]
    · obtain ⟨regs, set, other, records⟩ := unmapped_after_vote x.addr.toNat (leNat (x.data.take 4)) dt s
      refine ⟨_, exec_voted_regWrite dt hv hl ha hk (blockOpen_unmapped um s), ?_⟩
      rw [regWrite_unmapped um]
      exact ⟨(kept _).writesOnly (by decide), tri _, regs, set, other, records⟩
  · have hm' : mayHalt (seqVoted (begin' dt s)) := (mayHalt_begin' hm dt).keep seqVoted_keeps rfl
    refine ⟨_, exec_voted_outside dt hv hl ha hk, trapFault_halted hm' _ _, ?_, ?_⟩
    · exact (trapFault_recorded hm' _ _).of_evr (evr_seqVoted_begin' dt s)
    · exact trapFault_noReads hm' ((begin'_noReads dt s).keep seqVoted_keeps rfl) _ _
  · obtain ⟨-, mode, -⟩ := mayHalt_vstart hm dt w
    refine ⟨vExecBy_trap_halts hrun hm (doRdreg_outside mode he ha), ?_⟩
    obtain ⟨c, trap⟩ := doWrreg_outside mode he ha
    exact vExecBy_trap_halts hrun hm trap

/-- Settles O59: a write behind `LOCK` and a second write of `SYS_APP_ID` are one lock violation after the vote; an earlier write of `SYS_APP_ID` meets its access type. -/
theorem lockViolations : Obligations.LockViolations := by
  unfold Obligations.LockViolations
  intro dt x s hv hl ha hk hb ho k d
  have mapped : regMapped x.addr.toNat = true := regMapped_eq_true hb
  have written := exec_voted_regWrite dt hv hl ha hk ho
  refine ⟨fun hviol => ?_, fun happ hfree hview => ?_, fun happ hfree hview => ?_⟩
  · have violates : regWrite x.addr.toNat d (seqVoted (begin' dt s)) = lockViolation x.addr.toNat d (seqVoted (begin' dt s)) := by
      obtain ⟨hg, hlock⟩ | ⟨happ, htaken⟩ := hviol
      · exact regWrite_guarded mapped hg (by rwa [locked_seqVoted_begin']) d
      · rw [regWrite_appId mapped happ, w1Write_taken (by rwa [rv_seqVoted_begin'])]
    refine ⟨_, written.trans (congrArg _ violates), ?_, lockViolation_keeps.tri rfl, (lockViolation_regsOnly _ _ _).after_vote,
      lockViolation_sets _ _ _, ?_, ?_, fun hclear => ?_, fun hset => ?_, Records.after_vote (lockViolation_records _ _ _)⟩
    · have kept : Keeps 64995199 (begin' dt s) (lockViolation x.addr.toNat d (seqVoted (begin' dt s))) :=
        Keeps.step lockViolation_keeps rfl (Keeps.step seqVoted_keeps rfl Keeps.refl)
      exact kept.writesOnly (by decide)
    · rw [lockViolation_unmapped, rf_seqVoted_begin']
    · rw [lockViolation_counts, rf_seqVoted_begin']
    · rw [← rf_seqVoted_begin' _ _ _ dt] at hclear
      obtain ⟨addr, data⟩ := lockViolation_first x.addr.toNat d _ hclear
      exact ⟨addr.trans (Nat.mod_eq_of_lt (regAddress_lt ha)), data.trans (Nat.mod_eq_of_lt (leNat_take_lt _))⟩
    · rw [← rf_seqVoted_begin' _ _ _ dt] at hset
      obtain ⟨addr, data⟩ := lockViolation_later x.addr.toNat d _ hset
      exact ⟨addr.trans (rv_seqVoted_begin' _ _ _), data.trans (rv_seqVoted_begin' _ _ _)⟩
  · rw [written, regWrite_appId mapped happ, w1Write_alias (by rwa [rv_seqVoted_begin']) hview]
  · have plain : regWrite x.addr.toNat d (seqVoted (begin' dt s)) = setRv appIdTaken 1 (setRv 0x00001C d (seqVoted (begin' dt s))) := by
      rw [regWrite_appId mapped happ, w1Write_plain (by rwa [rv_seqVoted_begin']) hview]
    refine ⟨_, written.trans (congrArg _ plain), ?_, fun j hj => ?_, ?_, ?_⟩
    · have kept : Keeps 67092351 (begin' dt s) (setRv appIdTaken 1 (setRv 0x00001C d (seqVoted (begin' dt s)))) :=
        Keeps.step setRv_keeps rfl (Keeps.step setRv_keeps rfl (Keeps.step seqVoted_keeps rfl Keeps.refl))
      exact kept.writesOnly (by decide)
    · simp only [List.mem_cons, List.not_mem_nil, or_false, not_or] at hj
      obtain ⟨appId, taken⟩ := hj
      rw [rv_setRv_ne _ _ _ _ (Ne.symm taken), rv_setRv_ne _ _ _ _ (Ne.symm appId), rv_seqVoted_begin']
    · rw [rv_setRv_ne _ _ _ _ (by decide), rv_setRv, if_pos rfl]
      exact Nat.mod_eq_of_lt (leNat_take_lt _)
    · rw [rv_setRv, if_pos rfl]
      decide

end Sys2Proof.Machine
end
